-- ==== Sys2Proof/Word.lean ====
section
/-! DEFINITION. The word types of the JZ2524 (bytes, registers, addresses) and the numbers of its parts. -/

namespace Sys2Proof

/-- A byte of memory. -/
abbrev Byte := BitVec 8
/-- A general register, control register or doubleword (R29, R27). -/
abbrev Word := BitVec 64
/-- An instruction word (R30). -/
abbrev IWord := BitVec 32
/-- A linear address or segment offset field of a descriptor (R95). -/
abbrev Lin := BitVec 52
/-- The number of a general register g0–g63 (R29). -/
abbrev Greg := BitVec 6
/-- A vector register v0–v31 (R144). -/
abbrev Vreg := BitVec 5
/-- A mask register m0–m7 (R144). -/
abbrev Mreg := BitVec 3
/-- A tile t0–t7 of a core (R207). -/
abbrev Tile := BitVec 3
/-- A segment register sg0–sg7 (R96). -/
abbrev Sreg := BitVec 3
/-- A global core number: 4·d + k on C-die d, 96–99 for S0–S3 (R111). -/
abbrev CoreId := Fin 100
/-- A die ID: 0–23 for C00–C23, 24 for the K-die (R6). -/
abbrev Die := Fin 25
/-- A C-die (R6). -/
abbrev CDie := Fin 24
/-- A core's number on its die (R6). -/
abbrev CoreK := Fin 4
/-- A gang (R243). -/
abbrev Gang := Fin 4
/-- An HBM stack HS0–HS15 (R8). -/
abbrev Stack := Fin 16
/-- A stream number (R288). -/
abbrev StreamId := BitVec 18
/-- A sync object (R304). -/
abbrev SyncId := BitVec 16
/-- A timed trigger (R308). -/
abbrev TrigId := BitVec 8
/-- A Trowel window (R317). -/
abbrev WinId := BitVec 10
/-- An interrupt vector (R106). -/
abbrev Vec8 := BitVec 8

/-- The die ID of the K-die (R6). -/
def kdie : Die := ⟨24, by decide⟩

/-- The die a core sits on (R6, R111): four cores a C-die, S0–S3 on the K-die. -/
def dieOf (c : CoreId) : Die := ⟨c.val / 4, by omega⟩

/-- A core's number k on its die (R6). -/
def coreK (c : CoreId) : CoreK := ⟨c.val % 4, by omega⟩

/-- A core from its die and its number (R6, R111). -/
def coreOf (d : Die) (k : CoreK) : CoreId := ⟨4 * d.val + k.val, by omega⟩

/-- The core of a global number (R111). -/
def coreNo (n : Nat) : Option CoreId := if h : n < 100 then some ⟨n, h⟩ else none

/-- A C-die as a die. -/
def CDie.die (d : CDie) : Die := ⟨d.val, by omega⟩

/-- A C-die, if the die is one. -/
def asCDie (d : Die) : Option CDie := if h : d.val < 24 then some ⟨d.val, h⟩ else none

/-- Is the core one of the system cores S0–S3 of the K-die (R65)? -/
def isSystem (c : CoreId) : Bool := decide (96 ≤ c.val)

end Sys2Proof
end

