-- ==== Sys2Proof/Syntax.lean ====
section
/-! DEFINITION. The commands of the module: one constructor per row of spec/opcode_table.json. An instruction of a core
names the core and the instruction's encoded fields (R31, R153, R216); an event or packet names the unit it happens at
and carries what the environment supplies. -/

namespace Sys2Proof

/-- The fields of a vector instruction's two words that its row does not fix (R153). -/
structure VFields where
  vd : BitVec 6 := 0
  va : BitVec 6 := 0
  vb : BitVec 6 := 0
  form : BitVec 2 := 0
  mkr : BitVec 3 := 0
  me : Bool := false
  z : Bool := false
  sg : BitVec 3 := 0
  ga : BitVec 6 := 0
  gb : BitVec 6 := 0
  imm : BitVec 12 := 0
  deriving DecidableEq, Repr

/-- The fields of a tile, gang or engine instruction's two words that its row does not fix (R216). -/
structure TFields where
  ta : BitVec 3 := 0
  tb : BitVec 3 := 0
  td : BitVec 3 := 0
  add : Bool := false
  fin : Bool := false
  rsv0 : BitVec 9 := 0
  ga : BitVec 6 := 0
  gb : BitVec 6 := 0
  sg : BitVec 3 := 0
  rsv1 : Bool := false
  imm : BitVec 16 := 0
  deriving DecidableEq, Repr

/-- The fields of a Glaze instruction's two words that its row does not fix (R278): SLOT and GD of word 0 with its other
bits, and word 1 as R216. -/
structure GFields where
  slot : BitVec 4 := 0
  gd : BitVec 6 := 0
  rsv0 : BitVec 10 := 0
  ga : BitVec 6 := 0
  gb : BitVec 6 := 0
  sg : BitVec 3 := 0
  rsv1 : Bool := false
  imm : BitVec 16 := 0
  deriving DecidableEq, Repr

/-- Who writes or reads a control register: a core, or the host by MWR and MRD (R27, R375). -/
inductive Src where
  | core (c : CoreId)
  | host
  | mc
  deriving DecidableEq, Repr

/-- A packet in a received flit that has a reserved TYPE, a LEN other than its fields require or an RSV bit that is not 0 (R372): its TYPE,
LEN, TAG and, for an MWR, ACKREQ. Well-formed packets are rows of their own. -/
structure OddPkt where
  type : BitVec 8
  len : BitVec 10
  tag : BitVec 14
  ackreq : Bool
  deriving DecidableEq, Repr

/-- The three links with flits and retry (R360, R393, R415). -/
inductive LinkId where
  | agd | twn | hwk
  deriving DecidableEq, Repr

/-- The MC's MCTP bindings (R500). -/
inductive Bind where
  | smb | agd
  deriving DecidableEq, Repr

/-- The reset sources of RST_CAUSE that assert from outside a register write of a gang, die or block (R422, R442). -/
inductive RstSrc where
  | powerOn | supply | resetN | mcCold | twinResetN | agdReset | watchdog | ctlWarm | refclk
  deriving DecidableEq, Repr

/-- A sensor's ID and the value the MC has sampled (R493). -/
structure Sample where
  id : BitVec 16 := 0
  value : BitVec 16 := 0
  deriving DecidableEq, Repr

/-- A request that waits for a response (R461): a DRD, an MIRW, a store not acknowledged, an access a core, an engine or
a K-die engine waits with. -/
inductive Outst where
  | drd (tag : BitVec 10)
  | mirw (tag : BitVec 14)
  /-- A posted write to a host window, by the host address in its packet, and a request to the cartridge. -/
  | dwr (addr : Word)
  | hawk (tag : BitVec 14)
  | store (c : CoreId) (pa : BitVec 48)
  | access (c : CoreId)
  | engine (d : CDie)
  | kdie
  deriving DecidableEq, Repr

/-- The commands: one constructor per row of spec/opcode_table.json, in its order. -/
inductive Instr where
  | add (c : CoreId) (gd ga gb : Greg)
  | sub (c : CoreId) (gd ga gb : Greg)
  | and (c : CoreId) (gd ga gb : Greg)
  | or (c : CoreId) (gd ga gb : Greg)
  | xor (c : CoreId) (gd ga gb : Greg)
  | andn (c : CoreId) (gd ga gb : Greg)
  | slt (c : CoreId) (gd ga gb : Greg)
  | sltu (c : CoreId) (gd ga gb : Greg)
  | sll (c : CoreId) (gd ga gb : Greg)
  | srl (c : CoreId) (gd ga gb : Greg)
  | sra (c : CoreId) (gd ga gb : Greg)
  | ror (c : CoreId) (gd ga gb : Greg)
  | slli (c : CoreId) (gd ga gb : Greg)
  | srli (c : CoreId) (gd ga gb : Greg)
  | srai (c : CoreId) (gd ga gb : Greg)
  | rori (c : CoreId) (gd ga gb : Greg)
  | addw (c : CoreId) (gd ga gb : Greg)
  | subw (c : CoreId) (gd ga gb : Greg)
  | min (c : CoreId) (gd ga gb : Greg)
  | max (c : CoreId) (gd ga gb : Greg)
  | minu (c : CoreId) (gd ga gb : Greg)
  | maxu (c : CoreId) (gd ga gb : Greg)
  | clz (c : CoreId) (gd ga gb : Greg)
  | ctz (c : CoreId) (gd ga gb : Greg)
  | popc (c : CoreId) (gd ga gb : Greg)
  | bswap (c : CoreId) (gd ga gb : Greg)
  | sextb (c : CoreId) (gd ga gb : Greg)
  | sexth (c : CoreId) (gd ga gb : Greg)
  | sextw (c : CoreId) (gd ga gb : Greg)
  | zextw (c : CoreId) (gd ga gb : Greg)
  | addi (c : CoreId) (gd ga : Greg) (imm : BitVec 14)
  | andi (c : CoreId) (gd ga : Greg) (imm : BitVec 14)
  | ori (c : CoreId) (gd ga : Greg) (imm : BitVec 14)
  | xori (c : CoreId) (gd ga : Greg) (imm : BitVec 14)
  | slti (c : CoreId) (gd ga : Greg) (imm : BitVec 14)
  | sltiu (c : CoreId) (gd ga : Greg) (imm : BitVec 14)
  | lui (c : CoreId) (gd : Greg) (imm : BitVec 20)
  | mul (c : CoreId) (gd ga gb : Greg)
  | mulh (c : CoreId) (gd ga gb : Greg)
  | mulhu (c : CoreId) (gd ga gb : Greg)
  | mulw (c : CoreId) (gd ga gb : Greg)
  | div (c : CoreId) (gd ga gb : Greg)
  | divu (c : CoreId) (gd ga gb : Greg)
  | rem (c : CoreId) (gd ga gb : Greg)
  | remu (c : CoreId) (gd ga gb : Greg)
  | fadd (c : CoreId) (gd ga gb : Greg) (dbl : Bool)
  | fsub (c : CoreId) (gd ga gb : Greg) (dbl : Bool)
  | fmul (c : CoreId) (gd ga gb : Greg) (dbl : Bool)
  | fdiv (c : CoreId) (gd ga gb : Greg) (dbl : Bool)
  | fsqrt (c : CoreId) (gd ga gb : Greg) (dbl : Bool)
  | fma (c : CoreId) (gd ga gb : Greg) (dbl : Bool)
  | fmin (c : CoreId) (gd ga gb : Greg) (dbl : Bool)
  | fmax (c : CoreId) (gd ga gb : Greg) (dbl : Bool)
  | feq (c : CoreId) (gd ga gb : Greg) (dbl : Bool)
  | flt (c : CoreId) (gd ga gb : Greg) (dbl : Bool)
  | fle (c : CoreId) (gd ga gb : Greg) (dbl : Bool)
  | fcvtI (c : CoreId) (gd ga gb : Greg) (dbl : Bool)
  | fcvtF (c : CoreId) (gd ga gb : Greg) (dbl : Bool)
  | fcvtP (c : CoreId) (gd ga gb : Greg) (dbl : Bool)
  | ldb (c : CoreId) (gt ga : Greg) (sg : Sreg) (disp : BitVec 11)
  | ldbu (c : CoreId) (gt ga : Greg) (sg : Sreg) (disp : BitVec 11)
  | ldh (c : CoreId) (gt ga : Greg) (sg : Sreg) (disp : BitVec 11)
  | ldhu (c : CoreId) (gt ga : Greg) (sg : Sreg) (disp : BitVec 11)
  | ldw (c : CoreId) (gt ga : Greg) (sg : Sreg) (disp : BitVec 11)
  | ldwu (c : CoreId) (gt ga : Greg) (sg : Sreg) (disp : BitVec 11)
  | ldd (c : CoreId) (gt ga : Greg) (sg : Sreg) (disp : BitVec 11)
  | ldx (c : CoreId) (gt ga gb : Greg) (sg : Sreg) (ctl : BitVec 5)
  | stb (c : CoreId) (gt ga : Greg) (sg : Sreg) (disp : BitVec 11)
  | sth (c : CoreId) (gt ga : Greg) (sg : Sreg) (disp : BitVec 11)
  | stw (c : CoreId) (gt ga : Greg) (sg : Sreg) (disp : BitVec 11)
  | std (c : CoreId) (gt ga : Greg) (sg : Sreg) (disp : BitVec 11)
  | stx (c : CoreId) (gt ga gb : Greg) (sg : Sreg) (ctl : BitVec 5)
  | ldAcq (c : CoreId) (gt ga gb : Greg) (sg : Sreg) (ctl : BitVec 5)
  | stRel (c : CoreId) (gt ga gb : Greg) (sg : Sreg) (ctl : BitVec 5)
  | atomSwap (c : CoreId) (gd ga gb : Greg) (sg : Sreg) (ord : BitVec 2) (dw : Bool)
  | atomAdd (c : CoreId) (gd ga gb : Greg) (sg : Sreg) (ord : BitVec 2) (dw : Bool)
  | atomAnd (c : CoreId) (gd ga gb : Greg) (sg : Sreg) (ord : BitVec 2) (dw : Bool)
  | atomOr (c : CoreId) (gd ga gb : Greg) (sg : Sreg) (ord : BitVec 2) (dw : Bool)
  | atomXor (c : CoreId) (gd ga gb : Greg) (sg : Sreg) (ord : BitVec 2) (dw : Bool)
  | atomSmax (c : CoreId) (gd ga gb : Greg) (sg : Sreg) (ord : BitVec 2) (dw : Bool)
  | atomSmin (c : CoreId) (gd ga gb : Greg) (sg : Sreg) (ord : BitVec 2) (dw : Bool)
  | atomUmax (c : CoreId) (gd ga gb : Greg) (sg : Sreg) (ord : BitVec 2) (dw : Bool)
  | atomUmin (c : CoreId) (gd ga gb : Greg) (sg : Sreg) (ord : BitVec 2) (dw : Bool)
  | cas (c : CoreId) (gd ga gb : Greg) (sg : Sreg) (ord : BitVec 2) (dw : Bool)
  | fenceLl (c : CoreId) (gd ga gb : Greg)
  | fenceSs (c : CoreId) (gd ga gb : Greg)
  | fenceFull (c : CoreId) (gd ga gb : Greg)
  | fenceEng (c : CoreId) (gd ga gb : Greg)
  | isync (c : CoreId) (gd ga gb : Greg)
  | beq (c : CoreId) (ga gb : Greg) (disp : BitVec 14)
  | bne (c : CoreId) (ga gb : Greg) (disp : BitVec 14)
  | blt (c : CoreId) (ga gb : Greg) (disp : BitVec 14)
  | bge (c : CoreId) (ga gb : Greg) (disp : BitVec 14)
  | bltu (c : CoreId) (ga gb : Greg) (disp : BitVec 14)
  | bgeu (c : CoreId) (ga gb : Greg) (disp : BitVec 14)
  | j (c : CoreId) (disp : BitVec 26)
  | call (c : CoreId) (disp : BitVec 26)
  | jr (c : CoreId) (gd ga gb : Greg)
  | callr (c : CoreId) (gd ga gb : Greg)
  | loop (c : CoreId) (n : BitVec 2) (gc : Greg) (disp : BitVec 18)
  | movcR (c : CoreId) (g : Greg) (creg : BitVec 12)
  | movcW (c : CoreId) (g : Greg) (creg : BitVec 12)
  | statusWrite (c : CoreId) (g : Greg)
  | tableBaseWrite (c : CoreId) (g : Greg) (creg : BitVec 12)
  | ptbWrite (c : CoreId) (g : Greg)
  | loopRegWrite (c : CoreId) (g : Greg) (creg : BitVec 12)
  | vlWrite (c : CoreId) (g : Greg)
  | vtypeWrite (c : CoreId) (g : Greg)
  | fpflagsWrite (c : CoreId) (g : Greg)
  | tcfgWrite (c : CoreId) (g : Greg) (creg : BitVec 12)
  | movsg (c : CoreId) (g : Greg) (code : BitVec 12)
  | movsgR (c : CoreId) (g : Greg) (code : BitVec 12)
  | callg (c : CoreId) (g : Greg) (code : BitVec 12)
  | retg (c : CoreId) (g : Greg) (code : BitVec 12)
  | retx (c : CoreId) (g : Greg) (code : BitVec 12)
  | brk (c : CoreId) (g : Greg) (code : BitVec 12)
  | wfi (c : CoreId) (g : Greg) (code : BitVec 12)
  | interruptDelivery (c : CoreId) (vec : Vec8) (die : Die)
  | eventAccept (c : CoreId)
  | vcfg (c : CoreId) (f : VFields)
  | vcfgr (c : CoreId) (f : VFields)
  | vadd (c : CoreId) (f : VFields)
  | vsub (c : CoreId) (f : VFields)
  | vrsub (c : CoreId) (f : VFields)
  | vand (c : CoreId) (f : VFields)
  | vor (c : CoreId) (f : VFields)
  | vxor (c : CoreId) (f : VFields)
  | vsll (c : CoreId) (f : VFields)
  | vsrl (c : CoreId) (f : VFields)
  | vsra (c : CoreId) (f : VFields)
  | vmin (c : CoreId) (f : VFields)
  | vmax (c : CoreId) (f : VFields)
  | vminu (c : CoreId) (f : VFields)
  | vmaxu (c : CoreId) (f : VFields)
  | vmul (c : CoreId) (f : VFields)
  | vmulh (c : CoreId) (f : VFields)
  | vmulhu (c : CoreId) (f : VFields)
  | vmacc (c : CoreId) (f : VFields)
  | vsadd (c : CoreId) (f : VFields)
  | vsaddu (c : CoreId) (f : VFields)
  | vssub (c : CoreId) (f : VFields)
  | vssubu (c : CoreId) (f : VFields)
  | vmerge (c : CoreId) (f : VFields)
  | vmv (c : CoreId) (f : VFields)
  | vfadd (c : CoreId) (f : VFields)
  | vfsub (c : CoreId) (f : VFields)
  | vfmul (c : CoreId) (f : VFields)
  | vfdiv (c : CoreId) (f : VFields)
  | vfsqrt (c : CoreId) (f : VFields)
  | vfma (c : CoreId) (f : VFields)
  | vfnma (c : CoreId) (f : VFields)
  | vfmin (c : CoreId) (f : VFields)
  | vfmax (c : CoreId) (f : VFields)
  | vfabs (c : CoreId) (f : VFields)
  | vfneg (c : CoreId) (f : VFields)
  | vfcvtI (c : CoreId) (f : VFields)
  | vfcvtF (c : CoreId) (f : VFields)
  | vfcvtW (c : CoreId) (f : VFields)
  | vfcvtN (c : CoreId) (f : VFields)
  | vwmul (c : CoreId) (f : VFields)
  | vwmulu (c : CoreId) (f : VFields)
  | vwmulsu (c : CoreId) (f : VFields)
  | vwmacc (c : CoreId) (f : VFields)
  | vwmaccu (c : CoreId) (f : VFields)
  | vwmaccsu (c : CoreId) (f : VFields)
  | vfwmul (c : CoreId) (f : VFields)
  | vfwma (c : CoreId) (f : VFields)
  | vdot4 (c : CoreId) (f : VFields)
  | vdot4u (c : CoreId) (f : VFields)
  | vdot4su (c : CoreId) (f : VFields)
  | vfdot4 (c : CoreId) (f : VFields)
  | vdot2 (c : CoreId) (f : VFields)
  | vdot2u (c : CoreId) (f : VFields)
  | vfdot2 (c : CoreId) (f : VFields)
  | vcmpeq (c : CoreId) (f : VFields)
  | vcmpne (c : CoreId) (f : VFields)
  | vcmplt (c : CoreId) (f : VFields)
  | vcmpltu (c : CoreId) (f : VFields)
  | vcmple (c : CoreId) (f : VFields)
  | vcmpleu (c : CoreId) (f : VFields)
  | vcmpgt (c : CoreId) (f : VFields)
  | vcmpgtu (c : CoreId) (f : VFields)
  | vfcmpeq (c : CoreId) (f : VFields)
  | vfcmplt (c : CoreId) (f : VFields)
  | vfcmple (c : CoreId) (f : VFields)
  | vfcmpun (c : CoreId) (f : VFields)
  | mand (c : CoreId) (f : VFields)
  | mor (c : CoreId) (f : VFields)
  | mxor (c : CoreId) (f : VFields)
  | mandn (c : CoreId) (f : VFields)
  | mnot (c : CoreId) (f : VFields)
  | mset (c : CoreId) (f : VFields)
  | mpopc (c : CoreId) (f : VFields)
  | mfirst (c : CoreId) (f : VFields)
  | vget (c : CoreId) (f : VFields)
  | vgetu (c : CoreId) (f : VFields)
  | vput (c : CoreId) (f : VFields)
  | vslideup (c : CoreId) (f : VFields)
  | vslidedn (c : CoreId) (f : VFields)
  | vperm (c : CoreId) (f : VFields)
  | vredsum (c : CoreId) (f : VFields)
  | vredmax (c : CoreId) (f : VFields)
  | vredmin (c : CoreId) (f : VFields)
  | vredmaxu (c : CoreId) (f : VFields)
  | vredminu (c : CoreId) (f : VFields)
  | vfredsum (c : CoreId) (f : VFields)
  | vfredmax (c : CoreId) (f : VFields)
  | vfredmin (c : CoreId) (f : VFields)
  | tvmov (c : CoreId) (f : VFields)
  | vtmov (c : CoreId) (f : VFields)
  | vld (c : CoreId) (f : VFields)
  | vlds (c : CoreId) (f : VFields)
  | vldx (c : CoreId) (f : VFields)
  | vldff (c : CoreId) (f : VFields)
  | vldm (c : CoreId) (f : VFields)
  | vldr (c : CoreId) (f : VFields)
  | vldmr (c : CoreId) (f : VFields)
  | vst (c : CoreId) (f : VFields)
  | vsts (c : CoreId) (f : VFields)
  | vstx (c : CoreId) (f : VFields)
  | vstm (c : CoreId) (f : VFields)
  | vstr (c : CoreId) (f : VFields)
  | vstmr (c : CoreId) (f : VFields)
  | vectorComplete (c : CoreId)
  | tmma (c : CoreId) (f : TFields)
  | tmmp (c : CoreId) (f : TFields)
  | tpull (c : CoreId) (f : TFields)
  | tpush (c : CoreId) (f : TFields)
  | twipe (c : CoreId) (f : TFields)
  | accSt (c : CoreId) (f : TFields)
  | accLd (c : CoreId) (f : TFields)
  | tileQueueOp (d : CDie) (k : CoreK)
  | bLoad (c : CoreId)
  | passStream (d : CDie) (k : CoreK) (rows task : Nat)
  | ftqPost (d : CDie)
  | gmm (c : CoreId) (f : TFields)
  | gaccOpen (c : CoreId) (f : TFields)
  | gaccClose (c : CoreId) (f : TFields)
  | gangOpStart (g : Gang)
  | runningSum (g : Gang) (b p : Nat)
  | gangOpComplete (g : Gang) (busy : List Nat)
  | gangOpFail (g : Gang)
  | gangNarrow (g : Gang)
  | gngReadmit (q : Src) (g : Gang) (v : Word)
  | gangReadmission (g : Gang)
  | glzLd (c : CoreId) (f : GFields)
  | glzDrain (c : CoreId) (f : GFields)
  | glazeQuarterRun (c : CoreId)
  | glzStat (c : CoreId) (f : GFields)
  | glzHst (c : CoreId) (f : GFields)
  | glzHld (c : CoreId) (f : GFields)
  | entryDone (d : CDie) (e : BitVec 6)
  | ftqCmdDiscard (q : Src) (d : CDie) (v : Word)
  | trwEpochBump (q : Src) (v : Word)
  | epochDieAck (d : Die)
  | epochRoundEnd
  | fqFault (d : Die) (eng : BitVec 3) (la : Lin) (ring : BitVec 2) (write : Bool) (ptb : Word)
  | fqDeferredCreate
  | fqHead (q : Src)
  | resolve (q : Src) (v : Word)
  | abort (q : Src) (v : Word)
  | cmd (s : StreamId) (seq : BitVec 32) (cmds : List Word)
  | enable (q : Src) (s : StreamId)
  | disable (q : Src) (s : StreamId)
  | retry (q : Src) (s : StreamId)
  | skip (q : Src) (s : StreamId)
  | cancel (q : Src) (s : StreamId)
  | cancelEnd (s : StreamId)
  | commandStart
  | nop (s : StreamId)
  | launch (s : StreamId)
  | glaunch (s : StreamId)
  | copy (s : StreamId)
  | fill (s : StreamId)
  | copyFillComplete (s : StreamId)
  | wait (s : StreamId)
  | signal (s : StreamId)
  | timed (s : StreamId)
  | mark (s : StreamId)
  | snap (s : StreamId)
  | fence (s : StreamId)
  | synOp (q : Src) (v : Word)
  | triggerFire (n : TrigId)
  | ttCmpWrite (q : Src) (n : TrigId) (v : Word)
  | ttCtlWrite (q : Src) (n : TrigId) (v : Word)
  | timedExpiry
  | waitTimeout
  | windowDeadline
  | trwWq (q : Src) (d : CDie)
  | trwWdone (q : Src) (v : Word)
  | trwFlush (q : Src) (v : Word)
  | trwMfault (q : Src) (v : Word)
  | windowDispatch (g : Gang)
  | windowOpenDeferred
  | scatterMember (w : WinId)
  | hbmRead (rd : Die) (ru : BitVec 4) (pa : BitVec 48) (bad : BitVec 2)
  | hbmWrite (rd : Die) (ru : BitVec 4) (pa : BitVec 48) (data : List Byte) (poisoned : Bool) (bad : BitVec 2)
  | patrolScrub (pa : BitVec 48) (bad : BitVec 2)
  | ecsReadout (st : Stack) (counts : List Nat)
  | stackTempReadout (st : Stack) (temp : BitVec 8)
  | pmapPend (q : Src) (j : BitVec 2) (v : Word)
  | hbmMrgRun (q : Src) (st : Stack) (v : Word)
  | marginTestDone (st : Stack) (errs : BitVec 32)
  | tileStorePatrol (d : CDie) (line : BitVec 25) (bad : BitVec 2)
  | tileStoreFillDone (d : CDie)
  | scrimReplay (e : Fin 40) (side : Bool) (seq : BitVec 8)
  | standbySwitch (e : Fin 40)
  | edgeDown (e : Fin 40)
  | fifoPointerMismatch (d : Die) (unit : BitVec 4) (queue entries : BitVec 16)
  | responseTimeout (r : Outst)
  | orphanResponse (d : Die) (unit : BitVec 4) (pa : BitVec 48)
  | errHead (q : Src) (d : Die)
  | linkSignalDetect (l : LinkId) (lanes : BitVec 32)
  | linkTrainDone (l : LinkId) (good : BitVec 32)
  | linkAlignDone (l : LinkId) (rev : Bool) (pol : BitVec 32)
  | linkParamDone (l : LinkId) (req rsp evt mgt : BitVec 16)
  | linkStateTimeout (l : LinkId)
  | linkRecovery (l : LinkId)
  | linkRecoveryDone (l : LinkId)
  | linkRetrain (l : LinkId)
  | agdLctlRetrain (q : Src)
  | agdLctlDis (q : Src) (v : Word)
  | flitReceive (l : LinkId) (bad fixed seqd : Bool) (fseq : BitVec 9) (ack : Option (BitVec 9)) (odd : List OddPkt)
  | nak (l : LinkId) (seq : BitVec 9)
  | ackTimeoutReplay (l : LinkId)
  | lctl (l : LinkId) (req rsp evt mgt : BitVec 16)
  | creditReturnSend (l : LinkId)
  | mwr (tag : BitVec 14) (addr : BitVec 48) (ackreq : Bool) (data : List Byte)
  | mrd (tag : BitVec 14) (addr : BitVec 48) (n : Nat)
  | cpl (tag : BitVec 14) (status : BitVec 4) (data : List Byte)
  | mgmt (data : List Byte)
  | reset (a : BitVec 32) (b : Word)
  | timeExchangeStart
  | tsrsp (id : BitVec 16) (t2 t3 : Word)
  | timeExchangeTimeout
  | slewExpiry
  | holdTimeout
  | timePpsEdge
  | ppsLost
  | twinPresentFall
  | twinPresentRise
  | hello (version : BitVec 8) (serial : Word) (group : List Byte)
  | auth (msg : BitVec 4) (frag count : BitVec 8) (total : Nat) (data : List Byte)
  | pairingRetry
  | mirw (tag : BitVec 14) (off : BitVec 39) (data mac : List Byte)
  | mack (tag : BitVec 14) (status : BitVec 4) (mac : List Byte)
  | hb (state : BitVec 4) (time : Word) (mac : List Byte)
  | partnerLost
  | fenceTwin (q : Src)
  | fenceDelayed
  | thaw (q : Src)
  | rekey (q : Src)
  | returnPkt (off : BitVec 48) (data mac : List Byte)
  | stencilRingWrite
  | twnStnFreeWrite (q : Src) (v : Word)
  | snapFlip
  | gateTimeout
  | stageCopyComplete
  | tierBlock (t : Fin 3)
  | tierComplete (t : Fin 3)
  | tierFail (t : Fin 3) (cause : BitVec 4)
  | twnRcmdGo (q : Src) (v : Word)
  | restoreComplete
  | hawkInsert
  | hawkVerify (record : List Byte)
  | hcpl (tag : BitVec 14) (status : BitVec 4) (data : List Byte)
  | wearReadout (bytes : Word) (worn : BitVec 8)
  | hwkCtlRelease (q : Src) (v : Word)
  | releaseComplete
  | hawkSignalLoss
  | resetSourceAssert (r : RstSrc) (reason : BitVec 8)
  | resetSourceRelease (r : RstSrc)
  | resetN (high : Bool)
  | twinResetN (high : Bool)
  | supplyUndervoltage (mv10 : BitVec 16)
  | warm (q : Src)
  | ganggo (q : Src) (v : Word)
  | cdiego (q : Src) (v : Word)
  | rstBlk (q : Src) (d : Die) (v : Word)
  | resetIdleReached (d : Die) (idle : Bool)
  | rstRun (q : Src) (d : Die) (v : Word)
  | optionPhase1End
  | optionPhase2End
  | optionPhase3End (failed : List Nat)
  | rndUpdcmd (q : Src)
  | renderUpdateDone (good : Bool)
  | secArbCmd (q : Src) (v : Word)
  | arbCommitDone
  | secMrext (q : Src) (v : Word)
  | secAttCtl (q : Src)
  | attestationDone
  | token (jtag : Bool) (data : List Byte)
  | supplyWarn (mv10 : BitVec 16)
  | supplyRise45v (mv10 : BitVec 16)
  | supplyWarnRelease
  | warningReturnStep (d : Die)
  | powerDemandEval (d : Die) (est stack : BitVec 16)
  | thermalRead (d : Die) (temps : List Byte)
  | pwrEnFall
  | pwrEnRise
  | pwrGoodRise
  | refclkLoss
  | refclkRestore
  | sensorSample (samples : List Sample)
  | mcHang
  | mcWdcfgWrite (q : Src) (v : Word)
  | mcWdkick (q : Src) (v : Word)
  | watchdogPrewarning
  | watchdogExpiry
  | logEntryWrite (whole : Bool)
  | setEndpointId (b : Bind) (eid : BitVec 8)
  | getEndpointId (b : Bind)
  | getEndpointUuid (b : Bind)
  | getMctpVersionSupport (b : Bind)
  | getMessageTypeSupport (b : Bind)
  | settid (b : Bind) (tid : BitVec 8)
  | gettid (b : Bind)
  | getpldmversion (b : Bind) (ty : BitVec 8)
  | getpldmtypes (b : Bind)
  | getpldmcommands (b : Bind) (ty : BitVec 8)
  | getsensorreading (b : Bind) (id : BitVec 16)
  | getpdrrepositoryinfo (b : Bind)
  | getpdr (b : Bind) (handle : BitVec 32)
  | seteventreceiver (b : Bind) (on : Bool) (eid : BitVec 8)
  | geteventreceiver (b : Bind)
  | eventmessagebuffersize (b : Bind) (size : BitVec 16)
  | eventRetry
  | querydeviceidentifiers (b : Bind)
  | getfirmwareparameters (b : Bind)
  | requestupdate (b : Bind) (piece : BitVec 32)
  | passcomponenttable (b : Bind) (comp : BitVec 16) (stamp : BitVec 32)
  | updatecomponent (b : Bind) (comp : BitVec 16) (stamp size : BitVec 32)
  | firmwareDataReceived (data : List Byte)
  | updateVerify (good : Bool)
  | activatefirmware (b : Bind) (selfContained : Bool)
  | getstatus (b : Bind)
  | cancelupdatecomponent (b : Bind)
  | cancelupdate (b : Bind)
  | logread (q : Src) (count : BitVec 16)
  | cold (q : Src) (reason : BitVec 8)
  | sensors (q : Src)
  | stmNextf (q : Src)
  | registerWrite (q : Src) (addr : BitVec 48) (data : List Byte)
  | passRetirement (c : CoreId)
  | hbmRetrainDone (st : Stack)
  | scrimPortRetrainDone (d : CDie)
  | twinRstOutPulseEnd
  | standbyRailDown
  | mcFirmwareSelection
  | platformEventAcknowledged
  deriving DecidableEq, Repr

end Sys2Proof
end

