-- ==== Sys2Proof/Decode.lean ====
section
/-! DEFINITION. The commands that words spell. The module takes commands, and no row of the opcode table gives a command bits: the
words of a core's instructions are built in Machine/Operands.lean, where the checks of an instruction need them. -/

namespace Sys2Proof

/-- The command a word spells by the opcode table's bits: none, since no row gives any (log entry 1). -/
def decodeTableWord (_nbits _w : Nat) : Option Instr := none

end Sys2Proof
end

