-- ==== Sys2Proof/Machine/Bits.lean ====
section
/-! DEFINITION. Bit fields, sign extension, byte order and the counting helpers every family uses. -/

namespace Sys2Proof.Machine

open Sys2Proof

/-- Bits [hi:lo] of a word, as a number. -/
def bits {n : Nat} (w : BitVec n) (hi lo : Nat) : Nat := (w.toNat >>> lo) % 2 ^ (hi + 1 - lo)

/-- Bit i of a word. -/
def bit {n : Nat} (w : BitVec n) (i : Nat) : Bool := w.getLsbD i

/-- A Bool as 0 or 1. -/
def b2n (b : Bool) : Nat := if b then 1 else 0

/-- A word with bits [hi:lo] replaced by the low bits of v. -/
def setBits {n : Nat} (w : BitVec n) (hi lo v : Nat) : BitVec n :=
  let m := 2 ^ (hi + 1 - lo)
  let old := (w.toNat >>> lo) % m
  BitVec.ofNat n (w.toNat - old * 2 ^ lo + (v % m) * 2 ^ lo)

/-- A word with bit i set to b. -/
def setBit {n : Nat} (w : BitVec n) (i : Nat) (b : Bool) : BitVec n := setBits w i i (b2n b)

/-- A mask of bits [hi:lo]. -/
def maskBits (hi lo : Nat) : Word := BitVec.ofNat 64 ((2 ^ (hi + 1 - lo) - 1) * 2 ^ lo)

/-- Sign extension of the low n bits of a word to 64 bits. -/
def sext (n : Nat) (w : Word) : Word := (w.setWidth n).signExtend 64

/-- Zero extension of the low n bits of a word to 64 bits. -/
def zext (n : Nat) (w : Word) : Word := (w.setWidth n).setWidth 64

/-- A field of an encoding, sign-extended to 64 bits (R31). -/
def sx {n : Nat} (w : BitVec n) : Word := w.signExtend 64

/-- A field of an encoding, zero-extended to 64 bits. -/
def zx {n : Nat} (w : BitVec n) : Word := w.setWidth 64

/-- The n little-endian bytes of a number (R30). -/
def toBytes : Nat → Nat → List Byte
  | 0, _ => []
  | n + 1, v => BitVec.ofNat 8 v :: toBytes n (v / 256)

/-- The number little-endian bytes spell (R30). -/
def fromBytes : List Byte → Nat
  | [] => 0
  | b :: bs => b.toNat + 256 * fromBytes bs

/-- The number big-endian bytes spell. -/
def fromBytesBE (bs : List Byte) : Nat := fromBytes bs.reverse

/-- The count of set bits of a number, over n bits. -/
def popN : Nat → Nat → Nat
  | 0, _ => 0
  | n + 1, v => v % 2 + popN n (v / 2)

/-- The set bits of a number below n, ascending. -/
def setBitsOf (n v : Nat) : List Nat := (List.range n).filter fun i => v.testBit i

/-- The bit length of a number: 0 for 0. -/
def bitLen (v : Nat) : Nat := if v = 0 then 0 else Nat.log2 v + 1

/-- Leading zeros of an n-bit value. -/
def clzN (n v : Nat) : Nat := n - bitLen (v % 2 ^ n)

/-- Trailing zeros of a value, n when it is 0 in n bits. -/
def ctzN : Nat → Nat → Nat
  | 0, _ => 0
  | n + 1, v => if v % 2 = 1 then 0 else 1 + ctzN n (v / 2)

/-- A saturating sum: a + b, at most m. -/
def satAdd (m a b : Nat) : Nat := min m (a + b)

/-- Is x a multiple of n? -/
def aligned (n x : Nat) : Bool := x % n == 0

/-- The first index of a list at which p holds. -/
def firstIdx {α : Type} (p : α → Bool) : List α → Option Nat
  | [] => none
  | a :: as => if p a then some 0 else (firstIdx p as).map (· + 1)

/-- The first element of a list with its index. -/
def enumFrom {α : Type} : Nat → List α → List (Nat × α)
  | _, [] => []
  | n, a :: as => (n, a) :: enumFrom (n + 1) as

/-- A list with its element n replaced. -/
def setAt {α : Type} : List α → Nat → α → List α
  | [], _, _ => []
  | _ :: as, 0, b => b :: as
  | a :: as, n + 1, b => a :: setAt as n b

/-- A list without its element n. -/
def dropAt {α : Type} : List α → Nat → List α
  | [], _ => []
  | _ :: as, 0 => as
  | a :: as, n + 1 => a :: dropAt as n

/-- A fold over the numbers 0, …, n − 1, ascending. -/
def loopN {α : Type} (n : Nat) (f : Nat → α → α) (a : α) : α := (List.range n).foldl (fun x i => f i x) a

end Sys2Proof.Machine
end

