-- ==== Sys2Proof/Machine/Aes.lean ====
section
/-! DEFINITION. AES-256-GCM (R394), as FIPS 197 and SP 800-38D have it (PRESUMED, log entry 5). -/

namespace Sys2Proof.Machine

open Sys2Proof

/-- A product in GF(2⁸) modulo x⁸ + x⁴ + x³ + x + 1, over the n low bits of b. -/
def gf8Mul (a : Byte) : Nat → Nat → Byte
  | 0, _ => 0
  | n + 1, b =>
    let r := gf8Mul a n (b / 2)
    (r <<< 1) ^^^ (if r.getLsbD 7 then 0x1B else 0) ^^^ (if b % 2 = 1 then a else 0)

/-- x to the power 2ⁿ⁺¹ − 2 in GF(2⁸): for n = 7 the inverse of x, and 0 for 0. -/
def gf8Inv (x : Byte) : Nat → Byte
  | 0 => 1
  | n + 1 =>
    let h := gf8Mul (gf8Inv x n) 8 x.toNat
    gf8Mul h 8 h.toNat

/-- The S-box: the inverse, then the affine map (FIPS 197). -/
def aesSub (x : Byte) : Byte :=
  let b := gf8Inv x 7
  b ^^^ b.rotateLeft 1 ^^^ b.rotateLeft 2 ^^^ b.rotateLeft 3 ^^^ b.rotateLeft 4 ^^^ 0x63

/-- The key schedule of AES-256, four bytes a word: word i and the n − 1 after it, behind the words before, newest first. -/
def aesWords : Nat → Nat → List (List Byte) → List (List Byte)
  | 0, _, w => w
  | n + 1, i, w =>
    let t := w.headD []
    let t := if i % 8 = 0 then
        match (t.drop 1 ++ t.take 1).map aesSub with
        | [] => []
        | b :: bs => (b ^^^ (1 <<< (i / 8 - 1))) :: bs
      else if i % 8 = 4 then t.map aesSub else t
    aesWords n (i + 1) ((w.getD 7 []).zipWith (· ^^^ ·) t :: w)

/-- The 15 round keys of a 32-byte key, 16 bytes each. -/
def aesKeys (key : List Byte) : List (List Byte) :=
  let w := (aesWords 52 8 ((List.range 8).map fun i => (key.drop (4 * i)).take 4).reverse).reverse
  (List.range 15).map fun r => ((w.drop (4 * r)).take 4).flatten

/-- The rows of the block, byte r + 4c at row r and column c, shifted. -/
def aesShift (b : List Byte) : List Byte := (List.range 16).map fun i => b.getD ((i + 4 * (i % 4)) % 16) 0

/-- The columns of the block mixed. -/
def aesMix (b : List Byte) : List Byte :=
  (List.range 16).map fun i =>
    let a := fun k => b.getD (4 * (i / 4) + (i + k) % 4) 0
    gf8Mul (a 0) 8 2 ^^^ gf8Mul (a 1) 8 3 ^^^ a 2 ^^^ a 3

/-- The rounds after the first key: all but the last mix the columns. -/
def aesRounds : List (List Byte) → List Byte → List Byte
  | [], b => b
  | [k], b => (aesShift (b.map aesSub)).zipWith (· ^^^ ·) k
  | k :: ks, b => aesRounds ks ((aesMix (aesShift (b.map aesSub))).zipWith (· ^^^ ·) k)

/-- One block of AES-256 under the round keys (FIPS 197). -/
@[irreducible] def aesBlock (keys : List (List Byte)) (b : List Byte) : List Byte :=
  match keys with
  | [] => b
  | k :: ks => aesRounds ks (b.zipWith (· ^^^ ·) k)

/-- A product in GCM's field: the bits of x, the highest first, of which the n low ones are left; v is the other factor so far. -/
def gcmMul (x : BitVec 128) : Nat → BitVec 128 → BitVec 128 → BitVec 128
  | 0, _, z => z
  | n + 1, v, z =>
    gcmMul x n ((v >>> 1) ^^^ (if v.getLsbD 0 then BitVec.ofNat 128 (0xE1 * 2 ^ 120) else 0)) (if x.getLsbD n then z ^^^ v else z)

/-- GHASH of whole blocks under the hash key. -/
def ghash (h : BitVec 128) : Nat → BitVec 128 → List Byte → BitVec 128
  | 0, y, _ => y
  | n + 1, y, m => ghash h n (gcmMul (y ^^^ BitVec.ofNat 128 (fromBytesBE (m.take 16))) 128 h 0) (m.drop 16)

/-- Bytes filled with zeros to whole blocks. -/
def gcmPad (m : List Byte) : List Byte := m ++ List.replicate ((16 - m.length % 16) % 16) 0

/-- AES-256-GCM under a 32-byte key and a 12-byte nonce, with associated data: the ciphertext of a plaintext, then the 16-byte tag (R394). -/
@[irreducible] def gcm (key nonce aad plain : List Byte) : List Byte :=
  let ks := aesKeys key
  let count := fun i => aesBlock ks (nonce.take 12 ++ (toBytes 4 i).reverse)
  let stream := (List.range ((plain.length + 15) / 16)).flatMap fun i => count (i + 2)
  let c := plain.zipWith (· ^^^ ·) stream
  let h := BitVec.ofNat 128 (fromBytesBE (aesBlock ks (List.replicate 16 0)))
  let m := gcmPad aad ++ gcmPad c ++ (toBytes 8 (8 * aad.length)).reverse ++ (toBytes 8 (8 * c.length)).reverse
  let t := (toBytes 16 (ghash h (m.length / 16) 0 m).toNat).reverse
  c ++ t.zipWith (· ^^^ ·) (count 1)

end Sys2Proof.Machine
end

