-- ==== Sys2Proof/Config.lean ====
section
/-! DEFINITION. What an implementation fixes and the spec leaves open: constants without a body, so that a claim holds
whatever they are: free values and fused values (log entries 2, 3, 5). -/

namespace Sys2Proof.Config

open Sys2Proof

/-- The free values: nothing constrains them; State's counter `free` numbers their uses (log entry 2). -/
opaque freeNat : Nat → Nat
/-- A free bit (log entry 2). -/
opaque freeBool : Nat → Bool

/-- A free word. -/
def freeWord (n : Nat) : Word := BitVec.ofNat 64 (freeNat n)
/-- A free byte. -/
def freeByte (n : Nat) : Byte := BitVec.ofNat 8 (freeNat n)

/-- Is an Ed25519 signature checked with the cofactor? RFC 8032 allows both (R474; log entry 5). -/
opaque edCofactor : Bool

/-- The vendor keys in the K-die boot ROM, by key generation 0–3 and byte: Ed25519 and ML-DSA-65 (R473; log entry 3). -/
opaque romEd : Nat → Nat → Byte
opaque romMl : Nat → Nat → Byte
/-- The bytes of the device certificate that R484's layout leaves to manufacture, by offset: issue time, keys, signatures (log entry 3). -/
opaque certByte : Nat → Byte
/-- The fused unique device secret (R475; log entry 3). -/
opaque uds : Nat → Byte
/-- SEV of the MC's entries of each kind below 0x0100 (R497, R498; log entry 2). -/
opaque mcSev : Nat → Nat
/-- The member that fetches an operand block of a gang operation: the operation's number and the block (R258; log entry 2). -/
opaque fetcher : Nat → Nat → Nat
/-- The challenge drawn at power-on (R489; log entry 2). -/
opaque challenge : Nat → Word

/-- What the MC answers where the spec names the question and not the answer: endpoint UUID 0, MCTP version 1, PLDM versions 2 on by type,
rail nominals 16 on (R493, R500, R501; log entry 2). -/
opaque mcInfo : Nat → Nat
/-- The MCTP packet that carries an answer or message of the MC, given by its numbers: its encoding is DSP0236, DSP0240, DSP0248 and
DSP0267's (R383, R500; log entry 2). -/
opaque mctpBytes : List Nat → List Byte
/-- The K-die boot ROM's version, 8 bytes (R482; log entry 2). -/
opaque romVersion : Word
/-- The numbers a section of a Render image of a TYPE sets, in the order its row of R437 names them: the spec gives no layout of
them (log entry 28). -/
opaque section_ : Nat → List Byte → List Nat

/-- SEC_DEVID.ENG, fused: 0 on JZ2524-H72-A, 1 on JZ2524-H72-E (R2; log entry 3). -/
opaque eng : Bool
/-- SEC_SERIAL, fused (R490; log entry 3). -/
opaque serial : Word

end Sys2Proof.Config
end

