-- ==== Sys2Proof/Machine/Float.lean ====
section
/-! DEFINITION. Number formats, rounding, flags and arithmetic (07_number_formats.md R176–R196): every value is an exact
sign, mantissa and exponent, computed exactly and rounded once at the end. -/

namespace Sys2Proof.Machine

open Sys2Proof

/-- The floating-point formats of R176. -/
inductive Fmt where
  | fp64 | fp32 | bf16 | fp16 | e4m3 | e5m2 | e3m2 | e2m3 | e2m1
  deriving DecidableEq, Repr

/-- Width in bits (R176). -/
def Fmt.width : Fmt → Nat
  | .fp64 => 64 | .fp32 => 32 | .bf16 => 16 | .fp16 => 16 | .e4m3 => 8 | .e5m2 => 8 | .e3m2 => 6 | .e2m3 => 6 | .e2m1 => 4

/-- Width of the significand field (R176). -/
def Fmt.mbits : Fmt → Nat
  | .fp64 => 52 | .fp32 => 23 | .bf16 => 7 | .fp16 => 10 | .e4m3 => 3 | .e5m2 => 2 | .e3m2 => 2 | .e2m3 => 3 | .e2m1 => 1

/-- Exponent bias (R176). -/
def Fmt.bias : Fmt → Nat
  | .fp64 => 1023 | .fp32 => 127 | .bf16 => 127 | .fp16 => 15 | .e4m3 => 7 | .e5m2 => 15 | .e3m2 => 3 | .e2m3 => 1 | .e2m1 => 1

/-- Width of the exponent field (R176). -/
def Fmt.ebits (f : Fmt) : Nat := f.width - 1 - f.mbits

/-- Does the format follow IEEE 754 in its top exponent: infinities there, NaNs above them (R176)? -/
def Fmt.ieee : Fmt → Bool
  | .fp64 | .fp32 | .bf16 | .fp16 | .e5m2 => true
  | _ => false

/-- Can a NaN of the format signal (R177)? -/
def Fmt.signals : Fmt → Bool
  | .fp64 | .fp32 | .bf16 | .fp16 => true
  | _ => false

/-- The largest exponent field of a finite value (R176). -/
def Fmt.topExp (f : Fmt) : Nat := if f.ieee then 2 ^ f.ebits - 2 else 2 ^ f.ebits - 1

/-- The largest significand field at the largest exponent (R176: 448 is S.1111.110). -/
def Fmt.topMant (f : Fmt) : Nat := if f = .e4m3 then 6 else 2 ^ f.mbits - 1

/-- The exponent of the smallest normal value. -/
def Fmt.emin (f : Fmt) : Int := 1 - (f.bias : Int)

/-- The encoding without a sign of the largest finite value. -/
def Fmt.maxFinite (f : Fmt) : Nat := f.topExp * 2 ^ f.mbits + f.topMant

/-- The encoding without a sign of infinity, for the formats that have it. -/
def Fmt.infEnc (f : Fmt) : Nat := (2 ^ f.ebits - 1) * 2 ^ f.mbits

/-- The positive canonical NaN (R177); 0 for the formats without a NaN. -/
def Fmt.canonNaN : Fmt → Nat
  | .fp64 => 0x7FF8000000000000
  | .fp32 => 0x7FC00000
  | .bf16 => 0x7FC0
  | .fp16 => 0x7E00
  | .e4m3 => 0x7F
  | .e5m2 => 0x7E
  | _ => 0

/-- A sign placed on an encoding. -/
def Fmt.signed (f : Fmt) (neg : Bool) (enc : Nat) : Nat := b2n neg * 2 ^ (f.width - 1) + enc

/-- An exact value: a NaN (signalling or quiet), an infinity, or ± mant · 2 ^ exp. -/
inductive FVal where
  | nan (signalling : Bool)
  | inf (neg : Bool)
  | fin (neg : Bool) (mant : Nat) (exp : Int)
  deriving DecidableEq, Repr

/-- Flags in the bit order of FPFLAGS[4:0]: NX, UF, OF, DZ, NV (R185). -/
abbrev FFlags := BitVec 5

/-- Inexact. -/
def flagNX : FFlags := 0b00001
/-- Underflow. -/
def flagUF : FFlags := 0b00010
/-- Overflow. -/
def flagOF : FFlags := 0b00100
/-- Division by zero. -/
def flagDZ : FFlags := 0b01000
/-- Invalid operation. -/
def flagNV : FFlags := 0b10000

/-- The rounding modes of R186, codes 0–4. -/
inductive RMode where
  | rne | rtz | rdn | rup | rmm
  deriving DecidableEq, Repr

/-- FPFLAGS.RM as a mode; codes 5–7 are never held (R185). -/
def rmodeOf : Nat → RMode
  | 1 => .rtz | 2 => .rdn | 3 => .rup | 4 => .rmm | _ => .rne

/-- The value an encoding stands for (R176, R177). -/
def unpack (f : Fmt) (w : Nat) : FVal :=
  let neg := w.testBit (f.width - 1)
  let e := (w / 2 ^ f.mbits) % 2 ^ f.ebits
  let m := w % 2 ^ f.mbits
  if e == 2 ^ f.ebits - 1 && f.ieee then
    if m = 0 then .inf neg else .nan (f.signals && !m.testBit (f.mbits - 1))
  else if f == .e4m3 && e == 15 && m == 7 then .nan false
  else if e = 0 then .fin neg m (f.emin - f.mbits)
  else .fin neg (2 ^ f.mbits + m) ((e : Int) - f.bias - f.mbits)

/-- Is the discarded part rounded up? `half` is the weight of half a unit, `rem` the discarded bits, `sticky` says
that more lies below them (R186). -/
def roundsUp (mode : RMode) (neg odd : Bool) (rem half : Nat) (sticky : Bool) : Bool :=
  match mode with
  | .rne => decide (half < rem) || (rem == half && half != 0 && (sticky || odd))
  | .rmm => half != 0 && decide (half ≤ rem)
  | .rtz => false
  | .rdn => neg && (rem != 0 || sticky)
  | .rup => !neg && (rem != 0 || sticky)

/-- A magnitude mant · 2 ^ exp (plus a sticky part) rounded to a multiple of 2 ^ u: the multiple, and whether it is
inexact. -/
def quantise (mode : RMode) (neg : Bool) (mant : Nat) (exp u : Int) (sticky : Bool) : Nat × Bool :=
  if exp ≥ u then (mant * 2 ^ (exp - u).toNat, sticky)
  else
    let sh := (u - exp).toNat
    let q := mant >>> sh
    let rem := mant % 2 ^ sh
    (if roundsUp mode neg (q % 2 == 1) rem (2 ^ (sh - 1)) sticky then q + 1 else q, rem != 0 || sticky)

/-- The encoding of an exact multiple q · 2 ^ u of a format, without sign; q has at most one bit too many. -/
def encodeMag (f : Fmt) (q : Nat) (u : Int) : Nat :=
  if q < 2 ^ f.mbits then q
  else if q < 2 ^ (f.mbits + 1) then (u + f.mbits + f.bias).toNat * 2 ^ f.mbits + (q - 2 ^ f.mbits)
  else (u + f.mbits + f.bias + 1).toNat * 2 ^ f.mbits + (q / 2 - 2 ^ f.mbits)

/-- The result and flags of an overflow (R187). -/
def overflow (f : Fmt) (mode : RMode) (sat neg : Bool) : Nat × FFlags :=
  let fl := flagOF ||| flagNX
  match f with
  | .e4m3 => (if sat then f.signed neg f.maxFinite else f.canonNaN, fl)
  | .e3m2 | .e2m3 | .e2m1 => (f.signed neg f.maxFinite, fl)
  | _ =>
    let toMax := (f == .e5m2 && sat) || mode == .rtz || (mode == .rdn && !neg) || (mode == .rup && neg)
    (f.signed neg (if toMax then f.maxFinite else f.infEnc), fl)

/-- The largest finite magnitude as mantissa and exponent of its last place. -/
def Fmt.maxMag (f : Fmt) : Nat × Int := (2 ^ f.mbits + f.topMant, (f.topExp : Int) - f.bias - f.mbits)

/-- A finite result rounded once to a format: encoding and flags (R186–R188). -/
def roundTo (f : Fmt) (mode : RMode) (sat neg : Bool) (mant : Nat) (exp : Int) (sticky : Bool) : Nat × FFlags :=
  if mant = 0 then (f.signed neg 0, 0)
  else
    let top : Int := exp + bitLen mant - 1
    let u0 : Int := top - f.mbits
    let r0 := quantise mode neg mant exp u0 sticky
    let tiny := decide (top + (if r0.1 = 2 ^ (f.mbits + 1) then 1 else 0) < f.emin)
    let u : Int := max u0 (f.emin - f.mbits)
    let r := quantise mode neg mant exp u sticky
    let mx := f.maxMag
    let big := decide (u > mx.2) || (decide (u = mx.2) && decide (r.1 > mx.1))
    if big then overflow f mode sat neg
    else
      (f.signed neg (encodeMag f r.1 u),
       (if r.2 then flagNX else 0) ||| (if r.2 && tiny then flagUF else 0))

/-- A value delivered in a format (R177, R187): conversions and results. -/
def packVal (f : Fmt) (mode : RMode) (sat : Bool) : FVal → Nat × FFlags
  | .nan s =>
    match f with
    | .e3m2 | .e2m3 | .e2m1 => (0, flagNV)
    | _ => (f.canonNaN, if s then flagNV else 0)
  | .inf neg =>
    match f with
    | .e4m3 => (if sat then f.signed neg f.maxFinite else f.canonNaN, flagNV)
    | .e3m2 | .e2m3 | .e2m1 => (f.signed neg f.maxFinite, flagNV)
    | _ => (f.signed neg f.infEnc, 0)
  | .fin neg m e => roundTo f mode sat neg m e false

/-- The canonical NaN with NV when an operand signals (R189). -/
def nanResult (f : Fmt) (vs : List FVal) : Nat × FFlags :=
  (f.canonNaN, if vs.any (fun v => v == .nan true) then flagNV else 0)

/-- Is the value a NaN? -/
def FVal.isNaN : FVal → Bool
  | .nan _ => true
  | _ => false

/-- The value with its sign bit flipped. -/
def FVal.negate : FVal → FVal
  | .nan s => .nan s
  | .inf n => .inf (!n)
  | .fin n m e => .fin (!n) m e

/-- The invalid-operation result (R189). -/
def invalid (f : Fmt) : Nat × FFlags := (f.canonNaN, flagNV)

/-- A signed integer times a power of two, as a value; an exact zero takes the given sign. -/
def fvalOfInt (i : Int) (e : Int) (zeroNeg : Bool) : FVal :=
  if i = 0 then .fin zeroNeg 0 e else .fin (decide (i < 0)) i.natAbs e

/-- The exact sum of two finite values; `rdn` gives the sign of an exact zero sum of opposite signs (R189). -/
def exactAdd (rdn : Bool) (n1 : Bool) (m1 : Nat) (e1 : Int) (n2 : Bool) (m2 : Nat) (e2 : Int) : FVal :=
  let e := min e1 e2
  let a : Int := (if n1 then -1 else 1) * (m1 * 2 ^ (e1 - e).toNat : Nat)
  let b : Int := (if n2 then -1 else 1) * (m2 * 2 ^ (e2 - e).toNat : Nat)
  fvalOfInt (a + b) e (if n1 == n2 then n1 else rdn)

/-- The exact sum of two values, or none for ∞ − ∞; NaNs are the caller's. -/
def sumVal (rdn : Bool) : FVal → FVal → Option FVal
  | .inf a, .inf b => if a = b then some (.inf a) else none
  | .inf a, _ => some (.inf a)
  | _, .inf b => some (.inf b)
  | .fin n1 m1 e1, .fin n2 m2 e2 => some (exactAdd rdn n1 m1 e1 n2 m2 e2)
  | v, _ => some v

/-- The exact product of two values, or none for 0 × ∞; NaNs are the caller's. -/
def mulVal : FVal → FVal → Option FVal
  | .inf a, .inf b => some (.inf (a != b))
  | .inf a, .fin n m _ => if m = 0 then none else some (.inf (a != n))
  | .fin n m _, .inf b => if m = 0 then none else some (.inf (n != b))
  | .fin n1 m1 e1, .fin n2 m2 e2 => some (.fin (n1 != n2) (m1 * m2) (e1 + e2))
  | v, _ => some v

/-- Addition rounded to a format (R189). -/
def fAdd (f : Fmt) (mode : RMode) (sat : Bool) (a b : FVal) : Nat × FFlags :=
  if a.isNaN || b.isNaN then nanResult f [a, b]
  else match sumVal (mode == .rdn) a b with
    | none => invalid f
    | some v => packVal f mode sat v

/-- Multiplication rounded to a format (R189). -/
def fMul (f : Fmt) (mode : RMode) (sat : Bool) (a b : FVal) : Nat × FFlags :=
  if a.isNaN || b.isNaN then nanResult f [a, b]
  else match mulVal a b with
    | none => invalid f
    | some v => packVal f mode sat v

/-- Fused multiply-add c + a × b with one rounding (R36, R189): an FMA whose product is 0 × ∞ raises NV. -/
def fFma (f : Fmt) (mode : RMode) (sat : Bool) (c a b : FVal) : Nat × FFlags :=
  if a.isNaN || b.isNaN then nanResult f [a, b, c]
  else match mulVal a b with
    | none => invalid f
    | some p =>
      if c.isNaN then nanResult f [c]
      else match sumVal (mode == .rdn) c p with
        | none => invalid f
        | some v => packVal f mode sat v

/-- Division rounded to a format (R189). -/
def fDiv (f : Fmt) (mode : RMode) (sat : Bool) (a b : FVal) : Nat × FFlags :=
  match a, b with
  | .inf x, .fin n _ _ => (f.signed (x != n) f.infEnc, 0)
  | .inf _, .inf _ => invalid f
  | .fin n _ _, .inf y => (f.signed (n != y) 0, 0)
  | .fin n1 m1 e1, .fin n2 m2 e2 =>
    if m2 = 0 then
      if m1 = 0 then invalid f else (f.signed (n1 != n2) f.infEnc, flagDZ)
    else
      let k := f.mbits + 4 + bitLen m2
      let num := m1 * 2 ^ k
      roundTo f mode sat (n1 != n2) (num / m2) (e1 - e2 - k) (num % m2 != 0)
  | _, _ => nanResult f [a, b]

/-- The integer square root of v < 4 ^ n, digit by digit. -/
def isqrt : Nat → Nat → Nat
  | 0, _ => 0
  | n + 1, v =>
    let r := 2 * isqrt n (v / 4)
    if (r + 1) * (r + 1) ≤ v then r + 1 else r

/-- Square root rounded to a format (R189). -/
def fSqrt (f : Fmt) (mode : RMode) (sat : Bool) (a : FVal) : Nat × FFlags :=
  match a with
  | .nan _ => nanResult f [a]
  | .inf n => if n then invalid f else (f.infEnc, 0)
  | .fin n m e =>
    if m = 0 then (f.signed n 0, 0)
    else if n then invalid f
    else
      let odd : Nat := (e % 2).toNat
      let k := f.mbits + 4
      let v := m * 2 ^ (odd + 2 * k)
      let r := isqrt (bitLen v / 2 + 1) v
      roundTo f mode sat false r ((e - odd) / 2 - k) (r * r != v)

/-- Order of two values that are not NaNs: is a < b? Zeros of both signs are equal. -/
def fltVal : FVal → FVal → Bool
  | .inf a, .inf b => a && !b
  | .inf a, _ => a
  | _, .inf b => !b
  | .fin n1 m1 e1, .fin n2 m2 e2 =>
    let e := min e1 e2
    let a : Int := (if n1 then -1 else 1) * (m1 * 2 ^ (e1 - e).toNat : Nat)
    let b : Int := (if n2 then -1 else 1) * (m2 * 2 ^ (e2 - e).toNat : Nat)
    decide (a < b)
  | _, _ => false

/-- Equality of two values that are not NaNs. -/
def feqVal (a b : FVal) : Bool := !fltVal a b && !fltVal b a

/-- Is the value zero? -/
def FVal.isZero : FVal → Bool
  | .fin _ m _ => m == 0
  | _ => false

/-- The sign of a value; false for a NaN. -/
def FVal.neg : FVal → Bool
  | .nan _ => false
  | .inf n => n
  | .fin n _ _ => n

/-- IEEE 754-2019 maximum or minimum of two encodings of one format (R189): −0 counts as less than +0. -/
def fMaxMin (f : Fmt) (isMax : Bool) (a b : Nat) : Nat × FFlags :=
  let x := unpack f a
  let y := unpack f b
  if x.isNaN || y.isNaN then nanResult f [x, y]
  else
    let less := fltVal x y || (x.isZero && y.isZero && x.neg && !y.neg)
    (if isMax == less then b else a, 0)

/-- A comparison by `r` (R190): false with a NaN operand; `quiet` compares raise NV for a signalling NaN only. -/
def fCmp (quiet : Bool) (r : FVal → FVal → Bool) (a b : FVal) : Bool × FFlags :=
  if a.isNaN || b.isNaN then
    (false, if !quiet || a == .nan true || b == .nan true then flagNV else 0)
  else (r a b, 0)

/-- Floating point to a signed n-bit integer (R191). -/
def fToInt (n : Nat) (mode : RMode) : FVal → Int × FFlags
  | .nan _ => (0, flagNV)
  | .inf neg => (if neg then -(2 ^ (n - 1) : Int) else 2 ^ (n - 1) - 1, flagNV)
  | .fin neg m e =>
    let q := quantise mode neg m e 0 false
    let v : Int := if neg then -(q.1 : Int) else q.1
    if v < -(2 ^ (n - 1) : Int) then (-(2 ^ (n - 1) : Int), flagNV)
    else if v > 2 ^ (n - 1) - 1 then (2 ^ (n - 1) - 1, flagNV)
    else (v, if q.2 then flagNX else 0)

/-- A signed integer to floating point (R191). -/
def fOfInt (f : Fmt) (mode : RMode) (sat : Bool) (i : Int) : Nat × FFlags :=
  packVal f mode sat (fvalOfInt i 0 false)

/-- FP32 addition to nearest-even, without flags: the tree node of R180. -/
def add32 (a b : Nat) : Nat := (fAdd .fp32 .rne false (unpack .fp32 a) (unpack .fp32 b)).1

/-- A balanced pairwise tree over a list by a node operation that carries flags, with fuel for its depth; an odd last
element passes up alone. -/
def pairUp {α : Type} (op : α → α → α) : List α → List α
  | a :: b :: rest => op a b :: pairUp op rest
  | l => l

/-- The balanced pairwise tree of a list (R163, R180, R202): levels of `pairUp` until one value is left. -/
def treeFold {α : Type} (op : α → α → α) (unit : α) : Nat → List α → α
  | _, [] => unit
  | _, [a] => a
  | 0, a :: _ => a
  | n + 1, l => treeFold op unit n (pairUp op l)

/-- Stochastic rounding of a finite value with the draw u (R196). -/
def roundStochastic (f : Fmt) (sat neg : Bool) (mant : Nat) (exp : Int) (u : Nat) : Nat × FFlags :=
  if mant = 0 then (f.signed neg 0, 0)
  else
    let top : Int := exp + bitLen mant - 1
    let u0 : Int := top - f.mbits
    let lsb : Int := max u0 (f.emin - f.mbits)
    let part (l : Int) : Nat × Nat :=
      if exp ≥ l then (mant * 2 ^ (exp - l).toNat, 0)
      else
        let sh := (l - exp).toNat
        (mant >>> sh, (mant % 2 ^ sh) * 2 ^ 32 / 2 ^ sh)
    let r := part lsb
    let q := if u < r.2 then r.1 + 1 else r.1
    let r0 := part u0
    let q0 := if u < r0.2 then r0.1 + 1 else r0.1
    let tiny := decide (top + (if q0 = 2 ^ (f.mbits + 1) then 1 else 0) < f.emin)
    let mx := f.maxMag
    let big := decide (lsb > mx.2) || (decide (lsb = mx.2) && decide (q > mx.1))
    if big then
      let o := overflow f .rne sat neg
      (o.1, o.2)
    else
      (f.signed neg (encodeMag f q lsb), if r.2 = 0 then 0 else flagNX ||| (if tiny then flagUF else 0))

/-- One round of Philox-4x32 (R195). PRESUMED: the published multipliers. -/
def philoxRound (k : Nat × Nat) (x : Nat × Nat × Nat × Nat) : Nat × Nat × Nat × Nat :=
  let p0 := 0xD2511F53 * x.1
  let p1 := 0xCD9E8D57 * x.2.2.1
  let hi (v : Nat) := (v / 2 ^ 32) % 2 ^ 32
  let lo (v : Nat) := v % 2 ^ 32
  (Nat.xor (Nat.xor (hi p1) x.2.1) k.1, lo p1, Nat.xor (Nat.xor (hi p0) x.2.2.2) k.2, lo p0)

/-- Philox rounds with the published key increments (R195). PRESUMED constants. -/
def philoxRounds : Nat → Nat × Nat → Nat × Nat × Nat × Nat → Nat × Nat × Nat × Nat
  | 0, _, x => x
  | n + 1, k, x => philoxRounds n ((k.1 + 0x9E3779B9) % 2 ^ 32, (k.2 + 0xBB67AE85) % 2 ^ 32) (philoxRound k x)

/-- The draw of element e with a stream seed, SITE word and GEN (R195): word e[1:0] of Philox-4x32-10. -/
def philoxDraw (seed : Word) (e site gen : Nat) : Nat :=
  let k := (seed.toNat % 2 ^ 32, seed.toNat / 2 ^ 32)
  let x := ((e / 4) % 2 ^ 32, e / 2 ^ 34, site, gen)
  let y := philoxRounds 10 k x
  match e % 4 with
  | 0 => y.1
  | 1 => y.2.1
  | 2 => y.2.2.1
  | _ => y.2.2.2

/-- The value 2 ^ (E − 127) of an E8M0 byte, none for 0xFF (R176). -/
def scaleExp (x : Byte) : Option Int := if x = 0xFF then none else some ((x.toNat : Int) - 127)

end Sys2Proof.Machine
end

