-- ==== Sys2Proof/Machine/Curve.lean ====
section
/-! DEFINITION. The curve functions the rules name and do not write out: Ed25519 signatures (R474, R483; RFC 8032, which hashes with the
SHA-512 of FIPS 180) and the X25519 exchange (R396; RFC 7748), as those standards have them (PRESUMED, log entry 5). -/

namespace Sys2Proof.Machine

open Sys2Proof

/-- The greatest x of n more bits behind those of x whose power k is at most v. -/
def rootFloor (k v : Nat) : Nat → Nat → Nat
  | 0, x => x
  | n + 1, x => rootFloor k v n (if (x + 2 ^ n) ^ k ≤ v then x + 2 ^ n else x)

/-- The first 64 bits of the fractional part of the root of order k of each of the first n primes, up to the 80th, 409. -/
def rootBits (k n : Nat) : List Word :=
  let primes := (List.range 410).filter fun p => decide (2 ≤ p) && (List.range p).all fun q => q < 2 || p % q != 0
  (primes.take n).map fun p => BitVec.ofNat 64 (rootFloor k (p * 2 ^ (64 * k)) 70 0)

/-- SHA-512's round constants, of the cube roots of the first 80 primes (FIPS 180). -/
def sha512Const : List Word := rootBits 3 80

/-- SHA-512's initial hash value, of the square roots of the first 8 primes (FIPS 180). -/
def sha512Init : List Word := rootBits 2 8

/-- The message schedule: n more words behind the last 16, which are held newest first. -/
def sha512Words : Nat → List Word → List Word
  | 0, w => w
  | n + 1, w =>
    let a := w.getD 14 0
    let b := w.getD 1 0
    let s0 := a.rotateRight 1 ^^^ a.rotateRight 8 ^^^ (a >>> 7)
    let s1 := b.rotateRight 19 ^^^ b.rotateRight 61 ^^^ (b >>> 6)
    sha512Words n ((w.getD 15 0 + s0 + w.getD 6 0 + s1) :: w)

/-- One round on the eight working words: the round constant and the schedule's word. -/
def sha512Round (v : List Word) (kw : Word × Word) : List Word :=
  let x := fun i => v.getD i 0
  let s1 := (x 4).rotateRight 14 ^^^ (x 4).rotateRight 18 ^^^ (x 4).rotateRight 41
  let ch := (x 4 &&& x 5) ^^^ (~~~ x 4 &&& x 6)
  let t1 := x 7 + s1 + ch + kw.1 + kw.2
  let s0 := (x 0).rotateRight 28 ^^^ (x 0).rotateRight 34 ^^^ (x 0).rotateRight 39
  let maj := (x 0 &&& x 1) ^^^ (x 0 &&& x 2) ^^^ (x 1 &&& x 2)
  [t1 + (s0 + maj), x 0, x 1, x 2, x 3 + t1, x 4, x 5, x 6]

/-- The hash value after n blocks of 128 bytes. -/
def sha512Blocks : Nat → List Word → List Byte → List Word
  | 0, h, _ => h
  | n + 1, h, m =>
    let first := (List.range 16).map fun i => BitVec.ofNat 64 (fromBytesBE ((m.drop (8 * i)).take 8))
    let w := (sha512Words 64 first.reverse).reverse
    let v := (sha512Const.zip w).foldl sha512Round h
    sha512Blocks n (h.zipWith (· + ·) v) (m.drop 128)

/-- SHA-512 (FIPS 180): 64 bytes. -/
@[irreducible] def sha512 (m : List Byte) : List Byte :=
  let z := (239 - m.length % 128) % 128
  let p := m ++ 0x80 :: (List.replicate z 0 ++ (toBytes 16 (8 * m.length)).reverse)
  (sha512Blocks (p.length / 128) sha512Init p).flatMap fun l => (toBytes 8 l.toNat).reverse

/-- A power modulo q of an exponent of at most n bits. -/
def powMod (q x : Nat) : Nat → Nat → Nat
  | 0, _ => 1 % q
  | n + 1, e =>
    let h := powMod q x n (e / 2)
    if e % 2 = 1 then h * h % q * x % q else h * h % q

/-- The prime of both curves. -/
def curveP : Nat := 2 ^ 255 - 19
/-- The order of Ed25519's base point. -/
def curveL : Nat := 2 ^ 252 + 27742317777372353535851937790883648493
/-- An inverse modulo the prime: 0 for 0. -/
def curveInv (x : Nat) : Nat := powMod curveP x 255 (curveP - 2)
/-- The constant d of the Edwards curve. -/
def curveD : Nat := (curveP - 121665) * curveInv 121666 % curveP
/-- The square root of −1 that RFC 8032 takes. -/
def curveI : Nat := powMod curveP 2 255 ((curveP - 1) / 4)

/-- A point of the Edwards curve in extended coordinates. -/
structure EdPoint where
  x : Nat
  y : Nat
  z : Nat
  t : Nat
  deriving DecidableEq, Repr

/-- The neutral point. -/
def EdPoint.zero : EdPoint := ⟨0, 1, 1, 0⟩

/-- The sum of two points (RFC 8032, 5.1.4). -/
def EdPoint.add (p q : EdPoint) : EdPoint :=
  let m := curveP
  let a := (p.y + m - p.x) * (q.y + m - q.x) % m
  let b := (p.y + p.x) * (q.y + q.x) % m
  let c := 2 * p.t * q.t % m * curveD % m
  let d := 2 * p.z * q.z % m
  let e := b + m - a
  let f := d + m - c
  let g := d + c
  let h := b + a
  ⟨e * f % m, g * h % m, f * g % m, e * h % m⟩

/-- A multiple of a point, of at most n bits. -/
def EdPoint.mul (p : EdPoint) : Nat → Nat → EdPoint
  | 0, _ => EdPoint.zero
  | n + 1, k =>
    let h := p.mul n (k / 2)
    let d := h.add h
    if k % 2 = 1 then d.add p else d

/-- Are two points the same? -/
def EdPoint.same (p q : EdPoint) : Bool :=
  p.x * q.z % curveP == q.x * p.z % curveP && p.y * q.z % curveP == q.y * p.z % curveP

/-- The x of a y and a sign, where there is one (RFC 8032, 5.1.3). -/
def edX (y sign : Nat) : Option Nat :=
  let u := (y * y + curveP - 1) % curveP
  let v := (curveD * (y * y % curveP) + 1) % curveP
  let v3 := v * v % curveP * v % curveP
  let x := u * v3 % curveP * powMod curveP (u * (v3 * v3 % curveP * v % curveP)) 255 ((curveP - 5) / 8) % curveP
  let w := v * (x * x % curveP) % curveP
  let x := if w = u then some x else if w = (curveP - u) % curveP then some (x * curveI % curveP) else none
  match x with
  | none => none
  | some x => if x = 0 ∧ sign = 1 then none else some (if x % 2 = sign then x else curveP - x)

/-- The 32 bytes of a point. -/
def EdPoint.encode (p : EdPoint) : List Byte :=
  let i := curveInv p.z
  toBytes 32 (p.y * i % curveP + 2 ^ 255 * (p.x * i % curveP % 2))

/-- The point that 32 bytes spell. -/
def edDecode (b : List Byte) : Option EdPoint :=
  let n := fromBytes b
  let y := n % 2 ^ 255
  if b.length ≠ 32 ∨ curveP ≤ y then none
  else (edX y (n / 2 ^ 255)).map fun x => ⟨x, y, 1, x * y % curveP⟩

/-- The base point: y = 4/5, x even. -/
def edBase : EdPoint :=
  let y := 4 * curveInv 5 % curveP
  let x := (edX y 0).getD 0
  ⟨x, y, 1, x * y % curveP⟩

/-- A scalar clamped: bits 2–0 and 255 clear, bit 254 set (RFC 7748, RFC 8032). -/
def clampScalar (b : List Byte) : Nat := fromBytes (b.take 32) % 2 ^ 254 / 8 * 8 + 2 ^ 254

/-- The Ed25519 public key of a 32-byte seed (R483; RFC 8032, 5.1.5). -/
@[irreducible] def edPublic (seed : List Byte) : List Byte := (edBase.mul 256 (clampScalar (sha512 seed))).encode

/-- The Ed25519 signature of a message under a seed (R474; RFC 8032, 5.1.6): 64 bytes. -/
@[irreducible] def edSign (seed m : List Byte) : List Byte :=
  let h := sha512 seed
  let a := edPublic seed
  let r := fromBytes (sha512 (h.drop 32 ++ m)) % curveL
  let rb := (edBase.mul 256 r).encode
  let k := fromBytes (sha512 (rb ++ a ++ m)) % curveL
  rb ++ toBytes 32 ((r + k * clampScalar h) % curveL)

/-- Does an Ed25519 signature verify under a public key (R474; RFC 8032, 5.1.7)? The standard lets the check be made with the cofactor or
without it: Config says which (log entry 5). -/
@[irreducible] def edVerify (key m sig : List Byte) : Bool :=
  let s := fromBytes (sig.drop 32)
  match edDecode key, edDecode (sig.take 32) with
  | some a, some r =>
    let k := fromBytes (sha512 (sig.take 32 ++ key ++ m)) % curveL
    let n := if Config.edCofactor then 8 else 1
    sig.length == 64 && decide (s < curveL) && ((edBase.mul 256 s).mul 4 n).same ((r.add (a.mul 256 k)).mul 4 n)
  | _, _ => false

/-- The X25519 ladder (RFC 7748, 5): the scalar's bits t, …, 0 on the two points' x and z, swapped as the bit before says. -/
def ladder (u k : Nat) : Nat → Nat → Nat → Nat → Nat → Bool → Nat
  | 0, x2, z2, x3, z3, swap => if swap then x3 * curveInv z3 % curveP else x2 * curveInv z2 % curveP
  | t + 1, x2, z2, x3, z3, swap =>
    let p := curveP
    let kt := k.testBit t
    let sw := swap != kt
    let (x2, x3) := if sw then (x3, x2) else (x2, x3)
    let (z2, z3) := if sw then (z3, z2) else (z2, z3)
    let a := (x2 + z2) % p
    let b := (x2 + p - z2) % p
    let e := (a * a + p - b * b % p) % p
    let da := (x3 + p - z3) * a % p
    let cb := (x3 + z3) * b % p
    let sum := (da + cb) % p
    let dif := (da + p - cb) % p
    ladder u k t (a * a % p * (b * b % p) % p) (e * (a * a % p + 121665 * e % p) % p) (sum * sum % p) (u * (dif * dif % p) % p) kt

/-- X25519 of a 32-byte scalar and a 32-byte point (R396; RFC 7748, 5). -/
@[irreducible] def x25519 (scalar point : List Byte) : List Byte :=
  let u := fromBytes (point.take 32) % 2 ^ 255 % curveP
  toBytes 32 (ladder u (clampScalar scalar) 255 1 0 u 1 false)

end Sys2Proof.Machine
end

