-- ==== Sys2Proof/Machine/Keccak.lean ====
section
/-! DEFINITION. The Keccak functions the rules name and do not write out: SHA3-256, SHA3-384 (R409, R473, R482), the SHAKE functions that
ML-DSA-65 and ML-KEM-768 hash with, and HKDF over SHA3-256 (R396, R483). Each is as its published standard has it: FIPS 202, RFC 2104 and
RFC 5869 (PRESUMED, log entry 5). -/

namespace Sys2Proof.Machine

open Sys2Proof

/-- The rotations of the lanes as the walk of rho from lane (1, 0) meets them, lane x + 5y with its rotation (FIPS 202): the last n of its 24 steps. -/
def keccakRho : Nat → Nat → Nat → List (Nat × Nat)
  | 0, _, _ => []
  | n + 1, x, y => (x + 5 * y, (24 - n) * (25 - n) / 2 % 64) :: keccakRho n y ((2 * x + 3 * y) % 5)

/-- The rotation of each lane (FIPS 202, rho). -/
def keccakRot : List Nat := (List.range 25).map fun i => ((keccakRho 24 1 0).lookup i).getD 0

/-- The register of iota after n steps of its feedback (FIPS 202, rc). -/
def keccakFeed : Nat → Nat
  | 0 => 1
  | n + 1 => let r := keccakFeed n; (2 * r % 256) ^^^ (if r < 128 then 0 else 0x71)

/-- The constant of each of the 24 rounds (FIPS 202, iota): bit 2ʲ − 1 of round i is the register's low bit after j + 7i steps. -/
def keccakConst : List Word :=
  (List.range 24).map fun i => BitVec.ofNat 64 (((List.range 7).map fun j => keccakFeed (j + 7 * i) % 2 * 2 ^ (2 ^ j - 1)).foldl (· + ·) 0)

/-- One round on the 25 lanes: theta, then rho and pi, then chi, then iota. -/
def keccakRound (rc : Word) (a : List Word) : List Word :=
  let c := (List.range 5).map fun x => (List.range 5).foldl (fun v y => v ^^^ a.getD (x + 5 * y) 0) 0
  let d := (List.range 5).map fun x => c.getD ((x + 4) % 5) 0 ^^^ (c.getD ((x + 1) % 5) 0).rotateLeft 1
  let t := (List.range 25).map fun i => (a.getD i 0 ^^^ d.getD (i % 5) 0).rotateLeft (keccakRot.getD i 0)
  let b := (List.range 25).map fun i => t.getD ((i % 5 + 3 * (i / 5)) % 5 + 5 * (i % 5)) 0
  let e := (List.range 25).map fun i =>
    b.getD i 0 ^^^ (~~~ b.getD (5 * (i / 5) + (i + 1) % 5) 0 &&& b.getD (5 * (i / 5) + (i % 5 + 2) % 5) 0)
  match e with
  | [] => []
  | l :: ls => (l ^^^ rc) :: ls

/-- The permutation. -/
def keccakF (a : List Word) : List Word := keccakConst.foldl (fun a rc => keccakRound rc a) a

/-- A block of the rate added to the lanes. -/
def keccakAdd (a : List Word) (block : List Byte) : List Word :=
  (List.range 25).map fun i => a.getD i 0 ^^^ BitVec.ofNat 64 (fromBytes ((block.drop (8 * i)).take 8))

/-- Whole blocks of the rate taken in. -/
def keccakAbsorb (rate : Nat) : Nat → List Word → List Byte → List Word
  | 0, a, _ => a
  | n + 1, a, m => keccakAbsorb rate n (keccakF (keccakAdd a (m.take rate))) (m.drop rate)

/-- Blocks of the rate given out. -/
def keccakSqueeze (rate : Nat) : Nat → List Word → List Byte
  | 0, _ => []
  | n + 1, a => (a.flatMap fun l => toBytes 8 l.toNat).take rate ++ keccakSqueeze rate n (keccakF a)

/-- The sponge: a message under a rate, its suffix and padding, and the first n bytes of what comes out. -/
@[irreducible] def sponge (rate : Nat) (suffix : Byte) (n : Nat) (m : List Byte) : List Byte :=
  let z := rate - 1 - m.length % rate
  let p := if z = 0 then m ++ [suffix ||| 0x80] else m ++ suffix :: (List.replicate (z - 1) 0 ++ [0x80])
  (keccakSqueeze rate ((n + rate - 1) / rate) (keccakAbsorb rate (p.length / rate) (List.replicate 25 0) p)).take n

/-- SHA3-256 (R409, R473): 32 bytes. -/
def sha3_256 (m : List Byte) : List Byte := sponge 136 0x06 32 m
/-- SHA3-384 (R482): 48 bytes. -/
def sha3_384 (m : List Byte) : List Byte := sponge 104 0x06 48 m
/-- SHA3-512, which ML-KEM-768 uses: 64 bytes. -/
def sha3_512 (m : List Byte) : List Byte := sponge 72 0x06 64 m
/-- The first n bytes of SHAKE128. -/
def shake128 (n : Nat) (m : List Byte) : List Byte := sponge 168 0x1F n m
/-- The first n bytes of SHAKE256. -/
def shake256 (n : Nat) (m : List Byte) : List Byte := sponge 136 0x1F n m

/-- HMAC over SHA3-256, whose block is 136 bytes (RFC 2104). -/
def hmac (key m : List Byte) : List Byte :=
  let k := if 136 < key.length then sha3_256 key else key
  let k := k ++ List.replicate (136 - k.length) 0
  sha3_256 (k.map (· ^^^ 0x5C) ++ sha3_256 (k.map (· ^^^ 0x36) ++ m))

/-- HKDF's blocks from block i on (RFC 5869, expand). -/
def hkdfBlocks (prk info : List Byte) : Nat → Nat → List Byte → List Byte
  | 0, _, _ => []
  | n + 1, i, t =>
    let u := hmac prk (t ++ info ++ [BitVec.ofNat 8 i])
    u ++ hkdfBlocks prk info n (i + 1) u

/-- HKDF over SHA3-256: n bytes from input keying material, salt and info (R396, R483). -/
@[irreducible] def hkdf (n : Nat) (ikm salt info : List Byte) : List Byte :=
  (hkdfBlocks (hmac salt ikm) info ((n + 31) / 32) 1 []).take n

end Sys2Proof.Machine
end

