-- ==== Sys2Proof/Machine/Lattice.lean ====
section
/-! DEFINITION. ML-DSA-65 (R474, R483; FIPS 204) and ML-KEM-768 (R396; FIPS 203), which the rules name and do not write out, as those standards
have them (PRESUMED, log entry 5). A polynomial is the list of its 256 coefficients modulo q, constant term first. -/

namespace Sys2Proof.Machine

open Sys2Proof

/-! ## Both rings -/

/-- Numbers of w bits each, packed with the first lowest, as n bytes. -/
def packWidth (w n : Nat) (l : List Nat) : List Byte := toBytes n (l.foldr (fun x v => x + 2 ^ w * v) 0)

/-- The n numbers of w bits each that bytes hold, the first lowest. -/
def unpackWidth (w n : Nat) (b : List Byte) : List Nat :=
  let v := fromBytes b
  (List.range n).map fun i => v / 2 ^ (w * i) % 2 ^ w

/-- The n bits of a number, the other way round. -/
def revBits : Nat → Nat → Nat
  | 0, _ => 0
  | n + 1, v => v % 2 * 2 ^ n + revBits n (v / 2)

/-- A polynomial's value at x. -/
def evalPoly (q x : Nat) (p : List Nat) : Nat := p.foldr (fun c a => (c + x * a) % q) 0

/-- Sums and differences of polynomials, and a list of polynomials summed. -/
def addPoly (q : Nat) (a b : List Nat) : List Nat := a.zipWith (fun x y => (x + y) % q) b
def subPoly (q : Nat) (a b : List Nat) : List Nat := a.zipWith (fun x y => (x + q - y) % q) b
def sumPoly (q : Nat) (l : List (List Nat)) : List Nat := l.foldl (addPoly q) (List.replicate 256 0)

/-- The vectors of n polynomials of equal byte length w one after another. -/
def cutBytes (w n : Nat) (b : List Byte) : List (List Byte) := (List.range n).map fun i => (b.drop (w * i)).take w

/-- The first 256 numbers of a list, and zeros where there are fewer: the standards bound what a sampler reads, so far out that no seed is
known to reach it. -/
def full256 (l : List Nat) : List Nat := (l ++ List.replicate 256 0).take 256

/-! ## ML-DSA-65 -/

/-- The modulus. -/
def dsaQ : Nat := 8380417
/-- 2γ₂ = (q − 1) / 16. -/
def dsaAlpha : Nat := 523776

/-- The transform: value i is that at 1753 to the power 2·rev₈(i) + 1. -/
@[irreducible] def dsaNtt (p : List Nat) : List Nat :=
  (List.range 256).map fun i => evalPoly dsaQ (powMod dsaQ 1753 10 (2 * revBits 8 i + 1)) p

/-- The inverse transform. -/
@[irreducible] def dsaInv (v : List Nat) : List Nat :=
  let byExp := (List.range 256).map fun e => v.getD (revBits 8 e) 0
  (List.range 256).map fun j =>
    let a := powMod dsaQ 1753 10 (512 - j)
    a * evalPoly dsaQ (a * a % dsaQ) byExp % dsaQ * 8347681 % dsaQ

/-- A product of transforms. -/
def dsaMul (a b : List Nat) : List Nat := a.zipWith (fun x y => x * y % dsaQ) b

/-- The matrix A of a seed, 6 rows of 5 transforms (ExpandA). -/
@[irreducible] def dsaMatrix (rho : List Byte) : List (List (List Nat)) :=
  (List.range 6).map fun r => (List.range 5).map fun c =>
    let b := shake128 1176 (rho ++ [BitVec.ofNat 8 c, BitVec.ofNat 8 r])
    full256 ((unpackWidth 24 392 b).map (· % 2 ^ 23) |>.filter (· < dsaQ))

/-- A product of the matrix with a vector of transforms. -/
def dsaApply (m : List (List (List Nat))) (v : List (List Nat)) : List (List Nat) :=
  m.map fun row => dsaInv (sumPoly dsaQ (row.zipWith dsaMul v))

/-- A short polynomial of a seed, coefficients −4 to 4 (RejBoundedPoly). -/
def dsaShort (seed : List Byte) (n : Nat) : List Nat :=
  full256 ((unpackWidth 4 1088 (shake256 544 (seed ++ toBytes 2 n))).filter (· < 9) |>.map fun z => (dsaQ + 4 - z) % dsaQ)

/-- A coefficient about 0: its distance from 0. -/
def dsaAbs (x : Nat) : Nat := if x ≤ dsaQ / 2 then x else dsaQ - x

/-- Is every coefficient of a vector nearer to 0 than b? -/
def dsaBelow (b : Nat) (v : List (List Nat)) : Bool := v.all fun p => p.all fun x => dsaAbs x < b

/-- High and low part of a coefficient, r = r₁·2γ₂ + r₀ (Decompose). -/
def dsaSplit (r : Nat) : Nat × Nat :=
  let l := r % dsaAlpha
  let low : Int := if l ≤ dsaAlpha / 2 then l else (l : Int) - dsaAlpha
  let h := ((r : Int) - low).toNat
  let w := if h = dsaQ - 1 then (0, low - 1) else (h / dsaAlpha, low)
  (w.1, (w.2 % dsaQ).toNat)

/-- The high part a hint gives (UseHint). -/
def dsaUse (hint : Nat) (r : Nat) : Nat :=
  let d := dsaSplit r
  if hint = 0 then d.1 else if d.2 ≠ 0 ∧ d.2 ≤ dsaQ / 2 then (d.1 + 1) % 16 else (d.1 + 15) % 16

/-- The challenge polynomial of 48 bytes, 49 coefficients 1 or −1 (SampleInBall): the steps i = 207, … with the bytes and the signs left. -/
def dsaBallSteps : Nat → Nat → List Byte → Nat → List Nat → List Nat
  | 0, _, _, _, c => c
  | _ + 1, _, [], _, c => c
  | n + 1, i, b :: bs, signs, c =>
    if b.toNat ≤ i then
      let c := setAt (setAt c i (c.getD b.toNat 0)) b.toNat (if signs % 2 = 1 then dsaQ - 1 else 1)
      if i = 255 then c else dsaBallSteps n (i + 1) bs (signs / 2) c
    else dsaBallSteps n i bs signs c

@[irreducible] def dsaBall (seed : List Byte) : List Nat :=
  let b := shake256 272 seed
  dsaBallSteps 264 207 (b.drop 8) (fromBytes (b.take 8)) (List.replicate 256 0)

/-- The bytes of a vector of high parts (w1Encode). -/
def dsaW1 (v : List (List Nat)) : List Byte := v.flatMap (packWidth 4 128)

/-- The hint's bytes: the places of each polynomial's ones, then how many there are so far (HintBitPack). -/
def dsaHintBytes (h : List (List Nat)) : List Byte :=
  let places := h.map fun p => (List.range 256).filter fun i => p.getD i 0 == 1
  let all := places.flatten
  all.map (BitVec.ofNat 8 ·) ++ List.replicate (55 - all.length) 0
    ++ (List.range 6).map fun i => BitVec.ofNat 8 ((places.take (i + 1)).flatten.length)

/-- The hint that 61 bytes spell, none where they are no hint (HintBitUnpack). -/
def dsaHint (b : List Byte) : Option (List (List Nat)) :=
  let ends := (b.drop 55).map (·.toNat)
  let starts := 0 :: ends.take 5
  let places := (starts.zip ends).map fun p => ((b.take p.2).drop p.1).map (·.toNat)
  let rises := fun (l : List Nat) => (l.zip (l.drop 1)).all fun p => decide (p.1 < p.2)
  if (starts.zip ends).all (fun p => decide (p.1 ≤ p.2 ∧ p.2 ≤ 55)) && places.all rises
      && ((b.take 55).drop (ends.getD 5 0)).all (· == 0) then
    some (places.map fun l => (List.range 256).map fun i => b2n (l.contains i))
  else none

/-- What key generation makes of a 32-byte seed (FIPS 204, 6.1): ρ, K, the secret vectors and t. -/
structure DsaKey where
  rho : List Byte
  key : List Byte
  s1 : List (List Nat)
  s2 : List (List Nat)
  t : List (List Nat)

@[irreducible] def dsaKeyGen (seed : List Byte) : DsaKey :=
  let h := shake256 128 (seed ++ [6, 5])
  let rho := h.take 32
  let rhoS := (h.drop 32).take 64
  let s1 := (List.range 5).map fun r => dsaShort rhoS r
  let s2 := (List.range 6).map fun r => dsaShort rhoS (r + 5)
  let t := (dsaApply (dsaMatrix rho) (s1.map dsaNtt)).zipWith (addPoly dsaQ) s2
  { rho := rho, key := h.drop 96, s1 := s1, s2 := s2, t := t }

/-- A coefficient of t cut in two (Power2Round): the high part and the low part modulo q. -/
def dsaRound (r : Nat) : Nat × Nat :=
  let l := r % 8192
  if l ≤ 4096 then (r / 8192, l) else (r / 8192 + 1, dsaQ + l - 8192)

/-- The public key of a key: 1,952 bytes. -/
def DsaKey.pub (k : DsaKey) : List Byte := k.rho ++ k.t.flatMap fun p => packWidth 10 320 (p.map fun r => (dsaRound r).1)

/-- The ML-DSA-65 public key of a 32-byte seed (R483; FIPS 204). -/
def mlPublic (seed : List Byte) : List Byte := (dsaKeyGen seed).pub

/-- μ: the hash of a public key and a message with an empty context (R474; FIPS 204, 5.2 and 6.2). -/
def dsaMu (pub m : List Byte) : List Byte := shake256 64 (shake256 64 pub ++ [0, 0] ++ m)

/-- One try at a signature (FIPS 204, 6.2): the mask seed and the count κ. -/
def dsaTry (k : DsaKey) (a : List (List (List Nat))) (mu mask : List Byte) (kappa : Nat) : Option (List Byte) :=
  let q := dsaQ
  let y := (List.range 5).map fun r =>
    (unpackWidth 20 256 (shake256 640 (mask ++ toBytes 2 (kappa + r)))).map fun z => (q + 524288 - z) % q
  let w := dsaApply a (y.map dsaNtt)
  let ct := shake256 48 (mu ++ dsaW1 (w.map fun p => p.map fun r => (dsaSplit r).1))
  let c := dsaNtt (dsaBall ct)
  let times := fun (v : List (List Nat)) => v.map fun p => dsaInv (dsaMul c (dsaNtt p))
  let z := y.zipWith (addPoly q) (times k.s1)
  let low := w.zipWith (subPoly q) (times k.s2)
  let ct0 := times (k.t.map fun p => p.map fun r => (dsaRound r).2)
  let full := low.zipWith (addPoly q) ct0
  let h := (low.zip full).map fun v => (v.1.zip v.2).map fun r => b2n ((dsaSplit r.1).1 != (dsaSplit r.2).1)
  if dsaBelow (524288 - 196) z && dsaBelow (261888 - 196) (low.map fun p => p.map fun r => (dsaSplit r).2)
      && dsaBelow 261888 ct0 && decide ((h.flatten.filter (· == 1)).length ≤ 55) then
    some (ct ++ (z.flatMap fun p => packWidth 20 640 (p.map fun x => (q + 524288 - x) % q)) ++ dsaHintBytes h)
  else none

/-- The tries in turn, at most 814 as the standard allows. -/
def dsaTries (k : DsaKey) (a : List (List (List Nat))) (mu mask : List Byte) : Nat → Nat → List Byte
  | 0, _ => []
  | n + 1, kappa => match dsaTry k a mu mask kappa with
    | some sig => sig
    | none => dsaTries k a mu mask n (kappa + 5)

/-- The hedged ML-DSA-65 signature of a message under a 32-byte seed, with 32 drawn bytes (R474, R483): 3,309 bytes. -/
@[irreducible] def mlSign (seed m rnd : List Byte) : List Byte :=
  let k := dsaKeyGen seed
  let mu := dsaMu k.pub m
  dsaTries k (dsaMatrix k.rho) mu (shake256 64 (k.key ++ rnd ++ mu)) 814 0

/-- Does an ML-DSA-65 signature verify under a public key (R474; FIPS 204, 5.3 and 6.3)? -/
@[irreducible] def mlVerify (pub m sig : List Byte) : Bool :=
  let q := dsaQ
  match dsaHint (sig.drop 3248) with
  | none => false
  | some h =>
    let z := (cutBytes 640 5 (sig.drop 48)).map fun b => (unpackWidth 20 256 b).map fun x => (q + 524288 - x) % q
    let t1 := (cutBytes 320 6 (pub.drop 32)).map fun b => (unpackWidth 10 256 b).map (· * 8192)
    let c := dsaNtt (dsaBall (sig.take 48))
    let az := dsaApply (dsaMatrix (pub.take 32)) (z.map dsaNtt)
    let w := az.zipWith (subPoly q) (t1.map fun p => dsaInv (dsaMul c (dsaNtt p)))
    let w1 := (h.zip w).map fun v => v.1.zipWith dsaUse v.2
    pub.length == 1952 && sig.length == 3309 && dsaBelow (524288 - 196) z
      && shake256 48 (dsaMu pub m ++ dsaW1 w1) == sig.take 48

/-! ## ML-KEM-768 -/

/-- The modulus. -/
def kemQ : Nat := 3329

/-- The root of the transform's place i: X² − r (FIPS 203, 4.3). -/
def kemRoot (i : Nat) : Nat := powMod kemQ 17 9 (2 * revBits 7 i + 1)

/-- The coefficients at the even and at the odd places. -/
def kemHalf (odd : Nat) (p : List Nat) : List Nat := (List.range 128).map fun j => p.getD (2 * j + odd) 0

/-- The transform: places 2i and 2i + 1 are the polynomial modulo X² − root i. -/
@[irreducible] def kemNtt (p : List Nat) : List Nat :=
  let e := kemHalf 0 p
  let o := kemHalf 1 p
  (List.range 128).flatMap fun i => [evalPoly kemQ (kemRoot i) e, evalPoly kemQ (kemRoot i) o]

/-- The inverse transform. -/
@[irreducible] def kemInv (v : List Nat) : List Nat :=
  let half := fun odd =>
    let h := kemHalf odd v
    let byExp := (List.range 128).map fun e => h.getD (revBits 7 e) 0
    (List.range 128).map fun j =>
      let a := powMod kemQ 17 9 (256 - j)
      a * evalPoly kemQ (a * a % kemQ) byExp % kemQ * 3303 % kemQ
  let e := half 0
  let o := half 1
  (List.range 128).flatMap fun j => [e.getD j 0, o.getD j 0]

/-- A product of transforms: one of linear polynomials modulo X² − root i at each place. -/
def kemMul (a b : List Nat) : List Nat :=
  (List.range 128).flatMap fun i =>
    let a0 := a.getD (2 * i) 0
    let a1 := a.getD (2 * i + 1) 0
    let b0 := b.getD (2 * i) 0
    let b1 := b.getD (2 * i + 1) 0
    [(a0 * b0 + a1 * b1 % kemQ * kemRoot i) % kemQ, (a0 * b1 + a1 * b0) % kemQ]

/-- An inner product of transforms. -/
def kemDot (a b : List (List Nat)) : List Nat := sumPoly kemQ (a.zipWith kemMul b)

/-- The transform at row i and column j of the matrix of a seed (SampleNTT). -/
@[irreducible] def kemSample (rho : List Byte) (i j : Nat) : List Nat :=
  full256 ((unpackWidth 12 672 (shake128 1008 (rho ++ [BitVec.ofNat 8 j, BitVec.ofNat 8 i]))).filter (· < kemQ))

/-- A noise polynomial of a seed and a number, η = 2 (SamplePolyCBD over PRF). -/
def kemNoise (seed : List Byte) (n : Nat) : List Nat :=
  (unpackWidth 4 256 (shake256 128 (seed ++ [BitVec.ofNat 8 n]))).map fun v =>
    (kemQ + v % 2 + v / 2 % 2 - v / 4 % 2 - v / 8 % 2) % kemQ

/-- A number to d bits and back (Compress, Decompress). -/
def kemSqueeze (d x : Nat) : Nat := (2 ^ (d + 1) * x + kemQ) / (2 * kemQ) % 2 ^ d
def kemStretch (d y : Nat) : Nat := (2 * kemQ * y + 2 ^ d) / 2 ^ (d + 1)

/-- The bytes of a polynomial with d bits a coefficient, and the polynomial of such bytes. -/
def kemBytes (d : Nat) (p : List Nat) : List Byte := packWidth d (32 * d) p
def kemPoly (d : Nat) (b : List Byte) : List Nat := (unpackWidth d 256 b).map fun x => if d = 12 then x % kemQ else x

/-- The secret vector, as transforms, and the encapsulation key of 32 bytes d (K-PKE.KeyGen). -/
@[irreducible] def kemKeyGen (d : List Byte) : List (List Nat) × List Byte :=
  let g := sha3_512 (d ++ [3])
  let rho := g.take 32
  let s := (List.range 3).map fun i => kemNtt (kemNoise (g.drop 32) i)
  let t := (List.range 3).map fun i =>
    addPoly kemQ (kemDot ((List.range 3).map (kemSample rho i)) s) (kemNtt (kemNoise (g.drop 32) (i + 3)))
  (s, t.flatMap (kemBytes 12) ++ rho)

/-- The encapsulation key of a 64-byte seed d ‖ z (R396): 1,184 bytes. -/
def kemKey (seed : List Byte) : List Byte := (kemKeyGen (seed.take 32)).2

/-- The encryption of 32 bytes under an encapsulation key with 32 bytes of coins (K-PKE.Encrypt): 1,088 bytes. -/
@[irreducible] def kemEncrypt (ek m coins : List Byte) : List Byte :=
  let t := (cutBytes 384 3 ek).map (kemPoly 12)
  let rho := ek.drop 1152
  let y := (List.range 3).map fun i => kemNtt (kemNoise coins i)
  let u := (List.range 3).map fun i =>
    addPoly kemQ (kemInv (kemDot ((List.range 3).map fun j => kemSample rho j i) y)) (kemNoise coins (i + 3))
  let v := addPoly kemQ (addPoly kemQ (kemInv (kemDot t y)) (kemNoise coins 6)) ((kemPoly 1 m).map (kemStretch 1))
  u.flatMap (fun p => kemBytes 10 (p.map (kemSqueeze 10))) ++ kemBytes 4 (v.map (kemSqueeze 4))

/-- The shared secret and the coins of a drawn 32-byte m under an encapsulation key. -/
def kemCoins (ek m : List Byte) : List Byte := sha3_512 (m ++ sha3_256 ek)

/-- The ciphertext of an encapsulation under a key, with a drawn 32-byte m (R396). -/
def kemCipher (ek m : List Byte) : List Byte := kemEncrypt ek m ((kemCoins ek m).drop 32)
/-- The shared secret of that encapsulation: 32 bytes. -/
def kemShared (ek m : List Byte) : List Byte := (kemCoins ek m).take 32

/-- The shared secret that a 64-byte seed's key recovers from a ciphertext (R396; FIPS 203, 6.3). -/
@[irreducible] def kemOpen (seed ct : List Byte) : List Byte :=
  let key := kemKeyGen (seed.take 32)
  let u := (cutBytes 320 3 ct).map fun b => (kemPoly 10 b).map (kemStretch 10)
  let v := (kemPoly 4 (ct.drop 960)).map (kemStretch 4)
  let m := kemBytes 1 ((subPoly kemQ v (kemInv (kemDot key.1 (u.map kemNtt)))).map (kemSqueeze 1))
  if kemCipher key.2 m == ct then kemShared key.2 m else shake256 32 (seed.drop 32 ++ ct)

end Sys2Proof.Machine
end

