-- ==== Sys2Proof/Machine/Keys.lean ====
section
/-! DEFINITION. The vendor's keys in the boot ROM and the fuses that choose among them, the device certificate, and the two checks of a signed
object (R473, R474, R475, R484). -/

namespace Sys2Proof.Machine

open Sys2Proof

/-- The first n bytes that a function gives. -/
def bytesBy (f : Nat → Byte) (n : Nat) : List Byte := (List.range n).map f

/-- The vendor's Ed25519 public key of a key generation, as the boot ROM holds it (R473). -/
def romEdKey (g : Nat) : List Byte := bytesBy (Config.romEd g) 32
/-- The vendor's ML-DSA-65 public key of a key generation (R473). -/
def romMlKey (g : Nat) : List Byte := bytesBy (Config.romMl g) 1952

/-- The key generation that phase 1 selects: the lowest whose two hashes both match the fuses (R473). -/
def keyGeneration (keyhEd keyhMl : List Byte) : Option Nat :=
  (List.range 4).find? fun g => sha3_256 (romEdKey g) == keyhEd && sha3_256 (romMlKey g) == keyhMl

/-- Does a vendor's Ed25519 signature verify under the selected generation: never where none matched (R473, R474)? -/
def vendorEd (g : Option Nat) (m sig : List Byte) : Bool := g.any fun g => edVerify (romEdKey g) m sig
/-- Does a vendor's ML-DSA-65 signature verify under the selected generation (R473, R474)? -/
def vendorMl (g : Option Nat) (m sig : List Byte) : Bool := g.any fun g => mlVerify (romMlKey g) m sig

/-- The device certificate as the store holds it, in R484's layout; the step is B1 (R2). -/
def certBytes : List Byte :=
  toBytes 4 0x44495A4A ++ toBytes 4 1 ++ toBytes 8 Config.serial.toNat
    ++ toBytes 8 (0x2524 + 2 ^ 16 * 0xB1 + 2 ^ 24 * b2n Config.eng)
    ++ bytesBy (fun i => Config.certByte (0x18 + i)) 8 ++ List.replicate 32 0 ++ bytesBy (fun i => Config.certByte (0x40 + i)) (5421 - 0x40)

end Sys2Proof.Machine
end

