-- ==== Sys2Proof/Machine/Regs.lean ====
section
/-! DEFINITION. The control registers of the module: one name per row of the spec's register tables, with the block, offset,
stride, dies, reset value and writable bits the tables give (R4, R5, R26, R27 and the table of each block). -/

namespace Sys2Proof.Machine

open Sys2Proof

/-- The dies that have a register (R26). -/
inductive DieClass where
  | all | k | c | edge
  deriving DecidableEq, Repr

/-- The registers, by the spec's names. -/
inductive RegName where
  | SCR_ID
  | SCR_PORT_STAT
  | SCR_ROUTE
  | SCR_BYTES_N
  | SCR_BYTES_E
  | SCR_BYTES_S
  | SCR_BYTES_W
  | TRW_EPOCH
  | TRW_EPOCH_BUMP
  | TRW_EPOCH_ROUTE
  | TRW_EPOCH_ECHO
  | FQ_CTRL
  | FQ_HEAD
  | FQ_CMD
  | FQ_STAT
  | FQ_REC
  | MXE_STAT
  | MXE_ROWS
  | MXE_BLOAD
  | MXE_REUSE
  | MXE_FPF
  | MXE_ECC
  | MXE_AG
  | GNG_GLOBAL
  | GNG_LAG_THR
  | GNG_ROUTE
  | GNG_CFG
  | GNG_STAT
  | GNG_EVENT
  | GNG_READMIT
  | GNG_OPS
  | GNG_GRP
  | GNG_PROG
  | GNG_LAG
  | GNG_FPF
  | FTQ_STAT
  | FTQ_PEEK
  | FTQ_CMD
  | FTQ_POSTED
  | FTQ_FREED
  | FTQ_DISCARDED
  | FTQ_ENT
  | GLZ_FPF
  | GLZ_BIND
  | GLZ_AMR
  | STM_CFG
  | STM_CMD
  | STM_CMDSTAT
  | STM_ROUTE
  | STM_NEXTF
  | STM_APPENDED
  | SYN_CFG
  | SYN_OP
  | SYN_STAT
  | TT_TIME
  | TT_CMP
  | TT_PER
  | TT_CTL
  | TRW_CTRL
  | TRW_KIT_BASE
  | TRW_KIT_CNT
  | TRW_DEFDL
  | TRW_FLUSH
  | TRW_STAT
  | TRW_MFAULT
  | TRW_WDONE
  | TRW_WQ
  | TRW_WQROUTE
  | TRW_WQN
  | TRW_WIN
  | HBM_STAT
  | HBM_TEMP
  | HBM_SCRUB
  | HBM_THRNS
  | HBM_DEFER
  | HBM_CHERR
  | HBM_MRG
  | HBM_MRG_RES
  | HBM_CAP
  | HBM_MAP
  | PMAP_OUT
  | PMAP_PEND
  | PMAP_TRAIN
  | AGD_LSTAT
  | AGD_LCTL
  | AGD_LANES
  | AGD_CRED
  | AGD_FECC
  | AGD_FECU
  | AGD_REPLAY
  | AGD_RECOV
  | AGD_TCFG
  | AGD_TSTAT
  | AGD_TOFS
  | AGD_TFREQ
  | AGD_TASYM
  | AGD_PPSOFS
  | AGD_OWB
  | AGD_OWC
  | TWN_STAT
  | TWN_CTL
  | TWN_CMD
  | TWN_ROUTE
  | TWN_PEER
  | TWN_SKIM
  | TWN_STN
  | TWN_STN_HEAD
  | TWN_STN_FREE
  | TWN_STN_DUR
  | TWN_STN_MOFS
  | TWN_SNAP_LEAD
  | TWN_RCMD
  | TWN_RPLAN
  | TWN_RSTAT
  | TWN_RROOT
  | HWK_STAT
  | HWK_CTL
  | HWK_WEAR
  | HWK_ID
  | HWK_ROUTE
  | HWK_POLICY
  | RST_CAUSE
  | RST_CTL
  | RST_IDLE_TMO
  | RST_BLK
  | RST_BLKLOG
  | RST_STAT
  | RST_START
  | RST_RUN
  | RND_STATUS
  | RND_SEQ
  | RND_SEQA
  | RND_SEQB
  | RND_UPDADDR
  | RND_UPDLEN
  | RND_UPDCMD
  | RND_UPDSTAT
  | PWR_CEIL
  | PWR_STAT
  | PWR_EST
  | PWR_ENERGY
  | PWR_HCEIL
  | PWR_VIN
  | PWR_WARN_CNT
  | PWR_VMIN
  | PWR_ROUTE
  | PWR_EVT
  | THM_TEMP
  | THM_STAT
  | THM_THRNS
  | THM_SENS
  | THM_ROUTE
  | THM_EVT
  | ERR_STAT
  | ERR_CFG
  | ERR_ROUTE
  | ERR_HEAD
  | ERR_TMO
  | ERR_CNT
  | ERR_HEALTH
  | ERR_LOG
  | SEC_DEVID
  | SEC_SERIAL
  | SEC_STAT
  | SEC_FWSEL
  | SEC_FWSEQ
  | SEC_MCSEQ
  | SEC_ARB
  | SEC_ARB_CMD
  | SEC_MREXT
  | SEC_ATT_IN
  | SEC_ATT_OUT
  | SEC_ATT_CTL
  | SEC_DBG
  | SEC_DBG_CMD
  | SEC_DBG_CHAL
  | SEC_MR
  | SEC_CERT
  | MC_STAT
  | MC_WDCFG
  | MC_WDKICK
  | MC_CMD
  | MC_ARG
  | MC_ADDR
  | MC_CMDSTAT
  | MC_LOGHEAD
  deriving DecidableEq, Repr

/-- What the tables say of a register. -/
structure RegInfo where
  /-- Slot of 64 KiB in the die (R26). -/
  blk : Nat
  /-- Offset in the block. -/
  off : Nat
  /-- Distance of two indices. -/
  stride : Nat
  /-- Number of indices. -/
  count : Nat
  /-- Doublewords of one index. -/
  dw : Nat
  /-- Dies that have it. -/
  dies : DieClass
  /-- Reset value of the table. -/
  reset : Nat
  /-- RW bits. -/
  rw : Nat
  /-- W1C bits. -/
  w1c : Nat
  /-- W1S bits. -/
  w1s : Nat
  deriving DecidableEq, Repr

/-- The tables of the spec, one arm a register. -/
def regInfo : RegName → RegInfo
  | .SCR_ID => ⟨0x7, 0x0, 8, 1, 1, .all, 0x0, 0x0, 0x0, 0x0⟩  -- R28
  | .SCR_PORT_STAT => ⟨0x7, 0x8, 8, 1, 1, .all, 0x0, 0x0, 0x0, 0x0⟩  -- R28
  | .SCR_ROUTE => ⟨0x7, 0x10, 8, 1, 1, .all, 0x0, 0x0, 0x0, 0x0⟩  -- R28
  | .SCR_BYTES_N => ⟨0x7, 0x20, 8, 1, 1, .all, 0x0, 0x0, 0x0, 0x0⟩  -- R28
  | .SCR_BYTES_E => ⟨0x7, 0x28, 8, 1, 1, .all, 0x0, 0x0, 0x0, 0x0⟩  -- R28
  | .SCR_BYTES_S => ⟨0x7, 0x30, 8, 1, 1, .all, 0x0, 0x0, 0x0, 0x0⟩  -- R28
  | .SCR_BYTES_W => ⟨0x7, 0x38, 8, 1, 1, .all, 0x0, 0x0, 0x0, 0x0⟩  -- R28
  | .TRW_EPOCH => ⟨0xC, 0x100, 8, 1, 1, .k, 0x0, 0x0, 0x0, 0x0⟩  -- R135
  | .TRW_EPOCH_BUMP => ⟨0xC, 0x108, 8, 1, 1, .k, 0x0, 0x0, 0x0, 0x0⟩  -- R135
  | .TRW_EPOCH_ROUTE => ⟨0xC, 0x110, 8, 1, 1, .k, 0x0, 0xFFFF, 0x0, 0x0⟩  -- R135
  | .TRW_EPOCH_ECHO => ⟨0xC, 0x118, 8, 1, 1, .k, 0x0, 0xFFFFFFFFFFF9, 0x0, 0x0⟩  -- R135
  | .FQ_CTRL => ⟨0xB, 0x0, 8, 1, 1, .k, 0x0, 0xFFFF0001, 0x0, 0x0⟩  -- R141
  | .FQ_HEAD => ⟨0xB, 0x8, 8, 1, 1, .k, 0x0, 0x0, 0x0, 0x0⟩  -- R141
  | .FQ_CMD => ⟨0xB, 0x10, 8, 1, 1, .k, 0x0, 0x0, 0x0, 0x0⟩  -- R141
  | .FQ_STAT => ⟨0xB, 0x18, 8, 1, 1, .k, 0x0, 0x0, 0x80000, 0x0⟩  -- R141
  | .FQ_REC => ⟨0xB, 0x1000, 64, 256, 8, .k, 0x0, 0x0, 0x0, 0x0⟩  -- R141
  | .MXE_STAT => ⟨0x14, 0x0, 8, 1, 1, .c, 0x0, 0x0, 0x0, 0x0⟩  -- R240
  | .MXE_ROWS => ⟨0x14, 0x20, 8, 4, 1, .c, 0x0, 0x0, 0x0, 0x0⟩  -- R240
  | .MXE_BLOAD => ⟨0x14, 0x40, 8, 1, 1, .c, 0x0, 0x0, 0x0, 0x0⟩  -- R240
  | .MXE_REUSE => ⟨0x14, 0x48, 8, 1, 1, .c, 0x0, 0x0, 0x0, 0x0⟩  -- R240
  | .MXE_FPF => ⟨0x14, 0x60, 8, 4, 1, .c, 0x0, 0x0, 0x17, 0x0⟩  -- R240
  | .MXE_ECC => ⟨0x14, 0x80, 8, 1, 1, .c, 0x0, 0x0, 0x0, 0x0⟩  -- R240
  | .MXE_AG => ⟨0x14, 0x1000, 8, 64, 1, .c, 0x0, 0x8000000FFFFFFFFF, 0x0, 0x0⟩  -- R240
  | .GNG_GLOBAL => ⟨0xD, 0x0, 8, 1, 1, .k, 0x0, 0x0, 0x0, 0x0⟩  -- R267
  | .GNG_LAG_THR => ⟨0xD, 0x8, 8, 1, 1, .k, 0x2710, 0xFFFFFFFF, 0x0, 0x0⟩  -- R267
  | .GNG_ROUTE => ⟨0xD, 0x10, 8, 1, 1, .k, 0x0, 0xFFFF, 0x0, 0x0⟩  -- R267
  | .GNG_CFG => ⟨0xD, 0x40, 64, 4, 1, .k, 0x0, 0x0, 0x0, 0x0⟩  -- R267
  | .GNG_STAT => ⟨0xD, 0x48, 64, 4, 1, .k, 0x0, 0x0, 0x0, 0x0⟩  -- R267
  | .GNG_EVENT => ⟨0xD, 0x50, 64, 4, 1, .k, 0x0, 0x0, 0xF, 0x0⟩  -- R267
  | .GNG_READMIT => ⟨0xD, 0x58, 64, 4, 1, .k, 0x0, 0x0, 0x0, 0x0⟩  -- R267
  | .GNG_OPS => ⟨0xD, 0x60, 64, 4, 1, .k, 0x0, 0x0, 0x0, 0x0⟩  -- R267
  | .GNG_GRP => ⟨0xD, 0x200, 8, 64, 1, .k, 0x0, 0x0, 0x0, 0x0⟩  -- R267
  | .GNG_PROG => ⟨0xD, 0x0, 8, 1, 1, .c, 0x0, 0x0, 0x0, 0x0⟩  -- R268
  | .GNG_LAG => ⟨0xD, 0x8, 8, 1, 1, .c, 0x0, 0x0, 0x0, 0x0⟩  -- R268
  | .GNG_FPF => ⟨0xD, 0x10, 8, 1, 1, .c, 0x0, 0x0, 0x17, 0x0⟩  -- R268
  | .FTQ_STAT => ⟨0x15, 0x0, 8, 1, 1, .c, 0x0, 0x0, 0x0, 0x0⟩  -- R287
  | .FTQ_PEEK => ⟨0x15, 0x8, 8, 1, 1, .c, 0x0, 0x0, 0x0, 0x0⟩  -- R287
  | .FTQ_CMD => ⟨0x15, 0x10, 8, 1, 1, .c, 0x0, 0x0, 0x0, 0x0⟩  -- R287
  | .FTQ_POSTED => ⟨0x15, 0x18, 8, 1, 1, .c, 0x0, 0x0, 0x0, 0x0⟩  -- R287
  | .FTQ_FREED => ⟨0x15, 0x20, 8, 1, 1, .c, 0x0, 0x0, 0x0, 0x0⟩  -- R287
  | .FTQ_DISCARDED => ⟨0x15, 0x28, 8, 1, 1, .c, 0x0, 0x0, 0x0, 0x0⟩  -- R287
  | .FTQ_ENT => ⟨0x15, 0x800, 32, 64, 4, .c, 0x0, 0x0, 0x0, 0x0⟩  -- R287
  | .GLZ_FPF => ⟨0x16, 0x0, 8, 4, 1, .c, 0x0, 0x0, 0x17, 0x0⟩  -- R287
  | .GLZ_BIND => ⟨0x16, 0x1000, 8, 64, 1, .c, 0x0, 0x800FFFFFFFFFFFCF, 0x0, 0x0⟩  -- R287
  | .GLZ_AMR => ⟨0x16, 0x2000, 8, 64, 1, .c, 0x0, 0x0, 0x0, 0x0⟩  -- R287
  | .STM_CFG => ⟨0x8, 0x0, 8, 1, 1, .k, 0x1000000000, 0xFFFF00000000, 0x0, 0x0⟩  -- R336
  | .STM_CMD => ⟨0x8, 0x8, 8, 1, 1, .k, 0x0, 0x0, 0x0, 0x0⟩  -- R336
  | .STM_CMDSTAT => ⟨0x8, 0x10, 8, 1, 1, .k, 0x0, 0x0, 0x0, 0x0⟩  -- R336
  | .STM_ROUTE => ⟨0x8, 0x18, 8, 1, 1, .k, 0x0, 0xFFFF, 0x0, 0x0⟩  -- R336
  | .STM_NEXTF => ⟨0x8, 0x20, 8, 1, 1, .k, 0x0, 0x0, 0x0, 0x0⟩  -- R336
  | .STM_APPENDED => ⟨0x8, 0x28, 8, 1, 1, .k, 0x0, 0x0, 0x0, 0x0⟩  -- R336
  | .SYN_CFG => ⟨0x9, 0x0, 8, 1, 1, .k, 0x0, 0x0, 0x0, 0x0⟩  -- R337
  | .SYN_OP => ⟨0x9, 0x8, 8, 1, 1, .k, 0x0, 0x0, 0x0, 0x0⟩  -- R337
  | .SYN_STAT => ⟨0x9, 0x10, 8, 1, 1, .k, 0x0, 0x0, 0x1, 0x0⟩  -- R337
  | .TT_TIME => ⟨0xA, 0x0, 8, 1, 1, .k, 0x0, 0x0, 0x0, 0x0⟩  -- R337
  | .TT_CMP => ⟨0xA, 0x1000, 32, 256, 1, .k, 0x0, 0xFFFFFFFFFFFFFFFF, 0x0, 0x0⟩  -- R337
  | .TT_PER => ⟨0xA, 0x1008, 32, 256, 1, .k, 0x0, 0xFFFFFFFFFFFFFFFF, 0x0, 0x0⟩  -- R337
  | .TT_CTL => ⟨0xA, 0x1010, 32, 256, 1, .k, 0x0, 0xFFFFFFFF000D, 0x2, 0x0⟩  -- R337
  | .TRW_CTRL => ⟨0xC, 0x0, 8, 1, 1, .k, 0x3, 0x3, 0x0, 0x0⟩  -- R338
  | .TRW_KIT_BASE => ⟨0xC, 0x8, 8, 1, 1, .k, 0x0, 0xFFFFFFFFFF80, 0x0, 0x0⟩  -- R338
  | .TRW_KIT_CNT => ⟨0xC, 0x10, 8, 1, 1, .k, 0x0, 0x1FFFF, 0x0, 0x0⟩  -- R338
  | .TRW_DEFDL => ⟨0xC, 0x18, 8, 1, 1, .k, 0xC350, 0xFFFFFFFF, 0x0, 0x0⟩  -- R338
  | .TRW_FLUSH => ⟨0xC, 0x20, 8, 1, 1, .k, 0x0, 0x0, 0x0, 0x0⟩  -- R338
  | .TRW_STAT => ⟨0xC, 0x28, 8, 1, 1, .k, 0x0, 0x0, 0xC000000, 0x0⟩  -- R338
  | .TRW_MFAULT => ⟨0xC, 0x30, 8, 1, 1, .k, 0x0, 0x0, 0x0, 0x0⟩  -- R338
  | .TRW_WDONE => ⟨0xC, 0x38, 8, 1, 1, .k, 0x0, 0x0, 0x0, 0x0⟩  -- R338
  | .TRW_WQ => ⟨0xC, 0x200, 8, 24, 1, .k, 0x0, 0x0, 0x0, 0x0⟩  -- R338
  | .TRW_WQROUTE => ⟨0xC, 0x300, 8, 24, 1, .k, 0x0, 0xFFFF, 0x0, 0x0⟩  -- R338
  | .TRW_WQN => ⟨0xC, 0x400, 8, 24, 1, .k, 0x0, 0x0, 0x0, 0x0⟩  -- R338
  | .TRW_WIN => ⟨0xC, 0x8000, 32, 1024, 4, .k, 0x0, 0x0, 0x0, 0x0⟩  -- R338
  | .HBM_STAT => ⟨0x17, 0x0, 8, 1, 1, .edge, 0x0, 0x0, 0x0, 0x0⟩  -- R358
  | .HBM_TEMP => ⟨0x17, 0x8, 8, 1, 1, .edge, 0x0, 0x0, 0x0, 0x0⟩  -- R358
  | .HBM_SCRUB => ⟨0x17, 0x10, 8, 1, 1, .edge, 0x100015180, 0x1FFFFFFFF, 0x0, 0x0⟩  -- R358
  | .HBM_THRNS => ⟨0x17, 0x18, 8, 1, 1, .edge, 0x0, 0x0, 0x0, 0x0⟩  -- R358
  | .HBM_DEFER => ⟨0x17, 0x20, 8, 1, 1, .edge, 0x0, 0x0, 0x0, 0x0⟩  -- R358
  | .HBM_CHERR => ⟨0x17, 0x100, 8, 16, 1, .edge, 0x0, 0x0, 0x0, 0x0⟩  -- R358
  | .HBM_MRG => ⟨0x17, 0x200, 8, 1, 1, .edge, 0x0, 0x1FFFF, 0x0, 0x0⟩  -- R358
  | .HBM_MRG_RES => ⟨0x17, 0x208, 8, 1, 1, .edge, 0x0, 0x0, 0x0, 0x0⟩  -- R358
  | .HBM_CAP => ⟨0xE, 0x0, 8, 1, 1, .k, 0x0, 0x0, 0x0, 0x0⟩  -- R359
  | .HBM_MAP => ⟨0xE, 0x8, 8, 1, 1, .k, 0x0, 0x0, 0x0, 0x0⟩  -- R359
  | .PMAP_OUT => ⟨0xE, 0x100, 8, 4, 1, .k, 0x0, 0x0, 0x0, 0x0⟩  -- R359
  | .PMAP_PEND => ⟨0xE, 0x120, 8, 4, 1, .k, 0x0, 0x0, 0x0, 0xFFFFFFFFFFFFFFFF⟩  -- R359
  | .PMAP_TRAIN => ⟨0xE, 0x140, 8, 4, 1, .k, 0x0, 0x0, 0x0, 0x0⟩  -- R359
  | .AGD_LSTAT => ⟨0x10, 0x0, 8, 1, 1, .k, 0x0, 0x0, 0x0, 0x0⟩  -- R392
  | .AGD_LCTL => ⟨0x10, 0x8, 8, 1, 1, .k, 0x0, 0xE, 0x0, 0x1⟩  -- R392
  | .AGD_LANES => ⟨0x10, 0x10, 8, 1, 1, .k, 0x0, 0x0, 0x0, 0x0⟩  -- R392
  | .AGD_CRED => ⟨0x10, 0x18, 8, 1, 1, .k, 0x0, 0x0, 0x0, 0x0⟩  -- R392
  | .AGD_FECC => ⟨0x10, 0x20, 8, 1, 1, .k, 0x0, 0x0, 0x0, 0x0⟩  -- R392
  | .AGD_FECU => ⟨0x10, 0x28, 8, 1, 1, .k, 0x0, 0x0, 0x0, 0x0⟩  -- R392
  | .AGD_REPLAY => ⟨0x10, 0x30, 8, 1, 1, .k, 0x0, 0x0, 0x0, 0x0⟩  -- R392
  | .AGD_RECOV => ⟨0x10, 0x38, 8, 1, 1, .k, 0x0, 0x0, 0x0, 0x0⟩  -- R392
  | .AGD_TCFG => ⟨0x10, 0x40, 8, 1, 1, .k, 0xA07D003E80FA2, 0xFFFFFFFFFFFFFFFF, 0x0, 0x0⟩  -- R392
  | .AGD_TSTAT => ⟨0x10, 0x48, 8, 1, 1, .k, 0x0, 0x0, 0x14, 0x0⟩  -- R392
  | .AGD_TOFS => ⟨0x10, 0x50, 8, 1, 1, .k, 0x0, 0x0, 0x0, 0x0⟩  -- R392
  | .AGD_TFREQ => ⟨0x10, 0x58, 8, 1, 1, .k, 0x0, 0x0, 0x0, 0x0⟩  -- R392
  | .AGD_TASYM => ⟨0x10, 0x60, 8, 1, 1, .k, 0x0, 0xFFFF, 0x0, 0x0⟩  -- R392
  | .AGD_PPSOFS => ⟨0x10, 0x68, 8, 1, 1, .k, 0x0, 0x3FFFFFFF, 0x0, 0x0⟩  -- R392
  | .AGD_OWB => ⟨0x10, 0x1000, 16, 256, 1, .k, 0x0, 0xFFFFFFFFFFFFF000, 0x0, 0x0⟩  -- R392
  | .AGD_OWC => ⟨0x10, 0x1008, 16, 256, 1, .k, 0x0, 0x1FFFFFFF, 0x0, 0x0⟩  -- R392
  | .TWN_STAT => ⟨0x11, 0x0, 8, 1, 1, .k, 0x0, 0x0, 0x1010, 0x0⟩  -- R419
  | .TWN_CTL => ⟨0x11, 0x8, 8, 1, 1, .k, 0x818, 0x83F, 0x0, 0x0⟩  -- R419
  | .TWN_CMD => ⟨0x11, 0x10, 8, 1, 1, .k, 0x0, 0x0, 0x0, 0x0⟩  -- R419
  | .TWN_ROUTE => ⟨0x11, 0x18, 8, 1, 1, .k, 0x0, 0xFFFF, 0x0, 0x0⟩  -- R419
  | .TWN_PEER => ⟨0x11, 0x20, 8, 1, 1, .k, 0x0, 0x0, 0x0, 0x0⟩  -- R419
  | .TWN_SKIM => ⟨0x11, 0x28, 8, 1, 1, .k, 0x0, 0x0, 0x0, 0x0⟩  -- R419
  | .TWN_STN => ⟨0x11, 0x100, 8, 1, 1, .k, 0x0, 0x0, 0x0, 0x0⟩  -- R419
  | .TWN_STN_HEAD => ⟨0x11, 0x108, 8, 1, 1, .k, 0x0, 0x0, 0x0, 0x0⟩  -- R419
  | .TWN_STN_FREE => ⟨0x11, 0x110, 8, 1, 1, .k, 0x0, 0xFFFFFFFFFFFFFFFF, 0x0, 0x0⟩  -- R419
  | .TWN_STN_DUR => ⟨0x11, 0x118, 8, 1, 1, .k, 0x0, 0x0, 0x0, 0x0⟩  -- R419
  | .TWN_STN_MOFS => ⟨0x11, 0x120, 8, 1, 1, .k, 0x0, 0x0, 0x0, 0x0⟩  -- R419
  | .TWN_SNAP_LEAD => ⟨0x11, 0x200, 8, 1, 1, .k, 0x30D40, 0xFFFFFFFF, 0x0, 0x0⟩  -- R419
  | .TWN_RCMD => ⟨0x11, 0x300, 8, 1, 1, .k, 0x0, 0xFFFFFFFFFFFF1E, 0x0, 0x1⟩  -- R419
  | .TWN_RPLAN => ⟨0x11, 0x308, 8, 1, 1, .k, 0x0, 0xFFFFFFFFFFFFF, 0x0, 0x0⟩  -- R419
  | .TWN_RSTAT => ⟨0x11, 0x310, 8, 1, 1, .k, 0x0, 0x0, 0x0, 0x0⟩  -- R419
  | .TWN_RROOT => ⟨0x11, 0x318, 8, 4, 1, .k, 0x0, 0xFFFFFFFFFFFFFFFF, 0x0, 0x0⟩  -- R419
  | .HWK_STAT => ⟨0x12, 0x0, 8, 1, 1, .k, 0x0, 0x0, 0x20, 0x0⟩  -- R419
  | .HWK_CTL => ⟨0x12, 0x8, 8, 1, 1, .k, 0x0, 0x2, 0x0, 0x1⟩  -- R419
  | .HWK_WEAR => ⟨0x12, 0x10, 8, 1, 1, .k, 0x0, 0x0, 0x0, 0x0⟩  -- R419
  | .HWK_ID => ⟨0x12, 0x18, 8, 1, 1, .k, 0x0, 0x0, 0x0, 0x0⟩  -- R419
  | .HWK_ROUTE => ⟨0x12, 0x20, 8, 1, 1, .k, 0x0, 0xFFFF, 0x0, 0x0⟩  -- R419
  | .HWK_POLICY => ⟨0x12, 0x28, 8, 1, 1, .k, 0x0, 0x0, 0x0, 0x0⟩  -- R419
  | .RST_CAUSE => ⟨0x0, 0x0, 8, 1, 1, .all, 0x41, 0x0, 0x0, 0x0⟩  -- R442
  | .RST_CTL => ⟨0x0, 0x8, 8, 1, 1, .k, 0x0, 0x0, 0x0, 0x0⟩  -- R442
  | .RST_IDLE_TMO => ⟨0x0, 0x10, 8, 1, 1, .all, 0x186A0, 0xFFFFFFFF, 0x0, 0x0⟩  -- R442
  | .RST_BLK => ⟨0x0, 0x18, 8, 1, 1, .all, 0x0, 0x0, 0x0, 0x0⟩  -- R442
  | .RST_BLKLOG => ⟨0x0, 0x20, 8, 1, 1, .all, 0x0, 0x0, 0x0, 0x0⟩  -- R442
  | .RST_STAT => ⟨0x0, 0x28, 8, 1, 1, .all, 0x0, 0x0, 0x10, 0x0⟩  -- R442
  | .RST_START => ⟨0x0, 0x40, 8, 4, 1, .all, 0x0, 0xFFFFFFFFFFFFF, 0x0, 0x0⟩  -- R442
  | .RST_RUN => ⟨0x0, 0x60, 8, 1, 1, .all, 0x0, 0x0, 0x0, 0xF⟩  -- R442
  | .RND_STATUS => ⟨0x1, 0x0, 8, 1, 1, .k, 0x0, 0x0, 0x0, 0x0⟩  -- R443
  | .RND_SEQ => ⟨0x1, 0x8, 8, 1, 1, .k, 0x0, 0x0, 0x0, 0x0⟩  -- R443
  | .RND_SEQA => ⟨0x1, 0x10, 8, 1, 1, .k, 0x0, 0x0, 0x0, 0x0⟩  -- R443
  | .RND_SEQB => ⟨0x1, 0x18, 8, 1, 1, .k, 0x0, 0x0, 0x0, 0x0⟩  -- R443
  | .RND_UPDADDR => ⟨0x1, 0x20, 8, 1, 1, .k, 0x0, 0xFFFFFFFFF000, 0x0, 0x0⟩  -- R443
  | .RND_UPDLEN => ⟨0x1, 0x28, 8, 1, 1, .k, 0x0, 0x1FFFFFF, 0x0, 0x0⟩  -- R443
  | .RND_UPDCMD => ⟨0x1, 0x30, 8, 1, 1, .k, 0x0, 0x0, 0x0, 0x0⟩  -- R443
  | .RND_UPDSTAT => ⟨0x1, 0x38, 8, 1, 1, .k, 0x0, 0x0, 0x40, 0x0⟩  -- R443
  | .PWR_CEIL => ⟨0x2, 0x0, 8, 1, 1, .all, 0x12C, 0x0, 0x0, 0x0⟩  -- R458
  | .PWR_STAT => ⟨0x2, 0x8, 8, 1, 1, .all, 0x0, 0x0, 0x0, 0x0⟩  -- R458
  | .PWR_EST => ⟨0x2, 0x10, 8, 1, 1, .all, 0x0, 0x0, 0x0, 0x0⟩  -- R458
  | .PWR_ENERGY => ⟨0x2, 0x18, 8, 1, 1, .all, 0x0, 0x0, 0x0, 0x0⟩  -- R458
  | .PWR_HCEIL => ⟨0x2, 0x20, 8, 1, 1, .edge, 0x3C, 0x0, 0x0, 0x0⟩  -- R458
  | .PWR_VIN => ⟨0x2, 0x100, 8, 1, 1, .k, 0x0, 0x0, 0x0, 0x0⟩  -- R458
  | .PWR_WARN_CNT => ⟨0x2, 0x108, 8, 1, 1, .k, 0x0, 0x0, 0x0, 0x0⟩  -- R458
  | .PWR_VMIN => ⟨0x2, 0x110, 8, 1, 1, .k, 0x0, 0x0, 0x0, 0x0⟩  -- R458
  | .PWR_ROUTE => ⟨0x2, 0x118, 8, 1, 1, .k, 0x0, 0xFFFF, 0x0, 0x0⟩  -- R458
  | .PWR_EVT => ⟨0x2, 0x120, 8, 1, 1, .k, 0x0, 0x0, 0x3, 0x0⟩  -- R458
  | .THM_TEMP => ⟨0x3, 0x0, 8, 1, 1, .all, 0x0, 0x0, 0x0, 0x0⟩  -- R458
  | .THM_STAT => ⟨0x3, 0x8, 8, 1, 1, .all, 0x0, 0x0, 0x0, 0x0⟩  -- R458
  | .THM_THRNS => ⟨0x3, 0x10, 8, 1, 1, .all, 0x0, 0x0, 0x0, 0x0⟩  -- R458
  | .THM_SENS => ⟨0x3, 0x100, 8, 8, 1, .all, 0x0, 0x0, 0x0, 0x0⟩  -- R458
  | .THM_ROUTE => ⟨0x3, 0x200, 8, 1, 1, .k, 0x0, 0xFFFF, 0x0, 0x0⟩  -- R458
  | .THM_EVT => ⟨0x3, 0x208, 8, 1, 1, .k, 0x0, 0x0, 0x7, 0x0⟩  -- R458
  | .ERR_STAT => ⟨0x4, 0x0, 8, 1, 1, .all, 0x0, 0x0, 0x0, 0x0⟩  -- R472
  | .ERR_CFG => ⟨0x4, 0x8, 8, 1, 1, .all, 0x18, 0x3F, 0x0, 0x0⟩  -- R472
  | .ERR_ROUTE => ⟨0x4, 0x10, 8, 1, 1, .all, 0x0, 0xFFFF, 0x0, 0x0⟩  -- R472
  | .ERR_HEAD => ⟨0x4, 0x18, 8, 1, 1, .all, 0x0, 0x0, 0x0, 0x0⟩  -- R472
  | .ERR_TMO => ⟨0x4, 0x20, 8, 1, 1, .all, 0x2710, 0xFFFFFFFF, 0x0, 0x0⟩  -- R472
  | .ERR_CNT => ⟨0x4, 0x100, 8, 16, 1, .all, 0x0, 0x0, 0x0, 0x0⟩  -- R472
  | .ERR_HEALTH => ⟨0x4, 0x200, 8, 1, 1, .k, 0x0, 0x0, 0x0, 0x0⟩  -- R472
  | .ERR_LOG => ⟨0x4, 0x1000, 32, 64, 4, .all, 0x0, 0x0, 0x0, 0x0⟩  -- R472
  | .SEC_DEVID => ⟨0x5, 0x0, 8, 1, 1, .k, 0x0, 0x0, 0x0, 0x0⟩  -- R490
  | .SEC_SERIAL => ⟨0x5, 0x8, 8, 1, 1, .k, 0x0, 0x0, 0x0, 0x0⟩  -- R490
  | .SEC_STAT => ⟨0x5, 0x10, 8, 1, 1, .k, 0x0, 0x0, 0x40, 0x0⟩  -- R490
  | .SEC_FWSEL => ⟨0x5, 0x18, 8, 1, 1, .k, 0x0, 0x0, 0x0, 0x0⟩  -- R490
  | .SEC_FWSEQ => ⟨0x5, 0x20, 8, 1, 1, .k, 0x0, 0x0, 0x0, 0x0⟩  -- R490
  | .SEC_MCSEQ => ⟨0x5, 0x28, 8, 1, 1, .k, 0x0, 0x0, 0x0, 0x0⟩  -- R490
  | .SEC_ARB => ⟨0x5, 0x30, 8, 1, 1, .k, 0x0, 0x0, 0x0, 0x0⟩  -- R490
  | .SEC_ARB_CMD => ⟨0x5, 0x38, 8, 1, 1, .k, 0x0, 0x0, 0x0, 0x0⟩  -- R490
  | .SEC_MREXT => ⟨0x5, 0x40, 8, 1, 1, .k, 0x0, 0xFFFFFFFFFF07, 0x0, 0x0⟩  -- R490
  | .SEC_ATT_IN => ⟨0x5, 0x48, 8, 1, 1, .k, 0x0, 0xFFFFFFFFFF80, 0x0, 0x0⟩  -- R490
  | .SEC_ATT_OUT => ⟨0x5, 0x50, 8, 1, 1, .k, 0x0, 0xFFFFFFFFF000, 0x0, 0x0⟩  -- R490
  | .SEC_ATT_CTL => ⟨0x5, 0x58, 8, 1, 1, .k, 0x0, 0x0, 0x0, 0x1⟩  -- R490
  | .SEC_DBG => ⟨0x5, 0x60, 8, 1, 1, .k, 0x0, 0x0, 0x0, 0x0⟩  -- R490
  | .SEC_DBG_CMD => ⟨0x5, 0x68, 8, 1, 1, .k, 0x0, 0xFFFFFFFFF000, 0x0, 0x1⟩  -- R490
  | .SEC_DBG_CHAL => ⟨0x5, 0x80, 8, 4, 1, .k, 0x0, 0x0, 0x0, 0x0⟩  -- R490
  | .SEC_MR => ⟨0x5, 0x100, 64, 8, 6, .k, 0x0, 0x0, 0x0, 0x0⟩  -- R490
  | .SEC_CERT => ⟨0x5, 0x1000, 8, 678, 1, .k, 0x0, 0x0, 0x0, 0x0⟩  -- R490
  | .MC_STAT => ⟨0x6, 0x0, 8, 1, 1, .k, 0x0, 0x0, 0x0, 0x0⟩  -- R507
  | .MC_WDCFG => ⟨0x6, 0x8, 8, 1, 1, .k, 0x3E80000, 0xFFFFFFFF0001, 0x0, 0x0⟩  -- R507
  | .MC_WDKICK => ⟨0x6, 0x10, 8, 1, 1, .k, 0x0, 0x0, 0x0, 0x0⟩  -- R507
  | .MC_CMD => ⟨0x6, 0x18, 8, 1, 1, .k, 0x0, 0x0, 0x0, 0x0⟩  -- R507
  | .MC_ARG => ⟨0x6, 0x20, 8, 1, 1, .k, 0x0, 0xFFFFFFFFFFFFFFFF, 0x0, 0x0⟩  -- R507
  | .MC_ADDR => ⟨0x6, 0x28, 8, 1, 1, .k, 0x0, 0xFFFFFFFFFFC0, 0x0, 0x0⟩  -- R507
  | .MC_CMDSTAT => ⟨0x6, 0x30, 8, 1, 1, .k, 0x0, 0x0, 0x0, 0x0⟩  -- R507
  | .MC_LOGHEAD => ⟨0x6, 0x38, 8, 1, 1, .k, 0x0, 0x0, 0x0, 0x0⟩  -- R507

/-- Registers, part 0. -/
def regsPart0 : List RegName :=
  [.SCR_ID, .SCR_PORT_STAT, .SCR_ROUTE, .SCR_BYTES_N, .SCR_BYTES_E, .SCR_BYTES_S, .SCR_BYTES_W, .TRW_EPOCH, .TRW_EPOCH_BUMP, .TRW_EPOCH_ROUTE, .TRW_EPOCH_ECHO, .FQ_CTRL, .FQ_HEAD, .FQ_CMD, .FQ_STAT, .FQ_REC, .MXE_STAT, .MXE_ROWS, .MXE_BLOAD, .MXE_REUSE, .MXE_FPF, .MXE_ECC, .MXE_AG, .GNG_GLOBAL, .GNG_LAG_THR, .GNG_ROUTE, .GNG_CFG, .GNG_STAT, .GNG_EVENT, .GNG_READMIT, .GNG_OPS]

/-- Registers, part 1. -/
def regsPart1 : List RegName :=
  [.GNG_GRP, .GNG_PROG, .GNG_LAG, .GNG_FPF, .FTQ_STAT, .FTQ_PEEK, .FTQ_CMD, .FTQ_POSTED, .FTQ_FREED, .FTQ_DISCARDED, .FTQ_ENT, .GLZ_FPF, .GLZ_BIND, .GLZ_AMR, .STM_CFG, .STM_CMD, .STM_CMDSTAT, .STM_ROUTE, .STM_NEXTF, .STM_APPENDED, .SYN_CFG, .SYN_OP, .SYN_STAT, .TT_TIME, .TT_CMP, .TT_PER, .TT_CTL, .TRW_CTRL, .TRW_KIT_BASE, .TRW_KIT_CNT, .TRW_DEFDL]

/-- Registers, part 2. -/
def regsPart2 : List RegName :=
  [.TRW_FLUSH, .TRW_STAT, .TRW_MFAULT, .TRW_WDONE, .TRW_WQ, .TRW_WQROUTE, .TRW_WQN, .TRW_WIN, .HBM_STAT, .HBM_TEMP, .HBM_SCRUB, .HBM_THRNS, .HBM_DEFER, .HBM_CHERR, .HBM_MRG, .HBM_MRG_RES, .HBM_CAP, .HBM_MAP, .PMAP_OUT, .PMAP_PEND, .PMAP_TRAIN, .AGD_LSTAT, .AGD_LCTL, .AGD_LANES, .AGD_CRED, .AGD_FECC, .AGD_FECU, .AGD_REPLAY, .AGD_RECOV, .AGD_TCFG, .AGD_TSTAT]

/-- Registers, part 3. -/
def regsPart3 : List RegName :=
  [.AGD_TOFS, .AGD_TFREQ, .AGD_TASYM, .AGD_PPSOFS, .AGD_OWB, .AGD_OWC, .TWN_STAT, .TWN_CTL, .TWN_CMD, .TWN_ROUTE, .TWN_PEER, .TWN_SKIM, .TWN_STN, .TWN_STN_HEAD, .TWN_STN_FREE, .TWN_STN_DUR, .TWN_STN_MOFS, .TWN_SNAP_LEAD, .TWN_RCMD, .TWN_RPLAN, .TWN_RSTAT, .TWN_RROOT, .HWK_STAT, .HWK_CTL, .HWK_WEAR, .HWK_ID, .HWK_ROUTE, .HWK_POLICY, .RST_CAUSE, .RST_CTL, .RST_IDLE_TMO]

/-- Registers, part 4. -/
def regsPart4 : List RegName :=
  [.RST_BLK, .RST_BLKLOG, .RST_STAT, .RST_START, .RST_RUN, .RND_STATUS, .RND_SEQ, .RND_SEQA, .RND_SEQB, .RND_UPDADDR, .RND_UPDLEN, .RND_UPDCMD, .RND_UPDSTAT, .PWR_CEIL, .PWR_STAT, .PWR_EST, .PWR_ENERGY, .PWR_HCEIL, .PWR_VIN, .PWR_WARN_CNT, .PWR_VMIN, .PWR_ROUTE, .PWR_EVT, .THM_TEMP, .THM_STAT, .THM_THRNS, .THM_SENS, .THM_ROUTE, .THM_EVT, .ERR_STAT, .ERR_CFG]

/-- Registers, part 5. -/
def regsPart5 : List RegName :=
  [.ERR_ROUTE, .ERR_HEAD, .ERR_TMO, .ERR_CNT, .ERR_HEALTH, .ERR_LOG, .SEC_DEVID, .SEC_SERIAL, .SEC_STAT, .SEC_FWSEL, .SEC_FWSEQ, .SEC_MCSEQ, .SEC_ARB, .SEC_ARB_CMD, .SEC_MREXT, .SEC_ATT_IN, .SEC_ATT_OUT, .SEC_ATT_CTL, .SEC_DBG, .SEC_DBG_CMD, .SEC_DBG_CHAL, .SEC_MR, .SEC_CERT, .MC_STAT, .MC_WDCFG, .MC_WDKICK, .MC_CMD, .MC_ARG, .MC_ADDR, .MC_CMDSTAT, .MC_LOGHEAD]

/-- Every register. -/
def allRegs : List RegName :=
  regsPart0 ++ regsPart1 ++ regsPart2 ++ regsPart3 ++ regsPart4 ++ regsPart5

end Sys2Proof.Machine
end

