-- ==== Sys2Proof/Machine/Sparse.lean ====
section
/-! DEFINITION. Sparse stores: a list of (key, value) pairs in one canonical form (keys strictly rising, no entry
equal to what an unlisted key reads as). Memory, register files and buffers are such stores, so that equal contents
are equal data. -/

namespace Sys2Proof.Machine

/-- A store of values by key. -/
abbrev Sparse (α : Type) := List (Nat × α)

/-- What a key reads as: its listed value, or the default of the key. -/
def look {α : Type} (d : Nat → α) : Sparse α → Nat → α
  | [], k => d k
  | (j, v) :: m, k => if j = k then v else look d m k

/-- A store without any entry of a key. -/
def eraseKey {α : Type} (m : Sparse α) (k : Nat) : Sparse α := m.filter fun e => e.1 != k

/-- An entry put before the first greater key. -/
def insertKey {α : Type} (k : Nat) (v : α) : Sparse α → Sparse α
  | [] => [(k, v)]
  | (j, w) :: m => if k < j then (k, v) :: (j, w) :: m else (j, w) :: insertKey k v m

/-- A store with the value of one key replaced, in canonical form when the store is. -/
def put {α : Type} [DecidableEq α] (d : Nat → α) (m : Sparse α) (k : Nat) (v : α) : Sparse α :=
  if v = d k then eraseKey m k else insertKey k v (eraseKey m k)

/-- Every key is at least lo, keys rise strictly, and no entry is the default of its key. -/
def wfFrom {α : Type} [DecidableEq α] (d : Nat → α) : Nat → Sparse α → Bool
  | _, [] => true
  | lo, (k, v) :: m => decide (lo ≤ k) && decide (v ≠ d k) && wfFrom d (k + 1) m

/-- The canonical form of a store. -/
def wf {α : Type} [DecidableEq α] (d : Nat → α) (m : Sparse α) : Bool := wfFrom d 0 m

/-- A run of consecutive keys read, ascending. -/
def lookRun {α : Type} (d : Nat → α) (m : Sparse α) (k : Nat) : Nat → List α
  | 0 => []
  | n + 1 => look d m k :: lookRun d m (k + 1) n

/-- A run of consecutive keys written, ascending. -/
def putRun {α : Type} [DecidableEq α] (d : Nat → α) (m : Sparse α) (k : Nat) : List α → Sparse α
  | [] => m
  | v :: vs => putRun d (put d m k v) (k + 1) vs

/-- A store without the entries whose key satisfies p: those keys read as their default again. -/
def dropKeys {α : Type} (p : Nat → Bool) (m : Sparse α) : Sparse α := m.filter fun e => !p e.1

end Sys2Proof.Machine
end

