-- ==== Sys2Proof/Machine/State.lean ====
section
/-! DEFINITION. The state of the module as plain data: every register, buffer, queue and mode the spec names
(INVENTORY.md '## State'), the model's own queue of waiting commands, and the state after reset. -/

namespace Sys2Proof.Machine

open Sys2Proof

/-- For whom a packet, a device read or a waiting access is (R374, R398, R461). -/
inductive Own where
  | none
  | core (c : Nat)
  /-- A retired vector instruction or a queued tile instruction of a core (R170, R220). -/
  | vec (c : Nat)
  | tile (c : Nat)
  | stream (s : Nat)
  | tier (t : Nat)
  | log
  | restore
  | gang (g : Nat)
  /-- A window's own accesses at dispatch (R322). -/
  | window (w : Nat)
  /-- The prefetch of a window's data: of the member of a stream, or of the image's B (R334). -/
  | pref (w : Nat) (st : Option Nat)
  /-- The outputs of quarter q of FTQ entry e, drained by core c (R279, R280), or by a core of the die that has been reset since. -/
  | quarter (c e q : Nat)
  | output (die e q : Nat)
  /-- A pre-translation of a stream's commands (R333). -/
  | pre (s : Nat)
  /-- What a stream's command that has ended left posted: its FENCE waits for it (R297). -/
  | past (s : Nat)
  /-- The echo of CUR at the end of a round (R135). -/
  | echo
  | unit (die u : Nat)
  deriving DecidableEq, Repr

/-- A segment register: selector and private descriptor copy (R95, R96), or null (R97). -/
structure SegReg where
  sel : BitVec 16 := 0
  null : Bool := false
  base : Nat := 0
  limit : Nat := 0
  ring : Nat := 0
  /-- 0 invalid, 1 code, 2 data, 3 stack. -/
  type : Nat := 0
  r : Bool := false
  w : Bool := false
  deriving DecidableEq, Repr

/-- The flat descriptors every segment register holds after the core's reset (R98). -/
def SegReg.flat (s : Nat) : SegReg :=
  { limit := 2 ^ 52 - 1, type := if s = 0 then 1 else if s = 7 then 3 else 2, r := s != 7, w := s != 0 && s != 7 }

/-- A load shadow in progress (R41–R45): the register, its value before the load, the shadow instructions left, and
what R45 needs to perform the load again: its address and the loop counts before it. -/
structure Shadow where
  reg : Greg := 0
  /-- What a read in the shadow sees: the value from before the first load of an open shadow (R73). -/
  old : Word := 0
  /-- What the register itself held before this load. -/
  was : Word := 0
  left : Nat := 0
  ip : Word := 0
  lc : Sparse Word := []
  deriving DecidableEq, Repr

/-- The old mode under which a mode-shadow instruction runs (R63, R76). -/
structure ModeShadow where
  sg0 : SegReg := {}
  im : Bool := false
  deriving DecidableEq, Repr

/-- A part of a translated access: physical address and length, within one 64-byte line or one page. -/
structure Piece where
  pa : Nat := 0
  n : Nat := 0
  deriving DecidableEq, Repr

/-- What a control transfer does when its delay slot completes (R38, R104, R105). -/
inductive XferAct where
  /-- Continue at an offset; write the link when one is given. -/
  | go (next : Word) (link : Option Word)
  /-- A CALLG that passed R103: where the record lies and its content, the target and the new mode. -/
  | callg (parts : List Piece) (record : List Word) (rec : Word) (next : Word) (sg0 sg7 : SegReg) (ring : Nat)
  /-- A RETG that passed R105: the caller's context. -/
  | retg (next : Word) (g62 : Word) (sg0 sg7 : SegReg) (ring : Nat) (im : Bool)
  deriving DecidableEq, Repr

/-- A delay slot in progress: the transfer at `addr` has executed and its slot is next (R38–R40). The shadows, mode
shadow and registers read are those of the transfer, for an exception in the slot (R40, R45). -/
structure Slot where
  addr : Word := 0
  act : XferAct := .go 0 none
  shadows : List Shadow := []
  msh : Option ModeShadow := none
  reads : List Greg := []
  /-- Its instruction has retired, and the record of a CALLG waits for queued vector or tile accesses to the same bytes (R104, R169). -/
  done : Bool := false
  deriving DecidableEq, Repr

/-- A translation-cache entry: a leaf or pointer entry with the level-1 table it was reached from (R129, R130). -/
structure TlbEntry where
  tbase : Nat := 0
  /-- The first linear address the leaf maps. -/
  la : Nat := 0
  level : Nat := 0
  entry : Word := 0
  /-- In the Trowel TLB: TRW_EPOCH.CUR when the tables were read (R134), and the stream whose pre-translation it is (R333, R335). -/
  tag : Nat := 0
  pre : Option Nat := none
  deriving DecidableEq, Repr

/-- A pending interrupt: its vector and the sender's die (R111). -/
structure IrqPend where
  vec : Nat := 0
  die : Nat := 0
  deriving DecidableEq, Repr

/-- The vector operations that enter the vector unit (R151): one name per row of the vector groups. -/
inductive VOp where
  | add | sub | rsub | and | or | xor | sll | srl | sra | min | max | minu | maxu | mul | mulh | mulhu | macc
  | sadd | saddu | ssub | ssubu | merge | mv
  | fadd | fsub | fmul | fdiv | fsqrt | fma | fnma | fmin | fmax | fabs | fneg | fcvtI | fcvtF | fcvtW | fcvtN
  | wmul | wmulu | wmulsu | wmacc | wmaccu | wmaccsu | fwmul | fwma
  | dot4 | dot4u | dot4su | fdot4 | dot2 | dot2u | fdot2
  | cmpeq | cmpne | cmplt | cmpltu | cmple | cmpleu | cmpgt | cmpgtu | fcmpeq | fcmplt | fcmple | fcmpun
  | mand | mor | mxor | mandn | mnot | mset | mpopc | mfirst
  | get | getu | put | slideup | slidedn | perm
  | redsum | redmax | redmin | redmaxu | redminu | fredsum | fredmax | fredmin | tvmov | vtmov
  | glzDrain | glzLd | glzHst | glzHld
  | ld | lds | ldx | ldff | ldm | ldr | ldmr | st | sts | stx | stm | str | stmr
  deriving DecidableEq, Repr

/-- One checked element, row or byte run of a vector or tile memory instruction (R165, R220): its index, its segment
offset and the translated parts of it. -/
structure ElemAcc where
  idx : Nat := 0
  off : Word := 0
  parts : List Piece := []
  /-- MC time when a store was issued (R461). -/
  since : Nat := 0
  /-- Of parts in host windows: the device address and the host address its window gave it at retirement (R381). -/
  hosts : List (Nat × Nat) := []
  /-- Of a store: the bytes it found at its homes, those it wrote, and the poison units it found marked; what is undone of it if it is lost on
  its way (R80, R462). -/
  was : List Byte := []
  wrote : List Byte := []
  marks : List Nat := []
  deriving DecidableEq, Repr

/-- A claimed quarter of an FTQ entry that passed its checks (R279): entry, quarter, program words, the 24 doublewords
of the destination descriptor, and where every linear range it uses lies. -/
structure Quarter where
  entry : Nat := 0
  q : Nat := 0
  prog : List Word := []
  desc : List Word := []
  tr : List (Nat × Piece) := []
  /-- The page table, the ring and the epoch they were translated with. -/
  ptb : Word := 0
  ring : Nat := 0
  ep : Nat := 0
  deriving DecidableEq, Repr

/-- A retired vector instruction that has not completed (R151), with the values it took at its checks. -/
structure VTask where
  op : VOp := .add
  f : VFields := {}
  /-- VTYPE, VL, FPFLAGS and the general registers GA and GB as they stood before it (R148, R152). -/
  vtype : Word := 0
  vl : Nat := 0
  fpflags : Word := 0
  xa : Word := 0
  xb : Word := 0
  acc : List ElemAcc := []
  /-- The lowest-numbered element met with poison or an error response: its offset, and whether poison (R167). -/
  late : Option (Word × Bool) := none
  /-- The claimed quarter of a GLZ.DRAIN (R279). -/
  q : Option Quarter := none
  /-- TRW_EPOCH.CUR when its accesses were translated (R132). -/
  ep : Nat := 0
  deriving DecidableEq, Repr

/-- The tile instructions of a core's tile queue (R226). -/
inductive TOp where
  | tpull | tpush | twipe | accSt | accLd | tvmov | vtmov
  deriving DecidableEq, Repr

/-- A retired tile instruction waiting in its core's tile queue (R226), with the values it took at its checks. -/
structure TTask where
  op : TOp := .twipe
  tile : Nat := 0
  rows : Nat := 0
  rb : Nat := 0
  /-- First AM row of ACC.ST and ACC.LD (R222); first tile row of TVMOV and VTMOV (R171). -/
  row0 : Nat := 0
  fin : Bool := false
  base : Nat := 0
  group : Nat := 0
  acc : List ElemAcc := []
  /-- The lowest row met with poison or an error: its offset, and whether poison (R220). -/
  late : Option (Word × Bool) := none
  /-- TRW_EPOCH.CUR when its accesses were translated (R132). -/
  ep : Nat := 0
  deriving DecidableEq, Repr

/-- The tag of a latch bank (R228): core, tile, the tile's and its scale tile's write-generation counts, pass depth. -/
structure Bank where
  core : Nat := 0
  tile : Nat := 0
  gen : Nat := 0
  sgen : Nat := 0
  kp : Nat := 0
  deriving DecidableEq, Repr

/-- A TMMA or TMMP of a core that has passed its checks and not retired (R218, R219, R227). -/
structure Pass where
  pair : Bool := false
  ta : Nat := 0
  tb : Nat := 0
  add : Bool := false
  fin : Bool := false
  /-- First AM row, BASE + OFF (R214), the BASE read at the checks, and the group. -/
  am : Nat := 0
  base : Nat := 0
  group : Nat := 0
  m : Nat := 0
  kb : Nat := 0
  kp : Nat := 0
  /-- AM rows per output row (R214). -/
  w : Nat := 1
  /-- The next A row to enter, and where the pass started. -/
  next : Nat := 0
  /-- The pass resumed at TSTART.ROW and clears TSTART.V at retirement (R218). -/
  used : Bool := false
  streaming : Bool := false
  /-- The banks latched for it, by the tags they had (R228), and its place in the order of checks. -/
  latched : List Bank := []
  seq : Nat := 0
  /-- STATUS.SS as the pass began (R110). -/
  stepped : Bool := false
  /-- The engine was reset while it waited (R234). -/
  reset : Bool := false
  /-- The general registers its instruction reads (R45). -/
  reads : List Greg := []
  deriving DecidableEq, Repr

/-- A pass behind a core's oldest instruction that has been checked, with what its check read: tiles, ACCG, TSTART, the group's descriptor
(R227), and the banks its B block is latched in (R228). -/
structure Ahead where
  pair : Bool := false
  ta : Nat := 0
  tb : Nat := 0
  accg : Word := 0
  tstart : Word := 0
  ag : Word := 0
  tags : List Bank := []
  deriving DecidableEq, Repr

/-- One Dolinael core (R29, R63, R96, R109, R130, R144, R151, R226, R273). A running or stopped core is known by
RST_RUN and ERR_STAT.CSTOP of its die. -/
structure Core where
  ip : Word := 0
  gpr : Sparse Word := []
  status : Word := 0
  epc : Word := 0
  estatus : Word := 0
  exinfo : Word := 0
  eaddr : Word := 0
  hdtb : Word := 0
  gtb : Word := 0
  sgtb : Word := 0
  ptb : Word := 0
  tcfg : Sparse Word := []
  tstart : Word := 0
  accg : Word := 0
  vl : Word := 0
  vtype : Word := 0
  fpflags : Word := 0
  ls : Sparse Word := []
  le : Sparse Word := []
  lc : Sparse Word := []
  sg : Sparse SegReg := []
  vreg : Sparse Byte := []
  mreg : Sparse Bool := []
  /-- Load shadows, newest first. -/
  lsh : List Shadow := []
  slot : Option Slot := none
  msh : Option ModeShadow := none
  /-- The mode under which the instruction in progress runs, when it is a mode-shadow instruction (R63, R76, R97). -/
  oldMode : Option ModeShadow := none
  /-- The oldest instruction has been issued to its home and completes before an event is taken (R79, R81). -/
  issued : Bool := false
  /-- How many of the oldest unacknowledged stores precede the last FENCE.SS: later ones stay in the buffer until these are acknowledged (R57,
  R82, R92). -/
  fenced : Nat := 0
  /-- A stepped instruction retired at a boundary that held 0x11 back (R110). -/
  stepDue : Bool := false
  /-- The handler's first instruction has not retired (R112). -/
  entered : Bool := false
  irq : List IrqPend := []
  /-- Machine-check notifications pending: EXINFO.INFO and EADDR, oldest first (R80, R167, R220, R234). -/
  mchk : List (Nat × Word) := []
  prewarn : Bool := false
  /-- HDTB has been written since the core's reset: asynchronous events are no longer held (R109). -/
  hdtbSet : Bool := false
  wfi : Bool := false
  /-- Data-cache lines held: 64-byte line number and its bytes (R55). -/
  dcache : Sparse (List Byte) := []
  /-- Instruction-cache and line-buffer lines held (R57, R67, R69). -/
  icache : Sparse (List Byte) := []
  tlb : List TlbEntry := []
  /-- Walk cache: level, first linear address, pointer entry (R130). -/
  wcache : List TlbEntry := []
  /-- Descriptor cache: table (0 handlers, 1 gates, 2 segments), index, the words read (R102). -/
  descs : List (Nat × Nat × List Word) := []
  /-- Stores retired whose homes have not acknowledged (R82): the parts stored to, their offset, and in `idx` the code a
  loss is reported with (2 scalar and vector; 4 + 8n for a TPUSH of tile n; R80, R167, R220). -/
  unacked : List ElemAcc := []
  vq : List VTask := []
  tq : List TTask := []
  pass : Option Pass := none
  /-- A pass behind the oldest instruction, already checked, with its banks (R227, R228). -/
  ahead : Option Ahead := none
  /-- Program slots GP0–GP15: header and operations; empty when none is loaded (R273). -/
  glz : Sparse (List Word) := []
  deriving DecidableEq, Repr

/-- Where a gang operation comes from (R243, R246): a leader core, a stream's GLAUNCH, a Trowel window. -/
inductive GangSrc where
  | core (c : CoreId)
  | stream (s : Nat)
  | window (w : Nat)
  deriving DecidableEq, Repr

/-- A GMM descriptor as read (R246), with the table base and ring that translate its addresses. -/
structure Gmm where
  abase : Nat := 0
  astride : Word := 0
  ascale : Nat := 0
  asstride : Word := 0
  bbase : Nat := 0
  bstride : Word := 0
  bscale : Nat := 0
  bsstride : Word := 0
  m : Nat := 0
  n : Nat := 0
  k : Nat := 0
  afmt : Nat := 0
  bfmt : Nat := 0
  asc : Bool := false
  bsc : Bool := false
  pair : Bool := false
  add : Bool := false
  fin : Bool := false
  l : Nat := 1
  grp : Nat := 0
  off : Nat := 0
  crec : Nat := 0
  sync : Nat := 0
  sig : Bool := false
  value : Nat := 0
  ptb : Word := 0
  ring : Nat := 0
  src : GangSrc := .core 0
  deriving DecidableEq, Repr

/-- An entry of a gang queue (R243). -/
inductive GangEntry where
  | gmm (d : Gmm)
  | openG (i rows : Nat)
  | closeG (i : Nat)
  deriving DecidableEq, Repr

/-- A task (b, p) of a running gang operation (R251, R253, R254): its member, the passes done, the running sum added,
its FTQ entry posted. -/
structure GangTask where
  b : Nat := 0
  p : Nat := 0
  die : Nat := 0
  done : Nat := 0
  summed : Bool := false
  posted : Bool := false
  deriving DecidableEq, Repr

/-- A running gang operation (R258). -/
structure GangRun where
  d : Gmm := {}
  form : Nat := 0
  active : Nat := 0
  tstart : Word := 0
  tasks : List GangTask := []
  flags : FFlags := 0
  poison : Bool := false
  /-- Operand blocks fetched and multicast (R258): for pass j, row block b of A at 2 (2²⁴ j + b), column block b of B at one more; the ranges
  of each, with whether poison. -/
  got : Sparse (List (List Byte × Bool)) := []
  /-- Which member fetches what is the gang control's choice (R258): this number keys the free choices. -/
  pick : Nat := 0
  /-- The operation has ended otherwise than well (R258, R260), and its record's STATUS. -/
  failed : Bool := false
  status : Nat := 2
  /-- Its completion record has been written; what is posted of it may still wait for its acknowledgement (R258, R382). -/
  recorded : Bool := false
  deriving DecidableEq, Repr

/-- One gang of the gang control (R243): the queue, the running operation, the groups open in the accepted state (R248)
with their rows, and the re-forming waiting for the next boundary (R264, R265). -/
structure GangSt where
  queue : List GangEntry := []
  run : Option GangRun := none
  accepted : List (Nat × Nat) := []
  /-- Operations that a gang reset has ended, whose completion record or SIGNAL is still to come, oldest first (R428). -/
  ended : List GangRun := []
  narrow : List Nat := []
  readmit : List Nat := []
  deriving DecidableEq, Repr

/-- An amax history (R198): 16 FP32 entries, HEAD and COUNT. -/
structure Hist where
  vals : List Nat := List.replicate 16 0
  head : Nat := 0
  count : Nat := 0
  deriving DecidableEq, Repr

/-- The DONE counter of an FTQ entry (R280): its linear address with the table, ring and core of the drain that named it, and its physical parts
under the epoch they were translated in (R132). -/
structure DoneAt where
  core : Nat := 0
  la : Nat := 0
  ptb : Word := 0
  ring : Nat := 0
  ep : Nat := 0
  parts : List Piece := []
  deriving DecidableEq, Repr

/-- One C-die's matrix engine (R201, R207, R210, R211, R228, R229, R270, R271, R198). -/
structure Engine where
  /-- Tile file bytes: slot 8k + n at 131,072 · slot. -/
  tile : Sparse Byte := []
  /-- Poisoned 64-bit words of the tile file. -/
  tpoison : Sparse Bool := []
  /-- Write-generation count of each slot. -/
  gen : Sparse Nat := []
  /-- Accumulator memory bytes: row r at 1,024 · r. -/
  am : Sparse Byte := []
  /-- Poisoned rows. -/
  ampoison : Sparse Bool := []
  bank0 : Option Bank := none
  bank1 : Option Bank := none
  /-- Does a bank's copy of B carry poison (R233)? -/
  bpois0 : Bool := false
  bpois1 : Bool := false
  /-- ECC errors that nothing has read yet, by 64-bit word of the tile file and of accumulator memory and by bank: 1 a single bit, 2
  uncorrectable (R211, R233). -/
  tdmg : Sparse Nat := []
  admg : Sparse Nat := []
  bdmg0 : Nat := 0
  bdmg1 : Nat := 0
  /-- Passes checked so far: the order of B loads (R228). -/
  checks : Nat := 0
  /-- The array serves gang work (R240). -/
  gangOn : Bool := false
  /-- The bank used last. -/
  lastBank : Bool := false
  /-- The core last served by the array, and by the memory path. -/
  lastPass : Nat := 3
  lastTile : Nat := 3
  /-- The core whose queued instruction the memory path has begun and not ended (R229). -/
  tileRun : Option Nat := none
  hist : Sparse Hist := []
  /-- FTQ entries in use, oldest first; entries that wait to be posted, oldest first. -/
  ftq : List Nat := []
  held : List (List Word) := []
  /-- Entries discarded and not yet freed (R281). -/
  disc : List Nat := []
  /-- The window whose operation posted an entry (`Window.key`), 0 for none (R326). -/
  wkey : Sparse Nat := []
  /-- Where the DONE counter of an entry lies, from the last of its quarters to complete (R280). -/
  counter : Sparse DoneAt := []
  deriving DecidableEq, Repr

/-- A region of a snapshot or restore plan (R406). -/
structure Region where
  buf0 : Nat := 0
  buf1 : Nat := 0
  bytes : Nat := 0
  mode : Nat := 0
  live : Nat := 0
  /-- The buffer the tiers read. -/
  src : Nat := 0
  /-- The flip has dealt with its pointer (R408). -/
  switched : Bool := false
  /-- Bytes of a mode-2 region that have been copied (R408, R411). -/
  done : Nat := 0
  deriving DecidableEq, Repr

/-- A running SNAP (R406–R411). -/
structure Snap where
  stream : Nat := 0
  id : Nat := 0
  regions : List Region := []
  flipAt : Nat := 0
  gateEn : Bool := false
  /-- The gate has been met at the firing or at an update since (R408). -/
  gateMet : Bool := false
  gateSync : Nat := 0
  gateVal : Nat := 0
  gateTmo : Nat := 0
  /-- SKIMSYNC, BRNSYNC, SCRSYNC, STAGESYNC. -/
  syncs : List Nat := []
  result : Nat := 0
  skimOfs : Nat := 0
  hslot : Nat := 0
  scrBase : Nat := 0
  genCap : Nat := 0
  genFirst : Nat := 0
  genCount : Nat := 0
  ptb : Word := 0
  ring : Nat := 0
  /-- Trigger 243 has fired; the flip has happened; every mode-2 copy has been performed. -/
  fired : Bool := false
  /-- Of the flip, the capture has been made; of the staging, the copies have been (R408). -/
  captured : Bool := false
  copied : Bool := false
  /-- Its result record has been written (R411). -/
  recorded : Bool := false
  flipped : Bool := false
  staged : Bool := false
  flipTime : Nat := 0
  flipLsn : Nat := 0
  /-- Digests of the blocks, by block number (R410). -/
  leaves : Sparse (List Byte) := []
  /-- Status of each tier (0 not requested, 15 running) and the next block it streams. -/
  tiers : List (Nat × Nat) := []
  deriving DecidableEq, Repr

/-- What the command at a stream's HEAD is doing once it has started (R290, R297), with the eight doublewords read. -/
inductive CmdRun where
  /-- Started, its own effect not yet performed. -/
  | begun
  | item (die : Nat) (popped : Bool)
  /-- A LAUNCH that waits for a free window (R318). -/
  | wantsWindow
  | member (w m : Nat)
  | glaunch (gang : Nat) (queued : Bool)
  | copying (bytes : Nat)
  | waiting (deadline : Option Nat)
  | timed (time : Nat)
  | fence
  | snap
  /-- A SNAP that has ended without a flip, or been refused, whose result record waits to be written: the reason (R407, R408). -/
  | snapEnds (p : Snap) (reason : Nat)
  /-- Its effects are done and its packet waits for room (R380): does its retirement change GEN? -/
  | retiring (gen : Bool)
  /-- It has met a fault, and the event packet waits for room (R301, R380): FCODE and XCODE. -/
  | faulting (fcode xcode : Nat)
  /-- It has faulted and waits for STM_CMD (R302). -/
  | faulted
  deriving DecidableEq, Repr

/-- The Trowel's working state of a stream with a started command (bytes 0x30–0x3F of its entry read undefined, R288). -/
structure StreamRun where
  s : Nat := 0
  cmd : List Word := []
  run : CmdRun := .begun
  /-- GEN found at the start (R299). -/
  gen : Nat := 0
  /-- Its place in the order of starts (R313). -/
  ord : Nat := 0
  deriving DecidableEq, Repr

/-- A member of a window (R317–R321). -/
structure Member where
  s : Nat := 0
  rows : Nat := 0
  abase : Nat := 0
  astride : Word := 0
  ascale : Nat := 0
  asstride : Word := 0
  crec : Nat := 0
  seed : Word := 0
  gen : Nat := 0
  ptb : Word := 0
  ring : Nat := 0
  /-- Its slice has failed, with the FCODE and the record's code (R327, R328). -/
  failed : Option (Nat × Nat) := none
  /-- Cancelled after dispatch (R303). -/
  cancelled : Bool := false
  poison : Bool := false
  /-- TRW_EPOCH.CUR when its addresses were translated (R134, R322). -/
  tag : Nat := 0
  deriving DecidableEq, Repr

/-- Window states (R320). -/
inductive WState where
  | free | openW | closed | queued | running | draining | scatter
  deriving DecidableEq, Repr

/-- A Trowel window (R317–R326). -/
structure Window where
  state : WState := .free
  kih : Nat := 0
  ckey : Nat := 0
  shape : Nat := 0
  /-- The close cause of R319. -/
  close : Nat := 0
  deadline : Word := 0
  opened : Word := 0
  closedAt : Nat := 0
  serial : Nat := 0
  slot : Nat := 0
  group : Nat := 0
  gang : Nat := 0
  ptb : Word := 0
  ring : Nat := 0
  members : List Member := []
  /-- The image as last read (R316). -/
  image : List Word := []
  /-- A window of a CO = 0 LAUNCH (R317). -/
  ckeyOwn : Bool := false
  /-- Rounding flags of the operation and the drains (R330). -/
  flags : Nat := 0
  /-- Entries posted by holders and not yet reported freed or discarded (R326). -/
  posted : Nat := 0
  /-- The next member SCATTER processes (R329), and whether its record has been written. -/
  next : Nat := 0
  recDone : Bool := false
  /-- Steps 1 to 3 of its dispatch that are done (R322), and TRW_EPOCH.CUR when it opened (R134). -/
  step : Nat := 0
  tag : Nat := 0
  /-- TDISP (R330). -/
  tstart : Word := 0
  form : Nat := 0
  deriving DecidableEq, Repr

/-- A translation fault waiting on a record or for a free record (R137, R140): requester die and engine, and the key. -/
structure Waiter where
  die : Nat := 0
  eng : Nat := 0
  tbase : Nat := 0
  span : Nat := 0
  la : Nat := 0
  cause : Nat := 0
  level : Nat := 0
  ring : Nat := 0
  write : Bool := false
  own : Own := .none
  deriving DecidableEq, Repr

/-- An appended command whose addresses are still to be pre-translated (R333): its stream and words, and the pages left, none while the
image of a LAUNCH has not been read. -/
structure Pre where
  s : Nat := 0
  /-- Its command count, and TRW_EPOCH.CUR when its first page was translated (R134). -/
  n : Nat := 0
  tag : Option Nat := none
  cmd : List Word := []
  pages : Option (List (Nat × Bool)) := none
  deriving DecidableEq, Repr

/-- A LAUNCH whose addresses have been translated, at append or at its start: stream and command count, and TRW_EPOCH.CUR when the tables were
read (R134, R333). -/
structure PreDone where
  s : Nat := 0
  n : Nat := 0
  tag : Nat := 0
  deriving DecidableEq, Repr

/-- Prefetched operand data (R334): the window, the stream of the member for A rows and scales or none for the image's B data, the block of
rows or columns, TRW_EPOCH.CUR when its addresses were translated (R134), and the ranges read, with whether poison; `none` when the fetch
failed and is not tried again. -/
structure Pref where
  w : Nat := 0
  s : Option Nat := none
  blk : Nat := 0
  tag : Nat := 0
  data : Option (List (List Byte × Bool)) := none
  deriving DecidableEq, Repr

/-- The Trowel's state outside registers and K-die SRAM (R288–R335). -/
structure Trowel where
  /-- Streams not DISABLED, ascending. -/
  enabled : List Nat := []
  runs : List StreamRun := []
  /-- The last stream started, per priority (R298), and the number of starts (R313). -/
  lastStart : Sparse Nat := []
  starts : Nat := 0
  /-- Faulted streams not yet read through STM_NEXTF, oldest first (R301, R336). -/
  nextf : List Nat := []
  /-- FCODE of a fault a command met while its stream was CANCELLING (R303). -/
  cancelCode : Sparse Nat := []
  /-- One past the last LSN a stream's MARK commands have staged. -/
  lastMark : Sparse Nat := []
  pre : List Pre := []
  preDone : List PreDone := []
  /-- The operand prefetch store of 64 MiB (R334). -/
  pref : List Pref := []
  /-- Triggers 240, 241, 245 that have fired and whose lists still hold expired entries (R312). -/
  draining : List Nat := []
  /-- CREDIT carried by the last packet for a stream (R293). -/
  credit : Sparse Nat := []
  /-- Queued KIND 0 work items of each die, in service order: stream and ring slot (R313). -/
  wq : Sparse (List (Nat × Nat)) := []
  windows : Sparse Window := []
  /-- Next serial number of an image (R321), and the close order of closed windows (R322). -/
  serials : Sparse Nat := []
  closeOrder : Nat := 0
  deriving DecidableEq, Repr

/-- The condition of a Scrim edge (R19, R20). -/
inductive EdgeSt where
  | primary | standby | down
  deriving DecidableEq, Repr

/-- An interrupt on its way to a core (R111). -/
structure Flight where
  core : Nat := 0
  vec : Nat := 0
  die : Nat := 0
  deriving DecidableEq, Repr

/-- A request that waits at its home for a fill, a retraining or a port (R354, R357, R429): who made it, where it goes, when it was issued, and
whether its time has run out (R461). -/
structure Waiting where
  die : Nat := 0
  unit : Nat := 0
  pa : Nat := 0
  since : Nat := 0
  out : Bool := false
  deriving DecidableEq, Repr

/-- An entry of the MC event log before its SEQ is given (R497, R498): kind, severity, die, payload, and the times and
boot count it carries. -/
structure McEntry where
  kind : Nat := 0
  sev : Nat := 0
  die : Nat := 24
  p0 : Nat := 0
  p1 : Nat := 0
  p2 : Nat := 0
  boot : Nat := 0
  mctime : Nat := 0
  ftime : Nat := 0
  deriving DecidableEq, Repr

/-- An entry programmed into flash (R496, R497). `torn` marks one whose STATE or CRC is bad. -/
structure FlashEntry where
  seq : Nat := 0
  e : McEntry := {}
  torn : Bool := false
  deriving DecidableEq, Repr

/-- The MC's event log (R496–R499). -/
structure McLog where
  queue : List McEntry := []
  /-- Entries dropped since the last one of kind 0x000D was queued (R499). -/
  dropped : Nat := 0
  /-- Flash entries by slot SEQ mod 65,536. -/
  flash : Sparse (Option FlashEntry) := []
  /-- The next SEQ. -/
  next : Nat := 0
  /-- Cold resets since manufacture (R497). -/
  boot : Nat := 0
  deriving DecidableEq, Repr

/-- A packet of a link: TYPE, TAG, A and B of its header and its data (R371, R372, R394, R415). -/
structure Pkt where
  type : Nat := 0
  tag : Nat := 0
  a : Nat := 0
  b : Nat := 0
  data : List Byte := []
  /-- The data carries poison (R374). -/
  poison : Bool := false
  own : Own := .none
  /-- Of a DWR: the device address written, and MC time when it was issued (R382, R461). -/
  pa : Nat := 0
  since : Nat := 0
  /-- A protected packet as it was sent: its data ends with the tag chunk (R394). -/
  sealed : Bool := false
  deriving DecidableEq, Repr

/-- One of the links (R360–R370, R393, R415). Sequence numbers count flits from PARAM and are sent modulo 512. -/
structure Link where
  /-- 0 DISABLED, 1 DETECT, 2 TRAIN, 3 ALIGN, 4 PARAM, 5 ACTIVE, 6 RECOVERY (R363). -/
  state : Nat := 0
  /-- 0 none, 1 8 lanes, 2 16, 3 32 (R364). -/
  width : Nat := 0
  group : Nat := 0
  rev : Bool := false
  good : Nat := 0
  pol : Nat := 0
  /-- Chunks the other side can take, per class REQ, RSP, EVT, MGT (R369). -/
  credit : List Nat := [0, 0, 0, 0]
  /-- Sizes of the device's own receive buffers as advertised in PARAM (R369, R394). -/
  adv : List Nat := [0, 0, 0, 0]
  /-- Chunks removed from the receive buffers and not yet returned (R370). -/
  owed : List Nat := [0, 0, 0, 0]
  /-- Packets formed and not sent, oldest first. -/
  wait : List Pkt := []
  /-- The retry buffer: the number of each packet's last flit, and the packet (R366). -/
  sent : List (Nat × Pkt) := []
  /-- Sequenced flits sent, acknowledged and accepted since PARAM. -/
  tx : Nat := 0
  acked : Nat := 0
  rx : Nat := 0
  /-- The flit control word of the flit last sent (R362). -/
  fcw : BitVec 20 := 0
  /-- A receiver that discards until the expected flit arrives (R367). -/
  skipping : Bool := false
  /-- Uncorrectable codewords in a row (R365). -/
  badRun : Nat := 0
  /-- Where the last replay began, and consecutive replays from there (R367). -/
  replayAt : Nat := 0
  replays : Nat := 0
  /-- A retrain to be logged with the width it ends in (R467). -/
  relog : Bool := false
  /-- Of the twin link: the key of the direction out, whether that is B to A, and the protected packets sent in it (R394, R396). -/
  key : List Byte := []
  fromB : Bool := false
  count : Nat := 0
  deriving DecidableEq, Repr

/-- A device read of host memory or of the cartridge: outstanding, or answered and not yet used (R374, R415). An owner
of `none` is an orphan whose tag stays held (R374). -/
structure Drd where
  tag : Nat := 0
  own : Own := .none
  /-- The device address read, and the address in the packet. -/
  pa : Nat := 0
  addr : Nat := 0
  n : Nat := 0
  /-- The status of the completion and its data. -/
  ans : Option (Nat × List Byte) := none
  /-- Decoded and without a tag yet: none was free (R374, R381). -/
  held : Bool := false
  /-- MC time when it was issued (R461). -/
  since : Nat := 0
  /-- It has timed out: what comes is an orphan (R461, R462). -/
  late : Bool := false
  deriving DecidableEq, Repr

/-- A mirror write or cartridge write not yet answered (R398, R415). -/
structure Mirw where
  tag : Nat := 0
  own : Own := .none
  off : Nat := 0
  n : Nat := 0
  /-- The Stencil entry it mirrors (R403). -/
  lsn : Nat := 0
  /-- MC time when it was issued (R461). -/
  since : Nat := 0
  /-- It has timed out: what comes is an orphan (R461, R462). -/
  late : Bool := false
  deriving DecidableEq, Repr

/-- Fabric time's discipline (R386–R391). -/
structure TimeSync where
  /-- The outstanding exchange: its ID, t1, and whether a step or a replay has spoilt it. -/
  out : Option (Nat × Nat) := none
  spoilt : Bool := false
  id : Nat := 0
  /-- When the last exchange began. -/
  lastStart : Nat := 0
  /-- t1 of the last accepted exchange, and the steps since in half nanoseconds. -/
  lastT1 : Option Nat := none
  /-- When an exchange was last accepted (R390). -/
  accAt : Nat := 0
  stepped : Nat := 0
  /-- D of the last 16 exchanges not discarded for another reason, newest first. -/
  delays : List Int := []
  slew : Int := 0
  slewEnd : Nat := 0
  /-- Edges of TIME_PPS: ε of the previous used edge, its time, consecutive edges missed, the last step's time. -/
  ppsEps : Int := 0
  ppsAt : Option Nat := none
  ppsMiss : Nat := 0
  /-- The second of the last edge used or counted as missed (R391). -/
  ppsSec : Option Int := none
  stepAt : Option Nat := none
  deriving DecidableEq, Repr

/-- The twin link's session and pins outside TWN_ (R393–R402). -/
structure Twin where
  /-- TWIN_PRESENT_N is low after its filter (R516). -/
  present : Bool := false
  /-- TWN_GROUP, when section 0x0007 has set it (R395). -/
  group : Option (List Byte) := none
  /-- The partner's HELLO: serial and group. -/
  hello : Option (Nat × List Byte) := none
  /-- The last AUTH message accepted or sent (R396). -/
  auth : Nat := 0
  frags : List (Nat × List Byte) := []
  transcript : List Byte := []
  /-- The partner's certificate, kept until its signature has been checked. -/
  peerCert : List Byte := []
  /-- Role A's ephemeral secrets from message 1 to message 2: X25519, then the seed of the ML-KEM-768 key (R396). -/
  eph : List Byte := []
  /-- The direction keys A to B and B to A that come into force with message 3 (R396, R397). -/
  nextAB : List Byte := []
  nextBA : List Byte := []
  /-- The direction keys in force, and whether this module has role B in the session they are of (R396, R402). -/
  keyAB : List Byte := []
  keyBA : List Byte := []
  /-- In role A after new keys: the key before of the partner's direction and its count, until the partner has been heard under the new one
  (R397). -/
  oldRx : Option (List Byte × Nat) := none
  roleB : Bool := false
  session : Bool := false
  /-- Protected packets received in the session (R396). -/
  rxCount : Nat := 0
  /-- A packet with a valid tag has arrived since the last firing of trigger 242 (R400). -/
  heard : Bool := false
  /-- Serial of the partner of the last session, and whether one has been up since reset (R401). -/
  lastPeer : Option Nat := none
  /-- A pairing attempt failed and waits its second (R395). -/
  failed : Bool := false
  /-- Role B's fence, written and not yet in effect: the fabric time at which it takes effect (R402). -/
  fence : Option Nat := none
  /-- TWIN_RST_OUT_N is low (R402). -/
  pulse : Bool := false
  mirw : List Mirw := []
  deriving DecidableEq, Repr

/-- The Stencil log outside TWN_STN_ (R403): the next entry to go to the HBM ring, and the first of the session. -/
structure Stencil where
  ring : Nat := 0
  mirrorFrom : Nat := 0
  /-- The first entry of a session's mirror has been logged as kind 0xF011 (R404). -/
  resumed : Bool := false
  /-- Device records that wait for room in staging, oldest first: kind, first payload, further payloads (R403). -/
  owed : List (Nat × List Byte × List (List Byte)) := []
  /-- The lowest LSN whose mirror write was lost or refused: no later entry is durable (R403). -/
  lost : Option Nat := none
  deriving DecidableEq, Repr

/-- A running restore (R413). -/
structure Restore where
  src : Nat := 0
  ofs : Nat := 0
  expect : Bool := false
  regions : List Region := []
  genCap : Nat := 0
  genFirst : Nat := 0
  genCount : Nat := 0
  ptb : Word := 0
  /-- Bytes received in RETURN packets, by offset in the image (SRC 3). -/
  got : Sparse Byte := []
  seen : Sparse Bool := []
  /-- Blocks of the image verified and written so far. -/
  block : Nat := 0
  /-- The manifest once it has passed its check: its header doublewords and the leaves. -/
  head : List Word := []
  leaves : List (List Byte) := []
  failed : Nat := 0
  deriving DecidableEq, Repr

/-- The cartridge outside HWK_ (R415–R418). -/
structure Hawk where
  /-- Serial ranges the Render policy allows, none without section 0x0008 (R416). -/
  ranges : Option (List (Nat × Nat)) := none
  writes : List Mirw := []
  /-- HREL sent. -/
  hrel : Bool := false
  /-- The wear record has been read since insertion (R416). -/
  wearSeen : Bool := false
  deriving DecidableEq, Repr

/-- A requested reset that waits for idle (R426): level 2 gang, 1 C-die, 0 block, the dies it covers, gang or block. -/
structure ResetReq where
  level : Nat := 0
  dies : List Nat := []
  what : Nat := 0
  /-- MC time when the blocks were asked to go idle (R426). -/
  since : Nat := 0
  deriving DecidableEq, Repr

/-- The reset controller, the pins and the rails outside RST_ (R421–R434, R523, R524). -/
structure Reset where
  /-- SRC codes of the asserted cold and warm sources (R442). -/
  asserted : List Nat := [1, 2]
  /-- The causes recorded and not yet logged, oldest first: RST_CAUSE[31:0] as each left it (R425, R498). -/
  causes : List Nat := [0x41]
  reqs : List ResetReq := []
  /-- The phase to run when the last covering source releases (R433). -/
  phaseNext : Nat := 1
  /-- That phase runs again from its beginning (R433). -/
  restart : Bool := false
  /-- Power-on state of the rails: PWR_EN, regulators started, PWR_GOOD, REFCLK, the trip latch. -/
  pwrEn : Bool := false
  starting : Bool := false
  rails : Bool := false
  /-- The rails have come into regulation since the standby rail rose (R431). -/
  railsSeen : Bool := false
  refclk : Bool := true
  trip : Bool := false
  /-- The interleave, hash and Patch map in force before the reset, none where no image had applied, and stacks that tripped (R354, R433). -/
  mapBefore : Option (List Nat) := none
  tripped : List Nat := []
  fillBegun : Bool := false
  /-- A warm reset has interrupted phase 3 (R433). -/
  cut : Bool := false
  /-- Dies that tripped and have not read their sensors below 97 °C since (R455). -/
  hot : List Nat := []
  /-- Pins with a Render override: state and function (R514). -/
  pins : Sparse (Nat × Nat) := []
  deriving DecidableEq, Repr

/-- A Render image update by software in progress (R441): its target copy, 1 A or 2 B, and the image; 0 and nothing while the image
has not been read. -/
structure Upd where
  target : Nat := 0
  image : List Byte := []
  deriving DecidableEq, Repr

/-- A demand on a clock or throttle step (R447, R453): the step, when it last rose, and since when it may fall. -/
structure Demand where
  step : Nat := 0
  rose : Option Nat := none
  low : Option Nat := none
  deriving DecidableEq, Repr

/-- The supply warning (R449, R450): the warning demand of each die, when it began, the lowest input. -/
structure Supply where
  warn : Bool := false
  /-- The warning demand of each die, and from when its next step down is due (R450). -/
  demand : Sparse Nat := []
  due : Sparse Nat := []
  /-- MC time when the warning began, and the lowest input since. -/
  began : Nat := 0
  low : Nat := 0
  /-- The input has risen to 45.0 V during the warning and has not fallen below it since (R450). -/
  up : Bool := false
  /-- The last readout of each stack (R455). -/
  heat : Sparse Nat := []
  /-- Power demand, thermal demand and stack power demand, by die (R447, R448, R453). -/
  power : Sparse Demand := []
  thermal : Sparse Demand := []
  stack : Sparse Demand := []
  /-- Temperature step of each stack (R350). -/
  hTemp : Sparse Nat := []
  /-- The pseudo-channel under a running margin test, by die: local channel + 16 × pseudo-channel as its start found them (R355). -/
  margin : Sparse Nat := []
  deriving DecidableEq, Repr

/-- The security block outside SEC_ (R477, R482, R485). -/
structure Sec where
  /-- A counter commit in progress: counter and target, and the MC time at which its next step has been blown (R477). -/
  commit : Option (Nat × Nat) := none
  stepAt : Nat := 0
  /-- The signed bytes of a report being made, without request data, and the addresses of its request and of the report as GO found them. -/
  att : Option (List Byte) := none
  attIn : Nat := 0
  attOut : Nat := 0
  /-- The private seeds of the device identity, Ed25519 and ML-DSA-65, from phase 1 to the next cold reset (R483). -/
  idEd : List Byte := []
  idMl : List Byte := []
  /-- Extensions asked for and not performed: register and address, oldest first (R482). -/
  ext : List (Nat × Nat) := []
  /-- A token submitted in band whose bytes have not arrived, by its address (R488). -/
  tok : Option Nat := none
  /-- RVER, FVER and MVER of the objects in use (R477). -/
  rver : Nat := 0
  fver : Nat := 0
  mver : Nat := 0
  deriving DecidableEq, Repr

/-- The fuses that a rule reads bit by bit (R475, R476): the two key hashes, fused for generation 0 (R473), and the pairs of bits of each rollback
counter's steps, the first bits of the 64 pairs and the second. No register shows the hashes. -/
structure Fuses where
  keyhEd : List Byte := sha3_256 (romEdKey 0)
  keyhMl : List Byte := sha3_256 (romMlKey 0)
  steps : List (BitVec 64 × BitVec 64) := List.replicate 4 (0, 0)
  deriving DecidableEq, Repr

/-- A rollback counter: the blown steps from step 0 up to the first unblown one (R476). -/
def Fuses.count (f : Fuses) (c : Nat) : Nat :=
  let p := f.steps.getD c (0, 0)
  ctzN 64 (~~~ (p.1 ||| p.2)).toNat

/-- Step n of a counter blown. Both bits of its pair are (DESIGN CHOICE, log entry 3: R476 counts it blown by either). -/
def Fuses.blow (f : Fuses) (c n : Nat) : Fuses :=
  let p := f.steps.getD c (0, 0)
  { f with steps := setAt f.steps c (setBit p.1 n true, setBit p.2 n true) }

/-- What the MC answers (R500–R506). -/
inductive RCode where
  | success | unsupportedCmd | unsupportedPldmCmd | alreadyInUpdateMode | notInUpdateMode | unableToInitiateUpdate | notReady
  | selfContainedActivationNotPermitted | invalidData | unavailable
  deriving DecidableEq, Repr

/-- An answer of the MC on a binding: the code, and the numbers it carries. -/
structure Reply where
  code : RCode := .success
  vals : List Nat := []
  deriving DecidableEq, Repr

/-- An update through the MC (R504). -/
structure FwUpd where
  agent : Bind := .smb
  /-- 0 none, 1 Render image, 2 firmware copy. -/
  comp : Nat := 0
  target : Nat := 0
  size : Nat := 0
  piece : Nat := 4096
  next : Nat := 0
  /-- The header bytes held in MC SRAM. -/
  head : List Byte := []
  /-- The last step's result: 0 going on, 1 failed, 2 applied. -/
  result : Nat := 0
  deriving DecidableEq, Repr

/-- The management controller outside MC_ (R491–R506). -/
structure Mc where
  /-- The last samples, by sensor ID; an unlisted sensor is unavailable. -/
  sensors : Sparse (Option Nat) := []
  /-- Thresholds now crossed: sensor ID and threshold 0–4. -/
  crossed : List (Nat × Nat) := []
  eid : Sparse Nat := []
  /-- The instance ID of the last request on each binding (R500). -/
  inst : Sparse Nat := []
  tid : Nat := 0
  receiver : Option (Bind × Nat) := none
  /-- Sensor events, oldest first, and whether the oldest has been sent. -/
  events : List (List Nat) := []
  evSent : Bool := false
  reply : Sparse (Option Reply) := []
  /-- The greatest event message, as EventMessageBufferSize last set it (R501). -/
  bufSize : Nat := 256
  /-- MC time when the watchdog's count began; the pre-warning has been sent. -/
  wd : Option Nat := none
  prewarned : Bool := false
  upd : Option FwUpd := none
  /-- Sequence numbers of copies written since the last reset: Render, firmware. -/
  pendSeq : List (Option Nat) := [none, none]
  /-- A mailbox command that waits for its buffer: OP and COUNT (R507). -/
  cmd : Option (Nat × Nat) := none
  /-- MC SRAM, from its first byte, as the MC firmware section was loaded into it (R479). -/
  sram : List Byte := []
  deriving DecidableEq, Repr


/-- A run of replays on a Scrim pair (R467): the transfer it begins at, how many in a row, and the transfers' worth of bytes its sender had
sent by then. -/
structure ScrimRun where
  seq : Nat := 0
  n : Nat := 0
  sent : Nat := 0
  deriving DecidableEq, Repr

/-- The states of an IEEE 1149.1 TAP that the model can show between two commands (R517). -/
inductive TapState where
  | testLogicReset | runTestIdle | shiftDr | shiftIr
  deriving DecidableEq, Repr

/-- TAP instructions: those of R488, and any other. -/
inductive TapInsn where
  | idcode | bypass | token | other
  deriving DecidableEq, Repr

/-- The JTAG TAP: the level of TRST_N, the state, the instruction selected (R488, R517). -/
structure Tap where
  trst : Bool := false
  state : TapState := .testLogicReset
  insn : TapInsn := .idcode
  deriving DecidableEq, Repr

/-- The module. -/
structure State where
  /-- Commands that wait, first in, first out. -/
  pending : List Instr := []
  /-- The model's own counter of free values (log entry 2). -/
  free : Nat := 0
  /-- Control registers, by offset in control space (R26). -/
  regs : Sparse Word := []
  /-- Memory bytes by physical address: HBM, tile stores, K-die SRAM (R21). -/
  mem : List Host.Cell := []
  /-- Poisoned units, by first address: 32-byte sectors of HBM, 64-byte lines elsewhere (R463). -/
  poison : Sparse Bool := []
  /-- Cores by global number. -/
  cores : Sparse Core := []
  /-- Matrix engines by C-die. -/
  engines : Sparse Engine := []
  /-- Edges of the Scrim by number (R11). -/
  edges : Sparse EdgeSt := []
  flight : List Flight := []
  gangs : Sparse GangSt := []
  trowel : Trowel := {}
  /-- Requesters on each fault-queue record, in join order, and those that wait for a free record (R137, R140). -/
  fqJoin : Sparse (List Waiter) := []
  fqWait : List Waiter := []
  /-- Requests whose record was aborted and that have not yet been told (R139). -/
  fqAbort : List Waiter := []
  /-- Requests whose record was resolved: their next translation is a fresh walk (R139). -/
  fqFresh : List Waiter := []
  /-- Translation caches of the engines by C-die, of the Trowel (24) and of the copy and snapshot engines (25). -/
  dtlb : Sparse (List TlbEntry) := []
  /-- Records in order of creation (R138). -/
  fqOrder : List Nat := []
  /-- Dies that have not acknowledged the translation round (R132). -/
  epochWait : List Nat := []
  /-- Unread entries of each die's ERR_ log, oldest first (R468). -/
  errOrder : Sparse (List Nat) := []
  mclog : McLog := {}
  /-- Fabric time (R385): nanoseconds and the 32-bit fraction; it runs when `timeRuns`. -/
  time : Nat := 0
  frac : Nat := 0
  timeRuns : Bool := false
  /-- MC time in ns since the last cold reset (R497). -/
  mctime : Nat := 0
  /-- Stacks whose controller retrains or fills, and tile stores being filled: their requests wait (R354, R357). -/
  hbmWait : List Nat := []
  tileFill : List Nat := []
  /-- The links: 0 Agdoa, 1 twin, 2 Hawk. -/
  links : Sparse Link := []
  /-- Device reads of host memory and of the cartridge. -/
  drds : List Drd := []
  /-- DWRs discarded before their acknowledgement (R365, R465): not performed, and ended by their requesters' timeout (R461). -/
  dwrLost : List Pkt := []
  hrds : List Drd := []
  /-- Requests that wait at their homes (R429, R461). -/
  waits : List Waiting := []
  /-- Packets sent out of a die's side, by 4 × die + side, since SCR_BYTES was last read, and MC time of that read (R28). -/
  sent : Sparse (Nat × Nat) := []
  sync : TimeSync := {}
  twin : Twin := {}
  stencil : Stencil := {}
  snap : Option Snap := none
  /-- Snapshots that have retired while mode-2 copies of theirs still go on (R408, R411). -/
  staging : List Snap := []
  /-- SNAPs since cold reset (R409). -/
  snapCount : Nat := 0
  restore : Option Restore := none
  hawk : Hawk := {}
  rst : Reset := {}
  /-- The module NOR flash (R435), erased where unlisted (log entry 4). -/
  nor : Sparse Byte := []
  upd : Option Upd := none
  supply : Supply := {}
  sec : Sec := {}
  fuses : Fuses := {}
  mc : Mc := {}
  /-- Fabric times of FIFO mismatches in the last second, by die and FIFO (R465). -/
  fifoErr : Sparse (List Nat) := []
  /-- Replays in a row from one transfer, by edge and direction: where they began, how many (R467). -/
  scrim : Sparse ScrimRun := []
  /-- The JTAG TAP (R488, R517). -/
  tap : Tap := {}
  deriving DecidableEq, Repr

/-- Why a command stops the machine. No command of this model does: an exception, an error response or a refusal the
spec describes is an effect (NOTES.md '## Stops'). -/
inductive Fault where
  /-- Raised by nothing; safe. -/
  | none
  deriving DecidableEq, Repr

/-- Why a command has no meaning. -/
inductive Refusal where
  /-- Raised by Dispatch's arm of a command whose meaning has not been written; safe. -/
  | notModelled (mnemonic : String)
  deriving DecidableEq, Repr

/-- The module right after a power-on reset asserts (R422, R425). -/
def State.reset : State := {}

end Sys2Proof.Machine
end

