-- ==== Sys2Proof/Machine/Ops.lean ====
section
/-! DEFINITION. The named operations over the module's registers, cores, memory, error log and interrupts that every
family of commands uses. -/

namespace Sys2Proof.Machine

open Sys2Proof

/-! ### The mosaic (R6–R10, R14, R19, R20) -/

/-- Position p = 5y + x of a die in the grid (R6). -/
def gridPos (d : Nat) : Nat := if d = 24 then 12 else if d < 12 then d else d + 1

/-- Column of a die (R6). -/
def dieX (d : Nat) : Nat := gridPos d % 5
/-- Row of a die (R6). -/
def dieY (d : Nat) : Nat := gridPos d / 5

/-- The die at a place of the grid (R6). -/
def dieAt (x y : Nat) : Nat :=
  let p := 5 * y + x
  if p = 12 then 24 else if p < 12 then p else p - 1

/-- Hop count of two dies (R7). -/
def hops (a b : Nat) : Nat :=
  (max (dieX a) (dieX b) - min (dieX a) (dieX b)) + (max (dieY a) (dieY b) - min (dieY a) (dieY b))

/-- The C-die of each stack HS0–HS15 (R8). -/
def stackDies : List Nat := [0, 1, 2, 3, 4, 9, 13, 18, 23, 22, 21, 20, 19, 14, 10, 5]

/-- The C-die of a stack (R8). -/
def stackDie (s : Nat) : Nat := stackDies.getD s 0

/-- The stack of an edge die (R8), none for the others. -/
def dieStack (d : Nat) : Option Nat := firstIdx (· == d) stackDies

/-- Is the die an edge die with an HBM controller (R8, R9)? -/
def isEdgeDie (d : Nat) : Bool := (dieStack d).isSome

/-- The neighbour on the PHY-site side of an inland die, and that side: 0 north, 1 east, 2 south, 3 west (R10). -/
def standbyOf : Nat → Option (Nat × Nat)
  | 6 => some (7, 1) | 7 => some (6, 3) | 8 => some (12, 2) | 12 => some (8, 0)
  | 16 => some (17, 1) | 17 => some (16, 3) | 11 => some (15, 2) | 15 => some (11, 0)
  | _ => none

/-- Side of the PHY site of a die (R8, R10); 0 on the K-die. -/
def phySide (d : Nat) : Nat :=
  match standbyOf d with
  | some (_, side) => side
  | none =>
    match dieStack d with
    | some s => if s ≤ 4 then 0 else if s ≤ 7 then 1 else if s ≤ 12 then 2 else 3
    | none => 0

/-- Number of the edge between two neighbours: 0–19 east–west, 20–39 north–south (R11). -/
def edgeNo (a b : Nat) : Nat :=
  if dieY a = dieY b then 4 * dieY a + min (dieX a) (dieX b)
  else 20 + 5 * min (dieY a) (dieY b) + dieX a

/-- The two dies of an edge. -/
def edgeDies (e : Nat) : Nat × Nat :=
  if e < 20 then (dieAt (e % 4) (e / 4), dieAt (e % 4 + 1) (e / 4))
  else (dieAt ((e - 20) % 5) ((e - 20) / 5), dieAt ((e - 20) % 5) ((e - 20) / 5 + 1))

/-- The doubled edges of R10. -/
def doubledEdge (e : Nat) : Bool := let d := edgeDies e; standbyOf d.1 == some (d.2, phySide d.1) && (standbyOf d.1).isSome

/-- The side of die d on which edge e lies. -/
def edgeSide (d e : Nat) : Nat :=
  let p := edgeDies e
  if e < 20 then (if p.1 = d then 1 else 3) else (if p.1 = d then 2 else 0)

/-- One step from a coordinate towards another. -/
def stepTo (a b : Nat) : Nat := if a < b then a + 1 else if b < a then a - 1 else a

/-- The dies of a route after its first, dimension by dimension (R14). -/
def routeFrom (yx : Bool) (dst : Nat) : Nat → Nat → List Nat
  | 0, _ => []
  | n + 1, d =>
    if d = dst then []
    else
      let x := dieX d
      let y := dieY d
      let moveX := if yx then y = dieY dst else x ≠ dieX dst
      let d' := if moveX then dieAt (stepTo x (dieX dst)) y else dieAt x (stepTo y (dieY dst))
      d' :: routeFrom yx dst n d'

/-- The edges of a route, each with the die before it (R14). -/
def routeEdges (yx : Bool) (src dst : Nat) : List (Nat × Nat) :=
  let path := src :: routeFrom yx dst 8 src
  (path.zip path.tail).map fun p => (p.1, edgeNo p.1 p.2)

/-! ### Control registers (R4, R5, R26, R27) -/

/-- First byte of control space (R21). -/
def ctrlBase : Nat := 0x3F0000000000

/-- A die's first byte in control space (R26). -/
def dieBase (d : Nat) : Nat := if d = 24 then 0 else (d + 1) * 0x1000000

/-- Does a die have the registers of a class (R26, R9)? -/
def DieClass.has (cls : DieClass) (d : Nat) : Bool :=
  match cls with
  | .all => true
  | .k => d == 24
  | .c => d != 24
  | .edge => isEdgeDie d

/-- Offset in control space of doubleword w of register r(i) of die d (R26). -/
def regKey (d : Nat) (r : RegName) (i w : Nat) : Nat :=
  let k := regInfo r
  dieBase d + k.blk * 0x10000 + k.off + k.stride * i + 8 * w

/-- A register with its die, index and doubleword. -/
structure RegRef where
  die : Nat
  name : RegName
  i : Nat
  w : Nat
  deriving DecidableEq, Repr

/-- The register at a doubleword offset of control space, if one is defined there (R26). -/
def regAt (key : Nat) : Option RegRef :=
  let die := if key / 0x1000000 = 0 then 24 else key / 0x1000000 - 1
  let blk := key / 0x10000 % 0x100
  let off := key % 0x10000
  if 24 < die ∧ key / 0x1000000 ≠ 0 then none
  else
    let hit (r : RegName) : Bool :=
      let k := regInfo r
      k.blk == blk && k.dies.has die && decide (k.off ≤ off) && decide ((off - k.off) / k.stride < k.count)
        && decide ((off - k.off) % k.stride / 8 < k.dw) && decide (off % 8 = 0)
        && !(r == .THM_SENS && die == 24 && decide (6 ≤ (off - k.off) / 8))
    (allRegs.find? hit).map fun r =>
      let k := regInfo r
      ⟨die, r, (off - k.off) / k.stride, (off - k.off) % k.stride / 8⟩

/-- SCR_ID of a die (R28). -/
def scrId (d : Nat) : Word :=
  BitVec.ofNat 64 (d + 2 ^ 5 * dieX d + 2 ^ 8 * dieY d + 2 ^ 11 * b2n (isEdgeDie d) + 2 ^ 12 * ((dieStack d).getD 0)
    + 2 ^ 16 * phySide d + 2 ^ 18 * b2n (standbyOf d).isSome)

/-- What a register holds when nothing has changed it: its reset value, or its fused value (R2, R28, R490). -/
def regReset (r : RegName) (d i : Nat) : Word :=
  match r with
  | .SCR_ID => scrId d
  | .SEC_DEVID => BitVec.ofNat 64 (0xB1 + 2 ^ 8 * b2n Config.eng + 2 ^ 16 * 0x2524)
  | .SEC_SERIAL => Config.serial
  | .SEC_DBG_CHAL => Config.challenge i
  | .SEC_CERT => BitVec.ofNat 64 (fromBytes ((certBytes.drop (8 * i)).take 8))
  | .TT_CTL => if 240 ≤ i then BitVec.ofNat 64 (2 ^ 63) else 0
  | _ => BitVec.ofNat 64 (regInfo r).reset

/-- A doubleword of a register. -/
def State.regW (s : State) (d : Nat) (r : RegName) (i w : Nat) : Word :=
  look (fun _ => regReset r d i) s.regs (regKey d r i w)

/-- A register. -/
def State.reg (s : State) (d : Nat) (r : RegName) (i : Nat) : Word := s.regW d r i 0

/-- A doubleword of a register replaced. -/
def State.setRegW (s : State) (d : Nat) (r : RegName) (i w : Nat) (v : Word) : State :=
  { s with regs := put (fun _ => regReset r d i) s.regs (regKey d r i w) v }

/-- A register replaced. -/
def State.setReg (s : State) (d : Nat) (r : RegName) (i : Nat) (v : Word) : State := s.setRegW d r i 0 v

/-- Field [hi:lo] of a register. -/
def State.fld (s : State) (d : Nat) (r : RegName) (i hi lo : Nat) : Nat := bits (s.reg d r i) hi lo

/-- Bit b of a register. -/
def State.flag (s : State) (d : Nat) (r : RegName) (i b : Nat) : Bool := bit (s.reg d r i) b

/-- Field [hi:lo] of a register replaced. -/
def State.setFld (s : State) (d : Nat) (r : RegName) (i hi lo v : Nat) : State :=
  s.setReg d r i (setBits (s.reg d r i) hi lo v)

/-- A saturating count added to field [hi:lo] of a register. -/
def State.satFld (s : State) (d : Nat) (r : RegName) (i hi lo n : Nat) : State :=
  s.setFld d r i hi lo (satAdd (2 ^ (hi + 1 - lo) - 1) (s.fld d r i hi lo) n)

/-- A count added to a register modulo 2⁶⁴. -/
def State.countReg (s : State) (d : Nat) (r : RegName) (i n : Nat) : State :=
  s.setReg d r i (s.reg d r i + BitVec.ofNat 64 n)

/-- Bits ORed into a register. -/
def State.orReg (s : State) (d : Nat) (r : RegName) (i : Nat) (v : Word) : State := s.setReg d r i (s.reg d r i ||| v)

/-- Every doubleword of a register of a die back at its reset value. -/
def State.resetReg (s : State) (d : Nat) (r : RegName) : State :=
  let k := regInfo r
  let lo := regKey d r 0 0
  { s with regs := dropKeys (fun key =>
      decide (lo ≤ key) && decide ((key - lo) / k.stride < k.count) && decide ((key - lo) % k.stride / 8 < k.dw)) s.regs }

/-- Registers of a die back at their reset values. -/
def State.resetRegs (s : State) (d : Nat) (rs : List RegName) : State := rs.foldl (fun s r => s.resetReg d r) s

/-- A register written by software under its access types (R4, R5), restricted to the bits of `m` (R27). -/
def plainWrite (k : RegInfo) (old v m : Word) : Word :=
  let rw := BitVec.ofNat 64 k.rw &&& m
  let x := (old &&& ~~~rw) ||| (v &&& rw)
  (x &&& ~~~(v &&& BitVec.ofNat 64 k.w1c &&& m)) ||| (v &&& BitVec.ofNat 64 k.w1s &&& m)

/-! ### Cores, engines, gangs -/

/-- A core. -/
def State.core (s : State) (c : CoreId) : Core := look (fun _ => {}) s.cores c.val

/-- A core replaced. -/
def State.setCore (s : State) (c : CoreId) (x : Core) : State := { s with cores := put (fun _ => {}) s.cores c.val x }

/-- A core changed by a function. -/
def State.updCore (s : State) (c : CoreId) (f : Core → Core) : State := s.setCore c (f (s.core c))

/-- A C-die's matrix engine. -/
def State.engine (s : State) (d : Nat) : Engine := look (fun _ => {}) s.engines d

/-- An engine changed by a function. -/
def State.updEngine (s : State) (d : Nat) (f : Engine → Engine) : State :=
  { s with engines := put (fun _ => {}) s.engines d (f (s.engine d)) }

/-- A gang's state. -/
def State.gang (s : State) (g : Nat) : GangSt := look (fun _ => {}) s.gangs g

/-- A gang's state changed by a function, with GNG_STAT.QDEPTH and BUSY kept in step (R267). -/
def State.updGang (s : State) (g : Nat) (f : GangSt → GangSt) : State :=
  let x := f (s.gang g)
  let s := { s with gangs := put (fun _ => {}) s.gangs g x }
  (s.setFld 24 .GNG_STAT g 35 32 (x.queue.length + b2n x.run.isSome)).setFld 24 .GNG_STAT g 36 36 (b2n x.run.isSome)

/-- The condition of an edge. -/
def State.edge (s : State) (e : Nat) : EdgeSt := look (fun _ => .primary) s.edges e

/-! ### Free values (log entry 2) -/

/-- A free number, and the state in which the next one is another. -/
def State.freeNat (s : State) : Nat × State := (Config.freeNat s.free, { s with free := s.free + 1 })

/-- A free bit. -/
def State.freeBool (s : State) : Bool × State := (Config.freeBool s.free, { s with free := s.free + 1 })

/-- An element of a list the spec lets the hardware pick freely: any of them. -/
def State.choose (s : State) (l : List Nat) : Option Nat × State :=
  match l with
  | [] => (none, s)
  | [a] => (some a, s)
  | l => (some (l.getD (Config.freeNat s.free % l.length) 0), { s with free := s.free + 1 })

/-! ### Reset and reach (R424, R434, R455) -/

/-- Is the module outside the always-on domain in reset or stopped: a cold or warm source is asserted, or a die has tripped? -/
def State.stopped (s : State) : Bool := !s.rst.asserted.isEmpty || s.rst.trip

/-- A pin that no entry of the pins section names (R514). -/
def noPin (_ : Nat) : Nat × Nat := (0, 2)

/-- Does a pin-section entry hold a pin at its inactive level (R514)? -/
def State.pinHeld (s : State) (n : Nat) : Bool := (look noPin s.rst.pins n).2 == 1

/-- Is the partner's slot filled as the twin link sees it: TWIN_PRESENT_N low, and not held (R514, R516)? -/
def State.twinHere (s : State) : Bool := s.twin.present && !s.pinHeld 8

/-- RST_STAT.PHASE of the K-die: 0 when option loading is not in progress (R432). -/
def State.phase (s : State) : Nat := s.fld 24 .RST_STAT 0 1 0

/-- Is the host confined to the blocks of R434: option loading is in progress, or it has ended in NOIMG or NOFW (R434, R480, R506)? -/
def State.confined (s : State) : Bool := s.phase != 0 || s.flag 24 .RND_STATUS 0 2 || s.flag 24 .SEC_STAT 0 4

/-- May the host reach a block of a die's control space (R434)? -/
def State.hostMay (s : State) (die blk : Nat) : Bool :=
  !s.confined || (die == 24 && blk ∈ [0x00, 0x01, 0x05, 0x06, 0x10])

/-- Is a core running: its RUN bit set, not stopped under R115, its die out of reset (R430)? -/
def State.running (s : State) (c : CoreId) : Bool :=
  !s.stopped && s.flag (dieOf c).val .RST_RUN 0 (coreK c).val && !s.flag (dieOf c).val .ERR_STAT 0 (8 + (coreK c).val)

/-- May a source make register accesses now: a running core, the host over an ACTIVE link, the MC's firmware? -/
def State.srcUp (s : State) (q : Src) : Bool :=
  !s.stopped &&
    match q with
    | .core c => s.running c
    | .host => s.fld 24 .AGD_LSTAT 0 3 0 == 5
    | .mc => s.flag 24 .MC_STAT 0 0

/-- Registers a source addresses. Of the MC the spec gives report requests alone, so only the SEC_ block (R485; DESIGN CHOICE, log entry 70). -/
def srcMay (q : Src) (blk : Nat) : Bool := q != .mc || blk == 0x05

/-- Has the reset controller asked a block to go idle (R426)? -/
def State.asked (s : State) (d code : Nat) : Bool := s.rst.reqs.any fun r => r.dies.contains d && (r.level != 0 || r.what == code)

/-! ### Interrupts (R111) -/

/-- An interrupt sent on a route from a die: nothing when EN is 0, VEC is below 32 or CORE is above 99 (R111). -/
def State.sendIrq (s : State) (route : Nat) (die : Nat) : State :=
  let core := route % 128
  let vec := route / 256 % 256
  if route.testBit 7 && decide (32 ≤ vec) && decide (core < 100) then
    { s with flight := s.flight ++ [⟨core, vec, die⟩] }
  else s

/-- An interrupt made pending: a vector already pending stays one event, whose sender is either (R111). -/
def State.pendIrq (s : State) (c : CoreId) (vec die : Nat) : State :=
  match (s.core c).irq.find? fun p => p.vec == vec with
  | none => s.updCore c fun x => { x with irq := x.irq ++ [{ vec, die }] }
  | some p =>
    match s.choose [p.die, die] with
    | (some d, s) => s.updCore c fun x => { x with irq := x.irq.map fun q => if q.vec == vec then { q with die := d } else q }
    | (none, s) => s

/-- A machine-check notification raised at a core: EXINFO.INFO and EADDR (R80, R109). -/
def State.machineCheck (s : State) (c : CoreId) (info : Nat) (eaddr : Word) : State :=
  s.updCore c fun x => { x with mchk := x.mchk ++ [(info, eaddr)] }

/-! ### The MC event log queue (R498, R499) -/

/-- Fabric time in an entry: all ones while it does not run (R497). -/
def State.ftime (s : State) : Nat := if s.timeRuns then s.time % 2 ^ 64 else 2 ^ 64 - 1

/-- An entry queued for the MC event log, or dropped when 4,096 wait (R499). -/
def State.mcLog (s : State) (kind sev die p0 p1 p2 : Nat) : State :=
  let sev := if kind < 0x100 then Config.mcSev kind % 4 else sev
  let e : McEntry := { kind, sev, die, p0 := p0 % 2 ^ 32, p1, p2, boot := s.mclog.boot, mctime := s.mctime, ftime := s.ftime }
  if 4096 ≤ s.mclog.queue.length then
    ({ s with mclog := { s.mclog with dropped := s.mclog.dropped + 1 } }).satFld 24 .MC_STAT 0 31 16 1
  else { s with mclog := { s.mclog with queue := s.mclog.queue ++ [e] } }

/-- An entry programmed into flash: its sector is erased first where it is the sector's first (R496, R497). -/
def McLog.program (l : McLog) (e : McEntry) (whole : Bool) : McLog :=
  let slot := l.next % 65536
  let flash := if slot % 1024 = 0 then dropKeys (fun k => k / 1024 == slot / 1024) l.flash else l.flash
  { l with flash := put (fun _ => none) flash slot (some { seq := l.next, e := e, torn := !whole }), next := l.next + 1 }

/-- An entry programmed at once, ahead of the queue: the boot ROM's (R492), and what the log is to keep of a warning that a cold reset cuts off
(R451). -/
def State.logNow (s : State) (kind sev die p0 p1 p2 : Nat) : State :=
  let sev := if kind < 0x100 then Config.mcSev kind % 4 else sev
  let e : McEntry := { kind, sev, die, p0 := p0 % 2 ^ 32, p1, p2, boot := s.mclog.boot, mctime := s.mctime, ftime := s.ftime }
  { s with mclog := s.mclog.program e true }

/-- Level of a source: 4 cold, 3 warm (R422). -/
def srcLevel (src : Nat) : Nat := if src ≤ 4 then 4 else 3

/-- Is a cold source asserted? The MC is then in reset (R422, R491). -/
def State.coldNow (s : State) : Bool := s.rst.asserted.any fun r => srcLevel r == 4

/-! ### Module health (R470, R471) -/

/-- Channels in PMAP_OUT or PMAP_PEND (R472). -/
def State.chOut (s : State) : Nat :=
  ((List.range 4).map fun j => popN 64 ((s.reg 24 .PMAP_OUT j ||| s.reg 24 .PMAP_PEND j).toNat)).foldl (· + ·) 0

/-- Edges down (R472). -/
def State.edgesDown (s : State) : Nat := ((List.range 40).filter fun e => s.edge e == .down).length

/-- C-dies out of ACTIVE in their gang (R472). -/
def State.narrowed (s : State) : Nat :=
  ((List.range 4).map fun g =>
    popN 24 (s.fld 24 .GNG_CFG g 23 0) - popN 24 (s.fld 24 .GNG_STAT g 23 0)).foldl (· + ·) 0

/-- Dies with a stopped core (R472). -/
def State.stoppedDies (s : State) : Nat := ((List.range 25).filter fun d => s.fld d .ERR_STAT 0 11 8 != 0).length

/-- Does an input of ERR_HEALTH set DEGRADED (R470)? -/
def State.degraded (s : State) : Bool :=
  let twin := s.fld 24 .TWN_STAT 0 2 0
  let hwk := s.reg 24 .HWK_STAT 0
  s.chOut != 0 || ((List.range 16).any fun k => s.flag (stackDie k) .HBM_STAT 0 1)
    || ((List.range 24).any fun d => s.flag d .SCR_PORT_STAT 0 5) || s.edgesDown != 0
    || (s.fld 24 .AGD_LSTAT 0 3 0 == 5 && s.fld 24 .AGD_LSTAT 0 5 4 != 3) || s.stoppedDies != 0
    || s.narrowed != 0 || twin == 4 || twin == 5 || bit hwk 4 || bit hwk 5

/-- Does an input of ERR_HEALTH, not a log entry, set REPLACE (R471)? -/
def State.wantsReplace (s : State) : Bool :=
  decide (16 ≤ s.chOut) || (s.fld 24 .AGD_LSTAT 0 3 0 == 5 && s.fld 24 .AGD_LSTAT 0 5 4 != 3)

/-- Is a new cartridge called for (R471)? -/
def State.cartCalled (s : State) : Bool :=
  let hwk := s.reg 24 .HWK_STAT 0
  bits hwk 2 0 == 6 || bit hwk 3 || bit hwk 4

/-- ERR_HEALTH as its inputs give it, with REPLACE as given (R470–R472). -/
def State.healthWord (s : State) (replace : Bool) : Word :=
  BitVec.ofNat 64 (b2n s.degraded + 2 * b2n replace + 4 * b2n s.cartCalled + 8 * s.chOut + 2 ^ 12 * s.edgesDown
    + 2 ^ 18 * s.narrowed + 2 ^ 23 * s.fld 24 .AGD_LSTAT 0 5 4 + 2 ^ 25 * s.stoppedDies)

/-- REPLACE set, with the MC's entry when it was not (R471, R498). -/
def State.setReplace (s : State) : State :=
  if s.flag 24 .ERR_HEALTH 0 1 then s
  else
    let v := s.healthWord true
    (s.setReg 24 .ERR_HEALTH 0 v).mcLog 0x0006 2 24 v.toNat 0 0

/-- ERR_HEALTH recomputed, as the K-die does whenever an input changes (R470): what every command ends with. -/
def State.settle (s : State) : State :=
  let s := if s.wantsReplace then s.setReplace else s
  s.setReg 24 .ERR_HEALTH 0 (s.healthWord (s.flag 24 .ERR_HEALTH 0 1))

/-- What a command answers. -/
abbrev Out := Host.Outcome State Fault Refusal

/-- A command's next state, with ERR_HEALTH recomputed. -/
def done (s : State) : Out := .next s.settle

/-! ### The ERR_ log (R468) -/

/-- Who made an access: die and unit (R468). -/
structure Req where
  die : Nat := 24
  unit : Nat := 11
  deriving DecidableEq, Repr

/-- The requester fields of a core's access (R468). -/
def reqOf (c : CoreId) : Req := ⟨(dieOf c).val, (coreK c).val⟩

/-- The classes that count as uncorrectable in ERR_CNT.UE (R472). -/
def ueClass (cls : Nat) : Bool := cls == 2 || cls == 5 || cls == 7

/-- The classes that set REPLACE (R471). -/
def replaceClass (cls : Nat) : Bool := cls == 0x0A || cls == 0x0D || cls == 0x0E || cls == 0x14

/-- An entry of a die's ERR_ log written, sent to the MC, and its interrupt sent (R468). -/
def State.logErr (s : State) (die cls sev unit : Nat) (q : Req) (addr : Option Nat) (poison : Bool) (info : Nat) : State :=
  let s := if ueClass cls then s.satFld die .ERR_CNT unit 63 32 1 else s
  let dw0 := cls + 2 ^ 8 * sev + 2 ^ 10 * unit + 2 ^ 14 * q.die + 2 ^ 19 * q.unit + 2 ^ 23 * b2n addr.isSome
    + 2 ^ 24 * b2n poison
  let a := addr.getD 0 % 2 ^ 48
  let order := look (fun _ => []) s.errOrder die
  let s :=
    match s.choose ((List.range 64).filter fun i => !order.contains i) with
    | (none, s) => s.satFld die .ERR_STAT 0 31 16 1
    | (some i, s) =>
      let s := (((s.setRegW die .ERR_LOG i 0 (BitVec.ofNat 64 dw0)).setRegW die .ERR_LOG i 1 (BitVec.ofNat 64 a)).setRegW
        die .ERR_LOG i 2 (BitVec.ofNat 64 s.time)).setRegW die .ERR_LOG i 3 (BitVec.ofNat 64 info)
      let s := { s with errOrder := put (fun _ => []) s.errOrder die (order ++ [i]) }
      s.setFld die .ERR_STAT 0 6 0 (order.length + 1)
  let s := s.mcLog (0x0100 + cls) sev die (dw0 % 2 ^ 32) a info
  let s := if s.fld die .ERR_CFG 0 5 4 ≤ sev then s.sendIrq (s.fld die .ERR_ROUTE 0 15 0) die else s
  if replaceClass cls then s.setReplace else s

/-- An entry of a class whose ADDR is the address of the failing access, where the spec gives that access none or the die no longer knows it: a
free value (R468, log entry 65). -/
def State.logSomewhere (s : State) (die cls sev unit : Nat) (q : Req) (poison : Bool) (info : Nat) : State :=
  let a := s.freeNat
  a.2.logErr die cls sev unit q (some a.1) poison info

/-- n corrected errors counted at a unit; an entry when the count crosses a multiple of 2^CESHIFT (R468). -/
def State.corrected (s : State) (die unit n : Nat) : State :=
  let q := 2 ^ s.fld die .ERR_CFG 0 3 0
  let old := s.fld die .ERR_CNT unit 31 0
  let new := satAdd (2 ^ 32 - 1) old n
  let s := s.setFld die .ERR_CNT unit 31 0 new
  if old / q < new / q then s.logErr die 0x01 0 unit ⟨die, unit⟩ none false new else s

/-- May an event be accepted, or single step be raised, at the boundary a core stands at (R40, R45, R76)? -/
def Core.boundary (x : Core) : Bool := x.slot.isNone && x.msh.isNone && decide (x.lsh.length ≤ 1)

/-- Does a core run on: it runs, and does not stand, asked to go idle, at a boundary where an event could be accepted with nothing issued (R426,
R427)? -/
def State.runs (s : State) (c : CoreId) : Bool :=
  s.running c && !(s.asked (dieOf c).val (coreK c).val && (s.core c).boundary && !(s.core c).issued)

/-- What an unacknowledged TPUSH of tile n is marked with: the code a loss is reported with is its remainder by 8 (R80, R220). -/
def tpushIdx (n : Nat) : Nat := 4 + 8 * n

/-! ### Packets on the Scrim (R15, R20, R28, R429) -/

/-- The down edge that a route crosses first, as the die before it (R20). -/
def State.downOn (s : State) (src dst : Nat) (rsp : Bool) : Option Nat :=
  let yx := s.flag src .SCR_ROUTE 0 (b2n rsp)
  ((routeEdges yx src dst).find? fun e => s.edge e.2 == .down).map (·.1)

/-- Does an edge that is not down wait for the ports of one of its dies to train (R28, R429)? -/
def State.edgeTrains (s : State) (e : Nat) : Bool :=
  let p := edgeDies e
  s.edge e != .down && !(s.flag p.1 .SCR_PORT_STAT 0 (edgeSide p.1 e) && s.flag p.2 .SCR_PORT_STAT 0 (edgeSide p.2 e))

/-- Does a request between two dies, or its response, wait for ports to train (R429)? -/
def State.pathBusy (s : State) (src dst : Nat) : Bool :=
  (routeEdges (s.flag src .SCR_ROUTE 0 0) src dst ++ routeEdges (s.flag dst .SCR_ROUTE 0 1) dst src).any fun e => s.edgeTrains e.2

/-- A packet sent from one die to another, counted on every side it goes out of up to a down edge (R20, R28). -/
def State.packet (s : State) (src dst : Nat) (rsp : Bool) : State :=
  let yx := s.flag src .SCR_ROUTE 0 (b2n rsp)
  let es := (routeEdges yx src dst).takeWhile fun e => s.edge e.2 != .down
  { s with sent := es.foldl (fun m e =>
      let k := 4 * e.1 + edgeSide e.1 e.2
      let x := look (fun _ => (0, 0)) m k
      put (fun _ => (0, 0)) m k (x.1 + 1, x.2)) s.sent }

/-- The 768-byte transfers a die has sent out of a side (R28, R467). -/
def State.transfers (s : State) (d side : Nat) : Nat := (look (fun _ => (0, 0)) s.sent (4 * d + side)).1 / 12

/-- The interrupts on their way between two dies reach their cores: a later packet of the pair does not pass them (R15, R111). -/
def State.arrive (s : State) (src dst : Nat) : State :=
  (s.flight.filter fun f => f.die == src && f.core / 4 == dst).foldl (fun s f =>
    let s := { s with flight := s.flight.erase f }
    if h : f.core < 100 then s.pendIrq ⟨f.core, h⟩ f.vec f.die else s) s

/-- A request goes from one die to another and its response back, behind the interrupts sent before it (R14, R15, R28). -/
def State.travel (s : State) (src dst : Nat) : State :=
  if src = dst then s else ((s.arrive src dst).packet src dst false).packet dst src true

/-- A request that cannot be performed yet is noted with the time it was issued (R461). -/
def State.noteWait (s : State) (q : Req) (pa : Nat) : State :=
  if s.waits.any fun w => w.die == q.die && w.unit == q.unit && w.pa == pa then s
  else { s with waits := s.waits ++ [{ die := q.die, unit := q.unit, pa, since := s.mctime }] }

/-- A request that waited has reached its home. -/
def State.endWait (s : State) (q : Req) (pa : Nat) : State :=
  { s with waits := s.waits.filter fun w => !(w.die == q.die && w.unit == q.unit && w.pa == pa) }

/-- An error response of a code logged by the die that generated it (R459, R468). -/
def State.errResponse (s : State) (gen code unit : Nat) (q : Req) (pa : Nat) : State :=
  s.logErr gen 0x04 1 unit q (some pa) false code

/-! ### Register commands (R20, R26, R27, R429, R434) -/

/-- The requester of a control-space access (R468). -/
def srcReq : Src → Req
  | .core c => reqOf c
  | .host => ⟨24, 8⟩
  | .mc => ⟨24, 11⟩

/-- A response over a down edge dropped: its requester's own timeout ends the access (R20, R461). -/
def State.answered (s : State) (q : Req) (die pa : Nat) : State :=
  if (s.downOn die q.die true).isSome then s.logErr q.die 0x05 1 q.unit q (some pa) false 0 else s

/-- A register command's access on its way to register r(i) of die d: the state at the register, or that after it was turned away: its source is
not up, the host may not reach the block, an edge of the route is down, or ports on it are in training. -/
def State.regAccess (s : State) (q : Src) (d : Nat) (r : RegName) (i : Nat) : Bool × State :=
  let rq := srcReq q
  let pa := ctrlBase + regKey d r i 0
  if !s.srcUp q || !srcMay q (regInfo r).blk then (false, s)
  else if q == .host && !s.hostMay d (regInfo r).blk then (false, (s.errResponse d 3 7 rq pa).answered rq d pa)
  else
    match s.downOn rq.die d false with
    | some e => (false, (s.errResponse e 5 7 rq pa).answered rq e pa)
    | none => if s.pathBusy rq.die d then (false, s) else (true, (s.travel rq.die d).answered rq d pa)

/-- A command that is a register access: its effect at the register. -/
def regCmd (q : Src) (d : Nat) (r : RegName) (i : Nat) (s : State) (f : State → State) : Out :=
  match s.regAccess q d r i with
  | (true, u) => done (f u)
  | (false, u) => done u

/-! ### Memory and its poison marks (R21–R25, R340–R345, R463) -/

/-- What an unlisted byte reads as: zero, since every reset that clears memory zero-fills it (R354, R357, R527). -/
def memDefault (_ : Nat) : Byte := 0

/-- The canonical form of memory. -/
def Memory.wf (m : List Host.Cell) : Bool := Sys2Proof.Machine.wf memDefault m

/-- One byte of memory. -/
def State.byte (s : State) (pa : Nat) : Byte := look memDefault s.mem pa

/-- A run of bytes. -/
def State.bytes (s : State) (pa n : Nat) : List Byte := lookRun memDefault s.mem pa n

/-- A run of bytes replaced. -/
def State.setBytes (s : State) (pa : Nat) (bs : List Byte) : State := { s with mem := putRun memDefault s.mem pa bs }

/-- One byte replaced. -/
def State.setByte (s : State) (pa : Nat) (b : Byte) : State := { s with mem := put memDefault s.mem pa b }

/-- A little-endian doubleword of memory (R30). -/
def State.mem64 (s : State) (pa : Nat) : Word := BitVec.ofNat 64 (fromBytes (s.bytes pa 8))

/-- A little-endian doubleword replaced. -/
def State.setMem64 (s : State) (pa : Nat) (v : Word) : State := s.setBytes pa (toBytes 8 v.toNat)

/-- End of the HBM range (R21). -/
def hbmEnd : Nat := 0x012000000000
/-- First byte of the tile stores (R21). -/
def tileBase : Nat := 0x100000000000
/-- First byte of the K-die SRAM window (R21). -/
def ksramBase : Nat := 0x101000000000

/-- Bytes of a poison unit: a 32-byte sector of HBM, a 64-byte line elsewhere (R463). -/
def unitSize (pa : Nat) : Nat := if pa < hbmEnd then 32 else 64

/-- First byte of the poison unit of an address. -/
def unitBase (pa : Nat) : Nat := pa - pa % unitSize pa

/-- Is the unit of an address poisoned? -/
def State.poisonedAt (s : State) (pa : Nat) : Bool := look (fun _ => false) s.poison (unitBase pa)

/-- The unit of an address marked or cleared. -/
def State.setPoison (s : State) (pa : Nat) (b : Bool) : State :=
  { s with poison := put (fun _ => false) s.poison (unitBase pa) b }

/-- Addresses of the units that n bytes at pa touch. -/
def unitsOf (pa n : Nat) : List Nat :=
  let u := unitSize pa
  let lo := pa / u
  let hi := (pa + n - 1) / u
  if n = 0 then [] else (List.range (hi + 1 - lo)).map fun i => u * (lo + i)

/-- Does any unit of n bytes at pa carry poison? -/
def State.anyPoison (s : State) (pa n : Nat) : Bool := (unitsOf pa n).any s.poisonedAt

/-- A write performed at its home (R345, R463): a unit written whole takes the mark of the data, a unit written in part
stays poisoned if it was or if the data is. -/
def State.homeWrite (s : State) (pa : Nat) (bs : List Byte) (poisoned : Bool) : State :=
  let n := bs.length
  let s := (unitsOf pa n).foldl (fun s u =>
    let whole := decide (pa ≤ u) && decide (u + unitSize u ≤ pa + n)
    let p := poisoned || (!whole && s.poisonedAt u)
    if p == s.poisonedAt u then s else s.setPoison u p) s
  s.setBytes pa bs

/-- Channels in service, ascending: ACT of R340. -/
def State.activeCh (s : State) : List Nat :=
  (List.range 256).filter fun c => !bit (s.reg 24 .PMAP_OUT (c / 64)) (c % 64)

/-- The interleave granule U (R341, R359). -/
def State.granule (s : State) : Nat :=
  match s.fld 24 .HBM_MAP 0 1 0 with
  | 1 => 1024
  | 2 => 65536
  | _ => 4096

/-- Global channel, channel offset and pseudo-channel of an HBM address (R340). -/
def State.hbmDecode (s : State) (pa : Nat) : Nat × Nat × Nat :=
  let act := s.activeCh
  let a := act.length
  let u := s.granule
  let g := pa / u
  let r := g / a
  let k := g % a
  let x := Nat.xor (Nat.xor (r % 256) (r / 256 % 256)) (r / 65536 % 256)
  let h := if s.flag 24 .HBM_MAP 0 2 then 37 * x else 0
  let o := r * u + pa % u
  (act.getD ((k + h) % a) 0, o, o / 64 % 2)

/-- Where a physical address lies (R21–R25). -/
inductive Target where
  | hbm (ch pc : Nat)
  | tile (d : Nat)
  | ksram
  | twin (off : Nat)
  | ctrl (off : Nat)
  | host (slot off : Nat)
  /-- No target, with the code of R459 and the die that generates it when it is not the requester's. -/
  | none (code : Nat) (die : Option Nat)
  deriving DecidableEq, Repr

/-- Is an offset of the K-die SRAM window populated (R25)? -/
def ksramPopulated (off : Nat) : Bool :=
  decide (off < 0x01200000) || (decide (0x02000000 ≤ off) && decide (off < 0x06000000))
    || (decide (0x08000000 ≤ off) && decide (off < 0x7D000000))

/-- The target of a physical address (R21–R25). -/
def State.decodePA (s : State) (pa : Nat) : Target :=
  if pa < hbmEnd then
    if pa < s.fld 24 .HBM_CAP 0 47 0 then
      let h := s.hbmDecode pa
      .hbm h.1 h.2.2
    else .none 1 none
  else if pa < tileBase then .none 1 none
  else if pa < tileBase + 24 * 0x80000000 then
    let d := (pa - tileBase) / 0x80000000
    if (pa - tileBase) % 0x80000000 < 0x7C000000 then .tile d else .none 2 (some d)
  else if pa < ksramBase then .none 1 none
  else if pa < ksramBase + 0x80000000 then
    if ksramPopulated (pa - ksramBase) then .ksram else .none 2 (some 24)
  else if pa < 0x200000000000 then .none 1 none
  else if pa < 0x208000000000 then .twin (pa - 0x200000000000)
  else if pa < ctrlBase then .none 1 none
  else if pa < ctrlBase + 0x19000000 then .ctrl (pa - ctrlBase)
  else if pa < 0x400000000000 then .none 1 none
  else if pa < 0x800000000000 then
    .host ((pa - 0x400000000000) / 0x4000000000) ((pa - 0x400000000000) % 0x4000000000)
  else .none 1 none

/-- The die of a target (R21). -/
def Target.die : Target → Nat
  | .hbm ch _ => stackDie (ch / 16)
  | .tile d => d
  | .ctrl off => if off / 0x1000000 = 0 then 24 else off / 0x1000000 - 1
  | _ => 24

/-- Is it ordinary memory: HBM, a tile store or the K-die SRAM window? -/
def Target.plain : Target → Bool
  | .hbm _ _ | .tile _ | .ksram => true
  | _ => false

/-- Is the channel of an HBM access refused: out of service, fenced, its stack tripped, or its pseudo-channel under a
margin test (R350, R352, R353, R355)? -/
def State.chRefused (s : State) (ch pc : Nat) : Bool :=
  let d := stackDie (ch / 16)
  bit (s.reg 24 .PMAP_OUT (ch / 64)) (ch % 64) || bit (s.reg 24 .PMAP_PEND (ch / 64)) (ch % 64)
    || s.flag d .HBM_STAT 0 1
    || (s.flag d .HBM_MRG_RES 0 33 && look (fun _ => 0) s.supply.margin d == ch % 16 + 16 * pc)

/-- Does a home have to wait for a fill or a retraining (R354, R357)? -/
def State.fills (s : State) : Target → Bool
  | .hbm ch _ => s.hbmWait.contains (ch / 16)
  | .tile d => s.tileFill.contains d
  | _ => false

/-- Does an access have to wait: for a fill or a retraining at its home, or for ports on its way (R354, R357, R429)? -/
def State.homeBusy (s : State) (q : Req) (t : Target) : Bool := s.fills t || s.pathBusy q.die t.die

/-- The unit code of a home (R472). -/
def Target.unit : Target → Nat
  | .hbm _ _ => 5
  | .tile _ | .ksram => 6
  | .twin _ => 9
  | .host _ _ => 8
  | _ => 7

/-- What an access came to. -/
inductive Acc (α : Type) where
  | ok (a : α)
  /-- An error response with its code (R459). -/
  | err (code : Nat)
  /-- Poisoned data (R463). -/
  | poison
  /-- It cannot be performed yet. -/
  | wait
  deriving DecidableEq, Repr

/-- The check an access to ordinary memory passes before it reaches its home: none when it passes, else the code, the die
and the unit that generate the error response (R20, R21, R22, R350, R353, R459). -/
def State.homeCheck (s : State) (q : Req) (pa : Nat) : Option (Nat × Nat × Nat) :=
  let t := s.decodePA pa
  match t with
  | .none code none => some (code, q.die, 7)
  | .none code (some die) => some (match s.downOn q.die die false with | some d => (5, d, 7) | none => (code, die, 7))
  | t =>
    match s.downOn q.die t.die false with
    | some d => some (5, d, 7)
    | none =>
      match t with
      | .hbm ch pc => if s.chRefused ch pc then some (4, t.die, 5) else none
      | _ => none

/-- Can the response of an access not return, for a down edge on its route (R20)? -/
def State.rspDown (s : State) (q : Req) (pa : Nat) : Bool := (s.downOn (s.decodePA pa).die q.die true).isSome

/-- A dropped response: its requester's own timeout ends the access with code 7 (R20, R461). -/
def State.rspLost (s : State) (q : Req) (pa : Nat) : State := s.logErr q.die 0x05 1 q.unit q (some pa) false 0

/-- An error response that a die gives a requester, logged by the die (R459); one that cannot cross a down edge is dropped, and the requester's
own timeout ends the access (R20). The code the requester sees, and the state. -/
def State.refuse (s : State) (q : Req) (code die unit pa : Nat) : Nat × State :=
  let s := s.errResponse die code unit q pa
  if (s.downOn die q.die true).isSome then (7, s.rspLost q pa) else (code, s)

/-- An access answered with an error response. -/
def State.refused {α : Type} (s : State) (q : Req) (code die unit pa : Nat) : Acc α × State :=
  let r := s.refuse q code die unit pa
  (.err r.1, r.2)

/-- Is a byte one of the Trowel's working state in a stream's entry, which reads undefined (R288)? -/
def State.workByte (s : State) (a : Nat) : Bool :=
  decide (ksramBase ≤ a ∧ 0x30 ≤ a % 64 ∧ (a - ksramBase) / 64 < s.fld 24 .STM_CFG 0 18 0)

/-- Bytes as a reader gets them: those of the Trowel's working state are free values (R288, log entry 2). -/
def State.asRead (s : State) (pa : Nat) (bs : List Byte) : List Byte × State :=
  if pa + bs.length ≤ ksramBase ∨ ksramBase + 64 * s.fld 24 .STM_CFG 0 18 0 ≤ pa then (bs, s)
  else (List.range bs.length).foldl (fun (r : List Byte × State) i =>
    if r.2.workByte (pa + i) then let n := r.2.freeNat; (r.1 ++ [BitVec.ofNat 8 n.1], n.2) else (r.1 ++ [bs.getD i 0], r.2)) ([], s)

/-- A request to ordinary memory at its home (R20, R21, R429, R459): the state there, or its error response, or it waits. -/
def State.atHome (s : State) (q : Req) (pa : Nat) : Acc Unit × State :=
  match s.homeCheck q pa with
  | some (code, die, unit) => (s.endWait q pa).refused q code die unit pa
  | none =>
    let t := s.decodePA pa
    if !t.plain then (s.endWait q pa).refused q 3 t.die t.unit pa
    else if s.homeBusy q t then (.wait, s.noteWait q pa)
    else (.ok (), (s.endWait q pa).travel q.die t.die)

/-- A read of n bytes at their homes by a requester, within one poison unit's line: ordinary memory only. Poison is
reported to the caller, which logs its consumption. -/
def State.plainRead (s : State) (q : Req) (pa n : Nat) : Acc (List Byte) × State :=
  match s.atHome q pa with
  | (.ok _, s) =>
    if s.rspDown q pa then (.err 7, s.rspLost q pa)
    else if s.anyPoison pa n then (.poison, s)
    else let r := s.asRead pa (s.bytes pa n); (.ok r.1, r.2)
  | (.err c, s) => (.err c, s)
  | (.poison, s) => (.poison, s)
  | (.wait, s) => (.wait, s)

/-- A write of bytes at their home by a requester: ordinary memory only. -/
def State.plainWriteMem (s : State) (q : Req) (pa : Nat) (bs : List Byte) (poisoned : Bool) : Acc Unit × State :=
  match s.atHome q pa with
  | (.ok _, s) =>
    let s := s.homeWrite pa bs poisoned
    if s.rspDown q pa then (.err 7, s.rspLost q pa) else (.ok (), s)
  | r => r

/-- Consumption of poison by a requester (class 0x03, R468). -/
def State.poisonUsed (s : State) (die unit : Nat) (q : Req) (pa info : Nat) : State :=
  s.logErr die 0x03 1 unit q (some pa) true info

/-- n bytes from a, split at multiples of sz. -/
def splitAt (sz : Nat) : Nat → Nat → Nat → List Piece
  | 0, _, _ => []
  | f + 1, a, n =>
    if n = 0 then []
    else
      let k := min n (sz - a % sz)
      ⟨a, k⟩ :: splitAt sz f (a + k) (n - k)

/-- n bytes from a, split at 64-byte lines (R53). -/
def lines (a n : Nat) : List Piece := splitAt 64 (n / 64 + 2) a n

/-- Reads of the pieces of a run in turn, up to the first that does not succeed. -/
def State.readPieces (s : State) (q : Req) : List Piece → Acc (List Byte) × State
  | [] => (.ok [], s)
  | p :: ps =>
    match s.plainRead q p.pa p.n with
    | (.ok bs, s) =>
      match s.readPieces q ps with
      | (.ok r, s) => (.ok (bs ++ r), s)
      | r => r
    | r => r

/-- Doublewords of a byte string. -/
def words64 : Nat → List Byte → List Word
  | 0, _ => []
  | n + 1, bs => BitVec.ofNat 64 (fromBytes (bs.take 8)) :: words64 n (bs.drop 8)

/-- The bytes of doublewords (R30). -/
def bytesOf (ws : List Word) : List Byte := ws.flatMap fun w => toBytes 8 w.toNat

/-- n doublewords read from ordinary memory by a requester. -/
def State.readWords (s : State) (q : Req) (pa n : Nat) : Acc (List Word) × State :=
  match s.readPieces q (lines pa (8 * n)) with
  | (.ok bs, s) => (.ok (words64 n bs), s)
  | (.err c, s) => (.err c, s)
  | (.poison, s) => (.poison, s)
  | (.wait, s) => (.wait, s)

end Sys2Proof.Machine
end

