-- ==== Sys2Proof/Machine/Link.lean ====
section
/-! DEFINITION. Packets, credit, retry and the device's requests on the Agdoa, twin and Hawk links (R360–R382, R393, R394,
R415): the shared operations under the link commands and under every access to a host window or the twin window. -/

namespace Sys2Proof.Machine

open Sys2Proof

/-- A link's place in State.links. -/
def linkIdx : LinkId → Nat
  | .agd => 0
  | .twn => 1
  | .hwk => 2

/-- Lanes of a link (R360, R393, R415). -/
def linkLanes : LinkId → Nat
  | .agd => 32
  | .twn => 16
  | .hwk => 8

/-- Unit code of a link in the ERR_ log (R472). -/
def linkUnit : LinkId → Nat
  | .agd => 8
  | .twn => 9
  | .hwk => 10

/-- A link. -/
def State.link (s : State) (l : LinkId) : Link := look (fun _ => {}) s.links (linkIdx l)

/-- A link replaced, with AGD_LSTAT and AGD_LANES reporting the Agdoa link (R392). -/
def State.setLink (s : State) (l : LinkId) (k : Link) : State :=
  let s := { s with links := put (fun _ => {}) s.links (linkIdx l) k }
  match l with
  | .agd =>
    let v := setBits (setBits (setBits (setBits (s.reg 24 .AGD_LSTAT 0) 3 0 k.state) 5 4 k.width) 7 6 k.group) 8 8 (b2n k.rev)
    (s.setReg 24 .AGD_LSTAT 0 v).setReg 24 .AGD_LANES 0 (BitVec.ofNat 64 (k.good + 2 ^ 32 * k.pol))
  | _ => s

/-- A link changed by a function. -/
def State.updLink (s : State) (l : LinkId) (f : Link → Link) : State := s.setLink l (f (s.link l))

/-- Is the link ACTIVE or RECOVERY: do requests wait for it rather than fail (R365)? -/
def State.linkUp (s : State) (l : LinkId) : Bool := (s.link l).state == 5 || (s.link l).state == 6

/-- The class of a packet type: 0 REQ, 1 RSP, 2 EVT, 3 MGT, 9 none (R369, R372, R394, R415). -/
def pktClass (type : Nat) : Nat :=
  if type = 0x20 ∨ type = 0x63 ∨ type = 0x72 then 1
  else if type = 0x31 ∨ type = 0x32 then 2
  else if type ∈ [0x40, 0x50, 0x51, 0x5F, 0x60, 0x61, 0x64, 0x73, 0x74] then 3
  else if type ≤ 1 then 9
  else 0

/-- Types that end with a tag chunk in a twin session (R394). -/
def protectedType (type : Nat) : Bool := type ∈ [0x62, 0x63, 0x64, 0x65]

/-- LEN of a packet in chunks (R368, R372); a protected packet ends with its tag chunk (R394), which its data holds once it is sealed. -/
def Pkt.len (p : Pkt) : Nat := 1 + (p.data.length + 15) / 16 + b2n (protectedType p.type && !p.sealed)

/-- The header chunk of a packet of a length in chunks (R371). -/
def Pkt.header (p : Pkt) (len : Nat) : List Byte :=
  toBytes 8 (p.type + 2 ^ 8 * len + 2 ^ 18 * p.tag + 2 ^ 32 * p.a) ++ toBytes 8 p.b

/-- Sequenced flits of 40 chunks a packet takes; the model starts each packet in a flit of its own (R361, log entry 12). -/
def Pkt.flits (p : Pkt) : Nat := (p.len + 39) / 40

/-- Can the packet go now: credit for its class (R369) and room in the retry buffer (R366)? -/
def Link.fits (k : Link) (p : Pkt) : Bool :=
  (pktClass p.type == 9 || decide (p.len ≤ k.credit.getD (pktClass p.type) 0)) && decide (k.tx - k.acked + p.flits ≤ 256)

/-- The flit control word of an idle flit (none) or of sequenced flit n (R362): FSEQ and SEQD; ACK, the last flit accepted in order; ACKV. -/
def Link.fcwOf (k : Link) (n : Option Nat) : BitVec 20 :=
  let seq := match n with | some n => n % 512 + 2 ^ 9 | none => 0
  BitVec.ofNat 20 (if k.rx = 0 then seq else seq + 2 ^ 10 * ((k.rx - 1) % 512) + 2 ^ 19)

/-- The data of a packet in whole chunks (R368). -/
def padded (bs : List Byte) : List Byte := bs ++ List.replicate ((16 - bs.length % 16) % 16) 0

/-- The encryption of a protected packet's chunks and its tag, with the key of a direction, B to A or not, and the count of the packet in it
(R394, R396). The byte order of the nonce and how a part chunk is filled are not stated: the lowest byte first, and zeros (DESIGN CHOICE, log
entry 16). -/
def gcmChunks (key : List Byte) (fromB : Bool) (count : Nat) (p : Pkt) : List Byte :=
  let plain := padded p.data
  gcm key (toBytes 12 (count + 2 ^ 95 * b2n fromB)) (p.header p.len) plain

/-- A packet as it is sent: a protected one as ciphertext chunks and the tag chunk, under the key and the count of its direction (R394, R396). -/
def Link.seal (k : Link) (p : Pkt) : Pkt :=
  if protectedType p.type && !p.sealed then { p with data := gcmChunks k.key k.fromB k.count p, sealed := true } else p

/-- A packet sent: its credit used, its flits in the retry buffer, a protected one sealed as it leaves; the control word is that of its last flit
(R362, R366, R369, R396). -/
def Link.transmit (k : Link) (p : Pkt) : Link :=
  let c := pktClass p.type
  { k with
    credit := if c = 9 then k.credit else setAt k.credit c (k.credit.getD c 0 - p.len)
    tx := k.tx + p.flits
    fcw := k.fcwOf (some (k.tx + p.flits - 1))
    sent := k.sent ++ [(k.tx + p.flits - 1, k.seal p)]
    count := k.count + b2n (protectedType p.type) }

/-- An idle flit sent (R361, R362, R366): it carries ACK. -/
def Link.idle (k : Link) : Link := { k with fcw := k.fcwOf none }

/-- The waiting packets sent as far as credit and room allow, in order within each class, no EVT packet before a DWR that
waits ahead of it (R369, R380); with the packets that still wait. -/
def Link.pumpOver (k : Link) (blocked : List Nat) : List Pkt → Link × List Pkt
  | [] => (k, [])
  | p :: ps =>
    let c := pktClass p.type
    if !blocked.contains c && k.fits p then (k.transmit p).pumpOver blocked ps
    else
      let r := k.pumpOver (c :: (if p.type = 0x12 then 2 :: blocked else blocked)) ps
      (r.1, p :: r.2)

/-- The waiting packets sent while the link is ACTIVE; an idle flit where none of them can go (R366). -/
def Link.pump (k : Link) : Link :=
  if k.state = 5 then
    let r := k.pumpOver [] k.wait
    let t : Link := { r.1 with wait := r.2 }
    if t.tx = k.tx then t.idle else t
  else k

/-- A packet handed to a link. -/
def State.send (s : State) (l : LinkId) (p : Pkt) : State := s.updLink l fun k => { k with wait := k.wait ++ [p] }.pump

/-- An acknowledgement of every flit up to f (R366). -/
def Link.ackTo (k : Link) (f : Nat) : Link :=
  let n := (f + 1 + 512 - k.acked % 512) % 512
  if n = 0 ∨ k.tx < k.acked + n then k
  else
    let a := k.acked + n
    { k with acked := a, sent := k.sent.filter fun e => decide (a ≤ e.1) }.pump

/-- Packets of a link's retry buffer and queue. -/
def Link.unsent (k : Link) : List Pkt := k.sent.map (·.2) ++ k.wait

/-- Is an owner on the K-die: the Trowel, a mover, the gang control? -/
def Own.kdie : Own → Bool
  | .stream _ | .tier _ | .log | .restore | .gang _ | .window _ | .pref _ _ | .pre _ | .past _ | .echo => true
  | _ => false

/-- The requester an owner stands for (R468). -/
def Own.req : Own → Req
  | .core c | .vec c | .tile c | .quarter c _ _ => ⟨c / 4, c % 4⟩
  | .unit d u => ⟨d, u⟩
  | _ => ⟨24, 11⟩

/-- Have some owners a posted host write or a mirror write that has not been performed (R82, R382, R398)? -/
def State.postedFor (s : State) (p : Own → Bool) : Bool :=
  ((s.link .agd).unsent.any fun k => k.type == 0x12 && p k.own) || (s.dwrLost.any fun k => p k.own) || s.twin.mirw.any fun m => p m.own

/-- Does an owner have one? -/
def State.postedBy (s : State) (own : Own) : Bool := s.postedFor (· == own)

/-! ### Completion and event packets (R378, R379) -/

/-- May another EVT packet be held (R380)? -/
def State.evtRoom (s : State) : Bool := decide (((s.link .agd).wait.filter fun p => pktClass p.type == 2).length < 4096)

/-- A completion packet (R378). -/
def State.sendScpl (s : State) (stream : Nat) (conly : Bool) (seq ctag credit expseq time : Nat) : State :=
  s.send .agd { type := 0x31, a := stream + 2 ^ 18 * b2n conly, b := seq + 2 ^ 32 * ctag
                data := toBytes 8 (credit + 2 ^ 32 * expseq) ++ toBytes 8 time }

/-- An event packet (R379). -/
def State.sendSevt (s : State) (kind code xcode b seq expseq credit value : Nat) : State :=
  if !s.evtRoom then s else
  s.send .agd { type := 0x32, a := kind + 2 ^ 8 * code + 2 ^ 16 * xcode, b := b
                data := toBytes 8 (seq + 2 ^ 32 * expseq) ++ toBytes 8 credit ++ toBytes 8 value ++ toBytes 8 s.time }

/-! ### Outbound host windows (R381, R382) -/

/-- The host address of an access to a host window, or the code and the die of its error response (R381). -/
def State.hostAddr (s : State) (q : Req) (slot off : Nat) (write : Bool) : Nat × Nat ⊕ Nat :=
  let owc := s.reg 24 .AGD_OWC slot
  let size := min (bits owc 26 0) 67108864 * 4096
  if !bit owc 28 || size ≤ off then .inl (1, q.die)
  else if write && bit owc 27 then .inl (3, 24)
  else if !s.linkUp .agd then .inl (6, 24)
  else .inr ((bits (s.reg 24 .AGD_OWB slot) 63 12 * 4096 + off) % 2 ^ 64)

/-- The part of an access to a host window that lies within one slot has one host address; n bytes there. -/
structure HostPiece where
  pa : Nat
  host : Nat
  n : Nat
  deriving DecidableEq, Repr

/-- The pieces of an access to a host window with their host addresses, or the first error response. -/
def State.hostPieces (s : State) (q : Req) (write : Bool) : List Piece → (Nat × Nat × Nat) ⊕ List HostPiece
  | [] => .inr []
  | p :: ps =>
    match s.decodePA p.pa with
    | .host slot off =>
      match s.hostAddr q slot off write with
      | .inl e => .inl (e.1, e.2, p.pa)
      | .inr h =>
        match s.hostPieces q write ps with
        | .inr r => .inr (⟨p.pa, h, p.n⟩ :: r)
        | e => e
    | _ => .inl (1, q.die, p.pa)

/-- Tags that no outstanding DRD or orphan holds (R374). -/
def State.freeDrdTags (s : State) : List Nat :=
  (List.range 1024).filter fun t => !(s.drds.any fun d => d.tag == t && d.ans.isNone && !d.held)

/-- The read of a part by an owner: decoded, outstanding or answered. -/
def State.drdOf (s : State) (own : Own) (p : Piece) : Option Drd :=
  s.drds.find? fun d => d.own == own && d.pa == p.pa && d.n == p.n

/-- The reads of owners that are gone: those not answered keep their tags as orphans, the answered ones are given up (R374). -/
def State.orphanFor (s : State) (p : Own → Bool) : State :=
  let orphan (d : Drd) : Drd := if p d.own then { d with own := .none } else d
  { s with drds := (s.drds.filter fun d => !(p d.own && (d.ans.isSome || d.held))).map orphan }

/-- The reads of one owner that is gone. -/
def State.orphanDrds (s : State) (own : Own) : State := s.orphanFor (· == own)

/-- A DRD sent for a decoded read, while a tag is free (R374, R382). -/
def State.issueDrd (s : State) (d : Drd) : State :=
  match s.choose s.freeDrdTags with
  | (none, s) => s
  | (some t, s) =>
    let s := { s with drds := s.drds.map fun e => if e == d then { e with tag := t, held := false, since := s.mctime } else e }
    s.send .agd ({ type := 0x13, tag := t, a := d.n - 1, b := d.addr, own := d.own } : Pkt)

/-- DRDs sent for the decoded reads of an owner in turn. -/
def State.issueDrds (s : State) (own : Own) : State :=
  (s.drds.filter fun d => d.own == own && d.held && d.ans.isNone).foldl State.issueDrd s

/-- The parts of a read of a host window asked for (R381, R382): one that has begun keeps the window entries it was decoded with, another is
decoded now; DRDs go as tags allow. The code, die and address of the first part that fails its decode. -/
def State.hostAsk (s : State) (own : Own) (q : Req) (ps : List Piece) : (Nat × Nat × Nat) ⊕ State :=
  if ps.any (fun p => (s.drdOf own p).isSome) then .inr (s.issueDrds own)
  else
    match s.hostPieces q false ps with
    | .inl e => .inl e
    | .inr hs =>
      let new := hs.map fun h => ({ own, pa := h.pa, addr := h.host, n := h.n, held := true } : Drd)
      .inr ({ s with drds := s.drds ++ new }.issueDrds own)

/-- What the answers to a read's pieces come to: the data, the first failure, or nothing yet. Statuses from 16 up are
error responses the device gave, with their code. -/
def State.gatherDrds (s : State) (own : Own) : List Piece → Acc (List Byte)
  | [] => .ok []
  | h :: hs =>
    match (s.drdOf own h).bind (·.ans) with
    | none => .wait
    | some (st, bs) =>
      match s.gatherDrds own hs with
      | .wait => .wait
      | r =>
        if st = 0 then (match r with | .ok rest => .ok (bs ++ rest) | e => e)
        else if st = 2 then .poison
        else if 16 ≤ st then .err (st - 16)
        else .err 3

/-- A read of a host window by an owner, split into parts of at most `lim` bytes: the DRDs are issued, and when every one
has been answered the read has its result (R374, R381, R382). The answers stay until the whole access has ended. -/
def State.hostFetch (s : State) (own : Own) (q : Req) (lim pa n : Nat) : Acc (List Byte) × State :=
  let ps := splitAt lim (n / lim + 2) pa n
  match s.hostAsk own q ps with
  | .inl (code, die, at_) => (.err code, s.errResponse die code (if die = 24 then 8 else 7) q at_)
  | .inr s =>
    match s.gatherDrds own ps with
    | .err 3 => (.err 3, s.errResponse 24 3 8 q pa)
    | r => (r, s)

/-- What an access comes to for its owner; one that has ended gives up its answers. -/
def Acc.used {α : Type} (own : Own) (ps : List Piece) (r : Acc α × State) : Acc α × State :=
  match r with
  | (.wait, s) => (.wait, s)
  | (a, s) =>
    (a, { s with drds := s.drds.filter fun d => !(d.own == own && d.ans.isSome && ps.any fun p => decide (p.pa ≤ d.pa ∧ d.pa < p.pa + p.n)) })

/-- A DWR of bytes that an owner writes at device address pa, to a host address (R381, R382). -/
def State.postDwr (s : State) (own : Own) (pa host : Nat) (bs : List Byte) : State :=
  s.send .agd { type := 0x12, a := bs.length - 1, b := host, data := bs, own := own, pa := pa, since := s.mctime }

/-- A write to a host window posted as DWRs of at most `lim` bytes (R381, R382). -/
def State.hostPost (s : State) (own : Own) (q : Req) (lim pa : Nat) (bs : List Byte) : Acc Unit × State :=
  match s.hostPieces q true (splitAt lim (bs.length / lim + 2) pa bs.length) with
  | .inl (code, die, at_) => (.err code, s.errResponse die code (if die = 24 then 8 else 7) q at_)
  | .inr hs =>
    (.ok (), hs.foldl (fun s h => s.postDwr own h.pa h.host ((bs.drop (h.pa - pa)).take h.n)) s)

/-! ### The twin window (R23, R398) -/

/-- Does an authenticated twin session exist (R23, R396)? -/
def State.twinUp (s : State) : Bool := s.twin.session && s.linkUp .twn

/-- Freely drawn bytes. -/
def State.drawBytes (s : State) (n : Nat) : List Byte × State :=
  (bytesBy (fun i => Config.freeByte (s.free + i)) n, { s with free := s.free + n })

/-- The tag chunk of a packet from the partner under a key and count, for what its chunks decrypt to (R394). -/
def State.peerTag (s : State) (key : List Byte) (count : Nat) (p : Pkt) : List Byte :=
  (gcmChunks key (!s.twin.roleB) count p).drop (padded p.data).length

/-- A packet from the partner with its tag chunk: is the tag the one its direction's key gives, and the counts after it. Role A, which cannot
see message 3 accepted, takes the key before until the partner has used the new one (R397; DEDUCED, log entry 16). -/
def State.tagCheck (s : State) (p : Pkt) (mac : List Byte) : Bool × State :=
  if s.peerTag (if s.twin.roleB then s.twin.keyAB else s.twin.keyBA) s.twin.rxCount p = mac then
    (true, { s with twin := { s.twin with rxCount := s.twin.rxCount + 1, oldRx := none } })
  else
    match s.twin.oldRx with
    | some (key, n) => (s.peerTag key n p == mac, { s with twin := { s.twin with oldRx := some (key, n + 1) } })
    | none => (false, { s with twin := { s.twin with rxCount := s.twin.rxCount + 1 } })

/-- The base point of X25519 (R396). -/
def x25519Base : List Byte := 9 :: List.replicate 31 0

/-- The bytes of an info string (R396, R483). -/
def infoBytes (t : String) : List Byte := t.toList.map fun c => BitVec.ofNat 8 c.toNat

/-- The direction keys A to B and B to A of an exchange: input keying material and the final H (R396). -/
def twinKeys (ikm h : List Byte) : List Byte × List Byte :=
  (hkdf 32 ikm h (infoBytes "JZ2524 twin A>B"), hkdf 32 ikm h (infoBytes "JZ2524 twin B>A"))

/-- Message 1 of the exchange, from role A (R396): certificate, X25519 key, encapsulation key, nonce. The ephemeral secrets and the nonce are
drawn freely; the secrets are kept in the session's own registers until message 2. -/
def State.authMsg1 (s : State) : List Byte × State :=
  let sec := s.drawBytes 96
  let nonce := sec.2.drawBytes 32
  let s := nonce.2
  (certBytes ++ x25519 (sec.1.take 32) x25519Base ++ kemKey (sec.1.drop 32) ++ nonce.1,
    { s with twin := { s.twin with eph := sec.1 } })

/-- AUTH fragments of a message (R394). -/
def State.sendAuth (s : State) (msg : Nat) (data : List Byte) : State :=
  let n := (data.length + 4063) / 4064
  (List.range n).foldl (fun s i =>
    s.send .twn { type := 0x61, a := msg + 2 ^ 8 * i + 2 ^ 16 * n, b := data.length, data := (data.drop (4064 * i)).take 4064 }) s

/-- Role A repeats the key exchange under the session (R397). In role B there is nothing to send: R396's first message is A's, and the counts of
both directions are tested in A. -/
def State.rekey (s : State) : State :=
  if s.twinUp && s.twin.auth == 3 && !s.flag 24 .TWN_STAT 0 3 then
    let m := s.authMsg1
    ({ m.2 with twin := { m.2.twin with auth := 1, transcript := m.2.twin.transcript.take 64 ++ m.1 } }).sendAuth 1 m.1
  else s

/-- The keys are renewed once the count of a direction has reached 2⁴⁰ (R397). -/
def State.rekeyDue (s : State) : State := if 2 ^ 40 ≤ max (s.link .twn).count s.twin.rxCount then s.rekey else s

/-- A protected packet handed to the twin link (R394, R397). -/
def State.twinSend (s : State) (p : Pkt) : State := (s.send .twn p).rekeyDue

/-- Are the tags of n more mirror writes free (R398)? -/
def State.mirrorRoom (s : State) (n : Nat) : Bool := decide (s.twin.mirw.length + n ≤ 16384)

/-- A mirror write of each piece, with a tag none outstanding holds (R398). -/
def State.mirrorOut (s : State) (own : Own) (lsn off : Nat) (bs : List Byte) : List Piece → State
  | [] => s
  | p :: ps =>
    let used := s.twin.mirw.map (·.tag)
    let tag := ((List.range 16384).find? fun t => !used.contains t).getD 0
    let s := { s with twin := { s.twin with mirw := s.twin.mirw ++ [({ tag, own, off := p.pa, n := p.n, lsn, since := s.mctime } : Mirw)] } }
    (s.twinSend ({ type := 0x62, tag, a := p.n - 1, b := p.pa, data := (bs.drop (p.pa - off)).take p.n, own } : Pkt)).mirrorOut
      own lsn off bs ps

/-- A write to the twin window at an offset: MIRW packets of up to 2,048 bytes that cross no 2 KiB boundary (R398), or
code 6 without a session (R23). It waits while the tags are out. -/
def State.twinPost (s : State) (own : Own) (q : Req) (lsn off : Nat) (bs : List Byte) : Acc Unit × State :=
  let ps := splitAt 2048 (bs.length / 2048 + 2) off bs.length
  if !s.twinUp then (.err 6, s.errResponse 24 6 9 q (0x200000000000 + off))
  else if !s.mirrorRoom ps.length then (.wait, s)
  else (.ok (), s.mirrorOut own lsn off bs ps)

/-- What has been posted goes on for other owners. -/
def State.renamePosts (s : State) (f : Own → Own) : State :=
  let pkt (p : Pkt) : Pkt := { p with own := f p.own }
  let s := s.updLink .agd fun k => { k with wait := k.wait.map pkt, sent := k.sent.map fun e => (e.1, pkt e.2) }
  { s with twin := { s.twin with mirw := s.twin.mirw.map fun m => { m with own := f m.own } }, dwrLost := s.dwrLost.map pkt }

/-- What owners that have ended have posted goes on for nobody (R374, R411): their packets, mirror and cartridge writes, and their reads. -/
def State.orphanPostsFor (s : State) (f : Own → Bool) : State :=
  let pkt (p : Pkt) : Pkt := if f p.own then { p with own := .none } else p
  let wr (m : Mirw) : Mirw := if f m.own then { m with own := .none } else m
  let s := s.updLink .agd fun k => { k with wait := k.wait.map pkt, sent := k.sent.map fun e => (e.1, pkt e.2) }
  { s with
    twin := { s.twin with mirw := s.twin.mirw.map wr }
    dwrLost := s.dwrLost.map pkt
    hawk := { s.hawk with writes := s.hawk.writes.map wr } }.orphanFor f

/-- What one owner has posted goes on for nobody. -/
def State.orphanPosts (s : State) (own : Own) : State := s.orphanPostsFor (· == own)

/-- A byte range of the module's own Skim region, 512 GiB at TWN_SKIM.BASE, under SKIMPROT (R398)? -/
def State.skimProtected (s : State) (pa n : Nat) : Bool :=
  let base := s.fld 24 .TWN_SKIM 0 47 0
  s.flag 24 .TWN_CTL 0 4 && s.twin.group.isSome && decide (pa < base + 0x8000000000) && decide (base < pa + n)

/-! ### Retraining (R365) -/

/-- A saturating count of AGD_RECOV (R392). -/
def State.countRecov (s : State) (l : LinkId) (retrain : Bool) : State :=
  match l with
  | .agd => if retrain then s.satFld 24 .AGD_RECOV 0 63 32 1 else s.satFld 24 .AGD_RECOV 0 31 0 1
  | _ => s

/-- A link recovery or retrain logged with the resulting width (class 0x0B, R467, R468). -/
def State.logLink (s : State) (l : LinkId) (width : Nat) : State :=
  let full := match l with | .agd => 3 | .twn => 2 | .hwk => 1
  s.logErr 24 0x0B (if width < full then 2 else 1) (linkUnit l) ⟨24, linkUnit l⟩ none false (linkIdx l + 4 * width)

/-- Outstanding device reads of host memory receive an error response of code 6, logged with the address read, and free their tags (R365,
R468). -/
def State.failDrds (s : State) : State :=
  let lost := s.drds.filter fun d => d.ans.isNone && d.own != .none
  let s := { s with drds := (s.drds.filter fun d => d.own != .none).map fun d =>
    if d.ans.isNone then { d with ans := some (22, []) } else d }
  lost.foldl (fun s d => s.errResponse 24 6 8 d.own.req d.pa) s

/-- The DWRs of a list that is discarded: their acknowledgement will not come (R365, R382, R465). -/
def State.dropDwrs (s : State) (l : List Pkt) : State :=
  { s with dwrLost := s.dwrLost ++ l.filter fun p => p.type == 0x12 && p.own != .none }

/-- What a link holds after a retrain: nothing in flight, credits to come from the next PARAM, completion and event packets
not sent kept (R365), and the width until the next ALIGN (R364). -/
def Link.retrained (k : Link) (state : Nat) : Link :=
  { state := state, width := k.width, group := k.group, rev := k.rev, good := k.good, pol := k.pol
    wait := k.wait.filter fun p => pktClass p.type == 2, relog := k.relog || k.state == 5 || k.state == 6 }

/-- A return to DETECT or DISABLED from a trained state, with the effects of a retrain on the link itself (R365). -/
def State.retrainLink (s : State) (l : LinkId) (state : Nat) : State :=
  let old := (s.link l).state
  let s := s.dropDwrs (s.link l).unsent
  let s := s.updLink l fun k => k.retrained state
  let s := if old = 5 ∨ old = 6 then (if l = .agd then { s.failDrds with sync := { s.sync with out := none } } else s) else s
  if 3 ≤ old ∧ state = 1 then s.countRecov l true else s

/-- An entry to RECOVERY (R363, R365). -/
def State.recoverLink (s : State) (l : LinkId) : State :=
  let s := s.updLink l fun k => { k with state := 6, badRun := 0, replays := 0 }
  (s.countRecov l false).logLink l (s.link l).width

/-- Credit for the chunks of a received packet is owed to its sender once the packet has left its buffer (R369, R370). -/
def State.owe (s : State) (l : LinkId) (cls n : Nat) : State :=
  s.updLink l fun k => { k with owed := setAt k.owed cls (k.owed.getD cls 0 + n) }

/-- Requests to the cartridge end: those that were outstanding, reads and writes, get an error response of code 6 (R365, R418). -/
def State.hawkDown (s : State) : State :=
  let lost := ((s.hrds.filter fun d => d.ans.isNone && d.own != .none).map (·.addr)) ++ s.hawk.writes.map (·.off)
  let s := { s with
    hrds := (s.hrds.filter fun d => d.own != .none).map fun d => if d.ans.isNone then { d with ans := some (22, []) } else d
    hawk := { s.hawk with writes := [] } }
  lost.foldl (fun s a => s.errResponse 24 6 10 ⟨24, 11⟩ (a % 2 ^ 48)) s

/-- A CPL to the host (R372, R374). -/
def State.sendCpl (s : State) (tag status : Nat) (data : List Byte) : State :=
  s.send .agd { type := 0x20, tag := tag, a := status + 2 ^ 4 * (data.length - 1), data := data, poison := status == 2 }

/-- A malformed packet: discarded, logged as class 0x11, its credit returned (R372, R468). -/
def State.malformed (s : State) (l : LinkId) (type len : Nat) : State :=
  (s.logErr 24 0x11 1 (linkUnit l) ⟨24, linkUnit l⟩ none false type).owe l (pktClass type) len

/-- A packet of a reserved TYPE, a wrong LEN or an RSV bit set (R372): an MRD, or an MWR with ACKREQ = 1, is answered with status 3. The class
whose credit a reserved TYPE has used is not stated: REQ (DESIGN CHOICE, log entry 68). -/
def State.discardOdd (s : State) (l : LinkId) (p : OddPkt) : State :=
  let s := s.malformed l p.type.toNat p.len.toNat
  if l = .agd ∧ (p.type = 0x11 ∨ (p.type = 0x10 ∧ p.ackreq)) then s.sendCpl p.tag.toNat 3 [] else s

end Sys2Proof.Machine
end

