-- ==== Sys2Proof/Machine/Xlate.lean ====
section
/-! DEFINITION. Page tables, walks, translation caches and the fault queue (R123–R141). -/

namespace Sys2Proof.Machine

open Sys2Proof

/-- Bits of la below the page of a level: a leaf at level lvl maps 2^n bytes (R125). -/
def pageShift (lvl : Nat) : Nat := if lvl = 1 then 36 else if lvl = 2 then 30 else 25

/-- The table index of a level (R125). -/
def tableIdx (lvl la : Nat) : Nat :=
  if lvl = 1 then la / 2 ^ 36 % 65536 else if lvl = 2 then la / 2 ^ 30 % 64 else la / 2 ^ 25 % 32

/-- V of a table entry (R126). -/
def entryV (e : Word) : Bool := bit e 0
/-- LEAF of a table entry (R126). -/
def entryLeaf (e : Word) : Bool := bit e 1
/-- The physical address in a table entry (R126). -/
def entryAddr (e : Word) : Nat := bits e 47 8 * 256

/-- Is a valid entry of a level malformed (R126)? -/
def entryMalformed (lvl : Nat) (e : Word) : Bool :=
  let need := if entryLeaf e then pageShift lvl else if lvl = 1 then 9 else 8
  bits e 7 6 != 0 || bits e 63 48 != 0 || (!entryLeaf e && lvl == 3) || entryAddr e % 2 ^ need != 0

/-- What a walk came to: a leaf with its level, a fault with cause and level (R127), or it cannot go on yet. -/
inductive Walk where
  | leaf (lvl : Nat) (e : Word)
  | fault (cause lvl : Nat)
  | wait
  deriving DecidableEq, Repr

/-- The permission checks of a leaf at ring c (R127): the cause, or none. -/
def permFault (e : Word) (ring : Nat) (write fetch : Bool) : Option Nat :=
  if write && !bit e 2 then some 1
  else if fetch && !bit e 3 then some 2
  else if bits e 5 4 < ring then some 3
  else none

/-- A walk over the levels given, reading entries with `rd` (R127). -/
def walkOver (rd : State → Nat → Acc Word × State) (s : State) (la base : Nat) : List Nat → Walk × State
  | [] => (.fault 4 3, s)
  | lvl :: ls =>
    match rd s (base + 8 * tableIdx lvl la) with
    | (.wait, s) => (.wait, s)
    | (.err _, s) | (.poison, s) => (.fault 5 lvl, s)
    | (.ok e, s) =>
      if !entryV e then (.fault 0 lvl, s)
      else if entryMalformed lvl e then (.fault 4 lvl, s)
      else if entryLeaf e then (.leaf lvl e, s)
      else walkOver rd s la (entryAddr e) ls

/-- A table entry read at its home by a requester (R128): only HBM, tile stores and the K-die SRAM hold tables. -/
def State.tableHome (s : State) (q : Req) (pa : Nat) : Acc Word × State :=
  if !(s.decodePA pa).plain then (.err 2, s)
  else
    match s.plainRead q pa 8 with
    | (.ok bs, s) => (.ok (BitVec.ofNat 64 (fromBytes bs)), s)
    | (.err c, s) => (.err c, s)
    | (.poison, s) => (.poison, s.poisonUsed q.die q.unit q pa 6)
    | (.wait, s) => (.wait, s)

/-- The physical address a leaf gives (R127). -/
def leafPa (lvl : Nat) (e : Word) (la : Nat) : Nat := entryAddr e + la % 2 ^ pageShift lvl

/-- The cached leaf for an address under a table, if there is one (R129). -/
def tlbHit (l : List TlbEntry) (tbase la : Nat) : Option TlbEntry :=
  l.find? fun t => t.tbase == tbase && t.la == la - la % 2 ^ pageShift t.level

/-- An entry added to a translation cache of n entries: the newest first (R130; replacement is not architectural). -/
def tlbAdd (n : Nat) (l : List TlbEntry) (t : TlbEntry) : List TlbEntry := (t :: l.filter (· != t)).take n

/-- What a translation came to. -/
inductive XRes where
  | ok (pa : Nat)
  | fault (cause lvl : Nat)
  | wait
  deriving DecidableEq, Repr

/-- The translation cache a requester that is not a core uses, and its entries (R130). -/
def devTlb (die eng : Nat) : Nat × Nat := if die < 24 then (die, 128) else if eng = 0 then (24, 2048) else (25, 256)

/-- The translation epoch (R132). -/
def State.epochCur (s : State) : Nat := s.fld 24 .TRW_EPOCH 0 31 0

/-- May a cached leaf be used: in the Trowel TLB one whose tag is CUR while no round is in progress (R134)? -/
def State.tagOk (s : State) (slot : Nat) (t : TlbEntry) : Bool :=
  slot != 24 || (t.tag == s.epochCur && !s.flag 24 .TRW_EPOCH 0 32)

/-- The stream of a pre-translation (R333). -/
def Own.preOf (o : Own) : Option Nat :=
  match o with
  | .pre st => some st
  | _ => Option.none

/-- A walk for a requester that is not a core; its leaf goes into the requester's translation cache, tagged (R130, R134). -/
def State.walkDev (s : State) (q : Req) (eng : Nat) (pre : Option Nat) (tbase la : Nat) : Walk × State :=
  match walkOver (fun s pa => s.tableHome q pa) s la tbase [1, 2, 3] with
  | (.leaf lvl e, s) =>
    let d := devTlb q.die eng
    let l := (look (fun _ => []) s.dtlb d.1).filter fun t => !(t.tbase == tbase && t.la == la - la % 2 ^ pageShift t.level)
    let t : TlbEntry := { tbase, la := la - la % 2 ^ pageShift lvl, level := lvl, entry := e, tag := s.epochCur, pre }
    (.leaf lvl e, { s with dtlb := put (fun _ => []) s.dtlb d.1 (tlbAdd d.2 l t) })
  | r => r

/-- The usable leaf a requester's translation cache holds for an address, none when a fresh walk is asked for (R139): used, or evicted by then
and gone (R129, R134, R528). -/
def State.devLeaf (s : State) (slot : Nat) (fresh : Bool) (tbase la : Nat) : Option TlbEntry × State :=
  match if fresh then none else (tlbHit (look (fun _ => []) s.dtlb slot) tbase la).filter (s.tagOk slot) with
  | none => (none, s)
  | some t =>
    let use := s.freeBool
    let l := (look (fun _ => []) use.2.dtlb slot).filter (· != t)
    if use.1 then (some t, use.2) else (none, { use.2 with dtlb := put (fun _ => []) use.2.dtlb slot l })

/-- Translation for a requester that is not a core (R123, R127–R129): a cached leaf may be used or the tables walked; `fresh` asks for
the walk (R139). -/
def State.xlateDev (s : State) (q : Req) (eng : Nat) (own : Own) (fresh : Bool) (ptb : Word) (ring la : Nat) (write : Bool) : XRes × State :=
  if !bit ptb 0 then (if la < 2 ^ 48 then (.ok la, s) else (.fault 4 0, s))
  else
    let tbase := bits ptb 47 19 * 2 ^ 19
    let slot := (devTlb q.die eng).1
    let fin (lvl : Nat) (e : Word) : XRes :=
      match permFault e ring write false with
      | some cause => .fault cause lvl
      | none => .ok (leafPa lvl e la)
    match s.devLeaf slot fresh tbase la with
    | (some t, s) => (fin t.level t.entry, s)
    | (none, s) =>
      match s.walkDev q eng own.preOf tbase la with
      | (.leaf lvl e, s) => (fin lvl e, s)
      | (.fault c l, s) => (.fault c l, s)
      | (.wait, s) => (.wait, s)

/-! ### The fault queue (R136–R141) -/

/-- Requesters on a record, in join order. -/
def State.joined (s : State) (i : Nat) : List Waiter := look (fun _ => []) s.fqJoin i

/-- STATE of a record: 0 FREE, 1 NEW, 2 IN_SERVICE. -/
def State.recState (s : State) (i : Nat) : Nat := bits (s.regW 24 .FQ_REC i 2) 34 33

/-- FQ_STAT kept in step with the records (R141). -/
def State.fqSync (s : State) : State :=
  let used := ((List.range 256).filter fun i => s.recState i != 0).length
  let new := ((List.range 256).filter fun i => s.recState i == 1).length
  s.setReg 24 .FQ_STAT 0 (setBits (setBits (setBits (s.reg 24 .FQ_STAT 0) 8 0 used) 17 9 new) 18 18 (b2n (!s.fqWait.isEmpty)))

/-- List slot j of a record replaced. -/
def State.setListSlot (s : State) (i j v : Nat) : State :=
  s.setRegW 24 .FQ_REC i (3 + j / 4) (setBits (s.regW 24 .FQ_REC i (3 + j / 4)) (16 * (j % 4) + 15) (16 * (j % 4)) v)

/-- List slot j of a record. -/
def State.listSlot (s : State) (i j : Nat) : Nat := bits (s.regW 24 .FQ_REC i (3 + j / 4)) (16 * (j % 4) + 15) (16 * (j % 4))

/-- The list slot of a requester (R141). -/
def Waiter.slot (w : Waiter) : Nat :=
  w.die + 2 ^ 5 * w.eng + 2 ^ 9 * b2n w.write + 2 ^ 10 * w.cause + 2 ^ 15

/-- A requester joins a record (R137). -/
def State.fqJoinRec (s : State) (i : Nat) (w : Waiter) : State :=
  let l := s.joined i ++ [w]
  let s := { s with fqJoin := put (fun _ => []) s.fqJoin i l }
  let s := s.setRegW 24 .FQ_REC i 2 (setBits (s.regW 24 .FQ_REC i 2) 31 16 l.length)
  match (List.range 16).find? fun j => !(s.listSlot i j).testBit 15 with
  | some j => s.setListSlot i j w.slot
  | none => s

/-- The record a fault joins: the one with its key that is NEW or IN_SERVICE (R137). -/
def State.recFor (s : State) (w : Waiter) : Option Nat :=
  (List.range 256).find? fun i =>
    s.recState i != 0 && bits (s.regW 24 .FQ_REC i 1) 47 0 == w.tbase && bits (s.regW 24 .FQ_REC i 0) 51 25 == w.span

/-- A record created by a requester, with its interrupt (R137, R138). -/
def State.fqCreate (s : State) (i : Nat) (w : Waiter) : State :=
  let s := s.setRegW 24 .FQ_REC i 0 (BitVec.ofNat 64 w.la)
  let s := s.setRegW 24 .FQ_REC i 1
    (BitVec.ofNat 64 (w.tbase + 2 ^ 48 * w.cause + 2 ^ 51 * w.level + 2 ^ 53 * w.ring + 2 ^ 55 * b2n w.write))
  let s := s.setRegW 24 .FQ_REC i 2 (BitVec.ofNat 64 (w.die + 2 ^ 5 * w.eng + 2 ^ 33))
  let s := [3, 4, 5, 6].foldl (fun s j => s.setRegW 24 .FQ_REC i j 0) s
  let s := s.setRegW 24 .FQ_REC i 7 (BitVec.ofNat 64 s.time)
  let s := { s with fqJoin := put (fun _ => []) s.fqJoin i [], fqOrder := s.fqOrder ++ [i] }
  let s := s.fqJoinRec i w
  if s.flag 24 .FQ_CTRL 0 0 then s.sendIrq (s.fld 24 .FQ_CTRL 0 31 16) 24 else s

/-- Free records. -/
def State.freeRecs (s : State) : List Nat := (List.range 256).filter fun i => s.recState i == 0

/-- A translation fault of a requester that is not a core: it joins a record, creates one, or waits for one to become free
(R137, R140). Which free record is used is not defined. -/
def State.fqFault (s : State) (w : Waiter) : State :=
  match s.recFor w with
  | some i => (s.fqJoinRec i w).fqSync
  | none =>
    match s.choose s.freeRecs with
    | (some i, s) => (s.fqCreate i w).fqSync
    | (none, s) => { s with fqWait := s.fqWait ++ [w] }.fqSync

/-- Are two requests the same one: of one requester, one key, one piece of work? The spec does not say whether a second fault of one
engine on a key it already waits on joins again: each piece of work joins once, so that one engine can hold several list slots (DESIGN
CHOICE, log entry 60). -/
def Waiter.same (a b : Waiter) : Bool :=
  a.die == b.die && a.eng == b.eng && a.tbase == b.tbase && a.span == b.span && a.own == b.own

/-- Does a request wait on a record or for one? -/
def State.fqWaits (s : State) (w : Waiter) : Bool :=
  (s.fqWait.any w.same) || ((List.range 256).any fun i => s.recState i != 0 && (s.joined i).any w.same)

/-- A record back to FREE, its requesters released (R139). What a FREE record's other fields read is not stated: all eight doublewords
read 0 (DESIGN CHOICE, log entry 60). -/
def State.fqFree (s : State) (i : Nat) (aborted : Bool) : State :=
  let l := s.joined i
  let s := { s with
    fqJoin := put (fun _ => []) s.fqJoin i []
    fqOrder := s.fqOrder.filter (· != i)
    fqAbort := if aborted then s.fqAbort ++ l else s.fqAbort
    fqFresh := if aborted then s.fqFresh else s.fqFresh ++ l }
  ([0, 1, 2, 3, 4, 5, 6, 7].foldl (fun s j => s.setRegW 24 .FQ_REC i j 0) s).fqSync

/-- Requesters removed from their records by a reset or a cancel (R141, R335): the count falls, the list slot clears. -/
def State.fqWithdraw (s : State) (p : Waiter → Bool) : State :=
  let s := { s with
    fqWait := s.fqWait.filter fun w => !p w
    fqAbort := s.fqAbort.filter fun w => !p w
    fqFresh := s.fqFresh.filter fun w => !p w }
  ((List.range 256).foldl (fun s i =>
    (s.joined i).foldl (fun s w =>
      if !p w then s
      else
        let l := (s.joined i).erase w
        let s := { s with fqJoin := put (fun _ => []) s.fqJoin i l }
        let s := s.setRegW 24 .FQ_REC i 2 (setBits (s.regW 24 .FQ_REC i 2) 31 16 l.length)
        match (List.range 16).find? fun j => s.listSlot i j == w.slot with
        | some j => s.setListSlot i j 0
        | none => s) s) s).fqSync

/-- What a device translation came to for its requester. -/
inductive DevX where
  | ok (pa : Nat)
  /-- Its record was aborted (R139). -/
  | aborted
  | wait
  deriving DecidableEq, Repr

/-- What released requests of some owners have been told and not yet used is forgotten: the work they were for has ended. -/
def State.fqForget (s : State) (p : Waiter → Bool) : State :=
  { s with fqAbort := s.fqAbort.filter fun w => !p w, fqFresh := s.fqFresh.filter fun w => !p w }

/-- The error response that ends an access of a gang operation is logged with its address, here the linear one: it has no physical address,
and the table of R459 gives the response no code, a free number (R260, log entry 64). -/
def State.abortLog (s : State) (w : Waiter) : State :=
  match w.own with
  | .gang _ => let n := s.freeNat; n.2.logErr 24 0x04 1 11 ⟨w.die, if w.die = 24 then 11 else 4⟩ (some (w.la % 2 ^ 48)) false (n.1 % 8)
  | _ => s

/-- A translation by a requester that reports to the fault queue: it waits while its record stands, is told an ABORT once, walks afresh
after a RESOLVE, and otherwise uses its cache or walks; a fault of the walk is reported and waits (R136–R139). -/
def State.xlateFq (s : State) (q : Req) (eng : Nat) (own : Own) (ptb : Word) (ring la : Nat) (write : Bool) : DevX × State :=
  let w : Waiter := { die := q.die, eng, tbase := bits ptb 47 19 * 2 ^ 19, span := la / 2 ^ 25, la, ring, write, own }
  if s.fqWaits w then (.wait, s)
  else if s.fqAbort.any w.same then (.aborted, { s with fqAbort := s.fqAbort.filter fun x => !w.same x }.abortLog w)
  else
    match s.xlateDev q eng own (s.fqFresh.any w.same) ptb ring la write with
    | (.ok pa, s) => (.ok pa, { s with fqFresh := s.fqFresh.filter fun x => !w.same x })
    | (.wait, s) => (.wait, s)
    | (.fault cause level, s) =>
      (.wait, { s with fqFresh := s.fqFresh.filter fun x => !w.same x }.fqFault { w with cause, level })

/-- Every translation cache and data cache of a die invalidated (R132, R57). -/
def State.dropXlate (s : State) (die : Nat) : State :=
  let s := { s with dtlb := dropKeys (fun k => k == die || (die == 24 && k == 25)) s.dtlb }
  [0, 1, 2, 3].foldl (fun s k =>
    let c := 4 * die + k
    { s with cores := put (fun _ => {}) s.cores c { (look (fun _ => {}) s.cores c) with tlb := [], wcache := [], dcache := [] } }) s

/-- An epoch round begins (R132): CUR advances, caches are invalidated, every die has to acknowledge. The Trowel's pre-translations go
with its TLB, at a wrap of CUR as at any round (R134). -/
def State.epochStart (s : State) : State :=
  let cur := (s.epochCur + 1) % 2 ^ 32
  let s := s.setReg 24 .TRW_EPOCH 0 (BitVec.ofNat 64 (cur + 2 ^ 32))
  let s := if cur = 0 then { s with trowel := { s.trowel with preDone := [] } } else s
  { (List.range 25).foldl (fun s d => s.dropXlate d) s with epochWait := List.range 25 }

/-- TRW_EPOCH_BUMP.GO (R132, R133). -/
def State.epochBump (s : State) : State :=
  if s.flag 24 .TRW_EPOCH 0 32 then s.setFld 24 .TRW_EPOCH 0 33 33 1 else s.epochStart

end Sys2Proof.Machine
end

