-- ==== Sys2Proof/Machine/DevMem.lean ====
section
/-! DEFINITION. Reads and writes of memory by requesters that are not cores: the Trowel, the copy and snapshot movers, the
matrix engines, the MC and the security block (R21, R142, R381, R382, R398, R459–R464). -/

namespace Sys2Proof.Machine

open Sys2Proof

/-- Does a part lie in a host window or in the twin window? -/
def State.offModule (s : State) (p : Piece) : Bool :=
  match s.decodePA p.pa with
  | .host _ _ | .twin _ => true
  | _ => false

/-- A requester whose request to this page has waited at its home until its time ran out (R461): it ends with code 7. -/
def State.timedOut (s : State) (q : Req) (pa : Nat) : Option State :=
  match s.waits.find? fun w => w.die == q.die && w.unit == q.unit && w.out && w.pa / 4096 == pa / 4096 with
  | some w => some { s with waits := s.waits.filter (· != w) }
  | none => none

/-- A read of n bytes within one 4 KiB block by a device, with host-window packets of at most `lim` bytes. -/
def State.devReadBlock (s : State) (q : Req) (own : Own) (lim pa n : Nat) : Acc (List Byte) × State :=
  match s.timedOut q pa with
  | some s => (.err 7, s)
  | none =>
  match s.homeCheck q pa with
  | some (code, die, unit) => s.refused q code die unit pa
  | none =>
  match s.decodePA pa with
  | .host _ _ =>
    if s.pathBusy q.die 24 then (.wait, s.noteWait q pa)
    else if s.rspDown q pa then (.err 7, s.rspLost q pa)
    else s.hostFetch own q lim pa n
  | .twin _ => s.refused q 3 24 9 pa
  | .ctrl _ => s.refused q 3 (s.decodePA pa).die 7 pa
  | _ => s.readPieces q (lines pa n)

/-- Poison about to leave the module is refused by the link controller with code 3 and logged as egress (R459, R464, R468). -/
def State.egress (s : State) (q : Req) (unit pa : Nat) : State :=
  (s.logErr 24 0x03 1 unit q (some pa) true 7).errResponse 24 3 unit q pa

/-- What a posted write comes to for its requester when the response's route may be down (R20). -/
def State.rspOf (s : State) (q : Req) (pa : Nat) (r : Acc Unit × State) : Acc Unit × State :=
  match r with
  | (.ok _, t) => if s.rspDown q pa then (.err 7, t.rspLost q pa) else (.ok (), t)
  | r => r

/-- A write of bytes within one 4 KiB block by a device; the partner's mirror writes, of requester 9, are no local requester's (R398). -/
def State.devWriteBlock (s : State) (q : Req) (own : Own) (lim pa : Nat) (bs : List Byte) (poisoned : Bool) :
    Acc Unit × State :=
  match s.timedOut q pa with
  | some s => (.err 7, s)
  | none =>
  match s.homeCheck q pa with
  | some (code, die, unit) => s.refused q code die unit pa
  | none =>
  match s.decodePA pa with
  | .host _ _ =>
    if poisoned then (.err 3, s.egress q 8 pa)
    else if s.pathBusy q.die 24 then (.wait, s.noteWait q pa)
    else s.rspOf q pa ((s.travel q.die 24).hostPost own q lim pa bs)
  | .twin off =>
    if poisoned then (.err 3, s.egress q 9 pa)
    else if s.pathBusy q.die 24 then (.wait, s.noteWait q pa)
    else s.rspOf q pa ((s.travel q.die 24).twinPost own q 0 off bs)
  | .ctrl _ => s.refused q 3 (s.decodePA pa).die 7 pa
  | _ =>
    if q != ⟨24, 9⟩ && s.skimProtected pa bs.length then s.refused q 3 (s.decodePA pa).die 5 pa
    else
      (lines pa bs.length).foldl (fun r p =>
        match r with
        | (.ok _, s) => s.plainWriteMem q p.pa ((bs.drop (p.pa - pa)).take p.n) poisoned
        | r => r) (.ok (), s)

/-- The 4 KiB blocks of n bytes from a. -/
def blocks (a n : Nat) : List Piece := splitAt 4096 (n / 4096 + 2) a n

/-- Reads of physical pieces in turn, once every answer they need has come. -/
def State.devReadNow (s : State) (q : Req) (own : Own) (lim : Nat) : List Piece → Acc (List Byte) × State
  | [] => (.ok [], s)
  | p :: ps =>
    match s.devReadBlock q own lim p.pa p.n with
    | (.ok bs, s) =>
      match s.devReadNow q own lim ps with
      | (.ok r, s) => (.ok (bs ++ r), s)
      | r => r
    | r => r

/-- The DRDs of the pieces that lie in host windows are issued (R374, R382): have all been answered? -/
def State.devAsk (s : State) (q : Req) (own : Own) (lim : Nat) (ps : List Piece) : Bool × State :=
  ps.foldl (fun (r : Bool × State) p =>
    match r.2.decodePA p.pa with
    | .host _ _ =>
      let parts := splitAt lim (p.n / lim + 2) p.pa p.n
      match r.2.hostAsk own q parts with
      | .inr s => (r.1 && s.gatherDrds own parts != .wait, s)
      | _ => r
    | _ => r) (true, s)

/-- Reads of physical pieces. -/
def State.devReadPieces (s : State) (q : Req) (own : Own) (lim : Nat) (ps : List Piece) : Acc (List Byte) × State :=
  let r := s.devAsk q own lim ps
  if r.1 then Acc.used own ps (r.2.devReadNow q own lim ps) else (.wait, r.2)

/-- A physical read by a device. -/
def State.devRead (s : State) (q : Req) (own : Own) (lim pa n : Nat) : Acc (List Byte) × State :=
  s.devReadPieces q own lim (blocks pa n)

/-- A physical write by a device, up to the first error. -/
def State.devWrite (s : State) (q : Req) (own : Own) (lim pa : Nat) (bs : List Byte) (poisoned : Bool) : Acc Unit × State :=
  (blocks pa bs.length).foldl (fun r p =>
    match r with
    | (.ok _, s) => s.devWriteBlock q own lim p.pa ((bs.drop (p.pa - pa)).take p.n) poisoned
    | r => r) (.ok (), s)

/-- Who a translated device access is for: requester, engine number of R136, owner, page-table base and ring. -/
structure DevCtx where
  q : Req := ⟨24, 11⟩
  eng : Nat := 0
  own : Own := .none
  ptb : Word := 0
  ring : Nat := 0
  lim : Nat := 64
  deriving DecidableEq, Repr

/-- What a translated device access came to. -/
inductive DevAcc (α : Type) where
  | ok (a : α)
  | err (code : Nat)
  | poison
  | aborted
  | wait
  deriving DecidableEq, Repr

/-- The physical blocks of a linear range, translated block by block (R136). -/
def State.xlateBlocks (s : State) (x : DevCtx) (write : Bool) : List Piece → DevAcc (List Piece) × State
  | [] => (.ok [], s)
  | p :: ps =>
    match s.xlateFq x.q x.eng x.own x.ptb x.ring (p.pa % 2 ^ 52) write with
    | (.wait, s) => (.wait, s)
    | (.aborted, s) => (.aborted, s)
    | (.ok pa, s) =>
      match s.xlateBlocks x write ps with
      | (.ok r, s) => (.ok (⟨pa, p.n⟩ :: r), s)
      | r => r

/-- A read of n bytes at a linear address by a device. -/
def State.devReadLin (s : State) (x : DevCtx) (la n : Nat) : DevAcc (List Byte) × State :=
  match s.xlateBlocks x false (blocks la n) with
  | (.ok ps, s) =>
    match s.devReadPieces x.q x.own x.lim ps with
    | (.ok bs, s) => (.ok bs, s)
    | (.err c, s) => (.err c, s)
    | (.poison, s) => (.poison, s)
    | (.wait, s) => (.wait, s)
  | (.err c, s) => (.err c, s)
  | (.poison, s) => (.poison, s)
  | (.aborted, s) => (.aborted, s)
  | (.wait, s) => (.wait, s)

/-- Writes of the parts of a byte string at physical pieces in turn. -/
def State.devWritePieces (s : State) (x : DevCtx) (poisoned : Bool) : List Piece → List Byte → DevAcc Unit × State
  | [], _ => (.ok (), s)
  | p :: ps, bs =>
    match s.devWriteBlock x.q x.own x.lim p.pa (bs.take p.n) poisoned with
    | (.ok _, s) => s.devWritePieces x poisoned ps (bs.drop p.n)
    | (.err c, s) => (.err c, s)
    | (.poison, s) => (.poison, s)
    | (.wait, s) => (.wait, s)

/-- A write of bytes at a linear address by a device. -/
def State.devWriteLin (s : State) (x : DevCtx) (la : Nat) (bs : List Byte) (poisoned : Bool) : DevAcc Unit × State :=
  match s.xlateBlocks x true (blocks la bs.length) with
  | (.ok ps, s) => s.devWritePieces x poisoned ps bs
  | (.err c, s) => (.err c, s)
  | (.poison, s) => (.poison, s)
  | (.aborted, s) => (.aborted, s)
  | (.wait, s) => (.wait, s)

/-- The physical address of the first poisoned unit of a linear range, or of the range's start (R468). -/
def State.badPa (s : State) (x : DevCtx) (la n : Nat) : Nat :=
  match (s.xlateBlocks x false (blocks la n)).1 with
  | .ok ps => ((ps.flatMap fun p => unitsOf p.pa p.n).find? s.poisonedAt).getD ((ps.headD ⟨la, 0⟩).pa)
  | _ => la % 2 ^ 48

/-- Doublewords at a linear address. -/
def State.devWordsLin (s : State) (x : DevCtx) (la n : Nat) : DevAcc (List Word) × State :=
  match s.devReadLin x la (8 * n) with
  | (.ok bs, s) => (.ok (words64 n bs), s)
  | (.err c, s) => (.err c, s)
  | (.poison, s) => (.poison, s.poisonUsed x.q.die x.q.unit x.q (s.badPa x la (8 * n)) 6)
  | (.aborted, s) => (.aborted, s)
  | (.wait, s) => (.wait, s)

/-- A device record write that fails is logged as class 0x10 (R135, R259, R329, R468). -/
def State.recordLost (s : State) (pa : Nat) : State := s.logErr 24 0x10 1 11 ⟨24, 11⟩ (some pa) false 0

end Sys2Proof.Machine
end

