-- ==== Sys2Proof/Machine/Stream.lean ====
section
/-! DEFINITION. Streams, sync objects, timed triggers and the Stencil staging area: the shared operations under the stream
commands (R288–R312, R403, R404). -/

namespace Sys2Proof.Machine

open Sys2Proof

/-- The requester fields of the Trowel and the K-die movers (R468). -/
def kReq : Req := ⟨24, 11⟩

/-! ### FTQ entries (R270–R272, R282) -/

/-- Doubleword j of an FTQ entry. -/
def State.ftqW (s : State) (d e j : Nat) : Word := s.regW d .FTQ_ENT e j

/-- FTQ_STAT and FTQ_PEEK kept in step with the queue (R271, R287). -/
def State.ftqSync (s : State) (d : Nat) : State :=
  let x := s.engine d
  let s := s.setReg d .FTQ_STAT 0 (BitVec.ofNat 64 (x.ftq.length + 2 ^ 7 * b2n (!x.held.isEmpty && decide (64 ≤ x.ftq.length))))
  s.setReg d .FTQ_PEEK 0 (match x.ftq with | e :: _ => s.ftqW d e 0 | [] => 0)

/-- One quarter of an entry back to unclaimed (R282). -/
def State.unclaimQuarter (s : State) (d e q : Nat) : State :=
  let w0 := s.ftqW d e 0
  (s.setRegW d .FTQ_ENT e 0 (setBits (setBits w0 (39 + q) (39 + q) 0) (43 + q) (43 + q) 0)).ftqSync d

/-- A core's claimed quarters that have not completed go back to unclaimed (R282). -/
def State.unclaimQuarters (s : State) (c : CoreId) : State :=
  let d := (dieOf c).val
  ((s.core c).vq.foldl (fun s t =>
    match t.q with
    | some q => s.unclaimQuarter d q.entry q.q
    | none => s) s).ftqSync d

/-! ### The stream table (R288–R290) -/

/-- First byte of a stream's entry (R288). -/
def strAddr (st : Nat) : Nat := ksramBase + 64 * st

/-- Doubleword j of a stream's entry. -/
def State.strW (s : State) (st j : Nat) : Word := s.mem64 (strAddr st + 8 * j)

/-- Doubleword j of a stream's entry replaced. -/
def State.setStrW (s : State) (st j : Nat) (v : Word) : State := s.setMem64 (strAddr st + 8 * j) v

/-- Field [hi:lo] of doubleword j of a stream's entry. -/
def State.strF (s : State) (st j hi lo : Nat) : Nat := bits (s.strW st j) hi lo

/-- Field [hi:lo] of doubleword j of a stream's entry replaced. -/
def State.setStrF (s : State) (st j hi lo v : Nat) : State := s.setStrW st j (setBits (s.strW st j) hi lo v)

/-- STATE of a stream: DISABLED until ENABLE, whatever its entry holds (R289, R290). -/
def State.strState (s : State) (st : Nat) : Nat := if s.trowel.enabled.contains st then s.strF st 3 35 32 else 0

/-- STATE replaced. -/
def State.setStrState (s : State) (st v : Nat) : State := s.setStrF st 3 35 32 v

/-- Commands appended and not retired: TAIL − HEAD. -/
def State.strUsed (s : State) (st : Nat) : Nat := (s.strF st 2 63 32 + 2 ^ 32 - s.strF st 2 31 0) % 2 ^ 32

/-- Slots of a stream's ring. -/
def State.strSlots (s : State) (st : Nat) : Nat := 2 ^ s.strF st 0 52 48

/-- CREDIT (R293). -/
def State.strCredit (s : State) (st : Nat) : Nat := s.strSlots st - s.strUsed st

/-- EXPSEQ. -/
def State.strExp (s : State) (st : Nat) : Nat := s.strF st 3 31 0

/-- Sequence number of the command at HEAD. -/
def State.strSeq (s : State) (st : Nat) : Nat := (s.strExp st + 2 ^ 32 - s.strUsed st) % 2 ^ 32

/-- Physical address of the ring slot of command count n (R288). -/
def State.strSlot (s : State) (st n : Nat) : Nat := s.strF st 0 47 0 + 64 * (n % s.strSlots st)

/-- The started command of a stream. -/
def State.runOf (s : State) (st : Nat) : Option StreamRun := s.trowel.runs.find? fun r => r.s == st

/-- Doubleword j of a started command. -/
def StreamRun.dw (r : StreamRun) (j : Nat) : Word := r.cmd.getD j 0

/-- OPC of a started command. -/
def StreamRun.opc (r : StreamRun) : Nat := bits (r.dw 0) 7 0

/-- NTF of a started command. -/
def StreamRun.ntf (r : StreamRun) : Bool := bit (r.dw 0) 8

/-- Does a window hold a K-die operation slot: from CLOSED until it is freed (R298)? -/
def WState.holdsSlot : WState → Bool
  | .free | .openW => false
  | _ => true

/-- K-die operation slots in use (R298). -/
def State.slotsUsed (s : State) : Nat :=
  (s.trowel.runs.filter fun r => r.run != .faulted && r.opc ∈ [2, 3, 4, 9]).length
    + (s.trowel.windows.filter fun e => e.2.state.holdsSlot).length

/-- Does a start find a free slot (R298)? Each OPEN window has one set aside, so that its close, which nothing can hold back, finds one
(DESIGN CHOICE, log entry 66). -/
def State.slotRoom (s : State) : Bool :=
  decide (s.slotsUsed + (s.trowel.windows.filter fun e => e.2.state == .openW).length < 8192)

/-- TRW_STAT.WINS, INFL and WFULL kept in step (R338). -/
def State.trwSync (s : State) : State :=
  let wins := (s.trowel.windows.filter fun e => e.2.state != .free).length
  let full := s.trowel.runs.any fun r => r.run == .wantsWindow
  s.setReg 24 .TRW_STAT 0 (setBits (setBits (setBits (s.reg 24 .TRW_STAT 0) 10 0 wins) 24 11 s.slotsUsed) 25 25 (b2n full))

/-- A stream's started command replaced. -/
def State.setRun (s : State) (r : StreamRun) : State :=
  { s with trowel := { s.trowel with runs := r :: s.trowel.runs.filter fun x => x.s != r.s } }.trwSync

/-- A stream's started command dropped. -/
def State.dropRun (s : State) (st : Nat) : State :=
  { s with trowel := { s.trowel with runs := s.trowel.runs.filter fun x => x.s != st } }.trwSync

/-! ### Triggers 240, 241, 245 (R311, R312) -/

/-- A device trigger armed with the earliest of a list of times, or disarmed for none; while expired entries of its list
remain to be handled after a firing it stays as it is (R312). -/
def State.armTimer (s : State) (n : Nat) (times : List Nat) : State :=
  if s.trowel.draining.contains n then s
  else
    match times with
    | [] => s.setFld 24 .TT_CTL n 0 0 0
    | t :: ts => (s.setReg 24 .TT_CMP n (BitVec.ofNat 64 (ts.foldl min t))).setFld 24 .TT_CTL n 0 0 1

/-- Pending TIMED times: time and stream. -/
def State.timedList (s : State) : List (Nat × Nat) :=
  s.trowel.runs.filterMap fun r => match r.run with | .timed t => some (t, r.s) | _ => none

/-- Pending WAIT timeouts. -/
def State.waitList (s : State) : List (Nat × Nat) :=
  s.trowel.runs.filterMap fun r => match r.run with | .waiting (some t) => some (t, r.s) | _ => none

/-- Deadlines of open windows. -/
def State.deadlineList (s : State) : List (Nat × Nat) :=
  s.trowel.windows.filterMap fun e => if e.2.state = .openW then some (e.2.deadline.toNat, e.1) else none

/-- Triggers 241, 245 and 240 armed with the earliest of their lists (R312). -/
def State.armTimers (s : State) : State :=
  ((s.armTimer 241 (s.timedList.map (·.1))).armTimer 245 (s.waitList.map (·.1))).armTimer 240 (s.deadlineList.map (·.1))

/-- The first expired entry of a list: the lowest stream or window (R312). -/
def State.firstExpired (s : State) (l : List (Nat × Nat)) : Option Nat :=
  (l.filter fun e => decide (e.1 ≤ s.time)).foldl
    (fun o e => match o with | none => some e.2 | some x => some (min x e.2)) none

/-! ### Completion and event packets of a stream (R292, R293, R301) -/

/-- The credit a packet for a stream carries is remembered (R293). -/
def State.noteCredit (s : State) (st : Nat) : State :=
  { s with trowel := { s.trowel with credit := put (fun _ => 0) s.trowel.credit st (s.strCredit st) } }

/-- A credit-only completion packet (R293, R378). -/
def State.sendCreditOnly (s : State) (st : Nat) : State :=
  (s.sendScpl st true 0 0 (s.strCredit st) (s.strExp st) s.time).noteCredit st

/-- An event packet of kinds 1–3 for a stream (R379). -/
def State.streamEvent (s : State) (st kind code xcode seq : Nat) : State :=
  (s.sendSevt kind code xcode st seq (s.strExp st) (s.strCredit st) 0).noteCredit st

/-! ### Retirement and faults (R297, R301) -/

/-- The translation a command was given is forgotten when the command has ended, or its stream is (R333, R335). -/
def State.dropDone (s : State) (st : Nat) (n : Option Nat) : State :=
  { s with trowel := { s.trowel with preDone := s.trowel.preDone.filter fun p => !(p.s == st && (n.isNone || n == some p.n)) } }

/-- HEAD advanced: the next command may start, or the stream is idle; a cancelling stream stays so. -/
def State.advance (s : State) (st : Nat) : State :=
  let s := (s.dropRun st).dropDone st (some (s.strF st 2 31 0))
  let s := s.setStrF st 2 31 0 (s.strF st 2 31 0 + 1)
  if s.strState st = 8 then s else s.setStrState st (if s.strUsed st = 0 then 1 else 2)

/-- A command retires (R293, R297, R299), its effects and signal done: HEAD, GEN, the completion packet or a credit-only
one. It waits when it needs a packet and none can be held (R380). -/
def State.retireBase (s : State) (r : StreamRun) (gen : Bool) : State :=
  let st := r.s
  let last := look (fun _ => 0) s.trowel.credit st
  let grown := decide (max 1 (s.fld 24 .STM_CFG 0 47 32) ≤ s.strCredit st + 1 - last)
  if (r.ntf || grown) && !s.evtRoom then
    let s := s.setRun { r with run := .retiring gen }
    if s.strState st = 8 then s else s.setStrState st 5
  else
    let seq := s.strSeq st
    let s := if gen then s.setStrF st 5 31 0 (s.strF st 5 31 0 + 1) else s
    let s := s.advance st
    if r.ntf then (s.sendScpl st false seq (bits (r.dw 0) 31 16) (s.strCredit st) (s.strExp st) s.time).noteCredit st
    else if grown then s.sendCreditOnly st
    else s

/-- Does retirement change GEN (R299)? -/
def StreamRun.gens (r : StreamRun) : Bool := r.opc == 1 || r.opc == 2

/-- Address of a sync object (R304). -/
def synAddr (i : Nat) : Nat := ksramBase + 0x01000000 + 32 * i

/-- VALUE of a sync object. -/
def State.synValue (s : State) (i : Nat) : Word := s.mem64 (synAddr i)

/-- WAITERS of a sync object kept in step (R304). -/
def State.countWaiters (s : State) (i : Nat) : State :=
  let n := (s.trowel.runs.filter fun r => match r.run with | .waiting _ => bits (r.dw 1) 15 0 == i | _ => false).length
  s.setMem64 (synAddr i + 0x18) (setBits (s.mem64 (synAddr i + 0x18)) 31 0 n)

/-- Waiters that an update has satisfied are released: their WAIT retires (R307). -/
def State.releaseWaiters (s : State) (i : Nat) : State :=
  let v := s.synValue i
  let ready := s.trowel.runs.filter fun r =>
    match r.run with
    | .waiting _ => bits (r.dw 1) 15 0 == i && decide ((r.dw 2).toNat ≤ v.toNat)
    | _ => false
  if ready.isEmpty then s
  else ((ready.foldl (fun s r => s.retireBase r false) s).countWaiters i).armTimers

/-- The gate of a snapshot whose trigger has fired is tested at every update of its object (R408). -/
def State.testGate (s : State) (i : Nat) : State :=
  match s.snap with
  | some p =>
    if p.fired && p.gateEn && p.gateSync == i && decide (p.gateVal ≤ (s.synValue i).toNat) then
      { s with snap := some { p with gateMet := true } }
    else s
  | none => s

/-- One update of a sync object (R305–R307): an add or a set, the crossing, the waiters. An object whose memory is poisoned
is not updated (R463). -/
def State.synUpdate (s : State) (i : Nat) (set : Bool) (v : Word) : State :=
  if s.anyPoison (synAddr i) 32 then s.poisonUsed 24 11 kReq (synAddr i) 6
  else
    let old := s.synValue i
    let new := if set then v else old + v
    let thresh := s.mem64 (synAddr i + 8)
    let ctl := s.mem64 (synAddr i + 16)
    let s := s.setMem64 (synAddr i) new
    let s :=
      if old.toNat < thresh.toNat ∧ thresh.toNat ≤ new.toNat then
        let s := s.sendIrq (bits ctl 15 0) 24
        if bit ctl 16 then s.sendSevt 4 0 0 i 0 0 0 new.toNat else s
      else s
    (s.releaseWaiters i).testGate i

/-- The add of CVAL to CSYNC of a command with CSIG = 1 (R297). -/
def State.signalOf (s : State) (r : StreamRun) : State :=
  if bit (r.dw 7) 16 then s.synUpdate (bits (r.dw 7) 15 0) false (BitVec.ofNat 64 (bits (r.dw 7) 63 32)) else s

/-- Commands whose DW7 holds completion fields (R296). -/
def hasCsig (opc : Nat) : Bool := opc ∈ [1, 2, 3, 4, 9]

/-- A command faults (R301), or is ended by the cancel of its stream with the code kept for the event (R303). With no room for its event
packet the fault waits as a retirement does (R380, log entry 66). -/
def State.faultStream (s : State) (r : StreamRun) (fcode xcode : Nat) : State :=
  let st := r.s
  if s.strState st = 8 then
    { s.dropRun st with trowel := { (s.dropRun st).trowel with cancelCode := put (fun _ => 0) s.trowel.cancelCode st fcode } }
  else if !s.evtRoom then s.setRun { r with run := .faulting fcode xcode }
  else
    let s := (s.setStrState st 7).setStrF st 3 43 36 fcode
    let s := s.setRun { r with run := .faulted }
    let s := s.streamEvent st 2 fcode xcode (s.strSeq st)
    let s := s.sendIrq (s.fld 24 .STM_ROUTE 0 15 0) 24
    { s with trowel := { s.trowel with nextf := s.trowel.nextf ++ [st] } }

/-- A command ends well: its signal, then its retirement (R297). Its signal's object read with poison faults it (R301, R463). -/
def State.finish (s : State) (r : StreamRun) : State :=
  let i := bits (r.dw 7) 15 0
  if hasCsig r.opc && bit (r.dw 7) 16 && s.anyPoison (synAddr i) 32 then (s.poisonUsed 24 11 kReq (synAddr i) 6).faultStream r 0x04 0
  else (if hasCsig r.opc then s.signalOf r else s).retireBase r r.gens

/-- A command whose packet waited for room retires or faults, if there is room now (R380). -/
def State.packetRetry (s : State) (r : StreamRun) : State :=
  match r.run with
  | .retiring gen => s.retireBase r gen
  | .faulting f x => s.faultStream r f x
  | _ => s

/-- Every command whose packet waits for room. -/
def State.packetsRetry (s : State) : State := s.trowel.runs.foldl State.packetRetry s

/-- What a device access of a command comes to when it is not data: the FCODE (R301). -/
def DevAcc.fcode {α : Type} : DevAcc α → Nat
  | .aborted => 0x03
  | _ => 0x04

/-- The context of a command's own accesses: the stream's ring and table (R296, R324). -/
def State.strCtx (s : State) (st eng lim : Nat) : DevCtx :=
  { q := kReq, eng, own := .stream st, ptb := s.strW st 1, ring := s.strF st 0 57 56, lim }

/-! ### The Stencil log (R403, R404) -/

/-- First byte of Stencil staging (R25). -/
def stagingBase : Nat := ksramBase + 0x02000000

/-- Free entries of staging; none while a device record waits for its own (R403). -/
def State.stagingRoom (s : State) : Nat :=
  if s.stencil.owed.isEmpty then 1048576 - (s.fld 24 .TWN_STN_HEAD 0 63 0 - s.stencil.ring) else 0

/-- One entry staged under the next LSN: header and 48 bytes (R404). -/
def State.stage (s : State) (kind ncont stream seq : Nat) (payload : List Byte) : State :=
  let lsn := s.fld 24 .TWN_STN_HEAD 0 63 0
  let w0 := kind % 2 ^ 16 + 2 ^ 16 * ncont + 2 ^ 28 * stream
  let w1 := seq % 2 ^ 32 + 2 ^ 32 * (lsn % 2 ^ 32)
  let bs := toBytes 8 w0 ++ toBytes 8 w1 ++ (payload ++ List.replicate 48 0).take 48
  (s.homeWrite (stagingBase + 64 * (lsn % 1048576)) bs false).setReg 24 .TWN_STN_HEAD 0 (BitVec.ofNat 64 (lsn + 1))

/-- A device record: its first entry and its continuations (R404). One that finds no room in staging waits (R403). -/
def State.stageRecord (s : State) (kind : Nat) (first : List Byte) (more : List (List Byte)) : State :=
  if s.stagingRoom < more.length + 1 then { s with stencil := { s.stencil with owed := s.stencil.owed ++ [(kind, first, more)] } }
  else more.foldl (fun s p => s.stage 0xFFFF 0 0 0 p) (s.stage kind more.length 0 0 first)

/-- The records that waited, staged in turn (R403). -/
def State.stageOwed (s : State) : State :=
  s.stencil.owed.foldl (fun s r => s.stageRecord r.1 r.2.1 r.2.2) { s with stencil := { s.stencil with owed := [] } }

/-! ### Timed triggers (R308, R309) -/

/-- Additions of PER that take CMP above now. -/
def periodSteps (cmp per now : Nat) : Nat := if now < cmp then 0 else (now - cmp) / per + 1

/-- A trigger's firing (R309). A SYNC at or above SYN_CFG.COUNT names no object: the add is not made, and nothing reports it (DESIGN CHOICE, log
entry 59). -/
def State.fireTrigger (s : State) (n : Nat) : State :=
  let ctl := s.reg 24 .TT_CTL n
  let per := s.fld 24 .TT_PER n 63 0
  let s := s.setFld 24 .TT_CTL n 1 1 1
  let s := if bit ctl 2 then s.sendIrq (bits ctl 31 16) 24 else s
  let s :=
    if bit ctl 3 && decide (bits ctl 47 32 < s.fld 24 .SYN_CFG 0 16 0) then s.synUpdate (bits ctl 47 32) false 1 else s
  if per = 0 then s.setFld 24 .TT_CTL n 0 0 0
  else
    let k := periodSteps (s.fld 24 .TT_CMP n 63 0) per s.time
    (s.setReg 24 .TT_CMP n (s.reg 24 .TT_CMP n + BitVec.ofNat 64 (k * per))).satFld 24 .TT_CTL n 55 48 (k - 1)

/-- Is a trigger due (R308)? -/
def State.triggerDue (s : State) (n : Nat) : Bool :=
  s.flag 24 .TT_CTL n 0 && decide (s.fld 24 .TT_CMP n 63 0 ≤ s.time) && s.timeRuns

/-! ### Starting a command (R296, R298, R301) -/

/-- The bits a command may set in each doubleword (R295, R296), none for a reserved OPC. -/
def cmdMask (opc : Nat) : Option (List Word) :=
  let z : Word := 0
  let all : Word := BitVec.allOnes 64
  let la := maskBits 51 0
  let fields := maskBits 16 0 ||| maskBits 63 32
  let h := maskBits 8 0 ||| maskBits 31 16
  match opc with
  | 0x00 | 0x0A => some [h, z, z, z, z, z, z, z]
  | 0x01 => some [maskBits 10 0 ||| maskBits 63 16, maskBits 60 0, la, all, la, all, la, maskBits 21 0 ||| maskBits 63 32]
  | 0x02 => some [h ||| maskBits 33 32, la, z, z, z, z, z, fields]
  | 0x03 => some [h, la, la, maskBits 39 0, z, z, z, fields]
  | 0x04 => some [h, la, all, maskBits 39 0, z, z, z, fields]
  | 0x05 => some [h, maskBits 15 0, all, all, z, z, z, z]
  | 0x06 => some [h, maskBits 16 0, all, z, z, z, z, z]
  | 0x07 => some [h, all, z, z, z, z, z, z]
  | 0x08 => some [h, maskBits 15 0, all, all, all, all, all, all]
  | 0x09 => some [h, maskBits 2 0, la, z, z, z, z, fields]
  | _ => none

/-- Is a command malformed (R296)? -/
def cmdMalformed (ws : List Word) : Bool :=
  let opc := bits (ws.getD 0 0) 7 0
  match cmdMask opc with
  | none => true
  | some ms =>
    ((List.range 8).any fun j => ws.getD j 0 &&& ~~~(ms.getD j 0) != 0)
      || ((opc == 3 || opc == 4) && bits (ws.getD 3 0) 39 0 == 0)

/-- Does a command name a sync object that does not exist (FCODE 0x02)? -/
def State.cmdBadSync (s : State) (ws : List Word) : Bool :=
  let opc := bits (ws.getD 0 0) 7 0
  let n := s.fld 24 .SYN_CFG 0 16 0
  ((opc == 5 || opc == 6) && decide (n ≤ bits (ws.getD 1 0) 15 0))
    || (hasCsig opc && bit (ws.getD 7 0) 16 && decide (n ≤ bits (ws.getD 7 0) 15 0))

/-- Window state as TRW_WIN.STATE codes it (R338). -/
def WState.code : WState → Nat
  | .free => 0 | .openW => 1 | .closed => 2 | .queued => 3 | .running => 4 | .draining => 5 | .scatter => 6

/-- A window. -/
def State.window (s : State) (w : Nat) : Window := look (fun _ => {}) s.trowel.windows w

/-- A window replaced, with TRW_WIN(w) reporting it (R338). -/
def State.setWindow (s : State) (w : Nat) (x : Window) : State :=
  let s := { s with trowel := { s.trowel with windows := put (fun _ => {}) s.trowel.windows w x } }
  let w0 := x.state.code + 2 ^ 3 * x.close + 2 ^ 6 * x.members.length + 2 ^ 19 * x.kih
  let w1 := x.serial % 2 ^ 32 + 2 ^ 32 * x.slot + 2 ^ 40 * x.group
  let s := if x.state = .free then (List.range 4).foldl (fun s j => s.setRegW 24 .TRW_WIN w j 0) s
    else (((s.setRegW 24 .TRW_WIN w 0 (BitVec.ofNat 64 w0)).setRegW 24 .TRW_WIN w 1 (BitVec.ofNat 64 w1)).setRegW 24 .TRW_WIN
      w 2 x.opened).setRegW 24 .TRW_WIN w 3 x.deadline
  s.trwSync

/-- TRW_WQN(d): items queued or running on a die (R338). -/
def State.wqnSync (s : State) (d : Nat) : State :=
  let queued := (look (fun _ => []) s.trowel.wq d).length
  let running := (s.trowel.runs.filter fun r => r.run == .item d true).length
  s.setReg 24 .TRW_WQN d (BitVec.ofNat 64 (queued + running))

end Sys2Proof.Machine
end

