-- ==== Sys2Proof/Machine/GangOps.lean ====
section
/-! DEFINITION. Gangs: members, descriptors and their checks, groups in the accepted state, blocks and tasks, the gang queue
(R200, R241–R257). -/

namespace Sys2Proof.Machine

open Sys2Proof

/-! ### Element types (R200, R208) -/

/-- Is an ETYPE one of FP8, FP6 and FP4? -/
def isNarrow (t : Nat) : Bool := decide (5 ≤ t ∧ t ≤ 9)

/-- The pass depth Kp of two operand formats, none for a combination R200 does not list. -/
def passDepth (a b : Nat) : Option Nat :=
  if a = 9 ∧ b = 9 then some 1024
  else if isNarrow a && isNarrow b then some 512
  else if (a = 10 ∧ b = 10) ∨ (a = 11 ∧ b = 11) then some 512
  else if (a = 3 ∨ a = 4 ∨ isNarrow a) ∧ (b = 3 ∨ b = 4 ∨ isNarrow b) then some 256
  else if (a = 2 ∨ a = 3 ∨ a = 4 ∨ isNarrow a) ∧ (b = 2 ∨ b = 3 ∨ b = 4 ∨ isNarrow b) then some 64
  else if a = 1 ∧ b = 1 then some 16
  else none

/-- Bits of an element of an ETYPE (R208). -/
def etypeBits (t : Nat) : Nat :=
  match t with
  | 1 => 64 | 2 => 32 | 3 => 16 | 4 => 16 | 7 => 6 | 8 => 6 | 9 => 4 | _ => 8

/-- Bytes of n elements of an ETYPE. -/
def etypeBytes (t n : Nat) : Nat := (etypeBits t * n + 7) / 8

/-- How a pass accumulates: 0 FP32, 1 INT32, 2 FP64, 3 FP32 sum and error (R200, R270). -/
def accFormat (a : Nat) (pair : Bool) : Nat := if pair then 3 else if a = 10 then 1 else if a = 1 then 2 else 0

/-- AM rows per output row (R214). -/
def accW (fmt : Nat) : Nat := if fmt = 2 ∨ fmt = 3 then 2 else 1

/-! ### Gangs and members (R241, R242) -/

/-- Does gang g exist? -/
def State.gangV (s : State) (g : Nat) : Bool := s.flag 24 .GNG_CFG g 63

/-- The snake key of a C-die (R242). -/
def snakeKey (d : Nat) : Nat := if dieY d % 2 = 0 then 5 * dieY d + dieX d else 5 * dieY d + 4 - dieX d

/-- The dies of a mask in ascending snake key (R242). -/
def snakeOrder (mask : Nat) : List Nat := (setBitsOf 24 mask).mergeSort fun a b => decide (snakeKey a ≤ snakeKey b)

/-- Active members of gang g in member order (R242). -/
def State.members (s : State) (g : Nat) : List Nat := snakeOrder (s.fld 24 .GNG_STAT g 23 0)

/-- The gang of a C-die, if Render has made one (R241). -/
def State.gangOf (s : State) (d : Nat) : Option Nat :=
  (List.range 4).find? fun g => s.gangV g && s.flag 24 .GNG_CFG g d

/-- The gang a core leads (R243). -/
def State.ledBy (s : State) (c : CoreId) : Option Nat :=
  (List.range 4).find? fun g => s.gangV g && s.fld 24 .GNG_CFG g 30 24 == c.val

/-! ### The GMM descriptor (R246, R247) -/

/-- A descriptor's fields; where it comes from and what translates its addresses are given. -/
def gmmOf (ws : List Word) (ptb : Word) (ring : Nat) (src : GangSrc) : Gmm :=
  let w (j : Nat) : Word := ws.getD j 0
  { abase := bits (w 0) 51 0, astride := w 1, ascale := bits (w 2) 51 0, asstride := w 3
    bbase := bits (w 4) 51 0, bstride := w 5, bscale := bits (w 6) 51 0, bsstride := w 7
    m := bits (w 8) 23 0, n := bits (w 8) 47 24, k := bits (w 9) 31 0, afmt := bits (w 9) 35 32, bfmt := bits (w 9) 39 36
    asc := bit (w 9) 40, bsc := bit (w 9) 41, pair := bit (w 9) 42, add := bit (w 9) 43, fin := bit (w 9) 44
    l := bits (w 9) 49 45, grp := bits (w 9) 53 50, off := bits (w 10) 31 0, crec := bits (w 11) 51 0
    sync := bits (w 12) 15 0, sig := bit (w 12) 16, value := bits (w 12) 63 32, ptb, ring, src }

/-- Is an RSV bit of a descriptor 1 (R246)? -/
def gmmRsv (ws : List Word) : Bool :=
  let la := maskBits 51 0
  let all : Word := BitVec.allOnes 64
  let ms := [la, all, la, all, la, all, la, all, maskBits 47 0, maskBits 53 0, maskBits 31 0, la, maskBits 16 0 ||| maskBits 63 32,
    0, 0, 0]
  (List.range 16).any fun j => ws.getD j 0 &&& ~~~(ms.getD j 0) != 0

/-- Passes P = ⌈K / Kp⌉ (R250). -/
def Gmm.passes (d : Gmm) : Nat := let kp := (passDepth d.afmt d.bfmt).getD 1; (d.k + kp - 1) / kp

/-- The checks of R247 in their order: the DIM of the first failure. -/
def Gmm.check (d : Gmm) (rsv : Bool) : Option Nat :=
  if (passDepth d.afmt d.bfmt).isNone || (d.pair && (d.afmt != 3 || d.bfmt != 3)) then some 3
  else if d.m = 0 ∨ d.k = 0 ∨ ((d.afmt = 9 ∨ d.bfmt = 9) ∧ d.k % 2 ≠ 0)
      ∨ ((d.afmt = 7 ∨ d.afmt = 8 ∨ d.bfmt = 7 ∨ d.bfmt = 8) ∧ d.k % 4 ≠ 0) ∨ ((d.asc || d.bsc) ∧ d.k % 32 ≠ 0) then some 1
  else if d.n < 256 ∨ d.n % 256 ≠ 0 then some 2
  else if (d.afmt = 11 ∧ (!d.asc || !d.bsc)) ∨ (d.pair && (d.asc || d.bsc)) ∨ (d.asc && !(isNarrow d.afmt || d.afmt == 11))
      ∨ (d.bsc && !(isNarrow d.bfmt || d.bfmt == 11)) then some 4
  else if d.l = 0 ∨ 24 < d.l ∨ d.passes < d.l ∨ (d.pair ∧ d.l ≠ 1) then some 5
  else if rsv then some 6
  else none

/-- The accumulation format of an operation. -/
def Gmm.acc (d : Gmm) : Nat := accFormat d.afmt d.pair

/-- Row blocks of an operation (R250); a window's members bring their own (R323). -/
def Gmm.bm (d : Gmm) : Nat := (d.m + 255) / 256

/-- Column blocks (R250). -/
def Gmm.bn (d : Gmm) : Nat := d.n / 256

/-- Rows a GMM of B blocks needs on each of n members (R252). -/
def Gmm.need (d : Gmm) (b n : Nat) : Nat := (b + n - 1) / n * d.l * 256 * accW d.acc

/-! ### Groups (R248, R255) -/

/-- The rows of a group open in the accepted state (R248). -/
def State.acceptedRows (s : State) (g i : Nat) : Option Nat := ((s.gang g).accepted.find? fun e => e.1 == i).map (·.2)

/-- The executed state of a group: BASE, SIZE and OPEN of GNG_GRP. -/
def State.grpReg (s : State) (g i : Nat) : Word := s.reg 24 .GNG_GRP (16 * g + i)

/-- The lowest free range of r rows in the gang region, given the ranges held (R255). -/
def freeRange (base size r : Nat) (held : List (Nat × Nat)) : Option Nat :=
  let cands := (base :: held.map fun h => h.1 + h.2).mergeSort (· ≤ ·)
  cands.find? fun b => decide (base ≤ b ∧ b + r ≤ base + size) && held.all fun h => decide (b + r ≤ h.1 ∨ h.1 + h.2 ≤ b)

/-- The ranges the groups will hold once every accepted entry has executed (R248, R255): BASE and SIZE by group, from the
executed groups, the accepted opens and closes in order. -/
def State.acceptedRanges (s : State) (g : Nat) : List (Nat × Nat × Nat) :=
  let now := (List.range 16).filterMap fun i =>
    let r := s.grpReg g i
    if bit r 63 then some (i, bits r 15 0, bits r 31 16) else none
  let base := s.fld 24 .GNG_GLOBAL 0 23 8
  let size := s.fld 24 .GNG_GLOBAL 0 39 24
  (s.gang g).queue.foldl (fun l e =>
    match e with
    | .openG i rows =>
      match freeRange base size rows (l.map (·.2)) with
      | some b => l ++ [(i, b, rows)]
      | none => l
    | .closeG i => l.filter fun h => h.1 != i
    | .gmm _ => l) now

/-- The checks of R248 for a GMM or a GLAUNCH in gang g: the reason of the first failure. -/
def State.gmmGangCheck (s : State) (g : Nat) (d : Gmm) : Option Nat :=
  match s.acceptedRows g d.grp with
  | none => some 5
  | some size => if size < d.off + d.need (d.bm * d.bn) (max 1 (s.members g).length) then some 6 else none

/-- Has the gang queue room: 8 operations, the running one among them (R243, R267)? -/
def State.gangRoom (s : State) (g : Nat) : Bool :=
  let x := s.gang g
  decide (x.queue.length + b2n x.run.isSome < 8)

/-- Has every gang operation a core issued completed (R249)? -/
def State.gangQuiet (s : State) (c : CoreId) : Bool :=
  (List.range 4).all fun g =>
    let x := s.gang g
    (x.queue.all fun e => match e with
      | .gmm d => d.src != .core c
      | _ => s.ledBy c != some g)
    && (match x.run with | some r => r.d.src != .core c | none => true)

/-- An entry accepted into a gang queue (R243). -/
def State.gangPut (s : State) (g : Nat) (e : GangEntry) : State := s.updGang g fun x => { x with queue := x.queue ++ [e] }

/-! ### Operand fetch (R246, R258, R334) -/

/-- Reads of physical pieces in turn, each with whether it carries poison; poisoned data is delivered as zeros and a mark
(R260). -/
def State.devReadMarked (s : State) (q : Req) (own : Own) (lim : Nat) (ps : List Piece) :
    Acc (List (List Byte × Bool)) × State :=
  let r := s.devAsk q own lim ps
  if !r.1 then (.wait, r.2)
  else
    Acc.used own ps (ps.foldl (fun (a : Acc (List (List Byte × Bool)) × State) p =>
      match a with
      | (.ok l, s) =>
        match s.devReadBlock q own lim p.pa p.n with
        | (.ok bs, s) => (.ok (l ++ [(bs, false)]), s)
        | (.poison, s) => (.ok (l ++ [(List.replicate p.n 0, true)]), s)
        | (.err c, s) => (.err c, s)
        | (.wait, s) => (.wait, s)
      | a => a) (.ok [], r.2))

/-- The physical pieces of linear ranges, range by range. -/
def State.xlateRanges (s : State) (x : DevCtx) : List (Nat × Nat) → DevAcc (List (List Piece)) × State
  | [] => (.ok [], s)
  | r :: rs =>
    match s.xlateBlocks x false (blocks (r.1 % 2 ^ 52) r.2) with
    | (.ok ps, s) =>
      match s.xlateRanges x rs with
      | (.ok l, s) => (.ok (ps :: l), s)
      | a => a
    | (.err c, s) => (.err c, s)
    | (.poison, s) => (.poison, s)
    | (.aborted, s) => (.aborted, s)
    | (.wait, s) => (.wait, s)

/-- Parts of a run of marked pieces joined back range by range. -/
def joinMarked : List (List Piece) → List (List Byte × Bool) → List (List Byte × Bool)
  | [], _ => []
  | ps :: rs, l => ((l.take ps.length).flatMap (·.1), (l.take ps.length).any (·.2)) :: joinMarked rs (l.drop ps.length)

/-- Linear ranges fetched by a member's engine: translated under one context, read as another requester. -/
def State.gangFetch (s : State) (x : DevCtx) (q : Req) (rs : List (Nat × Nat)) : DevAcc (List (List Byte × Bool)) × State :=
  match s.xlateRanges x rs with
  | (.ok pss, s) =>
    match s.devReadMarked q x.own x.lim pss.flatten with
    | (.ok l, s) => (.ok (joinMarked pss l), s)
    | (.err c, s) => (.err c, s)
    | (.poison, s) => (.poison, s)
    | (.wait, s) => (.wait, s)
  | (.err c, s) => (.err c, s)
  | (.poison, s) => (.poison, s)
  | (.aborted, s) => (.aborted, s)
  | (.wait, s) => (.wait, s)

/-- Row r of a strided operand: n bytes at `off` within the row. -/
def rowRange (base : Nat) (stride : Word) (off n r : Nat) : Nat × Nat := ((base + r * stride.toNat + off) % 2 ^ 52, n)

/-- The pass of an operation: first K element and K_b (R250). -/
def Gmm.passK (d : Gmm) (j : Nat) : Nat × Nat :=
  let kp := (passDepth d.afmt d.bfmt).getD 1
  (j * kp, min kp (d.k - j * kp))

/-- The A ranges of `rows` rows from row r0: elements, then scales, then lo parts (R246). -/
def aRanges (d : Gmm) (abase : Nat) (astride : Word) (ascale : Nat) (asstride : Word) (r0 rows k0 kb : Nat) : List (Nat × Nat) :=
  let rs := (List.range rows).map (r0 + ·)
  rs.map (rowRange abase astride (etypeBytes d.afmt k0) (etypeBytes d.afmt kb))
    ++ (if d.asc then rs.map (rowRange ascale asstride (k0 / 32) (kb / 32)) else [])
    ++ (if d.pair then rs.map (rowRange ascale asstride (2 * k0) (2 * kb)) else [])

/-- The B ranges of column block bn: elements, then scales, then lo parts (R246). -/
def bRanges (d : Gmm) (bn k0 kb : Nat) : List (Nat × Nat) :=
  let ks := (List.range kb).map (k0 + ·)
  ks.map (rowRange d.bbase d.bstride (32 * etypeBits d.bfmt * bn) (32 * etypeBits d.bfmt))
    ++ (if d.bsc then ((List.range (kb / 32)).map (k0 / 32 + ·)).map (rowRange d.bscale d.bsstride (256 * bn) 256) else [])
    ++ (if d.pair then ks.map (rowRange d.bscale d.bsstride (512 * bn) 512) else [])

end Sys2Proof.Machine
end

