-- ==== Sys2Proof/Machine/Trowel.lean ====
section
/-! DEFINITION. The Trowel: kernel images, work items, windows and their members (R313–R335). -/

namespace Sys2Proof.Machine

open Sys2Proof

/-- The sixteen doublewords of an image (R316). -/
def State.readImage (s : State) (kih : Nat) : Acc (List Word) × State :=
  match s.devRead kReq (.unit 24 11) 64 (bits (s.reg 24 .TRW_KIT_BASE 0) 47 7 * 128 + 128 * kih) 128 with
  | (.ok bs, s) => (.ok (words64 16 bs), s)
  | (.err c, s) => (.err c, s)
  | (.poison, s) => (.poison, s.poisonUsed 24 11 kReq (bits (s.reg 24 .TRW_KIT_BASE 0) 47 7 * 128 + 128 * kih) 6)
  | (.wait, s) => (.wait, s)

/-- KIND of an image. -/
def imgKind (w : List Word) : Nat := bits (w.getD 0 0) 3 0
/-- GANG of an image. -/
def imgGang (w : List Word) : Nat := bits (w.getD 0 0) 5 4
/-- ALT of an image. -/
def imgAlt (w : List Word) : Bool := bit (w.getD 0 0) 6
/-- TARGET of an image: 0 means 4,096. -/
def imgTarget (w : List Word) : Nat := let t := bits (w.getD 0 0) 20 8; if t = 0 then 4096 else t
/-- GRP of an image. -/
def imgGrp (w : List Word) : Nat := bits (w.getD 6 0) 18 15
/-- MROWS of an image. -/
def imgMrows (w : List Word) : Nat := bits (w.getD 6 0) 31 19
/-- NSLOT of an image. -/
def imgNslot (w : List Word) : Nat := bits (w.getD 13 0) 7 0

/-- The GMM an image describes, with M row blocks' worth of rows given by its members (R316, R323). -/
def imgGmm (w : List Word) (m : Nat) (grp : Nat) (ptb : Word) (ring win : Nat) : Gmm :=
  { bbase := bits (w.getD 1 0) 51 0, bstride := w.getD 2 0, bscale := bits (w.getD 3 0) 51 0, bsstride := w.getD 4 0
    m, n := bits (w.getD 5 0) 55 32, k := bits (w.getD 5 0) 31 0
    afmt := bits (w.getD 6 0) 3 0, bfmt := bits (w.getD 6 0) 7 4, asc := bit (w.getD 6 0) 8, bsc := bit (w.getD 6 0) 9
    add := false, fin := true, l := bits (w.getD 6 0) 14 10, grp, off := bits (w.getD 6 0) 63 32
    ptb, ring, src := .window win }

/-- Is an RSV bit of a gang template 1 (R316)? -/
def imgRsv (w : List Word) : Bool :=
  let la := maskBits 51 0
  let all : Word := BitVec.allOnes 64
  let ms := [maskBits 6 0 ||| maskBits 20 8 ||| maskBits 63 32, la, all, la, all, maskBits 31 0 ||| maskBits 55 32, all, la, la, la,
    la, la, all, maskBits 24 0, la, 0]
  (List.range 16).any fun j => w.getD j 0 &&& ~~~(ms.getD j 0) != 0

/-- The group window serial s of an image uses (R321). -/
def imgGroup (w : List Word) (serial : Nat) : Nat := imgGrp w + (if imgAlt w then serial % 2 else 0)

/-- Row blocks of members (R318). -/
def rowBlocks (ms : List Member) : Nat := (ms.map fun m => (m.rows + 255) / 256).foldl (· + ·) 0

/-- First row block of member m (R321). -/
def firstBlock (ms : List Member) (m : Nat) : Nat := rowBlocks (ms.take m)

/-- The member whose rows row block rb holds, and the block's number within the member (R323). -/
def memberOfBlock : List Member → Nat → Nat → Option (Nat × Nat)
  | [], _, _ => none
  | x :: xs, m, rb =>
    let n := (x.rows + 255) / 256
    if rb < n then some (m, rb) else memberOfBlock xs (m + 1) (rb - n)

/-- n_cap of a gang (R319). -/
def State.capMembers (s : State) (g : Nat) : Nat :=
  if s.flag 24 .GNG_CFG g 31 then s.fld 24 .GNG_CFG g 36 32 else popN 24 (s.fld 24 .GNG_CFG g 23 0)

/-- Next serial number of an image (R321). -/
def State.nextSerial (s : State) (kih : Nat) : Nat := look (fun _ => 0) s.trowel.serials kih

/-- Would rb row blocks exceed the group (R319, close cause 2)? The group is the one the window takes if it closes next
(log entry 20). -/
def State.overCapacity (s : State) (kih : Nat) (img : List Word) (rb : Nat) : Bool :=
  let g := imgGang img
  let d := imgGmm img 0 (imgGroup img (s.nextSerial kih)) 0 0 0
  let n := max 1 (s.capMembers g)
  decide ((s.acceptedRows g d.grp).getD 0 < (rb * d.bn + n - 1) / n * d.l * 256 * accW d.acc)

/-- A window closes (R319–R321): its cause, serial, slot, group and place in the close order. -/
def State.closeWindow (s : State) (w cause : Nat) : State :=
  let x := s.window w
  let serial := s.nextSerial x.kih
  let s := { s with trowel := { s.trowel with
    serials := put (fun _ => 0) s.trowel.serials x.kih (serial + 1)
    closeOrder := s.trowel.closeOrder + 1 } }
  (s.setWindow w { x with
    state := .closed, close := cause, serial, slot := serial % max 1 (imgNslot x.image), group := imgGroup x.image serial
    closedAt := s.trowel.closeOrder }).armTimers

/-- Is an owner the prefetch of some windows' data for some members? -/
def Own.prefOf (o : Own) (p : Nat → Option Nat → Bool) : Bool :=
  match o with
  | .pref w st => p w st
  | _ => false

/-- Prefetched data of some windows and members given up, with the reads and the requests outstanding for it (R335). -/
def State.dropPref (s : State) (p : Nat → Option Nat → Bool) : State :=
  let s := (s.fqWithdraw fun x => x.own.prefOf p).orphanFor fun o => o.prefOf p
  { s with trowel := { s.trowel with pref := s.trowel.pref.filter fun x => !p x.w x.s } }

/-- A window back to FREE (R320): its prefetched data and what its requests wait for go with it. -/
def State.freeWindow (s : State) (w : Nat) : State :=
  (((s.fqWithdraw fun x => x.own == .window w).dropPref fun v _ => v == w).setWindow w {}).armTimers

/-! ### Operand prefetch (R334) -/

/-- A part of a window's first-pass data: a row block of a member's stream with its scales, or a column block of the image's B (none). -/
structure PrefItem where
  s : Option Nat
  blk : Nat
  ctx : DevCtx
  ranges : List (Nat × Nat)

/-- The first-pass data of a window as its members stand (R334): each member's A rows and scales, then the image's B. -/
def prefItems (w : Nat) (x : Window) : List PrefItem :=
  let d := imgGmm x.image (256 * rowBlocks x.members) x.group x.ptb x.ring w
  let k := d.passK 0
  let block (y : Member) (j : Nat) : PrefItem :=
    { s := some y.s, blk := j, ctx := { q := kReq, own := .pref w (some y.s), ptb := y.ptb, ring := y.ring }
      ranges := aRanges d y.abase y.astride y.ascale y.asstride (256 * j) (min 256 (y.rows - 256 * j)) k.1 k.2 }
  ((x.members.filter fun y => !y.cancelled && y.failed.isNone).flatMap fun y => (List.range ((y.rows + 255) / 256)).map (block y))
    ++ (List.range d.bn).map fun n =>
      { s := none, blk := n, ctx := { q := kReq, own := .pref w none, ptb := x.ptb, ring := x.ring }, ranges := bRanges d n k.1 k.2 }

/-- Bytes of a part that has been prefetched. -/
def Pref.size (p : Pref) : Nat :=
  match p.data with
  | some l => l.foldl (fun n e => n + e.1.length) 0
  | none => 0

/-- Is a part there for window w, or not to be tried again, under the current epoch? -/
def State.prefHeld (s : State) (w : Nat) (it : PrefItem) : Bool :=
  s.trowel.pref.any fun p => p.w == w && p.s == it.s && p.blk == it.blk && p.tag == s.epochCur

/-- One part prefetched where it fits into the 64 MiB (R334). Data of an older epoch is replaced (R134, R335). A read that fails shows nothing
(R335) and is left to the operation, as poisoned data is. -/
def State.prefetchOne (s : State) (w : Nat) (it : PrefItem) : State :=
  let older := s.trowel.pref.filter fun p => !(p.w == w && p.s == it.s && p.blk == it.blk)
  let size := it.ranges.foldl (fun n r => n + r.2) 0
  let keep (s : State) (data : Option (List (List Byte × Bool))) : State :=
    { s with trowel := { s.trowel with pref := older ++ [{ w, s := it.s, blk := it.blk, tag := s.epochCur, data }] } }
  if 2 ^ 26 < older.foldl (fun n p => n + p.size) size then s
  else
    match s.gangFetch it.ctx kReq it.ranges with
    | (.wait, s) => s
    | (.ok l, t) => keep t (if l.any (·.2) then none else some l)
    | (.aborted, t) => keep t none
    | (_, t) => keep { s with free := t.free } none

/-- The oldest window of a gang that is not yet RUNNING (R334): the first opened of those, the lowest of equals (DESIGN CHOICE, log entry
67). -/
def State.nextWindow (s : State) (g : Nat) : Option Nat :=
  (s.trowel.windows.filter fun e =>
      e.2.gang == g && (e.2.state == .openW || e.2.state == .closed || e.2.state == .queued)).foldl
    (fun o e => match o with
      | none => some e.1
      | some v => if e.2.opened.toNat < (s.window v).opened.toNat then some e.1 else o) none

/-- Parts of the window of a gang that comes next prefetched, as many as a free number says (R334, R338). -/
def State.prefetch (s : State) (g : Nat) : State :=
  if !s.flag 24 .TRW_CTRL 0 1 then s
  else
    match s.nextWindow g with
    | none => s
    | some w =>
      let n := s.freeNat
      (((prefItems w (s.window w)).filter fun it => !s.prefHeld w it).take n.1).foldl (fun s it => s.prefetchOne w it) n.2

/-- What the prefetch of every gang has read by now. -/
def State.prefetchAll (s : State) : State := (List.range 4).foldl State.prefetch s

/-- TRW_EPOCH.CUR when the command at a stream's HEAD had its addresses translated, none when no translation of it stands (R134, R333). -/
def State.preTag (s : State) (st : Nat) : Option Nat :=
  (s.trowel.preDone.find? fun p => p.s == st && p.n == s.strF st 2 31 0).map (·.tag)

/-- The member a LAUNCH makes (R296, R317, R322, R324). One whose translation has been discarded carries the tag of the round before, so that its
dispatch translates again (R134). -/
def State.memberOf (s : State) (r : StreamRun) : Member :=
  { s := r.s, rows := bits (r.dw 1) 60 48, abase := bits (r.dw 2) 51 0, astride := r.dw 3, ascale := bits (r.dw 4) 51 0
    asstride := r.dw 5, crec := bits (r.dw 6) 51 0, seed := s.strW r.s 4, gen := r.gen, ptb := s.strW r.s 1
    ring := s.strF r.s 0 57 56, tag := (s.preTag r.s).getD ((s.epochCur + 2 ^ 32 - 1) % 2 ^ 32) }

/-- Poison has entered a row of member m of window w (R330). -/
def State.poisonMember (s : State) (w m : Nat) : State :=
  let x := s.window w
  s.setWindow w { x with members := setAt x.members m { (x.members.getD m {}) with poison := true } }

/-- A LAUNCH joins window w; the closes that its joining brings (R319). -/
def State.joinWindow (s : State) (r : StreamRun) (w : Nat) : State :=
  let x := s.window w
  let x := { x with members := x.members ++ [s.memberOf r] }
  let s := (s.setWindow w x).setRun { r with run := .member w (x.members.length - 1) }
  let s := (s.setStrState r.s 6).prefetch x.gang
  if imgTarget x.image ≤ x.members.length then s.closeWindow w 1
  else if bit (r.dw 0) 9 || !bit (r.dw 0) 10 then s.closeWindow w 3
  else s

/-- A LAUNCH opens a window in the lowest free index and joins it, or waits for one (R318); with no operation slot for the window it stays
READY (R298). -/
def State.openWindow (s : State) (r : StreamRun) (img : List Word) : State :=
  match (List.range 1024).find? fun w => (s.window w).state = .free with
  | none => s.setRun { r with run := .wantsWindow }
  | some w =>
    let dl := bits (img.getD 0 0) 63 32
    let dl := if dl = 0 then s.fld 24 .TRW_DEFDL 0 31 0 else dl
    let x : Window :=
      { state := .openW, kih := bits (r.dw 0) 63 32, ckey := bits (r.dw 1) 31 0, shape := bits (r.dw 1) 47 32
        deadline := BitVec.ofNat 64 (s.time + dl), opened := BitVec.ofNat 64 s.time, gang := imgGang img, image := img
        ptb := s.strW r.s 1, ring := s.strF r.s 0 57 56, ckeyOwn := !bit (r.dw 0) 10, tag := s.epochCur }
    if s.slotRoom then ((s.setWindow w x).joinWindow r w).armTimers else (s.dropRun r.s).setStrState r.s 2

/-- The OPEN window of a LAUNCH's key (R317, R318). -/
def State.openWindowOf (s : State) (r : StreamRun) : Option Nat :=
  (s.trowel.windows.find? fun e =>
    e.2.state == .openW && e.2.kih == bits (r.dw 0) 63 32 && e.2.ckey == bits (r.dw 1) 31 0
      && e.2.shape == bits (r.dw 1) 47 32).map (·.1)

/-- A KIND 1 LAUNCH joins the OPEN window of its key, or opens one (R317–R319). -/
def State.coalesce (s : State) (r : StreamRun) (img : List Word) : State :=
  let kih := bits (r.dw 0) 63 32
  match (if bit (r.dw 0) 10 then s.openWindowOf r else none) with
  | none => s.openWindow r img
  | some w =>
    let rb := rowBlocks (s.window w).members + (bits (r.dw 1) 60 48 + 255) / 256
    if s.overCapacity kih img rb then (s.closeWindow w 2).openWindow r img else s.joinWindow r w

/-- Is a KIND 1 LAUNCH incompatible with its image (R317)? -/
def State.launchBad (s : State) (r : StreamRun) (img : List Word) : Bool :=
  let rows := bits (r.dw 1) 60 48
  let g := imgGang img
  let d := imgGmm img rows (imgGrp img) 0 0 0
  rows == 0 || decide (imgMrows img < rows) || !s.gangV g || (d.check (imgRsv img)).isSome
    || (s.acceptedRows g (imgGrp img)).isNone || (imgAlt img && (s.acceptedRows g (imgGrp img + 1)).isNone)

/-- Queued items of a die. -/
def State.queued (s : State) (d : Nat) : List (Nat × Nat) := look (fun _ => []) s.trowel.wq d

/-- The die of a KIND 0 work item: DIE, or for 0x1F the die with the fewest queued items, the lowest of equals (R313). -/
def State.itemDie (s : State) (die : Nat) : Nat :=
  if die = 0x1F then
    (List.range 24).foldl (fun b d => if (s.queued d).length < (s.queued b).length then d else b) 0
  else die

/-- Its place in the order of starts of a stream's started command. -/
def State.startOrd (s : State) (st : Nat) : Nat := match s.runOf st with | some r => r.ord | none => 0

/-- A work item placed by stream PRIO and then by start order (R313). -/
def State.insertItem (s : State) (st : Nat) : List (Nat × Nat) → List (Nat × Nat)
  | [] => [(st, s.strF st 2 31 0 % s.strSlots st)]
  | x :: xs =>
    let p := s.strF x.1 0 55 53
    let q := s.strF st 0 55 53
    if p < q ∨ (p = q ∧ s.startOrd st < s.startOrd x.1) then (st, s.strF st 2 31 0 % s.strSlots st) :: x :: xs
    else x :: s.insertItem st xs

/-- A LAUNCH whose image has KIND 0 becomes a work item (R313); with no slot on its die it stays READY (R298). -/
def State.queueItem (s : State) (r : StreamRun) : State :=
  if bits (r.dw 1) 60 48 ≠ 0 then s.faultStream r 0x08 0
  else
    let die := bits (r.dw 7) 21 17
    if 24 ≤ die ∧ die ≤ 30 then s.faultStream r 0x01 0
    else
      let d := s.itemDie die
      if 5120 ≤ s.fld 24 .TRW_WQN d 12 0 then (s.dropRun r.s).setStrState r.s 2
      else
        let empty := (s.queued d).isEmpty
        let s := { s with trowel := { s.trowel with wq := put (fun _ => []) s.trowel.wq d (s.insertItem r.s (s.queued d)) } }
        let s := (s.setRun { r with run := .item d false }).wqnSync d
        if empty then s.sendIrq (s.fld 24 .TRW_WQROUTE d 15 0) 24 else s

/-- A window's operation has failed, or its group has closed: every member not yet scattered faults with FCODE 0x06 and the
window is freed (R331). -/
def State.failWindow (s : State) (w : Nat) : State :=
  let x := s.window w
  let s := s.fqWithdraw fun q => (x.members.drop x.next).any fun m => q.own == .stream m.s
  let s := (x.members.drop x.next).foldl (fun s m =>
    match s.runOf m.s with
    | some r => if (match r.run with | .member w' _ => w' == w | _ => false) then s.faultStream r 0x06 0 else s
    | none => s) s
  s.freeWindow w

/-- The context of a window's own accesses: the PTB and RING of the stream that opened it (R324). -/
def winCtx (w : Nat) (x : Window) : DevCtx := { q := kReq, eng := 0, own := .window w, ptb := x.ptb, ring := x.ring }

/-- A member's 32-byte record (R330). -/
def memberRecord (x : Window) (m : Nat) (status now : Nat) : List Byte :=
  let y := x.members.getD m {}
  let code := match y.failed with | some (_, c) => c | none => 0
  let w0 := status + 2 ^ 4 * b2n y.poison + 2 ^ 8 * x.flags + 2 ^ 16 * m + 2 ^ 32 * (x.serial % 2 ^ 32)
  let w1 := 256 * firstBlock x.members m % 2 ^ 24 + 2 ^ 24 * y.rows + 2 ^ 37 * x.slot + 2 ^ 45 * (if status = 2 then code else 0)
  toBytes 8 w0 ++ toBytes 8 w1 ++ toBytes 8 x.tstart.toNat ++ toBytes 8 now

end Sys2Proof.Machine
end

