-- ==== Sys2Proof/Machine/SnapOps.lean ====
section
/-! DEFINITION. Snapshot images: blocks, digests, manifests and result records (R406–R411). -/

namespace Sys2Proof.Machine

open Sys2Proof

/-- Bytes of a block of an image (R409). -/
def blockSize : Nat := 4194304

/-- The captured stream state as a region (R408, R409). -/
def genRegion (cap count : Nat) : Region := { buf0 := cap, bytes := 16 * count, src := cap }

/-- The regions of an image (R409). -/
def Snap.image (p : Snap) : List Region := p.regions ++ [genRegion p.genCap p.genCount]

/-- Bytes of an image. -/
def imageBytes (rs : List Region) : Nat := (rs.map (·.bytes)).foldl (· + ·) 0

/-- Blocks of n bytes (R409). -/
def blockCount (n : Nat) : Nat := (n + blockSize - 1) / blockSize

/-- Bytes of the manifest area (R409). -/
def manifestBytes (nreg1 nblk : Nat) : Nat := (128 + 32 * nreg1 + 32 * nblk + blockSize - 1) / blockSize * blockSize

/-- The parts of bytes [off, off + n) of an image, by region: linear address in the region's buffer and length. -/
def imageParts (buf : Region → Nat) : List Region → Nat → Nat → List Piece
  | [], _, _ => []
  | r :: rs, off, n =>
    if n = 0 then []
    else if off < r.bytes then
      let k := min n (r.bytes - off)
      ⟨buf r + off, k⟩ :: imageParts buf rs 0 (n - k)
    else imageParts buf rs (off - r.bytes) n

/-- Bytes of block i of an image of n bytes. -/
def blockLen (n i : Nat) : Nat := min blockSize (n - i * blockSize)

/-- Linear reads of parts. -/
def State.devReadParts (s : State) (x : DevCtx) (ps : List Piece) : DevAcc (List Byte) × State :=
  match s.xlateBlocks x false (ps.flatMap fun p => blocks p.pa p.n) with
  | (.ok l, s) =>
    match s.devReadPieces x.q x.own x.lim l with
    | (.ok bs, s) => (.ok bs, s)
    | (.err c, s) => (.err c, s)
    | (.poison, s) => (.poison, s)
    | (.wait, s) => (.wait, s)
  | (.err c, s) => (.err c, s)
  | (.poison, s) => (.poison, s)
  | (.aborted, s) => (.aborted, s)
  | (.wait, s) => (.wait, s)

/-- Linear writes of the parts of a byte string in turn. -/
def State.devWriteParts (s : State) (x : DevCtx) : List Piece → List Byte → DevAcc Unit × State
  | [], _ => (.ok (), s)
  | p :: ps, bs =>
    match s.devWriteLin x p.pa (bs.take p.n) false with
    | (.ok _, s) => s.devWriteParts x ps (bs.drop p.n)
    | r => r

/-- Leaf digest of a block (R410). -/
def leafDigest (b : List Byte) : List Byte := sha3_256 (0x00 :: b)

/-- One level of the Merkle tree: pairs hashed, an odd last node unchanged (R410). -/
def merkleLevel : List (List Byte) → List (List Byte)
  | a :: b :: l => sha3_256 (0x01 :: (a ++ b)) :: merkleLevel l
  | l => l

/-- The Merkle root (R410). -/
def merkleRoot : Nat → List (List Byte) → List Byte
  | _, [] => []
  | _, [a] => a
  | 0, a :: _ => a
  | f + 1, l => merkleRoot f (merkleLevel l)

/-- The root of the recorded leaves of n blocks. -/
def rootOf (leaves : Sparse (List Byte)) (n : Nat) : List Byte :=
  merkleRoot 64 ((List.range n).map fun i => look (fun _ => []) leaves i)

/-- A region entry of a manifest (R409; log entry 21). -/
def regionEntry (r : Region) : List Byte :=
  toBytes 8 r.buf0 ++ toBytes 8 0 ++ toBytes 8 (r.bytes + 2 ^ 40 * r.mode) ++ toBytes 8 0

/-- The manifest header (R409). -/
def manifestHeader (serial : Nat) (p : Snap) : List Byte :=
  let rs := p.image
  let n := imageBytes rs
  let nblk := blockCount n
  toBytes 8 (0x4E535A4A + 2 ^ 32) ++ toBytes 8 serial ++ toBytes 8 p.id ++ toBytes 8 p.flipLsn
    ++ toBytes 8 (nblk + 2 ^ 32 * rs.length) ++ toBytes 8 n ++ toBytes 8 p.flipTime ++ rootOf p.leaves nblk
    ++ List.replicate 40 0

/-- The context of the snapshot mover (R136, R406). -/
def Snap.ctx (p : Snap) (own : Own) : DevCtx := { q := kReq, eng := 2, own, ptb := p.ptb, ring := p.ring, lim := 4096 }

/-- The bytes of the result record (R411). -/
def Snap.record (p : Snap) (reason : Nat) : List Byte :=
  let st (t : Nat) : Nat := (p.tiers.getD t (0, 0)).1
  toBytes 8 p.id ++ toBytes 8 (p.flipLsn % 2 ^ 32 + 2 ^ 32 * reason)
    ++ toBytes 8 (st 0 + 2 ^ 8 * st 1 + 2 ^ 16 * st 2) ++ toBytes 8 p.flipTime
    ++ (if reason = 0 then rootOf p.leaves (blockCount (imageBytes p.image)) else List.replicate 32 0)

/-- A SNAP refused or ended without a flip: the reason written to its result record, and then the fault, or for a cancel nothing more (R407,
R408). A record that must wait is tried again; one that cannot be written is logged (R468). -/
def State.snapClose (s : State) (r : StreamRun) (p : Snap) (reason : Nat) : State :=
  match s.devWriteLin (p.ctx (.stream r.s)) p.result (p.record reason) false with
  | (.wait, s) => s.setRun { r with run := .snapEnds p reason }
  | (a, s) =>
    let s := match a with | .ok _ => s | _ => s.recordLost (p.result % 2 ^ 48)
    if reason = 9 then s.dropRun r.s else s.faultStream r 0x0A 0

/-- A SNAP whose record waits goes on. -/
def State.snapRetry (s : State) (r : StreamRun) : State :=
  match r.run with
  | .snapEnds p reason => s.snapClose r p reason
  | _ => s

/-- The running SNAP ends without a flip, trigger 243 disarmed (R408). -/
def State.snapDrop (s : State) (p : Snap) (reason : Nat) : State :=
  let s := { s.setFld 24 .TT_CTL 243 0 0 0 with snap := none }
  match s.runOf p.stream with
  | some r => s.snapClose r p reason
  | none => s

/-- A SNAP retires once it has flipped, every requested tier has ended and its record has been performed (R305, R411); copies of mode-2 regions that are not made go on. -/
def State.snapRetire (s : State) : State :=
  match s.snap with
  | none => s
  | some p =>
    if !p.flipped || p.tiers.any fun t => t.1 == 15 then s
    else
      match (if p.recorded then (.ok (), s) else s.devWriteLin (p.ctx (.stream p.stream)) p.result (p.record 0) false) with
      | (.wait, s) => s
      | (r, s) =>
        let s := match r with | .ok _ => s | _ => s.recordLost (p.result % 2 ^ 48)
        if s.postedBy (.stream p.stream) then { s with snap := some { p with recorded := true } }
        else
          let s := { s with snap := none, staging := if p.staged then s.staging else s.staging ++ [p] }
          match s.runOf p.stream with
          | some c => s.finish c
          | none => s

/-- Every SNAP whose record waits to be written or to be performed. -/
def State.snapsRetry (s : State) : State := (s.trowel.runs.foldl State.snapRetry s).snapRetire

/-- A running SNAP changed. -/
def State.updSnap (s : State) (f : Snap → Snap) : State := { s with snap := s.snap.map f }

/-- Does a tier of the running SNAP run (R411)? -/
def State.tierRuns (s : State) (t : Nat) : Bool :=
  match s.snap with
  | some p => (p.tiers.getD t (0, 0)).1 == 15
  | none => false

/-- A tier that runs ends with a status: the first failure decides it (R411). What it has posted goes on, and a FENCE of its stream waits for
it (R297). -/
def State.endTier (s : State) (t status : Nat) : State :=
  if s.tierRuns t then
    let st := match s.snap with | some p => p.stream | none => 0
    let s := s.updSnap fun p => { p with tiers := setAt p.tiers t (status, (p.tiers.getD t (0, 0)).2) }
    ((s.renamePosts fun o => if o == .tier t then .past st else o).orphanPosts (.tier t)).snapRetire
  else s

end Sys2Proof.Machine
end

