-- ==== Sys2Proof/Machine/StreamCmd.lean ====
section
/-! DEFINITION. The commands of streams, sync objects, timed triggers and the Trowel (R288–R337). A command that cannot
be taken in the present state is turned away: it leaves the state as it is (log entry 8). -/

namespace Sys2Proof.Machine

open Sys2Proof

/-! ### Submission (R291–R294, R333, R377) -/

/-- Pages a linear range touches: a first address in each 32 MiB span. -/
def spanPages (la n : Nat) : List Nat :=
  if n = 0 then []
  else la :: (List.range ((la + n - 1) / 2 ^ 25 - la / 2 ^ 25)).map fun i => (la / 2 ^ 25 + i + 1) * 2 ^ 25 % 2 ^ 52

/-- The pages a command's own addresses touch, for its pre-translation (R333): of A and of its scales the whole range from the first row to
the end of the last. -/
def prePages (ws : List Word) (rowBytes : Nat) (scaleBytes : Nat) : List (Nat × Bool) :=
  let w (j : Nat) : Word := ws.getD j 0
  let rd (l : List Nat) : List (Nat × Bool) := l.map fun a => (a, false)
  let wr (l : List Nat) : List (Nat × Bool) := l.map fun a => (a, true)
  let rows := bits (w 1) 60 48
  match bits (w 0) 7 0 with
  | 1 =>
    let range (base : Nat) (stride : Word) (n : Nat) : List Nat :=
      let last : Int := (rows - 1 : Nat) * stride.toInt
      spanPages ((base + min 0 last) % 2 ^ 52).toNat (last.natAbs + n)
    if rows = 0 then []
    else
      rd (range (bits (w 2) 51 0) (w 3) rowBytes)
        ++ (if scaleBytes = 0 then [] else rd (range (bits (w 4) 51 0) (w 5) scaleBytes))
        ++ (if bits (w 6) 51 0 ≠ 0 then wr (spanPages (bits (w 6) 51 0) 32) else [])
  | 3 => rd (spanPages (bits (w 1) 51 0) (bits (w 3) 39 0)) ++ wr (spanPages (bits (w 2) 51 0) (bits (w 3) 39 0))
  | 4 => wr (spanPages (bits (w 1) 51 0) (bits (w 3) 39 0))
  | _ => []

/-- A command's translations are all made, under the tag of the first (R134). -/
def State.preKeep (s : State) (st n tag : Nat) : State :=
  let s := s.dropDone st (some n)
  { s with trowel := { s.trowel with preDone := s.trowel.preDone ++ [{ s := st, n, tag }] } }

/-- Pre-translation of one command's pages up to the first that waits; an ABORT discards it (R333). -/
def State.preOver (s : State) (p : Pre) : List (Nat × Bool) → Option Pre × State
  | [] => (none, s.preKeep p.s p.n (p.tag.getD s.epochCur))
  | (la, wr) :: l =>
    let p := { p with tag := some (p.tag.getD s.epochCur) }
    match s.xlateFq kReq 0 (.pre p.s) (s.strW p.s 1) (s.strF p.s 0 57 56) la wr with
    | (.ok _, s) => s.preOver p l
    | (.aborted, s) => (none, s)
    | (.wait, s) => (some { p with pages := some ((la, wr) :: l) }, s)

/-- Row bytes of A and of its scales that an image gives. -/
def imageRows (w : List Word) : Nat × Nat :=
  let d := imgGmm w 1 0 0 0 0
  (etypeBytes d.afmt d.k, if d.asc then d.k / 32 else 0)

/-- The row bytes that a command's pre-translation needs: `wait` while the read of a LAUNCH's image does, an error for an image that is no gang
template or whose read fails, which shows nothing (R335). -/
def State.imageRow (s : State) (ws : List Word) : Acc (Nat × Nat) × State :=
  if bits (ws.getD 0 0) 7 0 ≠ 1 ∨ bits (ws.getD 1 0) 60 48 = 0 then (.ok (0, 0), s)
  else
    match s.readImage (bits (ws.getD 0 0) 63 32) with
    | (.ok w, s) => (if imgKind w = 1 then .ok (imageRows w) else .err 0, s)
    | (.wait, s) => (.wait, s)
    | (_, t) => (.err 0, { s with free := t.free })

/-- One command's pre-translation, once its image has been read. -/
def State.preOne (s : State) (p : Pre) : Option Pre × State :=
  match p.pages with
  | some l => s.preOver p l
  | none =>
    match s.imageRow p.cmd with
    | (.ok row, s) => s.preOver p (prePages p.cmd row.1 row.2)
    | (.wait, s) => (some p, s)
    | (_, s) => (none, s)

/-- Every pre-translation taken as far as it goes (R333). -/
def State.preRun (s : State) : State :=
  s.trowel.pre.foldl (fun s p =>
    match s.preOne p with
    | (none, s) => s
    | (some p, s) => { s with trowel := { s.trowel with pre := s.trowel.pre ++ [p] } })
    { s with trowel := { s.trowel with pre := [] } }

/-- Does an unretired FENCE precede command count n in a stream, counts being modulo 2³² (R288, R300)? -/
def State.fenceAhead (s : State) (st n : Nat) : Bool :=
  let head := s.strF st 2 31 0
  (List.range ((n + 2 ^ 32 - head) % 2 ^ 32)).any fun i => bits (s.mem64 (s.strSlot st ((head + i) % 2 ^ 32))) 7 0 == 0x0A

/-- The pre-translations of commands appended at counts first … (R333). -/
def State.preAdd (s : State) (st first : Nat) (cmds : List (List Word)) : State :=
  if !s.flag 24 .TRW_CTRL 0 0 then s
  else
    let new := (enumFrom first cmds).filterMap fun e =>
      if s.fenceAhead st (e.1 % 2 ^ 32) then none else some ({ s := st, n := e.1 % 2 ^ 32, cmd := e.2 } : Pre)
    ({ s with trowel := { s.trowel with pre := s.trowel.pre ++ new } }).preRun

/-- Words in groups of eight. -/
def groups8 : Nat → List Word → List (List Word)
  | 0, _ => []
  | n + 1, ws => if ws.isEmpty then [] else ws.take 8 :: groups8 n (ws.drop 8)

/-- A failed slot write is logged as class 0x04 in the K-die's own ERR_ block (R292): the error response of another die, or one that was lost on
its way, has not been (R459). -/
def State.slotLog (s : State) (pa code : Nat) : State :=
  let gen := match s.homeCheck kReq pa with | some (_, d, _) => d | none => (s.decodePA pa).die
  if gen = 24 && code != 7 then s else s.errResponse 24 code 11 kReq pa

/-- Commands written to ring slots from count n on, up to the first that fails (R291). -/
def State.writeSlots (s : State) (st n : Nat) : List (List Word) → Acc Unit × State
  | [] => (.ok (), s)
  | c :: cs =>
    match s.devWrite kReq .none 64 (s.strSlot st n) (bytesOf c) false with
    | (.ok _, s) => s.writeSlots st (n + 1) cs
    | (.err code, t) => (.err code, t.slotLog (s.strSlot st n) code)
    | r => r

/-- A CMD packet rejected (R292): reason 3 carries no EXPSEQ and no CREDIT. -/
def State.rejectCmd (s : State) (st reason seq : Nat) : State :=
  if reason = 3 then s.sendSevt 1 3 0 st seq 0 0 0 else s.streamEvent st 1 reason 0 seq

/-- The packet processed as one unit (R291). -/
def State.appendCmds (s : State) (st seq : Nat) (cmds : List (List Word)) : State :=
  let n := cmds.length
  if s.fld 24 .STM_CFG 0 18 0 ≤ st || s.strState st == 0 then s.rejectCmd st 3 seq
  else if s.strState st = 8 then s.rejectCmd st 4 seq
  else
    let d := (BitVec.ofNat 32 seq - BitVec.ofNat 32 (s.strExp st)).toInt
    if 0 < d then s.rejectCmd st 1 seq
    else
      let skip := min d.natAbs n
      let m := n - skip
      if m = 0 then s.sendCreditOnly st
      else if s.strCredit st < m then s.rejectCmd st 2 seq
      else
        let tail := s.strF st 2 63 32
        match s.writeSlots st tail (cmds.drop skip) with
        | (.ok _, s) =>
          let s := (s.setStrF st 2 63 32 (tail + m)).setStrF st 3 31 0 (s.strExp st + m)
          let s := if s.strState st = 1 then s.setStrState st 2 else s
          (s.countReg 24 .STM_APPENDED 0 m).preAdd st tail (cmds.drop skip)
        | (.wait, s) => s
        | (_, s) => s.rejectCmd st 5 seq

/-- The commands of a packet that are new (R291). -/
def State.newCmds (s : State) (st seq : Nat) (cmds : List (List Word)) : List (List Word) :=
  cmds.drop (BitVec.ofNat 32 seq - BitVec.ofNat 32 (s.strExp st)).toInt.natAbs

/-- Is a slot write held up by a fill or a retraining of its home? -/
def State.slotsBusy (s : State) (st : Nat) (cmds : List (List Word)) : Bool :=
  match s.writeSlots st (s.strF st 2 63 32) cmds with
  | (.wait, _) => true
  | _ => false

/-- Does a slot write get an error response (R291, R292)? -/
def State.slotsFail (s : State) (st : Nat) (cmds : List (List Word)) : Bool :=
  match s.writeSlots st (s.strF st 2 63 32) cmds with
  | (.err _, _) => true
  | _ => false

/-- Is a CMD packet answered with a packet of its own: rejected, or a pure duplicate (R291, R292)? -/
def State.cmdAnswers (s : State) (st seq : Nat) (cmds : List (List Word)) : Bool :=
  let d := (BitVec.ofNat 32 seq - BitVec.ofNat 32 (s.strExp st)).toInt
  let n := cmds.length
  decide (s.fld 24 .STM_CFG 0 18 0 ≤ st) || s.strState st == 0 || s.strState st == 8 || decide (0 < d)
    || decide (n ≤ d.natAbs) || decide (s.strCredit st < n - d.natAbs) || s.slotsFail st (s.newCmds st seq cmds)

/-- CMD (R291–R294, R377). A packet that has to be answered stays in the receive buffer while the store of event packets is full (R380,
log entry 66). -/
def execCmd (st : StreamId) (seq : BitVec 32) (cmds : List Word) (s : State) : Out :=
  if s.stopped || (s.link .agd).state != 5 then done s
  else if cmds.length = 0 ∨ 64 < cmds.length ∨ cmds.length % 8 ≠ 0 then
    done (s.malformed .agd 0x30 (1 + (cmds.length + 1) / 2))
  else
    let cs := groups8 8 cmds
    if s.strState st.toNat != 0 && s.slotsBusy st.toNat (s.newCmds st.toNat seq.toNat cs) then done s
    else
      let t := (s.owe .agd 0 (1 + 4 * cs.length)).appendCmds st.toNat seq.toNat cs
      done (if !s.evtRoom && s.cmdAnswers st.toNat seq.toNat cs then s else t)

/-! ### Stream operations (R289, R302, R303) -/

/-- STM_CMDSTAT.RES. -/
def State.cmdRes (s : State) (res : Nat) : State := s.setReg 24 .STM_CMDSTAT 0 (BitVec.ofNat 64 res)

/-- ENABLE (R289): RLOG and the alignment of RBASE are checked. -/
def State.strEnable (s : State) (st : Nat) : State :=
  if s.fld 24 .STM_CFG 0 18 0 ≤ st then s.cmdRes 3
  else if s.strState st ≠ 0 then s.cmdRes 2
  else
    let rlog := s.strF st 0 52 48
    if rlog < 4 ∨ 20 < rlog ∨ s.strF st 0 5 0 ≠ 0 then s.cmdRes 3
    else
      let s := ((s.dropDone st none).setStrW st 2 0).setStrF st 3 35 32 1
      let s := { s with trowel := { s.trowel with enabled := (st :: s.trowel.enabled).mergeSort (· ≤ ·) } }
      (s.noteCredit st).cmdRes 1

/-- DISABLE (R302). -/
def State.strDisable (s : State) (st : Nat) : State :=
  if s.fld 24 .STM_CFG 0 18 0 ≤ st then s.cmdRes 3
  else if s.strState st = 1 ∨ s.strState st = 7 then
    let s := (s.setStrState st 0).dropRun st
    ({ s with trowel := { s.trowel with enabled := s.trowel.enabled.filter (· != st) } }).cmdRes 1
  else s.cmdRes 2

/-- RETRY (R302): the command at HEAD starts again from the beginning. -/
def State.strRetry (s : State) (st : Nat) : State :=
  if s.fld 24 .STM_CFG 0 18 0 ≤ st then s.cmdRes 3
  else if s.strState st = 7 then ((s.dropRun st).setStrState st 2).cmdRes 1
  else s.cmdRes 2

/-- SKIP (R302): the command retires without effect, signal or change of GEN; where its packet has to wait for room it is RUNNING until then
(R380). -/
def State.strSkip (s : State) (st : Nat) : State :=
  if s.fld 24 .STM_CFG 0 18 0 ≤ st then s.cmdRes 3
  else if s.strState st = 7 then
    let r := (s.runOf st).getD { s := st }
    ((s.setStrState st 5).retireBase r false).cmdRes 1
  else s.cmdRes 2

/-- A member leaves a window that has not passed step 1 of its dispatch (R303, R320, R322, R335). -/
def State.leaveWindow (s : State) (st w m : Nat) : State :=
  let x := s.window w
  if x.state = .openW ∨ (x.state = .closed ∧ x.step = 0) then
    let ms := dropAt x.members m
    let s := s.dropRun st
    if ms.isEmpty then s.freeWindow w
    else
      let s := s.setWindow w { x with members := ms }
      { s with trowel := { s.trowel with runs := s.trowel.runs.map fun r =>
        match r.run with
        | .member w' m' => if w' = w ∧ m < m' then { r with run := .member w (m' - 1) } else r
        | _ => r } }
  else s.setWindow w { x with members := setAt x.members m { (x.members.getD m {}) with cancelled := true } }

/-- Where the next block of a COPY or FILL that has come to offset off goes: a block ends at a 4 KiB boundary of the destination (R303). -/
def copyDst (r : StreamRun) (off : Nat) : Nat := bits (r.dw (if r.opc = 3 then 2 else 1)) 51 0 + off

/-- Does a COPY or FILL stop where it stands when its stream is cancelled: at a 4 KiB boundary of its destination, with bytes left (R303)? -/
def copyStops (r : StreamRun) (off : Nat) : Bool := decide (copyDst r off % 4096 = 0 ∧ off < bits (r.dw 3) 39 0)

/-- A cancelled SNAP that has not armed its trigger ends: with its plan's header its record holds reason 9 (R408). -/
def State.snapUnbegun (s : State) (r : StreamRun) : State :=
  match s.devWordsLin { s.strCtx r.s 2 4096 with ring := s.strF r.s 0 57 56 } (bits (r.dw 2) 51 0) 16 with
  | (.ok h, t) => t.snapClose r { stream := r.s, id := t.snapCount + 1, result := bits (h.getD 5 0) 51 0, ptb := t.strW r.s 1
                                  ring := t.strF r.s 0 57 56 } 9
  | _ => s.dropRun r.s

/-- The command at HEAD ended by a cancel according to its kind (R303). -/
def State.endByCancel (s : State) (r : StreamRun) : State :=
  match r.run with
  | .waiting _ => ((s.dropRun r.s).countWaiters (bits (r.dw 1) 15 0)).armTimers
  | .timed _ => (s.dropRun r.s).armTimers
  | .member w m => s.leaveWindow r.s w m
  | .item d false =>
    let s := { s with trowel := { s.trowel with wq := put (fun _ => []) s.trowel.wq d ((s.queued d).filter fun e => e.1 != r.s) } }
    (s.dropRun r.s).wqnSync d
  | .item _ true => s
  | .glaunch _ _ => s
  | .faulting f x => s.faultStream r f x
  | .snap =>
    match s.snap with
    | some p => if p.stream = r.s ∧ !p.flipped then s.snapDrop p 9 else s
    | none => s.dropRun r.s
  | .snapEnds _ _ => s
  | .retiring _ => s
  | .begun => if r.opc = 2 then s else if r.opc = 9 then s.snapUnbegun r else s.dropRun r.s
  | .copying off => if copyStops r off then s.dropRun r.s else s
  | .wantsWindow | .fence | .faulted => s.dropRun r.s

/-- What a stream's commands have run ahead is undone (R335): its pre-translations, made and waiting, and its prefetched data. -/
def State.undoAhead (s : State) (st : Nat) : State :=
  let s := { s with trowel := { s.trowel with pre := s.trowel.pre.filter fun p => p.s != st } }.dropDone st none
  let s := { s with dtlb := put (fun _ => []) s.dtlb 24 ((look (fun _ => []) s.dtlb 24).filter fun e => e.pre != some st) }
  ((s.fqWithdraw fun w => w.own == .pre st || w.own == .stream st).orphanDrds (.pre st)).dropPref fun _ m => m == some st

/-- CANCEL (R303, R335). -/
def State.strCancel (s : State) (st : Nat) : State :=
  if s.fld 24 .STM_CFG 0 18 0 ≤ st then s.cmdRes 3
  else if s.strState st = 0 ∨ s.strState st = 8 then s.cmdRes 2
  else
    let s := s.setStrState st 8
    let s := { s with trowel := { s.trowel with cancelCode := put (fun _ => 0) s.trowel.cancelCode st 0 } }.undoAhead st
    let s := match s.runOf st with | some r => s.endByCancel r | none => s
    s.cmdRes 1

/-- STM_CMD written (R302): an OP of 0, 6 or 7 is ignored. -/
def State.wrStmCmd (s : State) (v : Word) : State :=
  let st := bits v 17 0
  match bits v 20 18 with
  | 1 => s.strEnable st
  | 2 => s.strDisable st
  | 3 => s.strRetry st
  | 4 => s.strSkip st
  | 5 => s.strCancel st
  | _ => s

/-- ENABLE (R289). -/
def execEnable (q : Src) (st : StreamId) (s : State) : Out := regCmd q 24 .STM_CMD 0 s fun s => s.strEnable st.toNat
/-- DISABLE (R302). -/
def execDisable (q : Src) (st : StreamId) (s : State) : Out := regCmd q 24 .STM_CMD 0 s fun s => s.strDisable st.toNat
/-- RETRY (R302). -/
def execRetry (q : Src) (st : StreamId) (s : State) : Out := regCmd q 24 .STM_CMD 0 s fun s => s.strRetry st.toNat
/-- SKIP (R302). -/
def execSkip (q : Src) (st : StreamId) (s : State) : Out := regCmd q 24 .STM_CMD 0 s fun s => s.strSkip st.toNat
/-- CANCEL (R303). -/
def execCancel (q : Src) (st : StreamId) (s : State) : Out := regCmd q 24 .STM_CMD 0 s fun s => s.strCancel st.toNat

/-- The end of a cancel: unstarted commands are discarded (R303). -/
def State.cancelEnd (s : State) (st : Nat) : State :=
  let s := (s.setStrF st 2 31 0 (s.strF st 2 63 32)).setStrState st 1
  let s := s.streamEvent st 3 (look (fun _ => 0) s.trowel.cancelCode st) 0 0
  s.sendIrq (s.fld 24 .STM_ROUTE 0 15 0) 24

/-- CANCEL_END (R303, R380): the command at HEAD has ended, and its event packet finds room. -/
def execCancelEnd (st : StreamId) (s : State) : Out :=
  if !s.stopped && s.strState st.toNat == 8 && (s.runOf st.toNat).isNone && s.evtRoom then done (s.cancelEnd st.toNat) else done s

/-! ### Starting (R298) -/

/-- Is a free slot there for the command at HEAD, read from its ring (R298)? A LAUNCH of a runtime kernel needs one of its die's. -/
def State.slotFree (s : State) (st : Nat) : Bool :=
  let a := s.strSlot st (s.strF st 2 31 0)
  let w0 := s.mem64 a
  match bits w0 7 0 with
  | 1 =>
    match s.readImage (bits w0 63 32) with
    | (.ok img, _) =>
      let die := bits (s.mem64 (a + 56)) 21 17
      imgKind img != 0 || decide (24 ≤ die ∧ die ≤ 30) || decide (s.fld 24 .TRW_WQN (s.itemDie die) 12 0 < 5120)
    | _ => true
  | 2 | 3 | 4 | 9 => s.slotRoom
  | _ => true

/-- READY streams whose command finds a slot. -/
def State.readyStreams (s : State) : List Nat :=
  s.trowel.enabled.filter fun st => s.strState st == 2 && s.slotFree st

/-- The stream whose command starts next: the highest PRIO, then ascending ID after the last started (R298). -/
def State.nextStream (s : State) : Option Nat :=
  let l := s.readyStreams
  let top := (l.map fun st => s.strF st 0 55 53).foldl max 0
  let l := l.filter fun st => s.strF st 0 55 53 == top
  match s.trowel.lastStart.find? fun e => e.1 == top with
  | some e => match l.find? fun st => decide (e.2 < st) with | some st => some st | none => l.head?
  | none => l.head?

/-- The command at HEAD starts: it is read from its ring slot and checked (R296, R301). Its completion object is checked before its ranges: a COPY
that overlaps and whose CSYNC does not exist faults with 0x02 (DESIGN CHOICE, log entry 59). -/
def State.startCmd (s : State) (st : Nat) : State :=
  let prio := s.strF st 0 55 53
  let slot := s.strSlot st (s.strF st 2 31 0)
  let begin_ (s : State) : State :=
    ({ s with trowel := { s.trowel with
      lastStart := (prio, st) :: s.trowel.lastStart.filter fun e => e.1 != prio, starts := s.trowel.starts + 1 } }).setStrState st 5
  match s.devRead kReq (.unit 24 11) 64 slot 64 with
  | (.wait, s) => s
  | (.ok bs, s) =>
    let ws := words64 8 bs
    let s := begin_ s
    let r : StreamRun := { s := st, cmd := ws, run := .begun, gen := s.strF st 5 31 0, ord := s.trowel.starts }
    if cmdMalformed ws then s.faultStream r 0x01 0
    else if s.cmdBadSync ws then s.faultStream r 0x02 0
    else s.setRun r
  | (.poison, s) => (begin_ (s.poisonUsed 24 11 kReq slot 6)).faultStream { s := st } 0x04 0
  | (.err _, s) => (begin_ s).faultStream { s := st } 0x04 0

/-- COMMAND_START (R298). -/
def execCommandStart (s : State) : Out :=
  if s.stopped then done s
  else match s.nextStream with
    | some st => done (s.startCmd st)
    | none => done s

/-- The started command of a stream with an OPC, its effect not yet performed; a command whose packet waits for room
retires or faults now if there is room (R380). -/
def onBegun (st : StreamId) (opc : Nat) (s : State) (f : State → StreamRun → State) : Out :=
  if s.stopped then done s
  else
    match s.runOf st.toNat with
    | none => done s
    | some r =>
      if r.opc ≠ opc then done s
      else if r.run = .begun then done (f s r)
      else done (s.packetRetry r)

/-- NOP (R297): retires at start. -/
def execNop (st : StreamId) (s : State) : Out := onBegun st 0x00 s fun s r => s.finish r

/-- SIGNAL (R305): an object read with poison faults it (R301). -/
def execSignal (st : StreamId) (s : State) : Out :=
  onBegun st 0x06 s fun s r =>
    let i := bits (r.dw 1) 15 0
    if s.anyPoison (synAddr i) 32 then (s.poisonUsed 24 11 kReq (synAddr i) 6).faultStream r 0x04 0
    else (s.synUpdate i (bit (r.dw 1) 16) (r.dw 2)).finish r

/-- A WAIT at its start: satisfied, or waiting with its timeout (R297, R307). -/
def State.waitStart (s : State) (r : StreamRun) : State :=
  let i := bits (r.dw 1) 15 0
  if s.anyPoison (synAddr i) 32 then (s.poisonUsed 24 11 kReq (synAddr i) 6).faultStream r 0x04 0
  else if (r.dw 2).toNat ≤ (s.synValue i).toNat then s.finish r
  else
    let dl := if r.dw 3 = 0 then none else some (s.time + (r.dw 3).toNat)
    (((s.setRun { r with run := .waiting dl }).setStrState r.s 3).countWaiters i).armTimers

/-- WAIT (R307). -/
def execWait (st : StreamId) (s : State) : Out := onBegun st 0x05 s State.waitStart

/-- TIMED (R297): waits for its time under trigger 241. -/
def execTimed (st : StreamId) (s : State) : Out :=
  onBegun st 0x07 s fun s r => ((s.setRun { r with run := .timed (r.dw 1).toNat }).setStrState r.s 4).armTimers

/-- MARK (R297, R404): the entry goes to staging; it waits while staging is full (R403). -/
def execMark (st : StreamId) (s : State) : Out :=
  onBegun st 0x08 s fun s r =>
    if s.stagingRoom = 0 then s
    else
      let payload := bytesOf ((List.range 6).map fun j => r.dw (j + 2))
      let s := s.stage (bits (r.dw 1) 15 0) 0 r.s (s.strSeq r.s) payload
      let s := { s with trowel := { s.trowel with lastMark := put (fun _ => 0) s.trowel.lastMark r.s (s.fld 24 .TWN_STN_HEAD 0 63 0) } }
      s.finish r

/-- Has everything a FENCE waits for been performed (R297): what earlier commands posted, the copies of an earlier SNAP that go on after it, and
their log entries? -/
def State.fenceMet (s : State) (st : Nat) : Bool :=
  !(s.postedBy (.stream st) || s.postedBy (.past st)) && !(s.staging.any fun p => p.stream == st)
    && decide (look (fun _ => 0) s.trowel.lastMark st ≤ s.stencil.ring)

/-- FENCE (R297, R300). -/
def execFence (st : StreamId) (s : State) : Out :=
  onBegun st 0x0A s fun s r => if s.fenceMet r.s then s.finish r else s

/-- Do the source and destination of a COPY overlap (R296)? -/
def copyOverlaps (r : StreamRun) : Bool :=
  let a := bits (r.dw 1) 51 0
  let b := bits (r.dw 2) 51 0
  let n := bits (r.dw 3) 39 0
  decide (a < b + n ∧ b < a + n)

/-- COPY and FILL commands in progress. -/
def State.copies (s : State) : Nat :=
  (s.trowel.runs.filter fun r => match r.run with | .copying _ => true | _ => false).length

/-- A COPY or FILL takes one of the eight places of engine 1 (R297). -/
def State.copyStart (s : State) (r : StreamRun) : State :=
  if r.opc = 3 && copyOverlaps r then s.faultStream r 0x01 0
  else if 8 ≤ s.copies then s
  else s.setRun { r with run := .copying 0 }

/-- COPY (R296, R297). -/
def execCopy (st : StreamId) (s : State) : Out := onBegun st 0x03 s State.copyStart
/-- FILL (R296, R297). -/
def execFill (st : StreamId) (s : State) : Out := onBegun st 0x04 s State.copyStart

/-- The bytes of a FILL from offset a of its range (R296). -/
def fillBytes (pattern : Word) (a n : Nat) : List Byte :=
  (List.range n).map fun i => BitVec.ofNat 8 (pattern.toNat >>> (8 * ((a + i) % 8)))

/-- Lines of a COPY to a host window or the twin window, poisoned ones refused as egress: was any write refused (R464)? -/
def State.copyLines (s : State) (x : DevCtx) (src dst : Nat) : List Piece → Option (Bool × State)
  | [] => some (false, s)
  | p :: ps =>
    let a := (src + p.pa - dst) % 2 ^ 52
    let w : DevAcc Unit × State := match s.devReadLin x a p.n with
      | (.ok bs, s) => s.devWriteLin x (p.pa % 2 ^ 52) bs false
      | (.poison, s) => s.devWriteLin x (p.pa % 2 ^ 52) (List.replicate p.n 0) true
      | (.err c, s) => (.err c, s)
      | (.aborted, s) => (.aborted, s)
      | (.wait, s) => (.wait, s)
    match w with
    | (.wait, _) => none
    | (.ok _, s) => s.copyLines x src dst ps
    | (_, s) => (s.copyLines x src dst ps).map fun r => (true, r.2)

/-- Does a linear address lie in a host window or in the twin window? -/
def State.linWindow (s : State) (x : DevCtx) (la : Nat) : Bool :=
  match (s.xlateBlocks x true [⟨la, 1⟩]).1 with
  | .ok [p] => s.offModule p
  | _ => false

/-- A COPY or FILL taken on block by block, to its end or as far as it can go; blocks end at 4 KiB boundaries of the destination, and a cancel
stops it at one (R297, R303). Poison to be copied into a window is refused as egress, the other 64-byte parts go (R464). -/
def State.copyOn (s : State) (r : StreamRun) : Nat → Nat → State
  | 0, off => s.setRun { r with run := .copying off }
  | f + 1, off =>
    let n := bits (r.dw 3) 39 0
    let dst := copyDst r 0
    if s.strState r.s = 8 ∧ copyStops r off then s.dropRun r.s
    else if n ≤ off then
      if s.postedBy (.stream r.s) then s.setRun { r with run := .copying off } else s.finish r
    else
      let k := min (n - off) (4096 - (dst + off) % 4096)
      let x := s.strCtx r.s 1 4096
      let data : DevAcc (List Byte) × State :=
        if r.opc = 3 then s.devReadLin x ((bits (r.dw 1) 51 0 + off) % 2 ^ 52) k else (.ok (fillBytes (r.dw 2) off k), s)
      match data with
      | (.wait, s) => s.setRun { r with run := .copying off }
      | (.ok bs, s) =>
        match s.devWriteLin x ((dst + off) % 2 ^ 52) bs false with
        | (.ok _, s) => s.copyOn r f (off + k)
        | (.wait, s) => s.setRun { r with run := .copying off }
        | (e, s) => s.faultStream r e.fcode 0
      | (.poison, s) =>
        if s.linWindow x ((dst + off) % 2 ^ 52) then
          match s.copyLines x ((bits (r.dw 1) 51 0 + off) % 2 ^ 52) ((dst + off) % 2 ^ 52) (lines ((dst + off) % 2 ^ 52) k) with
          | some (_, s) => s.faultStream r 0x04 0
          | none => s.setRun { r with run := .copying off }
        else
          let a := (bits (r.dw 1) 51 0 + off) % 2 ^ 52
          (s.poisonUsed 24 11 kReq (s.badPa x a k) 6).faultStream r 0x04 0
      | (e, s) => s.faultStream r e.fcode 0

/-- COPY_FILL_COMPLETE (R297). -/
def execCopyFillComplete (st : StreamId) (s : State) : Out :=
  if s.stopped then done s
  else
    match s.runOf st.toNat with
    | some r =>
      match r.run with
      | .copying off => done (s.copyOn r (bits (r.dw 3) 39 0 / 4096 + 3) off)
      | _ => done (if r.opc = 3 ∨ r.opc = 4 then s.packetRetry r else s)
    | none => done s

/-- GLAUNCH (R246–R248, R297): the descriptor is read at the stream's ring and table, checked and placed in the queue; it
waits for room there. -/
def State.glaunchStart (s : State) (r : StreamRun) : State :=
  let g := bits (r.dw 0) 33 32
  match s.devWordsLin (s.strCtx r.s 0 64) (bits (r.dw 1) 51 0) 16 with
  | (.wait, s) => s
  | (.ok ws, s) =>
    let d := gmmOf ws (s.strW r.s 1) (s.strF r.s 0 57 56) (.stream r.s)
    if (d.check (gmmRsv ws)).isSome || !s.gangV g || (s.gmmGangCheck g d).isSome then s.faultStream r 0x0B 0
    else if !s.gangRoom g then s
    else (s.setRun { r with run := .glaunch g true }).gangPut g (.gmm d)
  | (e, s) => s.faultStream r e.fcode 0

/-- GLAUNCH (R297). -/
def execGlaunch (st : StreamId) (s : State) : Out := onBegun st 0x02 s State.glaunchStart

/-- Pages under one context in turn, with whether they are written (R322, R333, R407): the first that waits or is aborted, or all. -/
def State.pagesOver (s : State) (x : DevCtx) : List (Nat × Bool) → DevAcc Unit × State
  | [] => (.ok (), s)
  | (la, w) :: l =>
    match s.xlateFq x.q x.eng x.own x.ptb x.ring (la % 2 ^ 52) w with
    | (.ok _, s) => s.pagesOver x l
    | (.aborted, s) => (.aborted, s)
    | (.wait, s) => (.wait, s)

/-- A KIND 1 LAUNCH goes on to its window once its addresses have been translated: at append, where that translation stands or is still being
made, else afresh, where an ABORT faults it (R333). -/
def State.launchOn (s : State) (r : StreamRun) (img : List Word) : State :=
  let n := s.strF r.s 2 31 0
  if s.trowel.pre.any fun p => p.s == r.s && p.n == n then s
  else if (s.preTag r.s).isSome then s.coalesce r img
  else
    let row := imageRows img
    match s.pagesOver (s.strCtx r.s 0 64) (prePages r.cmd row.1 row.2) with
    | (.ok _, s) => (s.preKeep r.s n s.epochCur).coalesce r img
    | (.wait, s) => s
    | (_, s) => s.faultStream r 0x03 0

/-- LAUNCH: a work item or a member of a window (R313, R316, R317). -/
def State.launchStart (s : State) (r : StreamRun) : State :=
  let kih := bits (r.dw 0) 63 32
  if s.fld 24 .TRW_KIT_CNT 0 16 0 ≤ kih then s.faultStream r 0x08 0
  else
    match s.readImage kih with
    | (.wait, s) => s
    | (.ok img, s) =>
      if imgKind img = 0 then s.queueItem r
      else if imgKind img = 1 then (if s.launchBad r img then s.faultStream r 0x08 0 else s.launchOn r img)
      else s.faultStream r 0x08 0
    | (_, s) => s.faultStream r 0x04 0

/-- LAUNCH (R313, R317). -/
def execLaunch (st : StreamId) (s : State) : Out := onBegun st 0x01 s State.launchStart

/-! ### Sync objects and triggers written and fired (R305, R310–R312, R337) -/

/-- SYN_OP written (R337). -/
def State.wrSynOp (s : State) (v : Word) : State :=
  if s.fld 24 .SYN_CFG 0 16 0 ≤ bits v 15 0 then s.setFld 24 .SYN_STAT 0 0 0 1
  else s.synUpdate (bits v 15 0) (bit v 16) (BitVec.ofNat 64 (bits v 63 32))

/-- SYN_OP (R337). -/
def execSynOp (q : Src) (v : Word) (s : State) : Out := regCmd q 24 .SYN_OP 0 s fun s => s.wrSynOp v

/-- TT_CMP(n), TT_PER(n) written: ignored for the device's triggers (R311). -/
def State.wrTtTime (s : State) (r : RegName) (n : Nat) (v : Word) : State := if n < 240 then s.setReg 24 r n v else s

/-- TT_CTL(n) written under the mask of an access (R310, R311, R337). -/
def State.wrTtCtl (s : State) (n : Nat) (v m : Word) : State :=
  let old := s.reg 24 .TT_CTL n
  let rw := if n < 240 then (maskBits 0 0 ||| maskBits 3 2 ||| maskBits 47 16) &&& m else 0
  let x := (old &&& ~~~rw) ||| (v &&& rw)
  s.setReg 24 .TT_CTL n (x &&& ~~~(v &&& m &&& maskBits 1 1))

/-- TT_CMP_WRITE (R310). -/
def execTtCmpWrite (q : Src) (n : TrigId) (v : Word) (s : State) : Out :=
  regCmd q 24 .TT_CMP n.toNat s fun s => s.wrTtTime .TT_CMP n.toNat v

/-- TT_CTL_WRITE (R310). -/
def execTtCtlWrite (q : Src) (n : TrigId) (v : Word) (s : State) : Out :=
  regCmd q 24 .TT_CTL n.toNat s fun s => s.wrTtCtl n.toNat v (BitVec.allOnes 64)

/-- After an expired entry has been handled: the list goes on draining, or its trigger is armed again (R312). -/
def State.afterExpiry (s : State) (n : Nat) (l : State → List (Nat × Nat)) : State :=
  if (s.firstExpired (l s)).isSome then s
  else ({ s with trowel := { s.trowel with draining := s.trowel.draining.filter (· != n) } }).armTimers

/-- The first expired entry of a list handled after its trigger has fired (R312). -/
def onExpiry (n : Nat) (l : State → List (Nat × Nat)) (s : State) (f : State → Nat → State) : Out :=
  if s.stopped || !s.trowel.draining.contains n then done s
  else
    match s.firstExpired (l s) with
    | none => done (s.afterExpiry n l)
    | some x => done ((f s x).afterExpiry n l)

/-- TIMED_EXPIRY (R312): the TIMED retires. -/
def execTimedExpiry (s : State) : Out :=
  onExpiry 241 State.timedList s fun s st => match s.runOf st with | some r => s.finish r | none => s

/-- WAIT_TIMEOUT (R312): the WAIT faults. -/
def execWaitTimeout (s : State) : Out :=
  onExpiry 245 State.waitList s fun s st =>
    match s.runOf st with
    | some r => (s.faultStream r 0x05 0).countWaiters (bits (r.dw 1) 15 0)
    | none => s

/-- WINDOW_DEADLINE (R312, R319): the window closes. -/
def execWindowDeadline (s : State) : Out := onExpiry 240 State.deadlineList s fun s w => s.closeWindow w 5

/-! ### Work items (R314, R315) -/

/-- A read of TRW_WQ(d): the oldest item (R314). -/
def State.rdWq (s : State) (d : Nat) : Word × State :=
  match s.queued d with
  | [] => (0, s)
  | (st, slot) :: l =>
    let s := { s with trowel := { s.trowel with wq := put (fun _ => []) s.trowel.wq d l } }
    let s := match s.runOf st with | some r => s.setRun { r with run := .item d true } | none => s
    (BitVec.ofNat 64 (st + 2 ^ 18 * slot + 2 ^ 63), s.wqnSync d)

/-- TRW_WQ (R314). -/
def execTrwWq (q : Src) (d : CDie) (s : State) : Out := regCmd q 24 .TRW_WQ d.val s fun s => (s.rdWq d.val).2

/-- TRW_WDONE written (R315). -/
def State.wrWdone (s : State) (v : Word) : State :=
  match s.runOf (bits v 17 0) with
  | some r =>
    match r.run with
    | .item d true => (if bit v 18 then s.faultStream r 0x09 (bits v 26 19) else s.finish r).wqnSync d
    | _ => s.setFld 24 .TRW_STAT 0 26 26 1
  | none => s.setFld 24 .TRW_STAT 0 26 26 1

/-- TRW_WDONE (R315). -/
def execTrwWdone (q : Src) (v : Word) (s : State) : Out := regCmd q 24 .TRW_WDONE 0 s fun s => s.wrWdone v

/-! ### Windows (R318–R331) -/

/-- TRW_FLUSH written (R319): the image's open windows close, or every open one, in index order. -/
def State.wrFlush (s : State) (v : Word) : State :=
  (s.trowel.windows.filter fun e => e.2.state == .openW && (bit v 16 || e.2.kih == bits v 15 0)).foldl
    (fun s e => s.closeWindow e.1 4) s

/-- TRW_FLUSH (R319). -/
def execTrwFlush (q : Src) (v : Word) (s : State) : Out := regCmd q 24 .TRW_FLUSH 0 s fun s => s.wrFlush v

/-- TRW_MFAULT written (R327). -/
def State.wrMfault (s : State) (v : Word) : State :=
  let w := bits v 9 0
  let m := bits v 21 10
  let x := s.window w
  if x.state != .draining || x.members.length ≤ m then s.setFld 24 .TRW_STAT 0 27 27 1
  else s.setWindow w { x with members := setAt x.members m { (x.members.getD m {}) with failed := some (0x07, bits v 29 22) } }

/-- TRW_MFAULT (R327). -/
def execTrwMfault (q : Src) (v : Word) (s : State) : Out := regCmd q 24 .TRW_MFAULT 0 s fun s => s.wrMfault v

/-- WINDOW_OPEN_DEFERRED (R318): a LAUNCH that waits for a window opens or joins one; of several, the lowest stream. -/
def execWindowOpenDeferred (s : State) : Out :=
  if s.stopped then done s
  else
    let l := (s.trowel.runs.filter fun r => r.run == .wantsWindow).mergeSort fun a b => decide (a.s ≤ b.s)
    match l with
    | [] => done s
    | r :: _ =>
      match s.readImage (bits (r.dw 0) 63 32) with
      | (.ok img, s) => done (s.coalesce r img)
      | (.wait, s) => done s
      | (_, s) => done (s.faultStream r 0x04 0)

/-- Closed windows of a gang in close order (R322). -/
def State.closedWindows (s : State) (g : Nat) : List (Nat × Window) :=
  (s.trowel.windows.filter fun e => e.2.state == .closed && e.2.gang == g).mergeSort fun a b =>
    decide (a.2.closedAt ≤ b.2.closedAt)

/-- Do the gates of R325 pass? A window not yet drained on the same group holds this one back (log entry 22). -/
def State.gatesPass (s : State) (x : Window) : Bool :=
  let busy := s.trowel.windows.any fun e =>
    e.2.gang == x.gang && e.2.group == x.group && (e.2.state == .queued || e.2.state == .running || e.2.state == .draining)
  let rel := x.image.getD 13 0
  !busy && (!bit rel 24 || decide (x.serial < imgNslot x.image)
    || decide (x.serial - imgNslot x.image + 1 ≤ (s.synValue (bits rel 23 8)).toNat))

/-- The seed table of a window (R322). -/
def seedTable (x : Window) : List Byte := x.members.flatMap fun m => toBytes 8 m.seed.toNat ++ toBytes 8 m.gen

/-- The doublewords of the group's Glaze descriptor that step 3 writes: offset and value (R322). -/
def glazeWrites (x : Window) : List (Nat × Nat) :=
  let out (j off : Nat) : List (Nat × Nat) :=
    let v := bits (x.image.getD j 0) 51 0
    if v = 0 then [] else [(off, v + (BitVec.ofNat 64 x.slot * x.image.getD 12 0).toNat)]
  let wrec := bits (x.image.getD 14 0) 51 0
  out 8 0x10 ++ out 9 0x30 ++ out 10 0x20 ++ out 11 0x40
    ++ (if wrec = 0 then [] else [(0x70, wrec + 0x10000 * x.slot)]) ++ [(0x68, bits (x.image.getD 5 0) 55 32), (0x78, 0)]

/-- Linear writes of doublewords in turn. -/
def State.writeDws (s : State) (x : DevCtx) : List (Nat × Nat) → DevAcc Unit × State
  | [] => (.ok (), s)
  | (la, v) :: l =>
    match s.devWriteLin x (la % 2 ^ 52) (toBytes 8 v) false with
    | (.ok _, s) => s.writeDws x l
    | r => r

/-- The window record of the Stencil log (R332, R404). -/
def State.windowRecord (s : State) (x : Window) : State :=
  let word (m : Member) : Nat :=
    let seq := match s.runOf m.s with | some r => s.strSeq r.s | none => 0
    m.s + 2 ^ 18 * seq + 2 ^ 50 * m.rows
  let ws := x.members.map word
  let first := toBytes 8 (x.serial % 2 ^ 32 + 2 ^ 32 * x.kih + 2 ^ 48 * x.slot + 2 ^ 56 * x.gang) ++ toBytes 8 s.time
    ++ toBytes 8 (s.fld 24 .GNG_STAT x.gang 31 24 + 2 ^ 8 * bits (x.image.getD 6 0) 14 10 + 2 ^ 13 * x.members.length)
  let rec chunk : Nat → List Nat → List (List Byte)
    | 0, _ => []
    | f + 1, l => if l.isEmpty then [] else (l.take 6).flatMap (toBytes 8) :: chunk f (l.drop 6)
  s.stageRecord 0xF001 first (chunk ws.length ws)

/-- The pages of a strided operand of n rows of k bytes. -/
def operandPages (base : Nat) (stride : Word) (n k : Nat) : List (Nat × Bool) :=
  (List.range n).flatMap fun r => let a := rowRange base stride 0 k r; (spanPages a.1 a.2).map fun la => (la, false)

/-- Does a translation with a tag stand: it is of the current epoch, and no round is in progress (R134)? -/
def State.tagStands (s : State) (tag : Nat) : Bool := tag == s.epochCur && !s.flag 24 .TRW_EPOCH 0 32

/-- Step 1 of R322 for the members from number m on: those whose tag does not stand have their A rows and scales translated again for their
stream, whose cancel withdraws what waits (R335); an ABORT fails the member's slice (R139, R328). Answers whether every translation has been
made. -/
def State.reMembers (s : State) (w : Nat) (d : Gmm) : Nat → List Member → Bool × State
  | _, [] => (true, s)
  | m, y :: ys =>
    if s.tagStands y.tag || y.failed.isSome then s.reMembers w d (m + 1) ys
    else
      let ps := operandPages y.abase y.astride y.rows (etypeBytes d.afmt d.k)
        ++ (if d.asc then operandPages y.ascale y.asstride y.rows (d.k / 32) else [])
      match s.pagesOver { q := kReq, own := .stream y.s, ptb := y.ptb, ring := y.ring } ps with
      | (.ok _, s) => s.reMembers w d (m + 1) ys
      | (.wait, s) => (false, s)
      | (_, s) =>
        let x := s.window w
        (s.setWindow w { x with members := setAt x.members m { y with failed := some (0x03, 0x03) } }).reMembers w d (m + 1) ys

/-- Step 1 of R322: the members' data and the image's B data translated again where an epoch round has passed since; none where the window
fails (R331). -/
def State.dispatch1 (s : State) (w : Nat) (x : Window) : Option Bool × State :=
  let d := imgGmm x.image (256 * rowBlocks x.members) x.group x.ptb x.ring w
  let r := s.reMembers w d 0 x.members
  if !r.1 then (some false, r.2)
  else if s.tagStands x.tag then (some true, r.2)
  else
    match r.2.pagesOver (winCtx w x) (operandPages d.bbase d.bstride d.k (etypeBytes d.bfmt d.n)
        ++ (if d.bsc then operandPages d.bscale d.bsstride (d.k / 32) d.n else [])) with
    | (.ok _, s) => (some true, s)
    | (.wait, s) => (some false, s)
    | (_, s) => (none, s)

/-- Has Stencil staging room for a window's record (R403, R404)? -/
def State.recordRoom (s : State) (x : Window) : Bool := decide (1 + (x.members.length + 5) / 6 ≤ s.stagingRoom)

/-- Steps of a closed window's dispatch still to be taken, in turn (R322): 1 translations; with room in Stencil staging (R403) 2 the seed table,
3 the Glaze descriptor, its writes performed; 4 the gang queue, where it waits for room. An image with WREC 0 has no seed table, and step 2
writes none (DESIGN CHOICE, log entry 59). -/
def State.dispatchWindow (s : State) (w : Nat) (x : Window) : State :=
  let ctx := winCtx w x
  let wrec := bits (x.image.getD 14 0) 51 0
  let gd := bits (x.image.getD 7 0) 51 0 + (if x.group = imgGrp x.image then 0 else 0xC0)
  let step4 (s : State) : State :=
    let x := s.window w
    if s.postedBy (.window w) || !s.gangRoom x.gang || !s.recordRoom x then s
    else
      let s := s.windowRecord x
      let s := s.setWindow w { x with state := .queued, tstart := BitVec.ofNat 64 s.time }
      s.gangPut x.gang (.gmm (imgGmm x.image (256 * rowBlocks x.members) x.group x.ptb x.ring w))
  let step3 (s : State) : State :=
    match s.writeDws ctx ((glazeWrites x).map fun e => (gd + e.1, e.2)) with
    | (.wait, s) => s
    | (.ok _, s) => step4 (s.setWindow w { s.window w with step := 3 })
    | (_, s) => s.failWindow w
  let step2 (s : State) : State :=
    if !s.recordRoom (s.window w) then s else
    match (if wrec = 0 then (.ok (), s) else s.devWriteLin ctx ((wrec + 0x10000 * x.slot) % 2 ^ 52) (seedTable (s.window w)) false) with
    | (.wait, s) => s
    | (.ok _, s) => step3 (s.setWindow w { s.window w with step := 2 })
    | (_, s) => s.failWindow w
  match x.step with
  | 0 =>
    match s.dispatch1 w x with
    | (some true, s) => step2 (s.setWindow w { s.window w with step := 1 })
    | (some false, s) => s
    | (none, s) => s.failWindow w
  | 1 => step2 s
  | 2 => step3 s
  | _ => step4 s

/-- WINDOW_DISPATCH (R322, R325, R403, R453): the oldest closed window of the gang, when its gates pass and no thermal limit stands; its
image is read again. The gang queue and Stencil staging must have room for the last step. -/
def execWindowDispatch (g : Gang) (s : State) : Out :=
  if s.stopped || s.flag 24 .THM_STAT 0 1 then done s
  else
    match s.closedWindows g.val with
    | [] => done s
    | (w, x) :: _ =>
      if x.step = 0 && !s.gatesPass x then done s
      else if x.step ≠ 0 then done (s.dispatchWindow w x)
      else
        match s.readImage x.kih with
        | (.ok img, s) => done ((s.setWindow w { x with image := img }).dispatchWindow w { x with image := img })
        | (.wait, s) => done s
        | (_, s) => done (s.failWindow w)

/-- One member scattered (R329, R330): its record, and once that has been performed (R305, R382) its outcome. A cancelled member's failure is
carried by the event that ends the cancel (R303). -/
def State.scatterOne (s : State) (w : Nat) (x : Window) : State :=
  let m := x.next
  let y := x.members.getD m {}
  let status := if y.cancelled then 5 else if y.failed.isSome then 2 else 1
  let rec_ : DevAcc Unit × State :=
    if y.crec = 0 ∨ x.recDone then (.ok (), s)
    else s.devWriteLin { q := kReq, eng := 0, own := .stream y.s, ptb := y.ptb, ring := y.ring } y.crec (memberRecord x m status s.time)
      false
  match rec_ with
  | (.wait, s) => s
  | (r, s) =>
    let s := match r with | .ok _ => s | _ => s.recordLost (y.crec % 2 ^ 48)
    if s.postedBy (.stream y.s) then s.setWindow w { x with recDone := true }
    else
      let s :=
        match s.runOf y.s with
        | none => s
        | some run =>
          match y.failed with
          | some (fcode, code) => s.faultStream run fcode (if fcode = 0x09 then code else 0)
          | none => if y.cancelled then s.dropRun y.s else s.finish run
      if x.members.length ≤ m + 1 then s.freeWindow w else s.setWindow w { x with next := m + 1, recDone := false }

/-- SCATTER_MEMBER (R326, R329): a drained window passes to SCATTER; its members are processed in order. -/
def execScatterMember (w : WinId) (s : State) : Out :=
  if s.stopped then done s
  else
    let x := s.window w.toNat
    let x := if x.state = .draining ∧ x.posted = 0 then { x with state := .scatter } else x
    if x.state = .scatter then done ((s.setWindow w.toNat x).scatterOne w.toNat x) else done s

/-- A read of STM_NEXTF (R336). -/
def State.rdNextf (s : State) : Word × State :=
  match s.trowel.nextf with
  | [] => (0, s)
  | st :: l => (BitVec.ofNat 64 (st + 2 ^ 63), { s with trowel := { s.trowel with nextf := l } })

/-- STM_NEXTF (R336). -/
def execStmNextf (q : Src) (s : State) : Out := regCmd q 24 .STM_NEXTF 0 s fun s => s.rdNextf.2

/-! ### The fault queue and epochs (R132–R141) -/

/-- A read of FQ_HEAD (R138): the oldest NEW record moves to IN_SERVICE. -/
def State.rdFqHead (s : State) : Word × State :=
  match s.fqOrder.find? fun i => s.recState i == 1 with
  | none => (0, s)
  | some i =>
    (BitVec.ofNat 64 (i + 2 ^ 63), (s.setRegW 24 .FQ_REC i 2 (setBits (s.regW 24 .FQ_REC i 2) 34 33 2)).fqSync)

/-- FQ_HEAD (R138). -/
def execFqHead (q : Src) (s : State) : Out := regCmd q 24 .FQ_HEAD 0 s fun s => s.rdFqHead.2

/-- FQ_CMD written (R139). -/
def State.wrFqCmd (s : State) (v : Word) : State :=
  let i := bits v 7 0
  let op := bits v 9 8
  if s.recState i = 0 ∨ op = 0 ∨ op = 3 then s.setFld 24 .FQ_STAT 0 19 19 1
  else (s.fqFree i (op == 2)).preRun

/-- RESOLVE (R139). -/
def execResolve (q : Src) (v : Word) (s : State) : Out := regCmd q 24 .FQ_CMD 0 s fun s => s.wrFqCmd (setBits v 9 8 1)
/-- ABORT (R139). -/
def execAbort (q : Src) (v : Word) (s : State) : Out := regCmd q 24 .FQ_CMD 0 s fun s => s.wrFqCmd (setBits v 9 8 2)

/-- FQ_FAULT (R137): a requester that is not a core walks the tables, and a fault of the walk is reported. -/
def execFqFault (d : Die) (eng : BitVec 3) (la : Lin) (ring : BitVec 2) (write : Bool) (ptb : Word) (s : State) : Out :=
  if s.stopped then done s
  else
    let q : Req := if d.val = 24 then kReq else ⟨d.val, 4⟩
    done (s.xlateFq q eng.toNat (.unit d.val eng.toNat) ptb ring.toNat la.toNat write).2

/-- FQ_DEFERRED_CREATE (R140): the oldest waiting requester joins a record with its key or creates one. -/
def execFqDeferredCreate (s : State) : Out :=
  if s.stopped then done s
  else
    match s.fqWait with
    | [] => done s
    | w :: l =>
      if (s.recFor w).isSome || !s.freeRecs.isEmpty then done ({ s with fqWait := l }.fqFault w) else done s

/-- May a source start a round: the host, or ring 0 or 1 software (R131)? -/
def State.epochMay (s : State) (q : Src) : Bool :=
  match q with
  | .host => true
  | .mc => false
  | .core c => decide (bits (s.core c).status 1 0 ≤ 1)

/-- TRW_EPOCH_BUMP (R131–R133). -/
def execTrwEpochBump (q : Src) (v : Word) (s : State) : Out :=
  regCmd q 24 .TRW_EPOCH_BUMP 0 s fun s => if bit v 0 && s.epochMay q then s.epochBump else s

/-- Is an owner of posted writes a core, or a quarter it drains? -/
def Own.ofCore (c : Nat) (o : Own) : Bool := match o with | .core k => k == c | .quarter k _ _ => k == c | _ => false

/-- Is an access of a core under way that it issued with a translation from before the round: a retired vector or tile operation checked in
an earlier epoch, a load issued to its home, or a store to a host window not yet acknowledged (R132)? -/
def State.coreOld (s : State) (c : Nat) : Bool :=
  let x := look (fun _ => {}) s.cores c
  (x.vq.any fun t => t.ep != s.epochCur) || (x.tq.any fun t => t.ep != s.epochCur) || x.issued || s.postedFor (Own.ofCore c)
    || s.drds.any fun d => d.ans.isNone && (d.own == .core c || d.own == .vec c || d.own == .tile c)

/-- Has a die an access under way from before the round (R132)? The K-die's own are the reads and posted writes of the Trowel, the movers
and the gang control, a C-die's the update of a DONE counter. -/
def State.oldAccess (s : State) (d : Nat) : Bool :=
  ([0, 1, 2, 3].any fun k => s.coreOld (4 * d + k))
    || s.postedBy (.unit d 4) || (s.drds.any fun r => r.ans.isNone && r.own == .unit d 4)
    || (d == 24 && ((s.drds.any fun r => r.ans.isNone && r.own.kdie) || s.postedFor Own.kdie))

/-- EPOCH_DIE_ACK (R132). -/
def execEpochDieAck (d : Die) (s : State) : Out :=
  done (if s.stopped || s.oldAccess d.val then s else { s with epochWait := s.epochWait.filter (· != d.val) })

/-- The echo of CUR at the end of a round (R135): an error response clears EN and is logged; none while its home cannot take it. -/
def State.epochEcho (s : State) : Option State :=
  let echo := s.reg 24 .TRW_EPOCH_ECHO 0
  if !bit echo 0 then some s
  else
    let pa := bits echo 47 3 * 8
    match s.devWrite kReq .echo 64 pa (toBytes 8 s.epochCur) false with
    | (.ok _, s) => some s
    | (.wait, _) => none
    | (_, s) => some ((s.setFld 24 .TRW_EPOCH_ECHO 0 0 0 0).recordLost pa)

/-- The end of a round: PEND clears, the echo is written, the interrupt sent, a further round starts (R132, R133, R135). -/
def State.epochEnd (s : State) : Option State :=
  let again := s.flag 24 .TRW_EPOCH 0 33
  ((s.setReg 24 .TRW_EPOCH 0 (BitVec.ofNat 64 s.epochCur)).epochEcho).map fun s =>
    let s := s.sendIrq (s.fld 24 .TRW_EPOCH_ROUTE 0 15 0) 24
    if again then s.epochStart else s

/-- EPOCH_ROUND_END (R132). -/
def execEpochRoundEnd (s : State) : Out :=
  if !s.stopped && s.flag 24 .TRW_EPOCH 0 32 && s.epochWait.isEmpty then done (s.epochEnd.getD s) else done s

end Sys2Proof.Machine
end

