-- ==== Sys2Proof/Machine/Twin.lean ====
section
/-! DEFINITION. The twin link's session, loss, fence and heartbeats, and the Stencil log's way to the HBM ring and the twin
(R393–R405). -/

namespace Sys2Proof.Machine

open Sys2Proof

/-- A store lost on its way (R80, R462): each of its parts had reached its home, freely, or had not, and then the bytes it wrote that nothing has
overwritten, and the poison marks it cleared, are as they were. -/
def State.undoParts (s : State) (marks : List Nat) : List Piece → List Byte → List Byte → State
  | [], _, _ => s
  | p :: ps, was, wrote =>
    let b := s.freeBool
    let s := b.2
    let s :=
      if b.1 || !(s.decodePA p.pa).plain then s
      else
        let now := s.bytes p.pa p.n
        let old := (List.range p.n).map fun i => if now.getD i 0 == wrote.getD i 0 then was.getD i 0 else now.getD i 0
        (marks.filter (unitsOf p.pa p.n).contains).foldl (fun s u => s.setPoison u true) (s.setBytes p.pa old)
    s.undoParts marks ps (was.drop p.n) (wrote.drop p.n)

/-- A store that has retired is lost: the core's notification and the log entry (R80, R167, R220). -/
def State.lostStore (s : State) (c : CoreId) (pa : Nat) : State :=
  let x := s.core c
  match x.unacked.find? fun e => e.parts.any fun p => decide (p.pa ≤ pa ∧ pa < p.pa + p.n) with
  | none => s
  | some e =>
    let s := (s.updCore c fun x =>
      { x with unacked := x.unacked.erase e, fenced := if (x.unacked.take x.fenced).contains e then x.fenced - 1 else x.fenced }).undoParts
        e.marks e.parts e.was e.wrote
    let s := s.machineCheck c (e.idx % 8 * 2 ^ 13) e.off
    s.logErr (dieOf c).val 0x08 1 (if e.idx % 8 = 4 then 4 else (coreK c).val) (reqOf c) (some pa) false 0

/-- An output of a drained quarter is lost after its write was posted (R280, R282): the quarter and every other that its core has claimed and not
completed are unclaimed again, and the core is notified; the offset the notification gives is not stated, a free value. -/
def State.lostOutput (s : State) (c : CoreId) (e q pa : Nat) : State :=
  let d := (dieOf c).val
  let s := (s.unclaimQuarter d e q).unclaimQuarters c
  let n := (s.updCore c fun x => { x with vq := x.vq.filter fun t => t.op != .glzDrain }).freeNat
  (n.2.machineCheck c (3 * 2 ^ 13) (BitVec.ofNat 64 n.1)).logErr d 0x08 1 (coreK c).val (reqOf c) (some pa) false 0

/-- A posted write to an address in a host window or the twin window that its owner learns has failed (R80, R382, R398, R461). -/
def State.postFailed (s : State) (own : Own) (pa code : Nat) : State :=
  match own with
  | .core c => if h : c < 100 then s.lostStore ⟨c, h⟩ pa else s
  | .quarter c e q => if h : c < 100 then s.lostOutput ⟨c, h⟩ e q pa else s
  | .output d e q => s.unclaimQuarter d e q
  | .stream st =>
    match s.runOf st with
    | some r => (match r.run with | .copying _ => s.faultStream r 0x04 0 | _ => s)
    | none => s
  | .tier t => s.endTier t (if code = 6 then 2 else 3)
  | .gang _ | .window _ => s.recordLost pa
  | .echo => (s.setFld 24 .TRW_EPOCH_ECHO 0 0 0 0).recordLost pa
  | _ => s

/-- A mirror write that its owner learns has failed (R398, R461). Of the log's own mirror writes, the lowest entry lost is kept: it was
mirrored and never acknowledged, so that TWN_STN_DUR passes it no more (R403; DEDUCED, log entry 16). -/
def State.mirwFailed (s : State) (m : Mirw) (code : Nat) : State :=
  if m.lsn ≠ 0 then
    let n := m.lsn - 1
    { s with stencil := { s.stencil with lost := some (match s.stencil.lost with | some l => min l n | none => n) } }
  else s.postFailed m.own (0x200000000000 + m.off) code

/-- A pairing attempt fails with a reason (R395, R396): it is retried a second later. Under a session the old keys stay in force (R397). -/
def State.pairFail (s : State) (reason : Nat) : State :=
  let s := (s.setFld 24 .TWN_STAT 0 4 4 1).setFld 24 .TWN_STAT 0 7 5 reason
  let t := { s.twin with frags := [], eph := [], nextAB := [], nextBA := [], failed := true }
  { s with twin := if t.session then { t with auth := 3, transcript := t.transcript.take 64 }
                   else { t with auth := 0, transcript := [], hello := none } }

/-- The session ends and its keys are erased (R397): protected packets not sent can be sealed no more, and mirror writes not answered fail with
code 6, which is logged (R365, R468). -/
def State.endSession (s : State) : State :=
  let l := s.twin.mirw
  let s := s.updLink .twn fun k => { k with wait := k.wait.filter fun p => !protectedType p.type, key := [], count := 0 }
  let s := { s with twin := { s.twin with
    session := false, mirw := [], auth := 0, frags := [], transcript := [], hello := none
    eph := [], nextAB := [], nextBA := [], keyAB := [], keyBA := [], oldRx := none } }
  l.foldl (fun s m => (if m.own == .none then s else s.errResponse 24 6 9 m.own.req (0x200000000000 + m.off)).mirwFailed m 6) s

/-- The partner is lost: the steps of R401 in order. -/
def State.partnerLost (s : State) : State :=
  let serial := s.reg 24 .TWN_PEER 0
  let dur := s.reg 24 .TWN_STN_DUR 0
  let s := s.endSession
  let s := (s.setFld 24 .TWN_STAT 0 2 0 4).setFld 24 .TWN_STAT 0 13 13 1
  let s := s.endTier 0 2
  let s := s.stageRecord 0xF010 (toBytes 8 serial.toNat ++ toBytes 8 dur.toNat) []
  let s := s.sendIrq (s.fld 24 .TWN_ROUTE 0 15 0) 24
  let s := s.mcLog 0x0009 1 24 (s.fld 24 .TWN_STAT 0 31 0) (s.reg 24 .TWN_PEER 0).toNat 0
  s.logErr 24 0x12 1 9 ⟨24, 9⟩ none false 0

/-- The twin link has left ACTIVE, and with it a failed attempt that waited for its second (R395), other than through RECOVERY, or the partner's presence has gone (R393, R397, R400). -/
def State.twinDown (s : State) (present : Bool) : State :=
  let st := s.fld 24 .TWN_STAT 0 2 0
  let s := { s with twin := { s.twin with failed := false } }
  let s := if st = 3 then s.partnerLost else s.endSession
  if st = 4 ∨ st = 5 ∨ st = 3 then s else s.setFld 24 .TWN_STAT 0 2 0 (if present then 1 else 0)

/-- HELLO sent (R394, R395). -/
def State.sendHello (s : State) : State :=
  match s.twin.group with
  | none => s
  | some g => s.send .twn { type := 0x60, a := 2 ^ 8, b := Config.serial.toNat, data := (g ++ List.replicate 32 0).take 32 }

/-- Is TWN_SKIM usable: 1 GiB aligned, its region below HBM_CAP (R398)? -/
def State.skimOk (s : State) : Bool :=
  let base := s.fld 24 .TWN_SKIM 0 47 0
  base % 2 ^ 30 == 0 && decide (base + 0x8000000000 ≤ s.fld 24 .HBM_CAP 0 47 0)

/-- The twin link becomes ACTIVE (R401): AUTH, and HELLO is sent; a Skim region that does not fit prevents pairing. -/
def State.twinActive (s : State) : State :=
  if s.twin.group.isNone then s
  else
    let st := s.fld 24 .TWN_STAT 0 2 0
    let s := if st = 4 ∨ st = 5 then s else s.setFld 24 .TWN_STAT 0 2 0 2
    if s.skimOk then s.sendHello else s.pairFail 5

/-- The key generation that SEC_STAT reports, none with KEYOK 0 (R473). -/
def State.keyGen (s : State) : Option Nat := if s.flag 24 .SEC_STAT 0 2 then some (s.fld 24 .SEC_STAT 0 1 0) else none

/-- Does a device identity certificate pass R484, under the selected key generation? -/
def certValid (g : Option Nat) (c : List Byte) : Bool :=
  c.length == 5421 && fromBytes (c.take 8) == 0x44495A4A + 2 ^ 32 && fromBytes ((c.drop 0x10).take 2) == 0x2524
    && fromBytes ((c.drop 0x10).take 8) / 2 ^ 25 == 0 && (c.drop 0x20).take 32 == List.replicate 32 0
    && vendorEd g (c.take 0x800) ((c.drop 0x800).take 64) && vendorMl g (c.take 0x800) (c.drop 0x840)

/-- The keys of an exchange come into force, each direction's count from 0 (R396, R397). -/
def State.newKeys (s : State) : State :=
  let b := s.flag 24 .TWN_STAT 0 3
  { s with twin := { s.twin with
    oldRx := if s.twin.session && !b then some (s.twin.keyBA, s.twin.rxCount) else none
    keyAB := s.twin.nextAB, keyBA := s.twin.nextBA, nextAB := [], nextBA := [], rxCount := 0, auth := 3
    transcript := s.twin.transcript.take 64, roleB := b } }.updLink .twn fun k =>
      { k with key := if b then s.twin.nextBA else s.twin.nextAB, fromB := b, count := 0 }

/-- New keys are in force: a session comes up with the partner (R396, R401), or its keys are replaced (R397). A fence that waited is for a
partner no longer lost (R402). -/
def State.sessionUp (s : State) (peer : Nat) : State :=
  let s := s.newKeys
  if s.twin.session then s
  else
  let st := s.fld 24 .TWN_STAT 0 2 0
  let newPeer := (st = 4 ∨ st = 5) ∧ s.twin.lastPeer.isSome ∧ s.twin.lastPeer ≠ some peer
  let s := { s with
    twin := { s.twin with session := true, heard := true, lastPeer := some peer, fence := none }
    stencil := { s.stencil with mirrorFrom := s.stencil.ring, resumed := false } }
  let s := (s.setReg 24 .TWN_PEER 0 (BitVec.ofNat 64 peer)).setFld 24 .TWN_STAT 0 2 0 3
  let s := s.setFld 24 .TWN_STAT 0 11 8 0
  let s := if newPeer then s.setFld 24 .TWN_STAT 0 12 12 1 else s
  s.mcLog 0x0009 0 24 (s.fld 24 .TWN_STAT 0 31 0) peer 0

/-- Signature pair of the device identity over bytes: Ed25519, then ML-DSA-65 with drawn bytes (R396, R474, R483). -/
def State.signPair (s : State) (m : List Byte) : List Byte × State :=
  let r := s.drawBytes 32
  (edSign s.sec.idEd m ++ mlSign s.sec.idMl m r.1, r.2)

/-- A received HELLO checked: the group, then the serials, then the roles (R395); role A sends message 1. -/
def State.hello (s : State) (serial : Nat) (group : List Byte) : State :=
  if s.twin.group != some group then s.pairFail 1
  else
    let own := Config.serial.toNat
    if own = serial then s.pairFail 2
    else
      let a := decide (own < serial)
      let s := s.setFld 24 .TWN_STAT 0 3 3 (b2n (!a))
      let mine := group
      let tr := if a then mine ++ group else group ++ mine
      let s := { s with twin := { s.twin with hello := some (serial, group), transcript := tr, auth := 0, frags := [] } }
      if a then
        if !s.flag 24 .SEC_STAT 0 3 then s.pairFail 3
        else
          let m := s.authMsg1
          ({ m.2 with twin := { m.2.twin with auth := 1, transcript := m.2.twin.transcript ++ m.1 } }).sendAuth 1 m.1
      else s

/-- The checks of a partner's certificate (R396, R484): its serial is its HELLO's, its ENG bit this module's unless MIXENG. -/
def State.peerCert (s : State) (c : List Byte) : Bool :=
  certValid s.keyGen c
    && (match s.twin.hello with | some (n, _) => fromBytes ((c.drop 8).take 8) == n | none => false)
    && (s.flag 24 .TWN_CTL 0 5 || (fromBytes ((c.drop 0x10).take 4) / 2 ^ 24 % 2 == 1) == Config.eng)

/-- Does a partner's signature pair over H verify under the keys of its certificate (R396)? -/
def peerSigned (cert h sig : List Byte) : Bool :=
  edVerify ((cert.drop 0x40).take 32) h (sig.take 64) && mlVerify ((cert.drop 0x60).take 1952) h (sig.drop 64)

/-- A whole AUTH message received (R396). The keys of the exchange are derived with message 2; the final H is over messages 1 and 2, since
message 3 is a signature field alone. -/
def State.authMessage (s : State) (msg : Nat) (data : List Byte) : State :=
  let roleA := !s.flag 24 .TWN_STAT 0 3
  let peer := match s.twin.hello with | some (n, _) => n | none => 0
  let tr := s.twin.transcript
  if msg = 1 ∧ !roleA ∧ (s.twin.auth = 0 ∨ s.twin.auth = 3) then
    if !s.flag 24 .SEC_STAT 0 3 || !s.peerCert (data.take 5421) then s.pairFail 3
    else
      let sec := s.drawBytes 64
      let nonce := sec.2.drawBytes 32
      let x := sec.1.take 32
      let r := sec.1.drop 32
      let pubA := (data.drop 5421).take 32
      let ek := (data.drop 5453).take 1184
      let body := certBytes ++ x25519 x x25519Base ++ kemCipher ek r ++ nonce.1
      let h := sha3_256 (tr ++ data ++ body)
      let keys := twinKeys (x25519 x pubA ++ kemShared ek r) h
      let s := nonce.2
      let s := { s with twin := { s.twin with
        auth := 2, transcript := tr ++ data ++ body, peerCert := data.take 5421, nextAB := keys.1, nextBA := keys.2 } }
      let sig := s.signPair h
      sig.2.sendAuth 2 (body ++ sig.1)
  else if msg = 2 ∧ roleA ∧ s.twin.auth = 1 then
    let cert := data.take 5421
    let body := data.take (5421 + 32 + 1088 + 32)
    let h := sha3_256 (tr ++ body)
    if !s.peerCert cert then s.pairFail 3
    else if !peerSigned cert h (data.drop (5421 + 32 + 1088 + 32)) then s.pairFail 4
    else
      let pubB := (data.drop 5421).take 32
      let ct := (data.drop 5453).take 1088
      let keys := twinKeys (x25519 (s.twin.eph.take 32) pubB ++ kemOpen (s.twin.eph.drop 32) ct) h
      let s := { s with twin := { s.twin with transcript := tr ++ body, peerCert := cert, eph := [], nextAB := keys.1, nextBA := keys.2 } }
      let sig := s.signPair h
      (sig.2.sendAuth 3 sig.1).sessionUp peer
  else if msg = 3 ∧ !roleA ∧ s.twin.auth = 2 then
    if !peerSigned s.twin.peerCert (sha3_256 tr) data then s.pairFail 4 else s.sessionUp peer
  else s

/-- The state a heartbeat carries (R399). -/
def State.hbState (s : State) : Nat :=
  let warn := s.supply.warn || (List.range 25).any fun d => s.flag d .THM_STAT 0 0
  if s.restore.isSome then 2
  else if warn then 3
  else match s.snap with | some p => if p.flipped then 1 else 0 | none => 0

/-- Trigger 242's work at a firing (R399, R400): MISS and the heartbeat. -/
def State.heartbeat (s : State) : State :=
  if !s.twinUp then s
  else
    let s := if s.twin.heard then s.setFld 24 .TWN_STAT 0 11 8 0 else s.satFld 24 .TWN_STAT 0 11 8 1
    let s := { s with twin := { s.twin with heard := false } }
    s.twinSend { type := 0x64, a := s.hbState, b := s.time }

/-! ### The Stencil ring (R403) -/

/-- TWN_STN_DUR: every entry below it is in the ring and, where mirrored, acknowledged (R403). -/
def State.stnDur (s : State) : State :=
  let waiting := s.stencil.lost.toList ++ s.twin.mirw.filterMap fun m => if m.lsn = 0 then none else some (m.lsn - 1)
  s.setReg 24 .TWN_STN_DUR 0 (BitVec.ofNat 64 (waiting.foldl min s.stencil.ring))

/-- One entry moved from staging to the HBM ring, its poison with it, and to the twin while PAIRED, which poison does not reach (R403, R463,
R464). The mirror write of a MARK counts for its stream (R297). -/
def State.stnWrite (s : State) : State :=
  let n := s.stencil.ring
  let log := s.fld 24 .TWN_STN 0 53 48
  let base := s.fld 24 .TWN_STN 0 47 0
  let bs := s.bytes (stagingBase + 64 * (n % 1048576)) 64
  let bad := s.anyPoison (stagingBase + 64 * (n % 1048576)) 64
  let slot := 64 * (n % 2 ^ log)
  let mirror := s.fld 24 .TWN_STAT 0 2 0 = 3 && s.flag 24 .TWN_CTL 0 11 && s.twinUp
  if mirror && !s.mirrorRoom 1 then s
  else
  match s.devWrite kReq .none 64 (base + slot) bs bad with
  | (.wait, s) => s
  | (_, s) =>
    let s := ({ s with stencil := { s.stencil with ring := n + 1 } }).stageOwed
    let s :=
      if mirror && !s.stencil.resumed then
        ({ s with stencil := { s.stencil with resumed := true } }).stageRecord 0xF011 (toBytes 8 n) []
      else s
    let kind := fromBytes (bs.take 2)
    let own : Own := if kind < 0xF000 then .stream (fromBytes (bs.take 8) / 2 ^ 28 % 2 ^ 18) else .log
    let s :=
      let off := s.fld 24 .TWN_STN_MOFS 0 38 0 + slot
      if mirror && bad then (s.egress kReq 9 (0x200000000000 + off)).mirwFailed { lsn := n + 1 } 3
      else if mirror then (s.twinPost own kReq (n + 1) off bs).2
      else s
    s.stnDur

end Sys2Proof.Machine
end

