-- ==== Sys2Proof/Machine/LinkCmd.lean ====
section
/-! DEFINITION. The links' training, flits, retry and credit (R363–R370, R393, R415). -/

namespace Sys2Proof.Machine

open Sys2Proof

/-- A replay that begins at flit n, or RECOVERY in place of the eighth in a row (R367); a replayed TSREQ spoils its
exchange (R386). -/
def State.replayFrom (s : State) (l : LinkId) (n : Nat) : State :=
  let k := s.link l
  let r := if k.replays ≠ 0 ∧ k.replayAt = n then k.replays + 1 else 1
  if 8 ≤ r then s.recoverLink l
  else
    let s := s.updLink l fun k => { k with replayAt := n, replays := r, fcw := k.fcwOf (some (k.tx - 1)) }
    match l with
    | .agd =>
      let s := if k.sent.any fun e => e.2.type == 0x50 && decide (n ≤ e.1) then { s with sync := { s.sync with spoilt := true } } else s
      s.countReg 24 .AGD_REPLAY 0 1
    | _ => s

/-- A link back in DETECT, or in DISABLED while AGD_LCTL.DIS holds the Agdoa link there (R363) or no partner is seen on the twin link (R393, R514), with what that does to a twin session (R393, R397) or to
the cartridge (R418). -/
def State.linkToDetect (s : State) (l : LinkId) : State :=
  let old := (s.link l).state
  let s := s.retrainLink l (if (l = .agd ∧ s.flag 24 .AGD_LCTL 0 3) ∨ (l = .twn ∧ !s.twinHere) then 0 else 1)
  match l with
  | .agd => s
  | .twn => s.twinDown s.twinHere
  | .hwk =>
    let s := if (s.fld 24 .HWK_STAT 0 2 0) = 1 then s.setFld 24 .HWK_STAT 0 2 0 0 else s
    if old = 5 ∨ old = 6 then s.hawkDown.endTier 1 2 else s

/-- Signal on the Hawk link: a cartridge that was ABSENT is TRAINING, its marks and wear not yet known (R416, R418). -/
def State.hawkInserted (s : State) : State :=
  if s.fld 24 .HWK_STAT 0 2 0 = 0 then
    let s := ((s.setFld 24 .HWK_STAT 0 2 0 1).setFld 24 .HWK_STAT 0 4 3 0).setFld 24 .HWK_STAT 0 15 8 0
    { s with hawk := { s.hawk with wearSeen := false } }
  else s

/-- Do the lanes of a mask hold all of one group of 8 lanes of a link (R364, R393, R415)? `At least 8 lanes of one group' is read of the
groups of 8 (DEDUCED, log entry 68). -/
def laneGroup (l : LinkId) (m : BitVec 32) : Bool :=
  (List.range (linkLanes l / 8)).any fun g => m.toNat / 2 ^ (8 * g) % 256 == 255

/-- Signal on at least 8 lanes of one group: DETECT to TRAIN (R363). -/
def execLinkSignalDetect (l : LinkId) (lanes : BitVec 32) (s : State) : Out :=
  done (if !s.stopped && (s.link l).state == 1 && laneGroup l lanes then
    let s := s.updLink l fun k => { k with state := 2 }
    match l with
    | .hwk => s.hawkInserted
    | _ => s
  else s)

/-- Lane training completes: TRAIN to ALIGN, with the lanes that trained (R363, R392). -/
def execLinkTrainDone (l : LinkId) (good : BitVec 32) (s : State) : Out :=
  done (if (s.link l).state == 2 then s.updLink l fun k => { k with state := 3, good := good.toNat % 2 ^ linkLanes l } else s)

/-- Width code and lane group that ALIGN chooses among the trained lanes, none below the least width (R364, R393, R415). -/
def chooseWidth (l : LinkId) (good minw : Nat) : Option (Nat × Nat) :=
  let all (n g : Nat) : Bool := good / 2 ^ (n * g) % 2 ^ n == 2 ^ n - 1
  match l with
  | .agd =>
    if all 32 0 then some (3, 0)
    else if 2 ≤ minw then none
    else if all 16 0 then some (2, 0)
    else if all 16 1 then some (2, 1)
    else if minw = 1 then none
    else (firstIdx (all 8) [0, 1, 2, 3]).map fun g => (1, g)
  | .twn => if all 16 0 then some (2, 0) else (firstIdx (all 8) [0, 1]).map fun g => (1, g)
  | .hwk => if all 8 0 then some (1, 0) else none

/-- Sizes of the device's own receive buffers, per class, advertised in PARAM (R369, R394): those of the Hawk link are the Agdoa link's, as R415
gives none of its own. -/
def advertised : LinkId → List Nat
  | .agd => [8192, 8192, 0, 256]
  | .twn => [4096, 4096, 0, 512]
  | .hwk => [8192, 8192, 0, 256]

/-- ALIGN ends: the widest width, or DETECT (R364). -/
def execLinkAlignDone (l : LinkId) (rev : Bool) (pol : BitVec 32) (s : State) : Out :=
  let k := s.link l
  done (if k.state ≠ 3 then s
    else match chooseWidth l k.good (match l with | .agd => s.fld 24 .AGD_LCTL 0 2 1 | _ => 0) with
      | some (w, g) => s.updLink l fun k =>
          { k with state := 4, width := w, group := g, rev := rev, pol := pol.toNat % 2 ^ linkLanes l, adv := advertised l }
      | none => s.linkToDetect l)

/-- Does the other side advertise enough chunks (R369, R394)? -/
def creditsOk (l : LinkId) (req rsp evt mgt : Nat) : Bool :=
  match l with
  | .agd => decide (257 ≤ req) && decide (257 ≤ rsp) && decide (257 ≤ evt) && decide (17 ≤ mgt)
  | .twn => decide (4096 ≤ req) && decide (4096 ≤ rsp) && decide (512 ≤ mgt)
  | .hwk => decide (257 ≤ req) && decide (257 ≤ rsp) && decide (17 ≤ mgt)

/-- The link becomes ACTIVE: fresh credits and sequence numbers, packets that waited are sent, and a retrain is logged with
its width (R365, R369, R467). -/
def State.activate (s : State) (l : LinkId) (adv : List Nat) (first : List Pkt) : State :=
  let relog := (s.link l).relog
  let s := s.updLink l fun k =>
    { k with state := 5, credit := adv, owed := [0, 0, 0, 0], tx := 0, acked := 0, rx := 0, skipping := false, badRun := 0
             replays := 0, relog := false, sent := [], wait := first ++ k.wait }.pump
  if relog then s.logLink l (s.link l).width else s

/-- PARAM ends: ACTIVE, with LINKUP first on the Agdoa link (R365, R369), whose adapter's sizes AGD_CRED reads even where they fall short, pairing on the twin link (R401), the cartridge's
verification on the Hawk link (R418). -/
def execLinkParamDone (l : LinkId) (req rsp evt mgt : BitVec 16) (s : State) : Out :=
  let adv := [req.toNat, rsp.toNat, evt.toNat, mgt.toNat]
  let seen (s : State) : State := match l with | .agd => s.setReg 24 .AGD_CRED 0 (mgt ++ evt ++ rsp ++ req) | _ => s
  done (if (s.link l).state ≠ 4 then s
    else if !creditsOk l req.toNat rsp.toNat evt.toNat mgt.toNat then
      (seen s).logErr 24 0x11 1 (linkUnit l) ⟨24, linkUnit l⟩ none false 0
    else match l with
      | .agd =>
        let s := seen s
        let s := s.satFld 24 .AGD_LSTAT 0 31 16 1
        let s := { s with drds := s.drds.filter fun d => d.own != Own.none }
        let up : Pkt := { type := 0x32, a := 5 + 2 ^ 8 * (s.link .agd).width, data := List.replicate 24 0 ++ toBytes 8 s.time }
        s.activate .agd adv [up]
      | .twn => (s.activate .twn adv []).twinActive
      | .hwk =>
        let s := s.activate .hwk adv []
        if s.fld 24 .HWK_STAT 0 2 0 = 1 then s.setFld 24 .HWK_STAT 0 2 0 2 else s)

/-- The time limit of TRAIN, ALIGN, PARAM or RECOVERY: DETECT (R363). -/
def execLinkStateTimeout (l : LinkId) (s : State) : Out :=
  done (if (s.link l).state ∈ [2, 3, 4, 6] then s.linkToDetect l else s)

/-- Lost lock or 16 uncorrectable codewords: ACTIVE to RECOVERY (R365). -/
def execLinkRecovery (l : LinkId) (s : State) : Out := done (if (s.link l).state = 5 then s.recoverLink l else s)

/-- RECOVERY regains lock: ACTIVE, and the retry buffer is replayed (R365). -/
def execLinkRecoveryDone (l : LinkId) (s : State) : Out :=
  let k := s.link l
  done (if k.state ≠ 6 then s
    else
      let s := s.updLink l fun k => { k with state := 5 }.pump
      if k.acked < k.tx then (s.replayFrom l k.acked).updLink l fun k => { k with replays := 0 } else s)

/-- A retrain from ACTIVE or RECOVERY (R365). -/
def execLinkRetrain (l : LinkId) (s : State) : Out :=
  done (if (s.link l).state = 5 ∨ (s.link l).state = 6 then s.linkToDetect l else s)

/-- A codeword received: counted, discarded or accepted in order, and its ACK taken, none where ACKV is 0; the next flit sent acknowledges it (R362, R366, R367).
Of the packets in an accepted flit those that R372 discards are dealt with here. -/
def execFlitReceive (l : LinkId) (bad fixed seqd : Bool) (fseq : BitVec 9) (ack : Option (BitVec 9)) (odd : List OddPkt) (s : State) : Out :=
  let k := s.link l
  done (if k.state ≠ 5 then s
    else if bad then
      let s := match l with | .agd => s.countReg 24 .AGD_FECU 0 1 | _ => s
      if 16 ≤ k.badRun + 1 then s.recoverLink l
      else
        let s := s.updLink l fun k => { k with badRun := k.badRun + 1, skipping := true }
        if k.skipping then s else s.send l { type := 0x01, a := 1, b := k.rx % 512, data := List.replicate 16 0 }
    else
      let s := match l with | .agd => if fixed then s.countReg 24 .AGD_FECC 0 1 else s | _ => s
      let s := s.updLink l fun k => let k := { k with badRun := 0 }; match ack with | some a => k.ackTo a.toNat | none => k
      if seqd && (s.link l).rx % 512 == fseq.toNat then
        odd.foldl (fun s p => s.discardOdd l p) (s.updLink l fun k => { k with rx := k.rx + 1, skipping := false }.pump)
      else s)

/-- A NAK received: a replay from NAKSEQ (R367). -/
def execNak (l : LinkId) (seq : BitVec 9) (s : State) : Out :=
  let k := s.link l
  let n := k.acked + (seq.toNat + 512 - k.acked % 512) % 512
  done (if k.state = 5 ∧ n < k.tx then s.replayFrom l n else s)

/-- No advance of ACK for 1 µs: a replay from the oldest flit held (R367). -/
def execAckTimeoutReplay (l : LinkId) (s : State) : Out :=
  let k := s.link l
  done (if k.state = 5 ∧ k.acked < k.tx then s.replayFrom l k.acked else s)

/-- A credit-return LCTL received (R370): its increments, and what they let go. -/
def execLctl (l : LinkId) (req rsp evt mgt : BitVec 16) (s : State) : Out :=
  let add := [req.toNat, rsp.toNat, evt.toNat, mgt.toNat]
  done (if (s.link l).state = 5 then
    s.updLink l fun k => { k with credit := (k.credit.zip add).map fun (p : Nat × Nat) => p.1 + p.2 }.pump else s)

/-- The device returns the credit it owes in an LCTL (R370). -/
def execCreditReturnSend (l : LinkId) (s : State) : Out :=
  let k := s.link l
  done (if k.state = 5 ∧ k.owed.any (· != 0) then
    let data := (k.owed.take 4).flatMap fun n => toBytes 2 n
    (s.updLink l fun k => { k with owed := [0, 0, 0, 0] }).send l { type := 0x01, a := 2, data := data ++ List.replicate 8 0 }
  else s)

/-- AGD_LCTL written; RETRAIN reads 0 (R363, R392). -/
def State.wrAgdLctl (s : State) (v m : Word) : State :=
  let old := s.reg 24 .AGD_LCTL 0
  let s := s.setReg 24 .AGD_LCTL 0 (setBit (plainWrite (regInfo .AGD_LCTL) old v m) 0 false)
  let dis := s.flag 24 .AGD_LCTL 0 3
  let st := (s.link .agd).state
  if dis then (if st = 0 then s else s.retrainLink .agd 0)
  else if bit old 3 then (if st = 0 then s.updLink .agd fun k => { k with state := 1 } else s)
  else if bit (v &&& m) 0 && st != 0 then s.retrainLink .agd 1
  else s

/-- A write of AGD_LCTL.DIS (R363). -/
def execAgdLctlDis (q : Src) (v : Word) (s : State) : Out := regCmd q 24 .AGD_LCTL 0 s fun s => s.wrAgdLctl v (BitVec.allOnes 64)
/-- A write of 1 to AGD_LCTL.RETRAIN (R365). -/
def execAgdLctlRetrain (q : Src) (s : State) : Out :=
  regCmd q 24 .AGD_LCTL 0 s fun s => s.wrAgdLctl (s.reg 24 .AGD_LCTL 0 ||| 1) (BitVec.allOnes 64)

end Sys2Proof.Machine
end

