-- ==== Sys2Proof/Machine/Time.lean ====
section
/-! DEFINITION. Fabric time and its discipline by the adapter and by TIME_PPS (R385–R391, R522). -/

namespace Sys2Proof.Machine

open Sys2Proof

/-- AGD_TCFG.INT in ns (R392). -/
def State.tsyncInt (s : State) : Nat := max 1 (s.fld 24 .AGD_TCFG 0 15 2) * 1000

/-- FREQ as a signed number (R392). -/
def State.tFreq (s : State) : Int := (BitVec.ofNat 32 (s.fld 24 .AGD_TFREQ 0 31 0)).toInt

/-- r of R385: FREQ + SLEW, in parts per billion. -/
def State.tRate (s : State) : Int := s.tFreq + s.sync.slew

/-- A clamp. -/
def clampInt (lo hi x : Int) : Int := max lo (min hi x)

/-- A quotient of R389: exact where it is, else rounded either way (log entry 25). -/
def State.ratio (s : State) (n d : Int) : Int × State :=
  let q := n.fdiv d
  if q * d = n then (q, s) else let r := s.freeBool; (if r.1 then q + 1 else q, r.2)

/-- Fabric time stepped forward by a number of half nanoseconds (R385, R389). -/
def State.stepTime (s : State) (h : Nat) : State :=
  let f := s.frac + h % 2 * 2 ^ 31
  let t := s.time + h / 2 + f / 2 ^ 32
  { s with
    time := t % 2 ^ 64, frac := f % 2 ^ 32
    sync := { s.sync with stepped := s.sync.stepped + h, stepAt := some t, spoilt := true, lastStart := s.sync.lastStart + h / 2 } }

/-- FREQ and SLEW from an offset θ and a span T, both in half nanoseconds (R389). -/
def State.steer (s : State) (theta t : Int) : State :=
  if t ≤ 0 then s
  else
    let a := s.ratio (theta * 1000000000) (8 * t)
    let b := a.2.ratio (theta * 1000000000) t
    let freq := clampInt (-100000) 100000 (s.tFreq + a.1)
    let s := b.2.setFld 24 .AGD_TFREQ 0 31 0 (BitVec.ofInt 32 freq).toNat
    { s with sync := { s.sync with slew := clampInt (-400000) 400000 b.1, slewEnd := s.time + t.toNat / 2 } }

/-- An offset acts on fabric time: the branches of R389, the last two only where `full` (R391). -/
def State.discipline (s : State) (theta t : Int) (full : Bool) : State :=
  let step : Int := 2 * s.fld 24 .AGD_TCFG 0 31 16
  if !s.flag 24 .AGD_TSTAT 0 0 then
    let s := if 0 < theta then s.stepTime theta.toNat else s
    let s := (s.setFld 24 .AGD_TSTAT 0 0 0 1).setFld 24 .AGD_TFREQ 0 31 0 0
    { s with sync := { s.sync with slew := 0 } }
  else if step < theta then (s.stepTime theta.toNat).satFld 24 .AGD_TSTAT 0 31 16 1
  else if !full then s
  else (if theta < -step then s.setFld 24 .AGD_TSTAT 0 2 2 1 else s).steer theta t

/-- Do the TSYNC exchanges act in full: SRC = 0, or the PPS edges are lost (R391)? -/
def State.tsyncFull (s : State) : Bool := !s.flag 24 .AGD_TCFG 0 0 || decide (3 ≤ s.sync.ppsMiss)

/-- An exchange begins: TSREQ with its stamp t1, when it can go at once (R386). -/
def execTimeExchangeStart (s : State) : Out :=
  let k := s.link .agd
  let p : Pkt := { type := 0x50, a := s.sync.id, b := s.time }
  done (if s.flag 24 .AGD_TCFG 0 1 && k.state == 5 && s.sync.out.isNone && decide (s.sync.lastStart + s.tsyncInt ≤ s.time)
      && k.fits p && !(k.wait.any fun w => pktClass w.type == 3) then
    let s := { s with sync := { s.sync with out := some (s.sync.id, s.time), id := (s.sync.id + 1) % 65536, lastStart := s.time
                                            spoilt := false } }
    s.send .agd p
  else s)

/-- An exchange discarded (R387). -/
def State.rejectExchange (s : State) : State :=
  ({ s with sync := { s.sync with out := none } }).satFld 24 .AGD_TSTAT 0 47 32 1

/-- An exchange accepted: its report, and its action on fabric time (R388–R390). -/
def State.acceptExchange (s : State) (t1 : Nat) (d theta : Int) : State :=
  let t : Int := match s.sync.lastT1 with | some p => 2 * ((t1 : Int) - p) - s.sync.stepped | none => 0
  let s := s.setReg 24 .AGD_TOFS 0 (BitVec.ofInt 32 d ++ BitVec.ofInt 32 (theta.tdiv 2))
  let s := s.setFld 24 .AGD_TSTAT 0 1 1 0
  let s := { s with sync := { s.sync with out := none, lastT1 := some t1, accAt := s.time, stepped := 0 } }
  s.discipline theta t s.tsyncFull

/-- A time response: the checks of R387, then R388 and R389. -/
def execTsrsp (id : BitVec 16) (t2 t3 : Word) (s : State) : Out :=
  done (if (s.link .agd).state ≠ 5 then s
    else
      let s := s.owe .agd 3 2
      match s.sync.out with
      | none => s
      | some (oid, t1) =>
        let t4 : Int := s.time
        let d : Int := (t4 - t1) - ((t3.toNat : Int) - t2.toNat)
        let theta : Int := ((t2.toNat : Int) - t1) - (t4 - t3.toNat) + (BitVec.ofNat 16 (s.fld 24 .AGD_TASYM 0 15 0)).toInt
        if oid ≠ id.toNat ∨ t1 + 100000 < s.time ∨ s.sync.spoilt then s.rejectExchange
        else if d < 0 ∨ (s.fld 24 .AGD_TCFG 0 47 32 : Int) < d then s.rejectExchange
        else
          let s := { s with sync := { s.sync with delays := (d :: s.sync.delays).take 16 } }
          if s.sync.delays.foldl min d + 40 < d then s.rejectExchange else s.acceptExchange t1 d theta)

/-- No TSRSP for 100 µs: the exchange is discarded (R387). -/
def execTimeExchangeTimeout (s : State) : Out :=
  done (match s.sync.out with
    | some (_, t1) => if t1 + 100000 < s.time then s.rejectExchange else s
    | none => s)

/-- SLEW returns to 0 (R389). -/
def execSlewExpiry (s : State) : Out :=
  done (if s.sync.slewEnd ≤ s.time then { s with sync := { s.sync with slew := 0 } } else s)

/-- No accepted exchange for 16 × INT: HOLD (R390). -/
def execHoldTimeout (s : State) : Out :=
  done (if s.timeRuns && decide (s.sync.accAt + 16 * s.tsyncInt ≤ s.time) then s.setFld 24 .AGD_TSTAT 0 1 1 1 else s)

/-- An edge of TIME_PPS near second n that is not used (R391, R522). It counts among the expected edges not used once for its second: a
further edge of a second whose edge has been used or counted is no expected one (log entry 25). -/
def State.ppsUnused (s : State) (n : Int) : State :=
  let s := s.satFld 24 .AGD_TSTAT 0 63 48 1
  if s.sync.ppsSec = some n then s
  else
    let miss := s.sync.ppsMiss + 1
    let s := s.setFld 24 .AGD_TSTAT 0 3 3 0
    let s := if miss = 3 then s.setFld 24 .AGD_TSTAT 0 4 4 1 else s
    { s with sync := { s.sync with ppsMiss := miss, ppsSec := some n } }

/-- A rising edge of TIME_PPS with SRC = 1 (R391, R522). -/
def execTimePpsEdge (s : State) : Out :=
  done (if !s.timeRuns || s.pinHeld 11 || !s.flag 24 .AGD_TCFG 0 0 then s
    else
      let sec : Int := 2000000000
      let e : Int := 2 * s.time + s.frac / 2 ^ 31
      let q : Int := e - 2 * (s.fld 24 .AGD_PPSOFS 0 29 0 % 1000000000 : Nat)
      let eps : Int := (q + 1000000000) % sec - 1000000000
      let n : Int := (q + 1000000000).fdiv sec
      let soon := match s.sync.ppsAt with | some t => decide (s.time < t + 500000000) | none => false
      let stepped := match s.sync.stepAt with | some t => decide (s.time < t + 1000) | none => false
      if soon || stepped || decide (2000 * (s.fld 24 .AGD_TCFG 0 63 48 : Int) < eps.natAbs) then s.ppsUnused n
      else
        let t := sec - s.sync.ppsEps + eps
        let s := s.setFld 24 .AGD_TSTAT 0 3 3 1
        let s := { s with sync := { s.sync with ppsEps := eps, ppsAt := some s.time, ppsMiss := 0, ppsSec := some n } }
        s.discipline (-eps) t true)

/-- Three consecutive expected edges missing or not used: PPSLOST (R391). -/
def execPpsLost (s : State) : Out :=
  let last := s.sync.ppsAt.getD 0
  done (if s.timeRuns && s.flag 24 .AGD_TCFG 0 0
      && (decide (3 ≤ s.sync.ppsMiss) || decide (last + 3000000000 + 1000 * s.fld 24 .AGD_TCFG 0 63 48 < s.time)) then
    let s := (s.setFld 24 .AGD_TSTAT 0 4 4 1).setFld 24 .AGD_TSTAT 0 3 3 0
    { s with sync := { s.sync with ppsMiss := max 3 s.sync.ppsMiss } }
  else s)

end Sys2Proof.Machine
end

