-- ==== Sys2Proof/Machine/TwinCmd.lean ====
section
/-! DEFINITION. The commands of the twin link: presence, pairing, mirror writes, heartbeats, fencing and the Stencil ring
(R393–R405). -/

namespace Sys2Proof.Machine

open Sys2Proof

/-- TWIN_PRESENT_N falls: training starts (R393, R401). -/
def execTwinPresentFall (s : State) : Out :=
  let s := { s with twin := { s.twin with present := true } }
  done (if s.stopped || s.phase != 0 || s.pinHeld 8 then s
    else
      let s := if (s.link .twn).state = 0 then s.updLink .twn fun k => { k with state := 1 } else s
      if s.fld 24 .TWN_STAT 0 2 0 = 0 then s.setFld 24 .TWN_STAT 0 2 0 1 else s)

/-- TWIN_PRESENT_N rises: the session ends (R397, R401). -/
def execTwinPresentRise (s : State) : Out :=
  let s := { s with twin := { s.twin with present := false } }
  done (if s.stopped || s.pinHeld 8 then s else (s.retrainLink .twn 0).twinDown false)

/-- A HELLO received (R394, R395). -/
def execHello (version : BitVec 8) (serial : Word) (group : List Byte) (s : State) : Out :=
  done (if (s.link .twn).state ≠ 5 then s
    else if version ≠ 1 ∨ group.length ≠ 32 then s.malformed .twn 0x60 3
    else
      let s := s.owe .twn 3 3
      if s.twin.group.isNone || s.twin.session || !s.skimOk then s
      else if s.twin.failed then { s with twin := { s.twin with hello := some (serial.toNat, group) } }
      else s.hello serial.toNat group)

/-- The bytes of the fragments of a message in order. -/
def joinFrags (fs : List (Nat × List Byte)) (n : Nat) : List Byte :=
  (List.range n).flatMap fun i => ((fs.find? fun f => f.1 == i).map (·.2)).getD []

/-- An AUTH packet received: its fragment kept, and the message acted on when whole (R394, R396). -/
def execAuth (msg : BitVec 4) (frag count : BitVec 8) (total : Nat) (data : List Byte) (s : State) : Out :=
  let len := 1 + (data.length + 15) / 16
  done (if (s.link .twn).state ≠ 5 then s
    else if count ≤ frag ∨ 4064 < data.length ∨ msg = 0 ∨ 3 < msg then s.malformed .twn 0x61 len
    else
      let s := s.owe .twn 3 len
      if s.twin.hello.isNone && !s.twin.session then s
      else
        let fs := (s.twin.frags.filter fun f => f.1 != frag.toNat) ++ [(frag.toNat, data)]
        if fs.length < count.toNat then { s with twin := { s.twin with frags := fs } }
        else
          let s := { s with twin := { s.twin with frags := [] } }
          let whole := joinFrags fs count.toNat
          if whole.length = total then s.authMessage msg.toNat whole else s.malformed .twn 0x61 0)

/-- A failed pairing is tried again (R395, R401). -/
def execPairingRetry (s : State) : Out :=
  done (if (s.link .twn).state ≠ 5 ∨ !s.twin.failed then s
    else if s.twin.session then ({ s with twin := { s.twin with failed := false } }).rekey
    else
      let kept := s.twin.hello
      let s := ({ s with twin := { s.twin with failed := false, hello := none } }).twinActive
      match kept with
      | some (serial, group) => if s.twin.failed || s.twin.group.isNone then s else s.hello serial group
      | none => s)

/-- A protected packet arrives, given as what its chunks decrypt to and its tag chunk: each counts in its direction; one whose tag is not the
direction key's is counted and dropped, and so is one that comes without a session, when no key is in force; a good one resets MISS (R394,
R396, R397, R400). -/
def protectedIn (p : Pkt) (mac : List Byte) (s : State) (f : State → State) : Out :=
  let s' := s.owe .twn (pktClass p.type) p.len
  done (if (s.link .twn).state ≠ 5 then s
    else if !s.twin.session then s'.satFld 24 .TWN_STAT 0 47 16 1
    else
      let c := s'.tagCheck p mac
      (if c.1 then f (({ c.2 with twin := { c.2.twin with heard := true } }).setFld 24 .TWN_STAT 0 11 8 0)
       else c.2.satFld 24 .TWN_STAT 0 47 16 1).rekeyDue)

/-- The status a mirror write is answered with, and its effect at its home (R398). -/
def State.mirrorIn (s : State) (off : Nat) (data : List Byte) : Acc Unit × State :=
  let pa := s.fld 24 .TWN_SKIM 0 47 0 + off
  if s.flag 24 .TWN_STAT 0 13 || decide (0x8000000000 ≤ off) || decide (s.fld 24 .HBM_CAP 0 47 0 ≤ pa) then (.err 1, s)
  else s.devWrite ⟨24, 9⟩ .none 64 pa data false

/-- A MIRW received: performed into the Skim region and answered with MACK (R398). -/
def execMirw (tag : BitVec 14) (off : BitVec 39) (data mac : List Byte) (s : State) : Out :=
  let n := data.length
  let p : Pkt := { type := 0x62, tag := tag.toNat, a := n - 1, b := off.toNat, data := data }
  if n = 0 ∨ 2048 < n ∨ 2048 < off.toNat % 2048 + n then
    protectedIn p mac s fun s => s.logErr 24 0x11 1 9 ⟨24, 9⟩ none false 0x62
  else
    match s.mirrorIn off.toNat data with
    | (.wait, _) => done s
    | _ =>
      protectedIn p mac s fun s =>
        let r := s.mirrorIn off.toNat data
        let status := match r.1 with | .ok _ => 0 | _ => 1
        r.2.twinSend { type := 0x63, tag := tag.toNat, a := status }

/-- A MACK received: the mirror write is performed, or its requester gets an error response (R398); one that comes late is an orphan (R462). -/
def execMack (tag : BitVec 14) (status : BitVec 4) (mac : List Byte) (s : State) : Out :=
  protectedIn { type := 0x63, tag := tag.toNat, a := status.toNat } mac s fun s =>
    match s.twin.mirw.find? fun m => m.tag == tag.toNat with
    | none => s.logSomewhere 24 0x06 0 9 ⟨24, 9⟩ false 0
    | some m =>
      let s := { s with twin := { s.twin with mirw := s.twin.mirw.filter fun e => e.tag != tag.toNat } }
      let s := if m.late then s.logErr 24 0x06 0 9 ⟨24, 9⟩ (some (0x200000000000 + m.off)) false 0
        else if status = 0 then s
        else (s.errResponse 24 3 9 m.own.req (0x200000000000 + m.off)).mirwFailed m 3
      if m.lsn = 0 then s else s.stnDur

/-- A heartbeat received (R400). -/
def execHb (state : BitVec 4) (time : Word) (mac : List Byte) (s : State) : Out :=
  protectedIn { type := 0x64, a := state.toNat, b := time.toNat } mac s id

/-- A RETURN received: bytes of the image a restore with SRC 3 waits for (R413). -/
def execReturnPkt (off : BitVec 48) (data mac : List Byte) (s : State) : Out :=
  protectedIn { type := 0x65, a := data.length - 1, b := off.toNat, data := data } mac s fun s =>
    match s.restore with
    | some r =>
      if r.src = 3 then
        { s with restore := some { r with got := putRun (fun _ => (0 : Byte)) r.got off.toNat data,
                                          seen := putRun (fun _ => false) r.seen off.toNat (data.map fun _ => true) } }
      else s
    | none => s

/-- MISS has reached HBMISS: the partner is lost (R400, R401). -/
def execPartnerLost (s : State) : Out :=
  done (if s.fld 24 .TWN_STAT 0 2 0 = 3 ∧ max 1 (s.fld 24 .TWN_CTL 0 3 0) ≤ s.fld 24 .TWN_STAT 0 11 8 then s.partnerLost else s)

/-- A fence takes effect (R402, R498). -/
def State.fenceNow (s : State) : State :=
  let s := ({ s with twin := { s.twin with fence := none, pulse := true } }).setFld 24 .TWN_STAT 0 2 0 5
  s.mcLog 0x0009 0 24 (s.fld 24 .TWN_STAT 0 31 0) (s.reg 24 .TWN_PEER 0).toNat 0

/-- TWN_CMD.FENCE (R402): the role is the one from the last session. -/
def State.fenceTwin (s : State) : State :=
  if s.fld 24 .TWN_STAT 0 2 0 ≠ 4 ∨ !s.twinHere then s
  else if !s.twin.roleB then s.fenceNow
  else if s.twin.fence.isSome then s
  else { s with twin := { s.twin with fence := some (s.time + 2000000) } }

/-- TWN_CMD.THAW: refused while a restore reads the region (R401). -/
def State.thaw (s : State) : State :=
  match s.restore with
  | some r => if r.src = 0 ∨ r.src = 4 then s else s.setFld 24 .TWN_STAT 0 13 13 0
  | none => s.setFld 24 .TWN_STAT 0 13 13 0

/-- TWN_CMD written (R419). -/
def State.wrTwnCmd (s : State) (v : Word) : State :=
  let s := if bit v 0 then s.fenceTwin else s
  let s := if bit v 1 then s.thaw else s
  if bit v 2 then s.rekey else s

/-- TWN_CMD.FENCE (R402). -/
def execFenceTwin (q : Src) (s : State) : Out := regCmd q 24 .TWN_CMD 0 s fun s => s.wrTwnCmd 1
/-- TWN_CMD.THAW (R401). -/
def execThaw (q : Src) (s : State) : Out := regCmd q 24 .TWN_CMD 0 s fun s => s.wrTwnCmd 2
/-- TWN_CMD.REKEY (R397). -/
def execRekey (q : Src) (s : State) : Out := regCmd q 24 .TWN_CMD 0 s fun s => s.wrTwnCmd 4

/-- Role B's fence takes effect (R402). -/
def execFenceDelayed (s : State) : Out :=
  done (match s.twin.fence with
    | some t => if s.fld 24 .TWN_STAT 0 2 0 = 4 ∧ t ≤ s.time then s.fenceNow else s
    | none => s)

/-- The pulse of TWIN_RST_OUT_N ends (R402). -/
def execTwinRstOutPulseEnd (s : State) : Out := done { s with twin := { s.twin with pulse := false } }

/-- A staged entry goes to the HBM ring, when the ring has room (R403). -/
def execStencilRingWrite (s : State) : Out :=
  let head := s.fld 24 .TWN_STN_HEAD 0 63 0
  done (if !s.stopped && decide (s.stencil.ring < head)
      && decide (head - s.fld 24 .TWN_STN_FREE 0 63 0 < 2 ^ s.fld 24 .TWN_STN 0 53 48) then s.stnWrite else s)

/-- TWN_STN_FREE written: below the current value or above HEAD it is ignored (R419). -/
def State.wrStnFree (s : State) (v : Word) : State :=
  if s.fld 24 .TWN_STN_FREE 0 63 0 ≤ v.toNat ∧ v.toNat ≤ s.fld 24 .TWN_STN_HEAD 0 63 0 then s.setReg 24 .TWN_STN_FREE 0 v else s

/-- A write of TWN_STN_FREE (R419). -/
def execTwnStnFreeWrite (q : Src) (v : Word) (s : State) : Out := regCmd q 24 .TWN_STN_FREE 0 s fun s => s.wrStnFree v

end Sys2Proof.Machine
end

