-- ==== Sys2Proof/Machine/Hawk.lean ====
section
/-! DEFINITION. The Hawk cartridge: requests, identity, wear, release and removal (R415–R418). -/

namespace Sys2Proof.Machine

open Sys2Proof

/-- HWK_STAT.STATE (R419). -/
def State.hawkState (s : State) : Nat := s.fld 24 .HWK_STAT 0 2 0

/-- A state of the cartridge (R418). -/
def State.setHawk (s : State) (v : Nat) : State := s.setFld 24 .HWK_STAT 0 2 0 v

/-- Bytes of a slot and first byte of slot k (R417); none for a slot that does not exist. -/
def State.hawkSlot (s : State) (k : Nat) : Option (Nat × Nat) :=
  let n := s.fld 24 .HWK_POLICY 0 7 0
  if k < n then some (k * (4294967296 / n) * 4096, 4294967296 / n * 4096) else none

/-- The halves of 2 KiB that n bytes at a touch (R415). -/
def halves (a n : Nat) : List Nat := if n = 0 then [] else (List.range ((a + n - 1) / 2048 - a / 2048 + 1)).map fun i => 2048 * (a / 2048 + i)

/-- Tags that outstanding cartridge requests hold. -/
def State.hawkUsed (s : State) : List Nat := (s.hrds.filter fun d => d.ans.isNone).map (·.tag) ++ s.hawk.writes.map (·.tag)

/-- A request tag no outstanding cartridge request holds, if there is one (R371, R415). -/
def State.hawkTag (s : State) : Option Nat := (List.range 16384).find? fun t => !s.hawkUsed.contains t

/-- An HRD for each half that has none, while tags are free (R415). -/
def State.hawkAsk (s : State) (own : Own) : List Nat → State
  | [] => s
  | a :: l =>
    if s.hrds.any fun d => d.own == own && d.addr == a then s.hawkAsk own l
    else
      match s.hawkTag with
      | none => s
      | some tag =>
        let s := { s with hrds := s.hrds ++ [({ tag, own, addr := a, n := 2048, since := s.mctime } : Drd)] }
        (s.send .hwk ({ type := 0x70, tag, a := 2047, b := a, own } : Pkt)).hawkAsk own l

/-- The answers of a list of halves: data, the first failure, or nothing yet. -/
def State.hawkGather (s : State) (own : Own) : List Nat → Acc (List Byte)
  | [] => .ok []
  | a :: l =>
    match (s.hrds.find? fun d => d.own == own && d.addr == a).bind (·.ans) with
    | none => .wait
    | some (st, bs) =>
      match s.hawkGather own l with
      | .wait => .wait
      | r =>
        if st = 0 then (match r with | .ok rest => .ok (bs ++ rest) | e => e)
        else if st = 2 then .poison
        else if 16 ≤ st then .err (st - 16)
        else .err 3

/-- Are requests to the cartridge sent: is it ACTIVE, and its link not in training (R365, R415, R418)? -/
def State.hawkUp (s : State) : Bool := s.hawkState == 3 && s.linkUp .hwk

/-- An error response of the cartridge's link controller, logged (R459, R468). -/
def State.hawkRefuse (s : State) (code a : Nat) : State := s.errResponse 24 code 10 kReq (a % 2 ^ 48)

/-- A read of the cartridge by an owner (R415); code 6 when no request can be sent (R459). -/
def State.hawkRead (s : State) (own : Own) (a n : Nat) : Acc (List Byte) × State :=
  let hs := halves a n
  let have_ := s.hrds.any fun d => d.own == own
  if !s.hawkUp && !have_ then (.err 6, s.hawkRefuse 6 a)
  else
    let s := if s.hawkUp then s.hawkAsk own hs else s
    match s.hawkGather own hs with
    | .wait => if s.hawkUp then (.wait, s) else (.err 6, { s with hrds := s.hrds.filter fun d => d.own != own }.hawkRefuse 6 a)
    | r =>
      let s := { s with hrds := s.hrds.filter fun d => !(d.own == own && hs.contains d.addr) }
      match r with
      | .ok bs => (.ok ((bs.drop (a % 2048)).take n), s)
      | .err 3 => (r, s.hawkRefuse 3 a)
      | _ => (r, s)

/-- HWRs of whole halves, each with a tag that is free (R415, R417). -/
def State.hawkPut (s : State) (own : Own) (bs : List Byte) (base : Nat) : List Nat → State
  | [] => s
  | a :: l =>
    let tag := s.hawkTag.getD 0
    let s := { s with hawk := { s.hawk with writes := s.hawk.writes ++ [({ tag, own, off := a, n := 2048, since := s.mctime } : Mirw)] } }
    let data := ((bs.drop (a - base)).take 2048 ++ List.replicate 2048 0).take 2048
    (s.send .hwk ({ type := 0x71, tag, a := 2047, b := a, data, own } : Pkt)).hawkPut own bs base l

/-- A write of the cartridge at a byte address that is a multiple of 2,048 (R415, R417, R418). -/
def State.hawkWrite (s : State) (own : Own) (a : Nat) (bs : List Byte) : Acc Unit × State :=
  if !s.hawkUp then (.err 6, s.hawkRefuse 6 a)
  else if s.flag 24 .HWK_STAT 0 4 then (.err 3, s.hawkRefuse 3 a)
  else
    let hs := halves a bs.length
    if 16384 < s.hawkUsed.length + hs.length then (.wait, s) else (.ok (), s.hawkPut own bs a hs)

/-- A restore ends with a status that is not 1 (R413). Its reads of the cartridge that have not been answered complete for nobody (R418). -/
def State.endRestore (s : State) (status : Nat) : State :=
  let own := fun (d : Drd) => d.own == Own.restore
  let s := (((s.setFld 24 .TWN_RSTAT 0 3 0 status).setFld 24 .TWN_RSTAT 0 4 4 0)).setFld 24 .TWN_RSTAT 0 5 5 0
  let left := (s.hrds.filter fun d => !(own d && d.ans.isSome)).map fun d => if own d then { d with own := .none } else d
  ({ s with restore := none, hrds := left }).orphanPosts .restore

/-- A restore from the cartridge that runs ends with STATUS 5 (R418). -/
def State.endHawkRestore (s : State) : State :=
  match s.restore with
  | some r => if r.src = 1 then s.endRestore 5 else s
  | none => s

/-- The worn percent (R419). -/
def State.worn (s : State) : Nat := s.fld 24 .HWK_STAT 0 15 8

/-- The class 0x13 entry (R468). -/
def State.logCart (s : State) : State := s.logErr 24 0x13 1 10 ⟨24, 10⟩ none false s.worn

/-- The HWRs formed and not sent are given up (R417). -/
def State.dropHwrs (s : State) : State :=
  let unsent := ((s.link .hwk).wait.filter fun p => p.type == 0x71).map (·.tag)
  let s := s.updLink .hwk fun k => { k with wait := k.wait.filter fun p => p.type != 0x71 }
  { s with hawk := { s.hawk with writes := s.hawk.writes.filter fun m => !unsent.contains m.tag } }

/-- The cartridge becomes read-only: no further HWR is sent, and a Browning tier that had one to send ends (R411, R417). -/
def State.hawkReadOnly (s : State) : State :=
  if s.flag 24 .HWK_STAT 0 4 then s
  else
    let cut := (s.link .hwk).wait.any fun p => p.type == 0x71
    let s := ((s.setFld 24 .HWK_STAT 0 4 4 1).logCart).dropHwrs
    if cut then s.endTier 1 3 else s

/-- Signal detected on the Hawk link: ABSENT to TRAINING (R363, R418). -/
def execHawkInsert (s : State) : Out :=
  done (if s.stopped || (s.link .hwk).state != 1 then s
    else (s.updLink .hwk fun k => { k with state := 2 }).hawkInserted)

/-- An identity record checked: magic, part number, the vendor's signatures and the Render policy (R416; log entry 26). -/
def State.cartOk (s : State) (r : List Byte) : Bool :=
  let serial := fromBytes ((r.drop 12).take 8)
  r.length == 44 + 64 + 3309 && fromBytes (r.take 4) == 0x4B574148
    && (r.drop 4).take 8 == [0x4A, 0x5A, 0x48, 0x2D, 0x31, 0x36, 0x54, 0]
    && vendorEd s.keyGen (r.take 44) ((r.drop 44).take 64) && vendorMl s.keyGen (r.take 44) (r.drop 108)
    && (match s.hawk.ranges with
        | some l => l.any fun p => decide (p.1 ≤ serial ∧ serial ≤ p.2)
        | none => false)
    && decide (s.worn ≤ s.fld 24 .HWK_POLICY 0 15 8)

/-- The cartridge's identity record arrives in an HINFO, and once its wear is known it is verified: ACTIVE or REJECTED (R415, R416, R418). -/
def execHawkVerify (record : List Byte) (s : State) : Out :=
  done (if s.hawkState ≠ 2 ∨ (s.link .hwk).state ≠ 5 ∨ !s.hawk.wearSeen then s
    else
    let s := s.owe .hwk 3 (1 + (record.length + 15) / 16)
    if s.cartOk record then (s.setReg 24 .HWK_ID 0 (BitVec.ofNat 64 (fromBytes ((record.drop 12).take 8)))).setHawk 3
    else (s.retrainLink .hwk 0).setHawk 6)

/-- HREL is sent once no request is outstanding (R418). -/
def State.hawkRelease (s : State) : State :=
  if s.hawkState = 4 ∧ !s.hawk.hrel ∧ s.hawk.writes.all (·.late) ∧ !(s.hrds.any fun d => d.ans.isNone && !d.late) then
    ({ s with hawk := { s.hawk with hrel := true } }).send .hwk { type := 0x74 }
  else s

/-- A completion of the cartridge (R374, R415, R417); one whose request has timed out, or that has none, is an orphan (R462). -/
def execHcpl (tag : BitVec 14) (status : BitVec 4) (data : List Byte) (s : State) : Out :=
  done (if (s.link .hwk).state ≠ 5 then s
    else
      let s := s.owe .hwk 1 (1 + (data.length + 15) / 16)
      let s := if status = 5 then s.hawkReadOnly else s
      match s.hrds.find? fun d => d.tag == tag.toNat && d.ans.isNone with
      | some d =>
        if d.own == .none then
          let t : State := { s with hrds := s.hrds.erase d }
          (if d.late then t.logErr 24 0x06 0 10 ⟨24, 10⟩ (some (d.addr % 2 ^ 48)) false 0 else t).hawkRelease
        else
        let ok := status = 0 ∧ data.length ≠ d.n
        ({ s with hrds := s.hrds.map fun e => if e = d then { e with ans := some (if ok then 3 else status.toNat, data) } else e }).hawkRelease
      | none =>
        match s.hawk.writes.find? fun m => m.tag == tag.toNat with
        | none => s.logSomewhere 24 0x06 0 10 ⟨24, 10⟩ false 0
        | some m =>
          let s := { s with hawk := { s.hawk with writes := s.hawk.writes.filter fun e => e.tag != tag.toNat } }
          let s :=
            if m.late then s.logErr 24 0x06 0 10 ⟨24, 10⟩ (some (m.off % 2 ^ 48)) false 0
            else if status = 0 then s
            else match m.own with | .tier t => (s.hawkRefuse 3 m.off).endTier t 3 | _ => s
          s.hawkRelease)

/-- The wear record arrives in an HINFO: HWK_WEAR, the marks at 90 % and 100 % of rated life, the MC's entry (R415, R417, R498). Its length is
not stated: one chunk (DESIGN CHOICE, log entry 26). -/
def execWearReadout (bytes : Word) (worn : BitVec 8) (s : State) : Out :=
  done (if (s.hawkState ≠ 2 ∧ s.hawkState ≠ 3 ∧ s.hawkState ≠ 4) ∨ (s.link .hwk).state ≠ 5 then s
    else
      let s := { s.owe .hwk 3 2 with hawk := { s.hawk with wearSeen := true } }
      let s := (s.setReg 24 .HWK_WEAR 0 bytes).setFld 24 .HWK_STAT 0 15 8 worn.toNat
      let s :=
        if 36000000000000000 ≤ bytes.toNat && !s.flag 24 .HWK_STAT 0 3 then
          ((s.setFld 24 .HWK_STAT 0 3 3 1).sendIrq (s.fld 24 .HWK_ROUTE 0 15 0) 24).logCart
        else s
      let s := if 40000000000000000 ≤ bytes.toNat then s.hawkReadOnly else s
      s.mcLog 0x0008 0 24 (s.fld 24 .HWK_STAT 0 31 0) bytes.toNat (s.reg 24 .HWK_ID 0).toNat)

/-- Does a Browning tier or a restore use the cartridge (R418)? -/
def State.hawkInUse (s : State) : Bool := s.tierRuns 1 || match s.restore with | some r => r.src == 1 | none => false

/-- The cartridge is being released: what uses it ends (R418). -/
def State.hawkLeaves (s : State) : State := ((s.setHawk 4).endTier 1 5).endHawkRestore.hawkRelease

/-- HWK_CTL written: RELEASE (R418, R419). -/
def State.wrHwkCtl (s : State) (v m : Word) : State :=
  let s := s.setReg 24 .HWK_CTL 0 (plainWrite (regInfo .HWK_CTL) (s.reg 24 .HWK_CTL 0) v m)
  if !bit (v &&& m) 0 || s.hawkState != 3 then s
  else if s.hawkInUse && !s.flag 24 .HWK_CTL 0 1 then s
  else s.hawkLeaves

/-- The Hawk link asked to go idle releases its cartridge, once nothing uses it (R418, R426, R427). -/
def State.hawkAsked (s : State) : State := if s.asked 24 10 && s.hawkState == 3 && !s.hawkInUse then s.hawkLeaves else s

/-- A write of HWK_CTL.RELEASE (R418). -/
def execHwkCtlRelease (q : Src) (v : Word) (s : State) : Out := regCmd q 24 .HWK_CTL 0 s fun s => s.wrHwkCtl v (BitVec.allOnes 64)

/-- HREL answered, or 100 ms elapsed: RELEASED, the link idle (R418). -/
def execReleaseComplete (s : State) : Out :=
  done (if s.hawkState = 4 then
    let s := (s.hawkDown.retrainLink .hwk 0).setHawk 5
    { s with hawk := { s.hawk with hrel := false } }
  else s)

/-- Loss of signal: ABSENT, with SURPRISE where the cartridge was not released (R418). -/
def execHawkSignalLoss (s : State) : Out :=
  done (if s.hawkState = 0 then s
    else if s.hawkState = 5 ∨ s.hawkState = 6 then (s.setHawk 0).updLink .hwk fun k => { k with state := 1 }
    else
      let s := { s with hawk := { s.hawk with hrel := false } }
      let s := ((s.setHawk 0).setFld 24 .HWK_STAT 0 5 5 1).hawkDown
      ((s.endTier 1 5).endHawkRestore.retrainLink .hwk 1).logCart)

end Sys2Proof.Machine
end

