-- ==== Sys2Proof/Machine/SnapCmd.lean ====
section
/-! DEFINITION. Snapshots and restores (R406–R414). -/

namespace Sys2Proof.Machine

open Sys2Proof

/-! ### Plans (R406) -/

/-- A plan as read: its 16 header doublewords and its regions of four doublewords. -/
structure Plan where
  h : List Word := []
  r : List (List Word) := []
  deriving DecidableEq, Repr

/-- Field [hi:lo] of a header doubleword. -/
def Plan.f (p : Plan) (j hi lo : Nat) : Nat := bits (p.h.getD j 0) hi lo

/-- Bits of the header doublewords that must be 0 (R406). -/
def planZero : List Word :=
  [~~~(maskBits 12 0), 0, ~~~(maskBits 16 0), 0, 0, ~~~(maskBits 51 0), ~~~(maskBits 38 0), ~~~(maskBits 7 0), ~~~(maskBits 47 0),
   ~~~(maskBits 51 0), ~~~(maskBits 36 0), 0, BitVec.allOnes 64, BitVec.allOnes 64, BitVec.allOnes 64, BitVec.allOnes 64]

/-- A region of a plan (R406). -/
def regionOf (w : List Word) : Region :=
  let f (j hi lo : Nat) : Nat := bits (w.getD j 0) hi lo
  { buf0 := f 0 51 0, buf1 := f 1 51 0, bytes := f 2 39 0, mode := f 2 41 40, live := f 3 51 0, src := f 0 51 0 }

/-- Is a region malformed: reserved bits, a reserved mode, bytes that are no multiple of 64, a BUF1 in mode 0 (R406, R407)? -/
def regionBad (w : List Word) : Bool :=
  let r := regionOf w
  bits (w.getD 0 0) 63 52 != 0 || bits (w.getD 1 0) 63 52 != 0 || bits (w.getD 2 0) 63 42 != 0 || bits (w.getD 3 0) 63 52 != 0
    || r.mode == 3 || !aligned 64 r.bytes || (r.mode == 0 && r.buf1 != 0)

/-- Is a plan malformed (R406, R407)? -/
def Plan.bad (p : Plan) : Bool :=
  (p.h.zip planZero).any (fun e => e.1 &&& e.2 != 0) || p.f 0 12 0 == 0 || decide (4096 < p.f 0 12 0)
    || !aligned blockSize (p.f 6 38 0) || !aligned 4096 (p.f 8 47 0) || decide (262144 < p.f 10 17 0 + p.f 10 36 18)
    || p.r.any regionBad

/-- The regions of a plan whose header has been read (R406). -/
def State.readRegions (s : State) (x : DevCtx) (la : Nat) (h : List Word) : DevAcc Plan × State :=
  let n := min (bits (h.getD 0 0) 12 0) 4096
  match s.devWordsLin x (la + 128) (4 * n) with
  | (.ok ws, s) => (.ok { h, r := (List.range n).map fun i => (ws.drop (4 * i)).take 4 }, s)
  | (.err c, s) => (.err c, s)
  | (.poison, s) => (.poison, s)
  | (.aborted, s) => (.aborted, s)
  | (.wait, s) => (.wait, s)

/-- A plan read at a linear address (R406, R413). -/
def State.readPlan (s : State) (x : DevCtx) (la : Nat) : DevAcc Plan × State :=
  match s.devWordsLin x la 16 with
  | (.ok h, s) => s.readRegions x la h
  | (.err c, s) => (.err c, s)
  | (.poison, s) => (.poison, s)
  | (.aborted, s) => (.aborted, s)
  | (.wait, s) => (.wait, s)

/-- The ranges a plan names, with whether they are written (R406, R407 reason 7). -/
def Snap.ranges (p : Snap) : List (Nat × Nat × Bool) :=
  p.regions.flatMap (fun r =>
    [(r.buf0, r.bytes, false)] ++ (if r.mode = 0 then [] else [(r.buf1, r.bytes, r.mode == 2)])
      ++ (if r.mode = 1 then [(r.live, 8, true)] else []))
    ++ [(p.result, 64, true), (p.genCap, 16 * p.genCount, true)]

/-- The SNAP a plan describes. -/
def State.snapOf (s : State) (r : StreamRun) (p : Plan) : Snap :=
  let tiers := bits (r.dw 1) 2 0
  let flip := p.f 1 63 0
  { stream := r.s, id := s.snapCount + 1, regions := p.r.map regionOf
    flipAt := if flip = 0 then s.time + s.fld 24 .TWN_SNAP_LEAD 0 31 0 else flip
    gateSync := p.f 2 15 0, gateEn := bit (p.h.getD 2 0) 16, gateVal := p.f 3 63 0, gateTmo := p.f 11 63 0
    syncs := [p.f 4 15 0, p.f 4 31 16, p.f 4 47 32, p.f 4 63 48], result := p.f 5 51 0, skimOfs := p.f 6 38 0
    hslot := p.f 7 7 0, scrBase := p.f 8 47 0, genCap := p.f 9 51 0, genFirst := p.f 10 17 0, genCount := p.f 10 36 18
    ptb := s.strW r.s 1, ring := s.strF r.s 0 57 56
    tiers := (List.range 3).map fun t => (if tiers.testBit t then 15 else 0, 0) }

/-- Bytes of the image of R409 with its manifest area. -/
def Snap.size (p : Snap) : Nat :=
  let n := imageBytes p.image
  manifestBytes p.image.length (blockCount n) + n

/-- Bytes of the outbound window from a host-window address to its end: none when the window is not enabled and writable
(R381, R407). -/
def State.windowRoom (s : State) (pa : Nat) : Option Nat :=
  match s.decodePA pa with
  | .host slot off =>
    let owc := s.reg 24 .AGD_OWC slot
    let size := min (bits owc 26 0) 67108864 * 4096
    if bit owc 28 && !bit owc 27 && decide (off < size) then some (size - off) else none
  | _ => none

/-- The refusal reason of a SNAP, in ascending order, 0 for none (R407). -/
def State.snapReason (s : State) (p : Snap) (bad : Bool) : Nat :=
  let want (t : Nat) : Bool := (p.tiers.getD t (0, 0)).1 == 15
  if bad || (want 1 && decide (s.fld 24 .HWK_POLICY 0 7 0 ≤ p.hslot)) then 1
  else if s.snap.isSome then 2
  else if want 0 && s.fld 24 .TWN_STAT 0 2 0 != 3 then 3
  else if want 1 && (s.hawkState != 3 || s.flag 24 .HWK_STAT 0 4) then 4
  else if want 2 && (s.windowRoom p.scrBase).isNone then 5
  else if (want 0 && decide (0x8000000000 < p.skimOfs + p.size))
      || (want 1 && decide (((s.hawkSlot p.hslot).map (·.2)).getD 0 < p.size))
      || (want 2 && decide ((s.windowRoom p.scrBase).getD 0 < p.size)) then 6
  else 0

/-- A SNAP whose plan has been read: refused, or started once the pages of the plan are ready (R406–R408). -/
def State.snapWith (s : State) (r : StreamRun) (x : DevCtx) (plan : Plan) : State :=
  let p := s.snapOf r plan
  match s.snapReason p plan.bad with
  | 0 =>
    match s.pagesOver x (p.ranges.flatMap fun e => (spanPages e.1 e.2.1).map fun a => (a, e.2.2)) with
    | (.wait, s) => s
    | (.ok _, s) =>
      if s.stagingRoom = 0 then s
      else
        let s := { s with snapCount := p.id, snap := some p }
        let s := s.stageRecord 0xF002 (toBytes 8 p.id ++ toBytes 8 (bits (r.dw 1) 2 0)) []
        (s.armTimer 243 [p.flipAt]).setRun { r with run := .snap }
    | (_, s) => s.snapClose r p 7
  | n => s.snapClose r p n

/-- A SNAP starts: its plan is read. An aborted translation is reason 7, in the record where the header has given its address (R407). -/
def State.snapStart (s : State) (r : StreamRun) : State :=
  let x := { s.strCtx r.s 2 4096 with ring := s.strF r.s 0 57 56 }
  let la := bits (r.dw 2) 51 0
  match s.devWordsLin x la 16 with
  | (.wait, s) => s
  | (.aborted, s) => s.faultStream r 0x0A 0
  | (.ok h, s) =>
    match s.readRegions x la h with
    | (.wait, s) => s
    | (.aborted, s) => s.snapClose r (s.snapOf r { h }) 7
    | (.ok plan, s) => s.snapWith r x plan
    | (e, s) => s.faultStream r (DevAcc.fcode e) 0
  | (e, s) => s.faultStream r (DevAcc.fcode e) 0

/-- SNAP (R296, R406). -/
def execSnap (st : StreamId) (s : State) : Out :=
  onBegun st 0x09 (match s.runOf st.toNat with | some r => if s.stopped then s else s.snapRetry r | none => s) State.snapStart

/-! ### The flip (R408) -/

/-- Trigger 243 fires for a SNAP: the gate is tested (R408). -/
def State.snapFire (s : State) : State := (s.updSnap fun p => { p with fired := true }).testGate (match s.snap with | some p => p.gateSync | none => 0)

/-- The captured stream state (R408). -/
def State.genBytes (s : State) (p : Snap) : List Byte :=
  (List.range p.genCount).flatMap fun i => toBytes 8 (s.strW (p.genFirst + i) 4).toNat ++ toBytes 8 (s.strW (p.genFirst + i) 5).toNat

/-- A region at the flip: its live pointer switched in mode 1, and the buffer the tiers read (R408). -/
def State.switchRegion (s : State) (x : DevCtx) (r : Region) : DevAcc Region × State :=
  if r.switched then (.ok r, s)
  else if r.mode ≠ 1 then (.ok { r with src := if r.mode = 2 then r.buf1 else r.buf0, switched := true }, s)
  else
    match s.devWordsLin x r.live 1 with
    | (.ok w, s) =>
      let was0 := (w.getD 0 0).toNat = r.buf0
      match s.devWriteLin x r.live (toBytes 8 (if was0 then r.buf1 else r.buf0)) false with
      | (.ok _, s) => (.ok { r with src := if was0 then r.buf0 else r.buf1, switched := true }, s)
      | (.err c, s) => (.err c, s)
      | (.poison, s) => (.poison, s)
      | (.aborted, s) => (.aborted, s)
      | (.wait, s) => (.wait, s)
    | (.err c, s) => (.err c, s)
    | (.poison, s) => (.poison, s)
    | (.aborted, s) => (.aborted, s)
    | (.wait, s) => (.wait, s)

/-- The regions in plan order up to the first that must wait or fails, with how far they have come (R408). -/
def State.switchLive (s : State) (x : DevCtx) : List Region → DevAcc Unit × List Region × State
  | [] => (.ok (), [], s)
  | r :: rs =>
    match s.switchRegion x r with
    | (.ok r, s) =>
      let t := s.switchLive x rs
      (t.1, r :: t.2.1, t.2.2)
    | (.err c, s) => (.err c, r :: rs, s)
    | (.poison, s) => (.poison, r :: rs, s)
    | (.aborted, s) => (.aborted, r :: rs, s)
    | (.wait, s) => (.wait, r :: rs, s)

/-- A SNAP whose capture or pointer switch cannot be performed faults as any command does (R301). -/
def State.snapFault (s : State) (p : Snap) (fcode : Nat) : State :=
  let s := { s with snap := none }
  match s.runOf p.stream with
  | some r => s.faultStream r fcode 0
  | none => s

/-- The flip: capture, pointers, entry 0xF003 (R408). What must wait goes on from where it stopped. -/
def State.snapFlip (s : State) (p : Snap) : State :=
  let x := p.ctx (.stream p.stream)
  let capture : DevAcc Unit × State := if p.captured then (.ok (), s) else s.devWriteLin x p.genCap (s.genBytes p) false
  match capture with
  | (.wait, s) => s
  | (.ok _, s) =>
    let t := s.switchLive x p.regions
    let s := t.2.2.updSnap fun p => { p with captured := true, regions := t.2.1 }
    match t.1 with
    | .wait => s
    | .ok _ =>
      if s.stagingRoom = 0 then s
      else
        let lsn := s.fld 24 .TWN_STN_HEAD 0 63 0
        let s := s.stageRecord 0xF003 (toBytes 8 p.id ++ toBytes 8 s.time ++ toBytes 8 p.genCount) []
        (s.updSnap fun p => { p with flipped := true, flipTime := s.time, flipLsn := lsn }).snapRetire
    | e => s.snapFault p (DevAcc.fcode e)
  | (e, s) => s.snapFault p (DevAcc.fcode e)

/-- Trigger 243 fires if it is due, and the snapshot flips once the gate is met (R408). -/
def execSnapFlip (s : State) : Out :=
  done (match s.snap with
    | none => s
    | some p0 =>
      let s := if !p0.fired && s.triggerDue 243 then (s.fireTrigger 243).snapFire else s
      match s.snap with
      | some p => if p.fired && !p.flipped && (!p.gateEn || p.gateMet) then s.snapFlip p else s
      | none => s)

/-- The gate is still unsatisfied at FLIPTIME + GATETMO: no flip, reason 8 (R408). -/
def execGateTimeout (s : State) : Out :=
  done (match s.snap with
    | some p =>
      if p.fired && !p.flipped && p.gateEn && !p.gateMet && p.gateTmo != 0 && decide (p.flipAt + p.gateTmo ≤ s.time) then
        s.snapDrop p 8
      else s
    | none => s)

/-- Lines of a linear range copied, each with its poison mark (R408, R463): how many bytes are done, and whether the rest waits. What cannot be
read or written is left. -/
def State.copyLin (s : State) (x : DevCtx) (src dst : Nat) : Nat → List Piece → (Nat × Bool) × State
  | n, [] => ((n, false), s)
  | n, p :: ps =>
    let w : DevAcc Unit × State := match s.devReadLin x (src + p.pa) p.n with
      | (.ok bs, s) => s.devWriteLin x (dst + p.pa) bs false
      | (.poison, s) => s.devWriteLin x (dst + p.pa) (List.replicate p.n 0) true
      | (.err c, s) => (.err c, s)
      | (.aborted, s) => (.aborted, s)
      | (.wait, s) => (.wait, s)
    match w with
    | (.wait, s) => ((n, true), s)
    | (_, s) => s.copyLin x src dst (n + p.n) ps

/-- The copies of mode-2 regions, as far as they go (R408): the regions with how far each has come, and whether the rest waits. -/
def State.stageCopies (s : State) (x : DevCtx) : List Region → (List Region × Bool) × State
  | [] => (([], false), s)
  | r :: rs =>
    if r.mode ≠ 2 then
      let t := s.stageCopies x rs
      ((r :: t.1.1, t.1.2), t.2)
    else
      let c := s.copyLin x r.buf0 r.buf1 r.done (splitAt 64 ((r.bytes - r.done) / 64 + 2) r.done (r.bytes - r.done))
      let r := { r with done := c.1.1 }
      if c.1.2 then ((r :: rs, true), c.2)
      else
        let t := c.2.stageCopies x rs
        ((r :: t.1.1, t.1.2), t.2)

/-- The copies of a flipped snapshot: made, and once every one has been performed STAGESYNC (R408); how far they have come. -/
def State.stageStep (s : State) (p : Snap) : Snap × State :=
  let r := if p.copied then ((p.regions, false), s) else s.stageCopies (p.ctx (.tier 3)) p.regions
  let p := { p with regions := r.1.1 }
  if r.1.2 then (p, r.2)
  else if r.2.postedBy (.tier 3) then ({ p with copied := true }, r.2)
  else ({ p with copied := true, staged := true }, r.2.synUpdate (p.syncs.getD 3 0) false 1)

/-- Every mode-2 copy has been performed: STAGESYNC (R408). A snapshot that has retired finishes its copies before a later one's. -/
def execStageCopyComplete (s : State) : Out :=
  done (match s.staging with
    | p :: l =>
      let t := s.stageStep p
      { t.2 with staging := if t.1.staged then l else t.1 :: l }
    | [] =>
      match s.snap with
      | some p =>
        if p.flipped && !p.staged then
          let t := s.stageStep p
          (t.2.updSnap fun p => { p with regions := t.1.regions, copied := t.1.copied, staged := t.1.staged }).snapRetire
        else s
      | none => s)

/-! ### Tiers (R409–R411) -/

/-- The owner of a tier's accesses. -/
def tierOwn (t : Fin 3) : Own := .tier t.val

/-- Bytes of an image at a tier's offset (R411). -/
def State.tierWrite (s : State) (p : Snap) (t : Fin 3) (off : Nat) (bs : List Byte) : Acc Unit × State :=
  match t with
  | 0 => s.twinPost (tierOwn t) kReq 0 (p.skimOfs + off) bs
  | 1 => s.hawkWrite (tierOwn t) (((s.hawkSlot p.hslot).map (·.1)).getD 0 + off) bs
  | 2 => s.devWrite kReq (tierOwn t) 4096 (p.scrBase + off) bs false

/-- Has every write of a tier been performed? -/
def State.tierIdle (s : State) (t : Fin 3) : Bool := !s.postedBy (tierOwn t) && !s.hawk.writes.any fun m => m.own == tierOwn t

/-- The state of a tier of a SNAP: status and next block. -/
def Snap.tier (p : Snap) (t : Fin 3) : Nat × Nat := p.tiers.getD t.val (0, 0)

/-- The manifest past its header: the regions, then the leaves (R409). -/
def Snap.tables (p : Snap) (nblk : Nat) : List Byte :=
  p.image.flatMap regionEntry ++ (List.range nblk).flatMap fun i => look (fun _ => []) p.leaves i

/-- The first bytes of a manifest, written last: the header, and what else a cartridge's first half holds (R409, R415). -/
def Snap.firstPart (serial : Nat) (p : Snap) (nblk : Nat) (t : Fin 3) : List Byte :=
  if t = 1 then (manifestHeader serial p ++ p.tables nblk).take 2048 else manifestHeader serial p

/-- The rest of a manifest with its offset. -/
def Snap.restPart (p : Snap) (nblk : Nat) (t : Fin 3) : Nat × List Byte :=
  if t = 1 then (2048, (p.tables nblk).drop 1920) else (128, p.tables nblk)

/-- The status a tier ends with on a failed access (R411). -/
def tierStatus (code : Nat) : Nat := if code = 6 then 2 else 3

/-- A write of a tier, and what follows it or the tier's end. -/
def State.tierPut (s : State) (p : Snap) (t : Fin 3) (off : Nat) (bs : List Byte) (next : State → State) : State :=
  match s.tierWrite p t off bs with
  | (.ok _, s) => next s
  | (.wait, s) => s
  | (.err c, s) => s.endTier t.val (tierStatus c)
  | (.poison, s) => s.endTier t.val 3

/-- A tier moves to its next block. -/
def State.tierNext (s : State) (t : Fin 3) : State :=
  s.updSnap fun p => { p with tiers := setAt p.tiers t.val (15, (p.tier t).2 + 1) }

/-- A tier streams a block: it reads it, records or compares its leaf, and writes it; after the last block it writes the
region table and the leaves (R409–R411). -/
def State.tierBlock (s : State) (p : Snap) (t : Fin 3) : State :=
  let n := imageBytes p.image
  let nblk := blockCount n
  let i := (p.tier t).2
  if i < nblk then
    let len := blockLen n i
    match s.devReadParts (p.ctx (tierOwn t)) (imageParts (·.src) p.image (i * blockSize) len) with
    | (.wait, s) => s
    | (.ok bs, s) =>
      let leaf := leafDigest bs
      let old := look (fun _ => []) p.leaves i
      if old ≠ [] ∧ old ≠ leaf then s.endTier t.val 4
      else
        let s := s.updSnap fun p => { p with leaves := put (fun _ => []) p.leaves i leaf }
        s.tierPut p t (manifestBytes p.image.length nblk + i * blockSize) bs fun s => s.tierNext t
    | (.poison, s) =>
      let ps := imageParts (·.src) p.image (i * blockSize) len
      let x := p.ctx (tierOwn t)
      let bad := (ps.map fun e => s.badPa x e.pa e.n).find? s.poisonedAt
      (s.poisonUsed 24 11 kReq (bad.getD (s.badPa x (ps.headD {}).pa 1)) 6).endTier t.val 3
    | (_, s) => s.endTier t.val 3
  else if i = nblk then
    let r := p.restPart nblk t
    s.tierPut p t r.1 r.2 fun s => s.tierNext t
  else s

/-- Have bytes [off, off + n) of an image been copied where they lie in regions that are (R408, R411)? -/
def bytesCopied : List Region → Nat → Nat → Bool
  | [], _, _ => true
  | r :: rs, off, n =>
    if n = 0 then true
    else if off < r.bytes then
      let k := min n (r.bytes - off)
      (r.mode != 2 || decide (off + k ≤ r.done)) && bytesCopied rs 0 (n - k)
    else bytesCopied rs (off - r.bytes) n

/-- May a tier's next block be read: it has been staged, its copies made and performed (R411)? -/
def State.canStream (s : State) (p : Snap) (t : Fin 3) : Bool :=
  let rs := p.image
  let i := (p.tier t).2
  p.flipped && (p.staged || (bytesCopied rs (i * blockSize) (blockLen (imageBytes rs) i) &&
    (!s.postedBy (.tier 3) || (imageParts (·.src) rs (i * blockSize) (blockLen (imageBytes rs) i)).all fun e =>
      !s.linWindow (p.ctx (.tier 3)) (e.pa % 2 ^ 52))))

/-- A tier streams one block (R411). -/
def execTierBlock (t : Fin 3) (s : State) : Out :=
  done (match s.snap with
    | some p => if s.canStream p t && (p.tier t).1 == 15 then s.tierBlock p t else s
    | none => s)

/-- A tier writes its manifest header once every block and digest has been performed, logs 0xF004 and signals (R409, R411). -/
def execTierComplete (t : Fin 3) (s : State) : Out :=
  done (match s.snap with
    | none => s
    | some p =>
      let nblk := blockCount (imageBytes p.image)
      if (p.tier t).1 ≠ 15 ∨ !p.flipped then s.snapRetire
      else if (p.tier t).2 ≤ nblk ∨ !s.tierIdle t ∨ s.stagingRoom < 2 then s
      else if (p.tier t).2 = nblk + 1 then
        s.tierPut p t 0 (p.firstPart Config.serial.toNat nblk t) fun s => s.tierNext t
      else
        let s := s.stageRecord 0xF004 (toBytes 8 p.id ++ toBytes 8 t.val ++ rootOf p.leaves nblk) []
        (s.synUpdate (p.syncs.getD t.val 0) false 1).endTier t.val 1)

/-- A tier ends on a failure (R411). -/
def execTierFail (t : Fin 3) (cause : BitVec 4) (s : State) : Out :=
  done (match s.snap with
    | some p =>
      if (p.tier t).1 = 15 ∧ p.flipped ∧ 2 ≤ cause.toNat ∧ cause.toNat ≤ 5 then s.endTier t.val cause.toNat else s.snapRetire
    | none => s)

/-! ### Restore (R413) -/

/-- TWN_RCMD written (R413, R419): GO is ignored while BUSY. -/
def State.wrRcmd (s : State) (v m : Word) : State :=
  let s := s.setReg 24 .TWN_RCMD 0 (plainWrite (regInfo .TWN_RCMD) (s.reg 24 .TWN_RCMD 0) v m)
  if !bit (v &&& m) 0 || s.restore.isSome then s
  else
    let s := s.setReg 24 .TWN_RSTAT 0 (BitVec.ofNat 64 (2 ^ 5))
    let r : Restore :=
      { src := s.fld 24 .TWN_RCMD 0 3 1, ofs := s.fld 24 .TWN_RCMD 0 55 8, expect := s.flag 24 .TWN_RCMD 0 4
        ptb := (s.core ⟨96, by decide⟩).ptb }
    { s with restore := some r }

/-- TWN_RCMD.GO (R413). -/
def execTwnRcmdGo (q : Src) (v : Word) (s : State) : Out := regCmd q 24 .TWN_RCMD 0 s fun s => s.wrRcmd v (BitVec.allOnes 64)

/-- The context of a restore's linear accesses. -/
def Restore.ctx (r : Restore) : DevCtx := { q := kReq, eng := 2, own := .restore, ptb := r.ptb, ring := 0, lim := 4096 }

/-- Bytes of a restore's source image (R413). -/
def State.restoreRead (s : State) (r : Restore) (off n : Nat) : Acc (List Byte) × State :=
  match r.src with
  | 1 =>
    match s.hawkSlot (r.ofs % 256) with
    | some (b, len) => if off + n ≤ len then s.hawkRead .restore (b + off) n else (.err 1, s)
    | none => (.err 1, s)
  | 2 => s.devRead kReq .restore 4096 (r.ofs + off) n
  | 3 =>
    if !s.twinUp then (.err 6, s)
    else if (lookRun (fun _ => false) r.seen off n).all id then (.ok (lookRun (fun _ => (0 : Byte)) r.got off n), s) else (.wait, s)
  | _ => s.devRead kReq .restore 4096 (s.fld 24 .TWN_SKIM 0 47 0 + r.ofs + off) n

/-- RETURN packets that carry bytes of the image (R394, R413). -/
def State.sendReturn (s : State) (off : Nat) (bs : List Byte) : List Piece → State
  | [] => s
  | p :: ps =>
    (s.twinSend ({ type := 0x65, a := p.n - 1, b := p.pa, data := (bs.drop (p.pa - off)).take p.n } : Pkt)).sendReturn off bs ps

/-- RETURN packets of up to 2,048 bytes. -/
def State.returnBytes (s : State) (off : Nat) (bs : List Byte) : State :=
  s.sendReturn off bs (splitAt 2048 (bs.length / 2048 + 2) off bs.length)

/-- A manifest header by itself: magic, version, a number of regions that R406 allows, the blocks its image bytes make (R409, R413 step 1). -/
def headOk (head : List Word) : Bool :=
  head.getD 0 0 == BitVec.ofNat 64 (0x4E535A4A + 2 ^ 32)
    && decide (2 ≤ bits (head.getD 4 0) 44 32 ∧ bits (head.getD 4 0) 44 32 ≤ 4097)
    && bits (head.getD 4 0) 31 0 == blockCount (head.getD 5 0).toNat

/-- A manifest header against the plan's regions (R413 step 1). -/
def headFits (head : List Word) (plan : List Region) : Bool :=
  headOk head && bits (head.getD 4 0) 44 32 == plan.length && (head.getD 5 0).toNat == imageBytes plan

/-- The region table of a manifest against the plan's: BYTES and MODE of each (R413). -/
def tableFits (entries : List Word) (plan : List Region) : Bool :=
  (enumFrom 0 plan).all fun e => entries.getD (4 * e.1 + 2) 0 == BitVec.ofNat 64 (e.2.bytes + 2 ^ 40 * e.2.mode)

/-- A restore's source lost, or its step failed on n image bytes from an offset: the status it ends with (R413); poison it has read is consumed,
or for SRC 4 kept from leaving in a RETURN (R464, R468). -/
def State.restoreEnds (s : State) (r : Restore) (a : Acc α) (off n status : Nat) : State :=
  match a with
  | .wait => s
  | .err 6 => s.endRestore 5
  | .poison =>
    let pa := (if r.src = 2 then r.ofs else s.fld 24 .TWN_SKIM 0 47 0 + r.ofs) + off
    let bad := ((unitsOf pa n).find? s.poisonedAt).getD pa
    (if r.src = 4 then s.egress kReq 9 bad else s.poisonUsed 24 11 kReq bad 6).endRestore status
  | _ => s.endRestore status

/-- The restore's regions: the plan's, with the stream state last; for SRC 4 the manifest's own. -/
def planRegions (p : Plan) : List Region := p.r.map regionOf ++ [genRegion (p.f 9 51 0) (p.f 10 36 18)]

/-- Regions as a manifest lists them. -/
def tableRegions (entries : List Word) (n : Nat) : List Region :=
  (List.range n).map fun i => regionOf ((entries.drop (4 * i)).take 4)

/-- Step 1, the tables behind a header that has passed: with SRC 4 they are sent on, else they are held against the plan (R413). -/
def State.restoreTables (s : State) (r : Restore) (hb : List Byte) (plan : Option Plan) : State :=
  let head := words64 16 hb
  let nreg := bits (head.getD 4 0) 44 32
  let nblk := bits (head.getD 4 0) 31 0
  match s.restoreRead r 128 (32 * nreg + 32 * nblk) with
  | (.ok tb, s) =>
    let entries := words64 (4 * nreg) tb
    let leaves := (List.range nblk).map fun i => (tb.drop (32 * nreg + 32 * i)).take 32
    match plan with
    | some p =>
      let rs := planRegions p
      if !tableFits entries rs then s.endRestore 2
      else { s with restore := some { r with head, leaves, regions := rs, genCap := p.f 9 51 0, genFirst := p.f 10 17 0, genCount := p.f 10 36 18 } }
    | none =>
      let rs := tableRegions entries nreg
      if !headFits head rs then s.endRestore 2
      else if s.twinUp then { s.returnBytes 0 (hb ++ tb) with restore := some { r with head, leaves, regions := rs } }
      else s.endRestore 5
  | (e, s) => s.restoreEnds r e 128 (32 * nreg + 32 * nblk) 2

/-- Step 1: the manifest is read and checked against the plan (R413). -/
def State.restoreHead (s : State) (r : Restore) : State :=
  match s.restoreRead r 0 128 with
  | (.ok hb, s) =>
    let head := words64 16 hb
    if !headOk head then s.endRestore 2
    else if r.src = 4 then s.restoreTables r hb none
    else
      match s.readPlan r.ctx (s.fld 24 .TWN_RPLAN 0 51 0) with
      | (.wait, s) => s
      | (.ok p, s) => if p.bad || !headFits head (planRegions p) then s.endRestore 2 else s.restoreTables r hb (some p)
      | (_, s) => s.endRestore 2
  | (e, s) => s.restoreEnds r e 0 128 2

/-- Step 2 for one block: read, compared, and written when it matches (R413). -/
def State.restoreBlock (s : State) (r : Restore) : State :=
  let n := imageBytes r.regions
  let nblk := blockCount n
  let i := r.block
  let len := blockLen n i
  match s.restoreRead r (manifestBytes r.regions.length nblk + i * blockSize) len with
  | (.ok bs, s) =>
    if leafDigest bs ≠ r.leaves.getD i [] then s.endRestore 3
    else
      let next (s : State) : State := ({ s with restore := some { r with block := i + 1 } }).setFld 24 .TWN_RSTAT 0 37 6 (i + 1)
      if r.src = 4 then
        if s.twinUp then next (s.returnBytes (manifestBytes r.regions.length nblk + i * blockSize) bs) else s.endRestore 5
      else
        match s.devWriteParts r.ctx (imageParts (·.buf0) r.regions (i * blockSize) len) bs with
        | (.wait, s) => s
        | (.ok _, s) => next s
        | (_, s) => s.endRestore 3
  | (e, s) => s.restoreEnds r e (manifestBytes r.regions.length nblk + i * blockSize) len 3

/-- Step 4: SEED and GEN of each listed stream that is DISABLED; the others are counted (R413). -/
def State.restoreGens (s : State) (r : Restore) (gs : List Word) : State :=
  (List.range r.genCount).foldl (fun s i =>
    let st := r.genFirst + i
    if s.trowel.enabled.contains st then s.satFld 24 .TWN_RSTAT 0 56 38 1
    else (s.setStrW st 4 (gs.getD (2 * i) 0)).setStrW st 5 (gs.getD (2 * i + 1) 0)) s

/-- The root given in TWN_RROOT. -/
def State.rroot (s : State) : List Byte := bytesOf ((List.range 4).map fun i => s.reg 24 .TWN_RROOT i)

/-- Steps 3–5 (R413). -/
def State.restoreFinish (s : State) (r : Restore) : State :=
  let root := merkleRoot 64 r.leaves
  if root ≠ bytesOf ((List.range 4).map fun i => r.head.getD (7 + i) 0) ∨ (r.expect ∧ root ≠ s.rroot) then s.endRestore 4
  else
    let fin (s : State) : State :=
      let s := ((s.setFld 24 .TWN_RSTAT 0 3 0 1).setFld 24 .TWN_RSTAT 0 4 4 1).setFld 24 .TWN_RSTAT 0 5 5 0
      ({ s with restore := none }).sendIrq (s.fld 24 .TWN_ROUTE 0 15 0) 24
    if r.src = 4 then fin s
    else
      match s.devWordsLin r.ctx r.genCap (2 * r.genCount) with
      | (.wait, s) => s
      | (.ok gs, s) => fin (s.restoreGens r gs)
      | (_, s) => s.endRestore 3

/-- The restore goes on: its manifest, the next block, or its end (R413). -/
def execRestoreComplete (s : State) : Out :=
  done (match s.restore with
    | none => s
    | some r =>
      if 4 < r.src then s.endRestore 2
      else if r.head = [] then s.restoreHead r
      else if r.block < blockCount (imageBytes r.regions) then s.restoreBlock r
      else s.restoreFinish r)

end Sys2Proof.Machine
end

