-- ==== Sys2Proof/Machine/MemCmd.lean ====
section
/-! DEFINITION. The HBM controllers and the tile stores: sector reads and writes, patrol, counts, temperature, the Patch map,
margin tests, fills (R343–R357). -/

namespace Sys2Proof.Machine

open Sys2Proof

/-- Counts of a local channel's errors (R358). -/
def State.chErr (s : State) (ch : Nat) (ue : Bool) (n : Nat) : State :=
  let d := stackDie (ch / 16)
  if ue then s.satFld d .HBM_CHERR (ch % 16) 47 32 n else s.satFld d .HBM_CHERR (ch % 16) 31 0 n

/-- What the controller finds in a sector it reads for a requester: 1 a corrected error, 2 an uncorrectable one (R344, R468). -/
def State.sectorFound (s : State) (q : Req) (ch pc sector bad : Nat) : State :=
  let d := stackDie (ch / 16)
  if s.poisonedAt sector then s
  else if bad = 1 then (s.chErr ch false 1).corrected d 5 1
  else if bad = 2 then
    ((s.setPoison sector true).chErr ch true 1).logErr d 0x02 1 5 q (some sector) true (ch + 2 ^ 8 * pc)
  else s

/-- A sector's home, when its channel serves requests (R350, R353, R354). -/
def State.hbmServes (s : State) (pa : Nat) : Option (Nat × Nat) :=
  match s.decodePA pa with
  | .hbm ch pc => if s.stopped || s.chRefused ch pc || s.fills (.hbm ch pc) then none else some (ch, pc)
  | _ => none

/-- A read of a sector by its controller for the requester of that die and unit (R344, R468). -/
def execHbmRead (rd : Die) (ru : BitVec 4) (pa : BitVec 48) (bad : BitVec 2) (s : State) : Out :=
  done (match s.hbmServes pa.toNat with
    | some (ch, pc) => s.sectorFound ⟨rd.val, ru.toNat⟩ ch pc (unitBase pa.toNat) bad.toNat
    | none => s)

/-- A write by a controller: whole sectors store clean data or the data's poison, a partial sector is merged with what the
read of it finds (R345). -/
def execHbmWrite (rd : Die) (ru : BitVec 4) (pa : BitVec 48) (data : List Byte) (poisoned : Bool) (bad : BitVec 2) (s : State) : Out :=
  let a := pa.toNat
  done (match s.hbmServes a with
    | some (ch, pc) =>
      if a % 32 + data.length ≤ 32 then
        let s := if data.length < 32 ∧ 0 < data.length then s.sectorFound ⟨rd.val, ru.toNat⟩ ch pc (unitBase a) bad.toNat else s
        s.homeWrite a data poisoned
      else s
    | none => s)

/-- A sector that a patrol read reaches: every sector of a stack that is neither tripped nor in a fill or a retraining. The fences of PMAP_PEND and
of a margin test refuse requests, and a patrol read is none (R346, R353, R355). -/
def State.patrolServes (s : State) (pa : Nat) : Option (Nat × Nat) :=
  match s.decodePA pa with
  | .hbm ch pc => if s.stopped || s.flag (stackDie (ch / 16)) .HBM_STAT 0 1 || s.fills (.hbm ch pc) then none else some (ch, pc)
  | _ => none

/-- A patrol read, while patrol is enabled and no supply warning stands (R346, R351): the requester is the controller itself (log entry
32). -/
def execPatrolScrub (pa : BitVec 48) (bad : BitVec 2) (s : State) : Out :=
  done (match s.patrolServes pa.toNat with
    | some (ch, pc) =>
      let d := stackDie (ch / 16)
      if s.flag d .HBM_SCRUB 0 32 && !s.supply.warn then s.sectorFound ⟨d, 5⟩ ch pc (unitBase pa.toNat) bad.toNat else s
    | none => s)

/-- The stack's own ECS counts, added to HBM_CHERR (R339, R358). -/
def execEcsReadout (st : Stack) (counts : List Nat) (s : State) : Out :=
  done (if s.stopped || !s.flag (stackDie st.val) .HBM_STAT 0 0 then s
    else (enumFrom 0 (counts.take 16)).foldl (fun s e => s.chErr (16 * st.val + e.1) false e.2) s)

/-- The throttle step a readout gives (R350). -/
def tempStep (old t : Nat) : Nat :=
  if 90 ≤ t then 2
  else if old = 2 ∧ 87 < t then 2
  else if 85 ≤ t then 1
  else if 1 ≤ old ∧ 82 < t then 1
  else 0

/-- A demand's step. -/
def demandOf (m : Sparse Demand) (d : Nat) : Demand := look (fun _ => {}) m d

/-- HBM_STAT.STEP of a stack: the higher of its temperature step and its power demand (R448). -/
def State.stackStep (s : State) (st : Nat) : State :=
  s.setFld (stackDie st) .HBM_STAT 0 3 2 (max (look (fun _ => 0) s.supply.hTemp st) (demandOf s.supply.stack (stackDie st)).step)

/-- A stack trips: self-refresh, every later request refused, the K-die's event (R350, R455). -/
def State.stackTrip (s : State) (st : Nat) : State :=
  let d := stackDie st
  let s := (s.setFld d .HBM_STAT 0 1 1 1).logErr d 0x0D 2 5 ⟨d, 5⟩ none false st
  let s := (s.setFld 24 .THM_EVT 0 2 2 1).setFld 24 .THM_EVT 0 12 8 d
  s.sendIrq (s.fld 24 .THM_ROUTE 0 15 0) 24

/-- A temperature readout of a stack (R339, R350); what the stack itself reads stays known through resets (R455). -/
def execStackTempReadout (st : Stack) (temp : BitVec 8) (s : State) : Out :=
  let d := stackDie st.val
  let t := temp.toNat
  let s : State := { s with supply := { s.supply with heat := put (fun _ => 0) s.supply.heat st.val t } }
  done (if s.stopped || !s.flag d .HBM_STAT 0 0 then s
    else
      let s := (s.setFld d .HBM_TEMP 0 7 0 t).setFld d .HBM_TEMP 0 15 8 (max t (s.fld d .HBM_TEMP 0 15 8))
      if s.flag d .HBM_STAT 0 1 then s
      else
        let s := { s with supply := { s.supply with
          hTemp := put (fun _ => 0) s.supply.hTemp st.val (tempStep (look (fun _ => 0) s.supply.hTemp st.val) t) } }
        let s := s.stackStep st.val
        if 100 ≤ t then s.stackTrip st.val else s)

/-- PMAP_PEND written: each channel newly fenced is logged by its controller (R353, R468). -/
def State.wrPmapPend (s : State) (j : Nat) (v : Word) : State :=
  let old := s.reg 24 .PMAP_PEND j
  let s := s.setReg 24 .PMAP_PEND j (old ||| v)
  (setBitsOf 64 (v &&& ~~~old).toNat).foldl (fun s i =>
    let ch := 64 * j + i
    let d := stackDie (ch / 16)
    s.logErr d 0x0C 2 5 ⟨d, 5⟩ none false ch) s

/-- A write of PMAP_PEND(j) (R353). -/
def execPmapPend (q : Src) (j : BitVec 2) (v : Word) (s : State) : Out := regCmd q 24 .PMAP_PEND j.toNat s fun s => s.wrPmapPend j.toNat v

/-- HBM_MRG written (R355): only while the device is debug-unlocked for margining. The pseudo-channel of a test is the one its start found. -/
def State.wrHbmMrg (s : State) (d : Nat) (v m : Word) : State :=
  if !s.flag 24 .SEC_DBG 0 1 then s
  else
    let run := bit (v &&& m) 17
    if run && s.flag d .HBM_MRG_RES 0 33 then s
    else
      let s := s.setReg d .HBM_MRG 0 (plainWrite (regInfo .HBM_MRG) (s.reg d .HBM_MRG 0) v m)
      if !run then s
      else
        let vq := (BitVec.ofNat 5 (s.fld d .HBM_MRG 0 16 12)).toInt
        if vq < -10 ∨ 10 < vq then (s.setFld d .HBM_MRG_RES 0 32 32 0).setFld d .HBM_MRG_RES 0 34 34 1
        else if s.supply.warn then s
        else
          { (s.setFld d .HBM_MRG_RES 0 34 32 2) with supply := { s.supply with
            margin := put (fun _ => 0) s.supply.margin d (s.fld d .HBM_MRG 0 4 0) } }

/-- A write of HBM_MRG of a stack's die (R355). -/
def execHbmMrgRun (q : Src) (st : Stack) (v : Word) (s : State) : Out :=
  regCmd q (stackDie st.val) .HBM_MRG 0 s fun s => s.wrHbmMrg (stackDie st.val) v (BitVec.allOnes 64)

/-- The physical address of a channel offset: the inverse of R340. -/
def State.hbmEncode (s : State) (ch o : Nat) : Option Nat :=
  let act := s.activeCh
  let a := act.length
  let u := s.granule
  let r := o / u
  let x := Nat.xor (Nat.xor (r % 256) (r / 256 % 256)) (r / 65536 % 256)
  let h := if s.flag 24 .HBM_MAP 0 2 then 37 * x else 0
  (firstIdx (· == ch) act).map fun slot => (r * a + (slot + a * h - h) % a) * u + o % u

/-- The rows a margin test has overwritten: one in each bank of its pseudo-channel. Which rows and what they hold is not
given: both are free values (R355; log entry 27). -/
def State.marginRows (s : State) (ch pc : Nat) : State :=
  (List.range 64).foldl (fun s _ =>
    let row := Config.freeNat s.free % 2359296
    let fresh := s.free + 1
    let s := { s with free := s.free + 1025 }
    (List.range 16).foldl (fun s i =>
      match s.hbmEncode ch (2048 * row + 128 * i + 64 * pc) with
      | some pa => s.homeWrite pa ((List.range 64).map fun j => Config.freeByte (fresh + 64 * i + j)) false
      | none => s) s) s

/-- A margin test ends (R355). -/
def execMarginTestDone (st : Stack) (errs : BitVec 32) (s : State) : Out :=
  let d := stackDie st.val
  done (if s.stopped || !s.flag d .HBM_MRG_RES 0 33 then s
    else
      let s := s.marginRows (16 * st.val + look (fun _ => 0) s.supply.margin d % 16) (look (fun _ => 0) s.supply.margin d / 16)
      (s.setFld d .HBM_MRG_RES 0 31 0 errs.toNat).setFld d .HBM_MRG_RES 0 33 32 1)

/-- A patrol read of a tile-store line (R357). -/
def execTileStorePatrol (d : CDie) (line : BitVec 25) (bad : BitVec 2) (s : State) : Out :=
  let off := 64 * line.toNat
  let pa := tileBase + 0x80000000 * d.val + off
  done (if s.stopped || s.tileFill.contains d.val || decide (0x7C000000 ≤ off) || s.poisonedAt pa then s
    else if bad = 1 then s.corrected d.val 6 1
    else if bad = 2 then (s.setPoison pa true).logErr d.val 0x02 1 6 ⟨d.val, 6⟩ (some pa) true 0
    else s)

/-- The fill of a tile store ends, and requests to it go on (R357). -/
def execTileStoreFillDone (d : CDie) (s : State) : Out := done { s with tileFill := s.tileFill.filter (· != d.val) }

/-- An HBM controller has retrained, and requests to its stack go on (R354). -/
def execHbmRetrainDone (st : Stack) (s : State) : Out :=
  done (if s.hbmWait.contains st.val then
    (({ s with hbmWait := s.hbmWait.filter (· != st.val) }).setFld (stackDie st.val) .HBM_STAT 0 0 0 1).setFld
      (stackDie st.val) .HBM_STAT 0 5 5 (b2n s.supply.warn)
  else s)

/-! ### Power and heat of a running die (R444–R454) -/

/-- PWR_STAT of a die from its demands (R445, R458). -/
def State.dieStep (s : State) (d : Nat) : State :=
  let p := (demandOf s.supply.power d).step
  let t := (demandOf s.supply.thermal d).step
  let w := look (fun _ => 0) s.supply.demand d
  s.setReg d .PWR_STAT 0 (BitVec.ofNat 64 (max p (max t w) + 2 ^ 3 * p + 2 ^ 6 * t + 2 ^ 9 * b2n s.supply.warn))

/-- A demand after an evaluation: it rises by a step while `hot`, at most once every `gap` ns, and falls by one when `cold`
has held for `hold` ns (R447, R453). -/
def Demand.eval (x : Demand) (top now gap hold : Nat) (hot cold : Bool) : Demand :=
  if hot then
    let may := match x.rose with | some t => decide (t + gap ≤ now) | none => true
    { x with low := none, step := if may then min top (x.step + 1) else x.step, rose := if may then some now else x.rose }
  else if cold then
    match x.low with
    | none => { x with low := some now }
    | some t => if t + hold ≤ now then { x with step := x.step - 1, low := some now } else x
  else { x with low := none }

/-- Every 1 µs a die compares its raised estimate with its ceiling, and an edge die's stack likewise (R447, R448). The energy
used is not given by the row: a free value is added (log entry 27). -/
def execPowerDemandEval (d : Die) (est stack : BitVec 16) (s : State) : Out :=
  done (if s.stopped then s
    else
      let d := d.val
      let e := est.toNat
      let c := s.fld d .PWR_CEIL 0 15 0
      let h := if isEdgeDie d then stack.toNat else 0
      let hc := s.fld d .PWR_HCEIL 0 15 0
      let s := s.setReg d .PWR_EST 0 (BitVec.ofNat 64 (e + 2 ^ 16 * h))
      let f := s.freeNat
      let s := f.2.countReg d .PWR_ENERGY 0 f.1
      let p := (demandOf s.supply.power d).eval 5 s.time 10000 100000 (decide (c * 100 < e * 103)) (decide (e * 103 < c * 90))
      let k := (demandOf s.supply.stack d).eval 2 s.time 10000 100000 (decide (hc * 100 < h * 103)) (decide (h * 103 < hc * 90))
      let s := { s with supply := { s.supply with power := put (fun _ => {}) s.supply.power d p } }
      let s := match dieStack d with
        | some st => ({ s with supply := { s.supply with stack := put (fun _ => {}) s.supply.stack d k } }).stackStep st
        | none => s
      s.dieStep d)

/-- Sensors of a die (R453). -/
def sensorsOf (d : Nat) : Nat := if d = 24 then 6 else 8

/-- A die event in THM_EVT (R458). -/
def State.thmEvt (s : State) (d b : Nat) : State := (s.setFld 24 .THM_EVT 0 b b 1).setFld 24 .THM_EVT 0 12 8 d

/-- The effects of a junction temperature on a die's demand and limit (R453). -/
def State.thermalRead (s : State) (d : Nat) (temps : List Nat) : State :=
  let s := (enumFrom 0 temps).foldl (fun s e => s.setReg d .THM_SENS e.1 (BitVec.ofNat 64 e.2)) s
  let j := temps.foldl max 0
  let s := s.setReg d .THM_TEMP 0 (BitVec.ofNat 64 (j + 2 ^ 8 * max j (s.fld d .THM_TEMP 0 15 8)))
  let old := demandOf s.supply.thermal d
  let t := old.eval 5 s.time 100000 1000000 (decide (97 ≤ j)) (decide (j ≤ 93))
  let s := ({ s with supply := { s.supply with thermal := put (fun _ => {}) s.supply.thermal d t } }).setFld d .THM_STAT 0 0 0 (b2n (t.step != 0))
  let s := if old.step = 0 ∧ t.step ≠ 0 then s.thmEvt d 0 else s
  let s :=
    if 105 ≤ j then (if s.flag d .THM_STAT 0 1 then s else (s.setFld d .THM_STAT 0 1 1 1).thmEvt d 1)
    else if j ≤ 103 then s.setFld d .THM_STAT 0 1 1 0
    else s
  s.dieStep d

/-- A die trips: every die stops, the rails but the standby rail go off, the trip latch is set (R455). -/
def State.dieTrip (s : State) (d : Nat) : State :=
  let j := s.fld d .THM_TEMP 0 7 0
  let s := s.logErr d 0x14 3 12 ⟨d, 12⟩ none false j
  let s := ((s.setLink .agd {}).setLink .twn {}).setLink .hwk {}
  { s with timeRuns := false, rst := { s.rst with trip := true, rails := false, hot := s.rst.hot.filter (· != d) ++ [d] } }

/-- Every 10 µs a die reads its sensors; one that has tripped trips again while it has not cooled below 97 °C (R453, R455). -/
def execThermalRead (d : Die) (temps : List Byte) (s : State) : Out :=
  done (if s.stopped || temps.length != sensorsOf d.val then s
    else
      let s := s.thermalRead d.val (temps.map (·.toNat))
      let j := s.fld d.val .THM_TEMP 0 7 0
      if 110 ≤ j || (s.rst.hot.contains d.val && 97 ≤ j) then s.dieTrip d.val
      else { s with rst := { s.rst with hot := s.rst.hot.filter (· != d.val) } })

/-- A sample of the input: the lowest since cold reset and during the warning (R449, R450, R458). The input's power comes with no command: a free
value (log entry 27). -/
def State.vinSample (s : State) (mv10 : Nat) : State :=
  let w := s.freeNat
  let s := (w.2.setFld 24 .PWR_VIN 0 15 0 mv10).setFld 24 .PWR_VIN 0 31 16 (w.1 % 65536)
  let all := s.fld 24 .PWR_VMIN 0 31 16
  let s := if all = 0 ∨ mv10 < all then s.setFld 24 .PWR_VMIN 0 31 16 mv10 else s
  if s.supply.warn then { s with supply := { s.supply with low := min s.supply.low mv10 } } else s

/-- SUPPLY_WARN is received by every block (R351, R449). -/
def State.warnOn (s : State) : State :=
  let s := { s with supply := { s.supply with demand := (List.range 25).map fun d => (d, 5) } }
  let s := (List.range 25).foldl (fun s d => s.dieStep d) s
  let s := (List.range 16).foldl (fun s k =>
    let d := stackDie k
    (s.setFld d .HBM_STAT 0 5 5 1).setFld d .HBM_MRG_RES 0 33 33 0) s
  s.setFld 24 .TT_CTL 244 0 0 0

/-- Trigger 244 armed where the input stands at or above 45.0 V during a warning: 1 ms of fabric time from now (R450). -/
def State.armWarn (s : State) : State := if s.supply.warn && s.supply.up then s.armTimer 244 [s.time + 1000000] else s

/-- The input falls below 44.0 V (R449, R452): a block in reset ignores the warning. -/
def execSupplyWarn (mv10 : BitVec 16) (s : State) : Out :=
  let v := mv10.toNat
  done (if 4400 ≤ v then s
    else if s.supply.warn then
      let s := { s with supply := { s.supply with up := false, low := min s.supply.low v } }
      if s.stopped then s else (s.vinSample v).setFld 24 .TT_CTL 244 0 0 0
    else
      let s := { s with supply := { s.supply with warn := true, up := false, low := v, began := s.mctime } }
      if s.stopped then s
      else
        let s := s.vinSample v
        let s := (s.satFld 24 .PWR_WARN_CNT 0 31 0 1).setFld 24 .PWR_EVT 0 0 0 1
        (s.warnOn).sendIrq (s.fld 24 .PWR_ROUTE 0 15 0) 24)

/-- The input reaches 45.0 V, or falls below it again: trigger 244 armed or disarmed (R450). During a reset only the level is noted, and the 1 ms
are counted from the release. -/
def execSupplyRise45v (mv10 : BitVec 16) (s : State) : Out :=
  let v := mv10.toNat
  done (if !s.supply.warn then s
    else
      let s := { s with supply := { s.supply with up := decide (4500 ≤ v), low := min s.supply.low v } }
      if s.stopped then s
      else
        let s := s.vinSample v
        if 4500 ≤ v then (if s.flag 24 .TT_CTL 244 0 then s else s.armWarn)
        else s.setFld 24 .TT_CTL 244 0 0 0)

/-- The input sampled every 1 µs (R458). Its value comes with no command: a free value, within what the comparators have said of it (log entry
27). -/
def State.vinTick (s : State) : State :=
  if s.mctime % 1000 ≠ 0 then s
  else
    let lo := if s.supply.warn then (if s.supply.up then 4500 else 4000) else 4400
    let hi := if s.supply.warn && !s.supply.up then 4500 else 65536
    let v := s.freeNat
    v.2.vinSample (lo + v.1 % (hi - lo))

/-- The release of the warning (R351, R450). -/
def State.warnOff (s : State) : State :=
  let now := s.time
  let low := s.supply.low
  let s := { s with supply := { s.supply with
    warn := false, due := (List.range 24).map (fun d => (d, now + 2000 * d)) ++ [(24, now)] } }
  let s := (s.setFld 24 .PWR_EVT 0 1 1 1).setFld 24 .PWR_VMIN 0 15 0 low
  let s := s.mcLog 0x0003 0 24 low (s.mctime - s.supply.began) (s.reg 24 .PWR_WARN_CNT 0).toNat
  let s := (List.range 25).foldl (fun s d => s.dieStep d) s
  (List.range 16).foldl (fun s k => s.setFld (stackDie k) .HBM_STAT 0 5 5 0) s

/-- Trigger 244 fires if it is due: the warning is released (R450). -/
def execSupplyWarnRelease (s : State) : Out :=
  done (if !s.stopped && s.supply.warn && s.triggerDue 244 then (s.fireTrigger 244).warnOff else s)

/-- A die lowers its warning demand by a step (R450). -/
def execWarningReturnStep (d : Die) (s : State) : Out :=
  let w := look (fun _ => 0) s.supply.demand d.val
  done (if s.stopped || s.supply.warn || w == 0 || decide (s.time < look (fun _ => 0) s.supply.due d.val) then s
    else
      let s := { s with supply := { s.supply with
        demand := put (fun _ => 0) s.supply.demand d.val (w - 1), due := put (fun _ => 0) s.supply.due d.val (s.time + 10000) } }
      s.dieStep d.val)

end Sys2Proof.Machine
end

