-- ==== Sys2Proof/Machine/Matrix.lean ====
section
/-! DEFINITION. The arithmetic of a pass: packed elements, leaves, the pairwise tree, block scales, accumulators, pair mode
(R178–R184, R199–R206). -/

namespace Sys2Proof.Machine

open Sys2Proof

/-- An encoding and the flags raised in making it. -/
abbrev FRes := Nat × FFlags

/-- The floating-point format of an ETYPE (R208). -/
def etypeFmt : Nat → Fmt
  | 1 => .fp64 | 2 => .fp32 | 3 => .bf16 | 4 => .fp16 | 5 => .e4m3 | 6 => .e5m2 | 7 => .e3m2 | 8 => .e2m3 | _ => .e2m1

/-- Element c of packed elements of w bits (R164, R178). -/
def elemAt (w : Nat) (row : List Byte) (c : Nat) : Nat :=
  (fromBytes ((row.drop (w * c / 8)).take (w / 8 + 2)) >>> (w * c % 8)) % 2 ^ w

/-- The first n packed elements of a row (R178). -/
def elemsOf (w n : Nat) (row : List Byte) : List Nat := (List.range n).map fun c => elemAt w row c

/-- n numbers of k bytes each (R30). -/
def natsOf (k : Nat) : Nat → List Byte → List Nat
  | 0, _ => []
  | n + 1, bs => fromBytes (bs.take k) :: natsOf k n (bs.drop k)

/-- A list cut into runs of n. -/
def chunksOf {α : Type} (n : Nat) : Nat → List α → List (List α)
  | 0, _ => []
  | f + 1, l => if l.isEmpty then [] else l.take n :: chunksOf n f (l.drop n)

/-- The two's-complement value of an n-bit encoding. -/
def sintOf (n v : Nat) : Int := if v.testBit (n - 1) then (v % 2 ^ n : Int) - 2 ^ n else (v % 2 ^ n : Nat)

/-- A node of the tree (R203): the sum rounded to nearest-even. -/
def treeNode (f : Fmt) (a b : FRes) : FRes :=
  let r := fAdd f .rne false (unpack f a.1) (unpack f b.1)
  (r.1, a.2 ||| b.2 ||| r.2)

/-- The balanced pairwise tree of leaves (R203). -/
def tree (f : Fmt) (l : List FRes) : FRes := treeFold (treeNode f) (f.signed true 0, 0) 10 l

/-- A leaf: the product rounded to the accumulation format (R202). -/
def leafOf (f fa fb : Fmt) (x y : Nat) : FRes := fMul f .rne false (unpack fa x) (unpack fb y)

/-- A block sum multiplied by its two scales, rounded once (R180): a scale byte of 0xFF makes it NaN. -/
def scaleSum (v : FVal) (fl : FFlags) (extra : Int) (xa xb : Byte) : FRes :=
  match scaleExp xa, scaleExp xb with
  | some a, some b =>
    let r := packVal .fp32 .rne false (match v with | .fin n m e => .fin n m (e + a + b + extra) | v => v)
    (r.1, fl ||| r.2)
  | _, _ => (Fmt.fp32.canonNaN, fl)

/-- Scale byte k of an operand: X = 127 without block scales (R180). -/
def scaleAt (sc : Option (List Byte)) (k : Nat) : Byte := match sc with | some l => l.getD k 0 | none => 127

/-- The root of one row and column of a pass of depth kp (R202, R203, R180, R181): in the accumulation format; INT32 as a
32-bit two's-complement number. -/
def dotRoot (ta tb kp : Nat) (sa sb : Option (List Byte)) (xs ys : List Nat) : FRes :=
  if ta = 10 then
    let sum := (xs.zip ys).foldl (fun (a : Int) (p : Nat × Nat) => a + sintOf 8 p.1 * sintOf 8 p.2) 0
    ((sum % 2 ^ 32).toNat, 0)
  else if ta = 11 then
    let groups := enumFrom 0 (chunksOf 32 xs.length (xs.zip ys))
    let roots := groups.map fun (g : Nat × List (Nat × Nat)) =>
      let sum := g.2.foldl (fun (a : Int) (p : Nat × Nat) => a + sintOf 8 p.1 * sintOf 8 p.2) 0
      scaleSum (fvalOfInt sum 0 false) 0 (-12) (scaleAt sa g.1) (scaleAt sb g.1)
    tree .fp32 (roots ++ List.replicate (kp / 32 - roots.length) (0, 0))
  else
    let f := if ta = 1 then Fmt.fp64 else Fmt.fp32
    let leaves := (xs.zip ys).map fun (p : Nat × Nat) => leafOf f (etypeFmt ta) (etypeFmt tb) p.1 p.2
    let pad := List.replicate (kp - leaves.length) ((f.signed true 0, 0) : FRes)
    if sa.isNone && sb.isNone then tree f (leaves ++ pad)
    else
      let groups := enumFrom 0 (chunksOf 32 kp (leaves ++ pad))
      tree f (groups.map fun (g : Nat × List FRes) =>
        let r := tree f g.2
        if 32 * g.1 < leaves.length then scaleSum (unpack f r.1) r.2 0 (scaleAt sa g.1) (scaleAt sb g.1) else r)

/-- The accumulator under the add flag (R204): accumulation formats FP32, INT32 and FP64. -/
def accAdd (acc old r : Nat) : FRes :=
  if acc = 1 then ((old + r) % 2 ^ 32, 0)
  else
    let f := if acc = 2 then Fmt.fp64 else Fmt.fp32
    fAdd f .rne false (unpack f old) (unpack f r)

/-- An FP32 sum with its flags. -/
def sum32 (a b : Nat) : FRes := fAdd .fp32 .rne false (unpack .fp32 a) (unpack .fp32 b)

/-- The exact error (s + r) − t of a rounded FP32 sum t (R184): +0 when t is not finite. -/
def twoSumErr (s r t : Nat) : Nat :=
  match unpack .fp32 s, unpack .fp32 r, unpack .fp32 t with
  | .fin n1 m1 e1, .fin n2 m2 e2, .fin n3 m3 e3 =>
    match exactAdd false n1 m1 e1 n2 m2 e2 with
    | .fin n m e => (packVal .fp32 .rne false (exactAdd false n m e (!n3) m3 e3)).1
    | _ => 0
  | _, _, _ => 0

/-- The pair update of sum and error (R184). -/
def pairUpdate (s e hh hl lh : Nat) : (Nat × Nat) × FFlags :=
  let t := sum32 s hh
  let low := sum32 hl lh
  let a := sum32 (twoSumErr s hh t.1) low.1
  let b := sum32 e a.1
  ((t.1, b.1), t.2 ||| low.2 ||| a.2 ||| b.2)

/-- A row of A as it enters the array: element encodings, scales, lo parts in pair mode, poison. -/
structure ARow where
  xs : List Nat := []
  sc : Option (List Byte) := none
  lo : List Nat := []
  poison : Bool := false
  deriving DecidableEq, Repr

/-- A latched B block by columns: element encodings, scales, lo parts, poison. -/
structure BBlock where
  cols : List (List Nat) := []
  sc : Option (List (List Byte)) := none
  lo : List (List Nat) := []
  poison : Bool := false
  deriving DecidableEq, Repr

/-- The 256 roots of a row (R202, R203). -/
def rowRoots (ta tb kp : Nat) (a : ARow) (b : BBlock) : List FRes :=
  (enumFrom 0 b.cols).map fun (c : Nat × List Nat) =>
    dotRoot ta tb kp a.sc (b.sc.map fun l => l.getD c.1 []) a.xs c.2

/-- What an array row makes of the w AM rows of its output (R204, R214, R184): their bytes and the flags. -/
def rowOut (ta tb kp acc : Nat) (pair add : Bool) (a : ARow) (b : BBlock) (old : List Byte) : List Byte × FFlags :=
  if pair then
    let olds := if add then natsOf 4 512 old else List.replicate 512 0
    let hh := rowRoots ta tb kp a b
    let hl := rowRoots ta tb kp a { b with cols := b.lo }
    let lh := rowRoots ta tb kp { a with xs := a.lo } b
    let rs := (List.range 256).map fun j =>
      let h := hh.getD j (0, 0)
      let x := hl.getD j (0, 0)
      let y := lh.getD j (0, 0)
      let u := pairUpdate (olds.getD j 0) (olds.getD (256 + j) 0) h.1 x.1 y.1
      (u.1, h.2 ||| x.2 ||| y.2 ||| u.2)
    (rs.flatMap (fun r => toBytes 4 r.1.1) ++ rs.flatMap (fun r => toBytes 4 r.1.2), rs.foldl (fun fl r => fl ||| r.2) 0)
  else
    let k := if acc = 2 then 8 else 4
    let olds := natsOf k 256 old
    let rs := (enumFrom 0 (rowRoots ta tb kp a b)).map fun (r : Nat × FRes) =>
      if add then
        let u := accAdd acc (olds.getD r.1 0) r.2.1
        (u.1, r.2.2 ||| u.2)
      else r.2
    (rs.flatMap fun r => toBytes k r.1, rs.foldl (fun fl r => fl ||| r.2) 0)

/-- A running sum added to the w AM rows of a task's row (R254). -/
def sumRows (acc : Nat) (own inc : List Byte) : List Byte × FFlags :=
  let k := if acc = 2 then 8 else 4
  let rs := ((natsOf k 256 own).zip (natsOf k 256 inc)).map fun (p : Nat × Nat) => accAdd acc p.1 p.2
  (rs.flatMap fun r => toBytes k r.1, rs.foldl (fun fl r => fl ||| r.2) 0)

/-- The columns of packed rows: column j of K rows of n elements. -/
def columnsOf (w n : Nat) (rows : List (List Byte)) : List (List Nat) :=
  (List.range n).map fun j => rows.map fun r => elemAt w r j

/-- The scale bytes of each column: byte j of every scale row (R218). -/
def scaleCols (n : Nat) (rows : List (List Byte)) : List (List Byte) :=
  (List.range n).map fun j => rows.map fun r => r.getD j 0

end Sys2Proof.Machine
end

