-- ==== Sys2Proof/Machine/Engine.lean ====
section
/-! DEFINITION. A C-die's matrix engine: tile file, accumulator memory, latch banks, the finished-tile queue, gang operations'
registers, and the engine's resets (R201, R207–R215, R226–R235, R258–R260, R269–R272, R281, R282). -/

namespace Sys2Proof.Machine

open Sys2Proof

/-! ### Tiles and accumulator memory (R207–R211) -/

/-- ROWS of a TCFG. -/
def tcfgRows (w : Word) : Nat := bits w 10 0
/-- RB of a TCFG. -/
def tcfgRb (w : Word) : Nat := bits w 27 16
/-- ETYPE of a TCFG. -/
def tcfgEtype (w : Word) : Nat := bits w 35 32
/-- SC of a TCFG. -/
def tcfgSc (w : Word) : Bool := bit w 36
/-- SCT of a TCFG. -/
def tcfgSct (w : Word) : Nat := bits w 39 37

/-- TCFGn of a core. -/
def Core.tcfgOf (x : Core) (n : Nat) : Word := look (fun _ => 0) x.tcfg n

/-- Tile-file slot of a core's tile (R207). -/
def tileSlot (k n : Nat) : Nat := 8 * k + n

/-- First tile-file byte of row r of a slot with RB bytes a row (R207). -/
def tileAt (slot rb r : Nat) : Nat := 131072 * slot + rb * r

/-- n bytes of the tile file. -/
def Engine.tileBytes (x : Engine) (a n : Nat) : List Byte := lookRun (fun _ => 0) x.tile a n

/-- Is one of the 64-bit words of n tile-file bytes poisoned (R233)? -/
def Engine.tilePoison (x : Engine) (a n : Nat) : Bool :=
  (List.range (n / 8 + 2)).any fun i => decide (8 * (a / 8 + i) < a + n) && look (fun _ => false) x.tpoison (a / 8 + i)

/-- ECC errors in a run of n bytes from a: those of the words it touches; or those of the words it covers whole (R211). -/
def damageIn (m : Sparse Nat) (a n : Nat) : Sparse Nat := m.filter fun e => decide (a < 8 * e.1 + 8 ∧ 8 * e.1 < a + n)
/-- What is left of a list of ECC errors once n bytes from a have been written: those outside the words covered whole (R211). -/
def damageOut (m : Sparse Nat) (a n : Nat) : Sparse Nat := m.filter fun e => !decide (a ≤ 8 * e.1 ∧ 8 * e.1 + 8 ≤ a + n)

/-- Tile-file bytes written under rows of rb bytes: a row written whole takes the mark of the data, a row written in part stays poisoned if it was
or if the data is (R463); the slot's write-generation count advances (R210). -/
def Engine.setTile (x : Engine) (slot rb a : Nat) (bs : List Byte) (poison : Bool) : Engine :=
  let words := (List.range (bs.length / 8 + 2)).filter fun i => decide (8 * (a / 8 + i) < a + bs.length)
  { x with
    tdmg := damageOut x.tdmg a bs.length
    tile := putRun (fun _ => 0) x.tile a bs
    tpoison := words.foldl (fun m i =>
      let row := tileAt slot rb ((8 * (a / 8 + i) - 131072 * slot) / rb)
      let whole := decide (a ≤ row) && decide (row + rb ≤ a + bs.length)
      put (fun _ => false) m (a / 8 + i) (poison || (!whole && x.tilePoison row rb))) x.tpoison
    gen := put (fun _ => 0) x.gen slot (look (fun _ => 0) x.gen slot + 1) }

/-- Write-generation count of a slot (R210). -/
def Engine.genOf (x : Engine) (slot : Nat) : Nat := look (fun _ => 0) x.gen slot

/-- The bytes of w AM rows from r (R211). -/
def Engine.amRows (x : Engine) (r w : Nat) : List Byte := lookRun (fun _ => 0) x.am (1024 * r) (1024 * w)

/-- Is one of w AM rows from r poisoned? -/
def Engine.amPoisoned (x : Engine) (r w : Nat) : Bool := (List.range w).any fun i => look (fun _ => false) x.ampoison (r + i)

/-- w AM rows from r written, all poisoned or all clean. -/
def Engine.setAm (x : Engine) (r w : Nat) (bs : List Byte) (poison : Bool) : Engine :=
  { x with
    admg := damageOut x.admg (1024 * r) bs.length
    am := putRun (fun _ => 0) x.am (1024 * r) bs
    ampoison := (List.range w).foldl (fun m i => put (fun _ => false) m (r + i) poison) x.ampoison }

/-- One array row entered: the w AM rows of its output updated (R204, R233), with the flags of its roundings. -/
def Engine.arrayRow (x : Engine) (ta tb kp acc : Nat) (pair add : Bool) (a : ARow) (b : BBlock) (am : Nat) : Engine × FFlags :=
  let w := accW acc
  let o := rowOut ta tb kp acc pair add a b (x.amRows am w)
  (x.setAm am w o.1 (a.poison || b.poison || (add && x.amPoisoned am w)), o.2)

/-! ### ECC of the engine's memories (R211, R233, R240) -/

/-- The engine of a die finds ECC errors: a single bit is corrected and counted, an uncorrectable word is logged (R211, R233, R468). -/
def State.eccLog (s : State) (d : Nat) (kinds : List Nat) : State :=
  kinds.foldl (fun s k =>
    if k = 1 then (s.countReg d .MXE_ECC 0 1).corrected d 4 1 else s.logSomewhere d 0x02 1 4 ⟨d, 4⟩ true 0) s

/-- n tile-file bytes from a are read: an uncorrectable word in them is poisoned (R233). -/
def State.eccTile (s : State) (d a n : Nat) : State :=
  let hit := damageIn (s.engine d).tdmg a n
  if hit.isEmpty then s
  else
    (s.updEngine d fun x => { x with
      tdmg := x.tdmg.filter fun e => !hit.contains e
      tpoison := hit.foldl (fun m e => if e.2 = 1 then m else put (fun _ => false) m e.1 true) x.tpoison }).eccLog d (hit.map (·.2))

/-- w AM rows from r are read: an uncorrectable word in them poisons its row (R211). -/
def State.eccAm (s : State) (d r w : Nat) : State :=
  let hit := damageIn (s.engine d).admg (1024 * r) (1024 * w)
  if hit.isEmpty then s
  else
    (s.updEngine d fun x => { x with
      admg := x.admg.filter fun e => !hit.contains e
      ampoison := hit.foldl (fun m e => if e.2 = 1 then m else put (fun _ => false) m (e.1 / 128) true) x.ampoison }).eccLog d
        (hit.map (·.2))

/-- A latch bank is read: an uncorrectable word poisons its copy of B (R233). -/
def State.eccBank (s : State) (d : Nat) (i : Bool) : State :=
  let x := s.engine d
  let k := if i then x.bdmg1 else x.bdmg0
  if k = 0 then s
  else
    (s.updEngine d fun x => if i then { x with bdmg1 := 0, bpois1 := x.bpois1 || k != 1 } else
      { x with bdmg0 := 0, bpois0 := x.bpois0 || k != 1 }).eccLog d [k]

/-! ### MXE_STAT and the latch banks (R228, R229, R240) -/

/-- The core numbers of a die. -/
def coresOf (d : Nat) : List CoreId := (List.range 4).filterMap fun k => if h : 4 * d + k < 100 then some ⟨4 * d + k, h⟩ else none

/-- Passes of a segment and its first pass (R250). -/
def Gmm.segment (d : Gmm) (p : Nat) : Nat × Nat := (p * d.passes / d.l, (p + 1) * d.passes / d.l - p * d.passes / d.l)

/-- Is a task finished: its passes run, and its running sum added (R254)? -/
def GangTask.finished (t : GangTask) (d : Gmm) : Bool := decide ((d.segment t.p).2 ≤ t.done) && (t.p == 0 || t.summed)

/-- The member a row block belongs to in a window's operation, none in others. -/
def State.blockMember (s : State) (d : Gmm) (b : Nat) : Option (Nat × Nat × Member) :=
  match d.src with
  | .window w => (memberOfBlock (s.window w).members 0 (b / max 1 d.bn)).map fun (m : Nat × Nat) =>
      (m.1, m.2, (s.window w).members.getD m.1 {})
  | _ => none

/-- Has the member of a block failed, so that its tasks run no more (R328)? -/
def State.blockDead (s : State) (d : Gmm) (b : Nat) : Bool :=
  match s.blockMember d b with
  | some (_, _, m) => m.failed.isSome
  | none => false

/-- Gang passes a die has still to run (R229, R244): the gang and its tasks by number. -/
def State.gangWork (s : State) (d : Nat) : List (Nat × Nat) :=
  match s.gangOf d with
  | none => []
  | some g =>
    match (s.gang g).run with
    | none => []
    | some r =>
      if r.failed then []
      else (enumFrom 0 r.tasks).filterMap fun (t : Nat × GangTask) =>
        if t.2.die == d && decide (t.2.done < (r.d.segment t.2.p).2) && !s.blockDead r.d t.2.b then some (g, t.1) else none

/-- The core of a die whose pass is streaming. -/
def State.streamingCore (s : State) (d : Nat) : Option CoreId :=
  (coresOf d).find? fun c => match (s.core c).pass with | some p => p.streaming && decide (p.next < p.m) | none => false

/-- MXE_STAT kept in step with the engine (R240). GANG is read as: gang work is left and the array's last pass was of it (DESIGN CHOICE,
log entry 64). -/
def State.mxeSync (s : State) (d : Nat) : State :=
  let x := s.engine d
  let qne := ((coresOf d).map fun c => if (s.core c).tq.isEmpty then 0 else 2 ^ (coreK c).val).foldl (· + ·) 0
  let run := s.streamingCore d
  s.setReg d .MXE_STAT 0 (BitVec.ofNat 64 (qne + 2 ^ 4 * b2n run.isSome + 2 ^ 5 * (match run with | some c => (coreK c).val | none => 0)
    + 2 ^ 7 * b2n (x.gangOn && !(s.gangWork d).isEmpty) + 2 ^ 8 * b2n x.bank0.isSome + 2 ^ 9 * b2n x.bank1.isSome))

/-- MXE_STAT of an engine whose array has served gang work kept in step when gang work ends without a pass (R240). -/
def State.gangSync (s : State) (d : Nat) : State := if (s.engine d).gangOn then s.mxeSync d else s

/-- Does a bank of the engine hold this tag? -/
def Engine.hasBank (x : Engine) (t : Bank) : Bool := x.bank0 == some t || x.bank1 == some t

/-- What a bank holds. -/
def Engine.bank (x : Engine) (i : Bool) : Option Bank := if i then x.bank1 else x.bank0

/-- Do the banks that hold some tags carry poison (R233)? -/
def Engine.bankPoison (x : Engine) (ts : List Bank) : Bool :=
  (x.bpois0 && match x.bank0 with | some t => ts.contains t | none => false)
    || (x.bpois1 && match x.bank1 with | some t => ts.contains t | none => false)

/-- Has a pass still to stream from a bank (R228)? -/
def State.bankBusy (s : State) (d : Nat) (i : Bool) : Bool :=
  match (s.engine d).bank i with
  | none => false
  | some t => (coresOf d).any fun c =>
      (match (s.core c).ahead with | some a => a.tags.contains t | none => false)
        || match (s.core c).pass with
           | some p => decide (p.next < p.m) && !p.reset && p.latched.contains t
           | none => false

/-- The bank a B load may take (R228): one that no pass has still to stream from, of two the one not used last. -/
def State.freeBank (s : State) (d : Nat) : Option Bool :=
  let i := !(s.engine d).lastBank
  if !s.bankBusy d i then some i else if !s.bankBusy d (!i) then some (!i) else none

/-- A B block loaded into a bank, with its poison (R228, R233). -/
def State.loadBank (s : State) (d : Nat) (i : Bool) (t : Bank) (poison : Bool) : State :=
  (s.updEngine d fun x =>
    if i then { x with bank1 := some t, bpois1 := poison, bdmg1 := 0, lastBank := true }
    else { x with bank0 := some t, bpois0 := poison, bdmg0 := 0, lastBank := false }).countReg d .MXE_BLOAD 0 1

/-- A pass starts from banks that hold its B already (R228). A pass whose block was loaded ahead of its start is counted in MXE_BLOAD at the
load and in MXE_REUSE, 'Passes started without a load', here (R240; DESIGN CHOICE, log entry 64). -/
def State.reuseBanks (s : State) (d : Nat) (ts : List Bank) : State :=
  (s.updEngine d fun x => { x with lastBank := x.bank1 == ts.getLast? }).countReg d .MXE_REUSE 0 1

/-- The banks a pass streams from are read (R233). -/
def State.readBanks (s : State) (d : Nat) (ts : List Bank) : State :=
  [false, true].foldl (fun s i => match (s.engine d).bank i with | some t => if ts.contains t then s.eccBank d i else s | none => s) s

/-- The B blocks of a gang pass, found in the banks or loaded. Gang work goes first (R229): where both banks are latched for local passes it
takes one all the same, and that pass loads its block again (DESIGN CHOICE, log entry 64). -/
def State.gangBanks (s : State) (d : Nat) (ts : List Bank) (poison : Bool) : State :=
  let s := if ts.all (s.engine d).hasBank then s.reuseBanks d ts
    else ts.foldl (fun s t =>
      let x := s.engine d
      if x.hasBank t then s
      else
        let i := (s.freeBank d).getD (!x.lastBank)
        let mine := match x.bank i with | some u => ts.contains u | none => false
        s.loadBank d (if mine then !i else i) t poison) s
  s.readBanks d ts

/-! ### The finished-tile queue (R269–R272) -/

/-- An entry the engine has to post: AMROW, ROWS, GRP, AFMT, SRC, CORE, ROW0, COL0, MBR (R270), and the window it is of. -/
def ftqEntry (amrow rows grp afmt src core row0 col0 mbr win : Nat) : List Word :=
  [BitVec.ofNat 64 (amrow + 2 ^ 16 * rows + 2 ^ 25 * grp + 2 ^ 31 * afmt + 2 ^ 34 * src + 2 ^ 36 * core),
   BitVec.ofNat 64 (row0 % 2 ^ 24 + 2 ^ 24 * (col0 % 2 ^ 24)), BitVec.ofNat 64 mbr, BitVec.ofNat 64 win]

/-- What tells a dispatched window from every other: its index and its place in the close order (R322). -/
def windowKey (w : Nat) (x : Window) : Nat := w + 1024 * (x.closedAt + 1)

/-- Entries handed to the queue of a die, which posts them in order (R269). -/
def State.holdEntries (s : State) (d : Nat) (es : List (List Word)) : State :=
  (s.updEngine d fun x => { x with held := x.held ++ es }).ftqSync d

/-- AM rows per output row of an entry (R214, R270). -/
def entryW (dw0 : Word) : Nat := accW (bits dw0 33 31)

/-- The window an entry is of, while its operation runs or drains (R326): entries of a window that has failed and been freed are none's. -/
def State.keyWindow (s : State) (k : Nat) : Option Nat :=
  let x := s.window (k % 1024)
  if k ≠ 0 ∧ windowKey (k % 1024) x = k ∧ (x.state = .running ∨ x.state = .draining) then some (k % 1024) else none

/-- The window of a posted entry. -/
def State.entryWindow (s : State) (d e : Nat) : Option Nat := s.keyWindow (look (fun _ => 0) (s.engine d).wkey e)

/-- The oldest entry that waits is posted while the queue has room (R271). -/
def State.ftqPost (s : State) (d : Nat) : State :=
  let x := s.engine d
  match x.held with
  | [] => s
  | ws :: rest =>
    if 64 ≤ x.ftq.length then s.ftqSync d
    else
      match s.choose ((List.range 64).filter fun e => !x.ftq.contains e) with
      | (none, s) => s
      | (some e, s) =>
        let w0 := ws.getD 0 0
        let poison := x.amPoisoned (bits w0 15 0) (bits w0 24 16 * entryW w0)
        let s := s.setRegW d .FTQ_ENT e 0 (setBit (setBit w0 38 poison) 63 true)
        let s := s.setRegW d .FTQ_ENT e 1 (ws.getD 1 0)
        let s := s.setRegW d .FTQ_ENT e 2 (ws.getD 2 0)
        let s := s.setRegW d .FTQ_ENT e 3 (BitVec.ofNat 64 s.time)
        let s := s.updEngine d fun x => { x with
          ftq := x.ftq ++ [e], held := rest, wkey := put (fun _ => 0) x.wkey e (ws.getD 3 0).toNat }
        let s := (s.countReg d .FTQ_POSTED 0 1).ftqSync d
        match s.entryWindow d e with
        | some w => s.setWindow w { s.window w with posted := (s.window w).posted + 1 }
        | none => s

/-- A member's slice of a window fails (R328): its FCODE and the record's code, and entries of it not yet posted are dropped. -/
def State.sliceFails (s : State) (w m fcode code : Nat) : State :=
  let x := s.window w
  let y := x.members.getD m {}
  if y.failed.isSome then s
  else
    let s := s.setWindow w { x with members := setAt x.members m { y with failed := some (fcode, code) } }
    (List.range 24).foldl (fun s d =>
      let s := if (s.engine d).held.isEmpty then s
        else (s.updEngine d fun e => { e with held := e.held.filter fun ws =>
          !((ws.getD 3 0).toNat == windowKey w x && bits (ws.getD 2 0) 15 0 == m) }).ftqSync d
      s.gangSync d) s

/-- The K-die hears that an entry of a window's operation was freed or discarded (R326, R327). -/
def State.entryReported (s : State) (win : Option Nat) (m : Nat) (discarded : Bool) : State :=
  match win with
  | some w =>
    let s := s.setWindow w { s.window w with posted := (s.window w).posted - 1 }
    if discarded then s.sliceFails w m 0x07 0 else s
  | none => s

/-- An entry freed, counted, and reported (R272, R326). -/
def State.ftqFree (s : State) (d e : Nat) (discarded : Bool) : State :=
  let win := s.entryWindow d e
  let m := bits (s.ftqW d e 2) 15 0
  let s := [0, 1, 2, 3].foldl (fun s j => s.setRegW d .FTQ_ENT e j 0) s
  let s := s.updEngine d fun x => { x with
    ftq := x.ftq.filter (· != e), disc := x.disc.filter (· != e), wkey := put (fun _ => 0) x.wkey e 0
    counter := put (fun _ => {}) x.counter e {} }
  ((s.countReg d (if discarded then .FTQ_DISCARDED else .FTQ_FREED) 0 1).ftqSync d).entryReported win m discarded

/-- FTQ_CMD written: DISCARD (R281). -/
def State.wrFtqCmd (s : State) (d : Nat) (v : Word) : State :=
  let e := bits v 5 0
  let w0 := s.ftqW d e 0
  let claimed := bits w0 42 39
  let doneQ := bits w0 46 43
  if bits v 9 8 ≠ 1 ∨ !(s.engine d).ftq.contains e ∨ doneQ = 15 then s
  else
    let now := Nat.lor doneQ (15 - claimed)
    let s := s.setRegW d .FTQ_ENT e 0 (setBits w0 46 43 now)
    let s := (s.updEngine d fun x => { x with disc := if x.disc.contains e then x.disc else e :: x.disc }).ftqSync d
    if now = 15 then s.ftqFree d e true else s

/-! ### Gang operations fail and end (R258–R260) -/

/-- The rows of a task on its member (R251). -/
def State.taskRow (s : State) (g : Nat) (r : GangRun) (b p : Nat) : Nat :=
  let n := max 1 (popN 24 r.active)
  bits (s.grpReg g r.d.grp) 15 0 + r.d.off + (b / n * r.d.l + p) * 256 * accW r.d.acc

/-- The member that carries a task (R251). -/
def taskDie (active l b p : Nat) : Nat :=
  let ms := snakeOrder active
  let n := max 1 ms.length
  ms.getD ((b + p + 1 + n * l - l) % n) 0

/-- Rows of a block: up to 256, or those of its member's slice (R250, R323). -/
def State.blockRows (s : State) (d : Gmm) (b : Nat) : Nat :=
  match s.blockMember d b with
  | some (_, j, m) => min 256 (m.rows - 256 * j)
  | none => min 256 (d.m - 256 * (b / max 1 d.bn))

/-- Blocks whose final rows have been written (R259). -/
def GangRun.blocksDone (r : GangRun) : Nat := (r.tasks.filter fun t => t.p + 1 == r.d.l && t.finished r.d).length

/-- The completion record of an operation (R259), written at CREC when there is one; a write that fails is logged. Answers
whether it could be written now. The table of R136 names K-die engine 0 for pre-translation and prefetch only; a translation fault of a
record, of a seed table or of a GLAUNCH descriptor is reported under it too (DESIGN CHOICE, log entry 60). -/
def State.gangRecord (s : State) (g : Nat) (d : Gmm) (status : Nat) (r : GangRun) : Bool × State :=
  if d.crec = 0 then (true, s)
  else
    let w0 := status + 2 ^ 4 * b2n r.poison + 2 ^ 8 * r.flags.toNat + 2 ^ 16 * r.form + 2 ^ 24 * d.l + 2 ^ 32 * r.blocksDone
    let bs := toBytes 8 w0 ++ toBytes 8 r.tstart.toNat ++ toBytes 8 s.time ++ toBytes 8 r.active
    match s.devWriteLin { q := kReq, eng := 0, own := .gang g, ptb := d.ptb, ring := d.ring } d.crec bs false with
    | (.wait, s) => (false, s)
    | (.ok _, s) => (true, s)
    | (_, s) => (true, s.recordLost (d.crec % 2 ^ 48))

/-- A gang operation's end at the K-die (R258 step 5): SIGNAL, GNG_OPS, its stream's retirement. A SYNC at or above SYN_CFG.COUNT names an
object the spec does not describe: its bytes are updated as those of any other (DESIGN CHOICE, log entry 64). -/
def State.gangSignal (s : State) (g : Nat) (d : Gmm) : State :=
  let s := s.countReg 24 .GNG_OPS g 1
  let s := (List.range 24).foldl State.gangSync s
  let s := if d.sig then s.synUpdate d.sync false (BitVec.ofNat 64 d.value) else s
  match d.src with
  | .stream st =>
    match s.runOf st with
    | some run => (match run.run with | .glaunch _ true => s.finish run | _ => s)
    | none => s
  | _ => s

/-- The running operation of a gang is over. What its released fault-queue requests were told is forgotten (R139). -/
def State.gangEnd (s : State) (g : Nat) (d : Gmm) : State :=
  ((s.fqForget fun w => w.own == .gang g).updGang g fun x => { x with run := none }).gangSignal g d

/-- Operations that a gang reset has ended, in turn: the record of STATUS 2 and DONE 0 once its home takes it, then the SIGNAL once it has been
performed (R428). -/
def State.endedOn (s : State) (g : Nat) : List GangRun → State
  | [] => s.updGang g fun x => { x with ended := [] }
  | r :: l =>
    let left (s : State) (r : GangRun) : State := s.updGang g fun x => { x with ended := r :: l }
    if r.recorded then (if s.postedBy (.gang g) then left s r else (s.gangSignal g r.d).endedOn g l)
    else
      match s.gangRecord g r.d 2 r with
      | (false, s) => left s r
      | (true, s) => if s.postedBy (.gang g) then left s { r with recorded := true } else (s.gangSignal g r.d).endedOn g l

/-- Those of every gang. -/
def State.endedRetry (s : State) : State := (List.range 4).foldl (fun s g => if (s.gang g).ended.isEmpty then s else s.endedOn g (s.gang g).ended) s

/-- The running operation of a gang has met a failure: its members stop, entries not yet posted are dropped (R260). -/
def State.gangFails (s : State) (g : Nat) : State :=
  match (s.gang g).run with
  | none => s
  | some r =>
    let s := s.updGang g fun x => { x with run := some { r with failed := true, status := 2 } }
    let s := s.setFld 24 .GNG_GRP (16 * g + r.d.grp) 45 45 0
    (setBitsOf 24 r.active).foldl (fun s d =>
      ((s.updEngine d fun x => { x with held := x.held.filter fun ws => bits (ws.getD 0 0) 35 34 != 2 }).ftqSync d).mxeSync d) s

/-- The completion record has been written: what follows it happens once the write has been performed (R258 step 5, R382). -/
def State.gangSettle (s : State) (g : Nat) (d : Gmm) : State := if s.postedBy (.gang g) then s else s.gangEnd g d

/-- An operation ends with a record (R258–R260): written now, or left to be written. -/
def State.gangClose (s : State) (g : Nat) (r : GangRun) (after : State → State) : State :=
  if r.recorded then s.gangSettle g r.d
  else
    match s.gangRecord g r.d r.status r with
    | (false, s) => s
    | (true, s) => ((after s).updGang g fun x => { x with run := some { r with recorded := true } }).gangSettle g r.d

/-! ### Resets of the engine (R215, R234, R260, R282) -/

/-- The registers of the engine: MXE_, FTQ_ and GLZ_ blocks. -/
def engineRegs : List RegName :=
  [.MXE_STAT, .MXE_ROWS, .MXE_BLOAD, .MXE_REUSE, .MXE_FPF, .MXE_ECC, .MXE_AG, .FTQ_STAT, .FTQ_PEEK, .FTQ_CMD, .FTQ_POSTED, .FTQ_FREED,
   .FTQ_DISCARDED, .FTQ_ENT, .GLZ_FPF, .GLZ_BIND, .GLZ_AMR]

/-- What every reset of the engine clears: AM, tile file, histories, descriptors, banks, queue, program slots (R215, R282). The
write-generation counts advance (R210). -/
def State.engineClear (s : State) (d : Nat) : State :=
  let old := s.engine d
  let gens := (List.range 32).foldl (fun m i => put (fun _ => 0) m i (old.genOf i + 1)) old.gen
  let s := { s with engines := put (fun _ => {}) s.engines d { gen := gens } }
  let s := s.resetRegs d engineRegs
  (coresOf d).foldl (fun s c => s.updCore c fun x => { x with glz := [] }) s

/-- A block reset of the engine, with its finished-tile writer (R234, R260, R427): queued tile instructions and quarters are discarded with a
machine-check notification to their cores; where the reset cut the work off without idle, a waiting pass is marked, and raises 0x0F when its
core goes on, and otherwise a checked pass waits on; the gang operation fails; the engine and the writer leave the fault-queue records they wait
on (R141). -/
def State.engineReset (s : State) (d : Nat) (cut : Bool) : State :=
  let s := (coresOf d).foldl (fun s c => s.unclaimQuarters c) s
  let s := s.fqWithdraw fun w => w.die == d && w.eng ≤ 1
  let s := (coresOf d).foldl (fun s c =>
    let x := s.core c
    let lost := !x.tq.isEmpty
    let s := s.updCore c fun x => { x with
      tq := [], vq := x.vq.filter fun t => t.op != .tvmov && t.op != .vtmov && t.op != .glzDrain
      pass := x.pass.map fun p => { p with reset := cut, streaming := p.streaming && !cut, latched := [] }
      ahead := none }
    if lost then s.machineCheck c (5 * 2 ^ 13) 0 else s) s
  let s := match s.gangOf d with
    | some g => (match (s.gang g).run with | some r => if r.active.testBit d then s.gangFails g else s | none => s)
    | none => s
  s.engineClear d

end Sys2Proof.Machine
end

