-- ==== Sys2Proof/Machine/GangCmd.lean ====
section
/-! DEFINITION. The gang control: operations started, their passes, running sums, completion, failure, stragglers, narrowing and
readmission (R241–R265, R323, R328). -/

namespace Sys2Proof.Machine

open Sys2Proof

/-! ### The head of a gang queue (R255–R258) -/

/-- MXE_AG(48 + i) written on the active members of a gang (R255, R257). -/
def State.gangAg (s : State) (g i : Nat) (f : Word → Word) : State :=
  (s.members g).foldl (fun s d => s.setReg d .MXE_AG (48 + i) (f (s.reg d .MXE_AG (48 + i)))) s

/-- The descriptor of an open gang group: BASE, SIZE, OWN 0xF, V (R255). -/
def groupAg (base size : Nat) : Word := BitVec.ofNat 64 (base + 2 ^ 16 * size + 2 ^ 32 * 15 + 2 ^ 63)

/-- Ranges held by the open groups of a gang other than i (R255). -/
def State.heldRanges (s : State) (g i : Nat) : List (Nat × Nat) :=
  (List.range 16).filterMap fun j =>
    let r := s.grpReg g j
    if j ≠ i ∧ bit r 63 then some (bits r 15 0, bits r 31 16) else none

/-- GACC.OPEN at the head of the queue (R255). -/
def State.openGroup (s : State) (g i rows : Nat) : State :=
  match freeRange (s.fld 24 .GNG_GLOBAL 0 23 8) (s.fld 24 .GNG_GLOBAL 0 39 24) rows (s.heldRanges g i) with
  | none => s
  | some base =>
    (s.setReg 24 .GNG_GRP (16 * g + i) (BitVec.ofNat 64 (base + 2 ^ 16 * rows + 2 ^ 63))).gangAg g i fun _ => groupAg base rows

/-- GACC.CLOSE at the head of the queue (R257). -/
def State.closeGroup (s : State) (g i : Nat) : State :=
  (s.setFld 24 .GNG_GRP (16 * g + i) 63 63 0).gangAg g i fun v => setBit v 63 false

/-- The tasks of an operation (R251). -/
def tasksOf (d : Gmm) (active : Nat) : List GangTask :=
  (List.range (d.bm * d.bn)).flatMap fun b => (List.range d.l).map fun p => { b, p, die := taskDie active d.l b p }

/-- A GMM or a window's operation that cannot run completes at once (R258): its record with a status, or its window's failure
(R331). -/
def State.endAtHead (s : State) (g : Nat) (r : GangRun) (status : Nat) : State :=
  match r.d.src with
  | .window w => ((s.updGang g fun x => { x with queue := x.queue.drop 1 }).failWindow w).gangEnd g r.d
  | _ =>
    let r := { r with failed := true, status }
    (s.updGang g fun x => { x with queue := x.queue.drop 1, run := some r }).gangClose g r id

/-- A GMM reaches the head of its queue (R256, R258). -/
def State.startGmm (s : State) (g : Nat) (d : Gmm) : State :=
  let form := s.fld 24 .GNG_STAT g 31 24
  let active := s.fld 24 .GNG_STAT g 23 0
  let r : GangRun := { d, form, active, tstart := BitVec.ofNat 64 s.time, pick := s.free }
  let grp := s.grpReg g d.grp
  let n := max 1 (popN 24 active)
  if !bit grp 63 || bits grp 31 16 < d.off + d.need (d.bm * d.bn) n then s.endAtHead g r 3
  else if d.add && !(bit grp 45 && bits grp 39 32 == form && bits grp 44 40 == d.l) then s.endAtHead g r 4
  else
    let s := s.setReg 24 .GNG_GRP (16 * g + d.grp) (setBits (setBits (setBits grp 39 32 form) 44 40 d.l) 45 45 1)
    let s := (setBitsOf 24 active).foldl (fun s c => s.setReg c .GNG_PROG 0 0) s
    let s := { s with free := s.free + 1 }
    let s := s.updGang g fun x => { x with queue := x.queue.drop 1, run := some { r with tasks := tasksOf d active } }
    let s := match d.src with | .window w => s.setWindow w { s.window w with state := .running } | _ => s
    (setBitsOf 24 active).foldl (fun s c => s.mxeSync c) s

/-- GANG_OP_START (R243, R258): the entry at the head of a gang queue, once nothing runs and the gang has re-formed. -/
def execGangOpStart (g : Gang) (s : State) : Out :=
  let x := s.gang g.val
  if s.stopped || x.run.isSome || !x.narrow.isEmpty || !x.readmit.isEmpty then done s
  else
    match x.queue with
    | [] => done s
    | .openG i rows :: _ =>
      done (((s.updGang g.val fun x => { x with queue := x.queue.drop 1 }).openGroup g.val i rows).countReg 24 .GNG_OPS g.val 1)
    | .closeG i :: _ =>
      done (((s.updGang g.val fun x => { x with queue := x.queue.drop 1 }).closeGroup g.val i).countReg 24 .GNG_OPS g.val 1)
    | .gmm d :: _ => done (s.startGmm g.val d)

/-! ### Operands and passes (R253, R258, R323, R324) -/

/-- The A rows of fetched ranges. -/
def aRowsOf (d : Gmm) (rows kb : Nat) (l : List (List Byte × Bool)) : List ARow :=
  (List.range rows).map fun i =>
    let e := l.getD i ([], false)
    let x := l.getD (rows + i) ([], false)
    { xs := elemsOf (etypeBits d.afmt) kb e.1, sc := if d.asc then some x.1 else none
      lo := if d.pair then elemsOf 16 kb x.1 else [], poison := e.2 || ((d.asc || d.pair) && x.2) }

/-- The B block of fetched ranges. -/
def bBlockOf (d : Gmm) (kb : Nat) (l : List (List Byte × Bool)) : BBlock :=
  let rest := (l.drop kb).map (·.1)
  { cols := columnsOf (etypeBits d.bfmt) 256 ((l.take kb).map (·.1)), sc := if d.bsc then some (scaleCols 256 rest) else none
    lo := if d.pair then columnsOf 16 256 rest else [], poison := l.any (·.2) }

/-- An operand of a gang operation could not be fetched: the member's slice fails, or the operation (R260, R328). -/
def State.operandFails (s : State) (g : Nat) (slice : Option (Nat × Nat)) (fcode : Nat) : State :=
  match slice with
  | some (w, m) => s.sliceFails w m fcode fcode
  | none => s.gangFails g

/-- A task whose passes and sum are done: TASKS, and its block's finished-tile entry (R258 step 4, R268, R270). -/
def State.taskDone (s : State) (g : Nat) (r : GangRun) (ti : Nat) (t : GangTask) : State :=
  let s := s.setFld t.die .GNG_PROG 0 47 32 (s.fld t.die .GNG_PROG 0 47 32 + 1)
  if r.d.fin && t.p + 1 == r.d.l then
    let mbr := match s.blockMember r.d t.b with | some (m, _, _) => m | none => 0xFFFF
    let e := ftqEntry (s.taskRow g r t.b t.p) (s.blockRows r.d t.b) (48 + r.d.grp) r.d.acc 2 0 (256 * (t.b / max 1 r.d.bn))
      (256 * (t.b % max 1 r.d.bn)) mbr (match r.d.src with | .window w => windowKey w (s.window w) | _ => 0)
    (s.holdEntries t.die [e]).updGang g fun x =>
      { x with run := some { r with tasks := setAt r.tasks ti { t with posted := true } } }
  else s

/-- Poison has entered a row of block b: the member's of a window (R330). -/
def State.blockPoisoned (s : State) (d : Gmm) (b : Nat) : State :=
  match d.src, s.blockMember d b with
  | .window w, some (m, _, _) => s.poisonMember w m
  | _, _ => s

/-- The rows of a pass of task ti written: accumulators, flags, poison, counts (R204, R253, R268). POISON is set by a result row that is
poisoned, from an operand or from the row added to (R233, R259). -/
def State.gangRows (s : State) (g : Nat) (r : GangRun) (ti : Nat) (t : GangTask) (as : List ARow) (b : BBlock) : State :=
  let d := r.d
  let add := decide (t.done ≠ 0) || (decide (t.p + 1 = d.l) && d.add)
  let row := s.taskRow g r t.b t.p
  let kp := (passDepth d.afmt d.bfmt).getD 1
  let s := if add then s.eccAm t.die row (accW d.acc * as.length) else s
  let e := (enumFrom 0 as).foldl (fun (x : Engine × FFlags) (a : Nat × ARow) =>
    let y := x.1.arrayRow d.afmt d.bfmt kp d.acc d.pair add a.2 b (row + accW d.acc * a.1)
    (y.1, x.2 ||| y.2)) (s.engine t.die, 0)
  let s := s.updEngine t.die fun _ => { e.1 with gangOn := true }
  let poison := e.1.amPoisoned row (accW d.acc * as.length)
  let t' := { t with done := t.done + 1 }
  let r' := { r with flags := r.flags ||| e.2, poison := r.poison || poison, tasks := setAt r.tasks ti t' }
  let s := s.updGang g fun x => { x with run := some r' }
  let s := s.orReg t.die .GNG_FPF 0 (zx e.2)
  let s := s.setFld t.die .GNG_PROG 0 31 0 (s.fld t.die .GNG_PROG 0 31 0 + 1)
  let s := if poison then s.blockPoisoned d t.b else s
  (if t'.finished d then s.taskDone g r' ti t' else s).mxeSync t.die

/-- An operand block of a running operation (R258): as it was fetched for the first task that uses it, else as prefetched, else fetched now
and kept for the others. -/
def State.gangOperand (s : State) (g key : Nat) (pre : Option (List (List Byte × Bool))) (x : DevCtx) (q : Req) (rs : List (Nat × Nat)) :
    DevAcc (List (List Byte × Bool)) × State :=
  match (s.gang g).run with
  | none => (.wait, s)
  | some r =>
    match look (fun _ => []) r.got key with
    | l :: ls => (.ok (l :: ls), s)
    | [] =>
      let a : DevAcc (List (List Byte × Bool)) × State := match pre with | some l => (.ok l, s) | none => s.gangFetch x q rs
      match a with
      | (.ok l, s) =>
        let keep (r : GangRun) : GangRun := { r with got := put (fun _ => []) r.got key l }
        (.ok l, s.updGang g fun y => { y with run := y.run.map keep })
      | a => a

/-- Prefetched data of a window under the current epoch (R134, R334): for a member's stream, or for the image. -/
def State.prefData (s : State) (w : Nat) (st : Option Nat) (blk : Nat) : Option (List (List Byte × Bool)) :=
  (s.trowel.pref.find? fun p => p.w == w && p.s == st && p.blk == blk && p.tag == s.epochCur).bind (·.data)

/-- The next pass of task ti of a gang's running operation (R250–R253, R258, R323): operands fetched, rows streamed. The first pass of a
window's operation uses what has been prefetched (R334). -/
def State.gangPass (s : State) (g : Nat) (r : GangRun) (ti : Nat) (t : GangTask) : State :=
  let d := r.d
  let bm := t.b / max 1 d.bn
  let bn := t.b % max 1 d.bn
  let j := (d.segment t.p).1 + t.done
  let (k0, kb) := d.passK j
  let rows := s.blockRows d t.b
  let ms := snakeOrder r.active
  let fetcher (unit : Nat) : Nat := ms.getD (Config.fetcher r.pick unit % max 1 ms.length) 0
  let fa := fetcher (2 * bm)
  let fb := fetcher (2 * bn + 1)
  let (ctx, slice, aRange, preA) : DevCtx × Option (Nat × Nat) × List (Nat × Nat) × Option (List (List Byte × Bool)) :=
    match d.src, s.blockMember d t.b with
    | .window w, some (m, jb, y) =>
      ({ q := kReq, eng := 0, own := .gang g, ptb := y.ptb, ring := y.ring }, some (w, m),
        aRanges d y.abase y.astride y.ascale y.asstride (256 * jb) rows k0 kb, if j = 0 then s.prefData w (some y.s) jb else none)
    | _, _ => ({ q := ⟨fa, 4⟩, eng := 0, own := .gang g, ptb := d.ptb, ring := d.ring }, none,
        aRanges d d.abase d.astride d.ascale d.asstride (256 * bm) rows k0 kb, none)
  let preB := match d.src with | .window w => if j = 0 then s.prefData w none bn else none | _ => none
  let ctxB : DevCtx := match d.src with
    | .window _ => { q := kReq, eng := 0, own := .gang g, ptb := d.ptb, ring := d.ring }
    | _ => { q := ⟨fb, 4⟩, eng := 0, own := .gang g, ptb := d.ptb, ring := d.ring }
  match s.gangOperand g (2 * (2 ^ 24 * j + bm)) preA ctx ⟨fa, 4⟩ aRange with
  | (.wait, s) => s
  | (.ok la, s) =>
    match s.gangOperand g (2 * (2 ^ 24 * j + bn) + 1) preB ctxB ⟨fb, 4⟩ (bRanges d bn k0 kb) with
    | (.wait, s) => s
    | (.ok lb, s) =>
      let tag (i : Nat) : Bank := { core := 4 + i, tile := bn, gen := j, sgen := r.pick, kp := (passDepth d.afmt d.bfmt).getD 1 }
      let tags := if d.pair then [tag 0, tag 1] else [tag 0]
      let b := bBlockOf d kb lb
      let s := s.gangBanks t.die tags b.poison
      match (s.gang g).run with
      | some r => s.gangRows g r ti t (aRowsOf d rows kb la) { b with poison := (s.engine t.die).bankPoison tags }
      | none => s
    | (e, s) => s.operandFails g none e.fcode
  | (e, s) => s.operandFails g slice e.fcode

/-- n output rows of a predecessor, from row c of its engine, added to those from row a: the flags, and whether a result row is poisoned
(R233, R254). -/
def Engine.addRows (x : Engine) (fmt a c n : Nat) (src : Engine) : Engine × FFlags × Bool :=
  let w := accW fmt
  (List.range n).foldl (fun (x : Engine × FFlags × Bool) i =>
    let o := sumRows fmt (x.1.amRows (a + w * i) w) (src.amRows (c + w * i) w)
    let bad := src.amPoisoned (c + w * i) w || x.1.amPoisoned (a + w * i) w
    (x.1.setAm (a + w * i) w o.1 bad, x.2.1 ||| o.2, x.2.2 || bad)) (x, 0, false)

/-- RUNNING_SUM (R254): task (b, p) has completed its passes and takes in the running sum of position p − 1. -/
def State.runningSum (s : State) (g b p : Nat) : State :=
  match (s.gang g).run with
  | none => s
  | some r =>
    let ti := b * r.d.l + p
    match r.tasks[ti]?, r.tasks[ti - 1]? with
    | some t, some u =>
      if r.failed || p = 0 || r.d.l ≤ p || t.summed || t.done < (r.d.segment p).2 || !u.finished r.d || s.blockDead r.d b then s
      else
        match s.downOn u.die t.die false with
        | some x => (s.logErr x 0x04 1 7 ⟨u.die, 4⟩ none false 5).gangFails g
        | none =>
          if s.pathBusy u.die t.die then s else
          let s := s.packet u.die t.die false
          let w := accW r.d.acc
          let a := s.taskRow g r b p
          let c := s.taskRow g r b (p - 1)
          let s := (s.eccAm u.die c (w * s.blockRows r.d b)).eccAm t.die a (w * s.blockRows r.d b)
          let e := (s.engine t.die).addRows r.d.acc a c (s.blockRows r.d b) (s.engine u.die)
          let s := s.updEngine t.die fun _ => e.1
          let t' := { t with summed := true }
          let r' := { r with flags := r.flags ||| e.2.1, poison := r.poison || e.2.2, tasks := setAt r.tasks ti t' }
          let s := (s.updGang g fun x => { x with run := some r' }).orReg t.die .GNG_FPF 0 (zx e.2.1)
          (if e.2.2 then s.blockPoisoned r.d b else s).taskDone g r' ti t'
    | _, _ => s

/-- RUNNING_SUM (R254). -/
def execRunningSum (g : Gang) (b p : Nat) (s : State) : Out := done (if s.stopped then s else s.runningSum g.val b p)

/-! ### Completion, failure, stragglers (R258–R265) -/

/-- A gang event logged by the MC (R498). -/
def State.gangLog (s : State) (g die : Nat) : State := s.mcLog 0x0007 2 die (s.fld 24 .GNG_EVENT g 31 0) g 0

/-- An event bit of GNG_EVENT set with its die (R263–R265). -/
def State.gangEvent (s : State) (g bitNo die : Nat) : State :=
  (s.setReg 24 .GNG_EVENT g (setBits (setBit (s.reg 24 .GNG_EVENT g) bitNo true) 12 8 die)).gangLog g die

/-- The straggler rule at an operation's end (R263): busy times W by member order. -/
def State.stragglers (s : State) (g active : Nat) (busy : List Nat) : State :=
  let ms := (enumFrom 0 (snakeOrder active)).map fun (m : Nat × Nat) => (m.2, busy.getD m.1 0, s.fld m.2 .GNG_PROG 0 31 0)
  let ran := ms.filter fun (m : Nat × Nat × Nat) => m.2.2 != 0
  let sorted := ran.mergeSort fun (a b : Nat × Nat × Nat) => decide (a.2.1 * b.2.2 ≤ b.2.1 * a.2.2)
  let med := sorted.getD ((ran.length + 1) / 2 - 1) (0, 0, 1)
  ran.foldl (fun s (m : Nat × Nat × Nat) =>
    let num := m.2.1 * med.2.2 - med.2.1 * m.2.2
    let thr := s.fld 24 .GNG_LAG_THR 0 31 0
    let lag := decide (thr * med.2.2 < num)
    let run := if lag then s.fld m.1 .GNG_LAG 0 35 32 + 1 else 0
    let s := s.setFld m.1 .GNG_LAG 0 31 0 (min (2 ^ 32 - 1) (num / max 1 med.2.2))
    if run < 8 then s.setFld m.1 .GNG_LAG 0 35 32 run
    else
      let s := (s.setFld m.1 .GNG_LAG 0 35 32 0).setFld m.1 .GNG_LAG 0 36 36 1
      let s := (s.gangEvent g 0 m.1).sendIrq (s.fld 24 .GNG_ROUTE 0 15 0) 24
      if s.flag 24 .GNG_CFG g 31 then s.updGang g fun x => { x with narrow := x.narrow ++ [m.1] } else s) s

/-- Has every member finished: tasks done or given up, entries posted (R258, R271)? -/
def State.gangFinished (s : State) (r : GangRun) : Bool :=
  (r.tasks.all fun t => t.finished r.d || s.blockDead r.d t.b)
    && (setBitsOf 24 r.active).all fun d => (s.engine d).held.all fun ws => bits (ws.getD 0 0) 35 34 != 2

/-- GANG_OP_COMPLETE (R258 step 5, R259, R263, R323): the record or the report to the Trowel, the stragglers, then the signal and the rest
once the record's write has been performed. -/
def execGangOpComplete (g : Gang) (busy : List Nat) (s : State) : Out :=
  match (s.gang g.val).run with
  | none => done s
  | some r =>
    if s.stopped || r.failed || !s.gangFinished r then done s
    else
      match r.d.src with
      | .window w =>
        let x := s.window w
        let s := s.setWindow w { x with state := .draining, flags := Nat.lor x.flags r.flags.toNat, form := r.form }
        done (((s.stragglers g.val r.active busy).dropPref fun v _ => v == w).gangEnd g.val r.d)
      | _ => done (s.gangClose g.val { r with status := 1 } fun s => s.stragglers g.val r.active busy)

/-- GANG_OP_FAIL (R258, R260, R331): an operation that has failed ends with its STATUS, or its window fails. -/
def execGangOpFail (g : Gang) (s : State) : Out :=
  match (s.gang g.val).run with
  | none => done s
  | some r =>
    if s.stopped || !r.failed then done s
    else
      match r.d.src with
      | .window w => done ((s.failWindow w).gangEnd g.val r.d)
      | _ => done (s.gangClose g.val r id)

/-- GANG_NARROW (R264): at the boundary the flagged die leaves the gang, or is kept. -/
def execGangNarrow (g : Gang) (s : State) : Out :=
  let x := s.gang g.val
  match x.narrow with
  | [] => done s
  | d :: rest =>
    if s.stopped || x.run.isSome then done s
    else
      let s := s.updGang g.val fun x => { x with narrow := rest }
      let active := s.fld 24 .GNG_STAT g.val 23 0
      if !active.testBit d then done s
      else if s.fld 24 .GNG_CFG g.val 30 24 / 4 = d ∨ popN 24 active ≤ s.fld 24 .GNG_CFG g.val 36 32 then done (s.gangEvent g.val 2 d)
      else
        let s := s.setFld 24 .GNG_STAT g.val 23 0 (active - 2 ^ d)
        let s := s.setFld 24 .GNG_STAT g.val 31 24 (s.fld 24 .GNG_STAT g.val 31 24 + 1)
        let s := (List.range 16).foldl (fun s i => s.setFld d .MXE_AG (48 + i) 63 63 0) s
        done (s.gangEvent g.val 1 d)

/-- GNG_READMIT(g) written (R265). -/
def State.wrGngReadmit (s : State) (g : Nat) (v : Word) : State :=
  let d := bits v 4 0
  if bit v 5 && decide (d < 24) && s.flag 24 .GNG_CFG g d && !s.flag 24 .GNG_STAT g d && !(s.gang g).readmit.contains d then
    s.updGang g fun x => { x with readmit := x.readmit ++ [d] }
  else s

/-- GNG_READMIT (R265). -/
def execGngReadmit (q : Src) (g : Gang) (v : Word) (s : State) : Out := regCmd q 24 .GNG_READMIT g.val s fun s => s.wrGngReadmit g.val v

/-- GANG_READMISSION (R265, R284): at the boundary the die rejoins, with the descriptors and histories of the open groups. -/
def execGangReadmission (g : Gang) (s : State) : Out :=
  let x := s.gang g.val
  match x.readmit with
  | [] => done s
  | d :: rest =>
    if s.stopped || x.run.isSome then done s
    else
      let s := s.updGang g.val fun x => { x with readmit := rest }
      let s := s.setFld 24 .GNG_STAT g.val 23 0 (Nat.lor (s.fld 24 .GNG_STAT g.val 23 0) (2 ^ d))
      let s := s.setFld 24 .GNG_STAT g.val 31 24 (s.fld 24 .GNG_STAT g.val 31 24 + 1)
      let lead := s.engine (s.fld 24 .GNG_CFG g.val 30 24 / 4)
      let s := (List.range 16).foldl (fun s i =>
        let r := s.grpReg g.val i
        if bit r 63 then
          (s.setReg d .MXE_AG (48 + i) (groupAg (bits r 15 0) (bits r 31 16))).updEngine d fun e =>
            { e with hist := put (fun _ => {}) e.hist (48 + i) (look (fun _ => {}) lead.hist (48 + i)) }
        else s) s
      done ((s.setFld d .GNG_LAG 0 35 32 0).gangEvent g.val 3 d)

end Sys2Proof.Machine
end

