-- ==== Sys2Proof/Machine/Ras.lean ====
section
/-! DEFINITION. Timed triggers fired, Scrim replays and edge failures, FIFO mismatches, response timeouts, orphans and the read of
the ERR_ log (R19, R20, R28, R308–R312, R459–R468). -/

namespace Sys2Proof.Machine

open Sys2Proof

/-- TRIGGER_FIRE (R308, R309, R311, R312, R385, R399, R408, R450): the due trigger of the lowest number fires, and the device's own do their
work; those due together act in ascending order. -/
def execTriggerFire (n : TrigId) (s : State) : Out :=
  if s.stopped || !s.triggerDue n.toNat || ((List.range n.toNat).any fun i => s.triggerDue i) then done s
  else
    let s := s.fireTrigger n.toNat
    match n.toNat with
    | 240 | 241 | 245 => done { s with trowel := { s.trowel with draining := s.trowel.draining ++ [n.toNat] } }
    | 242 => done s.heartbeat
    | 243 => done s.snapFire
    | 244 => done (if s.supply.warn then s.warnOff else s)
    | _ => done s

/-! ### Scrim edges (R19, R20, R28, R467) -/

/-- The neighbour of a die on a side: 0 north, 1 east, 2 south, 3 west. -/
def neighbour (d side : Nat) : Option Nat :=
  let x := dieX d
  let y := dieY d
  match side with
  | 0 => if y = 0 then none else some (dieAt x (y - 1))
  | 1 => if x = 4 then none else some (dieAt (x + 1) y)
  | 2 => if y = 4 then none else some (dieAt x (y + 1))
  | _ => if x = 0 then none else some (dieAt (x - 1) y)

/-- A die's ports trained: the edges with a working pair carry traffic (R28, R429). -/
def State.portsUp (s : State) (d : Nat) : State :=
  let up := (List.range 4).foldl (fun v side =>
    match neighbour d side with
    | some o => if s.edge (edgeNo d o) == .down then v else v + 2 ^ side
    | none => v) 0
  let sb := match standbyOf d with | some (o, _) => s.edge (edgeNo d o) != .down | none => false
  s.setFld d .SCR_PORT_STAT 0 4 0 (up + 16 * b2n sb)

/-- The primary pair of a doubled edge fails: both dies switch to the standby pair, which has had no replays (R19, R467). -/
def State.edgeSwitch (s : State) (e : Nat) : State :=
  let p := edgeDies e
  let s := { s with
    edges := put (fun _ => .primary) s.edges e .standby, scrim := dropKeys (fun k => k == 2 * e || k == 2 * e + 1) s.scrim }
  [p.1, p.2].foldl (fun s d =>
    let s := (s.setFld d .SCR_PORT_STAT 0 5 5 1).satFld d .SCR_PORT_STAT 0 15 8 1
    s.logErr d 0x09 2 7 ⟨d, 7⟩ none false (edgeSide d e)) s

/-- Posted stores in flight on the way to their homes when an edge of the route goes down: each not yet acknowledged is lost or has arrived,
freely; a lost one is reported (R80, R462). -/
def State.loseStores (s : State) : State :=
  (List.range 100).foldl (fun s n =>
    if h : n < 100 then
      let c : CoreId := ⟨n, h⟩
      (s.core c).unacked.foldl (fun s e =>
        match e.parts.find? fun p => (s.downOn (dieOf c).val (s.decodePA p.pa).die false).isSome with
        | none => s
        | some p => let b := s.freeBool; if b.1 then b.2.lostStore c p.pa else b.2) s
    else s) s

/-- An edge with no working pair goes down (R20): stores in flight on it are lost (R80). -/
def State.edgeFall (s : State) (e : Nat) : State :=
  let p := edgeDies e
  let s := { s with edges := put (fun _ => .primary) s.edges e .down }.loseStores
  [p.1, p.2].foldl (fun s d =>
    let side := edgeSide d e
    let s := (s.setFld d .SCR_PORT_STAT 0 side side 0).setFld d .SCR_PORT_STAT 0 6 6 1
    let s := if doubledEdge e then s.setFld d .SCR_PORT_STAT 0 4 4 0 else s
    s.logErr d 0x0A 2 7 ⟨d, 7⟩ none false side) s

/-- The pair that carries an edge's traffic is exhausted (R467). The spec gives no event for an idle standby pair that fails while the primary
pair carries the traffic: no state of the model records it, and a later failure of the primary pair always finds the standby pair working
(DESIGN CHOICE, log entry 65). -/
def State.edgeFails (s : State) (e : Nat) : State :=
  if s.edge e == .down then s
  else if doubledEdge e && s.edge e == .primary then s.edgeSwitch e
  else s.edgeFall e

/-- SCRIM_REPLAY (R467): the receiver on one side of an edge asks for a replay from a transfer; the eighth in a row from the same
transfer exhausts the pair. A transfer's number is that of its place among the 256 of the retry buffer, so the number of a replay 256 transfers
later is another transfer's. -/
def execScrimReplay (e : Fin 40) (side : Bool) (seq : BitVec 8) (s : State) : Out :=
  if s.stopped || s.edge e.val == .down then done s
  else
    let key := 2 * e.val + b2n side
    let old := look (fun _ => {}) s.scrim key
    let d := if side then (edgeDies e.val).2 else (edgeDies e.val).1
    let o := if side then (edgeDies e.val).1 else (edgeDies e.val).2
    let sent := s.transfers o (edgeSide o e.val)
    let n := if old.seq = seq.toNat ∧ old.n ≠ 0 ∧ sent < old.sent + 256 then old.n + 1 else 1
    let s := s.corrected d 7 1
    if 8 ≤ n then done ({ s with scrim := put (fun _ => {}) s.scrim key {} }.edgeFails e.val)
    else done { s with scrim := put (fun _ => {}) s.scrim key { seq := seq.toNat, n, sent } }

/-- STANDBY_SWITCH (R19): a lane of the primary pair of a doubled edge has lost lock. -/
def execStandbySwitch (e : Fin 40) (s : State) : Out :=
  done (if !s.stopped && doubledEdge e.val && s.edge e.val == .primary then s.edgeSwitch e.val else s)

/-- EDGE_DOWN (R20): the last working pair of an edge has failed. -/
def execEdgeDown (e : Fin 40) (s : State) : Out :=
  done (if s.stopped || s.edge e.val == .down || (doubledEdge e.val && s.edge e.val == .primary) then s else s.edgeFall e.val)

/-- SCRIM_PORT_RETRAIN_DONE (R28, R429): the ports of a die that was reset carry traffic again. -/
def execScrimPortRetrainDone (d : CDie) (s : State) : Out := done (if s.stopped then s else s.portsUp d.val)

/-! ### FIFOs, timeouts, orphans (R461, R462, R465) -/

/-- Do packets between two dies pass a die's FIFOs? -/
def State.passesDie (s : State) (d src dst : Nat) : Bool :=
  d == src || d == dst || (routeEdges (s.flag src .SCR_ROUTE 0 0) src dst).any fun e => e.1 == d

/-- Interrupts that pass a die, of which a FIFO with n entries holds up to n, freely, and loses them all: which queue holds which packet is not
given (R465). -/
def State.loseFlights (s : State) (d n : Nat) : State :=
  ((s.flight.filter fun f => s.passesDie d f.die (f.core / 4)).foldl (fun (r : Nat × State) f =>
    if r.1 = 0 then r
    else let b := r.2.freeBool; if b.1 then (r.1 - 1, { b.2 with flight := b.2.flight.erase f }) else (r.1, b.2)) (n, s)).2

/-- Packets of a link formed and not yet sent, of which a FIFO with n entries holds up to n, freely, and loses them all (R465). -/
def State.loseWaiting (s : State) (l : LinkId) (n : Nat) : State :=
  ((s.link l).wait.foldl (fun (r : Nat × State) p =>
    if r.1 = 0 then r
    else
      let b := r.2.freeBool
      if b.1 then (r.1 - 1, (b.2.dropDwrs [p]).updLink l fun x => { x with wait := x.wait.erase p }) else (r.1, b.2)) (n, s)).2

/-- FIFO_POINTER_MISMATCH (R465, R471): the queue empties itself, the die logs it; four within a second of fabric time call for a
new tray. -/
def execFifoPointerMismatch (d : Die) (unit : BitVec 4) (queue entries : BitVec 16) (s : State) : Out :=
  if s.stopped then done s
  else
    let s := match unit.toNat with
      | 8 => s.loseWaiting .agd entries.toNat
      | 9 => s.loseWaiting .twn entries.toNat
      | 10 => s.loseWaiting .hwk entries.toNat
      | _ => s.loseFlights d.val entries.toNat
    let key := d.val * 2 ^ 20 + unit.toNat * 2 ^ 16 + queue.toNat
    let recent := s.time :: (look (fun _ => []) s.fifoErr key).filter fun t => decide (s.time < t + 1000000000)
    let s := { s with fifoErr := put (fun _ => []) s.fifoErr key (recent.take 4) }
    let a := s.freeNat
    let s := a.2.logErr d.val 0x07 1 unit.toNat ⟨d.val, unit.toNat⟩ (some a.1) false (queue.toNat + 2 ^ 16 * entries.toNat)
    done (if 4 ≤ recent.length then s.setReplace else s)

/-- Has a request of a requester, issued at an MC time, waited ERR_TMO.US of its die (R461, R472)? -/
def State.expired (s : State) (q : Req) (since : Nat) : Bool := decide (since + 1000 * max 1 (s.fld q.die .ERR_TMO 0 31 0) ≤ s.mctime)

/-- The entry of a timed-out request (R461, R468). -/
def State.logTimeout (s : State) (q : Req) (pa : Nat) : State := s.logErr q.die 0x05 1 q.unit q (some pa) false 0

/-- The requests of a die's unit that have waited at their homes for ERR_TMO.US end with code 7 when they are next tried (R461); a request on the
fault queue waits in no such place, and none is made while a cold or warm reset's fill goes on. -/
def State.waitsOut (s : State) (q : Req) : State :=
  let due := s.waits.filter fun w => w.die == q.die && w.unit == q.unit && !w.out && s.expired q w.since
  due.foldl (fun s w => s.logTimeout q w.pa)
    { s with waits := s.waits.map fun w => if due.contains w then { w with out := true } else w }

/-- A DWR whose acknowledgement did not come in time is given up by its owner (R382, R461); its packet goes on for nobody. -/
def State.dwrTimeout (s : State) (p : Pkt) : State :=
  let drop (k : Pkt) : Pkt := if k == p then { k with own := .none } else k
  let s := s.updLink .agd fun k => { k with wait := k.wait.map drop, sent := k.sent.map fun e => (e.1, drop e.2) }
  (({ s with dwrLost := s.dwrLost.erase p }).logTimeout p.own.req p.pa).postFailed p.own p.pa 7

/-- A request to the cartridge is given up (R415, R461): a read's answer is code 7 and its tag stays out; a tier's write fails. -/
def State.hawkTimeout (s : State) (tag : Nat) : State :=
  match s.hrds.find? fun d => d.tag == tag && d.ans.isNone && d.own != .none with
  | some d =>
    if s.expired kReq d.since then
      { s with hrds := s.hrds.map (fun e => if e == d then { d with ans := some (16 + 7, []) } else e)
        ++ [{ d with own := .none, late := true }] }.logTimeout
        kReq (d.addr % 2 ^ 48)
    else s
  | none =>
    match s.hawk.writes.find? fun m => m.tag == tag && m.own != .none with
    | some m =>
      if s.expired kReq m.since then
        let s := { s with hawk := { s.hawk with writes := s.hawk.writes.map fun e => if e == m then { m with own := .none, late := true } else e } }
        (s.logTimeout kReq (m.off % 2 ^ 48)).postFailed m.own m.off 7
      else s
    | none => s

/-- RESPONSE_TIMEOUT (R461): a request that has waited too long ends with code 7. A DRD's tag stays held by its orphan (R374), and so does a
MIRW's, of which no rule says it (DESIGN CHOICE, log entry 65). -/
def State.timeout (s : State) (o : Outst) : State :=
  match o with
  | .drd tag =>
    match s.drds.find? fun x => x.tag == tag.toNat && x.ans.isNone && !x.held && x.own != Own.none with
    | none => s
    | some x =>
      if s.expired x.own.req x.since then
        { s with drds := s.drds.map (fun y => if y == x then { x with ans := some (16 + 7, []) } else y)
          ++ [({ tag := x.tag, pa := x.pa, late := true } : Drd)] }.logTimeout x.own.req x.pa
      else s
  | .mirw tag =>
    match s.twin.mirw.find? fun m => m.tag == tag.toNat && !m.late with
    | none => s
    | some m =>
      if s.expired m.own.req m.since then
        let gone (e : Mirw) : Mirw := if e == m then { m with own := .none, lsn := 0, late := true } else e
        (({ s with twin := { s.twin with mirw := s.twin.mirw.map gone } }).logTimeout m.own.req (0x200000000000 + m.off)).mirwFailed m 7
      else s
  | .dwr addr =>
    match (s.dwrLost ++ (s.link .agd).unsent).find? fun p => p.type == 0x12 && p.b == addr.toNat && p.own != Own.none with
    | none => s
    | some p => if s.expired p.own.req p.since then s.dwrTimeout p else s
  | .hawk tag => s.hawkTimeout tag.toNat
  | .store c pa =>
    match (s.core c).unacked.find? fun e => e.parts.any fun p => decide (p.pa ≤ pa.toNat ∧ pa.toNat < p.pa + p.n) with
    | none => s
    | some e => if s.expired (reqOf c) e.since then (s.logTimeout (reqOf c) pa.toNat).lostStore c pa.toNat else s
  | .access c => s.waitsOut (reqOf c)
  | .engine d => s.waitsOut ⟨d.val, 4⟩
  | .kdie => s.waitsOut ⟨24, 11⟩

/-- RESPONSE_TIMEOUT (R461). -/
def execResponseTimeout (r : Outst) (s : State) : Out := done (if s.stopped then s else s.timeout r)

/-- ORPHAN_RESPONSE (R462): a late response is discarded and logged. -/
def execOrphanResponse (d : Die) (unit : BitVec 4) (pa : BitVec 48) (s : State) : Out :=
  done (if s.stopped then s else s.logErr d.val 0x06 0 unit.toNat ⟨d.val, unit.toNat⟩ (some pa.toNat) false 0)

/-- A read of ERR_HEAD (R466, R468): the oldest unread entry's index, freed. -/
def State.rdErrHead (s : State) (d : Nat) : Word × State :=
  match look (fun _ => []) s.errOrder d with
  | [] => (0, s)
  | i :: l =>
    (BitVec.ofNat 64 (i + 2 ^ 63), { s with errOrder := put (fun _ => []) s.errOrder d l }.setFld d .ERR_STAT 0 6 0 l.length)

/-- ERR_HEAD (R468). -/
def execErrHead (q : Src) (d : Die) (s : State) : Out := regCmd q d.val .ERR_HEAD 0 s fun s => (s.rdErrHead d.val).2

end Sys2Proof.Machine
end

