-- ==== Sys2Proof/Machine/Reset.lean ====
section
/-! DEFINITION. The reset controller: sources, reaches, the cause, what each reset clears and keeps, requested resets, the start of
a core, and the state of the pins (R420–R434, R455, R513, R521–R524). -/

namespace Sys2Proof.Machine

open Sys2Proof

/-- SRC code of a source (R442). -/
def srcCode : RstSrc → Nat
  | .powerOn => 1 | .supply => 2 | .resetN => 3 | .mcCold => 4 | .twinResetN => 5 | .agdReset => 6 | .watchdog => 7
  | .ctlWarm => 8 | .refclk => 11

/-! ### What a cold or warm reset keeps -/

/-- A register kept through a reset: die, name, index, doubleword, and the bits that keep their value. -/
structure Kept where
  die : Nat
  name : RegName
  i : Nat := 0
  w : Nat := 0
  mask : Word := BitVec.allOnes 64

/-- Registers kept through a cold reset: the cause, and the fused counters (R425, R476). -/
def coldKept : List Kept := (List.range 25).map (fun d => ⟨d, .RST_CAUSE, 0, 0, BitVec.allOnes 64⟩) ++ [⟨24, .SEC_ARB, 0, 0, 0xFFFFFFFF⟩]

/-- Registers kept through a warm reset (R353, R419, R442, R443, R458, R471, R482, R489, R490, R507). -/
def warmKept : List Kept :=
  ((List.range 25).flatMap fun d =>
    ([⟨d, .RST_CAUSE, 0, 0, BitVec.allOnes 64⟩, ⟨d, .RST_BLKLOG, 0, 0, BitVec.allOnes 64⟩, ⟨d, .RST_STAT, 0, 0, 0xFF18⟩,
      ⟨d, .RST_START, 0, 0, BitVec.allOnes 64⟩, ⟨d, .RST_START, 1, 0, BitVec.allOnes 64⟩, ⟨d, .RST_START, 2, 0, BitVec.allOnes 64⟩,
      ⟨d, .RST_START, 3, 0, BitVec.allOnes 64⟩] : List Kept))
  ++ ([RegName.RND_STATUS, .RND_SEQ, .RND_SEQA, .RND_SEQB, .PWR_WARN_CNT, .SEC_MCSEQ, .MC_STAT, .MC_ARG, .MC_ADDR, .MC_CMDSTAT,
      .MC_LOGHEAD].map fun r => (⟨24, r, 0, 0, BitVec.allOnes 64⟩ : Kept))
  ++ ((List.range 4).map fun j => ⟨24, .PMAP_PEND, j, 0, BitVec.allOnes 64⟩)
  ++ ((List.range 6).flatMap fun w => [⟨24, .SEC_MR, 0, w, BitVec.allOnes 64⟩, ⟨24, .SEC_MR, 3, w, BitVec.allOnes 64⟩])
  ++ [⟨24, .PWR_VMIN, 0, 0, 0xFFFF0000⟩, ⟨24, .ERR_HEALTH, 0, 0, 2⟩, ⟨24, .SEC_STAT, 0, 0, 0xF⟩, ⟨24, .SEC_FWSEL, 0, 0, 0xC⟩,
      ⟨24, .SEC_ARB, 0, 0, 0xFFFFFFFF⟩, ⟨24, .SEC_ATT_CTL, 0, 0, 0xFFFFFFFF00000000⟩, ⟨24, .SEC_DBG, 0, 0, 0x1F7⟩,
      ⟨24, .TWN_STAT, 0, 0, 0x2000⟩]

/-- The kept registers of one state written into another. -/
def State.keep (old s : State) (l : List Kept) : State :=
  l.foldl (fun s k =>
    let v := (old.regW k.die k.name k.i k.w &&& k.mask) ||| (regReset k.name k.die k.i &&& ~~~k.mask)
    s.setRegW k.die k.name k.i k.w v) s

/-- A new challenge drawn (R489): a free value. -/
def State.newChallenge (s : State) : State :=
  (List.range 4).foldl (fun s i =>
    let n := s.freeNat
    n.2.setReg 24 .SEC_DBG_CHAL i (BitVec.ofNat 64 n.1)) s

/-- SEC_ARB shows a counter as its fuses count (R475, R476). -/
def State.arbShadow (s : State) (c : Nat) : State := s.setFld 24 .SEC_ARB 0 (8 * c + 7) (8 * c) (s.fuses.count c)

/-- The next n steps of a counter blown, in ascending order (R477). -/
def State.blowSteps (s : State) (c n : Nat) : State :=
  (loopN n (fun _ s => { s with fuses := s.fuses.blow c (s.fuses.count c) }) s).arbShadow c

/-- A counter commit that a reset cuts off has blown the steps up to any value from the one reached to TARGET (R477). -/
def State.cutCommit (s : State) : State :=
  match s.sec.commit with
  | none => s
  | some (c, target) =>
    let n := s.freeNat
    ({ n.2 with sec := { n.2.sec with commit := none } }).blowSteps c (n.1 % (target + 1 - s.fuses.count c))

/-- The highest SEQ among the valid entries of the MC's log, plus 1 (R497). -/
def McLog.scan (l : McLog) : Nat :=
  (l.flash.map fun (e : Nat × Option FlashEntry) =>
    match e.2 with | some f => if f.torn then 0 else f.seq + 1 | none => 0).foldl max 0

/-- What a cold reset leaves (R354, R422, R425, R497): fuses, flash, the cause, the pins and rails, and the environment's levels. -/
def State.coldContents (old : State) : State :=
  let old := old.cutCommit
  let r := old.rst
  let s : State :=
    { pending := old.pending, free := old.free, nor := old.nor, fuses := old.fuses
      mclog := { flash := old.mclog.flash, next := old.mclog.scan, boot := old.mclog.boot + 1 }
      supply := { warn := old.supply.warn, low := old.supply.low, up := old.supply.up, heat := old.supply.heat }
      twin := { present := old.twin.present }
      rst := { asserted := r.asserted, causes := r.causes, hot := r.hot, pwrEn := r.pwrEn, starting := r.starting, rails := r.rails, railsSeen := r.railsSeen
               refclk := r.refclk, trip := r.trip } }
  (old.keep s coldKept).newChallenge

/-- An update of the Render image through the MC fails with the loader that writes it (R504); no copy has been written since this
reset (R503). A mailbox command goes on, as the MC does (R491). -/
def Mc.warmed (m : Mc) : Mc :=
  let m := { m with pendSeq := [none, none], wd := none, prewarned := false }
  match m.upd with
  | some u => if u.comp = 1 then { m with upd := some { u with comp := 0, target := 0, result := 1 } } else m
  | none => m

/-- A message of the MC to a binding: a MGMT packet on the Agdoa link (R383, R500); SMBus traffic leaves the module. -/
def State.mcSend (s : State) (b : Bind) (vals : List Nat) : State :=
  match b with
  | .agd =>
    let bs := (Config.mctpBytes vals).take 256
    s.send .agd { type := 0x40, a := bs.length, data := bs }
  | .smb => s

/-- The MC logs an update's result (R498): component, target, reason and SEQ. -/
def State.logUpdate (s : State) (comp target reason seq : Nat) : State :=
  s.mcLog 0x000B 0 24 (comp + 2 ^ 4 * target + 2 ^ 8 * reason) seq 0

/-- What a warm reset leaves: besides the kept registers the contents of HBM, the flash, the MC and the always-on domain (R354, R422,
R491). -/
def State.warmContents (old : State) : State :=
  let old := old.cutCommit
  let r := old.rst
  let s : State :=
    { pending := old.pending, free := old.free, nor := old.nor, fuses := old.fuses, mclog := old.mclog, mctime := old.mctime
      mem := old.mem.filter fun (c : Nat × Byte) => decide (c.1 < hbmEnd)
      poison := old.poison.filter fun (c : Nat × Bool) => decide (c.1 < hbmEnd)
      snapCount := old.snapCount, mc := old.mc.warmed, sec := { rver := old.sec.rver, mver := old.sec.mver, idEd := old.sec.idEd, idMl := old.sec.idMl }
      twin := { present := old.twin.present, lastPeer := old.twin.lastPeer, pulse := old.twin.pulse }
      supply := { warn := old.supply.warn, low := old.supply.low, up := old.supply.up, began := old.supply.began, heat := old.supply.heat }
      rst := { r with reqs := [], pins := dropKeys (fun n => n == 4 || n == 11) r.pins } }
  let s := (old.keep s warmKept).newChallenge
  match old.mc.upd with
  | some u => if u.comp = 1 then (s.logUpdate 1 u.target 1 (fromBytes ((u.head.drop 8).take 8))).mcSend u.agent [7, 1] else s
  | none => s

/-! ### Sources (R422–R425, R433) -/

/-- Is a reset in progress on every die: a source asserted or option loading (R425)? -/
def State.inReset (s : State) : Bool := !s.rst.asserted.isEmpty || s.phase != 0

/-- RST_CAUSE of every die after a cold or warm source (R425); the MC's log is to have each cause the K-die recorded (R498). -/
def State.recordCause (s : State) (src reason : Nat) : State :=
  let lvl := srcLevel src
  let v := src + 2 ^ 4 * lvl + 2 ^ 8 * (if src = 4 ∨ src = 7 then reason % 256 else 0)
  let keeps (d : Nat) : Bool := s.inReset && decide (lvl < s.fld d .RST_CAUSE 0 6 4)
  let s := if keeps 24 then s else { s with rst := { s.rst with causes := s.rst.causes ++ [v] } }
  (List.range 25).foldl (fun s d => if keeps d then s else s.setReg d .RST_CAUSE 0 (BitVec.ofNat 64 v)) s

/-- The interleave, hash and Patch map in force, none where no image has applied them: then no channel is in service and none is out (R354). -/
def State.mapNow (s : State) : Option (List Nat) :=
  let out := (List.range 4).map fun j => (s.reg 24 .PMAP_OUT j).toNat
  if s.fld 24 .HBM_MAP 0 16 8 = 0 ∧ out.all (· == 0) then none
  else some ([s.fld 24 .HBM_MAP 0 1 0, s.fld 24 .HBM_MAP 0 2 2] ++ out)

/-- Stacks that have tripped since they last trained (R354, R455). -/
def State.trips (s : State) : List Nat := (List.range 16).filter fun k => s.flag (stackDie k) .HBM_STAT 0 1 || s.rst.tripped.contains k

/-- A cold or warm source asserts (R422, R424, R425, R433): the cause, what the reset leaves, and the phase that follows it. While a cold source
is asserted another one extends the reset and does nothing else (R424). -/
def State.assertSource (s : State) (src reason : Nat) : State :=
  if s.rst.asserted.contains src then s
  else
    let s := s.recordCause src reason
    let lvl := srcLevel src
    if s.coldNow then { s with rst := { s.rst with asserted := s.rst.asserted ++ [src] } }
    else if lvl = 4 then
      let trips := s.trips
      let s := s.coldContents
      { s with rst := { s.rst with asserted := s.rst.asserted ++ [src], phaseNext := 1, tripped := trips } }
    else
      let ph := s.phase
      let fresh := !s.inReset
      let r := s.rst
      let next := if !r.asserted.isEmpty then r.phaseNext else if ph = 0 then 2 else ph
      let restart := if r.asserted.isEmpty then ph != 0 else r.restart
      let map := if fresh then s.mapNow else r.mapBefore
      let trips := s.trips
      let b := if ph = 3 then s.freeBool else (false, s)
      let begun := r.fillBegun || b.1
      let s := b.2.warmContents
      { s with rst := { s.rst with
        asserted := r.asserted ++ [src], phaseNext := next, restart := restart, mapBefore := map, tripped := trips
        fillBegun := if fresh then false else begun
        cut := !fresh && (r.cut || ph == 3) } }

/-- Phase 2 begins (R432, R443): its results of before are cleared. -/
def State.startPhase2 (s : State) : State := s.resetRegs 24 [.RND_STATUS, .RND_SEQ, .RND_SEQA, .RND_SEQB]

/-- The last source has released: blocks leave reset and option loading begins (R424, R432, R433); at step 5 while a supply
warning stands, whose end is then measured from here (R450, R452); the links' controllers begin once the fuse shadow has loaded (R363). The MC logs
the causes recorded, those that a later one has overwritten among them, at the release (R498, R521). -/
def State.leaveReset (s : State) : State :=
  let ph := s.rst.phaseNext
  let n := if s.rst.restart then min 255 (s.fld 24 .RST_STAT 0 15 8 + 1) else 0
  let s := { s with timeRuns := true, rst := { s.rst with restart := false } }
  let s := (s.setFld 24 .RST_STAT 0 1 0 ph).setFld 24 .RST_STAT 0 15 8 n
  let s := if ph = 2 then s.startPhase2 else s
  let s := if ph = 1 then s else s.updLink .agd fun k => { k with state := 1 }
  let s := if s.supply.warn then s.warnOn.armWarn else s
  { s.rst.causes.foldl (fun s v => s.mcLog 0x0001 0 24 v n 0) s with rst := { s.rst with causes := [] } }

/-- A source releases (R424). While the trip latch is set nothing leaves reset (R455, R524). -/
def State.releaseSource (s : State) (src : Nat) : State :=
  if !s.rst.asserted.contains src then s
  else
    let s := { s with rst := { s.rst with asserted := s.rst.asserted.filter (· != src) } }
    if s.stopped then s else s.leaveReset

/-- The main regulators start once every condition of R523 holds. -/
def State.tryStart (s : State) : State :=
  let r := s.rst
  if r.pwrEn && !r.asserted.contains 2 && r.refclk && !r.trip && !r.rails then { s with rst := { r with starting := true } } else s

/-- REFCLK is lost (R521). -/
def State.refclkLost (s : State) : State :=
  if s.rst.refclk then ({ s with rst := { s.rst with refclk := false } }).assertSource 11 0 else s

/-- REFCLK is restored (R521, R523). -/
def State.refclkBack (s : State) : State :=
  if s.rst.refclk then s else (({ s with rst := { s.rst with refclk := true } }).releaseSource 11).tryStart

/-- A rail leaves regulation while PWR_EN is high: PWR_GOOD falls and the power-on source asserts, except during a trip; the regulators go on
(R523, R524). -/
def State.railsLost (s : State) : State :=
  let r := s.rst
  if r.trip then s else ({ s with rst := { r with rails := false, starting := r.starting || r.rails } }).assertSource 1 0

/-- RESET_SOURCE_ASSERT (R422, R424, R521, R524). -/
def execResetSourceAssert (r : RstSrc) (reason : BitVec 8) (s : State) : Out :=
  done (match r with
    | .powerOn => s.railsLost
    | .refclk => s.refclkLost
    | r => s.assertSource (srcCode r) reason.toNat)

/-- RESET_SOURCE_RELEASE (R422, R424): the power-on source is released with the rails in regulation alone (R524). -/
def execResetSourceRelease (r : RstSrc) (s : State) : Out :=
  done (match r with
    | .powerOn => if s.rst.rails then (s.releaseSource 1).tryStart else s
    | .refclk => s.refclkBack
    | r => (s.releaseSource (srcCode r)).tryStart)

/-- The filtered RESET_N (R423). -/
def execResetN (high : Bool) (s : State) : Out := done (if high then s.releaseSource 3 else s.assertSource 3 0)

/-- The filtered TWIN_RESET_N (R423). -/
def execTwinResetN (high : Bool) (s : State) : Out := done (if high then s.releaseSource 5 else s.assertSource 5 0)

/-- The input falls below 40.0 V (R422, R449, R451): a warning that has not begun begins, and the log keeps its count and the lowest input, since
the cold reset that follows ends both. -/
def execSupplyUndervoltage (mv10 : BitVec 16) (s : State) : Out :=
  let v := mv10.toNat
  done (if 4000 ≤ v then s
    else
      let u : State :=
        if s.supply.warn then { s with supply := { s.supply with up := false, low := min s.supply.low v } }
        else
          let t : State := { s with supply := { s.supply with warn := true, up := false, low := v, began := s.mctime } }
          if s.stopped then t else t.satFld 24 .PWR_WARN_CNT 0 31 0 1
      let u := if u.coldNow then u else u.logNow 0x0003 0 24 u.supply.low (u.mctime - u.supply.began) (u.reg 24 .PWR_WARN_CNT 0).toNat
      u.assertSource 2 0)

/-- PWR_EN rises (R523). -/
def execPwrEnRise (s : State) : Out := done ({ s with rst := { s.rst with pwrEn := true } }).tryStart

/-- PWR_EN falls (R455, R524): the rails go off, the trip latch clears, the power-on source asserts. -/
def execPwrEnFall (s : State) : Out :=
  let s := { s with rst := { s.rst with pwrEn := false, starting := false, rails := false, trip := false } }
  done (s.assertSource 1 0)

/-- Every rail is in regulation (R431, R524): PWR_GOOD rises and the power-on source releases in that cycle. -/
def execPwrGoodRise (s : State) : Out :=
  done (if s.rst.starting && !s.rst.rails then
    ({ s with rst := { s.rst with starting := false, rails := true, railsSeen := true } }).releaseSource 1
  else s)

/-- REFCLK_LOSS (R521). -/
def execRefclkLoss (s : State) : Out := done s.refclkLost

/-- REFCLK_RESTORE (R521, R523). -/
def execRefclkRestore (s : State) : Out := done s.refclkBack

/-- The standby rail goes down (R455, R523): power leaves the always-on domain and the MC, and when the rail rises the power-on and
supply sources are asserted in one cycle (R422, R425). PWR_EN keeps the level the board gives it, and sources that pins and REFCLK hold stay. -/
def execStandbyRailDown (s : State) : Out :=
  let held := s.rst.asserted.filter fun n => n == 3 || n == 5 || n == 11
  let s := { s with rst := { s.rst with
    starting := false, rails := false, railsSeen := false, trip := false, hot := [], asserted := [], causes := [] } }
  let s := s.assertSource 1 0
  let s := { s with rst := { s.rst with asserted := [1, 2] ++ held, causes := [0x41] } }
  done ((List.range 25).foldl (fun s d => s.setReg d .RST_CAUSE 0 0x41) s)

/-! ### Resets of blocks, dies and gangs (R426–R429) -/

/-- The reset controller's flush of a die's FIFOs, or of those of one of its blocks (R426, R466): of the packets on their way that the model holds,
interrupts, those that may stand in them are discarded or have left them, freely. A FIFO whose pointers have disagreed before is empty by then. -/
def State.flushFlights (s : State) (p : Flight → Bool) : State :=
  (s.flight.filter p).foldl (fun s f => let b := s.freeBool; if b.1 then { b.2 with flight := b.2.flight.erase f } else b.2) s

/-- A core's reset (R64, R109, R121, R215, R427, R430): its registers, its queues and its events; it stays halted. The program slots
belong to the engine. -/
def State.coreReset (s : State) (c : CoreId) : State :=
  let d := (dieOf c).val
  let k := (coreK c).val
  let s := s.unclaimQuarters c
  let s := s.renamePosts fun o => match o with | .quarter k e q => if k = c.val then .output d e q else o | o => o
  let s := s.orphanPostsFor fun o => Own.ofCore c.val o || o == Own.vec c.val || o == Own.tile c.val
  let s := { s with waits := s.waits.filter fun w => !(w.die == d && w.unit == k) }
  let s := s.flushFlights fun f => f.core == c.val
  let s := s.setCore c { glz := (s.core c).glz }
  let s := (s.setFld d .RST_RUN 0 k k 0).setFld d .ERR_STAT 0 (8 + k) (8 + k) 0
  if isSystem c then s else s.mxeSync d

/-- The registers of a die that its C-die reset keeps (R358, R428, R442, R458, R28). -/
def cdieKeeps (r : RegName) : Bool :=
  match r with
  | .SCR_ID | .SCR_PORT_STAT | .SCR_ROUTE | .RST_CAUSE | .RST_BLKLOG | .RST_STAT | .RST_START | .RST_IDLE_TMO | .RST_RUN
  | .PWR_CEIL | .PWR_HCEIL | .HBM_STAT | .HBM_TEMP | .HBM_SCRUB | .HBM_MRG => true
  | _ => false

/-- Stack retraining with contents kept (R354, R427, R429): a margin test in progress ends. -/
def State.hbmRetrain (s : State) (d : Nat) : State :=
  match dieStack d with
  | none => s
  | some st =>
    if !s.flag d .HBM_STAT 0 0 then s
    else
      let s := { s with hbmWait := s.hbmWait.filter (· != st) ++ [st] }
      (s.setFld d .HBM_STAT 0 0 0 0).setFld d .HBM_MRG_RES 0 33 33 0

/-- A C-die's reset (R429). -/
def State.cdieReset (s : State) (d : Nat) : State :=
  let s := s.flushFlights fun f => f.die == d
  let s := (coresOf d).foldl State.coreReset s
  let s := s.engineReset d true
  let s := (s.fqWithdraw fun w => w.die == d)
  let lo := tileBase + 0x80000000 * d
  let inTile := fun (a : Nat) => decide (lo ≤ a) && decide (a < lo + 0x80000000)
  let s := { s with
    dtlb := dropKeys (· == d) s.dtlb
    mem := dropKeys inTile s.mem, poison := dropKeys inTile s.poison
    tileFill := s.tileFill.filter (· != d) ++ [d]
    errOrder := dropKeys (· == d) s.errOrder
    waits := s.waits.filter fun w => w.die != d
    sent := dropKeys (fun k => k / 4 == d) s.sent
    supply := { s.supply with
      power := dropKeys (· == d) s.supply.power, thermal := dropKeys (· == d) s.supply.thermal
      stack := dropKeys (· == d) s.supply.stack
      demand := if s.supply.warn then put (fun _ => 0) s.supply.demand d 5 else dropKeys (· == d) s.supply.demand
      due := dropKeys (· == d) s.supply.due } }
  let s := s.resetRegs d ((allRegs.filter fun r => (regInfo r).dies.has d && (regInfo r).dies != .k).filter fun r => !cdieKeeps r)
  let s := (s.setFld d .SCR_PORT_STAT 0 4 0 0).setFld d .RST_RUN 0 3 0 0
  let s := (coresOf d).foldl (fun s c => s.updCore c fun x => { x with glz := [], mchk := [] }) s
  let s := match dieStack d with | some st => (s.hbmRetrain d).stackStep st | none => s
  s.dieStep d

/-- The operations of a gang's queue as a reset ends them: STATUS 2, DONE 0 (R428). -/
def gangEnded (running : Option GangRun) (queue : List GangEntry) : List GangRun :=
  (match running with | some r => [{ r with tasks := [], recorded := false }] | none => []) ++
    queue.filterMap fun e => match e with | .gmm d => some { d := d } | _ => none

/-- A gang's reset (R428). -/
def State.gangReset (s : State) (g : Nat) : State :=
  let members := s.fld 24 .GNG_CFG g 23 0
  let ended := (s.gang g).ended ++ gangEnded (s.gang g).run (s.gang g).queue
  let s := (setBitsOf 24 members).foldl State.cdieReset s
  let s := (List.range 1024).foldl (fun s w =>
    let x := s.window w
    if x.gang = g ∧ (x.state = .queued ∨ x.state = .running ∨ x.state = .draining) then s.failWindow w else s) s
  let s := s.fqForget fun w => w.own == .gang g
  let s := (s.updGang g fun _ => {}).endedOn g ended
  let s := (List.range 16).foldl (fun s i => s.setReg 24 .GNG_GRP (16 * g + i) 0) s
  let s := (s.setFld 24 .GNG_STAT g 23 0 members).setFld 24 .GNG_STAT g 31 24 (s.fld 24 .GNG_STAT g 31 24 + 1)
  (setBitsOf 24 members).foldl (fun s d =>
    (s.resetRegs d [.GNG_PROG, .GNG_LAG]).setReg d .RST_CAUSE 0 (BitVec.ofNat 64 (9 + 2 ^ 5 + 2 ^ 16 * g))) s

/-- A block's reset (R427). -/
def State.blockReset (s : State) (d code : Nat) (idle : Bool) : State :=
  if code < 4 then (if h : 4 * d + code < 100 then s.coreReset ⟨4 * d + code, h⟩ else s)
  else match code with
    | 4 => s.engineReset d (!idle)
    | 5 => s.hbmRetrain d
    | 8 => s.linkToDetect .agd
    | 9 => s.linkToDetect .twn
    | 10 =>
      let s := (s.hawkDown.endTier 1 5).endHawkRestore
      let s := { s with hawk := { s.hawk with hrel := false, writes := [] } }
      (s.retrainLink .hwk 1).setHawk 0
    | _ => s

/-- Is a block code defined on a die (R427)? -/
def blockDefined (d code : Nat) : Bool :=
  decide (code < 4) || (if d = 24 then code == 8 || code == 9 || code == 10 else code == 4 || (code == 5 && isEdgeDie d))

/-- Is a requested reset of a die in progress (R426)? -/
def State.dieBusy (s : State) (d : Nat) : Bool := s.flag d .RST_STAT 0 2

/-- A request taken or ignored (R426): from then on the blocks it covers are asked to go idle. -/
def State.request (s : State) (badDie : Nat) (ok : Bool) (r : ResetReq) : State :=
  if s.phase ≠ 0 ∨ !ok ∨ r.dies.any s.dieBusy then s.setFld badDie .RST_STAT 0 4 4 1
  else
    let s := { s with rst := { s.rst with reqs := s.rst.reqs ++ [{ r with since := s.mctime }] } }
    (r.dies.foldl (fun s d => s.setFld d .RST_STAT 0 2 2 1) s).hawkAsked

/-- RST_CTL written (R426, R442). -/
def State.wrRstCtl (s : State) (v : Word) : State :=
  if bit v 0 then s.assertSource 8 0
  else
    let g := bits v 2 1
    let s := if bit v 3 then s.request 24 (s.gangV g) ⟨2, setBitsOf 24 (s.fld 24 .GNG_CFG g 23 0), g, 0⟩ else s
    let d := bits v 8 4
    if bit v 9 then s.request 24 (decide (d < 24)) ⟨1, [d], d, 0⟩ else s

/-- RST_BLK of a die written (R426, R442). -/
def State.wrRstBlk (s : State) (d : Nat) (v : Word) : State :=
  let code := bits v 3 0
  if bit v 4 then s.request d (blockDefined d code) ⟨0, [d], code, 0⟩ else s

/-- RST_CTL.WARM (R422, R442). -/
def execWarm (q : Src) (s : State) : Out := regCmd q 24 .RST_CTL 0 s fun s => s.wrRstCtl 1
/-- RST_CTL.GANGGO (R428). -/
def execGanggo (q : Src) (v : Word) (s : State) : Out := regCmd q 24 .RST_CTL 0 s fun s => s.wrRstCtl ((v ||| 8) &&& 0xE)
/-- RST_CTL.CDIEGO (R429). -/
def execCdiego (q : Src) (v : Word) (s : State) : Out := regCmd q 24 .RST_CTL 0 s fun s => s.wrRstCtl ((v ||| 0x200) &&& 0x3F0)
/-- RST_BLK (R427). -/
def execRstBlk (q : Src) (d : Die) (v : Word) (s : State) : Out := regCmd q d.val .RST_BLK 0 s fun s => s.wrRstBlk d.val v

/-- The records of a requested reset (R425, R426, R442). -/
def State.resetDone (s : State) (r : ResetReq) (idle : Bool) : State :=
  let d := r.dies.headD 24
  let s := r.dies.foldl (fun s d => s.setFld d .RST_STAT 0 2 2 0) s
  let s :=
    if r.level = 0 then
      let n := min 65535 (s.fld d .RST_BLKLOG 0 31 16 + 1)
      s.setReg d .RST_BLKLOG 0 (BitVec.ofNat 64 (r.what + 2 ^ 4 * b2n idle + 2 ^ 5 + 2 ^ 16 * n))
    else r.dies.foldl (fun s d => s.setFld d .RST_STAT 0 3 3 (b2n idle)) s
  if idle then s else s.logErr d 0x0F 1 12 ⟨d, 12⟩ none false (if r.level = 0 then r.what else 15)

/-- Is a core idle (R427): at a boundary, nothing of it queued, every access it issued performed? -/
def State.coreIdle (s : State) (c : CoreId) : Bool :=
  let x := s.core c
  !s.running c || (x.boundary && !x.issued && x.unacked.isEmpty && x.vq.isEmpty && x.tq.isEmpty && x.pass.isNone
    && !s.postedFor (Own.ofCore c.val))

/-- Is an engine idle (R234, R427): the running pass and every tile queue have completed? -/
def State.engineIdle (s : State) (d : Nat) : Bool :=
  (s.streamingCore d).isNone && (coresOf d).all fun c => (s.core c).tq.isEmpty

/-- Is a block idle (R427)? A controller, and a link whose flits are sent whole, is so between any two commands. -/
def State.blockIdle (s : State) (d code : Nat) : Bool :=
  if code < 4 then (if h : 4 * d + code < 100 then s.coreIdle ⟨4 * d + code, h⟩ else true)
  else match code with
    | 4 => s.engineIdle d
    | 10 => s.fld 24 .HWK_STAT 0 2 0 ∈ [0, 5, 6]
    | _ => true

/-- Is everything a requested reset covers idle (R426)? -/
def State.requestIdle (s : State) (r : ResetReq) : Bool :=
  if r.level = 0 then s.blockIdle (r.dies.headD 24) r.what
  else r.dies.all fun d => [0, 1, 2, 3, 4].all fun k => s.blockIdle d k

/-- Has RST_IDLE_TMO.NS elapsed since a request, the K-die's for a gang or a C-die (R426)? MC time measures it (log entry 8). -/
def State.idleOver (s : State) (r : ResetReq) : Bool :=
  decide (r.since + s.fld (if r.level = 0 then r.dies.headD 24 else 24) .RST_IDLE_TMO 0 31 0 ≤ s.mctime)

/-- The MC's entries of a gang or C-die reset: the cause that each die has recorded (R425, R498). -/
def State.logCauses (s : State) (r : ResetReq) : State :=
  if r.level = 0 then s
  else r.dies.foldl (fun s d => s.mcLog 0x0001 0 d (s.reg d .RST_CAUSE 0).toNat (s.fld 24 .RST_STAT 0 15 8) 0) s

/-- RESET_IDLE_REACHED (R426): the blocks of the oldest request that covers a die are idle, or its time is up; the reset is made. With a
block not yet idle, or before the time is up, the report is turned away (log entry 8). -/
def execResetIdleReached (d : Die) (idle : Bool) (s : State) : Out :=
  done (match s.rst.reqs.find? fun r => r.dies.contains d.val with
    | none => s
    | some r =>
      if s.stopped || (idle && !s.requestIdle r) || (!idle && !s.idleOver r) then s
      else
        let s := { s with rst := { s.rst with reqs := s.rst.reqs.erase r } }
        let s := match r.level with
          | 0 => s.blockReset d.val r.what idle
          | 1 => (s.cdieReset r.what).setReg r.what .RST_CAUSE 0 0x1A
          | _ => s.gangReset r.what
        (s.logCauses r).resetDone r idle)

/-! ### Where cores start (R430) -/

/-- A halted core starts: ring 0, the flat segments, paging off, its first fetch at RST_START (R98, R123, R430). -/
def State.startCore (s : State) (c : CoreId) : State :=
  let d := (dieOf c).val
  let k := (coreK c).val
  if s.flag d .RST_RUN 0 k then s
  else (s.updCore c fun x => { x with ip := s.reg d .RST_START k &&& 0xFFFFFFFFFFFFC }).setFld d .RST_RUN 0 k k 1

/-- RST_RUN of a die written (R430, R442). -/
def State.wrRstRun (s : State) (d : Nat) (v : Word) : State :=
  (List.range 4).foldl (fun s k => if bit v k then (if h : 4 * d + k < 100 then s.startCore ⟨4 * d + k, h⟩ else s) else s) s

/-- RST_RUN (R430). -/
def execRstRun (q : Src) (d : Die) (v : Word) (s : State) : Out := regCmd q d.val .RST_RUN 0 s fun s => s.wrRstRun d.val v

/-! ### Pins (R431, R456, R513, R514, R524) -/

/-- The states of R431. -/
inductive PinState where
  | highZ | pullDown | pullUp | low | high
  deriving DecidableEq, Repr

/-- The fused state of pin n as shipped (R431, R513). -/
def fusePin (n : Nat) : PinState :=
  match n with
  | 0 | 8 | 9 | 12 | 13 | 14 => .pullUp
  | 1 | 11 | 16 => .pullDown
  | 10 => .high
  | 2 => .low
  | _ => .highZ

/-- A pin state by its code (R431). -/
def PinState.ofCode (n : Nat) : PinState :=
  match n with | 1 => .pullDown | 2 => .pullUp | 3 => .low | 4 => .high | _ => .highZ

/-- Is ALERT_N driven low (R456)? -/
def State.alert (s : State) : Bool := (s.reg 24 .PWR_EVT 0 &&& 3) != 0 || (s.reg 24 .THM_EVT 0 &&& 7) != 0

/-- What the module drives or applies at pin n: its function once its block drives it after option loading or its entry has applied, a held state,
the pull of its entry, or its fused state (R402, R431, R456, R514, R524). TDO is driven in Shift-DR and Shift-IR alone, in which no command leaves
the TAP (R517). -/
def State.pin (s : State) (n : Nat) : PinState :=
  let o := look noPin s.rst.pins n
  let pull := if o.2 = 2 then fusePin n else PinState.ofCode o.1
  let reset := !s.rst.asserted.isEmpty
  let loaded := s.phase == 0 || o.2 == 0
  let smbEvent := s.mc.evSent && match s.mc.receiver with | some (.smb, _) => true | _ => false
  if o.2 = 1 then pull
  else match n with
    | 2 => if s.rst.railsSeen then (if s.rst.rails then .high else .low) else .low
    | 3 => if s.rst.trip then .low else .highZ
    | 4 => if !reset && loaded && s.alert then .low else pull
    | 7 => if smbEvent then .low else pull
    | 10 => if s.twin.pulse then .low else .high
    | _ => pull

end Sys2Proof.Machine
end

