-- ==== Sys2Proof/Machine/Render.lean ====
section
/-! DEFINITION. Signed copies in the module NOR: their checks, the selection of a Render or firmware copy, phases 1 and 2 of option
loading, the security block's measurements, and the update of a Render image (R432–R443, R473–R482). -/

namespace Sys2Proof.Machine

open Sys2Proof

/-! ### The flash (R435) -/

/-- An erased byte of flash. -/
def norDefault (_ : Nat) : Byte := 0xFF

/-- Bytes of flash. -/
def State.norBytes (s : State) (a n : Nat) : List Byte := lookRun norDefault s.nor a n

/-- A range of flash erased. -/
def State.norErase (s : State) (a n : Nat) : State :=
  { s with nor := dropKeys (fun k => decide (a ≤ k) && decide (k < a + n)) s.nor }

/-- Bytes of flash programmed. -/
def State.norWrite (s : State) (a : Nat) (bs : List Byte) : State := { s with nor := putRun norDefault s.nor a bs }

/-- First byte and size of a copy: Render A 1, B 2, or firmware (R435). -/
def copyBase (fw : Bool) (c : Nat) : Nat × Nat :=
  if fw then (if c = 1 then 0x2000000 else 0x4000000, 0x2000000) else (if c = 1 then 0 else 0x1000000, 0x1000000)

/-- Reads of an object by offset and length. -/
abbrev Rd := Nat → Nat → List Byte

/-- A copy in flash as an object. -/
def State.copyRd (s : State) (fw : Bool) (c : Nat) : Rd := fun off n => s.norBytes ((copyBase fw c).1 + off) n

/-- An object held as a byte string. -/
def listRd (bs : List Byte) : Rd := fun off n => (bs.drop off).take n

/-- A little-endian doubleword of an object. -/
def dwAt (rd : Rd) (off : Nat) : Nat := fromBytes (rd off 8)

/-! ### The checks of a copy (R436–R438, R474, R476, R479) -/

/-- Length of the signature block (R436, R474). -/
def sigLen : Nat := 3373

/-- LEN, NSEC, SEQ and the two versions of a header. -/
def hdrLen (rd : Rd) : Nat := dwAt rd 0x10 % 2 ^ 32
def hdrNsec (rd : Rd) : Nat := dwAt rd 0x20 % 2 ^ 8
def hdrSeq (rd : Rd) : Nat := dwAt rd 0x08
def hdrVer (rd : Rd) : Nat := dwAt rd 0x18 % 2 ^ 16
def hdrMver (rd : Rd) : Nat := dwAt rd 0x18 / 2 ^ 48

/-- The checks of a header, with the reason of the first that fails (R438): magic and version, zero bits and NSEC, length, target. -/
def headReason (fw : Bool) (rd : Rd) : Nat :=
  let magic := if fw then 0x57465A4A else 0x52445A4A
  let w := dwAt rd 0x18
  let n := hdrNsec rd
  let zero := dwAt rd 0x10 / 2 ^ 32 == 0 && dwAt rd 0x20 / 2 ^ 8 == 0 && dwAt rd 0x28 == 0
    && (if fw then w / 2 ^ 41 % 2 ^ 7 == 0 else w / 2 ^ 41 == 0)
  let entry := if fw then 32 else 16
  let top := if fw then 33554432 else 16777216
  if dwAt rd 0 ≠ magic + 2 ^ 32 then 1
  else if !zero || n = 0 || decide (64 < n) then 8
  else if hdrLen rd < 0x50 + entry * n + sigLen ∨ top < hdrLen rd then 2
  else if w / 2 ^ 16 % 2 ^ 16 ≠ 0x2524 ∨ w / 2 ^ 32 % 2 ^ 8 ≠ 0xB1 ∨ (w.testBit 40 ∧ Config.eng = false) then 3
  else 0

/-- A directory entry: TYPE, CRIT, length, offset, load address and entry offset. -/
structure SecEnt where
  type : Nat
  crit : Bool
  len : Nat
  off : Nat
  load : Nat
  entry : Nat
  deriving DecidableEq, Repr

/-- The directory of an object (R436, R479). -/
def directory (fw : Bool) (rd : Rd) : List SecEnt :=
  (List.range (hdrNsec rd)).map fun i =>
    let a := 0x50 + (if fw then 32 else 16) * i
    let w := dwAt rd a
    { type := w % 2 ^ 16, crit := w.testBit 16, len := w / 2 ^ 32, off := dwAt rd (a + 8)
      load := if fw then dwAt rd (a + 16) else 0, entry := if fw then dwAt rd (a + 24) else 0 }

/-- Are sections aligned, inside their object and apart from each other (R436, R479)? -/
def sectionsApart (fw : Bool) (rd : Rd) (l : List SecEnt) : Bool :=
  let lo := 0x50 + (if fw then 32 else 16) * hdrNsec rd
  let hi := hdrLen rd - sigLen
  (l.all fun e => aligned 16 e.off && decide (lo ≤ e.off) && decide (e.off + e.len ≤ hi))
    && ((enumFrom 0 l).all fun (p : Nat × SecEnt) => (enumFrom 0 l).all fun (q : Nat × SecEnt) =>
      p.1 == q.1 || decide (p.2.off + p.2.len ≤ q.2.off) || decide (q.2.off + q.2.len ≤ p.2.off))

/-- The numbers a section of a Render image sets, if the image has one of that TYPE. -/
def sectionOf (rd : Rd) (t : Nat) : Option (List Nat) :=
  ((directory false rd).find? fun e => e.type == t).map fun e => Config.section_ t (rd e.off e.len)

/-- A list in threes. -/
def threes : List Nat → List (Nat × Nat × Nat)
  | a :: b :: c :: l => (a, b, c) :: threes l
  | _ => []

/-- The bits of a register that no field but RSV covers. -/
def rsvBits (r : RegName) : Word :=
  let k := regInfo r
  let ro := match r with | .STM_CFG => 0x7FFFF | .TT_CTL => 0x80FF000000000000 | .HBM_MRG => 0x20000 | .SEC_MREXT => 0x8 | _ => 0
  ~~~(BitVec.ofNat 64 k.rw ||| BitVec.ofNat 64 k.w1c ||| BitVec.ofNat 64 k.w1s ||| BitVec.ofNat 64 ro)

/-- Is an entry of the defaults section a write of a register with an RW field, RSV bits 0 (R437)? -/
def defaultOk (e : Nat × Nat × Nat) : Bool :=
  decide (e.1 < 25) && decide (e.2.1 < 0x1000000) &&
    match regAt (dieBase e.1 + e.2.1) with
    | some r => (regInfo r.name).rw != 0 && (BitVec.ofNat 64 e.2.2 &&& rsvBits r.name) == 0
    | none => false

/-- May a pin carry an override (R513)? -/
def pinMay (n : Nat) : Bool := n ∈ [4, 5, 6, 7, 8, 11]

/-- Do the gangs of a section 0x0006 hold the limits of R437? -/
def gangsOk (l : List Nat) : Bool :=
  let ng := l.getD 0 0
  let gs := (List.range ng).map fun g => l.drop (3 + 4 * g)
  let mem := gs.map fun x => x.getD 0 0
  decide (1 ≤ ng ∧ ng ≤ 4) && decide (l.getD 1 0 + l.getD 2 0 ≤ 49152)
    && (mem.all fun m => popN 24 m == 24 / ng && decide (m < 2 ^ 24))
    && (mem.foldl (fun a m => a ||| m) 0) == 2 ^ 24 - 1
    && gs.all fun x => (x.getD 0 0).testBit (x.getD 1 0 / 4) && decide (x.getD 1 0 < 96) && decide (x.getD 2 0 ≤ 1)
        && decide (1 ≤ x.getD 3 0 ∧ x.getD 3 0 ≤ 24 / ng)

/-- The limits of a section of a Render image (R437). -/
def sectionValueOk (t : Nat) (l : List Nat) : Bool :=
  match t with
  | 2 => ((l.take 25).all fun v => decide (v ≤ 300)) && ((l.drop 25).take 16).all fun v => decide (v ≤ 60)
  | 3 => decide ((threes l).length ≤ 64) && (threes l).all fun e => pinMay e.1 &&
      ((e.2.2 == 0 && decide (e.2.1 ≤ 2)) || (e.2.2 == 1 && decide (e.2.1 ≤ 7)))
  | 4 => decide (l.getD 0 0 ≤ 2) && decide (l.getD 1 0 ≤ 1)
  | 5 => decide (1 ≤ l.getD 0 0 ∧ l.getD 0 0 ≤ 262144) && decide (1 ≤ l.getD 1 0 ∧ l.getD 1 0 ≤ 65536)
  | 6 => gangsOk l
  | 7 => aligned (2 ^ 30) (l.getD 32 0) && aligned 65536 (l.getD 33 0) && decide (16 ≤ l.getD 34 0 ∧ l.getD 34 0 ≤ 32)
  | 8 => decide (1 ≤ l.getD 0 0 ∧ l.getD 0 0 ≤ 255)
  | 9 => (threes l).getD 2 (0, 100000, 0) |>.2.1 == 100000
  | 10 => decide ((threes l).length ≤ 256) && (threes l).all defaultOk
  | _ => true

/-- The structure and values of a Render image's sections, with the reason of a failure (R436, R437). -/
def renderSections (rd : Rd) : Nat :=
  let l := directory false rd
  let known := List.range' 1 10
  if !sectionsApart false rd l || !([1, 2, 4, 5, 6].all fun t => l.any fun e => e.type == t)
      || (known.any fun t => decide (1 < (l.filter fun e => e.type == t).length))
      || (l.any fun e => !known.contains e.type && e.crit) then 8
  else if known.all fun t => match sectionOf rd t with | some v => sectionValueOk t v | none => true then 0
  else 9

/-- The structure of a firmware copy's sections (R479): `mc` asks for a section of TYPE 2. -/
def fwSections (mc : Bool) (rd : Rd) : Nat :=
  let l := directory true rd
  let inStore := fun (e : SecEnt) => decide (0x101008000000 ≤ e.load) && decide (e.load + e.len ≤ 0x10107D000000)
  if !sectionsApart true rd l || (l.any fun e => !decide (1 ≤ e.type ∧ e.type ≤ 3))
      || (l.filter fun e => e.type == 1).length != 1 || (mc && !l.any fun e => e.type == 2)
      || (l.any fun e => e.type == 2 && (e.load != 0 || e.entry != 0)) then 8
  else if l.all fun e => e.type == 2 || inStore e then 0 else 9

/-- The signed bytes of an object (R474). -/
def signedBytes (rd : Rd) : List Byte := rd 0 (hdrLen rd - sigLen)

/-- The checks a copy passes after its header's (R438): digest, both signatures, rollback, sections. `mc` compares MVER with counter 2
and asks for a section of TYPE 2. -/
def State.bodyReason (s : State) (fw mc : Bool) (rd : Rd) : Nat :=
  let n := hdrLen rd - sigLen
  let g := s.keyGen
  let ver := if mc then hdrMver rd else hdrVer rd
  let ctr := if !fw then 0 else if mc then 2 else 1
  if sha3_256 (rd 0 0x30 ++ rd 0x50 (n - 0x50)) != rd 0x30 0x20 then 4
  else if !vendorEd g (rd 0 n) (rd n 64) then 5
  else if !vendorMl g (rd 0 n) (rd (n + 64) 3309) then 6
  else if ver < s.fld 24 .SEC_ARB 0 (8 * ctr + 7) (8 * ctr) then 7
  else if fw then fwSections mc rd else renderSections rd

/-- Every check of an object. -/
def State.fullReason (s : State) (fw mc : Bool) (rd : Rd) : Nat :=
  let h := headReason fw rd
  if h ≠ 0 then h else s.bodyReason fw mc rd

/-- What a selection finds: the copy in use, 0 none, and the reasons of A and B (R438). -/
structure Choice where
  slot : Nat := 0
  a : Nat := 0
  b : Nat := 0
  deriving DecidableEq, Repr

/-- R438 over the copies in flash: headers, then the copies by SEQ descending, A before B, up to the first that passes. -/
def State.selectCopy (s : State) (fw mc : Bool) : Choice :=
  let ra := s.copyRd fw 1
  let rb := s.copyRd fw 2
  let ha := headReason fw ra
  let hb := headReason fw rb
  let bFirst := ha ≠ 0 ∨ (hb = 0 ∧ hdrSeq ra < hdrSeq rb)
  let body (h : Nat) (rd : Rd) : Nat := if h ≠ 0 then h else s.bodyReason fw mc rd
  if bFirst then
    let b := body hb rb
    if b = 0 then ⟨2, if ha = 0 then 15 else ha, 0⟩
    else
      let a := body ha ra
      if a = 0 then ⟨1, 0, b⟩ else ⟨0, a, b⟩
  else
    let a := body ha ra
    if a = 0 then ⟨1, 0, if hb = 0 then 15 else hb⟩
    else
      let b := body hb rb
      if b = 0 then ⟨2, a, 0⟩ else ⟨0, a, b⟩

/-! ### Measurements (R482) -/

/-- A measurement register. -/
def State.mr (s : State) (i : Nat) : List Byte := (List.range 6).flatMap fun w => toBytes 8 (s.regW 24 .SEC_MR i w).toNat

/-- A measurement register extended by a value: MR ← SHA3-384(MR ‖ D). -/
def State.extend (s : State) (i : Nat) (d : List Byte) : State :=
  let h := sha3_384 (s.mr i ++ d)
  (List.range 6).foldl (fun s w => s.setRegW 24 .SEC_MR i w (BitVec.ofNat 64 (fromBytes ((h.drop (8 * w)).take 8)))) s

/-! ### Phases 1 and 2 (R432, R434, R438, R473, R483) -/

/-- The private seeds of the device identity, from the unique device secret (R483). -/
def identitySeed (info : String) : List Byte := hkdf 32 (bytesBy Config.uds 32) (infoBytes "JZ2524 identity") (infoBytes info)

/-- The device identity keys derived in phase 1 of a cold reset (R483). -/
def State.deriveIdentity (s : State) : State :=
  { s with sec := { s.sec with idEd := identitySeed "JZ2524 id ed25519", idMl := identitySeed "JZ2524 id mldsa65" } }

/-- Are the certificate valid and its keys those derived (R483, R484)? -/
def State.identityOk (s : State) : Bool :=
  certValid s.keyGen certBytes && edPublic s.sec.idEd == (certBytes.drop 0x40).take 32
    && mlPublic s.sec.idMl == (certBytes.drop 0x60).take 1952

/-- Phase 1 copies the fuses to the shadow registers that show them, and KEYGEN and KEYOK report the vendor keys they select (R473, R475). -/
def State.loadFuses (s : State) : State :=
  let s := (s.setReg 24 .SEC_DEVID 0 (regReset .SEC_DEVID 24 0)).setReg 24 .SEC_SERIAL 0 Config.serial
  let s := (List.range 4).foldl State.arbShadow s
  match keyGeneration s.fuses.keyhEd s.fuses.keyhMl with
  | some g => s.setFld 24 .SEC_STAT 0 2 0 (g + 4)
  | none => s.setFld 24 .SEC_STAT 0 2 0 0

/-- OPTION_PHASE1_END (R432, R473, R475, R482, R483, R489): the fuses are in their shadows and the vendor keys selected; the identity is derived and
checked, MR0 is extended; phase 2 begins and with it the Agdoa link. -/
def execOptionPhase1End (s : State) : Out :=
  done (if s.stopped || s.phase != 1 then s
    else
      let s := s.loadFuses.deriveIdentity
      let s := s.setFld 24 .SEC_STAT 0 3 3 (b2n s.identityOk)
      let s := if Config.eng then s.setFld 24 .SEC_DBG 0 2 0 7 else s
      let s := s.extend 0 (sha3_384 (toBytes 8 Config.romVersion.toNat ++ toBytes 8 (s.fld 24 .SEC_STAT 0 1 0) ++ toBytes 8 (s.reg 24 .SEC_DEVID 0).toNat
        ++ toBytes 8 (s.reg 24 .SEC_SERIAL 0).toNat))
      let s := (s.startPhase2).setFld 24 .RST_STAT 0 1 0 2
      s.updLink .agd fun k => { k with state := 1 })

/-- Option loading ends: PHASE reads 0, and the MC logs it (R432, R498). -/
def State.loadingEnds (s : State) : State :=
  let s := s.setFld 24 .RST_STAT 0 1 0 0
  s.mcLog 0x0002 0 24 (s.fld 24 .RND_STATUS 0 31 0) (s.reg 24 .RND_SEQ 0).toNat (s.reg 24 .SEC_FWSEL 0).toNat

/-- OPTION_PHASE2_END (R434, R438, R443, R482): the selection and its report; phase 3 begins, or NOIMG ends option loading. -/
def execOptionPhase2End (s : State) : Out :=
  done (if s.stopped || s.phase != 2 then s
    else
      let c := s.selectCopy false false
      let s := (s.setReg 24 .RND_SEQA 0 (BitVec.ofNat 64 (hdrSeq (s.copyRd false 1)))).setReg 24 .RND_SEQB 0
        (BitVec.ofNat 64 (hdrSeq (s.copyRd false 2)))
      let s := s.setReg 24 .RND_STATUS 0 (BitVec.ofNat 64 (c.slot + 2 ^ 2 * b2n (c.slot == 0) + 2 ^ 4 * c.a + 2 ^ 8 * c.b))
      if c.slot = 0 then s.loadingEnds
      else
        let rd := s.copyRd false c.slot
        let s := s.setReg 24 .RND_SEQ 0 (BitVec.ofNat 64 (hdrSeq rd))
        let s := { s with sec := { s.sec with rver := hdrVer rd } }
        (s.extend 1 (sha3_384 (signedBytes rd))).setFld 24 .RST_STAT 0 1 0 3)

/-! ### Updating the Render image (R441) -/

/-- Does a copy in flash pass verification (R438, R504): a firmware copy for both selections. -/
def State.copyPasses (s : State) (fw : Bool) (c : Nat) : Bool :=
  s.fullReason fw false (s.copyRd fw c) == 0 && (!fw || s.fullReason fw true (s.copyRd fw c) == 0)

/-- The copy that the state of the copies asks an update to write: 1 A or 2 B; `use` is the copy in use. Of two Render copies that both fail, the
SEQs are those RND_SEQA and RND_SEQB report (R441). -/
def State.targetBySeq (s : State) (fw : Bool) (use : Nat) : Nat :=
  let ra := s.copyRd fw 1
  let rb := s.copyRd fw 2
  let pa := s.copyPasses fw 1
  let pb := s.copyPasses fw 2
  let reported := !fw && !pa && !pb
  let qa := if reported then (s.reg 24 .RND_SEQA 0).toNat else hdrSeq ra
  let qb := if reported then (s.reg 24 .RND_SEQB 0).toNat else hdrSeq rb
  if pa && !pb then 2
  else if pb && !pa then 1
  else if qb < qa then 2
  else if qa < qb then 1
  else if pa && use = 1 then 2
  else 1

/-- The copy an update writes (R441 step 3, R504 step 1): of a Render image never the copy in use. -/
def State.updateTarget (s : State) (fw : Bool) (use : Nat) : Nat :=
  let t := s.targetBySeq fw use
  if !fw && t == use then 3 - t else t

/-- Is a SEQ above that of every copy in flash that passes verification (R441 step 2, R504 step 4)? -/
def State.seqAbove (s : State) (fw : Bool) (seq : Nat) : Bool :=
  [1, 2].all fun c => !s.copyPasses fw c || decide (hdrSeq (s.copyRd fw c) < seq)

/-- An update's result in RND_UPDSTAT (R443). -/
def State.updResult (s : State) (reason target : Nat) : State :=
  let s := ((s.setFld 24 .RND_UPDSTAT 0 0 0 0).setFld 24 .RND_UPDSTAT 0 1 1 (b2n (reason == 0))).setFld 24 .RND_UPDSTAT 0 5 2 reason
  let s := if target = 0 then s else s.setFld 24 .RND_UPDSTAT 0 8 7 target
  { s with upd := none }

/-- Steps 2 to 4 of R441 as far as the image can be read: its checks, the target chosen and erased. -/
def State.updRead (s : State) : State :=
  let n := s.fld 24 .RND_UPDLEN 0 24 0
  match s.devRead ⟨24, 11⟩ (.unit 24 14) 64 (s.fld 24 .RND_UPDADDR 0 47 12 * 4096) n with
  | (.wait, s) => s
  | (.ok bs, s) =>
    let rd := listRd bs
    let r := s.fullReason false false rd
    let r := if r = 0 ∧ hdrLen rd ≠ n then 2 else r
    if r ≠ 0 then s.updResult r 0
    else if !s.seqAbove false (hdrSeq rd) then s.updResult 10 0
    else
      let t := s.updateTarget false (s.fld 24 .RND_STATUS 0 1 0)
      { (s.norErase (copyBase false t).1 (copyBase false t).2) with upd := some { target := t, image := bs } }
  | (_, s) =>
    let f := s.freeNat
    f.2.updResult (f.1 % 9 + 1) 0

/-- RND_UPDCMD written (R441). -/
def State.wrUpdcmd (s : State) (v : Word) : State :=
  if !bit v 0 then s
  else if s.phase ≠ 0 ∨ s.flag 24 .RND_UPDSTAT 0 0 then s.setFld 24 .RND_UPDSTAT 0 6 6 1
  else
    let s := s.setFld 24 .RND_UPDSTAT 0 5 0 1
    ({ s with upd := some {} }).updRead

/-- RND_UPDCMD.GO (R441). -/
def execRndUpdcmd (q : Src) (s : State) : Out := regCmd q 24 .RND_UPDCMD 0 s fun s => s.wrUpdcmd 1

/-- RENDER_UPDATE_DONE (R441 steps 4 and 5): the image is written and read back well, or the read-back fails. -/
def execRenderUpdateDone (good : Bool) (s : State) : Out :=
  done (if s.stopped then s
    else
      let s := match s.upd with | some u => if u.target = 0 then s.updRead else s | none => s
      match s.upd with
      | none => s
      | some u =>
        if u.target = 0 then s
        else if good then
          let s := s.updResult 0 u.target |>.norWrite (copyBase false u.target).1 u.image
          { s with mc := { s.mc with pendSeq := setAt s.mc.pendSeq 0 (some (hdrSeq (listRd u.image))) } }
        else s.updResult 11 u.target)

end Sys2Proof.Machine
end

