-- ==== Sys2Proof/Machine/Sec.lean ====
section
/-! DEFINITION. The security block: rollback commits, measurement extensions, attestation and the debug unlock (R476–R490). -/

namespace Sys2Proof.Machine

open Sys2Proof

/-- The requester the security block and the MC are (R468). -/
def secReq : Req := ⟨24, 11⟩

/-- A refused SEC_ write (R477, R482, R485). -/
def State.secBad (s : State) : State := s.setFld 24 .SEC_STAT 0 6 6 1

/-- A source that may write SEC_ARB_CMD, SEC_MREXT and MC_WDKICK: a system core (R478, R494). -/
def srcSystem : Src → Bool
  | .core c => isSystem c
  | .host | .mc => false

/-- A register command only system cores may give: any other source gets an error response of code 3 (R459, R478, R494). -/
def sysCmd (q : Src) (r : RegName) (s : State) (f : State → State) : Out :=
  regCmd q 24 r 0 s fun s =>
    if srcSystem q then f s else s.errResponse 24 3 7 (srcReq q) (ctrlBase + regKey 24 r 0 0)

/-! ### Anti-rollback counters (R476, R477) -/

/-- The version of the object in use that bounds a counter (R477). -/
def State.verInUse (s : State) (c : Nat) : Nat :=
  match c with
  | 0 => if s.fld 24 .RND_STATUS 0 1 0 = 0 then 0 else s.sec.rver
  | 1 => if s.fld 24 .SEC_FWSEL 0 1 0 = 0 then 0 else s.sec.fver
  | 2 => if s.fld 24 .SEC_FWSEL 0 3 2 = 0 then 0 else s.sec.mver
  | _ => 64

/-- SEC_ARB_CMD written (R477). -/
def State.wrArbCmd (s : State) (v : Word) : State :=
  let c := bits v 1 0
  let t := bits v 8 2
  if !bit v 9 then s
  else if s.phase ≠ 0 ∨ s.flag 24 .SEC_ARB 0 32 ∨ t ≤ s.fuses.count c ∨ 64 < t ∨ (c < 3 ∧ s.verInUse c < t) then
    s.secBad
  else ({ s with sec := { s.sec with commit := some (c, t), stepAt := s.mctime + 100000 } }).setFld 24 .SEC_ARB 0 32 32 1

/-- SEC_ARB_CMD (R477, R478). -/
def execSecArbCmd (q : Src) (v : Word) (s : State) : Out := sysCmd q .SEC_ARB_CMD s fun s => s.wrArbCmd v

/-- The rest of a commit's steps is blown, and it ends (R477, R498). -/
def State.commitEnds (s : State) (c target : Nat) : State :=
  let s := ({ s with sec := { s.sec with commit := none } }).blowSteps c (target - s.fuses.count c)
  (s.setFld 24 .SEC_ARB 0 32 32 0).mcLog 0x000C 0 24 (s.fld 24 .SEC_ARB 0 31 0) 0 0

/-- Time passes over a commit: a step has been blown each 100 µs, and the last ends it (R477). -/
def State.commitTick (s : State) : State :=
  match s.sec.commit with
  | none => s
  | some (c, t) =>
    if s.mctime < s.sec.stepAt then s
    else if t ≤ s.fuses.count c + 1 then s.commitEnds c t
    else ({ s with sec := { s.sec with stepAt := s.mctime + 100000 } }).blowSteps c 1

/-- ARB_COMMIT_DONE (R477, R498): the steps are blown. -/
def execArbCommitDone (s : State) : Out :=
  done (match s.sec.commit with
    | none => s
    | some (c, t) => if s.stopped then s else s.commitEnds c t)

/-! ### Measurement extensions (R482) -/

/-- The extensions asked for, performed in order as far as their values have been read. -/
def State.runExts (s : State) : List (Nat × Nat) → State
  | [] => ({ s with sec := { s.sec with ext := [] } }).setFld 24 .SEC_STAT 0 5 5 0
  | (i, pa) :: l =>
    match s.devRead secReq (.unit 24 12) 64 pa 48 with
    | (.ok d, s) => (s.extend i d).runExts l
    | (.wait, s) => ({ s with sec := { s.sec with ext := (i, pa) :: l } }).setFld 24 .SEC_STAT 0 5 5 1
    | (.poison, s) => (s.poisonUsed 24 11 secReq pa 6).runExts l
    | (.err _, s) => s.runExts l

/-- SEC_MREXT written (R482): a refused write stores nothing. -/
def State.wrMrext (s : State) (v m : Word) : State :=
  let x := plainWrite (regInfo .SEC_MREXT) (s.reg 24 .SEC_MREXT 0) v m
  if bit (v &&& m) 3 && decide (bits x 2 0 < 4) then s.secBad
  else
  let s := s.setReg 24 .SEC_MREXT 0 x
  if !bit (v &&& m) 3 then s
  else s.runExts (s.sec.ext ++ [(s.fld 24 .SEC_MREXT 0 2 0, s.fld 24 .SEC_MREXT 0 47 8 * 256)])

/-- SEC_MREXT (R478, R482). -/
def execSecMrext (q : Src) (v : Word) (s : State) : Out := sysCmd q .SEC_MREXT s fun s => s.wrMrext v (BitVec.allOnes 64)

/-! ### Attestation (R485, R486) -/

/-- Bytes 0x000–0x1FF of a report, captured as the request starts (R485, R486). -/
def State.reportHead (s : State) : List Byte :=
  let arb := s.reg 24 .SEC_ARB 0
  let fw := s.reg 24 .SEC_FWSEL 0
  toBytes 4 0x54415A4A ++ toBytes 4 1 ++ toBytes 8 (s.reg 24 .SEC_SERIAL 0).toNat ++ toBytes 8 (s.reg 24 .SEC_DEVID 0).toNat
    ++ toBytes 8 (s.fld 24 .SEC_STAT 0 1 0 + 2 ^ 2 * s.fld 24 .SEC_DBG 0 2 0 + 2 ^ 16 * bits arb 31 0)
    ++ toBytes 8 (s.reg 24 .RND_SEQ 0).toNat
    ++ toBytes 8 (s.fld 24 .RND_STATUS 0 1 0 + 2 ^ 2 * bits fw 1 0 + 2 ^ 4 * bits fw 3 2)
    ++ toBytes 8 (s.reg 24 .SEC_FWSEQ 0).toNat ++ toBytes 8 (s.reg 24 .SEC_MCSEQ 0).toNat ++ toBytes 8 s.time
    ++ toBytes 8 (s.fld 24 .SEC_ATT_CTL 0 63 32 + 1) ++ List.replicate 0x30 0
    ++ (List.range 8).flatMap s.mr

/-- SEC_ATT_CTL written (R485). -/
def State.wrAttCtl (s : State) (v : Word) : State :=
  if !bit v 0 then s
  else if s.flag 24 .SEC_ATT_CTL 0 1 then s.secBad
  else if !s.flag 24 .SEC_STAT 0 3 then s.setFld 24 .SEC_ATT_CTL 0 3 2 3
  else
    let s := { s with sec := { s.sec with
      att := some s.reportHead, attIn := s.fld 24 .SEC_ATT_IN 0 47 7 * 128, attOut := s.fld 24 .SEC_ATT_OUT 0 47 12 * 4096 } }
    let s := (s.setFld 24 .SEC_ATT_CTL 0 1 1 1).setFld 24 .SEC_ATT_CTL 0 3 2 0
    (s.devAsk secReq (.unit 24 15) 64 (blocks s.sec.attIn 128)).2

/-- SEC_ATT_CTL (R485). -/
def execSecAttCtl (q : Src) (s : State) : Out := regCmd q 24 .SEC_ATT_CTL 0 s fun s => s.wrAttCtl 1

/-- A request's end (R485, R490). -/
def State.attEnds (s : State) (status : Nat) : State :=
  let s := if status = 1 then s.setFld 24 .SEC_ATT_CTL 0 63 32 (s.fld 24 .SEC_ATT_CTL 0 63 32 + 1) else s
  (({ s with sec := { s.sec with att := none } }).setFld 24 .SEC_ATT_CTL 0 1 1 0).setFld 24 .SEC_ATT_CTL 0 3 2 status

/-- ATTESTATION_DONE (R485, R486): the request is read, the report signed by the device identity keys and written. -/
def execAttestationDone (s : State) : Out :=
  done (match s.sec.att with
    | none => s
    | some head =>
      if s.stopped then s
      else match s.devRead secReq (.unit 24 15) 64 s.sec.attIn 128 with
        | (.wait, s) => s
        | (.err _, s) => s.attEnds 2
        | (.poison, s) => (s.poisonUsed 24 11 secReq s.sec.attIn 6).attEnds 2
        | (.ok req, s) =>
          let signed := head ++ req
          let sig := s.signPair signed
          match sig.2.devWrite secReq (.unit 24 15) 64 s.sec.attOut (signed ++ sig.1) false with
          | (.wait, s) => s
          | (.ok _, s) => s.attEnds 1
          | (_, s) => s.attEnds 2)

/-! ### Debug unlock (R488, R489) -/

/-- Length of a token (R488). -/
def tokenLen : Nat := 3437

/-- The reason the first failing check of a token gives, 0 when every check passes (R488). -/
def State.tokenReason (s : State) (t : List Byte) : Nat :=
  let chal := (List.range 4).flatMap fun i => toBytes 8 (s.reg 24 .SEC_DBG_CHAL i).toNat
  let w := fromBytes ((t.drop 0x30).take 8)
  let g := s.keyGen
  if fromBytes (t.take 8) ≠ 0x4B545A4A + 2 ^ 32 then 1
  else if fromBytes ((t.drop 8).take 8) ≠ (s.reg 24 .SEC_SERIAL 0).toNat then 2
  else if (t.drop 0x10).take 32 ≠ chal then 3
  else if w % 2 ^ 16 < s.fld 24 .SEC_ARB 0 31 24 then 4
  else if !vendorEd g (t.take 0x40) ((t.drop 0x40).take 64) then 5
  else if !vendorMl g (t.take 0x40) (t.drop 0x80) then 6
  else 0

/-- A token checked (R489). After LOCKOUT a submission is refused without a check. -/
def State.token (s : State) (t : List Byte) : State :=
  if s.flag 24 .SEC_DBG 0 8 then s.setFld 24 .SEC_DBG 0 10 9 2
  else
    let r := s.tokenReason t
    let s := s.newChallenge
    if r = 0 then
      let scope := fromBytes ((t.drop 0x30).take 8) / 2 ^ 16 % 8
      let s := (s.setFld 24 .SEC_DBG 0 2 0 (Nat.lor (s.fld 24 .SEC_DBG 0 2 0) scope)).setFld 24 .SEC_DBG 0 10 9 1
      (s.extend 0 (sha3_384 (t.take 0x40))).mcLog 0x000A 0 24 (s.fld 24 .SEC_DBG 0 31 0) 0 0
    else
      let n := s.fld 24 .SEC_DBG 0 7 4 + 1
      let s := (s.setFld 24 .SEC_DBG 0 7 4 n).setFld 24 .SEC_DBG 0 8 8 (b2n (decide (8 ≤ n)))
      (s.setFld 24 .SEC_DBG 0 10 9 2).setFld 24 .SEC_DBG 0 14 11 r

/-- A token's bytes read from memory and checked, once they can be read (R488). -/
def State.tokenFrom (s : State) (pa : Nat) : State :=
  match s.devRead secReq (.unit 24 13) 64 pa tokenLen with
  | (.wait, s) => { s with sec := { s.sec with tok := some pa } }
  | (.ok t, s) => ({ s with sec := { s.sec with tok := none } }).token t
  | (.poison, s) => ({ s with sec := { s.sec with tok := none } }).poisonUsed 24 11 secReq pa 6
  | (.err _, s) => { s with sec := { s.sec with tok := none } }

/-- SEC_DBG_CMD written (R488, R490). -/
def State.wrDbgCmd (s : State) (v m : Word) : State :=
  let s := s.setReg 24 .SEC_DBG_CMD 0 (plainWrite (regInfo .SEC_DBG_CMD) (s.reg 24 .SEC_DBG_CMD 0) v m &&& ~~~1)
  if !bit (v &&& m) 0 then s
  else if s.sec.tok.isSome then s.setFld 24 .SEC_DBG 0 10 9 3
  else s.tokenFrom (s.fld 24 .SEC_DBG_CMD 0 47 12 * 4096)

/-- The instruction the TAP selects: with SCOPE bit 0 at 0, any but IDCODE, BYPASS and TOKEN acts as BYPASS (R488). What another instruction does
once it is offered the spec does not say, and no command shifts one in (log entry 70). -/
def State.tapSelect (s : State) (i : TapInsn) : TapInsn := if i == .other && !s.flag 24 .SEC_DBG 0 0 then .bypass else i

/-- A token shifted into TOKEN: the board drives TRST_N high, without which the TAP stays in Test-Logic-Reset, and takes the TAP through Shift-IR and
Shift-DR back to Run-Test/Idle (R488, R517). -/
def State.tapToken (s : State) : State := { s with tap := { trst := true, state := .runTestIdle, insn := s.tapSelect .token } }

/-- TOKEN (R488, R489): 3,437 bytes shifted into the TAP, or those of memory that SEC_DBG_CMD names. One submitted in band whose bytes have not
come has lost to it: it is not checked, and LAST is 3. -/
def execToken (jtag : Bool) (data : List Byte) (s : State) : Out :=
  done (if s.stopped || data.length != tokenLen then s
    else
      let t := (if jtag then s.tapToken else s).token data
      if s.sec.tok.isSome then ({ t with sec := { t.sec with tok := none } }).setFld 24 .SEC_DBG 0 10 9 3 else t)

/-- Reads of the security block that waited are tried again: an answer has come. -/
def State.secRetry (s : State) : State :=
  let s := if s.sec.ext.isEmpty then s else s.runExts s.sec.ext
  match s.sec.tok with
  | some pa => s.tokenFrom pa
  | none => s

end Sys2Proof.Machine
end

