-- ==== Sys2Proof/Machine/Mc.lean ====
section
/-! DEFINITION. The management controller: sensors, watchdog, event log, MCTP and PLDM, images written through it, its mailbox
(R481, R491–R507). -/

namespace Sys2Proof.Machine

open Sys2Proof

/-- Is the MC up, or its boot ROM's recovery responder (R491, R506)? -/
def State.mcAlive (s : State) : Bool := !s.coldNow && s.fld 24 .MC_STAT 0 1 0 != 0

/-- Is the recovery responder up in the MC's place (R506)? -/
def State.mcRecov (s : State) : Bool := s.flag 24 .MC_STAT 0 1

/-! ### Selection of the MC firmware (R481, R506) -/

/-- MC_FIRMWARE_SELECTION (R479, R481, R482): once after phase 1 of each cold reset, which has derived the identity; the section is loaded into MC SRAM, from its first byte on
(DESIGN CHOICE, log entry 28: the spec gives no address in it). The log has been scanned, and MC_LOGHEAD names its newest entry
(R497, R507). -/
def execMcFirmwareSelection (s : State) : Out :=
  done (if s.coldNow || s.fld 24 .MC_STAT 0 1 0 != 0 || s.sec.idEd.isEmpty then s
    else
      let c := s.selectCopy true true
      let s := if s.mclog.next = 0 then s else s.setReg 24 .MC_LOGHEAD 0 (BitVec.ofNat 64 (s.mclog.next - 1))
      if c.slot = 0 then s.setFld 24 .MC_STAT 0 1 1 1
      else
        let rd := s.copyRd true c.slot
        let s := (s.setFld 24 .SEC_FWSEL 0 3 2 c.slot).setReg 24 .SEC_MCSEQ 0 (BitVec.ofNat 64 (hdrSeq rd))
        let code := (((directory true rd).filter fun e => e.type == 2).take 1).flatMap fun e => rd e.off e.len
        let s := { s with sec := { s.sec with mver := hdrMver rd }, mc := { s.mc with sram := code } }
        (s.extend 3 (sha3_384 (signedBytes rd))).setFld 24 .MC_STAT 0 0 0 1)

/-! ### Sensors (R493) -/

/-- Sensor IDs in order (R493). -/
def sensorIds : List Nat :=
  List.range' 0x0001 192 ++ List.range' 0x00C1 6 ++ List.range' 0x0101 16 ++ [0x0201, 0x0202] ++ List.range' 0x0301 25
    ++ List.range' 0x0321 16 ++ List.range' 0x0401 25 ++ List.range' 0x0421 16 ++ [0x0431, 0x0432]

/-- The die a sensor concerns: 24 when none (R493, R497). -/
def sensorDie (id : Nat) : Nat :=
  if id < 0x00C1 then (id - 1) / 8
  else if 0x0101 ≤ id ∧ id ≤ 0x0110 then stackDie (id - 0x0101)
  else if 0x0301 ≤ id ∧ id ≤ 0x0319 then id - 0x0301
  else if 0x0321 ≤ id ∧ id ≤ 0x0330 then stackDie (id - 0x0321)
  else if 0x0401 ≤ id ∧ id ≤ 0x0419 then id - 0x0401
  else if 0x0421 ≤ id ∧ id ≤ 0x0430 then stackDie (id - 0x0421)
  else 24

/-- A sample of a sensor: from its register, from the board, or unavailable while its die or stack is in reset or absent (R493). -/
def State.sampleOf (s : State) (given : List Sample) (id : Nat) : Option Nat :=
  let ext := (given.find? fun x => x.id.toNat == id).map fun x => x.value.toNat
  let die (v : Nat) : Option Nat := if s.stopped then none else some v
  let stack (d v : Nat) : Option Nat := if s.stopped || !s.flag d .HBM_STAT 0 0 then none else some v
  if id < 0x00C1 then die (s.fld ((id - 1) / 8) .THM_SENS ((id - 1) % 8) 7 0)
  else if id ≤ 0x00C6 then die (s.fld 24 .THM_SENS (id - 0x00C1) 7 0)
  else if 0x0101 ≤ id ∧ id ≤ 0x0110 then stack (stackDie (id - 0x0101)) (s.fld (stackDie (id - 0x0101)) .HBM_TEMP 0 7 0)
  else if id = 0x0201 then (if s.stopped then ext else some (s.fld 24 .PWR_VIN 0 15 0))
  else if 0x0301 ≤ id ∧ id ≤ 0x0319 then die (s.fld (id - 0x0301) .PWR_EST 0 15 0)
  else if 0x0321 ≤ id ∧ id ≤ 0x0330 then stack (stackDie (id - 0x0321)) (s.fld (stackDie (id - 0x0321)) .PWR_EST 0 31 16)
  else if 0x0401 ≤ id ∧ id ≤ 0x0419 then (if s.stopped then none else ext)
  else if 0x0421 ≤ id ∧ id ≤ 0x0430 then (if s.stopped || !s.flag (stackDie (id - 0x0421)) .HBM_STAT 0 0 then none else ext)
  else ext

/-- The thresholds of a sensor with their hysteresis: number (0–2 upper warning, critical, fatal; 3, 4 lower warning, fatal), limit,
hysteresis (R493). -/
def State.thresholds (s : State) (id : Nat) : List (Nat × Nat × Nat) :=
  let pct (v : Nat) : Nat := v * 2 / 100
  let rail (n : Nat) : List (Nat × Nat × Nat) := let v := Config.mcInfo (16 + n); [(0, v * 105 / 100, pct (v * 105 / 100)), (3, v * 95 / 100, pct (v * 95 / 100))]
  if id ≤ 0x00C6 then [(0, 97, 2), (1, 105, 2), (2, 110, 2)]
  else if id ≤ 0x0110 then [(0, 85, 2), (1, 90, 2), (2, 100, 2)]
  else if id = 0x0201 then [(1, 5800, 50), (3, 4400, 50), (4, 4000, 50)]
  else if id = 0x0202 then [(0, 4230, pct 4230), (1, 4500, pct 4500)]
  else if id ≤ 0x0319 then let c := s.fld (id - 0x0301) .PWR_CEIL 0 15 0; [(0, c, pct c)]
  else if id ≤ 0x0330 then let c := s.fld (stackDie (id - 0x0321)) .PWR_HCEIL 0 15 0; [(0, c, pct c)]
  else if id ≤ 0x0419 then rail (id - 0x0401)
  else if id ≤ 0x0430 then [(0, 420, pct 420), (3, 380, pct 380)]
  else rail (25 + id - 0x0431)

/-- The oldest sensor event is sent, when none awaits its acknowledgement (R502). -/
def State.evPump (s : State) : State :=
  match s.mc.receiver, s.mc.events with
  | some (b, eid), e :: _ => if s.mc.evSent then s else ({ s with mc := { s.mc with evSent := true } }).mcSend b (eid :: e)
  | _, _ => s

/-- A sensor event queued for the receiver: 256 wait at most, and the oldest is dropped (R502). -/
def State.evQueue (s : State) (e : List Nat) : State :=
  if s.mc.receiver.isNone then s
  else if 256 ≤ s.mc.events.length then
    ({ s with mc := { s.mc with events := s.mc.events.drop 1 ++ [e], evSent := false } }).evPump
  else ({ s with mc := { s.mc with events := s.mc.events ++ [e] } }).evPump

/-- One threshold of a sample: crossed, returned, or neither (R493). -/
def State.crossing (s : State) (id v : Nat) (t : Nat × Nat × Nat) : State :=
  let upper := decide (t.1 < 3)
  let was := s.mc.crossed.contains (id, t.1)
  let pass := if upper then decide (t.2.1 ≤ v) else decide (v < t.2.1)
  let back := if upper then decide (v + t.2.2 ≤ t.2.1) else decide (t.2.1 + t.2.2 ≤ v)
  if (!was && pass) || (was && back) then
    let rising := upper == pass
    let crossed := if was then s.mc.crossed.filter (· != (id, t.1)) else s.mc.crossed ++ [(id, t.1)]
    let s := { s with mc := { s.mc with crossed := crossed } }
    let s := s.mcLog 0x0004 0 (sensorDie id) (id + 2 ^ 16 * t.1 + 2 ^ 19 * b2n rising) v 0
    s.evQueue [id, t.1, b2n rising, v]
  else s

/-- SENSOR_SAMPLE (R493): every sensor is sampled and its thresholds looked at. -/
def execSensorSample (samples : List Sample) (s : State) : Out :=
  done (if !s.mcAlive || s.mcRecov then s
    else sensorIds.foldl (fun s id =>
      let v := s.sampleOf samples id
      let s := { s with mc := { s.mc with sensors := put (fun _ => none) s.mc.sensors id v } }
      match v with
      | some v => (s.thresholds id).foldl (fun s t => s.crossing id v t) s
      | none => s) s)

/-! ### The event log (R496–R499) -/

/-- The oldest entry of the queue programmed; the newest valid SEQ is reported (R499, R507). -/
def State.logProgram (s : State) (e : McEntry) (whole : Bool) : State :=
  let seq := s.mclog.next
  let s := { s with mclog := s.mclog.program e whole }
  if whole then s.setReg 24 .MC_LOGHEAD 0 (BitVec.ofNat 64 seq) else s

/-- LOG_ENTRY_WRITE (R496–R499); with a free slot again, the count of entries dropped is queued. -/
def execLogEntryWrite (whole : Bool) (s : State) : Out :=
  done (if s.coldNow || s.fld 24 .MC_STAT 0 1 0 == 0 then s
    else match s.mclog.queue with
      | [] => s
      | e :: l =>
        let s := ({ s with mclog := { s.mclog with queue := l } }).logProgram e whole
        if s.mclog.dropped = 0 then s
        else
          let n := s.mclog.dropped
          ({ s with mclog := { s.mclog with dropped := 0 } }).mcLog 0x000D 0 24 n (s.mclog.next + l.length) 0)

/-- CRC-32 of the IEEE 802.3 polynomial, bit by bit (R497). -/
def crcBits : Nat → Nat → Nat
  | 0, c => c
  | n + 1, c => crcBits n (if c % 2 = 1 then Nat.xor (c / 2) 0xEDB88320 else c / 2)

/-- CRC-32 of bytes. -/
def crc32 (bs : List Byte) : Nat := Nat.xor (bs.foldl (fun c b => crcBits 8 (Nat.xor c b.toNat)) 0xFFFFFFFF) 0xFFFFFFFF

/-- The 64 bytes of an entry (R497). -/
def FlashEntry.bytes (f : FlashEntry) : List Byte :=
  let e := f.e
  let body := toBytes 8 f.seq ++ toBytes 8 (e.boot % 2 ^ 32) ++ toBytes 8 e.mctime ++ toBytes 8 e.ftime
    ++ toBytes 8 (e.kind + 2 ^ 16 * e.sev + 2 ^ 18 * e.die + 2 ^ 32 * e.p0) ++ toBytes 8 e.p1 ++ toBytes 8 e.p2
  body ++ toBytes 8 (crc32 body + 2 ^ 56 * 0x5A)

/-- A valid entry by its SEQ. -/
def McLog.entry (l : McLog) (seq : Nat) : Option FlashEntry :=
  match look (fun _ => none) l.flash (seq % 65536) with
  | some f => if f.seq = seq ∧ f.torn = false then some f else none
  | none => none

/-! ### The watchdog and the MC's own timer (R492, R494, R495) -/

/-- The watchdog period in ns (R494, R507). -/
def State.wdPeriod (s : State) : Nat := max 1 (s.fld 24 .MC_WDCFG 0 31 16) * 1000000

/-- MC_WDCFG written: EN from 0 to 1 starts the count (R494). -/
def State.wrWdcfg (s : State) (v m : Word) : State :=
  let old := s.flag 24 .MC_WDCFG 0 0
  let s := s.setReg 24 .MC_WDCFG 0 (plainWrite (regInfo .MC_WDCFG) (s.reg 24 .MC_WDCFG 0) v m)
  let en := s.flag 24 .MC_WDCFG 0 0
  if en && !old then { s with mc := { s.mc with wd := some s.mctime, prewarned := false } }
  else if !en then { s with mc := { s.mc with wd := none } }
  else s

/-- MC_WDCFG_WRITE (R494). -/
def execMcWdcfgWrite (q : Src) (v : Word) (s : State) : Out := regCmd q 24 .MC_WDCFG 0 s fun s => s.wrWdcfg v (BitVec.allOnes 64)

/-- Has the watchdog's count run out (R494)? -/
def State.wdOut (s : State) : Bool := match s.mc.wd with | some t => decide (t + s.wdPeriod ≤ s.mctime) | none => false

/-- MC_WDKICK written with a source: the key from a system core restarts the count, anything else is refused. A kick that comes no earlier
than the expiry is too late (R494). -/
def State.wrWdkick (s : State) (v : Word) : State :=
  if s.flag 24 .MC_WDCFG 0 0 && bits v 31 0 == 0x4B434B49 && !s.wdOut then { s with mc := { s.mc with wd := some s.mctime, prewarned := false } } else s

/-- Is a write of MC_WDKICK accepted (R494)? -/
def kickOk (q : Src) (v : Word) : Bool := srcSystem q && bits v 31 0 == 0x4B434B49

/-- MC_WDKICK (R494). -/
def execMcWdkick (q : Src) (v : Word) (s : State) : Out :=
  regCmd q 24 .MC_WDKICK 0 s fun s =>
    if kickOk q v then s.wrWdkick v else s.errResponse 24 3 7 (srcReq q) (ctrlBase + regKey 24 .MC_WDKICK 0 0)

/-- WATCHDOG_PREWARNING (R109, R494): at half the period. -/
def execWatchdogPrewarning (s : State) : Out :=
  done (match s.mc.wd with
    | none => s
    | some t =>
      if s.mc.prewarned || decide (s.mctime < t + s.wdPeriod / 2) then s
      else
        let s := ({ s with mc := { s.mc with prewarned := true } }).mcLog 0x0005 0 24 1 0 0
        let c := s.fld 24 .MC_WDCFG 0 38 32
        match coreNo c with
        | some c => s.updCore c fun x => { x with prewarn := true }
        | none => s)

/-- WATCHDOG_EXPIRY (R494): at the full period the warm source asserts with reason 0x01. -/
def execWatchdogExpiry (s : State) : Out :=
  done (match s.mc.wd with
    | none => s
    | some t =>
      if s.mctime < t + s.wdPeriod then s
      else (({ s with mc := { s.mc with wd := none } }).mcLog 0x0005 0 24 2 0 0).assertSource 7 1)

/-- MC_HANG (R492): the boot ROM logs it and issues a cold request. -/
def execMcHang (s : State) : Out :=
  done (if s.coldNow || !s.flag 24 .MC_STAT 0 0 then s
    else
      (s.logNow 0x0005 0 24 3 0 0).assertSource 4 0xF0)

/-! ### Answers (R500–R503) -/

/-- Number of an answer's code. -/
def RCode.num : RCode → Nat
  | .success => 0 | .unsupportedCmd => 1 | .unsupportedPldmCmd => 2 | .alreadyInUpdateMode => 3 | .notInUpdateMode => 4
  | .unableToInitiateUpdate => 5 | .notReady => 6 | .selfContainedActivationNotPermitted => 7 | .invalidData => 8 | .unavailable => 9

/-- An answer on a binding. -/
def State.answer (s : State) (b : Bind) (code : RCode) (vals : List Nat) : State :=
  let k := match b with | .smb => 0 | .agd => 1
  ({ s with mc := { s.mc with reply := put (fun _ => none) s.mc.reply k (some { code := code, vals := vals }) } }).mcSend b (code.num :: vals)

/-- Does a binding reach the MC: the Agdoa link ACTIVE, the SMBus pins not held (R383, R500, R514)? -/
def State.mcReach (s : State) (b : Bind) : Bool :=
  s.mcAlive && match b with
    | .agd => (s.link .agd).state == 5
    | .smb => !s.pinHeld 5 && !s.pinHeld 6

/-- A request on a binding; `recov` tells whether the recovery responder serves it (R506). -/
def mcCmd (b : Bind) (recov : Bool) (s : State) (f : State → State) : Out :=
  done (if !s.mcReach b then s
    else if s.mcRecov && !recov then s.answer b .unsupportedPldmCmd []
    else f s)

/-- The binding's number. -/
def bindNo : Bind → Nat
  | .smb => 0
  | .agd => 1

/-- SET_ENDPOINT_ID (R500). -/
def execSetEndpointId (b : Bind) (eid : BitVec 8) (s : State) : Out :=
  mcCmd b true s fun s =>
    ({ s with mc := { s.mc with eid := put (fun _ => 0) s.mc.eid (bindNo b) eid.toNat } }).answer b .success [eid.toNat]

/-- GET_ENDPOINT_ID (R500). -/
def execGetEndpointId (b : Bind) (s : State) : Out :=
  mcCmd b true s fun s => s.answer b .success [look (fun _ => 0) s.mc.eid (bindNo b)]

/-- GET_ENDPOINT_UUID (R500). -/
def execGetEndpointUuid (b : Bind) (s : State) : Out := mcCmd b true s fun s => s.answer b .success [Config.mcInfo 0]

/-- GET_MCTP_VERSION_SUPPORT (R500). -/
def execGetMctpVersionSupport (b : Bind) (s : State) : Out := mcCmd b true s fun s => s.answer b .success [Config.mcInfo 1]

/-- GET_MESSAGE_TYPE_SUPPORT (R500): control and PLDM. -/
def execGetMessageTypeSupport (b : Bind) (s : State) : Out := mcCmd b true s fun s => s.answer b .success [0, 1]

/-- SETTID (R501). -/
def execSettid (b : Bind) (tid : BitVec 8) (s : State) : Out :=
  mcCmd b true s fun s => ({ s with mc := { s.mc with tid := tid.toNat } }).answer b .success []

/-- GETTID (R501). -/
def execGettid (b : Bind) (s : State) : Out := mcCmd b true s fun s => s.answer b .success [s.mc.tid]

/-- PLDM types served (R501, R506). -/
def State.pldmTypes (s : State) : List Nat := if s.mcRecov then [0, 5] else [0, 2, 5]

/-- GETPLDMVERSION (R501). -/
def execGetpldmversion (b : Bind) (ty : BitVec 8) (s : State) : Out :=
  mcCmd b true s fun s =>
    if s.pldmTypes.contains ty.toNat then s.answer b .success [Config.mcInfo (2 + ty.toNat)] else s.answer b .invalidData []

/-- GETPLDMTYPES (R501). -/
def execGetpldmtypes (b : Bind) (s : State) : Out := mcCmd b true s fun s => s.answer b .success s.pldmTypes

/-- The commands of a PLDM type that R501 lists, by their codes in the standards it names (PRESUMED from DSP0240, DSP0248 and DSP0267, log entry
70). -/
def pldmCommands (ty : Nat) : List Nat :=
  match ty with
  | 0 => [1, 2, 3, 4, 5]
  | 2 => [0x04, 0x05, 0x0A, 0x0D, 0x11, 0x50, 0x51]
  | _ => [0x01, 0x02, 0x10, 0x13, 0x14, 0x15, 0x16, 0x17, 0x18, 0x1A, 0x1B, 0x1C, 0x1D]

/-- GETPLDMCOMMANDS (R501). -/
def execGetpldmcommands (b : Bind) (ty : BitVec 8) (s : State) : Out :=
  mcCmd b true s fun s =>
    if s.pldmTypes.contains ty.toNat then s.answer b .success (pldmCommands ty.toNat) else s.answer b .invalidData []

/-- GETSENSORREADING (R493, R501). -/
def execGetsensorreading (b : Bind) (id : BitVec 16) (s : State) : Out :=
  mcCmd b false s fun s =>
    if !sensorIds.contains id.toNat then s.answer b .invalidData []
    else match look (fun _ => none) s.mc.sensors id.toNat with
      | some v => s.answer b .success [v]
      | none => s.answer b .unavailable []

/-- GETPDRREPOSITORYINFO (R501): a record for each sensor and the terminus locator. -/
def execGetpdrrepositoryinfo (b : Bind) (s : State) : Out := mcCmd b false s fun s => s.answer b .success [301]

/-- GETPDR (R501): handle 0 is the terminus locator, handle n the nth sensor's record with its thresholds. -/
def execGetpdr (b : Bind) (handle : BitVec 32) (s : State) : Out :=
  mcCmd b false s fun s =>
    let h := handle.toNat
    if h = 0 then s.answer b .success [0, s.mc.tid]
    else match sensorIds[h - 1]? with
      | some id => s.answer b .success (h :: id :: (s.thresholds id).flatMap fun t => [t.1, t.2.1])
      | none => s.answer b .invalidData []

/-- SETEVENTRECEIVER (R502). -/
def execSeteventreceiver (b : Bind) (on : Bool) (eid : BitVec 8) (s : State) : Out :=
  mcCmd b false s fun s =>
    let r := if on then some (b, eid.toNat) else none
    let s := { s with mc := { s.mc with receiver := r, evSent := false, events := if on then s.mc.events else [] } }
    (s.answer b .success []).evPump

/-- GETEVENTRECEIVER (R501). -/
def execGeteventreceiver (b : Bind) (s : State) : Out :=
  mcCmd b false s fun s =>
    s.answer b .success (match s.mc.receiver with | some (r, eid) => [1, bindNo r, eid] | none => [0])

/-- EVENTMESSAGEBUFFERSIZE (R501). -/
def execEventmessagebuffersize (b : Bind) (size : BitVec 16) (s : State) : Out :=
  mcCmd b false s fun s => ({ s with mc := { s.mc with bufSize := size.toNat } }).answer b .success [size.toNat]

/-- EVENT_RETRY (R502): a second has passed and the event is sent again. -/
def execEventRetry (s : State) : Out :=
  done (if s.mcAlive && s.mc.evSent then ({ s with mc := { s.mc with evSent := false } }).evPump else s)

/-- PLATFORM_EVENT_ACKNOWLEDGED (R502). -/
def execPlatformEventAcknowledged (s : State) : Out :=
  done (if s.mcAlive && s.mc.evSent then ({ s with mc := { s.mc with evSent := false, events := s.mc.events.drop 1 } }).evPump else s)

/-- QUERYDEVICEIDENTIFIERS (R503): the IANA enterprise descriptor, whose number the spec does not give, then the vendor-defined one. The descriptor
types are DSP0267's (PRESUMED, log entry 70). -/
def execQuerydeviceidentifiers (b : Bind) (s : State) : Out :=
  mcCmd b true s fun s => s.answer b .success [0x0001, Config.mcInfo 8, 0xFFFF, (s.reg 24 .SEC_DEVID 0).toNat, (s.reg 24 .SEC_SERIAL 0).toNat]

/-- GETFIRMWAREPARAMETERS (R503): of each component its classification and number, the SEQ in use, the SEQ pending plus 1, and the comparison stamp. -/
def execGetfirmwareparameters (b : Bind) (s : State) : Out :=
  mcCmd b true s fun s =>
    let one (c seq : Nat) : List Nat :=
      [0x000A, c, seq, match s.mc.pendSeq.getD (c - 1) none with | some n => n + 1 | none => 0, seq % 2 ^ 32]
    let fw := one 2 (s.reg 24 .SEC_FWSEQ 0).toNat
    s.answer b .success (if s.mcRecov then fw else one 1 (s.reg 24 .RND_SEQ 0).toNat ++ fw)

/-! ### Updates through the MC (R504–R506) -/

/-- MC_STAT.UPD kept in step with an update in progress. -/
def State.setUpd (s : State) (u : Option FwUpd) : State :=
  ({ s with mc := { s.mc with upd := u } }).setFld 24 .MC_STAT 0 2 2 (b2n u.isSome)

/-- A command of the agent of the update in progress. -/
def updCmd (b : Bind) (s : State) (f : State → FwUpd → State) : Out :=
  mcCmd b true s fun s =>
    match s.mc.upd with
    | some u => if u.agent = b then f s u else s.answer b .notInUpdateMode []
    | none => s.answer b .notInUpdateMode []

/-- REQUESTUPDATE (R504). -/
def execRequestupdate (b : Bind) (piece : BitVec 32) (s : State) : Out :=
  mcCmd b true s fun s =>
    if s.mc.upd.isSome then s.answer b .alreadyInUpdateMode []
    else (s.setUpd (some { agent := b, piece := max 1 (min 4096 piece.toNat) })).answer b .success []

/-- Is a component one of R503's that is served now (R506)? -/
def State.hasComp (s : State) (comp : Nat) : Bool := comp == 2 || (comp == 1 && !s.mcRecov)

/-- Does a stamp exceed SEQ[31:0] of every copy that passes verification (R504 step 2)? -/
def State.stampOk (s : State) (fw : Bool) (stamp : Nat) : Bool :=
  [1, 2].all fun c => !s.copyPasses fw c || decide (hdrSeq (s.copyRd fw c) % 2 ^ 32 < stamp)

/-- Would overwriting a firmware copy leave a selection that some copy passes now without one (R504 step 1)? -/
def State.wouldStrand (s : State) (target : Nat) : Bool :=
  [false, true].any fun mc =>
    let pass (c : Nat) : Bool := s.fullReason true mc (s.copyRd true c) == 0
    (pass 1 || pass 2) && !pass (3 - target)

/-- PASSCOMPONENTTABLE (R504): 1 when the component is updatable. -/
def execPasscomponenttable (b : Bind) (comp : BitVec 16) (stamp : BitVec 32) (s : State) : Out :=
  updCmd b s fun s _ =>
    s.answer b .success [b2n (s.hasComp comp.toNat && s.stampOk (comp.toNat == 2) stamp.toNat)]

/-- UPDATECOMPONENT (R504 steps 1 to 3): the target chosen and erased, the first piece requested. -/
def execUpdatecomponent (b : Bind) (comp : BitVec 16) (stamp size : BitVec 32) (s : State) : Out :=
  updCmd b s fun s u =>
    let c := comp.toNat
    let fw := c == 2
    let use := if fw then s.fld 24 .SEC_FWSEL 0 1 0 else s.fld 24 .RND_STATUS 0 1 0
    if !s.hasComp c then s.answer b .invalidData []
    else if !fw && (s.stopped || s.phase != 0 || s.flag 24 .RND_UPDSTAT 0 0) then s.answer b .notReady []
    else
      let t := s.updateTarget fw use
      if fw && s.wouldStrand t then s.answer b .unableToInitiateUpdate []
      else if !s.stampOk fw stamp.toNat || size.toNat < 0x50 || (copyBase fw t).2 < size.toNat then s.answer b .success [0]
      else
        let s := s.norErase (copyBase fw t).1 (copyBase fw t).2
        let s := if fw then s else s.setFld 24 .RND_UPDSTAT 0 5 0 1
        let s := s.setUpd (some { u with comp := c, target := t, size := size.toNat, next := 0, head := [], result := 0 })
        (s.answer b .success [1]).mcSend b [5, 0, min u.piece size.toNat]

/-- FIRMWARE_DATA_RECEIVED (R504 step 3): the header is held, every later byte goes into flash. -/
def execFirmwareDataReceived (data : List Byte) (s : State) : Out :=
  done (match s.mc.upd with
    | none => s
    | some u =>
      if !s.mcAlive || u.target = 0 || u.next = u.size || data.length != min u.piece (u.size - u.next) then s
      else
        let hd := data.take (0x50 - u.next)
        let body := data.drop (0x50 - u.next)
        let at_ := max 0x50 u.next
        let s := s.norWrite ((copyBase (u.comp == 2) u.target).1 + at_) body
        let next := u.next + data.length
        let s := s.setUpd (some { u with next := next, head := u.head ++ hd })
        if next < u.size then s.mcSend u.agent [5, next, min u.piece (u.size - next)] else s.mcSend u.agent [6, 0])

/-- The result of an update's last step (R504 steps 4 and 5): messages, the log's entry, RND_UPDSTAT; recovery ends in a cold
request. -/
def State.updFinish (s : State) (u : FwUpd) (reason seq : Nat) : State :=
  let s := if u.comp = 1 then s.updResult reason u.target else s
  let s := if reason = 0 then { s with mc := { s.mc with pendSeq := setAt s.mc.pendSeq (u.comp - 1) (some seq) } } else s
  let s := s.setUpd (some { u with comp := 0, target := 0, result := if reason = 0 then 2 else 1 })
  let s := (s.mcSend u.agent [7, reason]).logUpdate u.comp u.target reason seq
  if reason = 0 then
    let s := s.mcSend u.agent [8, 0]
    if s.mcRecov then s.assertSource 4 0xF1 else s
  else s

/-- UPDATE_VERIFY (R504 steps 4 and 5): after TransferComplete the checks, then the header and the read-back. -/
def execUpdateVerify (good : Bool) (s : State) : Out :=
  done (match s.mc.upd with
    | none => s
    | some u =>
      if !s.mcAlive || u.target = 0 || u.next != u.size then s
      else
        let fw := u.comp == 2
        let base := (copyBase fw u.target).1
        let rd := listRd (u.head ++ s.norBytes (base + 0x50) (u.size - 0x50))
        let r := s.fullReason fw false rd
        let r := if r = 0 ∧ fw then s.fullReason true true rd else r
        let r := if r = 0 ∧ hdrLen rd ≠ u.size then 2 else r
        let r := if r = 0 ∧ !s.seqAbove fw (hdrSeq rd) then 10 else r
        if r ≠ 0 then s.updFinish u r (hdrSeq rd)
        else if !good then s.updFinish u 11 (hdrSeq rd)
        else (s.norWrite base u.head).updFinish u 0 (hdrSeq rd))

/-- ACTIVATEFIRMWARE (R505): no reset follows. -/
def execActivatefirmware (b : Bind) (selfContained : Bool) (s : State) : Out :=
  updCmd b s fun s _ =>
    if selfContained then s.answer b .selfContainedActivationNotPermitted [] else (s.setUpd none).answer b .success []

/-- GETSTATUS (R501): update mode, component, target, bytes received, last result. -/
def execGetstatus (b : Bind) (s : State) : Out :=
  mcCmd b true s fun s =>
    s.answer b .success (match s.mc.upd with | some u => [1, u.comp, u.target, u.next, u.result] | none => [0])

/-- The component in transfer is given up: its target has no valid header (R504). -/
def State.dropComp (s : State) (u : FwUpd) : State :=
  if u.comp = 1 then s.setFld 24 .RND_UPDSTAT 0 0 0 0 else s

/-- CANCELUPDATECOMPONENT (R501, R504). -/
def execCancelupdatecomponent (b : Bind) (s : State) : Out :=
  updCmd b s fun s u => ((s.dropComp u).setUpd (some { u with comp := 0, target := 0, result := 1 })).answer b .success []

/-- CANCELUPDATE (R501, R504). -/
def execCancelupdate (b : Bind) (s : State) : Out :=
  updCmd b s fun s u => ((s.dropComp u).setUpd none).answer b .success []

/-! ### The mailbox (R507) -/

/-- A mailbox command's result. -/
def State.mcRes (s : State) (res n : Nat) : State :=
  ({ s with mc := { s.mc with cmd := none } }).setReg 24 .MC_CMDSTAT 0 (BitVec.ofNat 64 (res + 2 ^ 16 * n))

/-- Records written one after another to a buffer, up to the first error: how many, and what the last came to. -/
def State.mcWrite (s : State) (pa : Nat) : List (List Byte) → Nat → (Acc Unit × Nat) × State
  | [], n => ((.ok (), n), s)
  | r :: l, n =>
    match s.devWrite secReq (.unit 24 12) 64 pa r false with
    | (.ok _, s) => s.mcWrite (pa + r.length) l (n + 1)
    | (a, s) => ((a, n), s)

/-- The records a mailbox command writes: log entries from SEQ MC_ARG, torn and erased ones skipped, or the sensors in ID order. An
unavailable sensor's value is a free value. -/
def State.mcRecords (s : State) (op count : Nat) : List (List Byte) :=
  if op = 1 then
    (List.range count).filterMap fun i => (s.mclog.entry ((s.reg 24 .MC_ARG 0).toNat + i)).map FlashEntry.bytes
  else sensorIds.map fun id =>
    toBytes 2 id ++ toBytes 2 ((look (fun _ => none) s.mc.sensors id).getD (Config.freeNat (s.free + id)))

/-- A mailbox command goes on as far as its buffer takes it. -/
def State.mcRun (s : State) (op count : Nat) : State :=
  let rs := s.mcRecords op count
  let s := if op = 3 then { s with free := s.free + 0x500 } else s
  match s.mcWrite (s.fld 24 .MC_ADDR 0 47 6 * 64) rs 0 with
  | ((.ok _, n), s) => s.mcRes 1 n
  | ((.wait, _), s) => ({ s with mc := { s.mc with cmd := some (op, count) } }).setReg 24 .MC_CMDSTAT 0 4
  | ((_, n), s) => s.mcRes 3 n

/-- MC_CMD written (R507). The recovery responder serves no mailbox command: it is refused (R506). -/
def State.wrMcCmd (s : State) (v : Word) : State :=
  if !bit v 4 || s.flag 24 .MC_CMDSTAT 0 2 || !s.mcAlive then s
  else if s.mcRecov then s.mcRes 2 0
  else
    let n := bits v 31 16
    match bits v 3 0 with
    | 1 => if 1 ≤ n ∧ n ≤ 4096 then s.mcRun 1 n else s.mcRes 2 0
    | 2 => let r := bits v 15 8; if r = 1 ∨ 0xF0 ≤ r then s.mcRes 2 0 else s.assertSource 4 r
    | 3 => s.mcRun 3 0
    | _ => s.mcRes 2 0

/-- May a source write MC_CMD: a system core or the host (R507)? -/
def mcCmdOk (q : Src) : Bool := match q with | .core c => isSystem c | .host => true | .mc => false

/-- A mailbox command given by a write of MC_CMD (R507). -/
def mailbox (q : Src) (v : Word) (s : State) : Out :=
  regCmd q 24 .MC_CMD 0 s fun s =>
    if mcCmdOk q then s.wrMcCmd v else s.errResponse 24 3 7 (srcReq q) (ctrlBase + regKey 24 .MC_CMD 0 0)

/-- LOGREAD (R507). -/
def execLogread (q : Src) (count : BitVec 16) (s : State) : Out := mailbox q (BitVec.ofNat 64 (1 + 16 + 2 ^ 16 * count.toNat)) s
/-- COLD (R422, R507). -/
def execCold (q : Src) (reason : BitVec 8) (s : State) : Out := mailbox q (BitVec.ofNat 64 (2 + 16 + 2 ^ 8 * reason.toNat)) s
/-- SENSORS (R507). -/
def execSensors (q : Src) (s : State) : Out := mailbox q (BitVec.ofNat 64 (3 + 16)) s

/-- A mailbox command that waited is tried again. -/
def State.mcRetry (s : State) : State :=
  match s.mc.cmd with
  | some (op, n) => s.mcRun op n
  | none => s

end Sys2Proof.Machine
end

