-- ==== Sys2Proof/Machine/Ctrl.lean ====
section
/-! DEFINITION. Control register space: what a read and a write of each register does, for cores and for the host, and the packets
of the Agdoa link that reach memory, registers and the MC (R4, R5, R26, R27, R372–R376, R383, R384, R434). -/

namespace Sys2Proof.Machine

open Sys2Proof

/-! ### Registers -/

/-- A read of SCR_BYTES of a side (R28): at least one byte for each packet sent out of it since the last read; how many bytes a packet has, and what
other traffic went out while time passed and the port was up, is not stated, so that the count grows by a free number (log entry 59). -/
def State.rdScrBytes (s : State) (d side : Nat) (r : RegName) : Word × State :=
  let x := look (fun _ => (0, 0)) s.sent (4 * d + side)
  let more := s.flag d .SCR_PORT_STAT 0 side && x.2 != s.mctime
  let n := if more || x.1 != 0 then s.freeNat else (0, s)
  let s := { n.2 with sent := put (fun _ => (0, 0)) n.2.sent (4 * d + side) (0, n.2.mctime) }.countReg d r 0 (x.1 + n.1)
  (s.reg d r 0, s)

/-- A register of fabric time, of a queue whose read pops it, or another, read by software (R4, R5). -/
def State.readReg (s : State) (r : RegRef) : Word × State :=
  if r.name = .TT_TIME then (BitVec.ofNat 64 s.time, s)
  else if r.name = .SCR_BYTES_N then s.rdScrBytes r.die 0 r.name
  else if r.name = .SCR_BYTES_E then s.rdScrBytes r.die 1 r.name
  else if r.name = .SCR_BYTES_S then s.rdScrBytes r.die 2 r.name
  else if r.name = .SCR_BYTES_W then s.rdScrBytes r.die 3 r.name
  else if r.name = .ERR_HEAD then s.rdErrHead r.die
  else if r.name = .STM_NEXTF then s.rdNextf
  else if r.name = .FQ_HEAD then s.rdFqHead
  else if r.name = .TRW_WQ then s.rdWq r.i
  else (s.regW r.die r.name r.i r.w, s)

/-- A descriptor MXE_AG(i) written: 48–63 are the gang control's, and one outside AM is stored with V = 0 (R212, R213). -/
def State.wrMxeAg (s : State) (d i : Nat) (v m : Word) : State :=
  if 48 ≤ i then s
  else
    let x := plainWrite (regInfo .MXE_AG) (s.reg d .MXE_AG i) v m
    let bad := bits x 31 16 = 0 ∨ 49152 < bits x 15 0 + bits x 31 16
    s.setReg d .MXE_AG i (if bad then setBit x 63 false else x)

/-- A write of a register's bits under the mask of an access (R4, R5, R27): the registers with an effect of their own, and the others.
An answer of false is an access refused with code 3 (R478, R494, R507). -/
def State.writeReg (s : State) (q : Src) (r : RegRef) (v m : Word) : Bool × State :=
  let d := r.die
  let c := v &&& m
  let old := s.regW d r.name r.i r.w
  let full := (old &&& ~~~m) ||| c
  match r.name with
  | .RST_CTL => (true, s.wrRstCtl c)
  | .RST_BLK => (true, s.wrRstBlk d c)
  | .RST_RUN => (true, s.wrRstRun d c)
  | .RND_UPDCMD => (true, s.wrUpdcmd c)
  | .SEC_ARB_CMD => if srcSystem q then (true, s.wrArbCmd c) else (false, s)
  | .SEC_MREXT => if srcSystem q then (true, s.wrMrext v m) else (false, s)
  | .SEC_ATT_CTL => (true, s.wrAttCtl c)
  | .SEC_DBG_CMD => (true, s.wrDbgCmd v m)
  | .MC_WDCFG => (true, s.wrWdcfg v m)
  | .MC_WDKICK => if kickOk q c then (true, s.wrWdkick c) else (false, s)
  | .MC_CMD => if mcCmdOk q then (true, s.wrMcCmd c) else (false, s)
  | .TRW_EPOCH_BUMP => (true, if bit c 0 && s.epochMay q then s.epochBump else s)
  | .FQ_CMD => (true, s.wrFqCmd c)
  | .STM_CMD => (true, s.wrStmCmd c)
  | .SYN_OP => (true, s.wrSynOp c)
  | .TT_CMP => (true, s.wrTtTime .TT_CMP r.i full)
  | .TT_PER => (true, s.wrTtTime .TT_PER r.i full)
  | .TT_CTL => (true, s.wrTtCtl r.i v m)
  | .TRW_WDONE => (true, s.wrWdone c)
  | .TRW_FLUSH => (true, s.wrFlush c)
  | .TRW_MFAULT => (true, s.wrMfault c)
  | .GNG_READMIT => (true, s.wrGngReadmit r.i c)
  | .FTQ_CMD => (true, s.wrFtqCmd d c)
  | .MXE_AG => (true, s.wrMxeAg d r.i v m)
  | .HBM_MRG => (true, s.wrHbmMrg d v m)
  | .PMAP_PEND => (true, s.wrPmapPend r.i c)
  | .AGD_LCTL => (true, s.wrAgdLctl v m)
  | .TWN_CMD => (true, s.wrTwnCmd c)
  | .TWN_STN_FREE => (true, s.wrStnFree full)
  | .TWN_RCMD => (true, s.wrRcmd v m)
  | .HWK_CTL => (true, s.wrHwkCtl v m)
  | n => (true, s.setRegW d n r.i r.w (plainWrite (regInfo n) old v m))

/-- Does an offset of control space lie in the HBM_ block of an inland die, which is fused off (R9, R459)? -/
def hbmFused (off : Nat) : Bool :=
  let die := (Target.ctrl off).die
  off / 0x10000 % 0x100 == 0x17 && die != 24 && !isEdgeDie die

/-- What an access to control space comes to before it reaches its register: the register, or an error code with its die (R20, R26, R27,
R434). -/
def State.ctrlTarget (s : State) (q : Req) (host : Bool) (pa n : Nat) : RegRef ⊕ Nat × Nat :=
  match s.decodePA pa with
  | .ctrl off =>
    let die := (Target.ctrl off).die
    match s.downOn q.die die false with
    | some d => .inr (5, d)
    | none =>
      if (n ≠ 4 ∧ n ≠ 8) ∨ pa % n ≠ 0 then .inr (3, die)
      else if host && !s.hostMay die (off / 0x10000 % 0x100) then .inr (3, die)
      else match regAt (off - off % 8) with
        | none => .inr (if hbmFused off then 3 else 2, die)
        | some r => .inl r
  | _ => .inr (3, 24)

/-- Does an access to control space wait for ports on its way to train (R429)? -/
def State.ctrlBusy (s : State) (q : Req) (pa : Nat) : Bool :=
  let die := (s.decodePA pa).die
  (s.downOn q.die die false).isNone && s.pathBusy q.die die

/-- A read of control space of 4 or 8 bytes (R27); it takes effect at the register even if its response is lost (R20). -/
def State.ctrlRead (s : State) (q : Src) (pa n : Nat) : Acc Word × State :=
  let rq := srcReq q
  if s.ctrlBusy rq pa then (.wait, s.noteWait rq pa)
  else
    match s.ctrlTarget rq (q == .host) pa n with
    | .inr (code, die) => (s.endWait rq pa).refused rq code die 7 pa
    | .inl r =>
      let x := ((s.endWait rq pa).travel rq.die r.die).readReg r
      if x.2.rspDown rq pa then (.err 7, x.2.rspLost rq pa)
      else (.ok (if n = 8 then x.1 else if pa % 8 = 0 then zext 32 x.1 else x.1 >>> 32), x.2)

/-- A write of control space of 4 or 8 bytes (R27). -/
def State.ctrlWrite (s : State) (q : Src) (pa n : Nat) (v : Word) : Acc Unit × State :=
  let rq := srcReq q
  if s.ctrlBusy rq pa then (.wait, s.noteWait rq pa)
  else
    match s.ctrlTarget rq (q == .host) pa n with
    | .inr (code, die) => (s.endWait rq pa).refused rq code die 7 pa
    | .inl r =>
      let hi := n = 4 ∧ pa % 8 = 4
      let m := if n = 8 then BitVec.allOnes 64 else if hi then maskBits 63 32 else maskBits 31 0
      match ((s.endWait rq pa).travel rq.die r.die).writeReg q r (if hi then v <<< 32 else v) m with
      | (true, t) => if t.rspDown rq pa then (.err 7, t.rspLost rq pa) else (.ok (), t)
      | (false, s) => s.refused rq 3 r.die 7 pa

/-- REGISTER_WRITE (R27). -/
def execRegisterWrite (q : Src) (addr : BitVec 48) (data : List Byte) (s : State) : Out :=
  done (if !s.srcUp q || !srcMay q (addr.toNat / 0x10000 % 0x100) then s else (s.ctrlWrite q addr.toNat data.length (BitVec.ofNat 64 (fromBytes data))).2)

/-! ### Host packets (R372–R376, R383, R384) -/

/-- The host as a requester (R468). -/
def hostReq : Req := ⟨24, 8⟩

/-- Completions formed and not yet sent: the host's requests that are still outstanding (R374). -/
def State.cplsOut (s : State) : List Pkt := (s.link .agd).wait.filter fun p => p.type == 0x20

/-- Is a tag of a request in use by another that is outstanding (R374)? -/
def State.tagUsed (s : State) (tag : Nat) : Bool := s.cplsOut.any fun p => p.tag == tag

/-- Is an access of n bytes at a well formed (R373)? -/
def pktOk (a n : Nat) : Bool := decide (1 ≤ n ∧ n ≤ 4096) && decide (a % 4096 + n ≤ 4096)

/-- May the host reach the memory at an address now (R375, R434)? -/
def State.hostMem (s : State) (pa : Nat) (write : Bool) : Bool :=
  match s.decodePA pa with
  | .host _ _ | .twin _ => false
  | .ksram => s.phase == 0 && (write || !s.confined)
  | _ => !s.confined

/-- Does a host access to the K-die SRAM window wait for the fill of phase 2 to end (R527)? -/
def State.hostHolds (s : State) (t : Target) : Bool := t == .ksram && s.phase == 2

/-- A host write performed at its home (R375). -/
def State.hostWrite (s : State) (pa : Nat) (data : List Byte) : Acc Unit × State :=
  match s.decodePA pa with
  | .ctrl _ => s.ctrlWrite .host pa data.length (BitVec.ofNat 64 (fromBytes data))
  | t =>
    if s.hostHolds t then (.wait, s)
    else if !s.hostMem pa true then (.err 3, s.errResponse t.die 3 8 hostReq pa)
    else s.devWriteBlock hostReq .none 64 pa data false

/-- MWR (R372, R373, R375, R376). -/
def execMwr (tag : BitVec 14) (addr : BitVec 48) (ackreq : Bool) (data : List Byte) (s : State) : Out :=
  let n := data.length
  let pa := addr.toNat
  if s.stopped || (s.link .agd).state != 5 then done s
  else if !pktOk pa n then
    let s := s.malformed .agd 0x10 (1 + (n + 15) / 16)
    done (if ackreq then s.sendCpl tag.toNat 3 [] else s)
  else if ackreq && s.tagUsed tag.toNat then done ((s.owe .agd 0 (1 + (n + 15) / 16)).sendCpl tag.toNat 4 [])
  else
    match (s.owe .agd 0 (1 + (n + 15) / 16)).hostWrite pa data with
    | (.wait, _) => done s
    | (a, s) => done (if !ackreq then s else s.sendCpl tag.toNat (match a with | .ok _ => 0 | _ => 1) [])

/-- Lines of a host read in turn: an error response over poison, poison over data (R460, R464). -/
def State.hostLines (s : State) : List Piece → Acc Bool × State
  | [] => (.ok false, s)
  | p :: ps =>
    match s.plainRead hostReq p.pa p.n with
    | (.ok _, s) => s.hostLines ps
    | (.poison, s) =>
      match s.hostLines ps with
      | (.ok _, s) => (.ok true, s)
      | r => r
    | (.err c, s) => (.err c, s)
    | (.wait, s) => (.wait, s)

/-- A host read: status and data, or nothing while its home cannot serve it (R374, R375). -/
def State.hostRead (s : State) (pa n : Nat) : Acc (Nat × List Byte) × State :=
  match s.decodePA pa with
  | .ctrl _ =>
    match s.ctrlRead .host pa n with
    | (.ok v, s) => (.ok (0, (toBytes 8 v.toNat).take n), s)
    | (.wait, s) => (.wait, s)
    | (_, s) => (.ok (1, []), s)
  | t =>
    if s.hostHolds t then (.wait, s)
    else if !s.hostMem pa false then (.ok (1, []), s.errResponse t.die 3 8 hostReq pa)
    else match s.hostLines (lines pa n) with
      | (.ok p, s) => let r := s.asRead pa (s.bytes pa n); (.ok (if p then 2 else 0, r.1), if p then r.2.poisonUsed 24 8 hostReq pa 7 else r.2)
      | (.wait, s) => (.wait, s)
      | (_, s) => (.ok (1, []), s)

/-- MRD (R372–R375): of up to 4,096 outstanding; a further one waits in its receive buffer. -/
def execMrd (tag : BitVec 14) (addr : BitVec 48) (n : Nat) (s : State) : Out :=
  let pa := addr.toNat
  if s.stopped || (s.link .agd).state != 5 then done s
  else if !pktOk pa n then done ((s.malformed .agd 0x11 1).sendCpl tag.toNat 3 [])
  else if s.tagUsed tag.toNat then done ((s.owe .agd 0 1).sendCpl tag.toNat 4 [])
  else if 4096 ≤ s.cplsOut.length then done s
  else
    match (s.owe .agd 0 1).hostRead pa n with
    | (.ok (st, data), s) => done (s.sendCpl tag.toNat st data)
    | _ => done s

/-- Device reads that waited for an answer go on (R482, R488, R507). -/
def State.retryReads (s : State) : State := s.secRetry.mcRetry

/-- CPL (R374, R461, R462): matched to its DRD by tag; one whose DRD timed out, or that has none, is an orphan. -/
def execCpl (tag : BitVec 14) (status : BitVec 4) (data : List Byte) (s : State) : Out :=
  if s.stopped || (s.link .agd).state != 5 then done s
  else
    let s := s.owe .agd 1 (1 + (data.length + 15) / 16)
    match s.drds.find? fun d => d.tag == tag.toNat && d.ans.isNone && !d.held with
    | none => done (s.logSomewhere 24 0x06 0 8 ⟨24, 8⟩ false 0)
    | some d =>
      if d.own == Own.none then done ({ s with drds := s.drds.erase d }.logErr 24 0x06 0 8 ⟨24, 8⟩ (some d.pa) false 0)
      else
        let st := if status = 0 ∧ data.length ≠ d.n then 3 else status.toNat
        done ({ s with drds := s.drds.map fun e => if e == d then { e with ans := some (st, data) } else e }).retryReads

/-- An MCTP packet of the host in the MC's hands (R383, R500, R501). A request that R500 and R501 serve is a row of its own; any other control
command or PLDM command is answered with its error, and a message of another type is discarded. The places of message type, instance ID and
command in the packet are DSP0236's and DSP0240's (PRESUMED, log entry 70). -/
def State.mctpIn (s : State) (data : List Byte) : State :=
  let b (i : Nat) : Nat := (data.getD i 0).toNat
  if !s.mcReach .agd || b 5 < 128 then s
  else
    let s := { s with mc := { s.mc with inst := put (fun _ => 0) s.mc.inst (bindNo .agd) (b 5 % 32) } }
    match b 4 % 128 with
    | 0 => if [1, 2, 3, 4, 5].contains (b 6) then s else s.answer .agd .unsupportedCmd [b 5 % 32]
    | 1 =>
      if s.pldmTypes.contains (b 6 % 64) && (pldmCommands (b 6 % 64)).contains (b 7) then s
      else s.answer .agd .unsupportedPldmCmd [b 5 % 32]
    | _ => s

/-- MGMT (R372, R383): the packet carries an MCTP packet to the MC. -/
def execMgmt (data : List Byte) (s : State) : Out :=
  let n := data.length
  done (if s.stopped || (s.link .agd).state != 5 then s
    else if n < 5 ∨ 256 < n then s.malformed .agd 0x40 (1 + (n + 15) / 16)
    else (s.owe .agd 3 (1 + (n + 15) / 16)).mctpIn data)

/-- RESET (R384): a warm reset, once the next flit has taken the ACK that covers it; any other is discarded and logged. -/
def execReset (a : BitVec 32) (b : Word) (s : State) : Out :=
  done (if s.stopped || (s.link .agd).state != 5 then s
    else if a.toNat = 0x5752 ∧ b = 0 then (s.updLink .agd Link.idle).assertSource 6 0
    else s.malformed .agd 0x5F 1)

end Sys2Proof.Machine
end

