-- ==== Sys2Proof/Machine/Apply.lean ====
section
/-! DEFINITION. Phase 3 of option loading: the sections of the Render copy in use applied in order, the firmware loaded, S0 started
(R352–R354, R357, R430, R437, R440, R479, R480). -/

namespace Sys2Proof.Machine

open Sys2Proof

/-- Scrim section: every die's routes, and its ports train (R14, R28, R440). -/
def State.applyScrim (s : State) (l : List Nat) : State :=
  let v := l.getD 0 0 % 2 + 2 * (l.getD 1 0 % 2)
  (List.range 25).foldl (fun s d => (s.setReg d .SCR_ROUTE 0 (BitVec.ofNat 64 v)).portsUp d) s

/-- Power section: each ceiling (R437, R440). -/
def State.applyPower (s : State) (l : List Nat) : State :=
  let s := (List.range 25).foldl (fun s d => s.setReg d .PWR_CEIL 0 (BitVec.ofNat 64 (l.getD d 0 % 2 ^ 16))) s
  (List.range 16).foldl (fun s k => s.setReg (stackDie k) .PWR_HCEIL 0 (BitVec.ofNat 64 (l.getD (25 + k) 0 % 2 ^ 16))) s

/-- Pins section (R440, R514). -/
def State.applyPins (s : State) (l : List Nat) : State :=
  { s with rst := { s.rst with pins := (threes l).foldl (fun m e => put noPin m e.1 (e.2.1, e.2.2)) s.rst.pins } }

/-- The mask of the channels of a list in word j of a Patch map. -/
def chMask (l : List Nat) (j : Nat) : Nat := (l.filter fun c => c / 64 == j).foldl (fun v c => Nat.lor v (2 ^ (c % 64))) 0

/-- The channels an initial Patch map, the fences and the training failures take out (R352). -/
def State.patchMap (s : State) (mask : List Nat) (failed : List Nat) (j : Nat) : Nat :=
  Nat.lor (Nat.lor (mask.getD j 0 % 2 ^ 64) (s.reg 24 .PMAP_PEND j).toNat) (chMask failed j)

/-- The channels of a stack. -/
def stackChans (k : Nat) : List Nat := List.range' (16 * k) 16

/-- Memory section (R342, R352–R354, R357, R440): the Patch map and what it fixes; HBM kept or zero-filled; tile stores zero. The channels of a
stack that tripped train only if its readout is below 85 °C (R455); where phase 3 had been interrupted, one tripped stack keeps none (R433). -/
def State.applyMemory (s : State) (l failed : List Nat) : State :=
  let hot := s.rst.tripped.filter fun k => decide (85 ≤ look (fun _ => 0) s.supply.heat k)
  let failed := (List.range 256).filter fun c => failed.contains c || (hot.flatMap stackChans).contains c
  let gran := l.getD 0 0
  let hash := l.getD 1 0
  let map := (List.range 4).map fun j => s.patchMap (l.drop 2) failed j
  let s := (List.range 4).foldl (fun s j =>
    (s.setReg 24 .PMAP_OUT j (BitVec.ofNat 64 (map.getD j 0))).setReg 24 .PMAP_TRAIN j (BitVec.ofNat 64 (chMask failed j))) s
  let a := s.activeCh.length
  let s := s.setReg 24 .HBM_MAP 0 (BitVec.ofNat 64 (gran + 2 ^ 2 * hash + 2 ^ 8 * a))
  let s := s.setReg 24 .HBM_CAP 0 (BitVec.ofNat 64 (a * 4831838208))
  let s := failed.foldl (fun s c => let d := stackDie (c / 16); s.logErr d 0x0C 2 5 ⟨d, 5⟩ none false c) s
  let same := s.rst.mapBefore == some ([gran, hash] ++ map) && !s.rst.fillBegun
  let kept (k : Nat) : Bool := same && !(if s.rst.cut then !s.rst.tripped.isEmpty else s.rst.tripped.contains k)
  let filled (a : Nat) : Bool := decide (a < hbmEnd) && match s.decodePA a with | .hbm ch _ => !kept (ch / 16) | _ => true
  let s := { s with mem := dropKeys filled s.mem, poison := dropKeys filled s.poison }
  (List.range 16).foldl (fun s k =>
    let d := stackDie k
    let out := map.getD (k / 4) 0 / 2 ^ (16 * (k % 4)) % 2 ^ 16
    let up := (List.range 16).any fun c => !failed.contains (16 * k + c)
    let w := b2n up + 2 ^ 4 * b2n (kept k) + 2 ^ 5 * b2n s.supply.warn + 2 ^ 6 * (65535 - out)
    (s.setReg d .HBM_STAT 0 (BitVec.ofNat 64 w)).stackStep k) s

/-- Streams section (R437). -/
def State.applyStreams (s : State) (l : List Nat) : State :=
  (s.setFld 24 .STM_CFG 0 18 0 (l.getD 0 0)).setFld 24 .SYN_CFG 0 16 0 (l.getD 1 0)

/-- Gangs section (R265, R437): ACTIVE is MEMBERS. -/
def State.applyGangs (s : State) (l : List Nat) : State :=
  let ng := l.getD 0 0
  let s := s.setReg 24 .GNG_GLOBAL 0 (BitVec.ofNat 64 (ng + 2 ^ 8 * l.getD 1 0 + 2 ^ 24 * l.getD 2 0))
  (List.range ng).foldl (fun s g =>
    let x := l.drop (3 + 4 * g)
    let v := x.getD 0 0 + 2 ^ 24 * x.getD 1 0 + 2 ^ 31 * x.getD 2 0 + 2 ^ 32 * x.getD 3 0 + 2 ^ 63
    (s.setReg 24 .GNG_CFG g (BitVec.ofNat 64 v)).setFld 24 .GNG_STAT g 23 0 (x.getD 0 0)) s

/-- Twin section (R395, R437): the group's 32 bytes, then SKIM, STN base, LOG and MOFS; the twin link then trains when the partner is
present (R393, R440). -/
def State.applyTwin (s : State) (l : List Nat) : State :=
  let s := { s with twin := { s.twin with group := some ((l.take 32).map fun v => BitVec.ofNat 8 v) } }
  let s := s.setReg 24 .TWN_SKIM 0 (BitVec.ofNat 64 (l.getD 32 0 % 2 ^ 48))
  let s := s.setReg 24 .TWN_STN 0 (BitVec.ofNat 64 (l.getD 33 0 % 2 ^ 48 + 2 ^ 48 * (l.getD 34 0 % 64)))
  s.setReg 24 .TWN_STN_MOFS 0 (BitVec.ofNat 64 (l.getD 35 0 % 2 ^ 39))

/-- The twin link's training begins when TWIN_PRESENT_N is low (R393, R440). -/
def State.twinStart (s : State) : State :=
  if s.twinHere then (s.updLink .twn fun k => { k with state := 1 }).setFld 24 .TWN_STAT 0 2 0 1 else s

/-- Pairs of a list. -/
def pairs : List Nat → List (Nat × Nat)
  | a :: b :: l => (a, b) :: pairs l
  | _ => []

/-- Cartridge section (R416, R437). -/
def State.applyCart (s : State) (l : List Nat) : State :=
  let s := s.setReg 24 .HWK_POLICY 0 (BitVec.ofNat 64 (l.getD 0 0 % 256 + 2 ^ 8 * (l.getD 1 0 % 256)))
  { s with hawk := { s.hawk with ranges := some (pairs ((l.drop 2).take 32)) } }

/-- Triggers section: triggers 240–255; RSV bits read 0 (R4, R311, R337, R437). Trigger 244 stays as a supply warning has set it while one stands
(R450; DESIGN CHOICE, log entry 27). -/
def State.applyTriggers (s : State) (l : List Nat) : State :=
  (enumFrom 240 ((threes l).take 16)).foldl (fun s e =>
    if e.1 == 244 && s.supply.warn then s else
    let c := (s.setReg 24 .TT_CMP e.1 (BitVec.ofNat 64 e.2.1)).setReg 24 .TT_PER e.1 (BitVec.ofNat 64 e.2.2.1)
    c.setReg 24 .TT_CTL e.1 ((BitVec.ofNat 64 e.2.2.2 &&& (maskBits 3 0 ||| maskBits 55 16)) ||| BitVec.ofNat 64 (2 ^ 63))) s

/-- Defaults section: register writes in entry order (R437, R440). -/
def State.applyDefaults (s : State) (l : List Nat) : State :=
  (threes l).foldl (fun s e =>
    match regAt (dieBase e.1 + e.2.1) with
    | some r => (s.writeReg .host r (BitVec.ofNat 64 e.2.2) (BitVec.allOnes 64)).2
    | none => s) s

/-- A section applied where the image has it. -/
def State.applyOne (s : State) (rd : Rd) (t : Nat) (f : State → List Nat → State) : State :=
  match sectionOf rd t with
  | some l => f s l
  | none => s

/-- Firmware load and the start of S0 (R430, R480, R482), or NOFW. -/
def State.loadFirmware (s : State) : State :=
  let c := s.selectCopy true false
  let s := s.setReg 24 .SEC_FWSEL 0 (BitVec.ofNat 64 (c.slot + 2 ^ 2 * s.fld 24 .SEC_FWSEL 0 3 2 + 2 ^ 4 * c.a + 2 ^ 8 * c.b))
  if c.slot = 0 then s.setFld 24 .SEC_STAT 0 4 4 1
  else
    let rd := s.copyRd true c.slot
    let dir := directory true rd
    let s := s.setReg 24 .SEC_FWSEQ 0 (BitVec.ofNat 64 (hdrSeq rd))
    let s := { s with sec := { s.sec with fver := hdrVer rd } }
    let s := (dir.filter fun e => e.type != 2).foldl (fun s e => s.homeWrite e.load (rd e.off e.len) false) s
    let s := s.extend 2 (sha3_384 (signedBytes rd))
    match dir.find? fun e => e.type == 1 with
    | some e => (s.setReg 24 .RST_START 0 (BitVec.ofNat 64 ((e.load + e.entry) % 2 ^ 52))).startCore ⟨96, by decide⟩
    | none => s

/-- OPTION_PHASE3_END (R432, R440): the copy in use is applied, step by step; `failed` are the channels that failed training. -/
def execOptionPhase3End (failed : List Nat) (s : State) : Out :=
  done (if s.stopped || s.phase != 3 then s
    else
      let rd := s.copyRd false (s.fld 24 .RND_STATUS 0 1 0)
      let s := s.applyOne rd 1 State.applyScrim
      let s := s.applyOne rd 2 State.applyPower
      let s := s.applyOne rd 3 State.applyPins
      let s := s.applyOne rd 4 fun s l => s.applyMemory l failed
      let s := s.applyOne rd 5 State.applyStreams
      let s := s.applyOne rd 6 State.applyGangs
      let s := (s.applyOne rd 7 State.applyTwin).twinStart
      let s := (s.applyOne rd 8 State.applyCart).updLink .hwk fun k => { k with state := 1 }
      let s := s.applyOne rd 9 State.applyTriggers
      let s := s.applyOne rd 10 State.applyDefaults
      let s := s.loadFirmware
      let s := { s with rst := { s.rst with mapBefore := none, tripped := [], fillBegun := false, cut := false } }
      s.loadingEnds)

end Sys2Proof.Machine
end

