-- ==== Sys2Proof/Machine/Operands.lean ====
section
/-! DEFINITION. A core's operands: general registers with their load shadows, segment registers, the fields of a first instruction
word (R29–R31, R41–R43, R52, R96, R153, R216). -/

namespace Sys2Proof.Machine

open Sys2Proof

/-! ### General registers and load shadows (R29, R41–R43) -/

/-- What a general register holds, its load shadow aside; g0 is zero (R29). -/
def Core.raw (x : Core) (g : Greg) : Word := if g = 0 then 0 else look (fun _ => 0) x.gpr g.toNat

/-- The oldest shadow that covers a register: its value before the earliest load still shadowed is what a read sees (R43). -/
def oldestShadow (g : Greg) (l : List Shadow) : Option Shadow := (l.filter fun h => h.reg == g).getLast?

/-- What an instruction reads from a general register (R29, R42, R43). -/
def Core.gread (x : Core) (g : Greg) : Word :=
  if g = 0 then 0
  else match oldestShadow g x.lsh with
    | some h => h.old
    | none => x.raw g

/-- A write of a general register: g0 discards it, and later readers see it (R29, R43). -/
def Core.gwrite (x : Core) (g : Greg) (v : Word) : Core :=
  if g = 0 then x else { x with gpr := put (fun _ => 0) x.gpr g.toNat v, lsh := x.lsh.filter fun h => h.reg != g }

/-- A scalar load's write: the register holds the value, and the next two instructions read `old`, the one before it (R41–R43). The count
starts at 3, since the load's own retirement counts it down. -/
def Core.loadWrite (x : Core) (g : Greg) (v old : Word) : Core :=
  if g = 0 then x
  else { x with
    gpr := put (fun _ => 0) x.gpr g.toNat v
    lsh := { reg := g, old, was := x.raw g, left := 3, ip := x.ip, lc := x.lc } :: x.lsh }

/-- A general register of a core as an instruction reads it. -/
def State.greg (s : State) (c : CoreId) (g : Greg) : Word := (s.core c).gread g

/-- A general register of a core written. -/
def State.setG (s : State) (c : CoreId) (g : Greg) (v : Word) : State := s.updCore c fun x => x.gwrite g v

/-- A general register of a core written by a scalar load. Of a register whose shadow from an earlier load is still open, R43 skips the second
load alone for a reader in its shadow alone, which gives the earlier load's value, and R73 retains the value from before both: which of the
two is kept is free (DESIGN CHOICE, log entry 44). -/
def State.setGLoad (s : State) (c : CoreId) (g : Greg) (v : Word) : State :=
  let x := s.core c
  if x.lsh.any fun h => h.reg == g then
    let first := s.freeBool
    first.2.updCore c fun x => x.loadWrite g v (if first.1 then x.gread g else x.raw g)
  else s.updCore c fun x => x.loadWrite g v (x.raw g)

/-! ### Segment registers, ring and status -/

/-- A segment register (R96, R98). -/
def Core.sgOf (x : Core) (n : Nat) : SegReg := look SegReg.flat x.sg n

/-- A segment register as the instruction in progress accesses memory through it: a mode-shadow instruction through sg0 under the old
one (R97). -/
def Core.sgNow (x : Core) (n : Nat) : SegReg :=
  match x.oldMode with
  | some m => if n = 0 then m.sg0 else x.sgOf n
  | none => x.sgOf n

/-- A segment register replaced. -/
def Core.setSg (x : Core) (n : Nat) (g : SegReg) : Core := { x with sg := put SegReg.flat x.sg n g }

/-- The current ring (R93). -/
def Core.ring (x : Core) : Nat := bits x.status 1 0
/-- STATUS.IM. -/
def Core.im (x : Core) : Bool := bit x.status 2
/-- STATUS.LP. -/
def Core.lp (x : Core) : Bool := bit x.status 3
/-- STATUS.SS. -/
def Core.ss (x : Core) : Bool := bit x.status 4

/-- Loop start, end and count of a level (R46). -/
def Core.lsOf (x : Core) (n : Nat) : Word := look (fun _ => 0) x.ls n
/-- LEn. -/
def Core.leOf (x : Core) (n : Nat) : Word := look (fun _ => 0) x.le n
/-- LCn. -/
def Core.lcOf (x : Core) (n : Nat) : Word := look (fun _ => 0) x.lc n

/-! ### First words (R31, R153, R216, R278) -/

/-- Format A. -/
def wordA (op : Nat) (gd ga gb : Greg) (fn : Nat) : Nat :=
  op * 2 ^ 26 + gd.toNat * 2 ^ 20 + ga.toNat * 2 ^ 14 + gb.toNat * 2 ^ 8 + fn
/-- Format I. -/
def wordI (op : Nat) (gd ga : Greg) (imm : BitVec 14) : Nat := op * 2 ^ 26 + gd.toNat * 2 ^ 20 + ga.toNat * 2 ^ 14 + imm.toNat
/-- Format U. -/
def wordU (op : Nat) (gd : Greg) (imm : BitVec 20) : Nat := op * 2 ^ 26 + gd.toNat * 2 ^ 20 + imm.toNat
/-- Format M. -/
def wordM (op : Nat) (gt ga : Greg) (sg : Sreg) (disp : BitVec 11) : Nat :=
  op * 2 ^ 26 + gt.toNat * 2 ^ 20 + ga.toNat * 2 ^ 14 + sg.toNat * 2 ^ 11 + disp.toNat
/-- Format X. -/
def wordX (op : Nat) (gt ga gb : Greg) (sg : Sreg) (ctl : Nat) : Nat :=
  op * 2 ^ 26 + gt.toNat * 2 ^ 20 + ga.toNat * 2 ^ 14 + gb.toNat * 2 ^ 8 + sg.toNat * 2 ^ 5 + ctl
/-- Format B. -/
def wordB (op : Nat) (ga gb : Greg) (disp : BitVec 14) : Nat := op * 2 ^ 26 + ga.toNat * 2 ^ 20 + gb.toNat * 2 ^ 14 + disp.toNat
/-- Format J. -/
def wordJ (op : Nat) (disp : BitVec 26) : Nat := op * 2 ^ 26 + disp.toNat
/-- Format L. -/
def wordL (op : Nat) (n : BitVec 2) (gc : Greg) (disp : BitVec 18) : Nat :=
  op * 2 ^ 26 + n.toNat * 2 ^ 24 + gc.toNat * 2 ^ 18 + disp.toNat
/-- Format S. -/
def wordS (g : Greg) (code : BitVec 12) (fn : Nat) : Nat := 0x2C * 2 ^ 26 + g.toNat * 2 ^ 20 + code.toNat * 2 ^ 8 + fn
/-- The first word of a vector instruction (R153). -/
def wordV (op fn : Nat) (f : VFields) : Nat :=
  op * 2 ^ 26 + f.vd.toNat * 2 ^ 20 + f.va.toNat * 2 ^ 14 + f.vb.toNat * 2 ^ 8 + f.form.toNat * 2 ^ 6 + fn

/-- The second word of a vector instruction (R153). -/
def wordV2 (f : VFields) : Nat :=
  f.mkr.toNat * 2 ^ 29 + b2n f.me * 2 ^ 28 + b2n f.z * 2 ^ 27 + f.sg.toNat * 2 ^ 24 + f.ga.toNat * 2 ^ 18 + f.gb.toNat * 2 ^ 12 + f.imm.toNat

/-- The first word of a tile, engine or gang instruction (R216). -/
def wordT (op fn : Nat) (f : TFields) : Nat :=
  op * 2 ^ 26 + fn * 2 ^ 20 + f.ta.toNat * 2 ^ 17 + f.tb.toNat * 2 ^ 14 + f.td.toNat * 2 ^ 11 + b2n f.add * 2 ^ 10 + b2n f.fin * 2 ^ 9
    + f.rsv0.toNat

/-- The second word of a tile, engine or gang instruction (R216). -/
def wordT2 (f : TFields) : Nat :=
  f.ga.toNat * 2 ^ 26 + f.gb.toNat * 2 ^ 20 + f.sg.toNat * 2 ^ 17 + b2n f.rsv1 * 2 ^ 16 + f.imm.toNat

/-- The first word of a Glaze instruction (R278). -/
def wordG (fn : Nat) (f : GFields) : Nat := 0x3C * 2 ^ 26 + fn * 2 ^ 20 + f.slot.toNat * 2 ^ 16 + f.gd.toNat * 2 ^ 10 + f.rsv0.toNat

/-- The second word of a Glaze instruction (R278). -/
def wordG2 (f : GFields) : Nat :=
  f.ga.toNat * 2 ^ 26 + f.gb.toNat * 2 ^ 20 + f.sg.toNat * 2 ^ 17 + b2n f.rsv1 * 2 ^ 16 + f.imm.toNat

/-! ### Effective addresses (R52, R164) -/

/-- The offset of format M: ga + sext(disp11) modulo 2⁶⁴ (R52). -/
def Core.eaM (x : Core) (ga : Greg) (disp : BitVec 11) : Word := x.gread ga + sx disp

/-- The offset of LDX and STX: ga + (gb << ctl[4:3]) modulo 2⁶⁴ (R52). -/
def Core.eaX (x : Core) (ga gb : Greg) (ctl : BitVec 5) : Word := x.gread ga + (x.gread gb <<< (ctl.toNat / 8))

/-- The base offset of a vector memory instruction: g[GA] + sext(IMM12) (R164). -/
def Core.eaV (x : Core) (f : VFields) : Word := x.gread f.ga + sx f.imm

end Sys2Proof.Machine
end

