-- ==== Sys2Proof/Machine/CoreMem.lean ====
section
/-! DEFINITION. A core's accesses to memory: the segment check, translation with TLB and walk cache, the data cache, the decode
before a store retires, and what loads, stores and atomics do at their homes (R53–R58, R78–R88, R99, R100, R123–R130). -/

namespace Sys2Proof.Machine

open Sys2Proof

/-- An exception: its vector, EXINFO.INFO and EADDR (R106). -/
structure Exc where
  vec : Nat
  info : Nat := 0
  eaddr : Word := 0
  deriving DecidableEq, Repr

/-- What a checked access of a core came to: its result, an exception, or nothing yet. -/
inductive CRes (α : Type) where
  | ok (a : α)
  | exc (e : Exc)
  | wait
  deriving DecidableEq, Repr

/-- The kinds of access, coded as EXINFO does (R106). -/
inductive AKind where
  | read | write | fetch | atomic
  deriving DecidableEq, Repr

/-- The code of a kind (R106). -/
def AKind.code : AKind → Nat
  | .read => 0 | .write => 1 | .fetch => 2 | .atomic => 3

/-- Does an access write (R127)? -/
def AKind.writes : AKind → Bool
  | .write | .atomic => true
  | _ => false

/-! ### The segment check (R99, R100) -/

/-- May the segment be read? -/
def SegReg.readable (g : SegReg) : Bool := g.type == 3 || ((g.type == 1 || g.type == 2) && g.r)
/-- May the segment be written? -/
def SegReg.writable (g : SegReg) : Bool := g.type == 3 || (g.type == 2 && g.w)

/-- Does the segment's TYPE allow a kind of access (R99)? -/
def SegReg.allows (g : SegReg) : AKind → Bool
  | .read => g.readable
  | .write => g.writable
  | .fetch => g.type == 1
  | .atomic => g.readable && g.writable

/-- The check of an access of n bytes at offset o through segment register sg at a ring (R99), with 0x0E in place of its exceptions
for a stack (R100). -/
def segCheck (g : SegReg) (sg : Nat) (k : AKind) (ring : Nat) (o : Word) (n : Nat) : Option Exc :=
  let base := sg + 8 * k.code
  let stack := g.type == 3
  if g.null then some (if stack then ⟨0x0E, base, o⟩ else ⟨0x05, base + 2 ^ 5, o⟩)
  else if !g.allows k then some (if stack then ⟨0x0E, base + 2 ^ 8, o⟩ else ⟨0x04, base, o⟩)
  else if (if k = .fetch then g.ring ≠ ring else g.ring < ring) then
    some (if stack then ⟨0x0E, base + 2 ^ 5 + 2 ^ 9, o⟩ else ⟨0x04, base + 2 ^ 5, o⟩)
  else if g.limit < o.toNat + n - 1 then some (if stack then ⟨0x0E, base + 3 * 2 ^ 8, o⟩ else ⟨0x03, base, o⟩)
  else none

/-! ### The data cache (R55, R78, R83) -/

/-- A core's copy of a line of memory, if the data cache holds it. -/
def Core.line (x : Core) (n : Nat) : Option (List Byte) := (x.dcache.find? fun e => e.1 == n).map (·.2)

/-- A line added to a cache of n lines; in a full one any line is replaced (R528). -/
def State.addLine (s : State) (n : Nat) (l : Sparse (List Byte)) (k : Nat) (v : List Byte) : Sparse (List Byte) × State :=
  if l.length < n ∨ (l.any fun e => e.1 == k) = true then (put (fun _ => []) l k v, s)
  else
    match s.choose (l.map (·.1)) with
    | (some d, s) => (put (fun _ => []) (dropKeys (· == d) l) k v, s)
    | (none, s) => (l, s)

/-- A line of memory copied into a core's data cache of 128 KiB; one with a poisoned unit is not kept (R55). -/
def State.fillLine (s : State) (c : CoreId) (pa : Nat) : State :=
  let a := pa - pa % 64
  if s.anyPoison a 64 then s
  else
    let r := s.addLine 2048 (s.core c).dcache (a / 64) (s.bytes a 64)
    r.2.updCore c fun x => { x with dcache := r.1 }

/-- Bytes of a line replaced where a core's data cache holds the line: stores write through (R55). -/
def Core.updLine (x : Core) (pa : Nat) (bs : List Byte) : Core :=
  match x.line (pa / 64) with
  | none => x
  | some l => { x with dcache := put (fun _ => []) x.dcache (pa / 64) (l.take (pa % 64) ++ bs ++ l.drop (pa % 64 + bs.length)) }

/-- A line taken out of a core's data cache. -/
def Core.dropLine (x : Core) (pa : Nat) : Core := { x with dcache := x.dcache.filter fun e => e.1 != pa / 64 }

/-- A read at the home that may leave its line in the data cache (R55, R528). -/
def State.missRead (s : State) (c : CoreId) (pa n : Nat) : Acc (List Byte) × State :=
  match s.plainRead (reqOf c) pa n with
  | (.ok bs, s) =>
    let keep := s.freeBool
    (.ok bs, if keep.1 then keep.2.fillLine c pa else keep.2)
  | r => r

/-- A cacheable read within one line: a line held is used, or has been evicted by then and is read at the home (R55, R528). -/
def State.cacheRead (s : State) (c : CoreId) (pa n : Nat) : Acc (List Byte) × State :=
  match (s.core c).line (pa / 64) with
  | some l =>
    let use := s.freeBool
    if use.1 then let r := use.2.asRead pa ((l.drop (pa % 64)).take n); (.ok r.1, r.2)
    else (use.2.updCore c fun x => x.dropLine pa).missRead c pa n
  | none => s.missRead c pa n

/-! ### Translation (R123–R130) -/

/-- A table entry read by a core's walker, through the data cache; one not valid is read again at its home (R128). -/
def State.tableCore (s : State) (c : CoreId) (pa : Nat) : Acc Word × State :=
  if !(s.decodePA pa).plain then (.err 2, s)
  else
    match s.cacheRead c pa 8 with
    | (.ok bs, s) =>
      let e : Word := BitVec.ofNat 64 (fromBytes bs)
      if entryV e then (.ok e, s) else s.tableHome (reqOf c) pa
    | (.err x, s) => (.err x, s)
    | (.poison, s) => (.poison, s.poisonUsed (dieOf c).val (coreK c).val (reqOf c) pa 6)
    | (.wait, s) => (.wait, s)

/-- A walk by a core over the levels given; pointer entries go to the walk cache (R127, R130). -/
def State.walkCore (s : State) (c : CoreId) (tbase la base : Nat) : List Nat → Walk × State
  | [] => (.fault 4 3, s)
  | lvl :: ls =>
    match s.tableCore c (base + 8 * tableIdx lvl la) with
    | (.wait, s) => (.wait, s)
    | (.err _, s) | (.poison, s) => (.fault 5 lvl, s)
    | (.ok e, s) =>
      if !entryV e then (.fault 0 lvl, s)
      else if entryMalformed lvl e then (.fault 4 lvl, s)
      else if entryLeaf e then (.leaf lvl e, s)
      else
        (s.updCore c fun x => { x with wcache := tlbAdd 32 x.wcache { tbase, la := la - la % 2 ^ pageShift lvl, level := lvl, entry := e } }).walkCore
          c tbase la (entryAddr e) ls

/-- The pointer entry of a level that a core's walk cache holds for an address. -/
def Core.pointerAt (x : Core) (tbase la lvl : Nat) : Option TlbEntry :=
  x.wcache.find? fun t => t.tbase == tbase && t.level == lvl && t.la == la - la % 2 ^ pageShift lvl

/-- The pointer entry of a level as a walk finds it: held and used, or evicted by then and gone (R130, R528). -/
def State.pointer (s : State) (c : CoreId) (tbase la lvl : Nat) : Option TlbEntry × State :=
  match (s.core c).pointerAt tbase la lvl with
  | none => (none, s)
  | some t =>
    let use := s.freeBool
    if use.1 then (some t, use.2) else (none, use.2.updCore c fun x => { x with wcache := x.wcache.filter (· != t) })

/-- A walk from the root, or from a pointer entry the walk cache holds and that has not been evicted (R130, R528). -/
def State.walkFrom (s : State) (c : CoreId) (tbase la : Nat) : Walk × State :=
  match s.pointer c tbase la 2 with
  | (some t, s) => s.walkCore c tbase la (entryAddr t.entry) [3]
  | (none, s) =>
    match s.pointer c tbase la 1 with
    | (some t, s) => s.walkCore c tbase la (entryAddr t.entry) [2, 3]
    | (none, s) => s.walkCore c tbase la tbase [1, 2, 3]

/-- The leaf a core's TLB holds for an address: used, or evicted by then and gone (R129, R528). -/
def State.coreLeaf (s : State) (c : CoreId) (tbase la : Nat) : Option TlbEntry × State :=
  match tlbHit (s.core c).tlb tbase la with
  | none => (none, s)
  | some t =>
    let use := s.freeBool
    if use.1 then (some t, use.2) else (none, use.2.updCore c fun x => { x with tlb := x.tlb.filter (· != t) })

/-- A linear address translated for a core's access at a ring (R123, R127, R129). -/
def State.xlateCore (s : State) (c : CoreId) (ring la : Nat) (k : AKind) : XRes × State :=
  let ptb := (s.core c).ptb
  if !bit ptb 0 then (if la < 2 ^ 48 then (.ok la, s) else (.fault 4 0, s))
  else
    let tbase := bits ptb 47 19 * 2 ^ 19
    let fin (lvl : Nat) (e : Word) : XRes :=
      match permFault e ring k.writes (k == .fetch) with
      | some cause => .fault cause lvl
      | none => .ok (leafPa lvl e la)
    match s.coreLeaf c tbase la with
    | (some t, s) => (fin t.level t.entry, s)
    | (none, s) =>
      match s.walkFrom c tbase la with
      | (.leaf lvl e, s) =>
        (fin lvl e, s.updCore c fun x => { x with tlb := tlbAdd 64 x.tlb { tbase, la := la - la % 2 ^ pageShift lvl, level := lvl, entry := e } })
      | (.fault a l, s) => (.fault a l, s)
      | (.wait, s) => (.wait, s)

/-- The pieces of an access translated in turn, the lower first (R86): `o` is the offset of the first byte left. -/
def State.xlateParts (s : State) (c : CoreId) (sg : Nat) (k : AKind) (ring : Nat) (o : Word) :
    List Piece → CRes (List Piece) × State
  | [] => (.ok [], s)
  | p :: ps =>
    match s.xlateCore c ring p.pa k with
    | (.wait, s) => (.wait, s)
    | (.fault cause lvl, s) => (.exc ⟨0x06, sg + 8 * k.code + 32 * cause + 256 * lvl, o⟩, s)
    | (.ok pa, s) =>
      match s.xlateParts c sg k ring (o + BitVec.ofNat 64 p.n) ps with
      | (.ok r, s) => (.ok (⟨pa, p.n⟩ :: r), s)
      | r => r

/-- The segment check and the translation of an access of n bytes at offset o through a segment (R86, R99): its parts by line. -/
def State.checkAccess (s : State) (c : CoreId) (g : SegReg) (sg : Nat) (k : AKind) (ring : Nat) (o : Word) (n : Nat) :
    CRes (List Piece) × State :=
  match segCheck g sg k ring o n with
  | some e => (.exc e, s)
  | none => s.xlateParts c sg k ring o (lines (g.base + o.toNat) n)

/-- The check of a data access through segment register sg at the core's ring. -/
def State.dataAccess (s : State) (c : CoreId) (sg : Sreg) (k : AKind) (o : Word) (n : Nat) : CRes (List Piece) × State :=
  let x := s.core c
  s.checkAccess c (x.sgNow sg.toNat) sg.toNat k x.ring o n

/-! ### Order with vector accesses (R169) -/

/-- Does a vector operation write memory? -/
def VOp.stores : VOp → Bool
  | .st | .sts | .stx | .stm | .str | .stmr => true
  | _ => false

/-- Do two runs of bytes overlap? -/
def Piece.overlaps (p q : Piece) : Bool := decide (p.pa < q.pa + q.n) && decide (q.pa < p.pa + p.n)

/-- Does a retired vector instruction of a core that has not completed hold back an access to overlapping bytes (R56, R169)? Two
reads do not. A quarter counts with every range it uses. -/
def State.vqHolds (s : State) (c : CoreId) (ps : List Piece) (write : Bool) : Bool :=
  (s.core c).vq.any fun t =>
    ((write || t.op.stores) && t.acc.any fun a => a.parts.any fun p => ps.any p.overlaps)
      || (match t.q with | some q => q.tr.any fun (r : Nat × Piece) => ps.any r.2.overlaps | none => false)

/-- Does a queued tile instruction of a core hold back an access to overlapping bytes (R56, R169, R220)? -/
def State.tqHolds (s : State) (c : CoreId) (ps : List Piece) (write : Bool) : Bool :=
  (s.core c).tq.any fun t => (write || t.op == .tpush) && t.acc.any fun a => a.parts.any fun p => ps.any p.overlaps

/-- Does a vector or tile access hold back a scalar access? -/
def State.vecHolds (s : State) (c : CoreId) (ps : List Piece) (write : Bool) : Bool := s.vqHolds c ps write || s.tqHolds c ps write

/-! ### Loads (R54, R79, R83, R84, R86–R88) -/

/-- A part of a load read where it lies; `fresh` past the data cache (R58). -/
def State.loadPart (s : State) (c : CoreId) (fresh crossing : Bool) (p : Piece) : Acc (List Byte) × State :=
  match s.decodePA p.pa with
  | .host _ _ =>
    if s.rspDown (reqOf c) p.pa then (.err 7, s.rspLost (reqOf c) p.pa) else s.hostFetch (.core c.val) (reqOf c) 64 p.pa p.n
  | .twin _ => s.refused (reqOf c) 3 24 9 p.pa
  | .ctrl off =>
    if crossing then s.refused (reqOf c) 3 (Target.ctrl off).die 7 p.pa
    else match s.ctrlRead (.core c) p.pa p.n with
      | (.ok v, s) => (.ok ((toBytes 8 v.toNat).take p.n), s)
      | (.err x, s) => (.err x, s)
      | (.poison, s) => (.poison, s)
      | (.wait, s) => (.wait, s)
  | _ => if fresh then s.plainRead (reqOf c) p.pa p.n else s.cacheRead c p.pa p.n

/-- The parts of a load read in turn. -/
def State.loadParts (s : State) (c : CoreId) (fresh crossing : Bool) : List Piece → Acc (List Byte) × State
  | [] => (.ok [], s)
  | p :: ps =>
    match s.loadPart c fresh crossing p with
    | (.ok bs, s) =>
      match s.loadParts c fresh crossing ps with
      | (.ok r, s) => (.ok (bs ++ r), s)
      | r => r
    | r => r

/-- The R80 decode of a part of a load: the code, die and unit of its error response, or none (R20–R27, R80, R86). Within one line
control space and the other targets answer for themselves. -/
def State.loadFail (s : State) (c : CoreId) (crossing : Bool) (p : Piece) : Option (Nat × Nat × Nat) :=
  match s.decodePA p.pa with
  | .host slot off =>
    match s.homeCheck (reqOf c) p.pa with
    | some r => some r
    | none =>
      if !crossing || (s.drdOf (.core c.val) p).isSome then none
      else match s.hostAddr (reqOf c) slot off false with
        | .inl e => some (e.1, e.2, if e.2 = 24 then 8 else 7)
        | .inr _ => none
  | .twin _ => match s.homeCheck (reqOf c) p.pa with | some r => some r | none => if crossing then some (3, 24, 9) else none
  | .ctrl off =>
    if crossing then (match s.homeCheck (reqOf c) p.pa with | some r => some r | none => some (3, (Target.ctrl off).die, 7)) else none
  | _ => if crossing then s.homeCheck (reqOf c) p.pa else none

/-- The error an access meets before any part of it is performed: it has timed out (R461), or a part fails its decode (R80, R86). -/
def State.routeFail (s : State) (c : CoreId) (crossing : Bool) : List Piece → Option (Nat × State)
  | [] => none
  | p :: ps =>
    match s.timedOut (reqOf c) p.pa with
    | some s => some (7, s)
    | none =>
      match s.loadFail c crossing p with
      | some (code, die, unit) => some (s.refuse (reqOf c) code die unit p.pa)
      | none => s.routeFail c crossing ps

/-- Can a part's home not answer a requester yet (R354, R357, R429), or can it not be mirrored while the tags of mirror writes are out
(R398)? -/
def State.partBusy (s : State) (q : Req) (p : Piece) : Bool :=
  s.homeBusy q (s.decodePA p.pa) || match s.decodePA p.pa with
    | .twin _ => !s.mirrorRoom 2
    | _ => false

/-- A request whose first busy part waits at its home, noted with the time it was issued (R461). -/
def State.noteBusy (s : State) (q : Req) (ps : List Piece) : State :=
  match ps.find? (s.partBusy q) with
  | some p => s.noteWait q p.pa
  | none => s

/-- A load of translated parts: its bytes, an error response, poison, or nothing while the answer has not come; a crossing load is
performed in both halves or in neither (R86, R87). -/
def State.loadBytes (s : State) (c : CoreId) (fresh : Bool) (ps : List Piece) : Acc (List Byte) × State :=
  let crossing := decide (1 < ps.length)
  match s.routeFail c crossing ps with
  | some (code, s) => (.err code, s)
  | none =>
    let asked := s.devAsk (reqOf c) (.core c.val) 64 ps
    let busy := ps.any fun p => (crossing || !(s.decodePA p.pa).plain) && s.partBusy (reqOf c) p
    if asked.1 && !busy then Acc.used (.core c.val) ps (asked.2.loadParts c fresh crossing ps)
    else (.wait, if busy then asked.2.noteBusy (reqOf c) ps else asked.2)

/-- The exception of an error response or poison on a data access at offset o (R54, R108). -/
def dataExc (poison : Bool) (o : Word) : Exc := ⟨0x0F, 2 ^ 16 * b2n poison, o⟩

/-- Poison consumed by a core's instruction, with the EXINFO code of the access: that of its memory, or else what came from a host window (R374,
R468). -/
def State.corePoison (s : State) (c : CoreId) (ps : List Piece) (code : Nat) : State :=
  let bad := match ps.find? fun p => s.anyPoison p.pa p.n with
    | some p => some p
    | none => ps.find? fun p => match s.decodePA p.pa with | .host _ _ => true | _ => false
  match bad with
  | some p => s.poisonUsed (dieOf c).val (coreK c).val (reqOf c) (((unitsOf p.pa p.n).find? s.poisonedAt).getD p.pa) code
  | none => s

/-- A scalar read of n bytes at offset o through segment register sg, as a kind of access (R52, R54). -/
def State.readData (s : State) (c : CoreId) (sg : Sreg) (k : AKind) (o : Word) (n : Nat) : CRes (List Byte) × State :=
  match s.dataAccess c sg k o n with
  | (.exc e, s) => (.exc e, s)
  | (.wait, s) => (.wait, s)
  | (.ok ps, s) =>
    if s.vecHolds c ps false then (.wait, s)
    else match s.loadBytes c false ps with
    | (.ok bs, s) => (.ok bs, s)
    | (.err _, s) => (.exc (dataExc false o), s)
    | (.poison, s) => (.exc (dataExc true o), s.corePoison c ps 0)
    | (.wait, s) => (.wait, s)

/-! ### Stores (R54, R80, R82, R86, R87) -/

/-- The R80 decode of one part of a store: the code, die and unit of its error response, or none. Control space answers for itself. -/
def State.storeFail (s : State) (c : CoreId) (crossing : Bool) (p : Piece) : Option (Nat × Nat × Nat) :=
  match s.homeCheck (reqOf c) p.pa with
  | some r => some r
  | none =>
    match s.decodePA p.pa with
    | .twin _ => if s.twinUp then none else some (6, 24, 9)
    | .host slot off =>
      match s.hostAddr (reqOf c) slot off true with
      | .inl e => some (e.1, e.2, if e.2 = 24 then 8 else 7)
      | .inr _ => none
    | .ctrl off => if crossing then some (3, (Target.ctrl off).die, 7) else none
    | t => if s.skimProtected p.pa p.n then some (3, t.die, 5) else none

/-- The decode of every part of a store before any is performed (R80, R86): the first code, logged. A store that passes it gets no
error response. -/
def State.storeCheck (s : State) (c : CoreId) (crossing : Bool) : List Piece → Option (Nat × State)
  | [] => none
  | p :: ps =>
    match s.storeFail c crossing p with
    | some (code, die, unit) => some (s.refuse (reqOf c) code die unit p.pa)
    | none => s.storeCheck c crossing ps

/-- A part of a store that has passed its decode performed at its home, through the data cache (R55, R82). -/
def State.storePart (s : State) (c : CoreId) (p : Piece) (bs : List Byte) : State :=
  let s := s.travel (dieOf c).val (s.decodePA p.pa).die
  match s.decodePA p.pa with
  | .host _ _ => (s.hostPost (.core c.val) (reqOf c) 64 p.pa bs).2
  | .twin off => (s.twinPost (.core c.val) (reqOf c) 0 off bs).2
  | .ctrl _ => s
  | _ => (s.homeWrite p.pa bs false).updCore c fun x => x.updLine p.pa bs

/-- The parts of a store performed in turn. -/
def State.storeParts (s : State) (c : CoreId) : List Piece → List Byte → State
  | [], _ => s
  | p :: ps, bs => (s.storePart c p (bs.take p.n)).storeParts c ps (bs.drop p.n)

/-- The parts of an element of a retired store performed in turn: one in a host window goes to the host address its window gave at retirement
(R381). -/
def State.storeKept (s : State) (c : CoreId) (hosts : List (Nat × Nat)) : List Piece → List Byte → State
  | [], _ => s
  | p :: ps, bs =>
    let s := match hosts.find? fun h => h.1 == p.pa with
      | some h => s.postDwr (.core c.val) p.pa h.2 (bs.take p.n)
      | none => s.storePart c p (bs.take p.n)
    s.storeKept c hosts ps (bs.drop p.n)

/-- What performing a store changes at ordinary homes, kept until it is acknowledged (R80, R462). -/
def State.undoOf (s : State) (e : ElemAcc) (bs : List Byte) : ElemAcc :=
  let plain := e.parts.filter fun p => (s.decodePA p.pa).plain
  { e with
    since := s.mctime
    was := e.parts.flatMap fun p => s.bytes p.pa p.n
    wrote := bs
    marks := (plain.flatMap fun p => unitsOf p.pa p.n).filter s.poisonedAt }

/-- An element of a store performed, and waiting for its acknowledgement (R80, R82). -/
def State.postElem (s : State) (c : CoreId) (e : ElemAcc) (bs : List Byte) : State :=
  let k := s.undoOf e bs
  (s.storeKept c e.hosts e.parts bs).updCore c fun x => { x with unacked := x.unacked ++ [k] }

/-- A store of bytes at offset o of translated parts performed, and waiting for its acknowledgement; `code` is what a loss is reported with
(R80, R82). -/
def State.postStore (s : State) (c : CoreId) (code : Nat) (o : Word) (ps : List Piece) (bs : List Byte) : State :=
  s.postElem c { idx := code, off := o, parts := ps } bs

/-- Is a write that a core has posted to a part in a host window or the twin window still unacknowledged (R82, R382, R398)? -/
def State.partOut (s : State) (c : CoreId) (p : Piece) : Bool :=
  let meets (a n : Nat) : Bool := decide (a < p.pa + p.n ∧ p.pa < a + n)
  let dwr (k : Pkt) : Bool := k.type == 0x12 && k.own == .core c.val && meets k.pa (k.a + 1)
  (s.link .agd).unsent.any dwr || s.dwrLost.any dwr || s.twin.mirw.any fun m => m.own == .core c.val && meets (0x200000000000 + m.off) m.n

/-- Can a store's acknowledgement not have returned: its packet is still out (R382, R398), or its acknowledgement cannot cross a down
edge and is dropped (R20)? -/
def State.ackOut (s : State) (c : CoreId) (e : ElemAcc) : Bool :=
  e.parts.any fun p => (s.offModule p && s.partOut c p) || (s.downOn (s.decodePA p.pa).die (dieOf c).val true).isSome

/-- Can every store of a core have been acknowledged (R57, R82, R92)? -/
def State.allAcked (s : State) (c : CoreId) : Bool := !(s.core c).unacked.any (s.ackOut c)

/-- Every acknowledgement of a core's stores that can have returned has returned (R82, R92). -/
def State.acked (s : State) (c : CoreId) : State :=
  let x := s.core c
  let early := (x.unacked.take x.fenced).filter (s.ackOut c)
  s.updCore c fun x => { x with unacked := early ++ (x.unacked.drop x.fenced).filter (s.ackOut c), fenced := early.length }

/-- Are outputs that a core's quarters posted to a host window or the twin window still unacknowledged (R279, R280)? -/
def State.quartersOut (s : State) (c : CoreId) : Bool := s.postedFor fun o => match o with | .quarter k _ _ => k == c.val | _ => false

/-- Has every earlier scalar, vector, tile and engine access of a core been performed (R92, R235, R249, R280)? -/
def State.accessesDone (s : State) (c : CoreId) : Bool :=
  (s.core c).vq.isEmpty && (s.core c).tq.isEmpty && !s.quartersOut c && s.allAcked c

/-- Is a store of a core held in the buffer: 256 are unacknowledged, or a FENCE.SS holds it (R57, R82)? -/
def State.storeHeld (s : State) (c : CoreId) : Bool :=
  decide (256 ≤ (s.core c).unacked.length) || ((s.core c).unacked.take (s.core c).fenced).any (s.ackOut c)

/-- A scalar store of bytes at offset o of translated parts: an error response changes no memory (R54, R80). -/
def State.storeBytes (s : State) (c : CoreId) (o : Word) (ps : List Piece) (bs : List Byte) : CRes Unit × State :=
  let crossing := decide (1 < ps.length)
  match s.storeCheck c crossing ps with
  | some (_, s) => (.exc (dataExc false o), s)
  | none =>
    if ps.any (s.partBusy (reqOf c)) || s.storeHeld c then (.wait, s)
    else
      match ps with
      | [p] =>
        match s.decodePA p.pa with
        | .ctrl _ =>
          match s.ctrlWrite (.core c) p.pa p.n (BitVec.ofNat 64 (fromBytes bs)) with
          | (.ok _, s) => (.ok (), s)
          | (.wait, s) => (.wait, s)
          | (_, s) => (.exc (dataExc false o), s)
        | _ => (.ok (), s.postStore c 2 o ps bs)
      | _ => (.ok (), s.postStore c 2 o ps bs)

/-- A scalar write of bytes at offset o through segment register sg (R52, R54). -/
def State.writeData (s : State) (c : CoreId) (sg : Sreg) (o : Word) (bs : List Byte) : CRes Unit × State :=
  match s.dataAccess c sg .write o bs.length with
  | (.exc e, s) => (.exc e, s)
  | (.wait, s) => (.wait, s)
  | (.ok ps, s) => if s.vecHolds c ps true then (.wait, s) else s.storeBytes c o ps bs

/-! ### Accesses at the home: LD.ACQ and atomics (R58, R59, R61) -/

/-- The whole data cache of a core invalidated (R55). -/
def State.dropCache (s : State) (c : CoreId) : State := s.updCore c fun x => { x with dcache := [] }

/-- A read at the home, past the data cache; an acquire reaches control space, host windows and the twin window as a load does. -/
def State.homeLoad (s : State) (c : CoreId) (ps : List Piece) : Acc (List Byte) × State :=
  let s := s.updCore c fun x => ps.foldl (fun x p => x.dropLine p.pa) x
  s.loadBytes c true ps

/-- An atomic on the n bytes of one part, at their home: the old value, and the new one written (R59, R463). -/
def State.atomicAt (s : State) (c : CoreId) (p : Piece) (f : Nat → Nat) : Acc Nat × State :=
  let s := s.updCore c fun x => x.dropLine p.pa
  match s.timedOut (reqOf c) p.pa with
  | some s => (.err 7, s)
  | none =>
    match s.atHome (reqOf c) p.pa with
    | (.ok _, s) =>
      let lost := s.rspDown (reqOf c) p.pa
      if s.anyPoison p.pa p.n then (if lost then (.err 7, s.rspLost (reqOf c) p.pa) else (.poison, s))
      else if s.skimProtected p.pa p.n then s.refused (reqOf c) 3 (s.decodePA p.pa).die 5 p.pa
      else
        let r := s.asRead p.pa (s.bytes p.pa p.n)
        let old := fromBytes r.1
        let s := r.2.homeWrite p.pa (toBytes p.n (f old)) false
        if lost then (.err 7, s.rspLost (reqOf c) p.pa) else (.ok old, s)
    | (.err x, s) => (.err x, s)
    | (.poison, s) => (.poison, s)
    | (.wait, s) => (.wait, s)

end Sys2Proof.Machine
end

