-- ==== Sys2Proof/Machine/Excep.lean ====
section
/-! DEFINITION. Descriptors, loading a segment register, handler entry with its frame and escalation, and the frame every instruction
of a core runs in: fetch, the checks before it, delay slots, shadows, loop ends, single step (R38–R51, R69, R76, R93–R122). -/

namespace Sys2Proof.Machine

open Sys2Proof

/-! ### Descriptor tables and their cache (R95, R101, R102, R122) -/

/-- n doublewords of a descriptor at physical address pa: entry i of table t (0 handlers, 1 gates, 2 segments), from the core's
descriptor cache if it holds it and it has not been evicted, else from memory (R102, R122). Which entry a full cache replaces is not
stated: the model drops the oldest, and any entry may have been evicted by then (DESIGN CHOICE, log entry 46). -/
def State.descriptor (s : State) (c : CoreId) (t i pa n : Nat) : Acc (List Word) × State :=
  let hit := (s.core c).descs.find? fun e => e.1 == t && e.2.1 == i
  let use := if hit.isSome then s.freeBool else (false, s)
  match hit, use with
  | some e, (true, s) => (.ok e.2.2, s)
  | _, (_, s) =>
    if !(s.decodePA pa).plain then (.err 2, s)
    else
      match s.readWords (reqOf c) pa n with
      | (.ok ws, s) =>
        let cap := if t = 0 then 16 else if t = 1 then 8 else 32
        (.ok ws, s.updCore c fun x =>
          let same := x.descs.filter fun e => e.1 == t && e.2.1 != i
          { x with descs := ((t, i, ws) :: same).take cap ++ x.descs.filter fun e => e.1 != t })
      | (.poison, s) => (.err 2, s.poisonUsed (dieOf c).val (coreK c).val (reqOf c) pa 6)
      | r => r

/-- What the checks of R97 make of a selector: a loaded register, or the exception code. -/
inductive SegLoad where
  | ok (g : SegReg)
  | bad (vec : Nat)
  | wait
  deriving DecidableEq, Repr

/-- Is a present descriptor valid (R95)? -/
def segValid (d0 d1 : Word) : Bool :=
  bits d1 55 54 != 0 && bits d0 63 52 == 0 && bits d1 63 59 == 0 && decide (bits d0 51 0 + bits d1 51 0 < 2 ^ 52)

/-- The register a descriptor loads (R95, R96). -/
def segOf (sel : BitVec 16) (d0 d1 : Word) : SegReg :=
  { sel, base := bits d0 51 0, limit := bits d1 51 0, ring := bits d1 53 52, type := bits d1 55 54, r := bit d1 57, w := bit d1 58 }

/-- Segment register s loaded with a selector at a ring: the checks of R97 in order. -/
def State.segLoad (s : State) (c : CoreId) (n : Nat) (sel : Word) (ring : Nat) : SegLoad × State :=
  let idx := bits sel 13 0
  let sgtb := (s.core c).sgtb
  if idx = 0 then
    if n = 0 ∨ n = 7 then (.bad 0x04, s) else (.ok { null := true }, s)
  else if min (bits sgtb 14 0) 16384 ≤ idx then (.bad 0x05, s)
  else
    match s.descriptor c 2 idx (bits sgtb 47 18 * 2 ^ 18 + 16 * idx) 2 with
    | (.wait, s) => (.wait, s)
    | (.ok [d0, d1], s) =>
      let g := segOf (BitVec.ofNat 16 idx) d0 d1
      if !bit d1 56 then (.bad 0x05, s)
      else if !segValid d0 d1 then (.bad 0x04, s)
      else if n = 0 then (if g.type = 1 ∧ g.ring = ring then (.ok g, s) else (.bad 0x04, s))
      else if n = 7 then (if g.type = 3 ∧ g.ring = ring then (.ok g, s) else (.bad 0x04, s))
      else if g.ring < ring then (.bad 0x04, s)
      else (.ok g, s)
    | (_, s) => (.bad 0x05, s)

/-! ### Handler entry (R113–R115) -/

/-- The context an entry saves: EPC, DS, the shadow and the mode shadow in force there (R40, R44, R45, R114). -/
structure Ctx where
  epc : Word := 0
  ds : Bool := false
  shadow : Option Shadow := none
  msh : Option ModeShadow := none
  deriving DecidableEq, Repr

/-- What an entry is for: vector, INFO, EADDR, and whether an asynchronous event (R106, R109). -/
structure Entry where
  vec : Nat := 0
  info : Nat := 0
  eaddr : Word := 0
  async : Bool := false
  deriving DecidableEq, Repr

/-- ESTATUS of a context (R121). -/
def Core.saveStatus (x : Core) (k : Ctx) : Word :=
  let sim := match k.msh with | some m => m.im | none => x.im
  let sh := match k.shadow with | some h => (h.reg.toNat, h.left) | none => (0, 0)
  BitVec.ofNat 64 (x.ring + 2 ^ 2 * b2n x.im + 2 ^ 3 * b2n x.lp + 2 ^ 4 * b2n k.ds + 2 ^ 5 * b2n k.msh.isSome + 2 ^ 6 * b2n sim
    + 2 ^ 7 * b2n x.ss + 2 ^ 8 * sh.1 + 2 ^ 14 * (sh.2 % 4))

/-- EXINFO of an entry (R121). -/
def Entry.word (e : Entry) : Word := BitVec.ofNat 64 (e.info % 2 ^ 32 + 2 ^ 32 * (e.vec % 256) + 2 ^ 40 * b2n e.async)

/-- The frame of an entry (R114). -/
def Core.frame (x : Core) (k : Ctx) (e : Entry) : List Word :=
  let ssg0 := match k.msh with | some m => m.sg0.sel | none => (x.sgOf 0).sel
  [k.epc, x.saveStatus k, e.word, e.eaddr, (match k.shadow with | some h => h.old | none => 0), x.raw 62,
   BitVec.ofNat 64 ((x.sgOf 0).sel.toNat + 2 ^ 16 * (x.sgOf 7).sel.toNat + 2 ^ 32 * ssg0.toNat), 0]

/-- What an attempted entry came to: the new state, the reason and frame offset of its failure (R115), or nothing yet. -/
inductive Try where
  | ok (s : State)
  | fail (reason : Nat) (f : Word) (s : State)
  | wait (s : State)

/-- The core in its handler (R113): the frame written, the copies made, the new mode, ring and pc. -/
def State.enterAt (s : State) (c : CoreId) (k : Ctx) (e : Entry) (d0 d2 : Word) (cs ss : SegReg) (f : Word) (parts : List Piece) :
    State :=
  let x := s.core c
  let fr := x.frame k e
  let s := s.postStore c 2 f parts (bytesOf fr)
  s.updCore c fun x =>
    let x := { x with
      epc := fr.getD 0 0, estatus := fr.getD 1 0, exinfo := fr.getD 2 0, eaddr := fr.getD 3 0
      lsh := [], slot := none, msh := none, stepDue := false, entered := true, wfi := false
      status := setBits (setBits (setBits x.status 1 0 (bits d2 33 32)) 2 2 (b2n (bit d2 38))) 4 3 0
      ip := d0 &&& 0xFFFFFFFFFFFFC }
    ((x.setSg 0 cs).setSg 7 ss).gwrite 62 f

/-- One attempt to enter the handler of a vector (R113): the checks in order, then the entry. The spec does not say what a non-zero RSV
bit of a handler or gate descriptor does: the model ignores those bits (DESIGN CHOICE, log entry 46). -/
def State.tryEnter (s : State) (c : CoreId) (k : Ctx) (e : Entry) : Try :=
  let x := s.core c
  match s.descriptor c 0 e.vec (bits x.hdtb 47 13 * 2 ^ 13 + 32 * e.vec) 4 with
  | (.wait, s) => .wait s
  | (.ok [d0, d1, d2, _], s) =>
    let t := bits d2 33 32
    if !bit d2 36 then .fail 2 0 s
    else if x.ring < t then .fail 3 0 s
    else
      match s.segLoad c 0 (BitVec.ofNat 64 (bits d2 15 0)) t with
      | (.wait, s) => .wait s
      | (.bad _, s) => .fail 4 0 s
      | (.ok cs, s) =>
        let switch := decide (t < x.ring) || bit d2 37
        let st := if switch then s.segLoad c 7 (BitVec.ofNat 64 (bits d2 31 16)) t else (.ok (x.sgOf 7), s)
        match st with
        | (.wait, s) => .wait s
        | (.bad _, s) => .fail 5 0 s
        | (.ok ss, s) =>
          let sp := if switch then BitVec.ofNat 64 (bits d1 51 0) else x.raw 62
          let f := (sp - 64) &&& ~~~(0x3F : Word)
          match s.checkAccess c ss 7 .write t f 64 with
          | (.wait, s) => .wait s
          | (.exc x, s) => .fail (if x.vec = 0x06 then 7 else 6) f s
          | (.ok parts, s) =>
            match s.storeCheck c (decide (1 < parts.length)) parts with
            | some (_, s) => .fail 8 f s
            | none =>
              if parts.any (s.partBusy (reqOf c)) || s.vecHolds c parts true || s.storeHeld c then .wait s
              else if parts.any fun p => match s.decodePA p.pa with | .ctrl _ => true | _ => false then .fail 8 f s
              else .ok (s.enterAt c k e d0 d2 cs ss f parts)
  | (_, s) => .fail 1 0 s

/-- A core stops (R115): recorded in its die's ERR_ block as class 0x0E. -/
def State.stopCore (s : State) (c : CoreId) (vec r1 r2 : Nat) : State :=
  let d := (dieOf c).val
  let k := (coreK c).val
  (s.setFld d .ERR_STAT 0 (8 + k) (8 + k) 1).logErr d 0x0E 2 k (reqOf c) none false (vec + 2 ^ 8 * r1 + 2 ^ 12 * r2)

/-- A handler entered, with escalation to vector 0x0F and the core's stop (R113, R115); none while memory cannot answer yet. -/
def State.enter (s : State) (c : CoreId) (k : Ctx) (e : Entry) : Option State :=
  match s.tryEnter c k e with
  | .ok s => some s
  | .wait _ => none
  | .fail r f s =>
    if e.vec = 0x0F then some (s.stopCore c 0x0F r r)
    else
      let e2 : Entry := { vec := 0x0F, info := e.vec + 2 ^ 8 * r + 2 ^ 12, eaddr := if 6 ≤ r then f else 0, async := e.async }
      match s.tryEnter c k e2 with
      | .ok s => some s
      | .wait _ => none
      | .fail r2 _ s => some (s.stopCore c e.vec r r2)

/-! ### The context of an exception (R40, R44, R45) -/

/-- The shadow a frame records and where EPC points, from the shadows in force at the instruction and the registers it reads (R45):
with two back-to-back loads, an instruction that reads the first one's register is recorded at the second load, which is undone. -/
def Core.context (x : Core) (epc : Word) (ds : Bool) (shadows : List Shadow) (msh : Option ModeShadow) (reads : List Greg) :
    Core × Ctx :=
  match shadows with
  | l2 :: l1 :: _ =>
    if l1.reg ∈ reads then
      ({ x with gpr := put (fun _ => 0) x.gpr l2.reg.toNat l2.was, lc := l2.lc },
       { epc := l2.ip, ds := false, shadow := some { l1 with left := l1.left + 1 }, msh := none })
    else (x, { epc, ds, shadow := some l2, msh })
  | l => (x, { epc, ds, shadow := l.head?, msh })

/-- An exception of the instruction at ip taken (R40, R107, R113): in a delay slot the context is the transfer's. -/
def State.except (s : State) (c : CoreId) (reads : List Greg) (e : Exc) : Option State :=
  let x := s.core c
  let k := match x.slot with
    | some sl => x.context sl.addr true sl.shadows sl.msh sl.reads
    | none => x.context x.ip false x.lsh x.msh reads
  (s.setCore c k.1).enter c k.2 { vec := e.vec, info := e.info, eaddr := e.eaddr }

/-! ### Retirement (R38, R41, R47, R76, R104, R105, R110) -/

/-- Every shadow one instruction older; those that have run out end (R41, R44). -/
def Core.ageShadows (x : Core) : Core :=
  { x with lsh := (x.lsh.map fun h => { h with left := h.left - 1 }).filter fun h => decide (0 < h.left) }

/-- The loop-end step at address P over the levels given, innermost first (R47): the counts and the next address, `next` when no level
repeats. R30 says that instruction addresses are multiples of 4 and not what bits [1:0] of an LSn written by MOVC.W do: execution goes on
at LSn as it stands (DESIGN CHOICE, log entry 43). -/
def Core.loopEnd (x : Core) (p next : Word) : List Nat → Core × Word
  | [] => (x, next)
  | n :: ns =>
    if x.lcOf n = 0 ∨ x.leOf n ≠ p then x.loopEnd p next ns
    else
      let v := x.lcOf n - 1
      let x := { x with lc := put (fun _ => 0) x.lc n v }
      if v = 0 then x.loopEnd p next ns else (x, x.lsOf n)

/-- Where execution goes on after the instruction at ip, `next` but for the loop-end step (R47, R74). -/
def Core.advance (x : Core) (next : Word) : Core :=
  if x.lp then
    let r := x.loopEnd x.ip next [2, 1, 0]
    { r.1 with ip := r.2 }
  else { x with ip := next }

/-- What a control transfer does once its slot has completed (R38, R104, R105): after a CALLG or RETG the target runs under the new mode,
whatever its slot wrote. -/
def State.slotDone (s : State) (c : CoreId) (a : XferAct) : State :=
  match a with
  | .go next link => s.updCore c fun x => match link with
    | some v => { x.gwrite 63 v with ip := next }
    | none => { x with ip := next }
  | .callg parts record rec next cs ss ring =>
    let s := s.postStore c 2 rec parts (bytesOf record)
    s.updCore c fun x =>
      (((x.setSg 7 ss).gwrite 62 rec).setSg 0 cs : Core) |> fun x =>
        { x with status := setBits x.status 1 0 ring, ip := next, msh := none }
  | .retg next g62 cs ss ring im => s.updCore c fun x =>
      (((x.setSg 0 cs).setSg 7 ss).gwrite 62 g62 : Core) |> fun x =>
        { x with status := setBits (setBits x.status 1 0 ring) 2 2 (b2n im), ip := next, msh := none }

/-- An instruction of a core retires (R66): the delay slot's transfer or the loop-end step decides where execution goes on, shadows
age, the instruction after a handler entry has retired (R112). A MOVC.W in a delay slot at LEn that makes that level active (R49) is a
case R38 and R47 give two answers to: the transfer is taken, and no loop-end step is made (DESIGN CHOICE, log entry 43). -/
def State.retire (s : State) (c : CoreId) (size : Nat) : State :=
  let s := s.updCore c fun x => { x.ageShadows with entered := false, wfi := false, oldMode := none }
  match (s.core c).slot with
  | some sl => (s.updCore c fun x => { x with slot := none }).slotDone c sl.act
  | none => s.updCore c fun x => x.advance (x.ip + BitVec.ofNat 64 size)

/-- Does the record of a CALLG whose slot has run its instruction wait for queued vector or tile accesses to its bytes (R104, R169), or for
the store buffer (R82)? -/
def State.slotHeld (s : State) (c : CoreId) : Bool :=
  match (s.core c).slot with
  | some { act := .callg parts .., .. } => s.vecHolds c parts true || s.storeHeld c
  | _ => false

/-- Single step raised once the stepped instruction has retired and the boundary allows it (R110). -/
def State.stepTrap (s : State) (c : CoreId) (stepped : Bool) : Option State :=
  let x := s.core c
  if !(stepped || x.stepDue) then some s
  else if !x.boundary then some (s.updCore c fun x => { x with stepDue := true })
  else
    let k : Ctx := { epc := x.ip, shadow := x.lsh.head? }
    s.enter c k { vec := 0x11 }

/-! ### The frame of an instruction -/

/-- What an instruction's own work comes to. -/
inductive Body where
  /-- It has its effect, and execution goes on after it. -/
  | next (s : State)
  /-- It has its effect, and execution goes on at an offset (LOOP). -/
  | jump (s : State) (dst : Word)
  /-- A control transfer: its delay slot is next (R38). -/
  | xfer (s : State) (a : XferAct)
  /-- It has set the whole context itself (RETX). -/
  | whole (s : State)
  | exc (e : Exc) (s : State)
  /-- It cannot be performed yet: nothing of it has happened but what the state given says. -/
  | wait (s : State)

/-- What the frame has to know of an instruction: its words, its size, whether it is a control transfer in the sense of R39,
whether it may stand at the end of an active loop (R48), the general registers it reads (R45), and the checks for 0x01 and 0x02. -/
structure Insn where
  word : Nat := 0
  /-- The second word of a 64-bit instruction (R30). -/
  word2 : Nat := 0
  size : Nat := 4
  xfer : Bool := false
  noEnd : Bool := false
  reads : List Greg := []
  /-- WFI itself goes on when its core waits in it. -/
  wakes : Bool := false
  illegal : Core → Option Nat := fun _ => none

/-- A line of code a core's instruction cache or line buffer holds (R67). -/
def Core.codeLine (x : Core) (n : Nat) : Option (List Byte) := (x.icache.find? fun e => e.1 == n).map (·.2)

/-- A line of code copied into a core's 64 KiB instruction cache, one with a poisoned unit apart (R67). -/
def State.fillCode (s : State) (c : CoreId) (pa : Nat) : State :=
  let a := pa - pa % 64
  if s.anyPoison a 64 then s
  else
    let r := s.addLine 1024 (s.core c).icache (a / 64) (s.bytes a 64)
    r.2.updCore c fun x => { x with icache := r.1 }

/-- Code read at its home, its line kept or not (R67, R528). -/
def State.missCode (s : State) (c : CoreId) (pa n : Nat) : Acc (List Byte) × State :=
  match s.plainRead (reqOf c) pa n with
  | (.ok bs, s) =>
    let keep := s.freeBool
    (.ok bs, if keep.1 then keep.2.fillCode c pa else keep.2)
  | r => r

/-- Code within one line: a line held is used, stale or not (R69), or has been evicted by then and is read at its home (R67, R528). -/
def State.codeRead (s : State) (c : CoreId) (pa n : Nat) : Acc (List Byte) × State :=
  match (s.core c).codeLine (pa / 64) with
  | some l =>
    let use := s.freeBool
    if use.1 then (.ok ((l.drop (pa % 64)).take n), use.2)
    else (use.2.updCore c fun x => { x with icache := dropKeys (· == pa / 64) x.icache }).missCode c pa n
  | none => s.missCode c pa n

/-- The parts of a word of code read in turn. -/
def State.codeParts (s : State) (c : CoreId) : List Piece → Acc (List Byte) × State
  | [] => (.ok [], s)
  | p :: ps =>
    match s.codeRead c p.pa p.n with
    | (.ok bs, s) =>
      match s.codeParts c ps with
      | (.ok r, s) => (.ok (bs ++ r), s)
      | r => r
    | r => r

/-- One little-endian word fetched at an offset of the code segment: its segment check, translation, and the code read through the
instruction cache, or from a host window past it (R30, R67, R69, R99, R107, R108). -/
def State.fetchWord (s : State) (c : CoreId) (o : Word) : CRes Nat × State :=
  let x := s.core c
  let g := match x.msh with | some m => m.sg0 | none => x.sgOf 0
  match s.checkAccess c g 0 .fetch x.ring o 4 with
  | (.exc e, s) => (.exc e, s)
  | (.wait, s) => (.wait, s)
  | (.ok ps, s) =>
    let host := ps.any fun p => match s.decodePA p.pa with | .host _ _ => true | _ => false
    match if host then s.loadBytes c true ps else s.codeParts c ps with
    | (.ok bs, s) => (.ok (fromBytes bs), s)
    | (.err _, s) => (.exc ⟨0x0F, 2 ^ 13, o⟩, s)
    | (.poison, s) => (.exc ⟨0x0F, 2 ^ 13 + 2 ^ 16, o⟩, s.corePoison c ps 1)
    | (.wait, s) => (.wait, s)

/-- Does a first word begin a 64-bit instruction (R30)? -/
def isLong (w : Nat) : Bool := decide (0x30 ≤ w / 2 ^ 26)

/-- The fetch of an instruction: its first word, and the second of a 64-bit one, else 0 (R30, R69, R107). -/
def State.fetch (s : State) (c : CoreId) : CRes (Nat × Nat) × State :=
  match s.fetchWord c (s.core c).ip with
  | (.ok w, s) =>
    if isLong w then
      match s.fetchWord c ((s.core c).ip + 4) with
      | (.ok w2, s) => (.ok (w, w2), s)
      | (.exc e, s) => (.exc e, s)
      | (.wait, s) => (.wait, s)
    else (.ok (w, 0), s)
  | (.exc e, s) => (.exc e, s)
  | (.wait, s) => (.wait, s)

/-- Is a first word reserved: its major opcode, its function or its ctl value (R32–R34, R36, R57, R59, R62, R154, R217, R245, R278)? -/
def reservedWord (w : Nat) : Bool :=
  let fn := w % 256
  let vfn := w % 64
  let tfn := w / 2 ^ 20 % 64
  match w / 2 ^ 26 with
  | 0x00 => decide (0x1E ≤ fn)
  | 0x09 => decide (8 ≤ fn)
  | 0x0A => decide (0x0E ≤ fn % 128)
  | 0x20 => decide (2 ≤ w % 4)
  | 0x21 => decide (5 ≤ fn)
  | 0x2A => decide (2 ≤ fn)
  | 0x2C => decide (9 ≤ fn)
  | 0x30 => decide (0x17 ≤ vfn)
  | 0x31 | 0x32 => decide (0x0F ≤ vfn)
  | 0x33 => (decide (0x0C ≤ vfn) && decide (vfn ≤ 0x0F)) || decide (0x18 ≤ vfn)
  | 0x34 => decide (7 ≤ vfn)
  | 0x35 => vfn == 3 || decide (7 ≤ vfn)
  | 0x36 => decide (0x10 ≤ vfn)
  | 0x37 => decide (2 ≤ vfn)
  | 0x38 => decide (2 ≤ tfn)
  | 0x39 => decide (3 ≤ tfn)
  | 0x3A => decide (2 ≤ tfn)
  | 0x3B => decide (3 ≤ tfn)
  | 0x3C => decide (5 ≤ tfn)
  | op => op == 0x08 || (decide (0x0B ≤ op) && decide (op ≤ 0x0F)) || (decide (0x2D ≤ op) && decide (op ≤ 0x2F)) || decide (0x3D ≤ op)

/-- The level whose end an instruction would violate (R48): the innermost active one that ends at its address. -/
def Core.endLevel (x : Core) (a : Word) : Option Nat :=
  if x.lp then [2, 1, 0].find? fun n => x.lcOf n != 0 && x.leOf n == a else none

/-- The exceptions that come before an instruction's own work (R32, R39, R48, R107). -/
def Insn.early (i : Insn) (x : Core) : Option Exc :=
  if i.xfer && x.slot.isSome then some ⟨0x01, i.word, 0⟩
  else match i.illegal x with
    | some vec => some ⟨vec, i.word, 0⟩
    | none =>
      match x.endLevel x.ip with
      | some n => if i.size == 8 || i.noEnd || x.slot.isSome then some ⟨0x09, n, 0⟩ else none
      | none => none

/-- An answer that may still have to wait: the command is turned away, with nothing of it done. -/
def orWait (s : State) : Option State → Out
  | some t => done t
  | none => done s

/-- An instruction's exception taken. -/
def State.raise (s : State) (c : CoreId) (reads : List Greg) (e : Exc) (s0 : State) : Out := orWait s0 (s.except c reads e)

/-- A delay slot whose instruction has retired goes on once nothing holds the record of its CALLG back (R104, R169). -/
def State.slotGoesOn (s : State) (c : CoreId) : State :=
  match (s.core c).slot with
  | some y => if y.done && !s.slotHeld c then ((s.retire c 4).stepTrap c false).getD s else s
  | none => s

/-- The mode shadow of an instruction ends with it (R76, R97). -/
def Core.ended (x : Core) : Core := { x with oldMode := none }

/-- The end of an instruction's own work (R66): retirement, the start of a delay slot, or an exception. `x0` is the core as the
instruction found it, `s0` the state. -/
def finish (c : CoreId) (i : Insn) (x0 : Core) (s0 : State) : Body → Out
  | .wait s => done (s.updCore c fun y => { y with msh := x0.msh, oldMode := none })
  | .exc e s => (s.updCore c fun y => { y with msh := x0.msh, oldMode := none }).raise c i.reads e s0
  | .whole s => orWait s0 ((s.updCore c Core.ended).stepTrap c x0.ss)
  | .jump s dst =>
    orWait s0 ((s.updCore c fun x => { x.ageShadows.advance dst with entered := false, oldMode := none }).stepTrap c x0.ss)
  | .xfer s a =>
    let sl : Slot := { addr := x0.ip, act := a, shadows := x0.lsh, msh := x0.msh, reads := i.reads }
    done (s.updCore c fun x =>
      { x.ageShadows with
        slot := some sl, ip := x0.ip + 4, msh := none, oldMode := none, entered := false, stepDue := x.stepDue || x0.ss })
  | .next s =>
    if s.slotHeld c then done (s.updCore c fun x => { x with slot := x.slot.map fun y => { y with done := true }, oldMode := none })
    else orWait s0 ((s.retire c i.size).stepTrap c (x0.ss && x0.slot.isNone))

/-- The core as an instruction's own work finds it: a mode-shadow instruction runs under the old mode (R76, R97). -/
def Core.begun (x : Core) : Core := { x with oldMode := x.msh, msh := none, issued := false }

/-- An instruction of a core: the words at its pc are fetched; when they are this instruction's, the early exceptions are checked, its own
work is done, it retires (R30, R66, R107). Fetched words of a reserved encoding raise 0x01 whichever instruction the command names
(R32). A command for a core that is not running or stands idle as asked (R426), that has another instruction in progress, or whose fetched words are another
instruction's, is turned away (log entries 8 and 11). -/
def runInsn (c : CoreId) (i : Insn) (body : State → Body) (s : State) : Out :=
  if !s.runs c || (s.core c).pass.isSome || ((s.core c).wfi && !i.wakes) then done s
  else if ((s.core c).slot.map (·.done)) = some true then done (s.slotGoesOn c)
  else
    match s.fetch c with
    | (.wait, s1) => done s1
    | (.exc e, s1) => s1.raise c [] e s
    | (.ok w, s1) =>
      if w = (i.word, i.word2) then
        let x := s1.core c
        match i.early x with
        | some e => s1.raise c i.reads e s
        | none => finish c i x s (body (s1.updCore c Core.begun))
      else if reservedWord w.1 then s1.raise c [] ⟨0x01, w.1, 0⟩ s
      else done s

end Sys2Proof.Machine
end

