-- ==== Sys2Proof/Machine/Flags.lean ====
section
/-! DEFINITION. FPFLAGS: sticky flags, trap enables, rounding mode and saturation, and what an instruction's flags come to (R185, R186,
R192, R193). -/

namespace Sys2Proof.Machine

open Sys2Proof

/-- The dynamic rounding mode of an FPFLAGS word (R185, R186). -/
def fpMode (w : Word) : RMode := rmodeOf (bits w 18 16)

/-- FPFLAGS.SAT. -/
def fpSat (w : Word) : Bool := bit w 19

/-- The trap enables in the bit order of the flags (R185). -/
def fpTraps (w : Word) : FFlags := BitVec.ofNat 5 (bits w 12 8)

/-- Flags ORed into FPFLAGS (R192). -/
def fpAccrue (w : Word) (fl : FFlags) : Word := w ||| fl.setWidth 64

/-- EXINFO.INFO of a floating-point trap (R193): the enabled flags raised, every flag raised, vector, element. -/
def fpInfo (traps raised : FFlags) (vec : Bool) (elem : Nat) : Nat :=
  (raised &&& traps).toNat + 2 ^ 5 * raised.toNat + 2 ^ 10 * b2n vec + 2 ^ 11 * elem

/-- FPFLAGS as MOVC.W leaves it (R185): a reserved RM is not written. -/
def fpWrite (old v : Word) : Word :=
  let m : Word := maskBits 4 0 ||| maskBits 12 8 ||| maskBits 19 19
  let m := if 4 < bits v 18 16 then m else m ||| maskBits 18 16
  (old &&& ~~~m) ||| (v &&& m)

/-- A scalar floating-point result delivered, or its trap taken (R36, R192, R193). -/
def fpResult (c : CoreId) (gd : Greg) (r : Word × FFlags) (s : State) : Body :=
  let x := s.core c
  let traps := fpTraps x.fpflags
  if r.2 &&& traps ≠ 0 then .exc ⟨0x0C, fpInfo traps r.2 false 0, 0⟩ s
  else .next (s.updCore c fun x => { x.gwrite gd r.1 with fpflags := fpAccrue x.fpflags r.2 })

end Sys2Proof.Machine
end

