-- ==== Sys2Proof/Machine/Scalar.lean ====
section
/-! DEFINITION. The scalar arithmetic of a core: the ALU group, immediates, multiply and divide, floating point (R33–R36). -/

namespace Sys2Proof.Machine

open Sys2Proof

/-! ### Results (R33–R35) -/

/-- 1 or 0 by a condition. -/
def flagWord (b : Bool) : Word := if b then 1 else 0

/-- The bytes of a doubleword in reverse order. -/
def bswapWord (a : Word) : Word := BitVec.ofNat 64 (fromBytesBE (toBytes 8 a.toNat))

/-- The high 64 bits of a signed product. -/
def mulHigh (a b : Word) : Word := BitVec.ofInt 64 (a.toInt * b.toInt / 2 ^ 64)

/-- The high 64 bits of an unsigned product. -/
def mulHighU (a b : Word) : Word := BitVec.ofNat 64 (a.toNat * b.toNat / 2 ^ 64)

/-- The signed quotient, rounded toward zero; all ones by zero (R34). -/
def divS (a b : Word) : Word := if b = 0 then BitVec.allOnes 64 else BitVec.ofInt 64 (a.toInt.tdiv b.toInt)

/-- The unsigned quotient; all ones by zero (R34). -/
def divU (a b : Word) : Word := if b = 0 then BitVec.allOnes 64 else BitVec.ofNat 64 (a.toNat / b.toNat)

/-- The signed remainder, with the sign of the dividend; the dividend by zero (R34). -/
def remS (a b : Word) : Word := if b = 0 then a else BitVec.ofInt 64 (a.toInt.tmod b.toInt)

/-- The unsigned remainder; the dividend by zero (R34). -/
def remU (a b : Word) : Word := if b = 0 then a else BitVec.ofNat 64 (a.toNat % b.toNat)

/-! ### The shared shape of register arithmetic -/

/-- An instruction that writes gd with a function of two register values. -/
def binary (c : CoreId) (word : Nat) (gd ga gb : Greg) (f : Word → Word → Word) (s : State) : Out :=
  runInsn c { word, reads := [ga, gb] } (fun s => .next (s.setG c gd (f (s.greg c ga) (s.greg c gb)))) s

/-- An instruction that writes gd with a function of one register value. -/
def unary (c : CoreId) (word : Nat) (gd ga : Greg) (f : Word → Word) (s : State) : Out :=
  runInsn c { word, reads := [ga] } (fun s => .next (s.setG c gd (f (s.greg c ga)))) s

/-- The frame of a scalar floating-point instruction: what it reads, and its result from FPFLAGS and the registers. -/
def fpInsn (c : CoreId) (fn : Nat) (dbl : Bool) (gd ga gb : Greg) (reads : List Greg) (f : State → Word × FFlags) (s : State) : Out :=
  runInsn c { word := wordA 0x0A gd ga gb (fn + 0x80 * b2n dbl), reads } (fun s => fpResult c gd (f s) s) s

/-- The format fn[7] selects (R36). -/
def fpFmt (dbl : Bool) : Fmt := if dbl then .fp64 else .fp32

/-- The encoding a scalar floating-point operand has in a register: bits [31:0] for FP32 (R36). -/
def fpBits (dbl : Bool) (w : Word) : Nat := if dbl then w.toNat else w.toNat % 2 ^ 32

/-- A scalar operand's value. -/
def fpVal (dbl : Bool) (w : Word) : FVal := unpack (fpFmt dbl) (fpBits dbl w)

/-- A result as its register holds it: an FP32 one with bits [63:32] 0 (R36). -/
def fpWord (r : Nat × FFlags) : Word × FFlags := (BitVec.ofNat 64 r.1, r.2)

/-- The rounding mode in force. -/
def State.mode (s : State) (c : CoreId) : RMode := fpMode (s.core c).fpflags

/-- SAT in force. -/
def State.sat (s : State) (c : CoreId) : Bool := fpSat (s.core c).fpflags

/-- A floating-point operation on two operands (R36). -/
def fpBinary (c : CoreId) (fn : Nat) (dbl : Bool) (gd ga gb : Greg) (f : Fmt → RMode → Bool → FVal → FVal → Nat × FFlags) (s : State) :
    Out :=
  fpInsn c fn dbl gd ga gb [ga, gb]
    (fun s => fpWord (f (fpFmt dbl) (s.mode c) (s.sat c) (fpVal dbl (s.greg c ga)) (fpVal dbl (s.greg c gb)))) s

/-- A floating-point comparison (R36, R190). -/
def fpCompare (c : CoreId) (fn : Nat) (dbl : Bool) (gd ga gb : Greg) (quiet : Bool) (r : FVal → FVal → Bool) (s : State) : Out :=
  fpInsn c fn dbl gd ga gb [ga, gb]
    (fun s => let x := fCmp quiet r (fpVal dbl (s.greg c ga)) (fpVal dbl (s.greg c gb)); (flagWord x.1, x.2)) s

/-! ### The ALU group (R33) -/

/-- ADD: ga + gb (R33). -/
def execAdd (c : CoreId) (gd ga gb : Greg) (s : State) : Out :=
  binary c (wordA 0x00 gd ga gb 0x00) gd ga gb (fun a b => a + b) s

/-- SUB: ga − gb (R33). -/
def execSub (c : CoreId) (gd ga gb : Greg) (s : State) : Out :=
  binary c (wordA 0x00 gd ga gb 0x01) gd ga gb (fun a b => a - b) s

/-- AND (R33). -/
def execAnd (c : CoreId) (gd ga gb : Greg) (s : State) : Out :=
  binary c (wordA 0x00 gd ga gb 0x02) gd ga gb (fun a b => a &&& b) s

/-- OR (R33). -/
def execOr (c : CoreId) (gd ga gb : Greg) (s : State) : Out :=
  binary c (wordA 0x00 gd ga gb 0x03) gd ga gb (fun a b => a ||| b) s

/-- XOR (R33). -/
def execXor (c : CoreId) (gd ga gb : Greg) (s : State) : Out :=
  binary c (wordA 0x00 gd ga gb 0x04) gd ga gb (fun a b => a ^^^ b) s

/-- ANDN: ga & ~gb (R33). -/
def execAndn (c : CoreId) (gd ga gb : Greg) (s : State) : Out :=
  binary c (wordA 0x00 gd ga gb 0x05) gd ga gb (fun a b => a &&& ~~~b) s

/-- SLT (R33). -/
def execSlt (c : CoreId) (gd ga gb : Greg) (s : State) : Out :=
  binary c (wordA 0x00 gd ga gb 0x06) gd ga gb (fun a b => flagWord (a.slt b)) s

/-- SLTU (R33). -/
def execSltu (c : CoreId) (gd ga gb : Greg) (s : State) : Out :=
  binary c (wordA 0x00 gd ga gb 0x07) gd ga gb (fun a b => flagWord (a.ult b)) s

/-- SLL: by gb[5:0] (R33). -/
def execSll (c : CoreId) (gd ga gb : Greg) (s : State) : Out :=
  binary c (wordA 0x00 gd ga gb 0x08) gd ga gb (fun a b => a <<< bits b 5 0) s

/-- SRL (R33). -/
def execSrl (c : CoreId) (gd ga gb : Greg) (s : State) : Out :=
  binary c (wordA 0x00 gd ga gb 0x09) gd ga gb (fun a b => a >>> bits b 5 0) s

/-- SRA (R33). -/
def execSra (c : CoreId) (gd ga gb : Greg) (s : State) : Out :=
  binary c (wordA 0x00 gd ga gb 0x0A) gd ga gb (fun a b => a.sshiftRight (bits b 5 0)) s

/-- ROR (R33). -/
def execRor (c : CoreId) (gd ga gb : Greg) (s : State) : Out :=
  binary c (wordA 0x00 gd ga gb 0x0B) gd ga gb (fun a b => a.rotateRight (bits b 5 0)) s

/-- SLLI: by the gb field (R33). -/
def execSlli (c : CoreId) (gd ga gb : Greg) (s : State) : Out :=
  unary c (wordA 0x00 gd ga gb 0x0C) gd ga (fun a => a <<< gb.toNat) s

/-- SRLI (R33). -/
def execSrli (c : CoreId) (gd ga gb : Greg) (s : State) : Out :=
  unary c (wordA 0x00 gd ga gb 0x0D) gd ga (fun a => a >>> gb.toNat) s

/-- SRAI (R33). -/
def execSrai (c : CoreId) (gd ga gb : Greg) (s : State) : Out :=
  unary c (wordA 0x00 gd ga gb 0x0E) gd ga (fun a => a.sshiftRight gb.toNat) s

/-- RORI (R33). -/
def execRori (c : CoreId) (gd ga gb : Greg) (s : State) : Out :=
  unary c (wordA 0x00 gd ga gb 0x0F) gd ga (fun a => a.rotateRight gb.toNat) s

/-- ADDW: sext32(ga + gb) (R33). -/
def execAddw (c : CoreId) (gd ga gb : Greg) (s : State) : Out :=
  binary c (wordA 0x00 gd ga gb 0x10) gd ga gb (fun a b => sext 32 (a + b)) s

/-- SUBW (R33). -/
def execSubw (c : CoreId) (gd ga gb : Greg) (s : State) : Out :=
  binary c (wordA 0x00 gd ga gb 0x11) gd ga gb (fun a b => sext 32 (a - b)) s

/-- MIN, signed (R33). -/
def execMin (c : CoreId) (gd ga gb : Greg) (s : State) : Out :=
  binary c (wordA 0x00 gd ga gb 0x12) gd ga gb (fun a b => if a.slt b then a else b) s

/-- MAX, signed (R33). -/
def execMax (c : CoreId) (gd ga gb : Greg) (s : State) : Out :=
  binary c (wordA 0x00 gd ga gb 0x13) gd ga gb (fun a b => if a.slt b then b else a) s

/-- MINU (R33). -/
def execMinu (c : CoreId) (gd ga gb : Greg) (s : State) : Out :=
  binary c (wordA 0x00 gd ga gb 0x14) gd ga gb (fun a b => if a.ult b then a else b) s

/-- MAXU (R33). -/
def execMaxu (c : CoreId) (gd ga gb : Greg) (s : State) : Out :=
  binary c (wordA 0x00 gd ga gb 0x15) gd ga gb (fun a b => if a.ult b then b else a) s

/-- CLZ: leading zeros, 0–64 (R33). -/
def execClz (c : CoreId) (gd ga gb : Greg) (s : State) : Out :=
  unary c (wordA 0x00 gd ga gb 0x16) gd ga (fun a => BitVec.ofNat 64 (clzN 64 a.toNat)) s

/-- CTZ: trailing zeros, 0–64 (R33). -/
def execCtz (c : CoreId) (gd ga gb : Greg) (s : State) : Out :=
  unary c (wordA 0x00 gd ga gb 0x17) gd ga (fun a => BitVec.ofNat 64 (ctzN 64 a.toNat)) s

/-- POPC: set bits (R33). -/
def execPopc (c : CoreId) (gd ga gb : Greg) (s : State) : Out :=
  unary c (wordA 0x00 gd ga gb 0x18) gd ga (fun a => BitVec.ofNat 64 (popN 64 a.toNat)) s

/-- BSWAP: byte order reversed (R33). -/
def execBswap (c : CoreId) (gd ga gb : Greg) (s : State) : Out :=
  unary c (wordA 0x00 gd ga gb 0x19) gd ga (bswapWord) s

/-- SEXTB (R33). -/
def execSextb (c : CoreId) (gd ga gb : Greg) (s : State) : Out :=
  unary c (wordA 0x00 gd ga gb 0x1A) gd ga (sext 8) s

/-- SEXTH (R33). -/
def execSexth (c : CoreId) (gd ga gb : Greg) (s : State) : Out :=
  unary c (wordA 0x00 gd ga gb 0x1B) gd ga (sext 16) s

/-- SEXTW (R33). -/
def execSextw (c : CoreId) (gd ga gb : Greg) (s : State) : Out :=
  unary c (wordA 0x00 gd ga gb 0x1C) gd ga (sext 32) s

/-- ZEXTW: ga & 0xFFFF_FFFF (R33). -/
def execZextw (c : CoreId) (gd ga gb : Greg) (s : State) : Out :=
  unary c (wordA 0x00 gd ga gb 0x1D) gd ga (zext 32) s

/-! ### Immediates (R35) -/

/-- ADDI: ga + sext(imm14) (R35). -/
def execAddi (c : CoreId) (gd ga : Greg) (imm : BitVec 14) (s : State) : Out :=
  unary c (wordI 0x01 gd ga imm) gd ga (fun a => a + sx imm) s

/-- ANDI: ga & sext(imm14) (R35). -/
def execAndi (c : CoreId) (gd ga : Greg) (imm : BitVec 14) (s : State) : Out :=
  unary c (wordI 0x02 gd ga imm) gd ga (fun a => a &&& sx imm) s

/-- ORI: ga | imm14, zero-extended (R35). -/
def execOri (c : CoreId) (gd ga : Greg) (imm : BitVec 14) (s : State) : Out :=
  unary c (wordI 0x03 gd ga imm) gd ga (fun a => a ||| zx imm) s

/-- XORI: ga ^ sext(imm14) (R35). -/
def execXori (c : CoreId) (gd ga : Greg) (imm : BitVec 14) (s : State) : Out :=
  unary c (wordI 0x04 gd ga imm) gd ga (fun a => a ^^^ sx imm) s

/-- SLTI, signed (R35). -/
def execSlti (c : CoreId) (gd ga : Greg) (imm : BitVec 14) (s : State) : Out :=
  unary c (wordI 0x05 gd ga imm) gd ga (fun a => flagWord (a.slt (sx imm))) s

/-- SLTIU: ga unsigned against sext(imm14) (R35). -/
def execSltiu (c : CoreId) (gd ga : Greg) (imm : BitVec 14) (s : State) : Out :=
  unary c (wordI 0x06 gd ga imm) gd ga (fun a => flagWord (a.ult (sx imm))) s

/-- LUI: sext(imm20) << 14 (R35). -/
def execLui (c : CoreId) (gd : Greg) (imm : BitVec 20) (s : State) : Out :=
  runInsn c { word := wordU 0x07 gd imm } (fun s => .next (s.setG c gd (sx imm <<< 14))) s

/-! ### Multiply and divide (R34) -/

/-- MUL: the low 64 bits (R34). -/
def execMul (c : CoreId) (gd ga gb : Greg) (s : State) : Out :=
  binary c (wordA 0x09 gd ga gb 0x00) gd ga gb (fun a b => a * b) s

/-- MULH: the high 64 bits, signed (R34). -/
def execMulh (c : CoreId) (gd ga gb : Greg) (s : State) : Out :=
  binary c (wordA 0x09 gd ga gb 0x01) gd ga gb (mulHigh) s

/-- MULHU: the high 64 bits, unsigned (R34). -/
def execMulhu (c : CoreId) (gd ga gb : Greg) (s : State) : Out :=
  binary c (wordA 0x09 gd ga gb 0x02) gd ga gb (mulHighU) s

/-- MULW: the low 32 bits, sign-extended (R34). -/
def execMulw (c : CoreId) (gd ga gb : Greg) (s : State) : Out :=
  binary c (wordA 0x09 gd ga gb 0x03) gd ga gb (fun a b => sext 32 (a * b)) s

/-- DIV (R34). -/
def execDiv (c : CoreId) (gd ga gb : Greg) (s : State) : Out :=
  binary c (wordA 0x09 gd ga gb 0x04) gd ga gb (divS) s

/-- DIVU (R34). -/
def execDivu (c : CoreId) (gd ga gb : Greg) (s : State) : Out :=
  binary c (wordA 0x09 gd ga gb 0x05) gd ga gb (divU) s

/-- REM (R34). -/
def execRem (c : CoreId) (gd ga gb : Greg) (s : State) : Out :=
  binary c (wordA 0x09 gd ga gb 0x06) gd ga gb (remS) s

/-- REMU (R34). -/
def execRemu (c : CoreId) (gd ga gb : Greg) (s : State) : Out :=
  binary c (wordA 0x09 gd ga gb 0x07) gd ga gb (remU) s

/-! ### Scalar floating point (R36, R185–R193) -/

/-- FADD (R36, R189). -/
def execFadd (c : CoreId) (gd ga gb : Greg) (dbl : Bool) (s : State) : Out :=
  fpBinary c 0x00 dbl gd ga gb fAdd s

/-- FSUB: ga + (−gb) (R36, R189). -/
def execFsub (c : CoreId) (gd ga gb : Greg) (dbl : Bool) (s : State) : Out :=
  fpBinary c 0x01 dbl gd ga gb (fun f m sat a b => fAdd f m sat a b.negate) s

/-- FMUL (R36, R189). -/
def execFmul (c : CoreId) (gd ga gb : Greg) (dbl : Bool) (s : State) : Out :=
  fpBinary c 0x02 dbl gd ga gb fMul s

/-- FDIV (R36, R189). -/
def execFdiv (c : CoreId) (gd ga gb : Greg) (dbl : Bool) (s : State) : Out :=
  fpBinary c 0x03 dbl gd ga gb fDiv s

/-- FSQRT (R36, R189). -/
def execFsqrt (c : CoreId) (gd ga gb : Greg) (dbl : Bool) (s : State) : Out :=
  fpInsn c 0x04 dbl gd ga gb [ga] (fun s => fpWord (fSqrt (fpFmt dbl) (s.mode c) (s.sat c) (fpVal dbl (s.greg c ga)))) s

/-- FMA: gd + ga × gb, one rounding (R36, R189). -/
def execFma (c : CoreId) (gd ga gb : Greg) (dbl : Bool) (s : State) : Out :=
  fpInsn c 0x05 dbl gd ga gb [gd, ga, gb]
    (fun s => fpWord (fFma (fpFmt dbl) (s.mode c) (s.sat c) (fpVal dbl (s.greg c gd)) (fpVal dbl (s.greg c ga)) (fpVal dbl (s.greg c gb)))) s

/-- FMIN, propagating (R36, R189). -/
def execFmin (c : CoreId) (gd ga gb : Greg) (dbl : Bool) (s : State) : Out :=
  fpInsn c 0x06 dbl gd ga gb [ga, gb]
    (fun s => fpWord (fMaxMin (fpFmt dbl) false (fpBits dbl (s.greg c ga)) (fpBits dbl (s.greg c gb)))) s

/-- FMAX, propagating (R36, R189). -/
def execFmax (c : CoreId) (gd ga gb : Greg) (dbl : Bool) (s : State) : Out :=
  fpInsn c 0x07 dbl gd ga gb [ga, gb]
    (fun s => fpWord (fMaxMin (fpFmt dbl) true (fpBits dbl (s.greg c ga)) (fpBits dbl (s.greg c gb)))) s

/-- FEQ (R36, R190). -/
def execFeq (c : CoreId) (gd ga gb : Greg) (dbl : Bool) (s : State) : Out :=
  fpCompare c 0x08 dbl gd ga gb true feqVal s

/-- FLT (R36, R190). -/
def execFlt (c : CoreId) (gd ga gb : Greg) (dbl : Bool) (s : State) : Out :=
  fpCompare c 0x09 dbl gd ga gb false fltVal s

/-- FLE (R36, R190). -/
def execFle (c : CoreId) (gd ga gb : Greg) (dbl : Bool) (s : State) : Out :=
  fpCompare c 0x0A dbl gd ga gb false (fun a b => !fltVal b a) s

/-- FCVT.I: to a signed 64-bit integer (R36, R191). -/
def execFcvtI (c : CoreId) (gd ga gb : Greg) (dbl : Bool) (s : State) : Out :=
  fpInsn c 0x0B dbl gd ga gb [ga]
    (fun s => let r := fToInt 64 (s.mode c) (fpVal dbl (s.greg c ga)); (BitVec.ofInt 64 r.1, r.2)) s

/-- FCVT.F: from a signed 64-bit integer (R36, R191). -/
def execFcvtF (c : CoreId) (gd ga gb : Greg) (dbl : Bool) (s : State) : Out :=
  fpInsn c 0x0C dbl gd ga gb [ga]
    (fun s => fpWord (fOfInt (fpFmt dbl) (s.mode c) (s.sat c) (s.greg c ga).toInt)) s

/-- FCVT.P: to the precision fn[7] selects, from the other (R36, R187). -/
def execFcvtP (c : CoreId) (gd ga gb : Greg) (dbl : Bool) (s : State) : Out :=
  fpInsn c 0x0D dbl gd ga gb [ga]
    (fun s => fpWord (packVal (fpFmt dbl) (s.mode c) (s.sat c) (fpVal (!dbl) (s.greg c ga)))) s

end Sys2Proof.Machine
end

