-- ==== Sys2Proof/Machine/Memory.lean ====
section
/-! DEFINITION. Scalar loads and stores, LD.ACQ, ST.REL, atomics and fences (R41, R52–R61, R83–R88, R92). -/

namespace Sys2Proof.Machine

open Sys2Proof

/-- An instruction's work after a checked access. -/
def onRes {α : Type} (r : CRes α × State) (f : α → State → Body) : Body :=
  match r with
  | (.ok a, s) => f a s
  | (.exc e, s) => .exc e s
  | (.wait, s) => .wait s

/-! ### Loads and stores (R52–R54) -/

/-- The value of the n bytes a load reads, sign- or zero-extended (R52). -/
def loadValue (signed : Bool) (bs : List Byte) : Word :=
  let w : Word := BitVec.ofNat 64 (fromBytes bs)
  if signed then sext (8 * bs.length) w else w

/-- A core whose oldest instruction waits: it completes before an event is taken when it has been issued to a home outside the caches
(R79, R81). -/
def State.issue (s : State) (c : CoreId) (out : Bool) : State := if out then s.updCore c fun x => { x with issued := true } else s

/-- Has a load of a core been issued to a host window and not been answered (R81)? -/
def State.loadOut (s : State) (c : CoreId) : Bool := s.drds.any fun d => d.own == .core c.val

/-- A scalar load of n bytes at an offset, whose result has a load shadow (R41, R52). -/
def load (c : CoreId) (word : Nat) (reads : List Greg) (gt : Greg) (sg : Sreg) (n : Nat) (signed : Bool) (ill : Core → Option Nat)
    (ea : Core → Word) (s : State) : Out :=
  runInsn c { word, reads, illegal := ill } (fun s =>
    match s.readData c sg .read (ea (s.core c)) n with
    | (.wait, s) => .wait (s.issue c (s.loadOut c))
    | r => onRes r fun bs s => .next (s.setGLoad c gt (loadValue signed bs))) s

/-- A scalar store of the low n bytes of gt at an offset (R52). -/
def store (c : CoreId) (word : Nat) (reads : List Greg) (gt : Greg) (sg : Sreg) (n : Nat) (ill : Core → Option Nat)
    (ea : Core → Word) (s : State) : Out :=
  runInsn c { word, reads, illegal := ill } (fun s =>
    onRes (s.writeData c sg (ea (s.core c)) (toBytes n (s.greg c gt).toNat)) fun _ s => .next s) s

/-- A load of format M. -/
def loadM (c : CoreId) (op : Nat) (gt ga : Greg) (sg : Sreg) (disp : BitVec 11) (n : Nat) (signed : Bool) (s : State) : Out :=
  load c (wordM op gt ga sg disp) [ga] gt sg n signed (fun _ => none) (fun x => x.eaM ga disp) s

/-- A store of format M. -/
def storeM (c : CoreId) (op : Nat) (gt ga : Greg) (sg : Sreg) (disp : BitVec 11) (n : Nat) (s : State) : Out :=
  store c (wordM op gt ga sg disp) [gt, ga] gt sg n (fun _ => none) (fun x => x.eaM ga disp) s

/-- LDB (R52). -/
def execLdb (c : CoreId) (gt ga : Greg) (sg : Sreg) (disp : BitVec 11) (s : State) : Out := loadM c 0x10 gt ga sg disp 1 true s
/-- LDBU (R52). -/
def execLdbu (c : CoreId) (gt ga : Greg) (sg : Sreg) (disp : BitVec 11) (s : State) : Out := loadM c 0x11 gt ga sg disp 1 false s
/-- LDH (R52). -/
def execLdh (c : CoreId) (gt ga : Greg) (sg : Sreg) (disp : BitVec 11) (s : State) : Out := loadM c 0x12 gt ga sg disp 2 true s
/-- LDHU (R52). -/
def execLdhu (c : CoreId) (gt ga : Greg) (sg : Sreg) (disp : BitVec 11) (s : State) : Out := loadM c 0x13 gt ga sg disp 2 false s
/-- LDW (R52). -/
def execLdw (c : CoreId) (gt ga : Greg) (sg : Sreg) (disp : BitVec 11) (s : State) : Out := loadM c 0x14 gt ga sg disp 4 true s
/-- LDWU (R52). -/
def execLdwu (c : CoreId) (gt ga : Greg) (sg : Sreg) (disp : BitVec 11) (s : State) : Out := loadM c 0x15 gt ga sg disp 4 false s
/-- LDD (R52). -/
def execLdd (c : CoreId) (gt ga : Greg) (sg : Sreg) (disp : BitVec 11) (s : State) : Out := loadM c 0x16 gt ga sg disp 8 false s

/-- Bytes of a type of LDX and STX by ctl[2:1] (R52). -/
def xBytes (ctl : BitVec 5) : Nat := 2 ^ (ctl.toNat / 2 % 4)

/-- LDX (R52): ctl[2:0] gives the type; 7 is reserved. -/
def execLdx (c : CoreId) (gt ga gb : Greg) (sg : Sreg) (ctl : BitVec 5) (s : State) : Out :=
  load c (wordX 0x17 gt ga gb sg ctl.toNat) [ga, gb] gt sg (xBytes ctl) (ctl.toNat % 2 == 0)
    (fun _ => if ctl.toNat % 8 = 7 then some 0x01 else none) (fun x => x.eaX ga gb ctl) s

/-- STB (R52). -/
def execStb (c : CoreId) (gt ga : Greg) (sg : Sreg) (disp : BitVec 11) (s : State) : Out := storeM c 0x18 gt ga sg disp 1 s
/-- STH (R52). -/
def execSth (c : CoreId) (gt ga : Greg) (sg : Sreg) (disp : BitVec 11) (s : State) : Out := storeM c 0x19 gt ga sg disp 2 s
/-- STW (R52). -/
def execStw (c : CoreId) (gt ga : Greg) (sg : Sreg) (disp : BitVec 11) (s : State) : Out := storeM c 0x1A gt ga sg disp 4 s
/-- STD (R52). -/
def execStd (c : CoreId) (gt ga : Greg) (sg : Sreg) (disp : BitVec 11) (s : State) : Out := storeM c 0x1B gt ga sg disp 8 s

/-- STX (R52): ctl[2:0] is 0, 2, 4 or 6; the others are reserved. -/
def execStx (c : CoreId) (gt ga gb : Greg) (sg : Sreg) (ctl : BitVec 5) (s : State) : Out :=
  store c (wordX 0x1C gt ga gb sg ctl.toNat) [gt, ga, gb] gt sg (xBytes ctl)
    (fun _ => if ctl.toNat % 2 = 1 then some 0x01 else none) (fun x => x.eaX ga gb ctl) s

/-! ### Acquire, release and atomics (R58–R61) -/

/-- The access of an acquire, a release or an atomic: the segment check, then natural alignment of the linear address (0x07), then
translation (R58, R59, R107). -/
def State.alignedAccess (s : State) (c : CoreId) (sg : Sreg) (k : AKind) (o : Word) (n : Nat) : CRes (List Piece) × State :=
  let x := s.core c
  let g := x.sgNow sg.toNat
  match segCheck g sg.toNat k x.ring o n with
  | some e => (.exc e, s)
  | none =>
    if (g.base + o.toNat) % n ≠ 0 then (.exc ⟨0x07, sg.toNat + 8 * k.code, o⟩, s)
    else
      match s.dataAccess c sg k o n with
      | (.ok ps, s) => if s.vecHolds c ps k.writes then (.wait, s) else (.ok ps, s)
      | r => r

/-- LD.ACQ (R55, R58, R91): a read at the home, the data cache invalidated; it has no shadow. -/
def execLdAcq (c : CoreId) (gt ga gb : Greg) (sg : Sreg) (ctl : BitVec 5) (s : State) : Out :=
  let n := if bit ctl 3 then 8 else 4
  runInsn c { word := wordX 0x1D gt ga gb sg (ctl.toNat % 16), reads := [ga]
              illegal := fun _ => if gb ≠ 0 ∨ ctl.toNat % 8 ≠ 0 then some 0x01 else none } (fun s =>
    let o := s.greg c ga
    onRes (s.alignedAccess c sg .read o n) fun ps s =>
      match (s.dropCache c).homeLoad c ps with
      | (.ok bs, s) => .next (s.setG c gt (loadValue true bs))
      | (.err _, s) => .exc (dataExc false o) s
      | (.poison, s) => .exc (dataExc true o) (s.corePoison c ps 0)
      | (.wait, s) => .wait (s.issue c true)) s

/-- ST.REL (R58, R92): performed after every earlier load and store. -/
def execStRel (c : CoreId) (gt ga gb : Greg) (sg : Sreg) (ctl : BitVec 5) (s : State) : Out :=
  let n := if bit ctl 3 then 8 else 4
  runInsn c { word := wordX 0x1D gt ga gb sg (16 + ctl.toNat % 16), reads := [gt, ga]
              illegal := fun _ => if gb ≠ 0 ∨ ctl.toNat % 8 ≠ 0 then some 0x01 else none } (fun s =>
    let o := s.greg c ga
    onRes (s.alignedAccess c sg .write o n) fun ps s =>
      if !s.allAcked c then .wait s
      else onRes ((s.acked c).storeBytes c o ps (toBytes n (s.greg c gt).toNat)) fun _ s => .next s) s

/-- An atomic (R59–R61): the new value as a function of gd's value, the old value and gb's, in n bits; gd receives the old value. -/
def atomic (c : CoreId) (op code : Nat) (gd ga gb : Greg) (sg : Sreg) (ord : BitVec 2) (dw cas : Bool)
    (f : (n : Nat) → BitVec n → BitVec n → BitVec n → BitVec n) (s : State) : Out :=
  let n := if dw then 8 else 4
  runInsn c { word := wordX op gd ga gb sg (ord.toNat * 8 + 4 * b2n dw + code), reads := if cas then [gd, ga, gb] else [ga, gb] } (fun s =>
    let o := s.greg c ga
    let d := s.greg c gd
    let b := s.greg c gb
    onRes (s.alignedAccess c sg .atomic o n) fun ps s =>
      if bit ord 1 && !s.allAcked c then .wait s
      else
      let s := if bit ord 0 then s.dropCache c else s
      let s := if bit ord 1 then s.acked c else s
      match s.atomicAt c (ps.headD {}) fun old => (f (8 * n) (d.setWidth _) (BitVec.ofNat _ old) (b.setWidth _)).toNat with
      | (.ok old, s) => .next (s.setG c gd (loadValue true (toBytes n old)))
      | (.err _, s) => .exc (dataExc false o) s
      | (.poison, s) => .exc (dataExc true o) (s.corePoison c ps 0)
      | (.wait, s) => .wait (s.issue c true)) s

/-- ATOM_SWAP (R59). -/
def execAtomSwap (c : CoreId) (gd ga gb : Greg) (sg : Sreg) (ord : BitVec 2) (dw : Bool) (s : State) : Out :=
  atomic c 0x1E 0 gd ga gb sg ord dw false (fun _ _ _ b => b) s
/-- ATOM_ADD (R59). -/
def execAtomAdd (c : CoreId) (gd ga gb : Greg) (sg : Sreg) (ord : BitVec 2) (dw : Bool) (s : State) : Out :=
  atomic c 0x1E 1 gd ga gb sg ord dw false (fun _ _ old b => old + b) s
/-- ATOM_AND (R59). -/
def execAtomAnd (c : CoreId) (gd ga gb : Greg) (sg : Sreg) (ord : BitVec 2) (dw : Bool) (s : State) : Out :=
  atomic c 0x1E 2 gd ga gb sg ord dw false (fun _ _ old b => old &&& b) s
/-- ATOM_OR (R59). -/
def execAtomOr (c : CoreId) (gd ga gb : Greg) (sg : Sreg) (ord : BitVec 2) (dw : Bool) (s : State) : Out :=
  atomic c 0x1E 3 gd ga gb sg ord dw false (fun _ _ old b => old ||| b) s
/-- ATOM_XOR (R59). -/
def execAtomXor (c : CoreId) (gd ga gb : Greg) (sg : Sreg) (ord : BitVec 2) (dw : Bool) (s : State) : Out :=
  atomic c 0x1F 0 gd ga gb sg ord dw false (fun _ _ old b => old ^^^ b) s
/-- ATOM_SMAX (R59). -/
def execAtomSmax (c : CoreId) (gd ga gb : Greg) (sg : Sreg) (ord : BitVec 2) (dw : Bool) (s : State) : Out :=
  atomic c 0x1F 1 gd ga gb sg ord dw false (fun _ _ old b => if old.slt b then b else old) s
/-- ATOM_SMIN (R59). -/
def execAtomSmin (c : CoreId) (gd ga gb : Greg) (sg : Sreg) (ord : BitVec 2) (dw : Bool) (s : State) : Out :=
  atomic c 0x1F 2 gd ga gb sg ord dw false (fun _ _ old b => if b.slt old then b else old) s
/-- ATOM_UMAX (R59). -/
def execAtomUmax (c : CoreId) (gd ga gb : Greg) (sg : Sreg) (ord : BitVec 2) (dw : Bool) (s : State) : Out :=
  atomic c 0x1F 3 gd ga gb sg ord dw false (fun _ _ old b => if old.ult b then b else old) s
/-- ATOM_UMIN (R59). -/
def execAtomUmin (c : CoreId) (gd ga gb : Greg) (sg : Sreg) (ord : BitVec 2) (dw : Bool) (s : State) : Out :=
  atomic c 0x20 0 gd ga gb sg ord dw false (fun _ _ old b => if b.ult old then b else old) s
/-- CAS (R60). -/
def execCas (c : CoreId) (gd ga gb : Greg) (sg : Sreg) (ord : BitVec 2) (dw : Bool) (s : State) : Out :=
  atomic c 0x20 1 gd ga gb sg ord dw true (fun _ d old b => if old = d then b else old) s

/-! ### Fences (R57, R92, R102) -/

/-- An instruction of the fence group: its register fields are written 0 (R32). -/
def fence (c : CoreId) (fn : Nat) (gd ga gb : Greg) (f : State → Body) (s : State) : Out :=
  runInsn c { word := wordA 0x21 gd ga gb fn, illegal := fun _ => if gd ≠ 0 ∨ ga ≠ 0 ∨ gb ≠ 0 then some 0x01 else none } f s

/-- FENCE.LL (R55, R57). -/
def execFenceLl (c : CoreId) (gd ga gb : Greg) (s : State) : Out := fence c 0 gd ga gb (fun s => .next (s.dropCache c)) s

/-- FENCE.SS (R57, R92): it does not wait, and later stores stay in the buffer until the earlier ones are performed. -/
def execFenceSs (c : CoreId) (gd ga gb : Greg) (s : State) : Out :=
  fence c 1 gd ga gb (fun s => .next ((s.updCore c fun x => { x with fenced := x.unacked.length }).acked c)) s

/-- FENCE.FULL (R55, R57, R92): every earlier store has been acknowledged before anything later is performed. -/
def execFenceFull (c : CoreId) (gd ga gb : Greg) (s : State) : Out :=
  fence c 2 gd ga gb (fun s => if s.allAcked c then .next ((s.dropCache c).acked c) else .wait s) s

/-- Has every earlier access and gang operation of a core been performed (R92, R235, R249, R280)? -/
def State.engQuiet (s : State) (c : CoreId) : Bool := s.accessesDone c && s.gangQuiet c

/-- FENCE.ENG (R57, R92): it waits until every earlier vector, tile and engine access of this core has been performed. -/
def execFenceEng (c : CoreId) (gd ga gb : Greg) (s : State) : Out :=
  fence c 3 gd ga gb (fun s =>
    if s.engQuiet c then .next (s.acked c) else .wait s) s

/-- ISYNC (R57, R92, R102): it waits for every earlier store; the instruction cache, the line buffer and the descriptor cache are
invalidated. -/
def execIsync (c : CoreId) (gd ga gb : Greg) (s : State) : Out :=
  fence c 4 gd ga gb (fun s =>
    if s.allAcked c then .next ((s.acked c).updCore c fun x => { x with descs := [], icache := [] }) else .wait s) s

end Sys2Proof.Machine
end

