-- ==== Sys2Proof/Machine/Flow.lean ====
section
/-! DEFINITION. Branches, jumps, calls and hardware loops (R37–R39, R46). -/

namespace Sys2Proof.Machine

open Sys2Proof

/-- A compare-and-branch (R37, R38). -/
def branch (c : CoreId) (op : Nat) (ga gb : Greg) (disp : BitVec 14) (taken : Word → Word → Bool) (s : State) : Out :=
  runInsn c { word := wordB op ga gb disp, xfer := true, noEnd := true, reads := [ga, gb] } (fun s =>
    let a := (s.core c).ip
    .xfer s (.go (if taken (s.greg c ga) (s.greg c gb) then a + (sx disp <<< 2) else a + 8) none)) s

/-- BEQ (R37). -/
def execBeq (c : CoreId) (ga gb : Greg) (disp : BitVec 14) (s : State) : Out := branch c 0x22 ga gb disp (fun a b => a == b) s
/-- BNE (R37). -/
def execBne (c : CoreId) (ga gb : Greg) (disp : BitVec 14) (s : State) : Out := branch c 0x23 ga gb disp (fun a b => a != b) s
/-- BLT, signed (R37). -/
def execBlt (c : CoreId) (ga gb : Greg) (disp : BitVec 14) (s : State) : Out := branch c 0x24 ga gb disp (fun a b => a.slt b) s
/-- BGE, signed (R37). -/
def execBge (c : CoreId) (ga gb : Greg) (disp : BitVec 14) (s : State) : Out := branch c 0x25 ga gb disp (fun a b => !a.slt b) s
/-- BLTU (R37). -/
def execBltu (c : CoreId) (ga gb : Greg) (disp : BitVec 14) (s : State) : Out := branch c 0x26 ga gb disp (fun a b => a.ult b) s
/-- BGEU (R37). -/
def execBgeu (c : CoreId) (ga gb : Greg) (disp : BitVec 14) (s : State) : Out := branch c 0x27 ga gb disp (fun a b => !a.ult b) s

/-- A jump to A + 4 × sext(disp26), with the link of A + 8 or none (R37, R38). -/
def jump (c : CoreId) (op : Nat) (disp : BitVec 26) (link : Bool) (s : State) : Out :=
  runInsn c { word := wordJ op disp, xfer := true, noEnd := true } (fun s =>
    let a := (s.core c).ip
    .xfer s (.go (a + (sx disp <<< 2)) (if link then some (a + 8) else none))) s

/-- J (R37). -/
def execJ (c : CoreId) (disp : BitVec 26) (s : State) : Out := jump c 0x28 disp false s
/-- CALL (R37, R38). -/
def execCall (c : CoreId) (disp : BitVec 26) (s : State) : Out := jump c 0x29 disp true s

/-- A jump to the offset in ga, bits [1:0] ignored (R37). -/
def jumpReg (c : CoreId) (gd ga gb : Greg) (fn : Nat) (link : Bool) (s : State) : Out :=
  runInsn c { word := wordA 0x2A gd ga gb fn, xfer := true, noEnd := true, reads := [ga] } (fun s =>
    let a := (s.core c).ip
    .xfer s (.go (s.greg c ga &&& ~~~(3 : Word)) (if link then some (a + 8) else none))) s

/-- JR (R37). -/
def execJr (c : CoreId) (gd ga gb : Greg) (s : State) : Out := jumpReg c gd ga gb 0x00 false s
/-- CALLR (R37, R38): CALLR g63 jumps to the old link. -/
def execCallr (c : CoreId) (gd ga gb : Greg) (s : State) : Out := jumpReg c gd ga gb 0x01 true s

/-- A core whose loop level n is set up (R46): LS, LE, LC, STATUS.LP. -/
def Core.setLoop (x : Core) (n : Nat) (start last count : Word) : Core :=
  { x with
    ls := put (fun _ => 0) x.ls n start
    le := put (fun _ => 0) x.le n last
    lc := put (fun _ => 0) x.lc n count
    status := setBit x.status 3 true }

/-- LOOP (R46): n = 3 and disp18 = 0 raise 0x01; a count of 0 skips the body. -/
def execLoop (c : CoreId) (n : BitVec 2) (gc : Greg) (disp : BitVec 18) (s : State) : Out :=
  runInsn c { word := wordL 0x2B n gc disp, xfer := true, noEnd := true, reads := [gc]
              illegal := fun _ => if n = 3 ∨ disp = 0 then some 0x01 else none } (fun s =>
    let a := (s.core c).ip
    let le := a + (zx disp <<< 2)
    let v := s.greg c gc
    .jump (s.updCore c fun x => x.setLoop n.toNat (a + 4) le v) (if v = 0 then le + 4 else a + 4)) s

end Sys2Proof.Machine
end

