-- ==== Sys2Proof/Machine/System.lean ====
section
/-! DEFINITION. The system group: control registers, segment registers, gates, the return from an exception and its chaining, BRK, WFI,
and interrupts reaching a core (R62, R63, R77, R96–R121, R146, R147, R185, R208–R210, R231, R239). -/

namespace Sys2Proof.Machine

open Sys2Proof

/-! ### VTYPE and VL (R146, R147) -/

/-- SEW in bits (R146). -/
def sewBits (vt : Word) : Nat := match bits vt 2 0 with | 0 => 8 | 1 => 16 | 2 => 32 | 3 => 64 | _ => 4

/-- VGRP in registers (R146). -/
def vgrp (vt : Word) : Nat := 2 ^ bits vt 4 3

/-- VTYPE.ILL. -/
def vIll (vt : Word) : Bool := bit vt 63

/-- VLMAX (R147). -/
def vlMax (vt : Word) : Nat := vgrp vt * 16384 / sewBits vt

/-- Is a VTYPE image reserved (R146)? -/
def vtypeReserved (v : Word) : Bool :=
  decide (4 < bits v 2 0) || (bit v 5 && decide (1 < bits v 2 0)) || bits v 62 6 != 0

/-- VTYPE and VL after a write of VTYPE (R146, R147). -/
def Core.writeVtype (x : Core) (v : Word) : Core :=
  if vtypeReserved v then { x with vtype := setBit 0 63 true, vl := 0 }
  else
    let vt := v &&& maskBits 5 0
    { x with vtype := vt, vl := BitVec.ofNat 64 (min x.vl.toNat (vlMax vt)) }

/-- VL after a MOVC.W (R147). -/
def Core.writeVl (x : Core) (v : Word) : Core := { x with vl := BitVec.ofNat 64 (min v.toNat (vlMax x.vtype)) }

/-! ### Asynchronous events (R109, R112) -/

/-- A pending event: its entry, and the core with it accepted. -/
structure Event where
  entry : Entry
  taken : Core

/-- The pending events in the order R112 takes them: machine check, watchdog pre-warning, interrupts by vector. -/
def Core.events (x : Core) : List Event :=
  (match x.mchk with
    | m :: rest => [⟨{ vec := 0x0F, info := m.1, eaddr := m.2, async := true }, { x with mchk := rest }⟩]
    | [] => [])
  ++ (if x.prewarn then [⟨{ vec := 32, info := 0x80000018, async := true }, { x with prewarn := false }⟩] else [])
  ++ (x.irq.mergeSort fun a b => decide (a.vec ≤ b.vec)).map fun (p : IrqPend) =>
      ⟨{ vec := p.vec, info := p.die, async := true }, { x with irq := x.irq.filter fun q => q.vec != p.vec }⟩

/-- The first of the events that a core at a ring could accept, with its handler descriptor (R112): T at most the ring, or a
descriptor that cannot be read or has P = 0; none while memory cannot answer. -/
def State.chooseEvent (s : State) (c : CoreId) (ring : Nat) : List Event → Option (Option (Event × List Word)) × State
  | [] => (some none, s)
  | e :: es =>
    match s.descriptor c 0 e.entry.vec (bits (s.core c).hdtb 47 13 * 2 ^ 13 + 32 * e.entry.vec) 4 with
    | (.wait, s) => (none, s)
    | (.ok ws, s) =>
      if !bit (ws.getD 2 0) 36 || decide (bits (ws.getD 2 0) 33 32 ≤ ring) then (some (some (e, ws)), s) else s.chooseEvent c ring es
    | (_, s) => (some (some (e, [])), s)

/-! ### Control registers (R63, R121) -/

/-- Least privileged rings that may read and write a control register, none where it is undefined (R63). -/
def cregRings (sys : Bool) (n : Nat) : Option (Nat × Nat) :=
  if n = 0x000 then some (3, 1)
  else if n ∈ [0x001, 0x002, 0x003, 0x004] then some (1, 1)
  else if n ∈ [0x010, 0x011, 0x012] then some (0, 0)
  else if n = 0x013 then some (1, 1)
  else if 0x020 ≤ n ∧ n ≤ 0x029 then (if sys then none else some (3, 3))
  else if n ∈ [0x030, 0x031, 0x032, 0x040, 0x041, 0x042, 0x044, 0x045, 0x046, 0x048, 0x049, 0x04A] then some (3, 3)
  else none

/-- What a control register reads as (R63). -/
def Core.readCreg (x : Core) (n : Nat) : Word :=
  match n with
  | 0x000 => x.status | 0x001 => x.epc | 0x002 => x.estatus | 0x003 => x.exinfo | 0x004 => x.eaddr
  | 0x010 => x.hdtb | 0x011 => x.gtb | 0x012 => x.sgtb | 0x013 => x.ptb
  | 0x028 => x.tstart | 0x029 => x.accg | 0x030 => x.vl | 0x031 => x.vtype | 0x032 => x.fpflags
  | n =>
    if n < 0x028 then x.tcfgOf (n - 0x020)
    else if n < 0x044 then x.lsOf (n - 0x040)
    else if n < 0x048 then x.leOf (n - 0x044)
    else x.lcOf (n - 0x048)

/-- Is a TCFG image invalid for tile n (R209)? -/
def tcfgInvalid (n : Nat) (v : Word) : Bool :=
  let rsv := bits v 15 11 != 0 || bits v 31 28 != 0 || bits v 62 40 != 0
  let rows := tcfgRows v
  let rb := tcfgRb v
  let t := tcfgEtype v
  rsv || (rows != 0 && (decide (1024 < rows) || rb == 0 || decide (2048 < rb) || decide (131072 < rows * rb) || decide (0xC < t)
    || (tcfgSc v && !(isNarrow t || t == 11)) || (!tcfgSc v && t == 11) || (tcfgSc v && tcfgSct v == n)))

/-- TCFGn as a MOVC.W leaves it (R209). -/
def tcfgWritten (n : Nat) (v : Word) : Word := if tcfgInvalid n v then setBit 0 63 true else v &&& maskBits 62 0

/-- A control register written (R49, R63, R76, R77, R102, R109, R121, R124, R146, R147, R185, R239); TCFG apart. -/
def Core.writeCreg (x : Core) (n : Nat) (v : Word) : Core :=
  match n with
  | 0x000 => { x with status := setBits x.status 4 2 (bits v 4 2), msh := some { sg0 := x.sgOf 0, im := x.im } }
  | 0x001 => { x with epc := v }
  | 0x002 => { x with estatus := v &&& maskBits 15 0 }
  | 0x003 => { x with exinfo := v &&& maskBits 40 0 }
  | 0x004 => { x with eaddr := v }
  | 0x010 => { x with hdtb := v &&& maskBits 47 13, hdtbSet := true, descs := [] }
  | 0x011 => { x with gtb := v &&& (maskBits 12 0 ||| maskBits 47 17), descs := [] }
  | 0x012 => { x with sgtb := v &&& (maskBits 14 0 ||| maskBits 47 18), descs := [] }
  | 0x013 => { x with ptb := v &&& (maskBits 0 0 ||| maskBits 47 19), tlb := [], wcache := [] }
  | 0x028 => { x with tstart := v &&& maskBits 61 0 }
  | 0x029 => { x with accg := v &&& maskBits 5 0 }
  | 0x030 => x.writeVl v
  | 0x031 => x.writeVtype v
  | 0x032 => { x with fpflags := fpWrite x.fpflags v }
  | n =>
    if n < 0x044 then { x with ls := put (fun _ => 0) x.ls (n - 0x040) v }
    else if n < 0x048 then { x with le := put (fun _ => 0) x.le (n - 0x044) v }
    else { x with lc := put (fun _ => 0) x.lc (n - 0x048) v }

/-- TCFGn written: the tile's write-generation count advances (R209, R210). -/
def State.writeTcfg (s : State) (c : CoreId) (n : Nat) (v : Word) : State :=
  let s := s.updCore c fun x => { x with tcfg := put (fun _ => 0) x.tcfg n (tcfgWritten n v) }
  s.updEngine (dieOf c).val fun e =>
    let k := tileSlot (coreK c).val n
    { e with gen := put (fun _ => 0) e.gen k (e.genOf k + 1) }

/-- The vector instructions that raise floating-point flags (R157, R159, R160, R162, R163). -/
def VOp.fp : VOp → Bool
  | .fadd | .fsub | .fmul | .fdiv | .fsqrt | .fma | .fnma | .fmin | .fmax | .fcvtI | .fcvtF | .fcvtW | .fcvtN
  | .fwmul | .fwma | .fdot4 | .fdot2 | .fcmpeq | .fcmplt | .fcmple | .fcmpun | .fredsum | .fredmax | .fredmin => true
  | _ => false

/-- Does the core take a pending machine-check notification before its oldest instruction (R112, R231)? -/
def Core.mchkFirst (x : Core) : Bool :=
  !x.mchk.isEmpty && !x.im && x.hdtbSet && !x.entered && x.boundary && x.oldMode.isNone

/-- Does an access to a control register wait: FPFLAGS for earlier vector floating point (R77, R192), a read of VL for a VLDFF that sets it
(R151), a TCFG write for operations that name the tile, the rows a TPUSH of it has stored among them (R231)? -/
def Core.cregWaits (x : Core) (n : Nat) (write : Bool) : Bool :=
  (n == 0x032 && x.vq.any fun t => t.op.fp)
    || (n == 0x030 && !write && x.vq.any fun t => t.op == .ldff)
    || (write && decide (0x020 ≤ n ∧ n < 0x028)
        && ((x.tq.any fun t => t.tile == n - 0x020) || x.unacked.any fun e => e.idx == tpushIdx (n - 0x020)))

/-- Does a MOVC.W to a tile's configuration let a machine-check notification be accepted before it (R231): one is pending, and the core may
take it at its ring (R112)? -/
def State.mchkNow (s : State) (c : CoreId) : Bool × State :=
  let x := s.core c
  if x.mchkFirst then
    match s.chooseEvent c x.ring (x.events.filter fun e => e.entry.vec == 0x0F) with
    | (some none, s) => (false, s)
    | (_, s) => (true, s)
  else (false, s)

/-- MOVC.R (R62, R63). -/
def execMovcR (c : CoreId) (g : Greg) (creg : BitVec 12) (s : State) : Out :=
  let n := creg.toNat
  runInsn c { word := wordS g creg 0x00
              illegal := fun x => match cregRings (isSystem c) n with
                | none => some 0x01
                | some r => if r.1 < x.ring then some 0x02 else none } (fun s =>
    let x := s.core c
    if x.cregWaits n false then .wait s else .next (s.setG c g (x.readCreg n))) s

/-- MOVC.W (R62, R63, R77). -/
def movcWrite (c : CoreId) (g : Greg) (creg : BitVec 12) (s : State) : Out :=
  let n := creg.toNat
  runInsn c { word := wordS g creg 0x01, reads := [g]
              illegal := fun x => match cregRings (isSystem c) n with
                | none => some 0x01
                | some r => if r.2 < x.ring then some 0x02 else none } (fun s =>
    let x := s.core c
    let v := x.gread g
    if x.cregWaits n true then .wait s
    else if 0x020 ≤ n ∧ n < 0x028 then
      let k := s.mchkNow c
      if k.1 then .wait k.2 else .next (k.2.writeTcfg c (n - 0x020) v)
    else .next (s.updCore c fun x => x.writeCreg n v)) s

/-- MOVC.W (R62). -/
def execMovcW (c : CoreId) (g : Greg) (creg : BitVec 12) (s : State) : Out := movcWrite c g creg s
/-- MOVC.W of STATUS (R63, R76, R121). -/
def execStatusWrite (c : CoreId) (g : Greg) (s : State) : Out := movcWrite c g 0x000 s
/-- MOVC.W of HDTB, GTB or SGTB (R102, R109, R121). -/
def execTableBaseWrite (c : CoreId) (g : Greg) (creg : BitVec 12) (s : State) : Out := movcWrite c g creg s
/-- MOVC.W of PTB (R124). -/
def execPtbWrite (c : CoreId) (g : Greg) (s : State) : Out := movcWrite c g 0x013 s
/-- MOVC.W of LS, LE or LC (R49). -/
def execLoopRegWrite (c : CoreId) (g : Greg) (creg : BitVec 12) (s : State) : Out := movcWrite c g creg s
/-- MOVC.W of VL (R147). -/
def execVlWrite (c : CoreId) (g : Greg) (s : State) : Out := movcWrite c g 0x030 s
/-- MOVC.W of VTYPE (R146, R147). -/
def execVtypeWrite (c : CoreId) (g : Greg) (s : State) : Out := movcWrite c g 0x031 s
/-- MOVC.W of FPFLAGS (R185, R192). -/
def execFpflagsWrite (c : CoreId) (g : Greg) (s : State) : Out := movcWrite c g 0x032 s
/-- MOVC.W of TCFG0–TCFG7 (R209, R210, R231). -/
def execTcfgWrite (c : CoreId) (g : Greg) (creg : BitVec 12) (s : State) : Out := movcWrite c g creg s

/-! ### Segment registers (R96, R97) -/

/-- MOVSG (R63, R97): segment register [10:8] of the field. -/
def execMovsg (c : CoreId) (g : Greg) (code : BitVec 12) (s : State) : Out :=
  let n := bits code 10 8
  runInsn c { word := wordS g code 0x02, reads := [g] } (fun s =>
    let x := s.core c
    match s.segLoad c n (x.gread g) x.ring with
    | (.wait, s) => .wait s
    | (.bad vec, s) => .exc ⟨vec, n + (if vec = 0x04 then 2 ^ 6 else 0), 0⟩ s
    | (.ok sg, s) => .next (s.updCore c fun x =>
        { x.setSg n sg with msh := if n = 0 then some { sg0 := x.sgOf 0, im := x.im } else none })) s

/-- MOVSG.R (R97). -/
def execMovsgR (c : CoreId) (g : Greg) (code : BitVec 12) (s : State) : Out :=
  runInsn c { word := wordS g code 0x03 } (fun s =>
    .next (s.setG c g (((s.core c).sgOf (bits code 10 8)).sel.setWidth 64))) s

/-! ### Gates (R101, R103–R105) -/

/-- A gate fault (R103, R106). -/
def gateFault (n reason : Nat) (off : Word) : Exc := ⟨0x0A, reason + 2 ^ 16 * n, off⟩

/-- A return fault (R105, R116, R106). -/
def returnFault (retx : Bool) (reason : Nat) (off : Word) : Exc := ⟨0x0B, reason + 2 ^ 4 * b2n retx, off⟩

/-- The parts of a store of n bytes that passes R99, translation and the R80 decode; none when one of them fails. -/
def State.storable (s : State) (c : CoreId) (g : SegReg) (sg : Nat) (ring : Nat) (o : Word) (n : Nat) : Option (CRes (List Piece)) × State :=
  match s.checkAccess c g sg .write ring o n with
  | (.wait, s) => (some .wait, s)
  | (.exc _, s) => (none, s)
  | (.ok ps, s) =>
    match s.storeCheck c (decide (1 < ps.length)) ps with
    | some (_, s) => (none, s)
    | none =>
      if ps.any fun p => match s.decodePA p.pa with | .ctrl _ => true | _ => false then (none, s)
      else if ps.any (s.partBusy (reqOf c)) || s.vecHolds c ps true || s.storeHeld c then (some .wait, s)
      else (some (.ok ps), s)

/-- CALLG (R103, R104): the checks before the slot. -/
def execCallg (c : CoreId) (g : Greg) (code : BitVec 12) (s : State) : Out :=
  let n := code.toNat
  runInsn c { word := wordS g code 0x04, xfer := true, noEnd := true, reads := [62] } (fun s =>
    let x := s.core c
    let bad (r : Nat) (s : State) : Body := .exc (gateFault n r 0) s
    if min (bits x.gtb 12 0) 4096 ≤ n then bad 1 s
    else
      match s.descriptor c 1 n (bits x.gtb 47 17 * 2 ^ 17 + 32 * n) 4 with
      | (.wait, s) => .wait s
      | (.ok [d0, d1, d2, _], s) =>
        let t := bits d2 33 32
        if !bit d2 36 then bad 2 s
        else if bits d2 35 34 < x.ring then bad 3 s
        else if x.ring < t then bad 4 s
        else
          match s.segLoad c 0 (BitVec.ofNat 64 (bits d2 15 0)) t with
          | (.wait, s) => .wait s
          | (.bad _, s) => bad 5 s
          | (.ok cs, s) =>
            let inner := decide (t < x.ring)
            match if inner then s.segLoad c 7 (BitVec.ofNat 64 (bits d2 31 16)) t else (.ok (x.sgOf 7), s) with
            | (.wait, s) => .wait s
            | (.bad _, s) => bad 6 s
            | (.ok ss, s) =>
              let sp := if inner then BitVec.ofNat 64 (bits d1 51 0) else x.gread 62
              let rec_ := (sp - 32) &&& ~~~(0x1F : Word)
              match s.storable c ss 7 t rec_ 32 with
              | (some (.ok ps), s) =>
                let record : List Word := [x.ip + 8, x.gread 62,
                  BitVec.ofNat 64 ((x.sgOf 0).sel.toNat + 2 ^ 16 * (x.sgOf 7).sel.toNat), BitVec.ofNat 64 (x.ring + 4 * b2n x.im)]
                .xfer s (.callg ps record rec_ (d0 &&& 0xFFFFFFFFFFFFC) cs ss t)
              | (some _, s) => .wait s
              | (none, s) => .exc (gateFault n 7 rec_) s
      | (_, s) => bad 2 s) s

/-- n doublewords read through sg7 at an offset by RETG or RETX; none when R99, translation or the home access fails. -/
def State.readStack (s : State) (c : CoreId) (o : Word) (n : Nat) : Option (CRes (List Word)) × State :=
  match s.dataAccess c 7 .read o (8 * n) with
  | (.wait, s) => (some .wait, s)
  | (.exc _, s) => (none, s)
  | (.ok ps, s) =>
    if s.vecHolds c ps false then (some .wait, s)
    else match s.loadBytes c false ps with
    | (.ok bs, s) => (some (.ok (words64 n bs)), s)
    | (.wait, s) => (some .wait, s)
    | (.poison, s) => (none, s.corePoison c ps 0)
    | (.err _, s) => (none, s)

/-- RETG (R105): the record is read and checked before the slot. -/
def execRetg (c : CoreId) (g : Greg) (code : BitVec 12) (s : State) : Out :=
  runInsn c { word := wordS g code 0x05, xfer := true, noEnd := true, reads := [62] } (fun s =>
    let x := s.core c
    let o := x.gread 62
    let bad (r : Nat) (s : State) : Body := .exc (returnFault false r o) s
    match s.readStack c o 4 with
    | (some (.ok ws), s) =>
      let w2 := ws.getD 2 0
      let w3 := ws.getD 3 0
      let r := bits w3 1 0
      if r < x.ring then bad 2 s
      else
        match s.segLoad c 0 (BitVec.ofNat 64 (bits w2 15 0)) r with
        | (.wait, s) => .wait s
        | (.bad _, s) => bad 3 s
        | (.ok cs, s) =>
          match s.segLoad c 7 (BitVec.ofNat 64 (bits w2 31 16)) r with
          | (.wait, s) => .wait s
          | (.bad _, s) => bad 4 s
          | (.ok ss, s) => .xfer s (.retg (ws.getD 0 0 &&& ~~~(3 : Word)) (ws.getD 1 0) cs ss r (bit w3 2))
    | (some _, s) => .wait s
    | (none, s) => bad 1 s) s

/-! ### RETX (R116–R118) -/

/-- The core after RETX returns through a frame (R117). R105 ignores bits [1:0] of RETG's return offset and R117 says nothing of those of
the frame's EPC: execution goes on at the offset as it stands (DESIGN CHOICE, log entry 43). -/
def Core.returned (x : Core) (ws : List Word) (cs ss : SegReg) (old : Option SegReg) : Core :=
  let es := ws.getD 1 0
  let x := ((x.setSg 0 cs).setSg 7 ss).gwrite 62 (ws.getD 5 0)
  { x with
    status := setBits (setBits x.status 3 0 (bits es 3 0)) 4 4 (b2n (bit es 7))
    lsh := if bits es 15 14 = 0 then []
      else [{ reg := BitVec.ofNat 6 (bits es 13 8), old := ws.getD 4 0, was := ws.getD 4 0, left := bits es 15 14, ip := ws.getD 0 0, lc := x.lc }]
    msh := old.map fun g => { sg0 := g, im := bit es 6 }
    entered := false, ip := ws.getD 0 0 }

/-- The core in a chained handler (R118). -/
def Core.chained (x : Core) (ws : List Word) (e : Entry) (d0 d2 : Word) (cs : SegReg) : Core :=
  { x.setSg 0 cs with
    epc := ws.getD 0 0, estatus := ws.getD 1 0 &&& maskBits 15 0, exinfo := e.word, eaddr := e.eaddr
    status := setBits x.status 2 2 (b2n (bit d2 38)), lsh := [], msh := none, entered := true, wfi := false
    ip := d0 &&& 0xFFFFFFFFFFFFC }

/-- The chain of R118, if its conditions hold: the new state; `some none` when no chain is made. -/
def State.tryChain (s : State) (c : CoreId) (f : Word) (ws : List Word) : Option (Option State) × State :=
  let x := s.core c
  let es := ws.getD 1 0
  if bit es 2 || !x.hdtbSet then (some none, s)
  else
    match s.chooseEvent c (bits es 1 0) x.events with
    | (none, s) => (none, s)
    | (some (some (e, [d0, _, d2, _])), s) =>
      if !(bit d2 36 && bits d2 33 32 == x.ring && !bit d2 37 && bits d2 29 16 == (x.sgOf 7).sel.toNat) then (some none, s)
      else
        match s.segLoad c 0 (BitVec.ofNat 64 (bits d2 15 0)) x.ring with
        | (.wait, s) => (none, s)
        | (.bad _, s) => (some none, s)
        | (.ok cs, s) =>
          match s.storable c (x.sgOf 7) 7 x.ring (f + 0x10) 16 with
          | (some (.ok ps), s) =>
            let s := s.postStore c 2 (f + 0x10) ps (bytesOf [e.entry.word, e.entry.eaddr])
            (some (some (s.updCore c fun y => Core.chained { y with mchk := e.taken.mchk, prewarn := e.taken.prewarn, irq := e.taken.irq }
              ws e.entry d0 d2 cs)), s)
          | (some _, s) => (none, s)
          | (none, s) => (some none, s)
    | (some _, s) => (some none, s)

/-- RETX (R116–R118). -/
def execRetx (c : CoreId) (g : Greg) (code : BitVec 12) (s : State) : Out :=
  runInsn c { word := wordS g code 0x06, xfer := true, noEnd := true, reads := [62] } (fun s =>
    let x := s.core c
    let f := x.gread 62
    let bad (r : Nat) (s : State) : Body := .exc (returnFault true r f) s
    match s.readStack c f 8 with
    | (some (.ok ws), s) =>
      let es := ws.getD 1 0
      let w6 := ws.getD 6 0
      let r := bits es 1 0
      if r < x.ring then bad 2 s
      else
        match s.segLoad c 0 (BitVec.ofNat 64 (bits w6 15 0)) r with
        | (.wait, s) => .wait s
        | (.bad _, s) => bad 3 s
        | (.ok cs, s) =>
          match if bit es 5 then s.segLoad c 0 (BitVec.ofNat 64 (bits w6 47 32)) r else (.ok cs, s) with
          | (.wait, s) => .wait s
          | (.bad _, s) => bad 3 s
          | (.ok old, s) =>
            match s.segLoad c 7 (BitVec.ofNat 64 (bits w6 31 16)) r with
            | (.wait, s) => .wait s
            | (.bad _, s) => bad 4 s
            | (.ok ss, s) =>
              match s.tryChain c f ws with
              | (none, s) => .wait s
              | (some (some t), _) => .whole t
              | (some none, s) => .whole (s.updCore c fun x => x.returned ws cs ss (if bit es 5 then some old else none))
    | (some _, s) => .wait s
    | (none, s) => bad 1 s) s

/-! ### BRK, WFI (R62, R106) -/

/-- BRK (R62, R106). -/
def execBrk (c : CoreId) (g : Greg) (code : BitVec 12) (s : State) : Out :=
  runInsn c { word := wordS g code 0x07 } (fun s => .exc ⟨0x10, code.toNat, 0⟩ s) s

/-- Is an asynchronous event pending at a core (R109)? -/
def Core.eventPending (x : Core) : Bool := !x.mchk.isEmpty || x.prewarn || !x.irq.isEmpty

/-- WFI (R62): it waits in place until an event is pending, then continues. -/
def execWfi (c : CoreId) (g : Greg) (code : BitVec 12) (s : State) : Out :=
  runInsn c { word := wordS g code 0x08, xfer := true, wakes := true
              illegal := fun x => if 1 < x.ring then some 0x02 else none } (fun s =>
    if (s.core c).eventPending then .next s else .wait (s.updCore c fun x => { x with wfi := true })) s

/-! ### Interrupts on their way (R111) -/

/-- INTERRUPT_DELIVERY (R15, R111): the oldest interrupt on its way between two dies reaches its core; a core in reset discards it. One whose
route crosses a down edge ends at the die before the edge, which logs an error response of code 5 without an address, since an interrupt has
none; one whose route is in training waits (R20, R429; DEDUCED, log entry 11). -/
def execInterruptDelivery (c : CoreId) (vec : Vec8) (die : Die) (s : State) : Out :=
  let f : Flight := { core := c.val, vec := vec.toNat, die := die.val }
  let dst := (dieOf c).val
  if s.flight.find? (fun g => g.die == f.die && g.core / 4 == f.core / 4) ≠ some f then done s
  else if s.stopped then done { s with flight := s.flight.erase f }
  else
    match s.downOn die.val dst false with
    | some e => done ({ s with flight := s.flight.erase f }.logErr e 0x04 1 7 ⟨die.val, 7⟩ none false 5)
    | none =>
      if s.pathBusy die.val dst then done s
      else done (({ s with flight := s.flight.erase f }.pendIrq c vec.toNat die.val).packet die.val dst false)

end Sys2Proof.Machine
end

