-- ==== Sys2Proof/Machine/Event.lean ====
section
/-! DEFINITION. A core accepts an asynchronous event (R81, R109, R112, R152, R232). -/

namespace Sys2Proof.Machine

open Sys2Proof

/-- TSTART of a pass stopped at a row (R232, R239). -/
def tstartOf (ip : Word) (row : Nat) : Word := BitVec.ofNat 64 (row + 2 ^ 11 + 2 ^ 12 * bits ip 51 2)

/-- The context an event finds at a core, with the core as it leaves it: a streaming pass stops and is recorded in TSTART, one that has
not started is abandoned, and a pass in a delay slot takes its transfer with it (R40, R45, R76, R232). None where no event is
accepted. -/
def Core.eventContext (x : Core) : Option (Core × Ctx) :=
  match x.pass with
  | none => if x.boundary then some (x, { epc := x.ip, shadow := x.lsh.head? }) else none
  | some p =>
    let stopped := { x with pass := none, tstart := if p.streaming then tstartOf x.ip p.next else x.tstart }
    if p.streaming && decide (p.m ≤ p.next) then none
    else
      match x.slot with
      | none => if x.boundary then some (stopped, { epc := x.ip, shadow := x.lsh.head? }) else none
      | some sl =>
        if p.streaming && sl.msh.isNone && x.msh.isNone && decide (sl.shadows.length ≤ 1) then
          some (stopped, { epc := sl.addr, ds := true, shadow := sl.shadows.head? })
        else none

/-- A WFI that waits goes on when an event is pending (R62); a mode shadow that it is the instruction of ends with it (R76). -/
def State.wake (s : State) (c : CoreId) : Option State :=
  if (s.core c).wfi && (s.core c).eventPending then
    ((s.updCore c fun x => { x with msh := none }).retire c 4).stepTrap c (s.core c).ss
  else some s

/-- EVENT_ACCEPT (R112): the first event that the core's ring may take is accepted at a boundary that allows it; a load from a host window,
an LD.ACQ or an atomic already issued completes first, and what any other instruction has read of a host window is given up (R81). -/
def execEventAccept (c : CoreId) (s : State) : Out :=
  if !s.runs c then done s
  else
    match s.wake c with
    | none => done s
    | some s1 =>
      let x := s1.core c
      if !x.hdtbSet || x.im || x.entered || x.issued then done s1
      else
        match x.eventContext with
        | none => done s1
        | some (y, k) =>
          match s1.chooseEvent c x.ring x.events with
          | (some (some (e, _)), s2) =>
            let z := s2.core c
            let s3 := (s2.orphanDrds (.core c.val)).setCore c { z with
              pass := y.pass, tstart := y.tstart, slot := none
              mchk := e.taken.mchk, prewarn := e.taken.prewarn, irq := e.taken.irq }
            orWait s1 ((s3.enter c k e.entry).map fun s => s.mxeSync (dieOf c).val)
          | (_, s2) => done s2

end Sys2Proof.Machine
end

