-- ==== Sys2Proof/Machine/VecElem.lean ====
section
/-! DEFINITION. Vector registers, masks, elements and operands, and the field checks of every vector instruction (R144–R149, R153–R164,
R171). -/

namespace Sys2Proof.Machine

open Sys2Proof

/-! ### Registers and elements (R144, R145) -/

/-- n bytes of the vector file from byte i of register v. -/
def Core.vbytes (x : Core) (v i n : Nat) : List Byte := lookRun (fun _ => 0) x.vreg (2048 * v + i) n

/-- Bytes of the vector file replaced from byte i of register v. -/
def Core.setVbytes (x : Core) (v i : Nat) (bs : List Byte) : Core := { x with vreg := putRun (fun _ => 0) x.vreg (2048 * v + i) bs }

/-- Element i of width w of the group at v (R144). -/
def Core.velem (x : Core) (w v i : Nat) : Nat :=
  if w = 4 then (fromBytes (x.vbytes v (i / 2) 1) >>> (4 * (i % 2))) % 16 else fromBytes (x.vbytes v (w / 8 * i) (w / 8))

/-- Element i of width w of the group at v replaced by the low w bits of a number. -/
def Core.setVelem (x : Core) (w v i n : Nat) : Core :=
  if w = 4 then
    let old := fromBytes (x.vbytes v (i / 2) 1)
    let keep := if i % 2 = 0 then old / 16 * 16 else old % 16
    x.setVbytes v (i / 2) (toBytes 1 (keep + n % 16 * 16 ^ (i % 2)))
  else x.setVbytes v (w / 8 * i) (toBytes (w / 8) n)

/-- Bit i of mask register m (R145). -/
def Core.mbit (x : Core) (m i : Nat) : Bool := look (fun _ => false) x.mreg (32768 * m + i)

/-- Bit i of mask register m replaced. -/
def Core.setMbit (x : Core) (m i : Nat) (b : Bool) : Core := { x with mreg := put (fun _ => false) x.mreg (32768 * m + i) b }

/-! ### A task's operands (R148, R149, R153) -/

/-- The element width of a task. -/
def VTask.sew (t : VTask) : Nat := sewBits t.vtype
/-- Registers of a group. -/
def VTask.grp (t : VTask) : Nat := vgrp t.vtype
/-- The active length. -/
def VTask.len (t : VTask) : Nat := t.vl

/-- Is element, lane or bit i active (R149)? -/
def VTask.active (t : VTask) (x : Core) (i : Nat) : Bool := !t.f.me || x.mbit t.f.mkr.toNat i

/-- Element i of va. -/
def VTask.a (t : VTask) (x : Core) (i : Nat) : Nat := x.velem t.sew t.f.va.toNat i

/-- The operand x of element i by FORM (R153). -/
def VTask.b (t : VTask) (x : Core) (i : Nat) : Nat :=
  match t.f.form.toNat with
  | 0 => x.velem t.sew t.f.vb.toNat i
  | 1 => t.xb.toNat % 2 ^ t.sew
  | _ => (sx t.f.imm).toNat % 2 ^ t.sew

/-- The floating-point format of a width and FMT (R146). -/
def vfmt (w : Nat) (fmt : Bool) : Fmt :=
  match w with
  | 4 => .e2m1
  | 8 => if fmt then .e5m2 else .e4m3
  | 16 => if fmt then .fp16 else .bf16
  | 32 => .fp32
  | _ => .fp64

/-- The format of a task's elements. -/
def VTask.fmt (t : VTask) : Fmt := vfmt t.sew (bit t.vtype 5)

/-- The destination format of the widening group (R159). -/
def VTask.wide (t : VTask) : Fmt := if t.sew = 8 then .bf16 else if t.sew = 16 then .fp32 else .fp64

/-- The wide side of a conversion (R158). -/
def VTask.cvtWide (t : VTask) : Fmt :=
  match t.sew with
  | 4 => .e4m3
  | 8 => if bit t.f.imm 0 then .fp16 else .bf16
  | 16 => .fp32
  | _ => .fp64

/-! ### Field checks (R144, R153–R164, R171) -/

/-- May a field name a group of g registers (R144)? -/
def vecOk (v : BitVec 6) (g : Nat) : Bool := decide (v.toNat < 32) && v.toNat % g == 0

/-- May a field name a mask or a tile (R153)? -/
def low3 (v : BitVec 6) : Bool := decide (v.toNat < 8)

/-- Do two groups overlap? -/
def vOver (v : BitVec 6) (g : Nat) (u : BitVec 6) (h : Nat) : Bool := decide (v.toNat < u.toNat + h) && decide (u.toNat < v.toNat + g)

/-- Does the second operand follow FORM, one of those accepted, with the fields FORM does not use 0 (R153, R154)? -/
def xOk (f : VFields) (g : Nat) (forms : List Nat) : Bool :=
  forms.contains f.form.toNat &&
    match f.form.toNat with
    | 0 => vecOk f.vb g && f.gb == 0 && f.imm == 0
    | 1 => f.vb == 0 && f.imm == 0
    | _ => f.vb == 0 && f.gb == 0

/-- An instruction without a second operand: FORM, VB, GB 0. -/
def noX (f : VFields) : Bool := f.form == 0 && f.vb == 0 && f.gb == 0

/-- An instruction that does not take a mask. -/
def noMask (f : VFields) : Bool := !f.me && f.mkr == 0 && !f.z

/-- An arithmetic instruction: SG and GA are 0. -/
def noMem (f : VFields) : Bool := f.sg == 0 && f.ga == 0

/-- Are the fields of an integer instruction legal (R156)? -/
def vIntOk (op : VOp) (f : VFields) (w g : Nat) : Bool :=
  w != 4 && vecOk f.vd g && (if op = .mv then f.va == 0 else vecOk f.va g) && xOk f g [0, 1, 2] && noMem f
    && (op != .merge || (f.me && !f.z))

/-- Are the fields of a floating-point instruction legal (R157)? -/
def vFpOk (op : VOp) (f : VFields) (w g : Nat) : Bool :=
  let one := op == .fsqrt || op == .fabs || op == .fneg || op == .fcvtI || op == .fcvtF
  w != 4 && (!(op == .fdiv || op == .fsqrt) || w != 8) && vecOk f.vd g && vecOk f.va g && noMem f
    && (if one then noX f && f.imm == 0 else xOk f g [0, 1])
    && (!(op == .fcvtI || op == .fcvtF) || !vOver f.vd g f.va g)

/-- Are the fields of VFCVT.W or VFCVT.N legal (R158, R161)? -/
def vCvtOk (widen : Bool) (f : VFields) (w g : Nat) : Bool :=
  let gd := if widen then 2 * g else g
  let ga := if widen then g else 2 * g
  w != 64 && decide (g ≤ 4) && vecOk f.vd gd && vecOk f.va ga && noX f && noMem f && !vOver f.vd gd f.va ga
    && f.imm.toNat < (if w = 8 then 2 else 1)

/-- Are the fields of a widening instruction legal (R159, R161)? -/
def vWideOk (f : VFields) (w g : Nat) : Bool :=
  (w == 8 || w == 16 || w == 32) && decide (g ≤ 4) && vecOk f.vd (2 * g) && vecOk f.va g && xOk f g [0, 1] && noMem f
    && !vOver f.vd (2 * g) f.va g && (f.form != 0 || !vOver f.vd (2 * g) f.vb g)

/-- Are the fields of a dot product legal (R160, R161)? -/
def vDotOk (k : Nat) (f : VFields) (w g : Nat) : Bool :=
  w == 32 / k && vecOk f.vd g && vecOk f.va g && xOk f g [0, 1] && noMem f
    && !vOver f.vd g f.va g && (f.form != 0 || !vOver f.vd g f.vb g)

/-- Are the fields of a compare legal (R162)? -/
def vCmpOk (fp : Bool) (f : VFields) (g : Nat) : Bool :=
  low3 f.vd && vecOk f.va g && xOk f g (if fp then [0, 1] else [0, 1, 2]) && noMem f

/-- Are the fields of a mask operation legal (R162)? -/
def vMaskOk (op : VOp) (f : VFields) : Bool :=
  f.form == 0 && noMask f && noMem f && f.gb == 0 && f.imm == 0
    && (op == .mpopc || op == .mfirst || low3 f.vd)
    && (if op = .mset then f.va == 0 else low3 f.va)
    && (if op = .mset ∨ op = .mnot ∨ op = .mpopc ∨ op = .mfirst then f.vb == 0 else low3 f.vb)

/-- Are the fields of a reduction, permutation or scalar move legal (R163)? -/
def vPermOk (op : VOp) (f : VFields) (w g : Nat) : Bool :=
  w != 4 &&
    match op with
    | .get | .getu => vecOk f.va g && f.vb == 0 && f.form == 0 && f.imm == 0 && noMem f && noMask f
    | .put => vecOk f.vd g && f.va == 0 && f.vb == 0 && f.form == 0 && f.imm == 0 && f.sg == 0
    | .slideup | .slidedn => vecOk f.vd g && vecOk f.va g && xOk f g [1, 2] && noMem f && !vOver f.vd g f.va g
    | .perm => vecOk f.vd g && vecOk f.va g && xOk f g [0] && noMem f && !vOver f.vd g f.va g && !vOver f.vd g f.vb g
    | _ => vecOk f.vd g && vecOk f.va g && xOk f g [0, 1] && noMem f && !f.z

/-- Registers of the index group of VLDX and VSTX (R164). -/
def idxGroup (w g : Nat) : Nat := max 1 (g * 32 / w)

/-- Are the fields of a vector load or store legal (R164)? -/
def vMemOk (op : VOp) (f : VFields) (w g vl : Nat) : Bool :=
  f.form == 0 && f.va == 0 &&
    match op with
    | .ldm | .stm => low3 f.vd && f.vb == 0 && f.gb == 0 && noMask f
    | .ldmr | .stmr => low3 f.vd && f.vb == 0 && f.gb == 0 && noMask f
    | .ldr | .str => decide (f.vb.toNat < 4) && vecOk f.vd (2 ^ f.vb.toNat) && f.gb == 0 && noMask f
    | .lds => vecOk f.vd g && f.vb == 0 && w != 4
    | .sts => vecOk f.vd g && f.vb == 0 && w != 4 && !f.z
    | .ldx => vecOk f.vd g && f.gb == 0 && w != 4 && decide (idxGroup w g ≤ 8) && vecOk f.vb (idxGroup w g)
        && !vOver f.vd g f.vb (idxGroup w g)
    | .stx => vecOk f.vd g && f.gb == 0 && w != 4 && decide (idxGroup w g ≤ 8) && vecOk f.vb (idxGroup w g) && !f.z
    | .st => vecOk f.vd g && f.vb == 0 && f.gb == 0 && !f.z && (w != 4 || (!f.me && vl % 2 == 0))
    | _ => vecOk f.vd g && f.vb == 0 && f.gb == 0

/-- Are the fields of TVMOV or VTMOV legal (R153, R171)? -/
def vTileOk (op : VOp) (f : VFields) (w g vl : Nat) : Bool :=
  f.form == 0 && noMask f && noMem f && f.imm == 0 && f.vb == 0 && (w != 4 || vl % 2 == 0)
    && (if op = .tvmov then vecOk f.vd g && low3 f.va else low3 f.vd && vecOk f.va g)

/-- The check for 0x01 of a vector instruction (R144, R146, R153–R164): whole-register and whole-mask moves run with ILL = 1. -/
def vLegal (op : VOp) (f : VFields) (x : Core) : Bool :=
  let w := sewBits x.vtype
  let g := vgrp x.vtype
  let free := op == .ldr || op == .str || op == .ldmr || op == .stmr
  (free || !vIll x.vtype) &&
    match op with
    | .add | .sub | .rsub | .and | .or | .xor | .sll | .srl | .sra | .min | .max | .minu | .maxu | .mul | .mulh | .mulhu | .macc
    | .sadd | .saddu | .ssub | .ssubu | .merge | .mv => vIntOk op f w g
    | .fadd | .fsub | .fmul | .fdiv | .fsqrt | .fma | .fnma | .fmin | .fmax | .fabs | .fneg | .fcvtI | .fcvtF => vFpOk op f w g
    | .fcvtW => vCvtOk true f w g
    | .fcvtN => vCvtOk false f w g
    | .wmul | .wmulu | .wmulsu | .wmacc | .wmaccu | .wmaccsu | .fwmul | .fwma => vWideOk f w g
    | .dot4 | .dot4u | .dot4su | .fdot4 => vDotOk 4 f w g
    | .dot2 | .dot2u | .fdot2 => vDotOk 2 f w g
    | .cmpeq | .cmpne | .cmplt | .cmpltu | .cmple | .cmpleu | .cmpgt | .cmpgtu => vCmpOk false f g
    | .fcmpeq | .fcmplt | .fcmple | .fcmpun => vCmpOk true f g
    | .mand | .mor | .mxor | .mandn | .mnot | .mset | .mpopc | .mfirst => vMaskOk op f
    | .get | .getu | .put | .slideup | .slidedn | .perm | .redsum | .redmax | .redmin | .redmaxu | .redminu | .fredsum | .fredmax
    | .fredmin => vPermOk op f w g
    | .tvmov | .vtmov => vTileOk op f w g x.vl.toNat
    | .ld | .lds | .ldx | .ldff | .ldm | .ldr | .ldmr | .st | .sts | .stx | .stm | .str | .stmr => vMemOk op f w g x.vl.toNat
    | .glzDrain | .glzLd | .glzHst | .glzHld => true

/-- General registers a vector instruction reads (R45, R153). -/
def vReads (op : VOp) (f : VFields) : List Greg :=
  match op with
  | .get | .getu | .tvmov | .vtmov => [f.gb]
  | .put => [f.ga, f.gb]
  | .lds | .sts => [f.ga, f.gb]
  | .ld | .ldx | .ldff | .ldm | .ldr | .ldmr | .st | .stx | .stm | .str | .stmr => [f.ga]
  | _ => if f.form = 1 then [f.gb] else []

/-- A task as its instruction finds it (R148, R152). -/
def Core.vtask (x : Core) (op : VOp) (f : VFields) : VTask :=
  { op, f, vtype := x.vtype, vl := x.vl.toNat, fpflags := x.fpflags, xa := x.gread f.ga, xb := x.gread f.gb }

end Sys2Proof.Machine
end

