-- ==== Sys2Proof/Machine/VecArith.lean ====
section
/-! DEFINITION. What the arithmetic, compare, mask, reduction and permutation instructions of the vector unit compute (R156–R163). -/

namespace Sys2Proof.Machine

open Sys2Proof

/-! ### Integers (R156, R159) -/

/-- A signed result saturated to w bits. -/
def satS (w : Nat) (v : Int) : Int :=
  if v < -(2 ^ (w - 1) : Int) then -(2 ^ (w - 1) : Int) else if v > 2 ^ (w - 1) - 1 then 2 ^ (w - 1) - 1 else v

/-- An integer result modulo 2 ^ w. -/
def wrapN (w : Nat) (v : Int) : Nat := (v % 2 ^ w).toNat

/-- The result of an integer instruction at width w from vd[i], va[i] and x (R156). -/
def vIntRes (op : VOp) (w d a b : Nat) : Nat :=
  let sa := sintOf w a
  let sb := sintOf w b
  match op with
  | .add => (a + b) % 2 ^ w
  | .sub => wrapN w (a - b)
  | .rsub => wrapN w (b - a)
  | .and => Nat.land a b
  | .or => Nat.lor a b
  | .xor => Nat.xor a b
  | .sll => (a * 2 ^ (b % w)) % 2 ^ w
  | .srl => a / 2 ^ (b % w)
  | .sra => wrapN w (sa / 2 ^ (b % w))
  | .min => if sa ≤ sb then a else b
  | .max => if sa ≤ sb then b else a
  | .minu => Nat.min a b
  | .maxu => Nat.max a b
  | .mul => (a * b) % 2 ^ w
  | .mulh => wrapN w (sa * sb / 2 ^ w)
  | .mulhu => a * b / 2 ^ w
  | .macc => (d + a * b) % 2 ^ w
  | .sadd => wrapN w (satS w (sa + sb))
  | .saddu => Nat.min (2 ^ w - 1) (a + b)
  | .ssub => wrapN w (satS w (sa - sb))
  | .ssubu => a - b
  | .mv => b
  | _ => 0

/-- The result of a widening integer instruction, 2w bits (R159). -/
def vWideRes (op : VOp) (w d a b : Nat) : Nat :=
  let sa := sintOf w a
  let sb := sintOf w b
  match op with
  | .wmul => wrapN (2 * w) (sa * sb)
  | .wmulu => a * b
  | .wmulsu => wrapN (2 * w) (sa * b)
  | .wmacc => wrapN (2 * w) (d + sa * sb)
  | .wmaccu => (d + a * b) % 2 ^ (2 * w)
  | _ => wrapN (2 * w) (d + sa * b)

/-- An integer compare (R162). -/
def vCmpRes (op : VOp) (w a b : Nat) : Bool :=
  let sa := sintOf w a
  let sb := sintOf w b
  match op with
  | .cmpeq => a == b
  | .cmpne => a != b
  | .cmplt => decide (sa < sb)
  | .cmpltu => decide (a < b)
  | .cmple => decide (sa ≤ sb)
  | .cmpleu => decide (a ≤ b)
  | .cmpgt => decide (sa > sb)
  | _ => decide (a > b)

/-! ### Floating point (R157–R160, R162, R189–R191) -/

/-- The result of an instruction of the floating-point group (R157, R158). -/
def vFpRes (op : VOp) (f : Fmt) (wide : Fmt) (m : RMode) (sat : Bool) (d a b : Nat) : FRes :=
  let va := unpack f a
  let vb := unpack f b
  match op with
  | .fadd => fAdd f m sat va vb
  | .fsub => fAdd f m sat va vb.negate
  | .fmul => fMul f m sat va vb
  | .fdiv => fDiv f m sat va vb
  | .fsqrt => fSqrt f m sat va
  | .fma => fFma f m sat (unpack f d) va vb
  | .fnma => fFma f m sat (unpack f d) va.negate vb
  | .fmin => fMaxMin f false a b
  | .fmax => fMaxMin f true a b
  | .fabs => (a % 2 ^ (f.width - 1), 0)
  | .fneg => (Nat.xor a (2 ^ (f.width - 1)), 0)
  | .fcvtI => let r := fToInt f.width m va; (wrapN f.width r.1, r.2)
  | .fcvtF => fOfInt f m sat (sintOf f.width a)
  | .fcvtW => ((packVal wide .rne false va).1, 0)
  | .fcvtN => packVal f m sat (unpack wide a)
  | .fwmul => fMul wide m sat va vb
  | .fwma => fFma wide m sat (unpack wide d) va vb
  | _ => (0, 0)

/-- A floating-point compare (R162, R190). -/
def vFcmpRes (op : VOp) (f : Fmt) (a b : Nat) : Bool × FFlags :=
  let va := unpack f a
  let vb := unpack f b
  match op with
  | .fcmpeq => fCmp true feqVal va vb
  | .fcmplt => fCmp false fltVal va vb
  | .fcmple => fCmp false (fun x y => !fltVal y x) va vb
  | _ => (va.isNaN || vb.isNaN, if va == .nan true || vb == .nan true then flagNV else 0)

/-- An FP32 product of two elements, to nearest-even (R160). -/
def dotProd (f : Fmt) (a b : Nat) : FRes := fMul .fp32 .rne false (unpack f a) (unpack f b)

/-- An FP32 sum to nearest-even with the flags of both sides (R160). -/
def dotAdd (p q : FRes) : FRes := let r := sum32 p.1 q.1; (r.1, p.2 ||| q.2 ||| r.2)

/-- The products of a lane in pairs: elements of va and x, 0 at or above VL (R160). -/
def VTask.lane (t : VTask) (x : Core) (k j : Nat) : List (Nat × Nat) :=
  (List.range k).map fun m =>
    let i := k * j + m
    if t.len ≤ i then (0, 0)
    else (t.a x i, if t.f.form = 1 then (t.xb.toNat / 2 ^ (t.sew * m)) % 2 ^ t.sew else t.b x i)

/-- Lane j of a dot product (R160). -/
def vDotRes (op : VOp) (t : VTask) (x : Core) (j : Nat) : FRes :=
  let k := 32 / t.sew
  let d := x.velem 32 t.f.vd.toNat j
  let ps := t.lane x k j
  let sum (f : Nat × Nat → Int) : FRes := (wrapN 32 (d + (ps.map f).foldl (· + ·) 0), 0)
  match op with
  | .dot4 | .dot2 => sum fun p => sintOf t.sew p.1 * sintOf t.sew p.2
  | .dot4u | .dot2u => sum fun p => (p.1 * p.2 : Nat)
  | .dot4su => sum fun p => sintOf t.sew p.1 * p.2
  | _ =>
    let q := ps.map fun p => dotProd t.fmt p.1 p.2
    let q := treeFold dotAdd (0, 0) 2 q
    dotAdd (d, 0) q

/-! ### The results of a task -/

/-- What a task writes: element by element into a group, bit by bit into a mask, or nothing here. -/
structure VRes where
  /-- Elements or lanes governed by the mask, and the width written. -/
  n : Nat := 0
  w : Nat := 8
  val : Nat → FRes := fun _ => (0, 0)

/-- The elements of an elementwise task from the registers it finds (R156–R161). -/
def VTask.elems (t : VTask) (x : Core) : VRes :=
  let w := t.sew
  let m := fpMode t.fpflags
  let sat := fpSat t.fpflags
  let vd := t.f.vd.toNat
  match t.op with
  | .fadd | .fsub | .fmul | .fdiv | .fsqrt | .fma | .fnma | .fmin | .fmax | .fabs | .fneg | .fcvtI | .fcvtF =>
    ⟨t.len, w, fun i => vFpRes t.op t.fmt t.fmt m sat (x.velem w vd i) (t.a x i) (t.b x i)⟩
  | .fcvtW => ⟨t.len, 2 * w, fun i => vFpRes t.op t.fmt t.cvtWide m sat 0 (t.a x i) 0⟩
  | .fcvtN => ⟨t.len, w, fun i => vFpRes t.op t.fmt t.cvtWide m sat 0 (x.velem (2 * w) t.f.va.toNat i) 0⟩
  | .fwmul | .fwma => ⟨t.len, 2 * w, fun i => vFpRes t.op t.fmt t.wide m sat (x.velem (2 * w) vd i) (t.a x i) (t.b x i)⟩
  | .wmul | .wmulu | .wmulsu | .wmacc | .wmaccu | .wmaccsu =>
    ⟨t.len, 2 * w, fun i => (vWideRes t.op w (x.velem (2 * w) vd i) (t.a x i) (t.b x i), 0)⟩
  | .dot4 | .dot4u | .dot4su | .fdot4 | .dot2 | .dot2u | .fdot2 =>
    ⟨(t.len + 32 / w - 1) / (32 / w), 32, fun j => vDotRes t.op t x j⟩
  | .cmpeq | .cmpne | .cmplt | .cmpltu | .cmple | .cmpleu | .cmpgt | .cmpgtu =>
    ⟨t.len, 1, fun i => (b2n (vCmpRes t.op w (t.a x i) (t.b x i)), 0)⟩
  | .fcmpeq | .fcmplt | .fcmple | .fcmpun =>
    ⟨t.len, 1, fun i => let r := vFcmpRes t.op t.fmt (t.a x i) (t.b x i); (b2n r.1, r.2)⟩
  | .slideup => ⟨t.len, w, fun i => (t.a x (i - (if t.f.form = 1 then t.xb.toNat else t.f.imm.toNat)), 0)⟩
  | .slidedn => ⟨t.len, w, fun i =>
      let j := i + (if t.f.form = 1 then t.xb.toNat else t.f.imm.toNat)
      (if j < vlMax t.vtype then t.a x j else 0, 0)⟩
  | .perm => ⟨t.len, w, fun i => (if t.b x i < vlMax t.vtype then t.a x (t.b x i) else 0, 0)⟩
  | _ => ⟨t.len, w, fun i => (vIntRes t.op w (x.velem w vd i) (t.a x i) (t.b x i), 0)⟩

/-- The flags of the active elements, each with its number (R157, R192). -/
def VTask.elemFlags (t : VTask) (x : Core) : List (Nat × FFlags) :=
  let r := t.elems x
  ((List.range r.n).filter (t.active x)).map fun i => (i, (r.val i).2)

/-- The reductions: active elements of va combined with x[0] (R163): the result and its flags. -/
def VTask.reduce (t : VTask) (x : Core) : FRes :=
  let w := t.sew
  let x0 := t.b x 0
  let act := (List.range t.len).filter (t.active x)
  let vs := act.map (t.a x)
  let m := fpMode t.fpflags
  let sat := fpSat t.fpflags
  match t.op with
  | .redsum => (vs.foldl (fun a v => (a + v) % 2 ^ w) x0, 0)
  | .redmax => (vs.foldl (vIntRes .max w 0) x0, 0)
  | .redmin => (vs.foldl (vIntRes .min w 0) x0, 0)
  | .redmaxu => (vs.foldl Nat.max x0, 0)
  | .redminu => (vs.foldl Nat.min x0, 0)
  | .fredmax => vs.foldl (fun (a : FRes) v => let r := fMaxMin t.fmt true a.1 v; (r.1, a.2 ||| r.2)) (x0, 0)
  | .fredmin => vs.foldl (fun (a : FRes) v => let r := fMaxMin t.fmt false a.1 v; (r.1, a.2 ||| r.2)) (x0, 0)
  | _ =>
    if act.isEmpty then (x0, 0)
    else
      let node (a b : FRes) : FRes :=
        let r := fAdd t.fmt m sat (unpack t.fmt a.1) (unpack t.fmt b.1)
        (r.1, a.2 ||| b.2 ||| r.2)
      let leaves := (List.range (2 ^ bitLen (t.len - 1))).map fun i =>
        ((if decide (i < t.len) && t.active x i then t.a x i else t.fmt.signed true 0, 0) : FRes)
      node (treeFold node (0, 0) 15 leaves) (x0, 0)

/-- The lesser of two numbers that may be absent. -/
def minOpt : Option Nat → Option Nat → Option Nat
  | some a, some b => some (min a b)
  | some a, none => some a
  | none, b => b

/-- The lowest-numbered active element of a reduction that raises a flag of `traps` (R193): of the minimum and maximum the element whose
comparison raises it; of the sum the lowest one below a node that raises it (DEDUCED, log entry 53). -/
def VTask.reduceTrap (t : VTask) (x : Core) (traps : FFlags) : Nat :=
  let x0 := t.b x 0
  let act := (List.range t.len).filter (t.active x)
  match t.op with
  | .fredmax | .fredmin =>
    let r := act.foldl (fun (a : Nat × Option Nat) i =>
      let r := fMaxMin t.fmt (t.op == .fredmax) a.1 (t.a x i)
      (r.1, minOpt a.2 (if r.2 &&& traps = 0 then none else some i))) (x0, none)
    r.2.getD 0
  | _ =>
    let node (a b : Nat × Option Nat × Option Nat) : Nat × Option Nat × Option Nat :=
      let r := fAdd t.fmt (fpMode t.fpflags) (fpSat t.fpflags) (unpack t.fmt a.1) (unpack t.fmt b.1)
      let low := minOpt a.2.1 b.2.1
      (r.1, low, minOpt (minOpt a.2.2 b.2.2) (if r.2 &&& traps = 0 then none else low))
    let leaves := (List.range (2 ^ bitLen (t.len - 1))).map fun i =>
      if decide (i < t.len) && t.active x i then (t.a x i, some i, none) else (t.fmt.signed true 0, none, none)
    (node (treeFold node (0, none, none) 15 leaves) (x0, none, none)).2.2.getD 0

/-- Is the task a reduction? -/
def VOp.reduces : VOp → Bool
  | .redsum | .redmax | .redmin | .redmaxu | .redminu | .fredsum | .fredmax | .fredmin => true
  | _ => false

/-- Does a task write a mask bit by bit? -/
def VOp.compares : VOp → Bool
  | .cmpeq | .cmpne | .cmplt | .cmpltu | .cmple | .cmpleu | .cmpgt | .cmpgtu | .fcmpeq | .fcmplt | .fcmple | .fcmpun => true
  | _ => false

/-- Every flag a floating-point task raises (R157, R192). -/
def VTask.flags (t : VTask) (x : Core) : FFlags :=
  if !t.op.fp then 0
  else if t.op.reduces then (t.reduce x).2
  else (t.elemFlags x).foldl (fun a (p : Nat × FFlags) => a ||| p.2) 0

/-- Elements, lanes or mask bits written under the mask, Z and the tail (R149); those `skip` names are left alone. -/
def VTask.write (t : VTask) (x0 : Core) (n : Nat) (skip : Nat → Bool) (set : Core → Nat → Nat → Core) (val : Nat → Nat) (x : Core) : Core :=
  (List.range n).foldl (fun x i =>
    if skip i then x
    else if t.active x0 i then set x i (val i)
    else if t.f.z then set x i 0
    else x) x

/-- Bits 0 to VL − 1 of a mask operation (R162). -/
def VTask.maskBit (t : VTask) (x : Core) (i : Nat) : Bool :=
  let a := x.mbit t.f.va.toNat i
  let b := x.mbit t.f.vb.toNat i
  match t.op with
  | .mand => a && b
  | .mor => a || b
  | .mxor => a != b
  | .mandn => a && !b
  | .mnot => !a
  | _ => true

/-- A task of the arithmetic pipe completed (R151): its results and its flags. -/
def VTask.arith (t : VTask) (x : Core) : Core :=
  let vd := t.f.vd.toNat
  let no := fun _ => false
  let x := { x with fpflags := fpAccrue x.fpflags (t.flags x) }
  match t.op with
  | .mand | .mor | .mxor | .mandn | .mnot | .mset =>
    (List.range t.len).foldl (fun y i => y.setMbit vd i (t.maskBit x i)) x
  | .merge => (List.range t.len).foldl (fun y i => y.setVelem t.sew vd i (if x.mbit t.f.mkr.toNat i then t.b x i else t.a x i)) x
  | .put =>
    let i := t.xb.toNat
    if t.len ≤ i then x
    else if t.active x i then x.setVelem t.sew vd i t.xa.toNat
    else if t.f.z then x.setVelem t.sew vd i 0
    else x
  | .slideup =>
    let r := t.elems x
    let sh := if t.f.form = 1 then t.xb.toNat else t.f.imm.toNat
    t.write x r.n (fun i => decide (i < sh)) (fun y i v => y.setVelem r.w vd i v) (fun i => (r.val i).1) x
  | op =>
    if op.reduces then x.setVelem t.sew vd 0 (t.reduce x).1
    else
      let r := t.elems x
      if op.compares then t.write x r.n no (fun y i v => y.setMbit vd i (v == 1)) (fun i => (r.val i).1) x
      else t.write x r.n no (fun y i v => y.setVelem r.w vd i v) (fun i => (r.val i).1) x

end Sys2Proof.Machine
end

