-- ==== Sys2Proof/Machine/VecMem.lean ====
section
/-! DEFINITION. Vector memory accesses: the elements' offsets, their checks, the loads at their homes with late errors, the stores
(R150, R164–R170), used for tile rows as well (R220). -/

namespace Sys2Proof.Machine

open Sys2Proof

/-! ### Offsets (R164) -/

/-- The elements a vector memory instruction accesses: number, offset, bytes. Whole registers and whole masks count in doublewords, mask
bits and stored nibbles in bytes. -/
def VTask.offs (t : VTask) (x : Core) (b : Word) : List (Nat × Word × Nat) :=
  let w := t.sew
  let at_ (i : Nat) : Word := BitVec.ofNat 64 i
  let act := (List.range t.len).filter (t.active x)
  match t.op with
  | .lds | .sts => act.map fun i => (i, b + at_ i * t.xb, w / 8)
  | .ldx | .stx => act.map fun i => (i, b + at_ (x.velem 32 t.f.vb.toNat i), w / 8)
  | .ldm | .stm => (List.range ((t.len + 7) / 8)).map fun i => (i, b + at_ i, 1)
  | .ldr | .str => (List.range (256 * 2 ^ t.f.vb.toNat)).map fun i => (i, b + at_ (8 * i), 8)
  | .ldmr | .stmr => (List.range 512).map fun i => (i, b + at_ (8 * i), 8)
  | .st => if w = 4 then (List.range (t.len / 2)).map fun i => (i, b + at_ i, 1)
           else act.map fun i => (i, b + at_ (i * w / 8), w / 8)
  | _ => if w = 4 then act.map fun i => (i, b + at_ (i / 2), 1)
         else act.map fun i => (i, b + at_ (i * w / 8), w / 8)

/-! ### Checks (R150, R165, R166, R170) -/

/-- The R80 decode of a part of a vector or tile access: the code, die and unit of its error response, or none (R165, R170). A read of a host
window that has begun keeps its decode (R381). -/
def State.vecFail (s : State) (q : Req) (write : Bool) (p : Piece) : Option (Nat × Nat × Nat) :=
  match s.homeCheck q p.pa with
  | some r => some r
  | none =>
    match s.decodePA p.pa with
    | .ctrl off => some (3, (Target.ctrl off).die, 7)
    | .twin _ => if !write then some (3, 24, 9) else if s.twinUp then none else some (6, 24, 9)
    | .host slot off =>
      if !write && decide (q.unit < 4) && (s.drdOf (.core (4 * q.die + q.unit)) p).isSome then none
      else
        match s.hostAddr q slot off write with
        | .inl e => some (e.1, e.2, if e.2 = 24 then 8 else 7)
        | .inr _ => none
    | t => if write && s.skimProtected p.pa p.n then some (3, t.die, 5) else none

/-- The decode of every part of an element: the state with the first failure logged. -/
def State.vecDecode (s : State) (q : Req) (write : Bool) : List Piece → Option State
  | [] => none
  | p :: ps =>
    match s.vecFail q write p with
    | some (code, die, unit) => some (s.refuse q code die unit p.pa).2
    | none => s.vecDecode q write ps

/-- The checks of one element of n bytes at offset o through segment register sg (R86, R99, R165). -/
def State.elemCheck (s : State) (c : CoreId) (q : Req) (sg : Nat) (write : Bool) (o : Word) (n : Nat) : CRes (List Piece) × State :=
  let x := s.core c
  match s.checkAccess c (x.sgNow sg) sg (if write then .write else .read) x.ring o n with
  | (.ok ps, s) =>
    match s.vecDecode q write ps with
    | some s => (.exc (dataExc false o), s)
    | none => (.ok ps, s)
  | r => r

/-- The host addresses of the parts of an access in host windows, as the windows give them now (R381). -/
def State.hostsOf (s : State) (q : Req) (write : Bool) (ps : List Piece) : List (Nat × Nat) :=
  ps.filterMap fun p =>
    match s.decodePA p.pa with
    | .host slot off => match s.hostAddr q slot off write with | .inr h => some (p.pa, h) | .inl _ => none
    | _ => none

/-- What the checks of every element came to: all passed, the lowest failing one with those before it, or nothing yet. -/
inductive VChk where
  | all (l : List ElemAcc)
  | fails (k : Nat) (e : Exc) (o : Word) (before : List ElemAcc)
  | wait
  deriving DecidableEq, Repr

/-- The elements checked in ascending order (R165, R166). The state of a failure is that after it; `s0` is the one before. -/
def State.elemChecks (s : State) (c : CoreId) (q : Req) (sg : Nat) (write : Bool) : List (Nat × Word × Nat) → VChk × State × State
  | [] => (.all [], s, s)
  | (i, o, n) :: es =>
    match s.elemCheck c q sg write o n with
    | (.wait, t) => (.wait, t, s)
    | (.exc e, t) => (.fails i e o [], t, s)
    | (.ok ps, t) =>
      let a : ElemAcc := { idx := i, off := o, parts := ps, hosts := t.hostsOf q write ps }
      match t.elemChecks c q sg write es with
      | (.all l, r) => (.all (a :: l), r)
      | (.fails k e o l, r) => (.fails k e o (a :: l), r)
      | r => r

/-- EXINFO.INFO of 0x0D (R166). -/
def firstFault (e : Exc) (sg : Nat) : Nat :=
  let detail := if e.vec = 0x04 ∨ e.vec = 0x06 then e.info / 2 ^ 5 % 8 else if e.vec = 0x0E then e.info / 2 ^ 8 % 4 else 0
  e.vec + 2 ^ 8 * sg + 2 ^ 13 * detail + 2 ^ 16 * (if e.vec = 0x06 then e.info / 2 ^ 8 % 4 else 0)

/-! ### Loads at their homes (R15, R167, R169, R170) -/

/-- A part of a retired load read at its home. -/
def State.homePart (s : State) (own : Own) (q : Req) (p : Piece) : Acc (List Byte) × State :=
  match s.timedOut q p.pa with
  | some s => (.err 7, s)
  | none =>
    match s.decodePA p.pa with
    | .host _ _ =>
      if s.pathBusy q.die 24 then (.wait, s.noteWait q p.pa)
      else if s.rspDown q p.pa then (.err 7, s.rspLost q p.pa)
      else s.hostFetch own q 64 p.pa p.n
    | .twin _ => s.refused q 3 24 9 p.pa
    | .ctrl off => s.refused q 3 (Target.ctrl off).die 7 p.pa
    | _ => s.plainRead q p.pa p.n

/-- The parts of an element read in turn. -/
def State.homeParts (s : State) (own : Own) (q : Req) : List Piece → Acc (List Byte) × State
  | [] => (.ok [], s)
  | p :: ps =>
    match s.homePart own q p with
    | (.ok bs, s) =>
      match s.homeParts own q ps with
      | (.ok r, s) => (.ok (bs ++ r), s)
      | r => r
    | r => r

/-- Reads of the parts of an element in host windows, each with the host address its window gave at retirement (R381): they are asked for under
it. -/
def State.keepDecode (s : State) (own : Own) (e : ElemAcc) : State :=
  let new := e.parts.filterMap fun p =>
    match e.hosts.find? fun h => h.1 == p.pa with
    | some h => if (s.drdOf own p).isSome then none else some ({ own, pa := p.pa, addr := h.2, n := p.n, held := true } : Drd)
    | none => none
  if new.isEmpty then s else { s with drds := s.drds ++ new }

/-- An element read at its home: its bytes, or zeros with whether poison was the cause; none while an answer is out. -/
def State.homeElem (s : State) (own : Own) (q : Req) (code : Nat) (e : ElemAcc) : Option (List Byte × Option Bool) × State :=
  let n := (e.parts.map (·.n)).foldl (· + ·) 0
  let asked := (s.keepDecode own e).devAsk q own 64 e.parts
  if !asked.1 then (none, asked.2)
  else
    match Acc.used own e.parts (asked.2.homeParts own q e.parts) with
    | (.ok bs, s) => (some (bs, none), s)
    | (.wait, s) => (none, s)
    | (.err _, s) => (some (List.replicate n 0, some false), s)
    | (.poison, s) =>
      let pa := match e.parts.find? fun p => s.anyPoison p.pa p.n with | some p => p.pa | none => (e.parts.headD {}).pa
      (some (List.replicate n 0, some true), s.poisonUsed q.die q.unit q pa code)

/-- A loaded datum put into its place (R164). -/
def VTask.place (t : VTask) (x : Core) (i : Nat) (bs : List Byte) : Core :=
  let vd := t.f.vd.toNat
  match t.op with
  | .ldm => (List.range 8).foldl (fun x j =>
      if 8 * i + j < t.len then x.setMbit vd (8 * i + j) ((fromBytes bs).testBit j) else x) x
  | .ldr => x.setVbytes vd (8 * i) bs
  | .ldmr => (List.range 64).foldl (fun x j => x.setMbit vd (64 * i + j) ((fromBytes bs).testBit j)) x
  | _ => x.setVelem t.sew vd i (if t.sew = 4 then fromBytes bs / 16 ^ (i % 2) else fromBytes bs)

/-- The datum a store writes for one of its elements (R164). -/
def VTask.datum (t : VTask) (x : Core) (i : Nat) : List Byte :=
  let vd := t.f.vd.toNat
  match t.op with
  | .stm => toBytes 1 (((List.range 8).map fun j => if (if 8 * i + j < t.len then x.mbit vd (8 * i + j) else bit t.xb j) then 2 ^ j else 0).foldl
      (· + ·) 0)
  | .str => x.vbytes vd (8 * i) 8
  | .stmr => toBytes 8 (((List.range 64).map fun j => if x.mbit vd (64 * i + j) then 2 ^ j else 0).foldl (· + ·) 0)
  | _ => if t.sew = 4 then x.vbytes vd i 1 else toBytes (t.sew / 8) (x.velem t.sew vd i)

/-- The elements a retired vector load has still to read, performed as their data come (R168, R170): the task with those left. -/
def State.vecLoads (s : State) (c : CoreId) (t : VTask) : List ElemAcc → VTask × State
  | [] => ({ t with acc := [] }, s)
  | e :: es =>
    match s.homeElem (.vec c.val) (reqOf c) 3 e with
    | (none, s) =>
      let s := es.foldl (fun s e => s.keepDecode (.vec c.val) e) s
      ({ t with acc := e :: es }, (s.devAsk (reqOf c) (.vec c.val) 64 (es.flatMap (·.parts))).2)
    | (some (bs, bad), s) =>
      let late := match t.late, bad with | none, some p => some (e.off, p) | l, _ => l
      let t := { t with late }
      (s.updCore c fun x => t.place x e.idx bs).vecLoads c t es

/-- The machine-check notification of a late error (R167, R220). -/
def State.lateError (s : State) (c : CoreId) (code : Nat) (late : Option (Word × Bool)) : State :=
  match late with
  | some (o, p) => s.machineCheck c (code * 2 ^ 13 + 2 ^ 16 * b2n p) o
  | none => s

/-- Can a retired store be performed: is no home of it busy? -/
def State.storesReady (s : State) (q : Req) (es : List ElemAcc) : Bool :=
  let mirrored (p : Piece) : Bool := match s.decodePA p.pa with | .twin _ => true | _ => false
  s.mirrorRoom ((es.flatMap (·.parts)).filter mirrored).length && !es.any fun e => e.parts.any (s.partBusy q)

/-- The elements of a retired store performed in ascending order (R168, R169), and waiting for their acknowledgements. -/
def State.vecStores (s : State) (c : CoreId) (t : VTask) : State :=
  let x := s.core c
  t.acc.foldl (fun s e => s.postElem c { e with idx := 2 } (t.datum x e.idx)) s

/-- Inactive elements of a load under Z (R149). -/
def VTask.zeroInactive (t : VTask) (x : Core) : Core :=
  if t.f.me && t.f.z then
    (List.range t.len).foldl (fun y i => if t.active x i then y else y.setVelem t.sew t.f.vd.toNat i 0) x
  else x

end Sys2Proof.Machine
end

