-- ==== Sys2Proof/Machine/Vector.lean ====
section
/-! DEFINITION. The instructions of the vector unit but the tile moves: their checks and their retirement into the unit (R148, R150–R154,
R155–R169). What a retired instruction does is VECTOR_COMPLETE's. -/

namespace Sys2Proof.Machine

open Sys2Proof

/-! ### Retirement into the vector unit (R150, R151) -/

/-- The frame of a vector instruction (R153, R154). -/
def vecInsn (op fn : Nat) (v : VOp) (f : VFields) : Insn :=
  { word := wordV op fn f, word2 := wordV2 f, size := 8, reads := vReads v f, illegal := fun x => if vLegal v f x then none else some 0x01 }

/-- A checked task retires into the vector unit, which holds 16 (R151). -/
def vecRetire (c : CoreId) (t : VTask) (s : State) : Body :=
  if 16 ≤ (s.core c).vq.length then .wait s else .next (s.updCore c fun x => { x with vq := x.vq ++ [t] })

/-! ### Configuration (R155) -/

/-- VTYPE, VL and g[VD] after VCFG or VCFGR with a VTYPE image (R146, R147, R155). -/
def Core.configure (x : Core) (f : VFields) (image : Word) : Core :=
  let y := x.writeVtype image
  let vl : Word := if vtypeReserved image then 0
    else if f.ga = 0 then BitVec.ofNat 64 (vlMax y.vtype)
    else BitVec.ofNat 64 (min (x.gread f.ga).toNat (vlMax y.vtype))
  { y with vl := vl }.gwrite f.vd vl

/-- The fields VCFG and VCFGR do not use (R155). -/
def cfgOk (f : VFields) : Bool := f.form == 0 && f.va == 0 && f.vb == 0 && noMask f && f.sg == 0

/-- VCFG (R155). -/
def execVcfg (c : CoreId) (f : VFields) (s : State) : Out :=
  runInsn c { word := wordV 0x37 0x00 f, word2 := wordV2 f, size := 8, reads := [f.ga]
              illegal := fun _ => if cfgOk f && f.gb == 0 then none else some 0x01 } (fun s =>
    .next (s.updCore c fun x => x.configure f (zx f.imm))) s

/-- VCFGR (R155). -/
def execVcfgr (c : CoreId) (f : VFields) (s : State) : Out :=
  runInsn c { word := wordV 0x37 0x01 f, word2 := wordV2 f, size := 8, reads := [f.ga, f.gb]
              illegal := fun _ => if cfgOk f && f.imm == 0 then none else some 0x01 } (fun s =>
    .next (s.updCore c fun x => x.configure f (x.gread f.gb &&& 0xFFF))) s

/-! ### Arithmetic: the trial pass (R150, R157, R193) -/

/-- The trap of a floating-point task's trial pass, none when it passes (R193). -/
def VTask.trial (t : VTask) (x : Core) : Option Exc :=
  let traps := fpTraps t.fpflags
  let all := t.flags x
  if all &&& traps = 0 then none
  else
    let elem := if t.op.reduces then t.reduceTrap x traps
      else (((t.elemFlags x).find? fun (p : Nat × FFlags) => p.2 &&& traps != 0).map (·.1)).getD 0
    some ⟨0x0C, fpInfo traps all true elem, 0⟩

/-- An instruction of the arithmetic pipe (R148, R150): a trial pass waits for the instructions before it. -/
def vArith (c : CoreId) (op fn : Nat) (v : VOp) (f : VFields) (s : State) : Out :=
  runInsn c (vecInsn op fn v f) (fun s =>
    let x := s.core c
    let t := x.vtask v f
    if t.len = 0 then .next s
    else if v.fp && fpTraps t.fpflags != 0 then
      if !x.vq.isEmpty then .wait s
      else match t.trial x with
        | some e => .exc e s
        | none => vecRetire c t s
    else vecRetire c t s) s

/-! ### Scalar results (R151, R162, R163) -/

/-- What VGET, VGETU, MPOPC and MFIRST write to g[VD] (R162, R163). -/
def VTask.scalar (t : VTask) (x : Core) : Word :=
  let ones := (List.range t.len).filter fun i => x.mbit t.f.va.toNat i
  let e : Word := if t.xb.toNat < vlMax t.vtype then BitVec.ofNat 64 (t.a x t.xb.toNat) else 0
  match t.op with
  | .get => sext t.sew e
  | .getu => e
  | .mpopc => BitVec.ofNat 64 ones.length
  | _ => match ones with | i :: _ => BitVec.ofNat 64 i | [] => BitVec.allOnes 64

/-- An instruction that writes a general register from the vector unit: it waits for the instructions before it (R151), and with VL = 0
writes nothing (R148). -/
def vScalar (c : CoreId) (op fn : Nat) (v : VOp) (f : VFields) (s : State) : Out :=
  runInsn c (vecInsn op fn v f) (fun s =>
    let x := s.core c
    let t := x.vtask v f
    if t.len = 0 then .next s
    else if !x.vq.isEmpty then .wait s
    else .next (s.setG c f.vd (t.scalar x))) s

/-! ### Memory (R150, R164–R170) -/

/-- Does a vector memory instruction run whatever VL is (R164)? -/
def VOp.wholeRegs : VOp → Bool
  | .ldr | .ldmr | .str | .stmr => true
  | _ => false

/-- A checked memory task retires: an older tile access to overlapping bytes is waited for (R56). The bits VSTM stores at and above VL are
not stated: they are taken from `xb`, a free word. -/
def vecMemRetire (c : CoreId) (t : VTask) (upd : Core → Core) (s : State) : Body :=
  if s.tqHolds c (t.acc.flatMap (·.parts)) t.op.stores || decide (16 ≤ (s.core c).vq.length) then .wait s
  else
    let f := if t.op = .stm then s.freeNat else (t.xb.toNat, s)
    vecRetire c { t with xb := BitVec.ofNat 64 f.1, ep := s.epochCur } (f.2.updCore c upd)

/-- A vector load or store: every active element is checked before any is performed (R150, R165); VLDFF shortens VL (R166). -/
def vMem (c : CoreId) (op fn : Nat) (v : VOp) (f : VFields) (s : State) : Out :=
  runInsn c (vecInsn op fn v f) (fun s =>
    let x := s.core c
    let t := x.vtask v f
    if t.len = 0 && !v.wholeRegs then .next s
    else if (f.me || v == .ldx || v == .stx) && !x.vq.isEmpty then .wait s
    else
      match s.elemChecks c (reqOf c) f.sg.toNat v.stores (t.offs x (x.eaV f)) with
      | (.wait, s, _) => .wait s
      | (.all l, s, _) => vecMemRetire c { t with acc := l } id s
      | (.fails k e _ l, after, before) =>
        if v = .ldff then
          if k = 0 then .exc ⟨0x0D, firstFault e f.sg.toNat, x.eaV f⟩ after
          else vecMemRetire c { t with acc := l, vl := k } (fun x => { x with vl := BitVec.ofNat 64 k }) before
        else .exc e after) s

/-! ### Integer arithmetic (R156) -/

/-- VADD (R156). -/
def execVadd (c : CoreId) (f : VFields) (s : State) : Out := vArith c 0x30 0x00 .add f s
/-- VSUB (R156). -/
def execVsub (c : CoreId) (f : VFields) (s : State) : Out := vArith c 0x30 0x01 .sub f s
/-- VRSUB (R156). -/
def execVrsub (c : CoreId) (f : VFields) (s : State) : Out := vArith c 0x30 0x02 .rsub f s
/-- VAND (R156). -/
def execVand (c : CoreId) (f : VFields) (s : State) : Out := vArith c 0x30 0x03 .and f s
/-- VOR (R156). -/
def execVor (c : CoreId) (f : VFields) (s : State) : Out := vArith c 0x30 0x04 .or f s
/-- VXOR (R156). -/
def execVxor (c : CoreId) (f : VFields) (s : State) : Out := vArith c 0x30 0x05 .xor f s
/-- VSLL (R156). -/
def execVsll (c : CoreId) (f : VFields) (s : State) : Out := vArith c 0x30 0x06 .sll f s
/-- VSRL (R156). -/
def execVsrl (c : CoreId) (f : VFields) (s : State) : Out := vArith c 0x30 0x07 .srl f s
/-- VSRA (R156). -/
def execVsra (c : CoreId) (f : VFields) (s : State) : Out := vArith c 0x30 0x08 .sra f s
/-- VMIN (R156). -/
def execVmin (c : CoreId) (f : VFields) (s : State) : Out := vArith c 0x30 0x09 .min f s
/-- VMAX (R156). -/
def execVmax (c : CoreId) (f : VFields) (s : State) : Out := vArith c 0x30 0x0A .max f s
/-- VMINU (R156). -/
def execVminu (c : CoreId) (f : VFields) (s : State) : Out := vArith c 0x30 0x0B .minu f s
/-- VMAXU (R156). -/
def execVmaxu (c : CoreId) (f : VFields) (s : State) : Out := vArith c 0x30 0x0C .maxu f s
/-- VMUL (R156). -/
def execVmul (c : CoreId) (f : VFields) (s : State) : Out := vArith c 0x30 0x0D .mul f s
/-- VMULH (R156). -/
def execVmulh (c : CoreId) (f : VFields) (s : State) : Out := vArith c 0x30 0x0E .mulh f s
/-- VMULHU (R156). -/
def execVmulhu (c : CoreId) (f : VFields) (s : State) : Out := vArith c 0x30 0x0F .mulhu f s
/-- VMACC (R156). -/
def execVmacc (c : CoreId) (f : VFields) (s : State) : Out := vArith c 0x30 0x10 .macc f s
/-- VSADD (R156). -/
def execVsadd (c : CoreId) (f : VFields) (s : State) : Out := vArith c 0x30 0x11 .sadd f s
/-- VSADDU (R156). -/
def execVsaddu (c : CoreId) (f : VFields) (s : State) : Out := vArith c 0x30 0x12 .saddu f s
/-- VSSUB (R156). -/
def execVssub (c : CoreId) (f : VFields) (s : State) : Out := vArith c 0x30 0x13 .ssub f s
/-- VSSUBU (R156). -/
def execVssubu (c : CoreId) (f : VFields) (s : State) : Out := vArith c 0x30 0x14 .ssubu f s
/-- VMERGE (R156). -/
def execVmerge (c : CoreId) (f : VFields) (s : State) : Out := vArith c 0x30 0x15 .merge f s
/-- VMV (R156). -/
def execVmv (c : CoreId) (f : VFields) (s : State) : Out := vArith c 0x30 0x16 .mv f s

/-! ### Floating point and conversions (R157, R158) -/

/-- VFADD (R157). -/
def execVfadd (c : CoreId) (f : VFields) (s : State) : Out := vArith c 0x31 0x00 .fadd f s
/-- VFSUB (R157). -/
def execVfsub (c : CoreId) (f : VFields) (s : State) : Out := vArith c 0x31 0x01 .fsub f s
/-- VFMUL (R157). -/
def execVfmul (c : CoreId) (f : VFields) (s : State) : Out := vArith c 0x31 0x02 .fmul f s
/-- VFDIV (R157). -/
def execVfdiv (c : CoreId) (f : VFields) (s : State) : Out := vArith c 0x31 0x03 .fdiv f s
/-- VFSQRT (R157). -/
def execVfsqrt (c : CoreId) (f : VFields) (s : State) : Out := vArith c 0x31 0x04 .fsqrt f s
/-- VFMA (R157). -/
def execVfma (c : CoreId) (f : VFields) (s : State) : Out := vArith c 0x31 0x05 .fma f s
/-- VFNMA (R157). -/
def execVfnma (c : CoreId) (f : VFields) (s : State) : Out := vArith c 0x31 0x06 .fnma f s
/-- VFMIN (R157). -/
def execVfmin (c : CoreId) (f : VFields) (s : State) : Out := vArith c 0x31 0x07 .fmin f s
/-- VFMAX (R157). -/
def execVfmax (c : CoreId) (f : VFields) (s : State) : Out := vArith c 0x31 0x08 .fmax f s
/-- VFABS (R157). -/
def execVfabs (c : CoreId) (f : VFields) (s : State) : Out := vArith c 0x31 0x09 .fabs f s
/-- VFNEG (R157). -/
def execVfneg (c : CoreId) (f : VFields) (s : State) : Out := vArith c 0x31 0x0A .fneg f s
/-- VFCVT.I (R157). -/
def execVfcvtI (c : CoreId) (f : VFields) (s : State) : Out := vArith c 0x31 0x0B .fcvtI f s
/-- VFCVT.F (R157). -/
def execVfcvtF (c : CoreId) (f : VFields) (s : State) : Out := vArith c 0x31 0x0C .fcvtF f s
/-- VFCVT.W (R158). -/
def execVfcvtW (c : CoreId) (f : VFields) (s : State) : Out := vArith c 0x31 0x0D .fcvtW f s
/-- VFCVT.N (R158). -/
def execVfcvtN (c : CoreId) (f : VFields) (s : State) : Out := vArith c 0x31 0x0E .fcvtN f s

/-! ### Widening arithmetic and dot products (R159–R161) -/

/-- VWMUL (R159). -/
def execVwmul (c : CoreId) (f : VFields) (s : State) : Out := vArith c 0x32 0x00 .wmul f s
/-- VWMULU (R159). -/
def execVwmulu (c : CoreId) (f : VFields) (s : State) : Out := vArith c 0x32 0x01 .wmulu f s
/-- VWMULSU (R159). -/
def execVwmulsu (c : CoreId) (f : VFields) (s : State) : Out := vArith c 0x32 0x02 .wmulsu f s
/-- VWMACC (R159). -/
def execVwmacc (c : CoreId) (f : VFields) (s : State) : Out := vArith c 0x32 0x03 .wmacc f s
/-- VWMACCU (R159). -/
def execVwmaccu (c : CoreId) (f : VFields) (s : State) : Out := vArith c 0x32 0x04 .wmaccu f s
/-- VWMACCSU (R159). -/
def execVwmaccsu (c : CoreId) (f : VFields) (s : State) : Out := vArith c 0x32 0x05 .wmaccsu f s
/-- VFWMUL (R159). -/
def execVfwmul (c : CoreId) (f : VFields) (s : State) : Out := vArith c 0x32 0x06 .fwmul f s
/-- VFWMA (R159). -/
def execVfwma (c : CoreId) (f : VFields) (s : State) : Out := vArith c 0x32 0x07 .fwma f s
/-- VDOT4 (R160). -/
def execVdot4 (c : CoreId) (f : VFields) (s : State) : Out := vArith c 0x32 0x08 .dot4 f s
/-- VDOT4U (R160). -/
def execVdot4u (c : CoreId) (f : VFields) (s : State) : Out := vArith c 0x32 0x09 .dot4u f s
/-- VDOT4SU (R160). -/
def execVdot4su (c : CoreId) (f : VFields) (s : State) : Out := vArith c 0x32 0x0A .dot4su f s
/-- VFDOT4 (R160). -/
def execVfdot4 (c : CoreId) (f : VFields) (s : State) : Out := vArith c 0x32 0x0B .fdot4 f s
/-- VDOT2 (R160). -/
def execVdot2 (c : CoreId) (f : VFields) (s : State) : Out := vArith c 0x32 0x0C .dot2 f s
/-- VDOT2U (R160). -/
def execVdot2u (c : CoreId) (f : VFields) (s : State) : Out := vArith c 0x32 0x0D .dot2u f s
/-- VFDOT2 (R160). -/
def execVfdot2 (c : CoreId) (f : VFields) (s : State) : Out := vArith c 0x32 0x0E .fdot2 f s

/-! ### Compares and mask operations (R162) -/

/-- VCMPEQ (R162). -/
def execVcmpeq (c : CoreId) (f : VFields) (s : State) : Out := vArith c 0x33 0x00 .cmpeq f s
/-- VCMPNE (R162). -/
def execVcmpne (c : CoreId) (f : VFields) (s : State) : Out := vArith c 0x33 0x01 .cmpne f s
/-- VCMPLT (R162). -/
def execVcmplt (c : CoreId) (f : VFields) (s : State) : Out := vArith c 0x33 0x02 .cmplt f s
/-- VCMPLTU (R162). -/
def execVcmpltu (c : CoreId) (f : VFields) (s : State) : Out := vArith c 0x33 0x03 .cmpltu f s
/-- VCMPLE (R162). -/
def execVcmple (c : CoreId) (f : VFields) (s : State) : Out := vArith c 0x33 0x04 .cmple f s
/-- VCMPLEU (R162). -/
def execVcmpleu (c : CoreId) (f : VFields) (s : State) : Out := vArith c 0x33 0x05 .cmpleu f s
/-- VCMPGT (R162). -/
def execVcmpgt (c : CoreId) (f : VFields) (s : State) : Out := vArith c 0x33 0x06 .cmpgt f s
/-- VCMPGTU (R162). -/
def execVcmpgtu (c : CoreId) (f : VFields) (s : State) : Out := vArith c 0x33 0x07 .cmpgtu f s
/-- VFCMPEQ (R162). -/
def execVfcmpeq (c : CoreId) (f : VFields) (s : State) : Out := vArith c 0x33 0x08 .fcmpeq f s
/-- VFCMPLT (R162). -/
def execVfcmplt (c : CoreId) (f : VFields) (s : State) : Out := vArith c 0x33 0x09 .fcmplt f s
/-- VFCMPLE (R162). -/
def execVfcmple (c : CoreId) (f : VFields) (s : State) : Out := vArith c 0x33 0x0A .fcmple f s
/-- VFCMPUN (R162). -/
def execVfcmpun (c : CoreId) (f : VFields) (s : State) : Out := vArith c 0x33 0x0B .fcmpun f s
/-- MAND (R162). -/
def execMand (c : CoreId) (f : VFields) (s : State) : Out := vArith c 0x33 0x10 .mand f s
/-- MOR (R162). -/
def execMor (c : CoreId) (f : VFields) (s : State) : Out := vArith c 0x33 0x11 .mor f s
/-- MXOR (R162). -/
def execMxor (c : CoreId) (f : VFields) (s : State) : Out := vArith c 0x33 0x12 .mxor f s
/-- MANDN (R162). -/
def execMandn (c : CoreId) (f : VFields) (s : State) : Out := vArith c 0x33 0x13 .mandn f s
/-- MNOT (R162). -/
def execMnot (c : CoreId) (f : VFields) (s : State) : Out := vArith c 0x33 0x14 .mnot f s
/-- MSET (R162). -/
def execMset (c : CoreId) (f : VFields) (s : State) : Out := vArith c 0x33 0x15 .mset f s
/-- MPOPC (R162). -/
def execMpopc (c : CoreId) (f : VFields) (s : State) : Out := vScalar c 0x33 0x16 .mpopc f s
/-- MFIRST (R162). -/
def execMfirst (c : CoreId) (f : VFields) (s : State) : Out := vScalar c 0x33 0x17 .mfirst f s

/-! ### Reductions, permutations and scalar moves (R163) -/

/-- VGET (R163). -/
def execVget (c : CoreId) (f : VFields) (s : State) : Out := vScalar c 0x36 0x00 .get f s
/-- VGETU (R163). -/
def execVgetu (c : CoreId) (f : VFields) (s : State) : Out := vScalar c 0x36 0x01 .getu f s
/-- VPUT (R163). -/
def execVput (c : CoreId) (f : VFields) (s : State) : Out := vArith c 0x36 0x02 .put f s
/-- VSLIDEUP (R163). -/
def execVslideup (c : CoreId) (f : VFields) (s : State) : Out := vArith c 0x36 0x03 .slideup f s
/-- VSLIDEDN (R163). -/
def execVslidedn (c : CoreId) (f : VFields) (s : State) : Out := vArith c 0x36 0x04 .slidedn f s
/-- VPERM (R163). -/
def execVperm (c : CoreId) (f : VFields) (s : State) : Out := vArith c 0x36 0x05 .perm f s
/-- VREDSUM (R163). -/
def execVredsum (c : CoreId) (f : VFields) (s : State) : Out := vArith c 0x36 0x06 .redsum f s
/-- VREDMAX (R163). -/
def execVredmax (c : CoreId) (f : VFields) (s : State) : Out := vArith c 0x36 0x07 .redmax f s
/-- VREDMIN (R163). -/
def execVredmin (c : CoreId) (f : VFields) (s : State) : Out := vArith c 0x36 0x08 .redmin f s
/-- VREDMAXU (R163). -/
def execVredmaxu (c : CoreId) (f : VFields) (s : State) : Out := vArith c 0x36 0x09 .redmaxu f s
/-- VREDMINU (R163). -/
def execVredminu (c : CoreId) (f : VFields) (s : State) : Out := vArith c 0x36 0x0A .redminu f s
/-- VFREDSUM (R163). -/
def execVfredsum (c : CoreId) (f : VFields) (s : State) : Out := vArith c 0x36 0x0B .fredsum f s
/-- VFREDMAX (R163). -/
def execVfredmax (c : CoreId) (f : VFields) (s : State) : Out := vArith c 0x36 0x0C .fredmax f s
/-- VFREDMIN (R163). -/
def execVfredmin (c : CoreId) (f : VFields) (s : State) : Out := vArith c 0x36 0x0D .fredmin f s

/-! ### Loads (R164–R170) -/

/-- VLD (R164). -/
def execVld (c : CoreId) (f : VFields) (s : State) : Out := vMem c 0x34 0x00 .ld f s
/-- VLDS (R164). -/
def execVlds (c : CoreId) (f : VFields) (s : State) : Out := vMem c 0x34 0x01 .lds f s
/-- VLDX (R164). -/
def execVldx (c : CoreId) (f : VFields) (s : State) : Out := vMem c 0x34 0x02 .ldx f s
/-- VLDFF (R166). -/
def execVldff (c : CoreId) (f : VFields) (s : State) : Out := vMem c 0x34 0x03 .ldff f s
/-- VLDM (R164). -/
def execVldm (c : CoreId) (f : VFields) (s : State) : Out := vMem c 0x34 0x04 .ldm f s
/-- VLDR (R164). -/
def execVldr (c : CoreId) (f : VFields) (s : State) : Out := vMem c 0x34 0x05 .ldr f s
/-- VLDMR (R164). -/
def execVldmr (c : CoreId) (f : VFields) (s : State) : Out := vMem c 0x34 0x06 .ldmr f s

/-! ### Stores (R164–R170) -/

/-- VST (R164). -/
def execVst (c : CoreId) (f : VFields) (s : State) : Out := vMem c 0x35 0x00 .st f s
/-- VSTS (R164). -/
def execVsts (c : CoreId) (f : VFields) (s : State) : Out := vMem c 0x35 0x01 .sts f s
/-- VSTX (R164). -/
def execVstx (c : CoreId) (f : VFields) (s : State) : Out := vMem c 0x35 0x02 .stx f s
/-- VSTM (R164). -/
def execVstm (c : CoreId) (f : VFields) (s : State) : Out := vMem c 0x35 0x04 .stm f s
/-- VSTR (R164). -/
def execVstr (c : CoreId) (f : VFields) (s : State) : Out := vMem c 0x35 0x05 .str f s
/-- VSTMR (R164). -/
def execVstmr (c : CoreId) (f : VFields) (s : State) : Out := vMem c 0x35 0x06 .stmr f s

end Sys2Proof.Machine
end

