-- ==== Sys2Proof/Machine/Tile.lean ====
section
/-! DEFINITION. Tile and engine instructions: field and shape checks, their retirement into the tile queue, TMMA and TMMP up to their
checks, the moves between vectors and tiles (R171, R172, R214–R226). -/

namespace Sys2Proof.Machine

open Sys2Proof

/-! ### Fields (R216, R217, R245) -/

/-- The frame of an instruction of major opcode 0x38–0x3C: the system cores have no engine (R217). -/
def tileInsn (c : CoreId) (op fn : Nat) (f : TFields) (reads : List Greg) (ok : Bool) : Insn :=
  { word := wordT op fn f, word2 := wordT2 f, size := 8, reads, illegal := fun _ =>
      if isSystem c || f.rsv0 != 0 || f.rsv1 || !ok then some 0x01 else none }

/-- No ADD and no FIN. -/
def noAddFin (f : TFields) : Bool := !f.add && !f.fin

/-! ### Shape and group checks (R221–R225) -/

/-- A tile shape fault (R224). -/
def shapeFault (opnd tile dim need : Nat) : Exc := ⟨0x08, opnd + 2 ^ 3 * (tile % 8) + 2 ^ 6 * dim + 2 ^ 9 * (need % 4096), 0⟩

/-- Is tile n configured (R209)? -/
def Core.configured (x : Core) (n : Nat) : Bool := tcfgRows (x.tcfgOf n) != 0

/-- The first check of a list that fails. -/
def firstFail : List (Bool × Exc) → Option Exc
  | [] => none
  | (true, _) :: l => firstFail l
  | (false, e) :: _ => some e

/-- Is tile n a fitting scale tile: E8M0 of these rows and row bytes (R223)? -/
def Core.scaleTile (x : Core) (n rows rb : Nat) : Bool :=
  let w := x.tcfgOf n
  x.configured n && tcfgEtype w == 12 && tcfgRows w == rows && tcfgRb w == rb

/-- The shape checks of TMMA in table order (R223). -/
def Core.tmmaCheck (x : Core) (ta tb : Nat) : Option Exc :=
  let a := x.tcfgOf ta
  let b := x.tcfgOf tb
  let ea := tcfgEtype a
  let eb := tcfgEtype b
  let kb := tcfgRows b
  let kp := (passDepth ea eb).getD 0
  let lone := ea == 0 || ea == 12
  firstFail [
    (x.configured ta, shapeFault 0 ta 0 0),
    (x.configured tb, shapeFault 1 tb 0 0),
    ((passDepth ea eb).isSome, if lone then shapeFault 0 ta 3 0
      else shapeFault 1 tb 3 (if ea = 1 ∨ ea = 10 ∨ ea = 11 then ea else 0)),
    (tcfgRb b == 32 * etypeBits eb, shapeFault 1 tb 2 (32 * etypeBits eb)),
    (decide (kb ≤ kp) && (!(ea == 9 || eb == 9) || kb % 2 == 0) && (!(ea == 7 || ea == 8 || eb == 7 || eb == 8) || kb % 4 == 0)
      && (!(tcfgSc a || tcfgSc b) || kb % 32 == 0), shapeFault 1 tb 1 0),
    (8 * tcfgRb a == kb * etypeBits ea, shapeFault 0 ta 2 (kb * etypeBits ea / 8)),
    (!tcfgSc a || x.scaleTile (tcfgSct a) (tcfgRows a) (kb / 32), shapeFault 3 (tcfgSct a) 4 0),
    (!tcfgSc b || x.scaleTile (tcfgSct b) (kb / 32) 256, shapeFault 4 (tcfgSct b) 4 0)]

/-- The shape checks of TMMP in table order (R223). -/
def Core.tmmpCheck (x : Core) (ta tb : Nat) : Option Exc :=
  let w := fun n => x.tcfgOf n
  let bf := fun n => tcfgEtype (w n) == 3 && !tcfgSc (w n)
  firstFail [
    (x.configured ta, shapeFault 0 ta 0 0),
    (x.configured (ta + 1), shapeFault 5 (ta + 1) 0 0),
    (x.configured tb, shapeFault 1 tb 0 0),
    (x.configured (tb + 1), shapeFault 5 (tb + 1) 0 0),
    (bf ta, shapeFault 0 ta 3 3),
    (bf tb, shapeFault 1 tb 3 3),
    (bf (ta + 1), shapeFault 5 (ta + 1) 3 3),
    (bf (tb + 1), shapeFault 5 (tb + 1) 3 3),
    (tcfgRb (w tb) == 512, shapeFault 1 tb 2 512),
    (decide (tcfgRows (w tb) ≤ 256), shapeFault 1 tb 1 0),
    (tcfgRb (w ta) == 2 * tcfgRows (w tb), shapeFault 0 ta 2 (2 * tcfgRows (w tb))),
    (tcfgRows (w (ta + 1)) == tcfgRows (w ta), shapeFault 5 (ta + 1) 1 (tcfgRows (w ta))),
    (tcfgRows (w (tb + 1)) == tcfgRows (w tb), shapeFault 5 (tb + 1) 1 (tcfgRows (w tb))),
    (tcfgRb (w (ta + 1)) == tcfgRb (w ta), shapeFault 5 (ta + 1) 2 (tcfgRb (w ta))),
    (tcfgRb (w (tb + 1)) == tcfgRb (w tb), shapeFault 5 (tb + 1) 2 (tcfgRb (w tb)))]

/-- OFF of an AM instruction (R214). -/
def Core.amOff (x : Core) (f : TFields) : Nat := (x.gread f.ga + zx f.imm).toNat

/-- The group check of an AM instruction that needs n rows, against the group's descriptor as it was read (R225): BASE, or the exception. -/
def groupCheckOf (k : CoreK) (g : Nat) (ag : Word) (off n : Nat) : Except Exc Nat :=
  let bad (r : Nat) : Except Exc Nat := .error ⟨0x13, r + 2 ^ 4 * g, 0⟩
  if !bit ag 63 then bad 1
  else if !bit ag (32 + k.val) then bad 2
  else if bits ag 31 16 < off + n then bad 3
  else .ok (bits ag 15 0)

/-- The descriptor of a core's group (R212). -/
def State.groupNow (s : State) (c : CoreId) : Word := s.reg (dieOf c).val .MXE_AG (bits (s.core c).accg 5 0)

/-- The group check under the group's descriptor as it stands. -/
def State.groupCheck (s : State) (c : CoreId) (off n : Nat) : Except Exc Nat :=
  groupCheckOf (coreK c) (bits (s.core c).accg 5 0) (s.groupNow c) off n

/-! ### The tile queue (R226) -/

/-- A checked tile instruction retires into its core's queue of 16 (R226). -/
def tileRetire (c : CoreId) (t : TTask) (s : State) : Body :=
  if 16 ≤ (s.core c).tq.length ∨ s.asked (dieOf c).val 4 then .wait s
  else .next ((s.updCore c fun x => { x with tq := x.tq ++ [{ t with ep := s.epochCur }] }).mxeSync (dieOf c).val)

/-- The rows of a tile as elements: number, offset, bytes (R220). -/
def tileOffs (b stride : Word) (rows rb : Nat) : List (Nat × Word × Nat) :=
  (List.range rows).map fun r => (r, b + BitVec.ofNat 64 r * stride, rb)

/-- TPULL and TPUSH (R220): every row is checked before any moves; an older vector access to overlapping bytes is waited for (R56). -/
def tileMem (c : CoreId) (fn : Nat) (op : TOp) (n : Nat) (ok : Bool) (f : TFields) (s : State) : Out :=
  runInsn c (tileInsn c 0x39 fn f [f.ga, f.gb] (ok && f.tb == 0 && noAddFin f)) (fun s =>
    let x := s.core c
    let w := x.tcfgOf n
    let push := op == .tpush
    if !x.configured n then .exc (shapeFault (if push then 0 else 2) n 0 0) s
    else
      match s.elemChecks c (reqOf c) f.sg.toNat push (tileOffs (x.gread f.ga + sx f.imm) (x.gread f.gb) (tcfgRows w) (tcfgRb w)) with
      | (.wait, s, _) => .wait s
      | (.fails _ e _ _, s, _) => .exc e s
      | (.all l, s, _) =>
        if s.vqHolds c (l.flatMap (·.parts)) push then .wait s
        else tileRetire c { op, tile := n, rows := tcfgRows w, rb := tcfgRb w, acc := l } s) s

/-- TPULL (R220). -/
def execTpull (c : CoreId) (f : TFields) (s : State) : Out := tileMem c 0x00 .tpull f.td.toNat (f.ta == 0) f s

/-- TPUSH (R220). -/
def execTpush (c : CoreId) (f : TFields) (s : State) : Out := tileMem c 0x01 .tpush f.ta.toNat (f.td == 0) f s

/-- TWIPE (R217, R221). -/
def execTwipe (c : CoreId) (f : TFields) (s : State) : Out :=
  runInsn c (tileInsn c 0x39 0x02 f [] (f.ta == 0 && f.tb == 0 && noAddFin f && f.ga == 0 && f.gb == 0 && f.sg == 0 && f.imm == 0)) (fun s =>
    let x := s.core c
    let n := f.td.toNat
    let w := x.tcfgOf n
    if !x.configured n then .exc (shapeFault 2 n 0 0) s
    else tileRetire c { op := .twipe, tile := n, rows := tcfgRows w, rb := tcfgRb w } s) s

/-- ACC.ST and ACC.LD: their checks (R222, R223, R225). -/
def tileAcc (c : CoreId) (fn : Nat) (op : TOp) (n opnd : Nat) (ok : Bool) (f : TFields) (s : State) : Out :=
  runInsn c (tileInsn c 0x3A fn f [f.ga] (ok && f.tb == 0 && !f.add && f.gb == 0 && f.sg == 0)) (fun s =>
    let x := s.core c
    let w := x.tcfgOf n
    let off := x.amOff f
    if !x.configured n then .exc (shapeFault opnd n 0 0) s
    else if tcfgRb w ≠ 1024 ∧ tcfgRb w ≠ 2048 then .exc (shapeFault opnd n 2 0) s
    else
      match s.groupCheck c off (tcfgRb w / 1024 * tcfgRows w) with
      | .error e => .exc e s
      | .ok base => tileRetire c { op, tile := n, rows := tcfgRows w, rb := tcfgRb w, row0 := base + off, fin := f.fin, base
                                   group := bits x.accg 5 0 } s) s

/-- ACC.ST (R222). -/
def execAccSt (c : CoreId) (f : TFields) (s : State) : Out := tileAcc c 0x00 .accSt f.td.toNat 2 (f.ta == 0 && !f.fin) f s

/-- ACC.LD (R222). -/
def execAccLd (c : CoreId) (f : TFields) (s : State) : Out := tileAcc c 0x01 .accLd f.ta.toNat 0 (f.td == 0) f s

/-! ### Passes up to their checks (R218, R219, R227, R232) -/

/-- The tag of a core's B block (R228). -/
def State.bankTag (s : State) (c : CoreId) (tb kp : Nat) : Bank :=
  let e := s.engine (dieOf c).val
  let k := (coreK c).val
  let w := (s.core c).tcfgOf tb
  { core := k, tile := tb, gen := e.genOf (tileSlot k tb), sgen := if tcfgSc w then e.genOf (tileSlot k (tcfgSct w)) else 0, kp }

/-- The group's descriptor as a pass's check read it (R227): a pass checked while it was behind the oldest instruction keeps the value it read
then; whether a pass with these tiles, group and TSTART is the one checked then is free. -/
def State.groupSeen (s : State) (c : CoreId) (pair : Bool) (ta tb : Nat) : Word × State :=
  let x := s.core c
  match x.ahead with
  | some a =>
    if a.pair == pair && a.ta == ta && a.tb == tb && a.accg == x.accg && a.tstart == x.tstart then
      let b := s.freeBool
      (if b.1 then a.ag else s.groupNow c, b.2)
    else (s.groupNow c, s)
  | none => (s.groupNow c, s)

/-- A pass that has passed its checks: the start row by TSTART (R218). Its core waits until it retires (R227). Banks that hold its B
already are its own from now on (R228). -/
def passBody (c : CoreId) (pair : Bool) (f : TFields) (s : State) : Body :=
  let x := s.core c
  let ta := f.ta.toNat
  let tb := f.tb.toNat
  match if pair then x.tmmpCheck ta tb else x.tmmaCheck ta tb with
  | some e => .exc e s
  | none =>
    let ea := tcfgEtype (x.tcfgOf ta)
    let acc := accFormat ea pair
    let m := tcfgRows (x.tcfgOf ta)
    let off := x.amOff f
    let ag := s.groupSeen c pair ta tb
    let s := ag.2
    match groupCheckOf (coreK c) (bits x.accg 5 0) ag.1 off (accW acc * m) with
    | .error e => .exc e s
    | .ok base =>
      let used := bit x.tstart 11 && bits x.tstart 61 12 == bits x.ip 51 2
      let start := if used then bits x.tstart 10 0 else 0
      let kp := (passDepth ea (tcfgEtype (x.tcfgOf tb))).getD 0
      let ts := if pair then [s.bankTag c tb kp, s.bankTag c (tb + 1) kp] else [s.bankTag c tb kp]
      let e := s.engine (dieOf c).val
      let p : Pass := {
        pair, ta, tb, add := f.add, fin := f.fin && decide (start < m), am := base + off, base, group := bits x.accg 5 0, m
        kb := tcfgRows (x.tcfgOf tb), kp, w := accW acc, next := start, used
        latched := if ts.all e.hasBank then ts else [], seq := e.checks
        stepped := x.ss && x.slot.isNone, reads := [f.ga] }
      .wait ((s.updEngine (dieOf c).val fun e => { e with checks := e.checks + 1 }).updCore c fun x => { x with pass := some p, ahead := none })

/-- TMMA (R218). -/
def execTmma (c : CoreId) (f : TFields) (s : State) : Out :=
  runInsn c (tileInsn c 0x38 0x00 f [f.ga] (f.td == 0 && f.gb == 0 && f.sg == 0)) (fun s => passBody c false f s) s

/-- TMMP (R219). -/
def execTmmp (c : CoreId) (f : TFields) (s : State) : Out :=
  runInsn c (tileInsn c 0x38 0x01 f [f.ga] (f.td == 0 && f.gb == 0 && f.sg == 0 && f.ta.toNat % 2 == 0 && f.tb.toNat % 2 == 0))
    (fun s => passBody c true f s) s

/-! ### TVMOV and VTMOV (R171, R172) -/

/-- Bytes a tile move moves (R171). -/
def VTask.moveBytes (t : VTask) : Nat := t.len * t.sew / 8

/-- A tile move enters both queues (R151, R171, R172). -/
def tileMove (c : CoreId) (fn : Nat) (op : VOp) (top : TOp) (n : Nat) (f : VFields) (s : State) : Out :=
  runInsn c { vecInsn 0x36 fn op f with illegal := fun x => if isSystem c || !vLegal op f x then some 0x01 else none } (fun s =>
    let x := s.core c
    let t := x.vtask op f
    let w := x.tcfgOf n
    let rows := (t.moveBytes + tcfgRb w - 1) / max 1 (tcfgRb w)
    if t.len = 0 then .next s
    else if !x.configured n then .exc (shapeFault 0 n 0 0) s
    else if tcfgRows w < t.xb.toNat + rows then .exc (shapeFault 0 n 1 0) s
    else if 16 ≤ x.vq.length then .wait s
    else
      match tileRetire c { op := top, tile := n, rows := tcfgRows w, rb := tcfgRb w, row0 := t.xb.toNat } s with
      | .next s => vecRetire c t s
      | b => b) s

/-- TVMOV (R171). -/
def execTvmov (c : CoreId) (f : VFields) (s : State) : Out := tileMove c 0x0E .tvmov .tvmov (f.va.toNat % 8) f s

/-- VTMOV (R171). -/
def execVtmov (c : CoreId) (f : VFields) (s : State) : Out := tileMove c 0x0F .vtmov .vtmov (f.vd.toNat % 8) f s

/-- The bytes TVMOV moves, zeros in every element that a poisoned row touches (R171, R233), and whether any did. -/
def moveRead (e : Engine) (slot : Nat) (k : TTask) (t : VTask) : List Byte × Bool :=
  let n := t.moveBytes
  let b := max 1 (t.sew / 8)
  let bs := e.tileBytes (tileAt slot k.rb k.row0) n
  let bad (i : Nat) : Bool :=
    let lo := i * b / k.rb
    let hi := (i * b + b - 1) / k.rb
    (List.range (hi + 1 - lo)).any fun j => e.tilePoison (tileAt slot k.rb (k.row0 + lo + j)) k.rb
  let elems := List.range (n / b)
  (elems.flatMap fun i => if bad i then List.replicate b 0 else (bs.drop (i * b)).take b, elems.any bad)

/-- A tile move at the head of both queues performed (R171, R172). TVMOV reports poison as R167 does; the offset it gives is not
stated. -/
def State.moveTile (s : State) (c : CoreId) (k : TTask) (t : VTask) : State :=
  let d := (dieOf c).val
  let slot := tileSlot (coreK c).val k.tile
  let s := s.updCore c fun x => { x with tq := x.tq.drop 1, vq := x.vq.drop 1 }
  if k.op = .tvmov then
    let s := s.eccTile d (tileAt slot k.rb k.row0) t.moveBytes
    let r := moveRead (s.engine d) slot k t
    let s := s.updCore c fun x => x.setVbytes t.f.vd.toNat 0 r.1
    if r.2 then
      let o := s.freeNat
      (o.2.logSomewhere d 0x03 1 4 (reqOf c) true 3).lateError c 3 (some (BitVec.ofNat 64 o.1, true))
    else s
  else
    let bs := (s.core c).vbytes t.f.va.toNat 0 t.moveBytes
    s.updEngine d fun e => e.setTile slot k.rb (tileAt slot k.rb k.row0) bs false

end Sys2Proof.Machine
end

