-- ==== Sys2Proof/Machine/EngineCmd.lean ====
section
/-! DEFINITION. What the matrix engine does on its own: tile queues, B loads, passes, the retirement of passes, finished-tile entries
posted (R218–R222, R226–R235, R244, R269–R271). -/

namespace Sys2Proof.Machine

open Sys2Proof

/-! ### The tile queues (R220, R222, R226, R229) -/

/-- The memory path of an engine as a requester (R468). -/
def engReq (d : Nat) : Req := ⟨d, 4⟩

/-- Rows of a TPULL read as their data come (R220): the task with those left. -/
def State.pullRows (s : State) (c : CoreId) (t : TTask) : List ElemAcc → TTask × State
  | [] => ({ t with acc := [] }, s)
  | e :: es =>
    match s.homeElem (.tile c.val) (engReq (dieOf c).val) 4 e with
    | (none, s) => ({ t with acc := e :: es }, (s.devAsk (engReq (dieOf c).val) (.tile c.val) 64 (es.flatMap (·.parts))).2)
    | (some (bs, bad), s) =>
      let late := match t.late, bad with | none, some p => some (e.off, p) | l, _ => l
      let slot := tileSlot (coreK c).val t.tile
      (s.updEngine (dieOf c).val fun x => x.setTile slot t.rb (tileAt slot t.rb e.idx) bs false).pullRows c { t with late } es

/-- A row of a TPUSH written part by part, its poison with it (R220, R233), a part in a host window at the host address its window gave at
retirement (R381): was it lost? -/
def State.pushParts (s : State) (c : CoreId) (poison : Bool) (hosts : List (Nat × Nat)) : List Piece → List Byte → Bool × State
  | [], _ => (false, s)
  | p :: ps, bs =>
    let q := engReq (dieOf c).val
    let r : Acc Unit × State := match hosts.find? fun h => h.1 == p.pa with
      | some h => if poison then (.err 3, s.egress q 8 p.pa) else (.ok (), s.postDwr (.core c.val) p.pa h.2 (bs.take p.n))
      | none => s.devWriteBlock q (.core c.val) 64 p.pa (bs.take p.n) poison
    let t := r.2.updCore c fun x => x.updLine p.pa (bs.take p.n)
    match r.1 with
    | .ok _ => t.pushParts c poison hosts ps (bs.drop p.n)
    | _ => (true, r.2)

/-- The rows of a TPUSH written (R220): the offset of the lowest row lost. -/
def State.pushRows (s : State) (c : CoreId) (t : TTask) : Option (Word × Bool) × State :=
  let d := (dieOf c).val
  let slot := tileSlot (coreK c).val t.tile
  t.acc.foldl (fun (r : Option (Word × Bool) × State) e =>
    let x := r.2.engine d
    let a := tileAt slot t.rb e.idx
    let k := r.2.undoOf { e with idx := tpushIdx t.tile } (x.tileBytes a t.rb)
    let w := r.2.pushParts c (x.tilePoison a t.rb) e.hosts e.parts (x.tileBytes a t.rb)
    let w := if w.1 then w else (false, w.2.updCore c fun y => { y with unacked := y.unacked ++ [k] })
    (match r.1 with | none => if w.1 then some (e.off, false) else none | l => l, w.2)) (none, s)

/-- ACC.ST: AM rows copied into the tile with their poison (R222, R233). -/
def accToTile (x : Engine) (slot : Nat) (t : TTask) : Engine :=
  (List.range (t.rows * (t.rb / 1024))).foldl (fun x i =>
    x.setTile slot 1024 (131072 * slot + 1024 * i) (x.amRows (t.row0 + i) 1) (x.amPoisoned (t.row0 + i) 1)) x

/-- ACC.LD: tile rows copied into AM with their poison (R222, R233). -/
def tileToAcc (x : Engine) (slot : Nat) (t : TTask) : Engine :=
  let q := t.rb / 1024
  (List.range (t.rows * q)).foldl (fun x i =>
    x.setAm (t.row0 + i) 1 (x.tileBytes (131072 * slot + 1024 * i) 1024) (x.tilePoison (tileAt slot t.rb (i / q)) t.rb)) x

/-- The entries of m output rows from AM row am, w rows each (R269, R270), whose last rows lie from row `lo` up to row `hi`. -/
def entriesOf (am base m w group afmt src core lo hi : Nat) : List (List Word) :=
  ((List.range ((m + 255) / 256)).filter fun j => decide (lo < min m (256 * (j + 1)) ∧ min m (256 * (j + 1)) ≤ hi)).map fun j =>
    ftqEntry (am + w * 256 * j) (min 256 (m - 256 * j)) group afmt src core ((am + w * 256 * j - base) / w) 0 0xFFFF 0

/-- The head of a core's tile queue taken away. -/
def State.popTile (s : State) (c : CoreId) : State := s.updCore c fun x => { x with tq := x.tq.drop 1 }

/-- Can the head of a core's tile queue run: a tile move only when it heads the vector unit's queue as well (R151, R172)? -/
def Core.tileReady (x : Core) : Bool :=
  match x.tq with
  | [] => false
  | k :: _ =>
    match k.op with
    | .tvmov => match x.vq with | t :: _ => t.op == .tvmov | [] => false
    | .vtmov => match x.vq with | t :: _ => t.op == .vtmov | [] => false
    | _ => true

/-- The next core in the rotation 0, 1, 2, 3 after the one last served for which p holds (R229). -/
def nextCore (d last : Nat) (p : CoreId → Bool) : Option CoreId :=
  ([1, 2, 3, 4].map fun i => (last + i) % 4).findSome? fun k => (coresOf d).find? fun c => (coreK c).val == k && p c

/-- Has a streaming pass of the die still to write one of n AM rows from r: a later operation on them waits (R230)? -/
def State.passOwes (s : State) (d r n : Nat) : Bool :=
  match s.streamingCore d with
  | none => false
  | some c =>
    match (s.core c).pass with
    | some p => decide (p.am + p.w * p.next < r + n ∧ r < p.am + p.w * p.m)
    | none => false

/-- AM rows that a queued instruction reads or writes (R222). -/
def TTask.amCount (k : TTask) : Nat := k.rows * (k.rb / 1024)

/-- The head of a core's tile queue runs (R220–R222, R226), in its order among operations on the same AM rows (R230). -/
def State.runTile (s : State) (c : CoreId) (k : TTask) : State :=
  let d := (dieOf c).val
  let slot := tileSlot (coreK c).val k.tile
  let served (s : State) : State := ((s.updEngine d fun x => { x with lastTile := (coreK c).val, tileRun := none }).mxeSync d).slotGoesOn c
  match k.op with
  | .twipe => served ((s.popTile c).updEngine d fun x => x.setTile slot k.rb (131072 * slot) (List.replicate (k.rows * k.rb) 0) false)
  | .accSt =>
    if s.passOwes d k.row0 k.amCount then s
    else served (((s.eccAm d k.row0 k.amCount).popTile c).updEngine d fun x => accToTile x slot k)
  | .accLd =>
    if s.passOwes d k.row0 k.amCount then s else
    let s := ((s.eccTile d (131072 * slot) (k.rows * k.rb)).popTile c).updEngine d fun x => tileToAcc x slot k
    let q := k.rb / 1024
    served (if k.fin then s.holdEntries d (entriesOf k.row0 k.base k.rows q k.group (if q = 2 then 2 else 0) 1 (coreK c).val 0 k.rows) else s)
  | .tpull =>
    let r := s.pullRows c k k.acc
    if r.1.acc.isEmpty then served ((r.2.popTile c).lateError c 4 r.1.late)
    else (r.2.updCore c fun x => { x with tq := r.1 :: x.tq.drop 1 }).updEngine d fun x => { x with tileRun := some (coreK c).val }
  | .tpush =>
    if !s.storesReady (engReq d) k.acc then s
    else
      let r := (s.eccTile d (131072 * slot) (k.rows * k.rb)).pushRows c k
      served ((r.2.popTile c).lateError c 4 r.1)
  | .tvmov | .vtmov =>
    match (s.core c).vq with
    | t :: _ => served (s.moveTile c k t)
    | [] => s

/-- The core whose queued instruction the memory path of a die serves: the one it has begun, else the next in rotation (R229). -/
def State.tileServed (s : State) (d : Nat) : Option CoreId :=
  let e := s.engine d
  match (coresOf d).find? fun c => e.tileRun == some (coreK c).val && !(s.core c).tq.isEmpty with
  | some c => some c
  | none => nextCore d e.lastTile fun c => (s.core c).tileReady

/-- TILE_QUEUE_OP (R226, R229): the memory path takes one queued instruction at a time, from the queues in rotation. -/
def execTileQueueOp (d : CDie) (k : CoreK) (s : State) : Out :=
  match s.tileServed d.val with
  | none => done s
  | some c =>
    if s.stopped || (coreK c).val ≠ k.val then done s
    else
      match (s.core c).tq with
      | t :: _ => done (s.runTile c t)
      | [] => done s

/-! ### Passes (R199–R204, R218, R219, R228–R233) -/

/-- The tags of a pass: one, or B hi and B lo (R219, R228). -/
def State.passTags (s : State) (c : CoreId) (p : Pass) : List Bank :=
  if p.pair then [s.bankTag c p.tb p.kp, s.bankTag c (p.tb + 1) p.kp] else [s.bankTag c p.tb p.kp]

/-- The bytes of row r of a core's tile, and whether it is poisoned. -/
def State.tileRow (s : State) (c : CoreId) (n r : Nat) : List Byte × Bool :=
  let e := s.engine (dieOf c).val
  let slot := tileSlot (coreK c).val n
  let rb := tcfgRb ((s.core c).tcfgOf n)
  (e.tileBytes (tileAt slot rb r) rb, e.tilePoison (tileAt slot rb r) rb)

/-- Rows of a core's tile from r on read by the array (R233). -/
def State.readRows (s : State) (c : CoreId) (n r k : Nat) : State :=
  let rb := tcfgRb ((s.core c).tcfgOf n)
  s.eccTile (dieOf c).val (tileAt (tileSlot (coreK c).val n) rb r) (k * rb)

/-- A row r of the A operand of a pass (R218, R219, R233). -/
def State.passA (s : State) (c : CoreId) (p : Pass) (r : Nat) : ARow :=
  let w := (s.core c).tcfgOf p.ta
  let e := s.tileRow c p.ta r
  let sc := if tcfgSc w && !p.pair then some (s.tileRow c (tcfgSct w) r) else none
  let lo := if p.pair then some (s.tileRow c (p.ta + 1) r) else none
  let bad (x : Option (List Byte × Bool)) : Bool := match x with | some y => y.2 | none => false
  { xs := elemsOf (etypeBits (tcfgEtype w)) p.kb e.1, sc := sc.map (·.1)
    lo := match lo with | some l => elemsOf 16 p.kb l.1 | none => [], poison := e.2 || bad sc || bad lo }

/-- The B operand of a pass (R201, R218, R219), whose poison is that of the banks (R233). -/
def State.passB (s : State) (c : CoreId) (p : Pass) : BBlock :=
  let w := (s.core c).tcfgOf p.tb
  let rows (n k : Nat) : List (List Byte × Bool) := (List.range k).map fun r => s.tileRow c n r
  let b := rows p.tb p.kb
  let sc := if tcfgSc w && !p.pair then some (rows (tcfgSct w) (p.kb / 32)) else none
  let lo := if p.pair then rows (p.tb + 1) p.kb else []
  { cols := columnsOf (etypeBits (tcfgEtype w)) 256 (b.map (·.1)), sc := sc.map fun l => scaleCols 256 (l.map (·.1))
    lo := if p.pair then columnsOf 16 256 (lo.map (·.1)) else []
    poison := (s.engine (dieOf c).val).bankPoison p.latched }

/-- The B block of a tag read from its tile and scale tile (R228, R233): does it carry poison? -/
def State.readB (s : State) (c : CoreId) (t : Bank) : Bool × State :=
  let w := (s.core c).tcfgOf t.tile
  let k := tcfgRows w
  let s := s.readRows c t.tile 0 k
  let s := if tcfgSc w then s.readRows c (tcfgSct w) 0 (k / 32) else s
  ((List.range k).any (fun r => (s.tileRow c t.tile r).2)
    || (tcfgSc w && (List.range (k / 32)).any fun r => (s.tileRow c (tcfgSct w) r).2), s)

/-- One tag latched, in a bank that has it or in one that may be loaded (R228). -/
def State.latchTag (s : State) (c : CoreId) (t : Bank) : Option State :=
  let d := (dieOf c).val
  if (s.engine d).hasBank t then some s
  else (s.freeBank d).map fun i => let r := s.readB c t; r.2.loadBank d i t r.1

/-- Tags latched in turn. -/
def State.latchAhead (s : State) (c : CoreId) (ts : List Bank) : Option State := ts.foldl (fun a t => a.bind fun s => s.latchTag c t) (some s)

/-- The tags of a core's checked pass latched, those missing loaded; none where a bank it needs is taken (R219, R228). -/
def State.latch (s : State) (c : CoreId) (ts : List Bank) : Option State :=
  (s.updCore c fun x => { x with pass := x.pass.map fun p => { p with latched := ts } }).latchAhead c ts

/-- The next `rows` A rows of a pass enter the array (R202–R206, R214, R218, R240); a pass with FIN hands each entry to the finished-tile queue
as its last row is written (R269). -/
def State.streamRows (s : State) (c : CoreId) (p : Pass) (rows : Nat) : State :=
  let d := (dieOf c).val
  let x := s.core c
  let ea := tcfgEtype (x.tcfgOf p.ta)
  let eb := tcfgEtype (x.tcfgOf p.tb)
  let n := min rows (p.m - p.next)
  let w := x.tcfgOf p.ta
  let s := s.readRows c p.ta p.next n
  let s := if tcfgSc w && !p.pair then s.readRows c (tcfgSct w) p.next n else s
  let s := if p.pair then s.readRows c (p.ta + 1) p.next n else s
  let s := if p.add then s.eccAm d (p.am + p.w * p.next) (p.w * n) else s
  let s := s.readBanks d p.latched
  let b := s.passB c p
  let r := (List.range n).foldl (fun (r : Engine × FFlags) i =>
    let o := r.1.arrayRow ea eb p.kp (accFormat ea p.pair) p.pair p.add (s.passA c p (p.next + i)) b (p.am + p.w * (p.next + i))
    (o.1, r.2 ||| o.2)) (s.engine d, 0)
  let s := s.updEngine d fun _ => r.1
  let s := s.updCore c fun x => { x with pass := some { p with next := p.next + n } }
  let s := if p.fin then s.holdEntries d (entriesOf p.am p.base p.m p.w p.group (accFormat ea p.pair) 0 (coreK c).val p.next (p.next + n)) else s
  ((s.countReg d .MXE_ROWS (coreK c).val n).orReg d .MXE_FPF (coreK c).val (zx r.2)).mxeSync d

/-- Is a core's pass ready to start streaming (R227)? -/
def Core.passReady (x : Core) : Bool :=
  match x.pass with
  | some p => !p.streaming && !p.reset && decide (p.next < p.m) && x.tq.isEmpty
  | none => false

/-- Does an entry the engine has to post, the die's thermal limit, or a request to go idle keep further passes from starting (R271, R426,
R453)? -/
def State.passHeld (s : State) (d : Nat) : Bool :=
  let e := s.engine d
  (!e.held.isEmpty && decide (64 ≤ e.ftq.length)) || s.flag d .THM_STAT 0 1 || s.asked d 4

/-- Has a core's pass its B block latched still: the banks it was latched in hold it (R228, R229)? -/
def State.bLatched (s : State) (c : CoreId) : Bool :=
  match (s.core c).pass with
  | some p => !p.latched.isEmpty && p.latched.all (s.engine (dieOf c).val).hasBank
  | none => false

/-- Is a core's pass streaming-ready with B latched (R229)? -/
def State.passLatched (s : State) (c : CoreId) : Bool := (s.core c).passReady && s.bLatched c

/-- Do queued instructions of a core still write tile n (R228)? -/
def Core.tileWriter (x : Core) (n : Nat) : Bool :=
  x.tq.any fun t => t.tile == n && (t.op == .tpull || t.op == .twipe || t.op == .accSt || t.op == .vtmov)

/-- Do queued instructions of a core still write the B tile tb of a pass or its scale tile (R228)? -/
def Core.bWriter (x : Core) (pair : Bool) (tb : Nat) : Bool :=
  let w := x.tcfgOf tb
  x.tileWriter tb || (pair && x.tileWriter (tb + 1)) || (!pair && tcfgSc w && x.tileWriter (tcfgSct w))

/-- May the B block of a core's checked pass be loaded (R228)? Answers its place in the order of checks. -/
def State.wantsLoad (s : State) (c : CoreId) : Option Nat :=
  let x := s.core c
  match x.pass with
  | some p =>
    if !s.bLatched c && !p.streaming && !p.reset && decide (p.next < p.m) && !x.bWriter p.pair p.tb then some p.seq else none
  | none => none

/-- The core whose pass has the next B load of the die: the first checked (R228). -/
def State.nextLoad (s : State) (d : Nat) : Option CoreId :=
  ((coresOf d).filterMap fun c => (s.wantsLoad c).map fun n => (c, n)).foldl
    (fun (b : Option (CoreId × Nat)) e => match b with | some x => if e.2 < x.2 then some e else b | none => some e) none |>.map (·.1)

/-- A local pass starts (R228, R229): from its banks when they hold its B as it is now, and otherwise from a bank loaded again. -/
def State.startPass (s : State) (c : CoreId) (p : Pass) (rows : Nat) : State :=
  let d := (dieOf c).val
  let ts := s.passTags c p
  let go (s : State) : State :=
    (s.updEngine d fun x => { x with lastPass := (coreK c).val, gangOn := false }).streamRows c { p with streaming := true, latched := ts } rows
  if ts.all (s.engine d).hasBank then go (s.reuseBanks d ts)
  else match s.latch c ts with
    | some s => go s
    | none => s

/-- The local pass that starts next (R229): of those that are ready with B latched the next in rotation; with none, the first checked that is
ready, whose load and start are then one event (DESIGN CHOICE, log entry 64). -/
def State.nextPass (s : State) (d : Nat) : Option CoreId :=
  match nextCore d (s.engine d).lastPass s.passLatched with
  | some c => some c
  | none => match s.nextLoad d with
    | some c => if (s.core c).passReady then some c else none
    | none => none

/-- PASS_STREAM (R227–R229, R244): rows of the pass that streams; or, at a boundary, gang work first, task `task`, then the next local pass.
Whether a local pass may run while every gang pass the die has left waits for operand data is not stated: none runs (DESIGN CHOICE, log
entry 64). -/
def execPassStream (d : CDie) (k : CoreK) (rows task : Nat) (s : State) : Out :=
  if s.stopped then done s
  else
    match s.streamingCore d.val with
    | some c =>
      match (s.core c).pass with
      | some p => done (if (coreK c).val = k.val then s.streamRows c p rows else s)
      | none => done s
    | none =>
      if s.passHeld d.val then done s
      else
        match s.gangWork d.val with
        | (g, t0) :: l =>
          match ((g, t0) :: l).find? fun (t : Nat × Nat) => t.2 == task, (s.gang g).run with
          | some t, some r =>
            match r.tasks[t.2]? with
            | some x => done (s.gangPass g r t.2 x)
            | none => done s
          | _, _ => done s
        | [] =>
          match s.nextPass d.val with
          | none => done s
          | some c =>
            match (s.core c).pass with
            | some p => done (if (coreK c).val = k.val then s.startPass c p rows else s)
            | none => done s

/-- The pass behind a core's oldest instruction that a B load is for, if its shape and its group pass their checks and no queued instruction still
writes its B, with what the check reads (R227): which pass the core's predicted path leads to, with its tiles, is a free value (R78, R228, log
entry 64). -/
def State.passAhead (s : State) (c : CoreId) : Option Ahead × State :=
  let n := s.freeNat
  let x := s.core c
  let ta := n.1 % 8
  let tb := n.1 / 8 % 8
  let pair := decide (n.1 / 64 % 2 = 1 ∧ ta % 2 = 0 ∧ tb % 2 = 0)
  let kp := (passDepth (tcfgEtype (x.tcfgOf ta)) (tcfgEtype (x.tcfgOf tb))).getD 0
  let bad := if pair then x.tmmpCheck ta tb else x.tmmaCheck ta tb
  let ag := s.groupNow c
  let need := accW (accFormat (tcfgEtype (x.tcfgOf ta)) pair) * tcfgRows (x.tcfgOf ta)
  let okG := match groupCheckOf (coreK c) (bits x.accg 5 0) ag 0 need with | .ok _ => true | .error _ => false
  (if bad.isSome || !okG || x.bWriter pair tb then none
   else some { pair, ta, tb, accg := x.accg, tstart := x.tstart, ag
               tags := if pair then [s.bankTag c tb kp, s.bankTag c (tb + 1) kp] else [s.bankTag c tb kp] }, n.2)

/-- B_LOAD (R227, R228): the B block of the core's checked pass is loaded, in the order of the checks, into a bank that no pass still has to
stream from; or, where no checked pass waits for a load, that of a pass behind the oldest instruction. A load that a wrong path made has
no other effect. -/
def execBLoad (c : CoreId) (s : State) : Out :=
  let x := s.core c
  let d := (dieOf c).val
  if s.stopped || !s.running c then done s
  else
    match s.nextLoad d with
    | some k =>
      match x.pass with
      | some p => done (if k = c then (match s.latch c (s.passTags c p) with | some s => s.mxeSync d | none => s) else s)
      | none => done s
    | none =>
      if x.ahead.isSome then done s
      else
        match s.passAhead c with
        | (none, s) => done s
        | (some a, t) =>
          match (t.updCore c fun x => { x with ahead := some a }).latchAhead c a.tags with
          | some u => done (u.mxeSync d)
          | none => done t

/-- PASS_RETIREMENT (R218, R227, R232, R234): a pass whose last row has entered retires; one whose engine was reset raises 0x0F. -/
def execPassRetirement (c : CoreId) (s : State) : Out :=
  match (s.core c).pass with
  | none => done s
  | some p =>
    if !s.running c then done s
    else if p.reset then (s.updCore c fun x => { x with pass := none }).raise c p.reads ⟨0x0F, 5 * 2 ^ 13, 0⟩ s
    else if p.next < p.m then done s
    else
      let s1 := s.updCore c fun x => { x with
        pass := none, msh := none, tstart := if p.used then setBit x.tstart 11 false else x.tstart }
      orWait s ((s1.retire c 8).stepTrap c p.stepped)

/-- FTQ_POST (R269–R271). -/
def execFtqPost (d : CDie) (s : State) : Out := done (if s.stopped then s else s.ftqPost d.val)

end Sys2Proof.Machine
end

