-- ==== Sys2Proof/Machine/GangInsn.lean ====
section
/-! DEFINITION. The gang instructions of a leader core: GMM, GACC.OPEN and GACC.CLOSE (R243–R249, R255, R257). -/

namespace Sys2Proof.Machine

open Sys2Proof

/-- A gang fault (R248): reason, group, gang. -/
def gangFault (reason i g : Nat) : Exc := ⟨0x13, if reason = 4 then 4 else reason + 2 ^ 4 * (48 + i) + 2 ^ 10 * g, 0⟩

/-- n bytes read at their homes by an instruction that has not retired (R165, R247): an error response or poison is precise. -/
def State.readNow (s : State) (c : CoreId) (o : Word) (ps : List Piece) : CRes (List Byte) × State :=
  if s.vecHolds c ps false then (.wait, s)
  else
    let asked := s.devAsk (reqOf c) (.core c.val) 64 ps
    if !asked.1 then (.wait, asked.2)
    else
      match Acc.used (.core c.val) ps (asked.2.homeParts (.core c.val) (reqOf c) ps) with
      | (.ok bs, s) => (.ok bs, s)
      | (.wait, s) => (.wait, s)
      | (.err _, s) => (.exc (dataExc false o), s)
      | (.poison, s) => (.exc (dataExc true o), s.corePoison c ps 0)

/-- An entry placed in a gang queue, or the instruction waits for room (R243, R249). -/
def gangRetire (g : Nat) (e : GangEntry) (acc : List (Nat × Nat) → List (Nat × Nat)) (s : State) : Body :=
  if s.gangRoom g then .next ((s.gangPut g e).updGang g fun x => { x with accepted := acc x.accepted }) else .wait s

/-- GMM (R246–R249). -/
def execGmm (c : CoreId) (f : TFields) (s : State) : Out :=
  runInsn c (tileInsn c 0x3B 0x00 f [f.ga] (f.ta == 0 && f.tb == 0 && f.td == 0 && noAddFin f && f.gb == 0)) (fun s =>
    let x := s.core c
    let o := x.gread f.ga + sx f.imm
    onRes (s.elemCheck c (reqOf c) f.sg.toNat false o 128) fun ps s =>
      onRes (s.readNow c o ps) fun bs s =>
        let ws := words64 16 bs
        let d := gmmOf ws x.ptb x.ring (.core c)
        match d.check (gmmRsv ws) with
        | some dim => .exc (shapeFault 6 0 dim 0) s
        | none =>
          match s.ledBy c with
          | none => .exc (gangFault 4 0 0) s
          | some g =>
            match s.gmmGangCheck g d with
            | some r => .exc (gangFault r d.grp g) s
            | none => if s.accessesDone c then gangRetire g (.gmm d) id (s.acked c) else .wait s) s

/-- GACC.OPEN (R245, R248, R255). -/
def execGaccOpen (c : CoreId) (f : TFields) (s : State) : Out :=
  runInsn c (tileInsn c 0x3B 0x01 f [f.ga] (f.ta == 0 && f.tb == 0 && f.td == 0 && noAddFin f && f.gb == 0 && f.sg == 0
      && decide (f.imm.toNat < 16))) (fun s =>
    let i := f.imm.toNat
    let rows := (s.greg c f.ga).toNat
    match s.ledBy c with
    | none => .exc (gangFault 4 0 0) s
    | some g =>
      let base := s.fld 24 .GNG_GLOBAL 0 23 8
      let size := s.fld 24 .GNG_GLOBAL 0 39 24
      if (s.acceptedRows g i).isSome || rows == 0 || decide (size < rows) then .exc (gangFault 7 i g) s
      else if (freeRange base size rows ((s.acceptedRanges g).map (·.2))).isNone then .exc (gangFault 8 i g) s
      else gangRetire g (.openG i rows) (fun l => l ++ [(i, rows)]) s) s

/-- GACC.CLOSE (R245, R248, R257). -/
def execGaccClose (c : CoreId) (f : TFields) (s : State) : Out :=
  runInsn c (tileInsn c 0x3B 0x02 f [] (f.ta == 0 && f.tb == 0 && f.td == 0 && noAddFin f && f.ga == 0 && f.gb == 0 && f.sg == 0
      && decide (f.imm.toNat < 16))) (fun s =>
    let i := f.imm.toNat
    match s.ledBy c with
    | none => .exc (gangFault 4 0 0) s
    | some g =>
      if (s.acceptedRows g i).isNone then .exc (gangFault 9 i g) s
      else gangRetire g (.closeG i) (fun l => l.filter fun e => e.1 != i) s) s

end Sys2Proof.Machine
end

