-- ==== Sys2Proof/Machine/GlazeEval.lean ====
section
/-! DEFINITION. Glaze programs: their encoding, their validity, what they make of an element and of a block (R182, R195, R196,
R273–R277). -/

namespace Sys2Proof.Machine

open Sys2Proof

/-! ### Operations (R273–R275) -/

/-- OPC of an operation. -/
def gOpc (w : Word) : Nat := bits w 31 27
/-- D. -/
def gD (w : Word) : Nat := bits w 26 24
/-- A. -/
def gA (w : Word) : Nat := bits w 23 20
/-- B. -/
def gB (w : Word) : Nat := bits w 19 16
/-- C. -/
def gC (w : Word) : Nat := bits w 15 12
/-- FMT. -/
def gFmt (w : Word) : Nat := bits w 11 8
/-- RM: stochastic. -/
def gRm (w : Word) : Bool := bit w 7
/-- SAT. -/
def gSat (w : Word) : Bool := bit w 6
/-- CMP. -/
def gCmp (w : Word) : Nat := bits w 5 4
/-- KIDX. -/
def gK (w : Word) : Nat := bits w 3 0
/-- SITE, in word 1. -/
def gSite (w : Word) : Nat := bits w 57 32

/-- The sources an operation uses (R274). -/
def gSources (w : Word) : List Nat :=
  match gOpc w with
  | 1 | 4 => [gA w, gB w, gC w]
  | 2 | 3 | 6 => [gA w, gB w]
  | 5 | 7 => [gA w]
  | _ => []

/-- Does an operation keep R275? -/
def gOpOk (w : Word) : Bool :=
  let opc := gOpc w
  let src := gSources w
  decide (1 ≤ opc ∧ opc ≤ 7) && src.all (· != 15)
    && (if opc = 6 then gFmt w != 15 else if opc = 5 then gFmt w == 3 || gFmt w == 4 else gFmt w == 0)
    && (!gRm w || opc == 1 || opc == 6) && (!gSat w || opc == 6)
    && (opc != 6 || gD w / 2 == 0) && (opc != 7 || gD w == 0)
    && (opc == 1 || opc == 4 || gC w == 0) && ((opc != 5 && opc != 7) || gB w == 0)
    && (opc == 4 || gCmp w == 0) && (src.contains 12 || gK w == 0)

/-- The first operation of a program that breaks R275: its position. -/
def gFirstBad (ops : List Word) : Option Nat :=
  (List.range ops.length).find? fun i =>
    let w := ops.getD i 0
    !gOpOk w || (gOpc w == 6 && (ops.take i).any fun v => gOpc v == 6 && gD v == gD w)

/-- The operation that makes output d, with its position. -/
def gOutput (ops : List Word) (d : Nat) : Option (Nat × Word) := (enumFrom 0 ops).find? fun (p : Nat × Word) => gOpc p.2 == 6 && gD p.2 == d

/-- Does a program read a source? -/
def gUses (ops : List Word) (src : Nat) : Bool := ops.any fun w => (gSources w).contains src

/-- Does a program round stochastically? -/
def gDraws (ops : List Word) : Bool := ops.any gRm

/-- Does a program use LUT? -/
def gUsesLut (ops : List Word) : Bool := ops.any fun w => gOpc w == 5

/-- Is a CVT format block-scaled (R274)? -/
def gMx (fmt : Nat) : Bool := decide (9 ≤ fmt)

/-- Bits of an output element (R178, R274). -/
def gWidth (fmt : Nat) : Nat :=
  match fmt with
  | 0 => 32 | 1 | 2 => 16 | 5 | 6 | 12 | 13 => 6 | 7 | 14 => 4 | _ => 8

/-- The floating-point format of a CVT. -/
def gFormat (fmt : Nat) : Fmt :=
  match fmt with
  | 0 => .fp32 | 1 => .bf16 | 2 => .fp16 | 3 | 10 => .e4m3 | 4 | 11 => .e5m2 | 5 | 12 => .e3m2 | 6 | 13 => .e2m3 | _ => .e2m1

/-! ### Rounding with a draw (R196, R274) -/

/-- An exact value delivered in a format, to nearest-even or with a draw. -/
def packDraw (f : Fmt) (sat : Bool) (draw : Option Nat) (v : FVal) : FRes :=
  match draw, v with
  | some u, .fin neg m e => roundStochastic f sat neg m e u
  | _, v => packVal f .rne sat v

/-- An exact value as an integer of 8 bits, k · 2 ^ unit, limited to lo and 127 (R182, R196, R274). Beyond the limits INT8 raises NV, as
R191 has it, and MXINT8 raises NX (R182). -/
def packInt8 (unit : Int) (lo : Int) (nvf : FFlags) (draw : Option Nat) : FVal → FRes
  | .nan _ => (0, flagNV)
  | .inf neg => (wrapN 8 (if neg then lo else 127), flagNV)
  | .fin neg m e =>
    let part : Nat × Bool :=
      match draw with
      | none => quantise .rne neg m e unit false
      | some u =>
        if e ≥ unit then (m * 2 ^ (e - unit).toNat, false)
        else
          let sh := (unit - e).toNat
          let f := (m % 2 ^ sh) * 2 ^ 32 / 2 ^ sh
          (if u < f then m / 2 ^ sh + 1 else m / 2 ^ sh, f != 0)
    let k : Int := if neg then -(part.1 : Int) else part.1
    if k < lo then (wrapN 8 lo, nvf)
    else if k > 127 then (127, nvf)
    else (wrapN 8 k, if part.2 then flagNX else 0)

/-- A product or fused sum as an exact value, or the result of R189's special cases. -/
def exactFma (c a b : FVal) : FVal ⊕ FRes :=
  if a.isNaN || b.isNaN then .inr (nanResult .fp32 [a, b, c])
  else match mulVal a b with
    | none => .inr (invalid .fp32)
    | some p =>
      if c.isNaN then .inr (nanResult .fp32 [c])
      else match sumVal false c p with
        | none => .inr (invalid .fp32)
        | some v => .inl v

/-- FMA of a Glaze program (R274). -/
def gFma (draw : Option Nat) (c a b : Nat) : FRes :=
  match exactFma (unpack .fp32 c) (unpack .fp32 a) (unpack .fp32 b) with
  | .inl v => packDraw .fp32 false draw v
  | .inr r => r

/-- A × B rounded once to a CVT format that is not block-scaled (R274). -/
def gCvt (fmt : Nat) (sat : Bool) (draw : Option Nat) (a b : Nat) : FRes :=
  let va := unpack .fp32 a
  let vb := unpack .fp32 b
  let exact : FVal × FFlags :=
    if va.isNaN || vb.isNaN then (.nan false, if va == .nan true || vb == .nan true then flagNV else 0)
    else match mulVal va vb with
      | none => (.nan false, flagNV)
      | some v => (v, 0)
  let r := if fmt = 8 then packInt8 0 (-128) flagNV draw exact.1 else packDraw (gFormat fmt) sat draw exact.1
  (r.1, exact.2 ||| r.2)

/-! ### One element (R273, R274) -/

/-- What an element reads beside its temporaries. -/
structure GElem where
  acc : FRes := (0, 0)
  acce : FRes := (0, 0)
  col : Nat := 0
  row : Nat := 0
  consts : List Nat := []
  lut : List Nat := []
  /-- Seed, GEN and the element's number e (R195). -/
  seed : Word := 0
  gen : Nat := 0
  e : Nat := 0

/-- The draw of an operation at a position (R195). -/
def GElem.draw (x : GElem) (w : Word) (pos : Nat) : Option Nat :=
  if gRm w then some (philoxDraw x.seed x.e (gSite w * 64 + pos) x.gen) else none

/-- What an element has come to: temporaries, flags, running amax, outputs. -/
structure GRun where
  z : List Nat := List.replicate 8 0
  flags : FFlags := 0
  amax : Nat := 0
  outs : List Nat := [0, 0]

/-- A source's value and the flags of reading it (R273). -/
def GElem.src (x : GElem) (r : GRun) (w : Word) (s : Nat) : FRes :=
  if s < 8 then (r.z.getD s 0, 0)
  else match s with
    | 8 => x.acc
    | 9 => x.acce
    | 10 => (x.col, 0)
    | 11 => (x.row, 0)
    | 12 => (x.consts.getD (gK w) 0, 0)
    | 14 => (0x3F800000, 0)
    | _ => (0, 0)

/-- The condition of SEL (R190, R274). -/
def gCond (cmp a b : Nat) : Bool × FFlags :=
  let va := unpack .fp32 a
  let vb := unpack .fp32 b
  match cmp with
  | 0 => fCmp false fltVal va vb
  | 1 => fCmp false (fun x y => !fltVal y x) va vb
  | 2 => fCmp true feqVal va vb
  | _ => (va.isNaN || vb.isNaN, if va == .nan true || vb == .nan true then flagNV else 0)

/-- |A| of an FP32 value. -/
def abs32 (a : Nat) : Nat := a % 2 ^ 31

/-- One operation applied to an element (R274). -/
def GElem.step (x : GElem) (r : GRun) (pos : Nat) (w : Word) : GRun :=
  let a := x.src r w (gA w)
  let b := x.src r w (gB w)
  let c := x.src r w (gC w)
  let put (v : FRes) (fl : FFlags) : GRun := { r with z := setAt r.z (gD w) v.1, flags := r.flags ||| v.2 ||| fl }
  match gOpc w with
  | 1 => put (gFma (x.draw w pos) c.1 a.1 b.1) (a.2 ||| b.2 ||| c.2)
  | 2 => put (fMaxMin .fp32 true a.1 b.1) (a.2 ||| b.2)
  | 3 => put (fMaxMin .fp32 false a.1 b.1) (a.2 ||| b.2)
  | 4 =>
    let k := gCond (gCmp w) a.1 b.1
    put (if k.1 then c.1 else r.z.getD (gD w) 0, k.2) (a.2 ||| b.2 ||| c.2)
  | 5 => put (x.lut.getD (packVal (if gFmt w = 3 then .e4m3 else .e5m2) .rne true (unpack .fp32 a.1)).1 0, 0) a.2 |> fun y =>
      if (unpack .fp32 a.1).isNaN then
        { y with z := setAt r.z (gD w) (x.lut.getD (if gFmt w = 3 then 0x7F else 0x7E) 0) } else y
  | 6 =>
    let v : FRes := if gMx (gFmt w) then fMul .fp32 .rne false (unpack .fp32 a.1) (unpack .fp32 b.1)
      else gCvt (gFmt w) (gSat w) (x.draw w pos) a.1 b.1
    { r with outs := setAt r.outs (gD w) v.1, flags := r.flags ||| v.2 ||| a.2 ||| b.2 }
  | 7 =>
    let v := fMaxMin .fp32 true r.amax (abs32 a.1)
    { r with amax := v.1, flags := r.flags ||| v.2 ||| a.2 }
  | _ => r

/-- A program applied to an element, from temporaries of +0 (R273). -/
def GElem.run (x : GElem) (ops : List Word) (amax : Nat) : GRun :=
  (enumFrom 0 ops).foldl (fun r (p : Nat × Word) => x.step r p.1 p.2) { amax }

/-! ### Block scales (R182) -/

/-- emax of an MX format (R182). -/
def gEmax (fmt : Nat) : Int :=
  match fmt with
  | 10 => 8 | 11 => 15 | 12 => 4 | 13 => 2 | 14 => 2 | _ => 0

/-- A block of FP32 values converted: the scale byte, the element encodings, the flags (R182). `draws` is given per element where the
rounding is stochastic. -/
def mxBlock (fmt : Nat) (vs : List Nat) (draws : List (Option Nat)) : Nat × List Nat × FFlags :=
  let a := vs.foldl (fun m v => (fMaxMin .fp32 true m (abs32 v)).1) 0
  match unpack .fp32 a with
  | .fin _ m x =>
    let e0 : Int := if m = 0 then 0 else x + bitLen m - 1 - gEmax fmt
    let e : Int := max (-127) (min 127 e0)
    let one (p : Nat × Option Nat) : FRes :=
      let s := match unpack .fp32 p.1 with
        | .fin n m x => packVal .fp32 .rne false (.fin n m (x - e))
        | v => packVal .fp32 .rne false v
      let r := if fmt = 9 then packInt8 (-6) (-127) flagNX p.2 (unpack .fp32 s.1)
        else packDraw (gFormat fmt) true p.2 (unpack .fp32 s.1)
      (r.1, s.2 ||| (if r.2 &&& flagOF != 0 then flagNX else r.2))
    let rs := (vs.zip draws).map one
    ((e + 127).toNat, rs.map (·.1), rs.foldl (fun f r => f ||| r.2) 0)
  | _ => (0xFF, vs.map fun _ => 0, flagNV)

/-- Encodings of w bits packed from the least significant (R178). -/
def packBits (w : Nat) (l : List Nat) : List Byte :=
  toBytes (w * l.length / 8) (((enumFrom 0 l).map fun (p : Nat × Nat) => p.2 % 2 ^ w * 2 ^ (w * p.1)).foldl (· + ·) 0)

end Sys2Proof.Machine
end

