-- ==== Sys2Proof/Machine/Glaze.lean ====
section
/-! DEFINITION. The Glaze instructions, quarters as they run, entries as they finish, amax statistics, discards, and the vector unit's
completions (R151, R167, R272–R285). -/

namespace Sys2Proof.Machine

open Sys2Proof

/-! ### Fields and faults (R278, R285) -/

/-- The frame of a Glaze instruction (R278). -/
def glzInsn (c : CoreId) (fn : Nat) (f : GFields) (reads : List Greg) (ok : Bool) : Insn :=
  { word := wordG fn f, word2 := wordG2 f
    size := 8, reads
    illegal := fun _ => if isSystem c || f.rsv0 != 0 || f.rsv1 || f.gb != 0 || !ok then some 0x01 else none }

/-- A Glaze program fault (R285). -/
def glzFault (reason slot x : Nat) (o : Word) : Exc := ⟨0x12, reason + 2 ^ 4 * slot + 2 ^ 8 * x, o⟩

/-- A program slot of a core: header and operations, nothing when empty (R273). -/
def Core.slotOf (x : Core) (n : Nat) : List Word := look (fun _ => []) x.glz n

/-! ### GLZ.LD (R273, R275, R278, R285) -/

/-- Checked elements read in turn, once every answer they need has come: the exception of the lowest that fails (R165). -/
def State.readElems (s : State) (c : CoreId) : List ElemAcc → CRes (List Byte) × State
  | [] => (.ok [], s)
  | e :: es =>
    match s.homeParts (.core c.val) (reqOf c) e.parts with
    | (.ok bs, s) =>
      match s.readElems c es with
      | (.ok r, s) => (.ok (bs ++ r), s)
      | r => r
    | (.wait, s) => (.wait, s)
    | (.err _, s) => (.exc (dataExc false e.off), s)
    | (.poison, s) => (.exc (dataExc true e.off), s.corePoison c e.parts 0)

/-- The answers a core's instruction has had of host windows, given up as it ends. -/
def State.givenUp (s : State) (c : CoreId) : State := { s with drds := s.drds.filter fun d => !(d.own == .core c.val && d.ans.isSome) }

/-- n doublewords at an offset in a segment, checked and read as a vector access before retirement (R165, R278). -/
def State.readImageAt (s : State) (c : CoreId) (sg : Nat) (o : Word) (n : Nat) : CRes (List Word) × State :=
  match s.elemChecks c (reqOf c) sg false ((List.range n).map fun i => (i, o + BitVec.ofNat 64 (8 * i), 8)) with
  | (.wait, s, _) => (.wait, s)
  | (.fails _ e _ _, s, _) => (.exc e, s)
  | (.all l, s, _) =>
    let ps := l.flatMap (·.parts)
    if s.vecHolds c ps false then (.wait, s)
    else
      let asked := s.devAsk (reqOf c) (.core c.val) 64 ps
      if !asked.1 then (.wait, asked.2)
      else
        match asked.2.readElems c l with
        | (.ok bs, s) => (.ok (words64 n bs), (s.givenUp c))
        | (.exc e, s) => (.exc e, s.givenUp c)
        | (.wait, s) => (.wait, s)

/-- GLZ.LD (R273, R275, R278). -/
def execGlzLd (c : CoreId) (f : GFields) (s : State) : Out :=
  let slot := f.slot.toNat
  runInsn c (glzInsn c 0x00 f [f.ga] (f.gd == 0)) (fun s =>
    let o := s.greg c f.ga + sx f.imm
    onRes (s.readImageAt c f.sg.toNat o 1) fun h s =>
      let len := bits (h.getD 0 0) 6 0
      if len = 0 ∨ 64 < len then .exc (glzFault 1 slot 0 0) s
      else
        onRes (s.readImageAt c f.sg.toNat (o + 8) len) fun ops s =>
          match gFirstBad ops with
          | some p => .exc (glzFault 2 slot p (BitVec.ofNat 64 (8 + 8 * p))) s
          | none => .next (s.updCore c fun x => { x with glz := put (fun _ => []) x.glz slot (h ++ ops) })) s

/-! ### The destination descriptor and a quarter's ranges (R270, R277, R279) -/

/-- A field of the descriptor. -/
def descW (d : List Word) (off : Nat) : Word := d.getD (off / 8) 0

/-- A constant of the descriptor. -/
def descK (d : List Word) (n : Nat) : Nat := bits (descW d (0x80 + 4 * n)) (32 * (n % 2) + 31) (32 * (n % 2))

/-- The offsets of the descriptor's linear addresses (R277). -/
def descAddrs : List Nat := [0x00, 0x08, 0x10, 0x20, 0x30, 0x40, 0x50, 0x70, 0x78]

/-- Does the descriptor have a non-zero reserved bit (R277, R285)? -/
def descRsv (d : List Word) : Bool :=
  (descAddrs.any fun o => bits (descW d o) 63 52 != 0) || bits (descW d 0x60) 63 32 != 0 || bits (descW d 0x68) 63 32 != 0

/-- The descriptor checks of a drain, in the order of R285: the reason of the first failure. -/
def descCheck (d ops : List Word) : Option Nat :=
  if descRsv d || (gDraws ops && bits (descW d 0x68) 31 0 == 0) || (gUsesLut ops && descW d 0x50 == 0) then some 4
  else
    let bad (i : Nat) : Bool := match gOutput ops i with
      | some (_, w) => descW d (0x10 + 0x20 * i) == 0 || (gMx (gFmt w) && descW d (0x20 + 0x20 * i) == 0)
      | none => false
    if bad 0 || bad 1 then some 5 else none

/-- Doublewords 0, 1 and 2 of an entry and a quarter: its rows and where it lies. -/
structure QGeo where
  am : Nat
  rows : Nat
  grp : Nat
  afmt : Nat
  row0 : Nat
  col0 : Nat
  mbr : Nat

/-- The geometry of quarter q of an entry (R270, R272). -/
def State.quarterGeo (s : State) (d e q : Nat) : QGeo :=
  let w0 := s.ftqW d e 0
  let w1 := s.ftqW d e 1
  { am := bits w0 15 0, rows := bits w0 24 16, grp := bits w0 30 25, afmt := bits w0 33 31
    row0 := bits w1 23 0, col0 := bits w1 47 24 + 64 * q, mbr := bits (s.ftqW d e 2) 15 0 }

/-- A linear address reached by a signed stride (R277). -/
def strided (base stride : Word) (r : Nat) : Nat := (base + BitVec.ofNat 64 r * stride).toNat % 2 ^ 52

/-- The address and length of row r of output i, and of its scales (R178, R277). -/
def outRange (d : List Word) (i fmt : Nat) (g : QGeo) (r : Nat) : Nat × Nat :=
  ((strided (descW d (0x10 + 0x20 * i)) (descW d (0x18 + 0x20 * i)) (g.row0 + r) + g.col0 * gWidth fmt / 8) % 2 ^ 52, 8 * gWidth fmt)

/-- The address and length of the scales of row r of output i. -/
def scaleRange (d : List Word) (i : Nat) (g : QGeo) (r : Nat) : Nat × Nat :=
  ((strided (descW d (0x20 + 0x20 * i)) (descW d (0x28 + 0x20 * i)) (g.row0 + r) + g.col0 / 32) % 2 ^ 52, 2)

/-- Does a quarter draw with its member's entry of the seed table (R277)? -/
def seedMember (d ops : List Word) (g : QGeo) : Bool := gDraws ops && g.mbr != 0xFFFF && descW d 0x70 != 0

/-- The ranges a quarter reads: column vector, row vector, table, seed entry (R277, R279). -/
def colRange (d : List Word) (g : QGeo) : Nat × Nat := ((descW d 0x00).toNat + 4 * g.col0, 256)
/-- The row vector's range. -/
def rowRangeOf (d : List Word) (g : QGeo) : Nat × Nat := ((descW d 0x08).toNat + 4 * g.row0, 4 * g.rows)
/-- The table's range. -/
def lutRange (d : List Word) : Nat × Nat := ((descW d 0x50).toNat, 1024)
/-- The member's seed entry. -/
def seedRange (d : List Word) (g : QGeo) : Nat × Nat := ((descW d 0x70).toNat + 16 * g.mbr, 16)

/-- Every range a quarter reads (false) or writes (true), in the order it is checked (R279), and first whether a window that the entry is of gives
it: its seed table, outputs and scales (R324). -/
def quarterRanges (d ops : List Word) (g : QGeo) : List (Bool × Bool × Nat × Nat) :=
  let outs := [0, 1].flatMap fun i =>
    match gOutput ops i with
    | none => []
    | some (_, w) =>
      (List.range g.rows).flatMap fun r =>
        (true, true, outRange d i (gFmt w) g r) :: (if gMx (gFmt w) then [(true, true, scaleRange d i g r)] else [])
  (if gUses ops 10 && descW d 0 != 0 then [(false, false, colRange d g)] else [])
    ++ (if gUses ops 11 && descW d 8 != 0 then [(false, false, rowRangeOf d g)] else [])
    ++ (if gUsesLut ops then [(false, false, lutRange d)] else [])
    ++ (if seedMember d ops g then [(true, false, seedRange d g)] else [])
    ++ outs
    ++ (if descW d 0x78 != 0 then [(false, true, (descW d 0x78).toNat, 8)] else [])

/-- The pieces of a linear range at a core's ring, translated and decoded (R165, R279). The EXINFO of a linear address names segment
register 0, and EADDR is the linear address. -/
def State.linParts (s : State) (c : CoreId) (write : Bool) : List Piece → CRes (List (Nat × Piece)) × State
  | [] => (.ok [], s)
  | p :: ps =>
    let la := p.pa % 2 ^ 52
    match s.xlateCore c (s.core c).ring la (if write then .write else .read) with
    | (.wait, s) => (.wait, s)
    | (.fault cause lvl, s) => (.exc ⟨0x06, 8 * b2n write + 32 * cause + 256 * lvl, BitVec.ofNat 64 la⟩, s)
    | (.ok pa, s) =>
      match s.vecDecode (reqOf c) write [⟨pa, p.n⟩] with
      | some s => (.exc (dataExc false (BitVec.ofNat 64 la)), s)
      | none =>
        match s.linParts c write ps with
        | (.ok r, s) => (.ok ((la, ⟨pa, p.n⟩) :: r), s)
        | r => r

/-- The pieces of a linear range that a window gives, at the PTB and RING it recorded: a fault waits on the fault queue as K-die engine 0, and an
ABORT fails the window (R324, R331). -/
def State.winParts (s : State) (c : CoreId) (w : Nat) (write : Bool) : List Piece → CRes (List (Nat × Piece)) × State
  | [] => (.ok [], s)
  | p :: ps =>
    let la := p.pa % 2 ^ 52
    let x := winCtx w (s.window w)
    match s.xlateFq x.q x.eng x.own x.ptb x.ring la write with
    | (.wait, s) => (.wait, s)
    | (.aborted, s) => (.wait, s.failWindow w)
    | (.ok pa, s) =>
      match s.vecDecode (reqOf c) write [⟨pa, p.n⟩] with
      | some s => (.exc (dataExc false (BitVec.ofNat 64 la)), s)
      | none =>
        match s.winParts c w write ps with
        | (.ok r, s) => (.ok ((la, ⟨pa, p.n⟩) :: r), s)
        | r => r

/-- The pieces of a range of a quarter, the window's where it is of one and gives the range. -/
def State.rangeParts (s : State) (c : CoreId) (w : Option Nat) (r : Bool × Bool × Nat × Nat) : CRes (List (Nat × Piece)) × State :=
  match w with
  | some w => if r.1 then s.winParts c w r.2.1 (lines r.2.2.1 r.2.2.2) else s.linParts c r.2.1 (lines r.2.2.1 r.2.2.2)
  | none => s.linParts c r.2.1 (lines r.2.2.1 r.2.2.2)

/-- Every range of a list checked, for an entry of window w or of none. -/
def State.linChecks (s : State) (c : CoreId) (w : Option Nat) : List (Bool × Bool × Nat × Nat) → CRes (List (Nat × Piece)) × State
  | [] => (.ok [], s)
  | e :: rs =>
    match s.rangeParts c w e with
    | (.ok l, s) =>
      match s.linChecks c w rs with
      | (.ok r, s) => (.ok (l ++ r), s)
      | r => r
    | r => r

/-- The pieces of a range among those a quarter's checks translated. -/
def trParts (tr : List (Nat × Piece)) (la n : Nat) : List Piece :=
  (lines la n).map fun p =>
    match tr.find? fun (t : Nat × Piece) => decide (t.1 ≤ p.pa % 2 ^ 52 ∧ p.pa % 2 ^ 52 + p.n ≤ t.1 + t.2.n) with
    | some t => ⟨t.2.pa + (p.pa % 2 ^ 52 - t.1), p.n⟩
    | none => ⟨0, p.n⟩

/-! ### GLZ.DRAIN (R272, R279) -/

/-- The first unclaimed quarter a core may drain: entry and quarter (R279). -/
def State.nextQuarter (s : State) (c : CoreId) : Option (Nat × Nat) :=
  let d := (dieOf c).val
  (s.engine d).ftq.findSome? fun e =>
    let w0 := s.ftqW d e 0
    if !bit (s.reg d .MXE_AG (bits w0 30 25)) (32 + (coreK c).val) then none
    else ((List.range 4).find? fun q => !bit w0 (39 + q) && !bit w0 (43 + q)).map fun q => (e, q)

/-- The status word of a drain (R279). -/
def drainStatus (e q : Nat) (g : QGeo) (poison : Bool) : Word :=
  BitVec.ofNat 64 (e + 2 ^ 6 * q + 2 ^ 8 * g.grp + 2 ^ 14 * b2n poison + 2 ^ 15 * g.mbr + 2 ^ 63)

/-- A quarter that has passed its checks is claimed and retires into the vector unit (R279). -/
def State.claimQuarter (s : State) (c : CoreId) (gd : Greg) (e q : Nat) (g : QGeo) (ops desc : List Word) (tr : List (Nat × Piece)) :
    State :=
  let d := (dieOf c).val
  let w0 := s.ftqW d e 0
  let s := (s.setRegW d .FTQ_ENT e 0 (setBit w0 (39 + q) true)).ftqSync d
  let k : Quarter :=
    { entry := e, q, prog := ops, desc, tr, ptb := (s.core c).ptb, ring := (s.core c).ring, ep := s.epochCur }
  let t : VTask := { op := .glzDrain, q := some k, ep := s.epochCur }
  (s.setG c gd (drainStatus e q g (bit w0 38))).updCore c fun x => { x with vq := x.vq ++ [t] }

/-- Has a core an ACC.LD queued that has still to write one of n AM rows from a: a later instruction that reads them waits (R226)? -/
def Core.amOwed (x : Core) (a n : Nat) : Bool :=
  x.tq.any fun t => t.op == .accLd && decide (t.row0 < a + n ∧ a < t.row0 + t.rows * (t.rb / 1024))

/-- GLZ.DRAIN (R279). -/
def execGlzDrain (c : CoreId) (f : GFields) (s : State) : Out :=
  let d := (dieOf c).val
  runInsn c (glzInsn c 0x01 f [] (f.slot == 0 && f.ga == 0 && f.sg == 0 && f.imm == 0)) (fun s =>
    match s.nextQuarter c with
    | none => .next (s.setG c f.gd 0)
    | some (e, q) =>
      let g := s.quarterGeo d e q
      let bind := s.reg d .GLZ_BIND g.grp
      let slot := bits bind 3 0
      let prog := (s.core c).slotOf slot
      let ops := prog.drop 1
      if !bit bind 63 || prog.isEmpty then .exc (glzFault 3 slot g.grp 0) s
      else
        onRes (s.linChecks c none [(false, false, bits bind 51 6 * 64, 192)]) fun l s =>
          onRes (s.readNow c (BitVec.ofNat 64 (bits bind 51 6 * 64)) (l.map (·.2))) fun bs s =>
            let desc := words64 24 bs
            match descCheck desc ops with
            | some r => .exc (glzFault r slot g.grp 0) s
            | none =>
              onRes (s.linChecks c (s.entryWindow d e) (quarterRanges desc ops g)) fun tr s =>
                if decide (16 ≤ (s.core c).vq.length) || s.tqHolds c (tr.map (·.2)) true || (s.core c).amOwed g.am (accW g.afmt * g.rows) then
                  .wait s
                else .next (s.claimQuarter c f.gd e q g ops desc tr)) s

/-! ### A quarter runs (R273, R277, R279, R280, R282) -/

/-- The accumulator of output row i, column j of an entry as sources 8 and 9 give it (R214, R273). -/
def accOf (x : Engine) (g : QGeo) (i j : Nat) : FRes × FRes :=
  let w := accW g.afmt
  let row (k n : Nat) : Nat := fromBytes (lookRun (fun _ => 0) x.am (1024 * (g.am + w * i) + k) n)
  match g.afmt with
  | 0 => ((row (4 * j) 4, 0), (0, 0))
  | 1 => (packVal .fp32 .rne false (fvalOfInt (sintOf 32 (row (4 * j) 4)) 0 false), (0, 0))
  | 2 =>
    let v := unpack .fp64 (row (8 * j) 8)
    let a := packVal .fp32 .rne false v
    (a, if v.isNaN then nanResult .fp32 [v]
        else match sumVal false v (unpack .fp32 a.1).negate with
          | some r => packVal .fp32 .rne false r
          | none => invalid .fp32)
  | _ => ((row (4 * j) 4, 0), (row (1024 + 4 * j) 4, 0))

/-- What a quarter reads from memory, once it has come. -/
structure QData where
  cols : List Nat := []
  rows : List Nat := []
  lut : List Nat := []
  seed : Word := 0
  gen : Nat := 0

/-- The element of row i and column j (of the quarter) of an entry. -/
def quarterElem (x : Engine) (g : QGeo) (desc : List Word) (m : QData) (q i j : Nat) : GElem :=
  let a := accOf x g i (64 * q + j)
  { acc := a.1, acce := a.2, col := m.cols.getD j 0, row := m.rows.getD i 0
    consts := (List.range 16).map (descK desc), lut := m.lut, seed := m.seed, gen := m.gen
    e := (g.row0 + i) * bits (descW desc 0x68) 31 0 + g.col0 + j }

/-- One row of a quarter: the bytes of each output and of its scales, the flags, the running amax (R182, R274, R279). -/
def quarterRow (x : Engine) (g : QGeo) (desc ops : List Word) (m : QData) (q i amax : Nat) :
    List (List Byte × List Byte) × FFlags × Nat :=
  let els := (List.range 64).map fun j => quarterElem x g desc m q i j
  let runs := els.foldl (fun (a : List GRun × Nat) e => let r := e.run ops a.2; (a.1 ++ [r], r.amax)) ([], amax)
  let fl := runs.1.foldl (fun f r => f ||| r.flags) 0
  let out (i : Nat) : (List Byte × List Byte) × FFlags :=
    match gOutput ops i with
    | none => (([], []), 0)
    | some (pos, w) =>
      let vs := runs.1.map fun r => r.outs.getD i 0
      let fmt := gFmt w
      if !gMx fmt then ((packBits (gWidth fmt) vs, []), 0)
      else
        let ds := els.map fun e => e.draw w pos
        let b0 := mxBlock fmt (vs.take 32) (ds.take 32)
        let b1 := mxBlock fmt (vs.drop 32) (ds.drop 32)
        ((packBits (gWidth fmt) (b0.2.1 ++ b1.2.1), toBytes 1 b0.1 ++ toBytes 1 b1.1), b0.2.2 ||| b1.2.2)
  let o0 := out 0
  let o1 := out 1
  ([o0.1, o1.1], fl ||| o0.2 ||| o1.2, runs.2)

/-- The memory a quarter reads, with the first error met: its linear address and whether poison. -/
inductive QRead where
  | ok (m : QData)
  | bad (la : Nat) (poison : Bool)
  | wait

/-- A range of a quarter read at its home, if it is used. -/
def State.quarterRange (s : State) (c : CoreId) (tr : List (Nat × Piece)) (use : Bool) (r : Nat × Nat) :
    Option (List Byte × Option (Nat × Bool)) × State :=
  if !use then (some ([], none), s)
  else
    match s.homeElem (.vec c.val) (reqOf c) 3 { parts := trParts tr r.1 r.2 } with
    | (none, s) => (none, s)
    | (some (bs, bad), s) => (some (bs, bad.map fun p => (r.1 % 2 ^ 52, p)), s)

/-- Everything a quarter reads from memory (R277, R279). -/
def State.quarterData (s : State) (c : CoreId) (g : QGeo) (k : Quarter) : QRead × State :=
  let d := k.desc
  let ops := k.prog
  match s.quarterRange c k.tr (gUses ops 10 && descW d 0 != 0) (colRange d g) with
  | (none, s) => (.wait, s)
  | (some cols, s) =>
    match s.quarterRange c k.tr (gUses ops 11 && descW d 8 != 0) (rowRangeOf d g) with
    | (none, s) => (.wait, s)
    | (some rows, s) =>
      match s.quarterRange c k.tr (gUsesLut ops) (lutRange d) with
      | (none, s) => (.wait, s)
      | (some lut, s) =>
        match s.quarterRange c k.tr (seedMember d ops g) (seedRange d g) with
        | (none, s) => (.wait, s)
        | (some sd, s) =>
          match [cols, rows, lut, sd].findSome? fun (x : List Byte × Option (Nat × Bool)) => x.2 with
          | some b => (.bad b.1 b.2, s)
          | none =>
            let own := seedMember d ops g
            (.ok { cols := natsOf 4 64 cols.1, rows := natsOf 4 g.rows rows.1, lut := natsOf 4 256 lut.1
                   seed := if own then BitVec.ofNat 64 (fromBytes (sd.1.take 8)) else descW d 0x58
                   gen := if own then fromBytes ((sd.1.drop 8).take 4) else bits (descW d 0x60) 31 0 }, s)

/-- Bytes of an output written, poisoned with their row (R233, R281), up to a part that is refused: was every part written? -/
def State.quarterWrite (s : State) (c : CoreId) (k : Quarter) (poison : Bool) : List Piece → List Byte → Bool × State
  | [], _ => (true, s)
  | p :: ps, bs =>
    let r := s.devWriteBlock (reqOf c) (.quarter c.val k.entry k.q) 64 p.pa (bs.take p.n) poison
    match r.1 with
    | .ok _ => (r.2.updCore c fun x => x.updLine p.pa (bs.take p.n)).quarterWrite c k poison ps (bs.drop p.n)
    | _ => (false, r.2)

/-- An output's row written at a linear range, unless an earlier one was refused: the address of the first refused. -/
def State.quarterPut (r : Option Nat × State) (c : CoreId) (k : Quarter) (poison : Bool) (a : Nat × Nat) (bs : List Byte) :
    Option Nat × State :=
  if r.1.isSome then r
  else
    let w := r.2.quarterWrite c k poison (trParts k.tr a.1 a.2) bs
    (if w.1 then none else some (a.1 % 2 ^ 52), w.2)

/-- The running amax of a group after the rows of a quarter: a poisoned row makes it the canonical NaN (R283). -/
def amrAfter (old : Word) (amax : Nat) (poison : Bool) : Word :=
  if poison then setBit (setBits old 31 0 Fmt.fp32.canonNaN) 32 true else setBits old 31 0 amax

/-- The rows of a quarter computed and written in turn (R279), up to an output that is refused: its address, the state, the flags. -/
def State.quarterRows (s : State) (c : CoreId) (g : QGeo) (k : Quarter) (m : QData) : (Option Nat × State) × FFlags :=
  let d := (dieOf c).val
  let w := accW g.afmt
  let amaxes := k.prog.any fun o => gOpc o == 7
  (List.range g.rows).foldl (fun (r : (Option Nat × State) × FFlags) i =>
    if r.1.1.isSome then r
    else
      let x := r.1.2.engine d
      let amr := r.1.2.reg d .GLZ_AMR g.grp
      let o := quarterRow x g k.desc k.prog m k.q i (bits amr 31 0)
      let bad := x.amPoisoned (g.am + w * i) w
      let s := if amaxes || bad then r.1.2.setReg d .GLZ_AMR g.grp (amrAfter amr o.2.2 bad) else r.1.2
      let s := match s.entryWindow d k.entry with | some w => if bad then s.poisonMember w g.mbr else s | none => s
      let out := (enumFrom 0 o.1).foldl (fun (b : Option Nat × State) (p : Nat × List Byte × List Byte) =>
        match gOutput k.prog p.1 with
        | none => b
        | some (_, op) =>
          let b := State.quarterPut b c k bad (outRange k.desc p.1 (gFmt op) g i) p.2.1
          if gMx (gFmt op) then State.quarterPut b c k bad (scaleRange k.desc p.1 g i) p.2.2 else b) (none, s)
      (out, r.2 ||| o.2.1)) ((none, s.eccAm d g.am (w * g.rows)), 0)

/-- A quarter's end: DONE, its flags, the window's, and where the entry's counter lies (R194, R280, R330). -/
def State.quarterDone (s : State) (c : CoreId) (k : Quarter) (fl : FFlags) : State :=
  let d := (dieOf c).val
  let w0 := s.ftqW d k.entry 0
  let s := (s.setRegW d .FTQ_ENT k.entry 0 (setBit w0 (43 + k.q) true)).ftqSync d
  let s := s.orReg d .GLZ_FPF (coreK c).val (zx fl)
  let la := (descW k.desc 0x78).toNat
  let at_ : DoneAt :=
    { core := c.val, la := la % 2 ^ 52, ptb := k.ptb, ring := k.ring, ep := k.ep, parts := if la = 0 then [] else trParts k.tr la 8 }
  let s := s.updEngine d fun x => { x with counter := put (fun _ => {}) x.counter k.entry at_ }
  match s.entryWindow d k.entry with
  | some w => s.setWindow w { s.window w with flags := Nat.lor (s.window w).flags fl.toNat }
  | none => s

/-- An asynchronous error ends a quarter: the core's unfinished quarters go back to unclaimed, and it is notified (R167, R282). -/
def State.quarterError (s : State) (c : CoreId) (la : Nat) (poison : Bool) : State :=
  let s := s.unclaimQuarters c
  (s.updCore c fun x => { x with vq := x.vq.filter fun t => t.op != .glzDrain }).lateError c 3 (some (BitVec.ofNat 64 la, poison))

/-- Does a quarter wait for a home of its ranges, or for the tags of the mirror writes its outputs take: a row is up to four writes, each in up to
two parts (R354, R357, R398, R429)? -/
def State.quarterBusy (s : State) (c : CoreId) (g : QGeo) (k : Quarter) : Bool :=
  k.tr.any fun (p : Nat × Piece) =>
    let t := s.decodePA p.2.pa
    s.homeBusy (reqOf c) t || match t with | .twin _ => !s.mirrorRoom (8 * g.rows) | _ => false

/-- GLAZE_QUARTER_RUN (R279, R282): the claimed quarter at the head of a core's vector unit runs, once no pass that started earlier still
writes its rows (R230). An output that is refused ends it as a read error does. -/
def execGlazeQuarterRun (c : CoreId) (s : State) : Out :=
  if s.stopped then done s
  else
    match (s.core c).vq with
    | t :: _ =>
      match t.q with
      | none => done s
      | some k =>
        let g := s.quarterGeo (dieOf c).val k.entry k.q
        if s.quarterBusy c g k || s.passOwes (dieOf c).val g.am (accW g.afmt * g.rows) then done s
        else
          match s.quarterData c g k with
          | (.wait, s) => done s
          | (.bad la p, s) => done (s.quarterError c la p)
          | (.ok m, s) =>
            match s.quarterRows c g k m with
            | ((some la, s), _) => done (s.quarterError c la false)
            | ((none, s), fl) => done (((s.updCore c fun x => { x with vq := x.vq.drop 1 }).quarterDone c k fl).slotGoesOn c)
    | [] => done s

/-- Have outputs of an entry been posted to a host window or to the twin and not yet performed (R280, R382, R398)? -/
def State.outputsPosted (s : State) (d e : Nat) : Bool :=
  s.postedFor fun o => match o with | .quarter c k _ => c / 4 == d && k == e | .output g k _ => g == d && k == e | _ => false

/-- The physical parts of a DONE counter, translated again by the finished-tile writer after a round (R132, R136). -/
def State.counterParts (s : State) (d : Nat) (k : DoneAt) : DevAcc (List Piece) × State :=
  if k.ep = s.epochCur then (.ok k.parts, s)
  else s.xlateBlocks { q := ⟨d, 4⟩, eng := 1, own := .unit d 4, ptb := k.ptb, ring := k.ring } true [⟨k.la, 8⟩]

/-- ENTRY_DONE (R280, R281): an entry whose quarters are all done, and their outputs performed, adds 1 to its DONE counter, unless it was
discarded, and is freed. -/
def execEntryDone (d : CDie) (e : BitVec 6) (s : State) : Out :=
  let n := e.toNat
  let x := s.engine d.val
  if s.stopped || !x.ftq.contains n || bits (s.ftqW d.val n 0) 46 43 ≠ 15 || s.outputsPosted d.val n then done s
  else if x.disc.contains n then done (s.ftqFree d.val n true)
  else
    let k := look (fun _ => {}) x.counter n
    if k.parts.isEmpty then done (s.ftqFree d.val n false)
    else
      match s.counterParts d.val k with
      | (.wait, s) => done s
      | (.ok ps, s) =>
        let q : Req := ⟨d.val, k.core % 4⟩
        match s.devReadPieces q (.unit d.val 4) 64 ps with
        | (.wait, s) => done s
        | (.ok bs, s) =>
          let v := toBytes 8 (fromBytes bs + 1)
          let w := s.devWritePieces { q, own := .unit d.val 4 } false ps v
          match w.1 with
          | .wait => done s
          | _ => done (w.2.ftqFree d.val n false)
        | (.poison, s) => done ((s.poisonUsed q.die q.unit q ((ps.headD {}).pa) 6).ftqFree d.val n false)
        | (_, s) => done (s.ftqFree d.val n false)
      | (_, s) => done (s.ftqFree d.val n false)

/-- FTQ_CMD_DISCARD (R281). -/
def execFtqCmdDiscard (q : Src) (d : CDie) (v : Word) (s : State) : Out := regCmd q d.val .FTQ_CMD 0 s fun s => s.wrFtqCmd d.val v

/-! ### amax statistics (R198, R283, R284) -/

/-- A statistics update written into a history (R198). -/
def Hist.push (h : Hist) (v : Nat) : Hist :=
  let at_ := (h.head + 1) % 16
  { vals := setAt h.vals at_ v, head := at_, count := min 16 (h.count + 1) }

/-- The saved image of a history: ten doublewords (R198). -/
def Hist.image (h : Hist) : List Byte := h.vals.flatMap (toBytes 4) ++ toBytes 4 (h.head + 16 * h.count) ++ List.replicate 12 0

/-- The history a saved image holds (R198). -/
def histOf (bs : List Byte) : Hist :=
  let w := fromBytes ((bs.drop 64).take 4)
  { vals := natsOf 4 16 bs, head := w % 16, count := w / 16 % 32 }

/-- The history of a group of an engine. -/
def Engine.histOf (x : Engine) (i : Nat) : Hist := look (fun _ => {}) x.hist i

/-- The history of a group replaced. -/
def Engine.setHist (x : Engine) (i : Nat) (h : Hist) : Engine := { x with hist := put (fun _ => {}) x.hist i h }

/-- The dies a statistics instruction on group i acts on, the core's own first, or none when it may not (R283–R285). -/
def State.histDies (s : State) (c : CoreId) (i : Nat) : Option (List Nat) :=
  let d := (dieOf c).val
  let ag := s.reg d .MXE_AG i
  if !bit ag 63 || !bit ag (32 + (coreK c).val) then none
  else if i < 48 then some [d]
  else match s.ledBy c with
    | some g => some (d :: (s.members g).filter (· != d))
    | none => none

/-- Does a quarter of group i run on a die (R283)? -/
def State.quarterOf (s : State) (d i : Nat) : Bool :=
  (coresOf d).any fun c => (s.core c).vq.any fun t =>
    match t.q with | some k => bits (s.ftqW d k.entry 0) 30 25 == i | none => false

/-- GLZ.STAT (R283, R284). -/
def execGlzStat (c : CoreId) (f : GFields) (s : State) : Out :=
  let i := f.imm.toNat % 64
  runInsn c (glzInsn c 0x02 f [] (f.slot == 0 && f.gd == 0 && f.ga == 0 && f.sg == 0)) (fun s =>
    match s.histDies c i with
    | none => .exc (glzFault 6 0 i 0) s
    | some ds =>
      if ds.any fun d => s.quarterOf d i then .wait s
      else
        let v := ds.foldl (fun a d => (fMaxMin .fp32 true a (s.fld d .GLZ_AMR i 31 0)).1) 0
        .next (ds.foldl (fun s d =>
          (s.updEngine d fun x => x.setHist i ((x.histOf i).push v)).setReg d .GLZ_AMR i 0) s)) s

/-- The ten doublewords at g[GA] that GLZ.HST and GLZ.HLD use (R278). -/
def histOffs (o : Word) : List (Nat × Word × Nat) := (List.range 10).map fun i => (i, o + BitVec.ofNat 64 (8 * i), 8)

/-- An image stored by doublewords, each waiting for its acknowledgement (R82, R284). -/
def State.storeImage (s : State) (c : CoreId) (l : List ElemAcc) (bs : List Byte) : State :=
  (l.foldl (fun (r : State × List Byte) e => (r.1.postElem c { e with idx := 2 } (r.2.take 8), r.2.drop 8)) (s, bs)).1

/-- GLZ.HST (R198, R278, R284): the image is taken from the core's own die. -/
def execGlzHst (c : CoreId) (f : GFields) (s : State) : Out :=
  let i := f.imm.toNat % 64
  runInsn c (glzInsn c 0x03 f [f.ga] (f.slot == 0 && f.gd == 0)) (fun s =>
    match s.elemChecks c (reqOf c) f.sg.toNat true (histOffs (s.greg c f.ga)) with
    | (.wait, s, _) => .wait s
    | (.fails _ e _ _, s, _) => .exc e s
    | (.all l, s, _) =>
      match s.histDies c i with
      | none => .exc (glzFault 6 0 i 0) s
      | some _ =>
        let ps := l.flatMap (·.parts)
        if s.vecHolds c ps true || !s.storesReady (reqOf c) l || s.storeHeld c then .wait s
        else .next (s.storeImage c l ((s.engine (dieOf c).val).histOf i).image)) s

/-- GLZ.HLD (R198, R278, R284): for a gang group the image goes to every active member. -/
def execGlzHld (c : CoreId) (f : GFields) (s : State) : Out :=
  let i := f.imm.toNat % 64
  runInsn c (glzInsn c 0x04 f [f.ga] (f.slot == 0 && f.gd == 0)) (fun s =>
    let o := s.greg c f.ga
    onRes (s.readImageAt c f.sg.toNat o 10) fun ws s =>
      match s.histDies c i with
      | none => .exc (glzFault 6 0 i 0) s
      | some ds => .next (ds.foldl (fun s d => s.updEngine d fun x => x.setHist i (histOf (bytesOf ws))) s)) s

/-! ### VECTOR_COMPLETE (R151, R167, R192) -/

/-- VECTOR_COMPLETE (R151): the oldest instruction of a core's vector unit completes; a tile move and a quarter have events of their
own. -/
def execVectorComplete (c : CoreId) (s : State) : Out :=
  if s.stopped then done s
  else
    match (s.core c).vq with
    | [] => done s
    | t :: rest =>
      if t.op == .tvmov || t.op == .vtmov || t.q.isSome then done s
      else
        let pop (s : State) : State := s.updCore c fun x => { x with vq := rest }
        let out (s : State) : Out := done (s.slotGoesOn c)
        match t.op with
        | .ld | .lds | .ldx | .ldff | .ldm | .ldr | .ldmr =>
          let r := s.vecLoads c t t.acc
          if r.1.acc.isEmpty then out (((pop r.2).updCore c fun x => t.zeroInactive x).lateError c 3 r.1.late)
          else done (r.2.updCore c fun x => { x with vq := r.1 :: rest })
        | .st | .sts | .stx | .stm | .str | .stmr => out (if s.storesReady (reqOf c) t.acc then pop (s.vecStores c t) else s)
        | _ => out ((pop s).updCore c fun x => t.arith x)

end Sys2Proof.Machine
end

