-- ==== Sys2Proof/Machine/Dispatch.lean ====
section
/-! DEFINITION. What each command does: one direct call of a meaning per constructor of Instr. -/

namespace Sys2Proof.Machine

open Sys2Proof

def exec (i : Instr) (s : State) : Host.Outcome State Fault Refusal :=
  match i with
  | .add c gd ga gb => Sys2Proof.Machine.execAdd c gd ga gb s
  | .sub c gd ga gb => Sys2Proof.Machine.execSub c gd ga gb s
  | .and c gd ga gb => Sys2Proof.Machine.execAnd c gd ga gb s
  | .or c gd ga gb => Sys2Proof.Machine.execOr c gd ga gb s
  | .xor c gd ga gb => Sys2Proof.Machine.execXor c gd ga gb s
  | .andn c gd ga gb => Sys2Proof.Machine.execAndn c gd ga gb s
  | .slt c gd ga gb => Sys2Proof.Machine.execSlt c gd ga gb s
  | .sltu c gd ga gb => Sys2Proof.Machine.execSltu c gd ga gb s
  | .sll c gd ga gb => Sys2Proof.Machine.execSll c gd ga gb s
  | .srl c gd ga gb => Sys2Proof.Machine.execSrl c gd ga gb s
  | .sra c gd ga gb => Sys2Proof.Machine.execSra c gd ga gb s
  | .ror c gd ga gb => Sys2Proof.Machine.execRor c gd ga gb s
  | .slli c gd ga gb => Sys2Proof.Machine.execSlli c gd ga gb s
  | .srli c gd ga gb => Sys2Proof.Machine.execSrli c gd ga gb s
  | .srai c gd ga gb => Sys2Proof.Machine.execSrai c gd ga gb s
  | .rori c gd ga gb => Sys2Proof.Machine.execRori c gd ga gb s
  | .addw c gd ga gb => Sys2Proof.Machine.execAddw c gd ga gb s
  | .subw c gd ga gb => Sys2Proof.Machine.execSubw c gd ga gb s
  | .min c gd ga gb => Sys2Proof.Machine.execMin c gd ga gb s
  | .max c gd ga gb => Sys2Proof.Machine.execMax c gd ga gb s
  | .minu c gd ga gb => Sys2Proof.Machine.execMinu c gd ga gb s
  | .maxu c gd ga gb => Sys2Proof.Machine.execMaxu c gd ga gb s
  | .clz c gd ga gb => Sys2Proof.Machine.execClz c gd ga gb s
  | .ctz c gd ga gb => Sys2Proof.Machine.execCtz c gd ga gb s
  | .popc c gd ga gb => Sys2Proof.Machine.execPopc c gd ga gb s
  | .bswap c gd ga gb => Sys2Proof.Machine.execBswap c gd ga gb s
  | .sextb c gd ga gb => Sys2Proof.Machine.execSextb c gd ga gb s
  | .sexth c gd ga gb => Sys2Proof.Machine.execSexth c gd ga gb s
  | .sextw c gd ga gb => Sys2Proof.Machine.execSextw c gd ga gb s
  | .zextw c gd ga gb => Sys2Proof.Machine.execZextw c gd ga gb s
  | .addi c gd ga imm => Sys2Proof.Machine.execAddi c gd ga imm s
  | .andi c gd ga imm => Sys2Proof.Machine.execAndi c gd ga imm s
  | .ori c gd ga imm => Sys2Proof.Machine.execOri c gd ga imm s
  | .xori c gd ga imm => Sys2Proof.Machine.execXori c gd ga imm s
  | .slti c gd ga imm => Sys2Proof.Machine.execSlti c gd ga imm s
  | .sltiu c gd ga imm => Sys2Proof.Machine.execSltiu c gd ga imm s
  | .lui c gd imm => Sys2Proof.Machine.execLui c gd imm s
  | .mul c gd ga gb => Sys2Proof.Machine.execMul c gd ga gb s
  | .mulh c gd ga gb => Sys2Proof.Machine.execMulh c gd ga gb s
  | .mulhu c gd ga gb => Sys2Proof.Machine.execMulhu c gd ga gb s
  | .mulw c gd ga gb => Sys2Proof.Machine.execMulw c gd ga gb s
  | .div c gd ga gb => Sys2Proof.Machine.execDiv c gd ga gb s
  | .divu c gd ga gb => Sys2Proof.Machine.execDivu c gd ga gb s
  | .rem c gd ga gb => Sys2Proof.Machine.execRem c gd ga gb s
  | .remu c gd ga gb => Sys2Proof.Machine.execRemu c gd ga gb s
  | .fadd c gd ga gb dbl => Sys2Proof.Machine.execFadd c gd ga gb dbl s
  | .fsub c gd ga gb dbl => Sys2Proof.Machine.execFsub c gd ga gb dbl s
  | .fmul c gd ga gb dbl => Sys2Proof.Machine.execFmul c gd ga gb dbl s
  | .fdiv c gd ga gb dbl => Sys2Proof.Machine.execFdiv c gd ga gb dbl s
  | .fsqrt c gd ga gb dbl => Sys2Proof.Machine.execFsqrt c gd ga gb dbl s
  | .fma c gd ga gb dbl => Sys2Proof.Machine.execFma c gd ga gb dbl s
  | .fmin c gd ga gb dbl => Sys2Proof.Machine.execFmin c gd ga gb dbl s
  | .fmax c gd ga gb dbl => Sys2Proof.Machine.execFmax c gd ga gb dbl s
  | .feq c gd ga gb dbl => Sys2Proof.Machine.execFeq c gd ga gb dbl s
  | .flt c gd ga gb dbl => Sys2Proof.Machine.execFlt c gd ga gb dbl s
  | .fle c gd ga gb dbl => Sys2Proof.Machine.execFle c gd ga gb dbl s
  | .fcvtI c gd ga gb dbl => Sys2Proof.Machine.execFcvtI c gd ga gb dbl s
  | .fcvtF c gd ga gb dbl => Sys2Proof.Machine.execFcvtF c gd ga gb dbl s
  | .fcvtP c gd ga gb dbl => Sys2Proof.Machine.execFcvtP c gd ga gb dbl s
  | .ldb c gt ga sg disp => Sys2Proof.Machine.execLdb c gt ga sg disp s
  | .ldbu c gt ga sg disp => Sys2Proof.Machine.execLdbu c gt ga sg disp s
  | .ldh c gt ga sg disp => Sys2Proof.Machine.execLdh c gt ga sg disp s
  | .ldhu c gt ga sg disp => Sys2Proof.Machine.execLdhu c gt ga sg disp s
  | .ldw c gt ga sg disp => Sys2Proof.Machine.execLdw c gt ga sg disp s
  | .ldwu c gt ga sg disp => Sys2Proof.Machine.execLdwu c gt ga sg disp s
  | .ldd c gt ga sg disp => Sys2Proof.Machine.execLdd c gt ga sg disp s
  | .ldx c gt ga gb sg ctl => Sys2Proof.Machine.execLdx c gt ga gb sg ctl s
  | .stb c gt ga sg disp => Sys2Proof.Machine.execStb c gt ga sg disp s
  | .sth c gt ga sg disp => Sys2Proof.Machine.execSth c gt ga sg disp s
  | .stw c gt ga sg disp => Sys2Proof.Machine.execStw c gt ga sg disp s
  | .std c gt ga sg disp => Sys2Proof.Machine.execStd c gt ga sg disp s
  | .stx c gt ga gb sg ctl => Sys2Proof.Machine.execStx c gt ga gb sg ctl s
  | .ldAcq c gt ga gb sg ctl => Sys2Proof.Machine.execLdAcq c gt ga gb sg ctl s
  | .stRel c gt ga gb sg ctl => Sys2Proof.Machine.execStRel c gt ga gb sg ctl s
  | .atomSwap c gd ga gb sg ord dw => Sys2Proof.Machine.execAtomSwap c gd ga gb sg ord dw s
  | .atomAdd c gd ga gb sg ord dw => Sys2Proof.Machine.execAtomAdd c gd ga gb sg ord dw s
  | .atomAnd c gd ga gb sg ord dw => Sys2Proof.Machine.execAtomAnd c gd ga gb sg ord dw s
  | .atomOr c gd ga gb sg ord dw => Sys2Proof.Machine.execAtomOr c gd ga gb sg ord dw s
  | .atomXor c gd ga gb sg ord dw => Sys2Proof.Machine.execAtomXor c gd ga gb sg ord dw s
  | .atomSmax c gd ga gb sg ord dw => Sys2Proof.Machine.execAtomSmax c gd ga gb sg ord dw s
  | .atomSmin c gd ga gb sg ord dw => Sys2Proof.Machine.execAtomSmin c gd ga gb sg ord dw s
  | .atomUmax c gd ga gb sg ord dw => Sys2Proof.Machine.execAtomUmax c gd ga gb sg ord dw s
  | .atomUmin c gd ga gb sg ord dw => Sys2Proof.Machine.execAtomUmin c gd ga gb sg ord dw s
  | .cas c gd ga gb sg ord dw => Sys2Proof.Machine.execCas c gd ga gb sg ord dw s
  | .fenceLl c gd ga gb => Sys2Proof.Machine.execFenceLl c gd ga gb s
  | .fenceSs c gd ga gb => Sys2Proof.Machine.execFenceSs c gd ga gb s
  | .fenceFull c gd ga gb => Sys2Proof.Machine.execFenceFull c gd ga gb s
  | .fenceEng c gd ga gb => Sys2Proof.Machine.execFenceEng c gd ga gb s
  | .isync c gd ga gb => Sys2Proof.Machine.execIsync c gd ga gb s
  | .beq c ga gb disp => Sys2Proof.Machine.execBeq c ga gb disp s
  | .bne c ga gb disp => Sys2Proof.Machine.execBne c ga gb disp s
  | .blt c ga gb disp => Sys2Proof.Machine.execBlt c ga gb disp s
  | .bge c ga gb disp => Sys2Proof.Machine.execBge c ga gb disp s
  | .bltu c ga gb disp => Sys2Proof.Machine.execBltu c ga gb disp s
  | .bgeu c ga gb disp => Sys2Proof.Machine.execBgeu c ga gb disp s
  | .j c disp => Sys2Proof.Machine.execJ c disp s
  | .call c disp => Sys2Proof.Machine.execCall c disp s
  | .jr c gd ga gb => Sys2Proof.Machine.execJr c gd ga gb s
  | .callr c gd ga gb => Sys2Proof.Machine.execCallr c gd ga gb s
  | .loop c n gc disp => Sys2Proof.Machine.execLoop c n gc disp s
  | .movcR c g creg => Sys2Proof.Machine.execMovcR c g creg s
  | .movcW c g creg => Sys2Proof.Machine.execMovcW c g creg s
  | .statusWrite c g => Sys2Proof.Machine.execStatusWrite c g s
  | .tableBaseWrite c g creg => Sys2Proof.Machine.execTableBaseWrite c g creg s
  | .ptbWrite c g => Sys2Proof.Machine.execPtbWrite c g s
  | .loopRegWrite c g creg => Sys2Proof.Machine.execLoopRegWrite c g creg s
  | .vlWrite c g => Sys2Proof.Machine.execVlWrite c g s
  | .vtypeWrite c g => Sys2Proof.Machine.execVtypeWrite c g s
  | .fpflagsWrite c g => Sys2Proof.Machine.execFpflagsWrite c g s
  | .tcfgWrite c g creg => Sys2Proof.Machine.execTcfgWrite c g creg s
  | .movsg c g code => Sys2Proof.Machine.execMovsg c g code s
  | .movsgR c g code => Sys2Proof.Machine.execMovsgR c g code s
  | .callg c g code => Sys2Proof.Machine.execCallg c g code s
  | .retg c g code => Sys2Proof.Machine.execRetg c g code s
  | .retx c g code => Sys2Proof.Machine.execRetx c g code s
  | .brk c g code => Sys2Proof.Machine.execBrk c g code s
  | .wfi c g code => Sys2Proof.Machine.execWfi c g code s
  | .interruptDelivery c vec die => Sys2Proof.Machine.execInterruptDelivery c vec die s
  | .eventAccept c => Sys2Proof.Machine.execEventAccept c s
  | .vcfg c f => Sys2Proof.Machine.execVcfg c f s
  | .vcfgr c f => Sys2Proof.Machine.execVcfgr c f s
  | .vadd c f => Sys2Proof.Machine.execVadd c f s
  | .vsub c f => Sys2Proof.Machine.execVsub c f s
  | .vrsub c f => Sys2Proof.Machine.execVrsub c f s
  | .vand c f => Sys2Proof.Machine.execVand c f s
  | .vor c f => Sys2Proof.Machine.execVor c f s
  | .vxor c f => Sys2Proof.Machine.execVxor c f s
  | .vsll c f => Sys2Proof.Machine.execVsll c f s
  | .vsrl c f => Sys2Proof.Machine.execVsrl c f s
  | .vsra c f => Sys2Proof.Machine.execVsra c f s
  | .vmin c f => Sys2Proof.Machine.execVmin c f s
  | .vmax c f => Sys2Proof.Machine.execVmax c f s
  | .vminu c f => Sys2Proof.Machine.execVminu c f s
  | .vmaxu c f => Sys2Proof.Machine.execVmaxu c f s
  | .vmul c f => Sys2Proof.Machine.execVmul c f s
  | .vmulh c f => Sys2Proof.Machine.execVmulh c f s
  | .vmulhu c f => Sys2Proof.Machine.execVmulhu c f s
  | .vmacc c f => Sys2Proof.Machine.execVmacc c f s
  | .vsadd c f => Sys2Proof.Machine.execVsadd c f s
  | .vsaddu c f => Sys2Proof.Machine.execVsaddu c f s
  | .vssub c f => Sys2Proof.Machine.execVssub c f s
  | .vssubu c f => Sys2Proof.Machine.execVssubu c f s
  | .vmerge c f => Sys2Proof.Machine.execVmerge c f s
  | .vmv c f => Sys2Proof.Machine.execVmv c f s
  | .vfadd c f => Sys2Proof.Machine.execVfadd c f s
  | .vfsub c f => Sys2Proof.Machine.execVfsub c f s
  | .vfmul c f => Sys2Proof.Machine.execVfmul c f s
  | .vfdiv c f => Sys2Proof.Machine.execVfdiv c f s
  | .vfsqrt c f => Sys2Proof.Machine.execVfsqrt c f s
  | .vfma c f => Sys2Proof.Machine.execVfma c f s
  | .vfnma c f => Sys2Proof.Machine.execVfnma c f s
  | .vfmin c f => Sys2Proof.Machine.execVfmin c f s
  | .vfmax c f => Sys2Proof.Machine.execVfmax c f s
  | .vfabs c f => Sys2Proof.Machine.execVfabs c f s
  | .vfneg c f => Sys2Proof.Machine.execVfneg c f s
  | .vfcvtI c f => Sys2Proof.Machine.execVfcvtI c f s
  | .vfcvtF c f => Sys2Proof.Machine.execVfcvtF c f s
  | .vfcvtW c f => Sys2Proof.Machine.execVfcvtW c f s
  | .vfcvtN c f => Sys2Proof.Machine.execVfcvtN c f s
  | .vwmul c f => Sys2Proof.Machine.execVwmul c f s
  | .vwmulu c f => Sys2Proof.Machine.execVwmulu c f s
  | .vwmulsu c f => Sys2Proof.Machine.execVwmulsu c f s
  | .vwmacc c f => Sys2Proof.Machine.execVwmacc c f s
  | .vwmaccu c f => Sys2Proof.Machine.execVwmaccu c f s
  | .vwmaccsu c f => Sys2Proof.Machine.execVwmaccsu c f s
  | .vfwmul c f => Sys2Proof.Machine.execVfwmul c f s
  | .vfwma c f => Sys2Proof.Machine.execVfwma c f s
  | .vdot4 c f => Sys2Proof.Machine.execVdot4 c f s
  | .vdot4u c f => Sys2Proof.Machine.execVdot4u c f s
  | .vdot4su c f => Sys2Proof.Machine.execVdot4su c f s
  | .vfdot4 c f => Sys2Proof.Machine.execVfdot4 c f s
  | .vdot2 c f => Sys2Proof.Machine.execVdot2 c f s
  | .vdot2u c f => Sys2Proof.Machine.execVdot2u c f s
  | .vfdot2 c f => Sys2Proof.Machine.execVfdot2 c f s
  | .vcmpeq c f => Sys2Proof.Machine.execVcmpeq c f s
  | .vcmpne c f => Sys2Proof.Machine.execVcmpne c f s
  | .vcmplt c f => Sys2Proof.Machine.execVcmplt c f s
  | .vcmpltu c f => Sys2Proof.Machine.execVcmpltu c f s
  | .vcmple c f => Sys2Proof.Machine.execVcmple c f s
  | .vcmpleu c f => Sys2Proof.Machine.execVcmpleu c f s
  | .vcmpgt c f => Sys2Proof.Machine.execVcmpgt c f s
  | .vcmpgtu c f => Sys2Proof.Machine.execVcmpgtu c f s
  | .vfcmpeq c f => Sys2Proof.Machine.execVfcmpeq c f s
  | .vfcmplt c f => Sys2Proof.Machine.execVfcmplt c f s
  | .vfcmple c f => Sys2Proof.Machine.execVfcmple c f s
  | .vfcmpun c f => Sys2Proof.Machine.execVfcmpun c f s
  | .mand c f => Sys2Proof.Machine.execMand c f s
  | .mor c f => Sys2Proof.Machine.execMor c f s
  | .mxor c f => Sys2Proof.Machine.execMxor c f s
  | .mandn c f => Sys2Proof.Machine.execMandn c f s
  | .mnot c f => Sys2Proof.Machine.execMnot c f s
  | .mset c f => Sys2Proof.Machine.execMset c f s
  | .mpopc c f => Sys2Proof.Machine.execMpopc c f s
  | .mfirst c f => Sys2Proof.Machine.execMfirst c f s
  | .vget c f => Sys2Proof.Machine.execVget c f s
  | .vgetu c f => Sys2Proof.Machine.execVgetu c f s
  | .vput c f => Sys2Proof.Machine.execVput c f s
  | .vslideup c f => Sys2Proof.Machine.execVslideup c f s
  | .vslidedn c f => Sys2Proof.Machine.execVslidedn c f s
  | .vperm c f => Sys2Proof.Machine.execVperm c f s
  | .vredsum c f => Sys2Proof.Machine.execVredsum c f s
  | .vredmax c f => Sys2Proof.Machine.execVredmax c f s
  | .vredmin c f => Sys2Proof.Machine.execVredmin c f s
  | .vredmaxu c f => Sys2Proof.Machine.execVredmaxu c f s
  | .vredminu c f => Sys2Proof.Machine.execVredminu c f s
  | .vfredsum c f => Sys2Proof.Machine.execVfredsum c f s
  | .vfredmax c f => Sys2Proof.Machine.execVfredmax c f s
  | .vfredmin c f => Sys2Proof.Machine.execVfredmin c f s
  | .tvmov c f => Sys2Proof.Machine.execTvmov c f s
  | .vtmov c f => Sys2Proof.Machine.execVtmov c f s
  | .vld c f => Sys2Proof.Machine.execVld c f s
  | .vlds c f => Sys2Proof.Machine.execVlds c f s
  | .vldx c f => Sys2Proof.Machine.execVldx c f s
  | .vldff c f => Sys2Proof.Machine.execVldff c f s
  | .vldm c f => Sys2Proof.Machine.execVldm c f s
  | .vldr c f => Sys2Proof.Machine.execVldr c f s
  | .vldmr c f => Sys2Proof.Machine.execVldmr c f s
  | .vst c f => Sys2Proof.Machine.execVst c f s
  | .vsts c f => Sys2Proof.Machine.execVsts c f s
  | .vstx c f => Sys2Proof.Machine.execVstx c f s
  | .vstm c f => Sys2Proof.Machine.execVstm c f s
  | .vstr c f => Sys2Proof.Machine.execVstr c f s
  | .vstmr c f => Sys2Proof.Machine.execVstmr c f s
  | .vectorComplete c => Sys2Proof.Machine.execVectorComplete c s
  | .tmma c f => Sys2Proof.Machine.execTmma c f s
  | .tmmp c f => Sys2Proof.Machine.execTmmp c f s
  | .tpull c f => Sys2Proof.Machine.execTpull c f s
  | .tpush c f => Sys2Proof.Machine.execTpush c f s
  | .twipe c f => Sys2Proof.Machine.execTwipe c f s
  | .accSt c f => Sys2Proof.Machine.execAccSt c f s
  | .accLd c f => Sys2Proof.Machine.execAccLd c f s
  | .tileQueueOp d k => Sys2Proof.Machine.execTileQueueOp d k s
  | .bLoad c => Sys2Proof.Machine.execBLoad c s
  | .passStream d k rows task => Sys2Proof.Machine.execPassStream d k rows task s
  | .ftqPost d => Sys2Proof.Machine.execFtqPost d s
  | .gmm c f => Sys2Proof.Machine.execGmm c f s
  | .gaccOpen c f => Sys2Proof.Machine.execGaccOpen c f s
  | .gaccClose c f => Sys2Proof.Machine.execGaccClose c f s
  | .gangOpStart g => Sys2Proof.Machine.execGangOpStart g s
  | .runningSum g b p => Sys2Proof.Machine.execRunningSum g b p s
  | .gangOpComplete g busy => Sys2Proof.Machine.execGangOpComplete g busy s
  | .gangOpFail g => Sys2Proof.Machine.execGangOpFail g s
  | .gangNarrow g => Sys2Proof.Machine.execGangNarrow g s
  | .gngReadmit q g v => Sys2Proof.Machine.execGngReadmit q g v s
  | .gangReadmission g => Sys2Proof.Machine.execGangReadmission g s
  | .glzLd c f => Sys2Proof.Machine.execGlzLd c f s
  | .glzDrain c f => Sys2Proof.Machine.execGlzDrain c f s
  | .glazeQuarterRun c => Sys2Proof.Machine.execGlazeQuarterRun c s
  | .glzStat c f => Sys2Proof.Machine.execGlzStat c f s
  | .glzHst c f => Sys2Proof.Machine.execGlzHst c f s
  | .glzHld c f => Sys2Proof.Machine.execGlzHld c f s
  | .entryDone d e => Sys2Proof.Machine.execEntryDone d e s
  | .ftqCmdDiscard q d v => Sys2Proof.Machine.execFtqCmdDiscard q d v s
  | .trwEpochBump q v => Sys2Proof.Machine.execTrwEpochBump q v s
  | .epochDieAck d => Sys2Proof.Machine.execEpochDieAck d s
  | .epochRoundEnd => Sys2Proof.Machine.execEpochRoundEnd s
  | .fqFault d eng la ring write ptb => Sys2Proof.Machine.execFqFault d eng la ring write ptb s
  | .fqDeferredCreate => Sys2Proof.Machine.execFqDeferredCreate s
  | .fqHead q => Sys2Proof.Machine.execFqHead q s
  | .resolve q v => Sys2Proof.Machine.execResolve q v s
  | .abort q v => Sys2Proof.Machine.execAbort q v s
  | .cmd sid seq cmds => Sys2Proof.Machine.execCmd sid seq cmds s
  | .enable q sid => Sys2Proof.Machine.execEnable q sid s
  | .disable q sid => Sys2Proof.Machine.execDisable q sid s
  | .retry q sid => Sys2Proof.Machine.execRetry q sid s
  | .skip q sid => Sys2Proof.Machine.execSkip q sid s
  | .cancel q sid => Sys2Proof.Machine.execCancel q sid s
  | .cancelEnd sid => Sys2Proof.Machine.execCancelEnd sid s
  | .commandStart => Sys2Proof.Machine.execCommandStart s
  | .nop sid => Sys2Proof.Machine.execNop sid s
  | .launch sid => Sys2Proof.Machine.execLaunch sid s
  | .glaunch sid => Sys2Proof.Machine.execGlaunch sid s
  | .copy sid => Sys2Proof.Machine.execCopy sid s
  | .fill sid => Sys2Proof.Machine.execFill sid s
  | .copyFillComplete sid => Sys2Proof.Machine.execCopyFillComplete sid s
  | .wait sid => Sys2Proof.Machine.execWait sid s
  | .signal sid => Sys2Proof.Machine.execSignal sid s
  | .timed sid => Sys2Proof.Machine.execTimed sid s
  | .mark sid => Sys2Proof.Machine.execMark sid s
  | .snap sid => Sys2Proof.Machine.execSnap sid s
  | .fence sid => Sys2Proof.Machine.execFence sid s
  | .synOp q v => Sys2Proof.Machine.execSynOp q v s
  | .triggerFire n => Sys2Proof.Machine.execTriggerFire n s
  | .ttCmpWrite q n v => Sys2Proof.Machine.execTtCmpWrite q n v s
  | .ttCtlWrite q n v => Sys2Proof.Machine.execTtCtlWrite q n v s
  | .timedExpiry => Sys2Proof.Machine.execTimedExpiry s
  | .waitTimeout => Sys2Proof.Machine.execWaitTimeout s
  | .windowDeadline => Sys2Proof.Machine.execWindowDeadline s
  | .trwWq q d => Sys2Proof.Machine.execTrwWq q d s
  | .trwWdone q v => Sys2Proof.Machine.execTrwWdone q v s
  | .trwFlush q v => Sys2Proof.Machine.execTrwFlush q v s
  | .trwMfault q v => Sys2Proof.Machine.execTrwMfault q v s
  | .windowDispatch g => Sys2Proof.Machine.execWindowDispatch g s
  | .windowOpenDeferred => Sys2Proof.Machine.execWindowOpenDeferred s
  | .scatterMember w => Sys2Proof.Machine.execScatterMember w s
  | .hbmRead rd ru pa bad => Sys2Proof.Machine.execHbmRead rd ru pa bad s
  | .hbmWrite rd ru pa data poisoned bad => Sys2Proof.Machine.execHbmWrite rd ru pa data poisoned bad s
  | .patrolScrub pa bad => Sys2Proof.Machine.execPatrolScrub pa bad s
  | .ecsReadout st counts => Sys2Proof.Machine.execEcsReadout st counts s
  | .stackTempReadout st temp => Sys2Proof.Machine.execStackTempReadout st temp s
  | .pmapPend q j v => Sys2Proof.Machine.execPmapPend q j v s
  | .hbmMrgRun q st v => Sys2Proof.Machine.execHbmMrgRun q st v s
  | .marginTestDone st errs => Sys2Proof.Machine.execMarginTestDone st errs s
  | .tileStorePatrol d line bad => Sys2Proof.Machine.execTileStorePatrol d line bad s
  | .tileStoreFillDone d => Sys2Proof.Machine.execTileStoreFillDone d s
  | .scrimReplay e side seq => Sys2Proof.Machine.execScrimReplay e side seq s
  | .standbySwitch e => Sys2Proof.Machine.execStandbySwitch e s
  | .edgeDown e => Sys2Proof.Machine.execEdgeDown e s
  | .fifoPointerMismatch d unit queue entries => Sys2Proof.Machine.execFifoPointerMismatch d unit queue entries s
  | .responseTimeout r => Sys2Proof.Machine.execResponseTimeout r s
  | .orphanResponse d unit pa => Sys2Proof.Machine.execOrphanResponse d unit pa s
  | .errHead q d => Sys2Proof.Machine.execErrHead q d s
  | .linkSignalDetect l lanes => Sys2Proof.Machine.execLinkSignalDetect l lanes s
  | .linkTrainDone l good => Sys2Proof.Machine.execLinkTrainDone l good s
  | .linkAlignDone l rev pol => Sys2Proof.Machine.execLinkAlignDone l rev pol s
  | .linkParamDone l req rsp evt mgt => Sys2Proof.Machine.execLinkParamDone l req rsp evt mgt s
  | .linkStateTimeout l => Sys2Proof.Machine.execLinkStateTimeout l s
  | .linkRecovery l => Sys2Proof.Machine.execLinkRecovery l s
  | .linkRecoveryDone l => Sys2Proof.Machine.execLinkRecoveryDone l s
  | .linkRetrain l => Sys2Proof.Machine.execLinkRetrain l s
  | .agdLctlRetrain q => Sys2Proof.Machine.execAgdLctlRetrain q s
  | .agdLctlDis q v => Sys2Proof.Machine.execAgdLctlDis q v s
  | .flitReceive l bad fixed seqd fseq ack odd => Sys2Proof.Machine.execFlitReceive l bad fixed seqd fseq ack odd s
  | .nak l seq => Sys2Proof.Machine.execNak l seq s
  | .ackTimeoutReplay l => Sys2Proof.Machine.execAckTimeoutReplay l s
  | .lctl l req rsp evt mgt => Sys2Proof.Machine.execLctl l req rsp evt mgt s
  | .creditReturnSend l => Sys2Proof.Machine.execCreditReturnSend l s
  | .mwr tag addr ackreq data => Sys2Proof.Machine.execMwr tag addr ackreq data s
  | .mrd tag addr n => Sys2Proof.Machine.execMrd tag addr n s
  | .cpl tag status data => Sys2Proof.Machine.execCpl tag status data s
  | .mgmt data => Sys2Proof.Machine.execMgmt data s
  | .reset a b => Sys2Proof.Machine.execReset a b s
  | .timeExchangeStart => Sys2Proof.Machine.execTimeExchangeStart s
  | .tsrsp id t2 t3 => Sys2Proof.Machine.execTsrsp id t2 t3 s
  | .timeExchangeTimeout => Sys2Proof.Machine.execTimeExchangeTimeout s
  | .slewExpiry => Sys2Proof.Machine.execSlewExpiry s
  | .holdTimeout => Sys2Proof.Machine.execHoldTimeout s
  | .timePpsEdge => Sys2Proof.Machine.execTimePpsEdge s
  | .ppsLost => Sys2Proof.Machine.execPpsLost s
  | .twinPresentFall => Sys2Proof.Machine.execTwinPresentFall s
  | .twinPresentRise => Sys2Proof.Machine.execTwinPresentRise s
  | .hello version serial group => Sys2Proof.Machine.execHello version serial group s
  | .auth msg frag count total data => Sys2Proof.Machine.execAuth msg frag count total data s
  | .pairingRetry => Sys2Proof.Machine.execPairingRetry s
  | .mirw tag off data mac => Sys2Proof.Machine.execMirw tag off data mac s
  | .mack tag status mac => Sys2Proof.Machine.execMack tag status mac s
  | .hb state time mac => Sys2Proof.Machine.execHb state time mac s
  | .partnerLost => Sys2Proof.Machine.execPartnerLost s
  | .fenceTwin q => Sys2Proof.Machine.execFenceTwin q s
  | .fenceDelayed => Sys2Proof.Machine.execFenceDelayed s
  | .thaw q => Sys2Proof.Machine.execThaw q s
  | .rekey q => Sys2Proof.Machine.execRekey q s
  | .returnPkt off data mac => Sys2Proof.Machine.execReturnPkt off data mac s
  | .stencilRingWrite => Sys2Proof.Machine.execStencilRingWrite s
  | .twnStnFreeWrite q v => Sys2Proof.Machine.execTwnStnFreeWrite q v s
  | .snapFlip => Sys2Proof.Machine.execSnapFlip s
  | .gateTimeout => Sys2Proof.Machine.execGateTimeout s
  | .stageCopyComplete => Sys2Proof.Machine.execStageCopyComplete s
  | .tierBlock t => Sys2Proof.Machine.execTierBlock t s
  | .tierComplete t => Sys2Proof.Machine.execTierComplete t s
  | .tierFail t cause => Sys2Proof.Machine.execTierFail t cause s
  | .twnRcmdGo q v => Sys2Proof.Machine.execTwnRcmdGo q v s
  | .restoreComplete => Sys2Proof.Machine.execRestoreComplete s
  | .hawkInsert => Sys2Proof.Machine.execHawkInsert s
  | .hawkVerify record => Sys2Proof.Machine.execHawkVerify record s
  | .hcpl tag status data => Sys2Proof.Machine.execHcpl tag status data s
  | .wearReadout bytes worn => Sys2Proof.Machine.execWearReadout bytes worn s
  | .hwkCtlRelease q v => Sys2Proof.Machine.execHwkCtlRelease q v s
  | .releaseComplete => Sys2Proof.Machine.execReleaseComplete s
  | .hawkSignalLoss => Sys2Proof.Machine.execHawkSignalLoss s
  | .resetSourceAssert r reason => Sys2Proof.Machine.execResetSourceAssert r reason s
  | .resetSourceRelease r => Sys2Proof.Machine.execResetSourceRelease r s
  | .resetN high => Sys2Proof.Machine.execResetN high s
  | .twinResetN high => Sys2Proof.Machine.execTwinResetN high s
  | .supplyUndervoltage mv10 => Sys2Proof.Machine.execSupplyUndervoltage mv10 s
  | .warm q => Sys2Proof.Machine.execWarm q s
  | .ganggo q v => Sys2Proof.Machine.execGanggo q v s
  | .cdiego q v => Sys2Proof.Machine.execCdiego q v s
  | .rstBlk q d v => Sys2Proof.Machine.execRstBlk q d v s
  | .resetIdleReached d idle => Sys2Proof.Machine.execResetIdleReached d idle s
  | .rstRun q d v => Sys2Proof.Machine.execRstRun q d v s
  | .optionPhase1End => Sys2Proof.Machine.execOptionPhase1End s
  | .optionPhase2End => Sys2Proof.Machine.execOptionPhase2End s
  | .optionPhase3End failed => Sys2Proof.Machine.execOptionPhase3End failed s
  | .rndUpdcmd q => Sys2Proof.Machine.execRndUpdcmd q s
  | .renderUpdateDone good => Sys2Proof.Machine.execRenderUpdateDone good s
  | .secArbCmd q v => Sys2Proof.Machine.execSecArbCmd q v s
  | .arbCommitDone => Sys2Proof.Machine.execArbCommitDone s
  | .secMrext q v => Sys2Proof.Machine.execSecMrext q v s
  | .secAttCtl q => Sys2Proof.Machine.execSecAttCtl q s
  | .attestationDone => Sys2Proof.Machine.execAttestationDone s
  | .token jtag data => Sys2Proof.Machine.execToken jtag data s
  | .supplyWarn mv10 => Sys2Proof.Machine.execSupplyWarn mv10 s
  | .supplyRise45v mv10 => Sys2Proof.Machine.execSupplyRise45v mv10 s
  | .supplyWarnRelease => Sys2Proof.Machine.execSupplyWarnRelease s
  | .warningReturnStep d => Sys2Proof.Machine.execWarningReturnStep d s
  | .powerDemandEval d est stack => Sys2Proof.Machine.execPowerDemandEval d est stack s
  | .thermalRead d temps => Sys2Proof.Machine.execThermalRead d temps s
  | .pwrEnFall => Sys2Proof.Machine.execPwrEnFall s
  | .pwrEnRise => Sys2Proof.Machine.execPwrEnRise s
  | .pwrGoodRise => Sys2Proof.Machine.execPwrGoodRise s
  | .refclkLoss => Sys2Proof.Machine.execRefclkLoss s
  | .refclkRestore => Sys2Proof.Machine.execRefclkRestore s
  | .sensorSample samples => Sys2Proof.Machine.execSensorSample samples s
  | .mcHang => Sys2Proof.Machine.execMcHang s
  | .mcWdcfgWrite q v => Sys2Proof.Machine.execMcWdcfgWrite q v s
  | .mcWdkick q v => Sys2Proof.Machine.execMcWdkick q v s
  | .watchdogPrewarning => Sys2Proof.Machine.execWatchdogPrewarning s
  | .watchdogExpiry => Sys2Proof.Machine.execWatchdogExpiry s
  | .logEntryWrite whole => Sys2Proof.Machine.execLogEntryWrite whole s
  | .setEndpointId b eid => Sys2Proof.Machine.execSetEndpointId b eid s
  | .getEndpointId b => Sys2Proof.Machine.execGetEndpointId b s
  | .getEndpointUuid b => Sys2Proof.Machine.execGetEndpointUuid b s
  | .getMctpVersionSupport b => Sys2Proof.Machine.execGetMctpVersionSupport b s
  | .getMessageTypeSupport b => Sys2Proof.Machine.execGetMessageTypeSupport b s
  | .settid b tid => Sys2Proof.Machine.execSettid b tid s
  | .gettid b => Sys2Proof.Machine.execGettid b s
  | .getpldmversion b ty => Sys2Proof.Machine.execGetpldmversion b ty s
  | .getpldmtypes b => Sys2Proof.Machine.execGetpldmtypes b s
  | .getpldmcommands b ty => Sys2Proof.Machine.execGetpldmcommands b ty s
  | .getsensorreading b id => Sys2Proof.Machine.execGetsensorreading b id s
  | .getpdrrepositoryinfo b => Sys2Proof.Machine.execGetpdrrepositoryinfo b s
  | .getpdr b handle => Sys2Proof.Machine.execGetpdr b handle s
  | .seteventreceiver b on eid => Sys2Proof.Machine.execSeteventreceiver b on eid s
  | .geteventreceiver b => Sys2Proof.Machine.execGeteventreceiver b s
  | .eventmessagebuffersize b size => Sys2Proof.Machine.execEventmessagebuffersize b size s
  | .eventRetry => Sys2Proof.Machine.execEventRetry s
  | .querydeviceidentifiers b => Sys2Proof.Machine.execQuerydeviceidentifiers b s
  | .getfirmwareparameters b => Sys2Proof.Machine.execGetfirmwareparameters b s
  | .requestupdate b piece => Sys2Proof.Machine.execRequestupdate b piece s
  | .passcomponenttable b comp stamp => Sys2Proof.Machine.execPasscomponenttable b comp stamp s
  | .updatecomponent b comp stamp size => Sys2Proof.Machine.execUpdatecomponent b comp stamp size s
  | .firmwareDataReceived data => Sys2Proof.Machine.execFirmwareDataReceived data s
  | .updateVerify good => Sys2Proof.Machine.execUpdateVerify good s
  | .activatefirmware b selfContained => Sys2Proof.Machine.execActivatefirmware b selfContained s
  | .getstatus b => Sys2Proof.Machine.execGetstatus b s
  | .cancelupdatecomponent b => Sys2Proof.Machine.execCancelupdatecomponent b s
  | .cancelupdate b => Sys2Proof.Machine.execCancelupdate b s
  | .logread q count => Sys2Proof.Machine.execLogread q count s
  | .cold q reason => Sys2Proof.Machine.execCold q reason s
  | .sensors q => Sys2Proof.Machine.execSensors q s
  | .stmNextf q => Sys2Proof.Machine.execStmNextf q s
  | .registerWrite q addr data => Sys2Proof.Machine.execRegisterWrite q addr data s
  | .passRetirement c => Sys2Proof.Machine.execPassRetirement c s
  | .hbmRetrainDone st => Sys2Proof.Machine.execHbmRetrainDone st s
  | .scrimPortRetrainDone d => Sys2Proof.Machine.execScrimPortRetrainDone d s
  | .twinRstOutPulseEnd => Sys2Proof.Machine.execTwinRstOutPulseEnd s
  | .standbyRailDown => Sys2Proof.Machine.execStandbyRailDown s
  | .mcFirmwareSelection => Sys2Proof.Machine.execMcFirmwareSelection s
  | .platformEventAcknowledged => Sys2Proof.Machine.execPlatformEventAcknowledged s

end Sys2Proof.Machine
end

