-- ==== Sys2Proof/Machine/Tick.lean ====
section
/-! DEFINITION. What happens while no command waits: one nanosecond passes (log entry 9). -/

namespace Sys2Proof.Machine

open Sys2Proof

/-- One cycle of the 2.0 GHz fabric clock (R385): fabric time advances by 0.5 ns × (1 + r × 10⁻⁹), kept to 32 fraction bits; how the
product is rounded to them is a free value (log entry 2). -/
def State.fabricCycle (s : State) : State :=
  let a := s.ratio (2 ^ 31 * (1000000000 + s.tRate)) 1000000000
  let f := a.2.frac + a.1.toNat
  { a.2 with time := (a.2.time + f / 2 ^ 32) % 2 ^ 64, frac := f % 2 ^ 32 }

/-- The counters of time throttled: HBM_THRNS of a stack at step 1 or above, THM_THRNS of a die with THROT (R358, R458). -/
def State.countThrottle (s : State) : State :=
  let s := (List.range 16).foldl (fun s k =>
    if s.fld (stackDie k) .HBM_STAT 0 3 2 = 0 then s else s.countReg (stackDie k) .HBM_THRNS 0 1) s
  (List.range 25).foldl (fun s d => if s.flag d .THM_STAT 0 0 then s.countReg d .THM_THRNS 0 1 else s) s

/-- Operations that a supply warning makes each controller defer: how many there are is not stated, so HBM_DEFER grows by a free number
(R351, R358, log entry 59). -/
def State.countDefer (s : State) : State :=
  (List.range 16).foldl (fun s k =>
    if s.flag (stackDie k) .HBM_STAT 0 5 then let n := s.freeNat; n.2.countReg (stackDie k) .HBM_DEFER 0 n.1 else s) s

/-- AGD_TSTAT.PPSOK falls once the edge expected a second after the last one used has not come within its window (R391, R392). -/
def State.ppsStale (s : State) : State :=
  match s.sync.ppsAt with
  | some t =>
    if s.flag 24 .AGD_TCFG 0 0 && s.flag 24 .AGD_TSTAT 0 3 && decide (t + 1000000000 + 1000 * s.fld 24 .AGD_TCFG 0 63 48 < s.time) then
      s.setFld 24 .AGD_TSTAT 0 3 3 0
    else s
  | none => s

/-- Acknowledgements that may arrive while time passes (R82): each core's outstanding stores, or not, freely. -/
def State.ackSome (s : State) : State :=
  (List.range 100).foldl (fun s n =>
    match coreNo n with
    | some c =>
      if (s.core c).unacked.isEmpty then s
      else
        let a := s.freeBool
        if a.1 then a.2.acked c else a.2
    | none => s) s

/-- An ECC error may arise in an engine's memories, anywhere and of either kind (R211, R233): it waits there until the word is read. A second
one in the same word makes it uncorrectable. -/
def State.damage (s : State) (d : Nat) : State :=
  let n := s.freeNat
  let o := n.2.freeNat
  let k := 1 + n.1 / 4 % 2
  let hit (m : Sparse Nat) (i : Nat) : Sparse Nat := put (fun _ => 0) m i (if look (fun _ => 0) m i = 0 then k else 2)
  o.2.updEngine d fun x =>
    match n.1 % 4 with
    | 0 => { x with admg := hit x.admg (o.1 % (128 * 49152)) }
    | 1 => { x with tdmg := hit x.tdmg (o.1 % (16384 * 32)) }
    | 2 => { x with bdmg0 := if x.bank0.isNone then 0 else if x.bdmg0 = 0 then k else 2 }
    | _ => { x with bdmg1 := if x.bank1.isNone then 0 else if x.bdmg1 = 0 then k else 2 }

/-- Errors that may arise while time passes: in each engine, or not, freely. -/
def State.damageSome (s : State) : State :=
  (List.range 24).foldl (fun s d => let b := s.freeBool; if b.1 then b.2.damage d else b.2) s

/-- What a path that the core discards may leave (R78): a data access of any kind at any offset through any segment register is checked and
translated, and the line a load reads may come into the data cache; a fetch may bring its line into the instruction cache. Nothing else of the
path stays. -/
def State.speculate (s : State) (c : CoreId) : State :=
  let n := s.freeNat
  let o := n.2.freeNat
  let sg := n.1 % 8
  let off : Word := BitVec.ofNat 64 o.1
  let x := s.core c
  let k : AKind := match n.1 / 8 % 3 with
    | 0 => .read
    | 1 => .write
    | _ => if sg = 0 then .fetch else .atomic
  let r := o.2.checkAccess c (x.sgOf sg) sg k x.ring off 1
  let t := match r with
    | (.ok (p :: _), t) =>
      if !((t.decodePA p.pa).plain && (t.homeCheck (reqOf c) p.pa).isNone && !t.partBusy (reqOf c) p) then t
      else
        match k with
        | .read => t.fillLine c p.pa
        | .fetch => t.fillCode c p.pa
        | _ => t
    | (_, t) => t
  let y := t.core c
  ({ s with free := t.free }).setCore c { x with dcache := y.dcache, icache := y.icache, tlb := y.tlb, wcache := y.wcache }

/-- Each running core may have followed a path that it discards (R78), or found that a pass behind its oldest instruction lay on one (R228). -/
def State.speculateSome (s : State) : State :=
  (List.range 100).foldl (fun s n =>
    match coreNo n with
    | some c =>
      if !s.running c then s
      else
        let a := s.freeBool
        let s := if a.1 then a.2.speculate c else a.2
        let b := s.freeBool
        if b.1 then b.2.updCore c fun x => { x with ahead := none } else b.2
    | none => s) s

/-- One nanosecond: MC time always runs (R497); fabric time and all else that counts it, outside reset (R385). What waited for room or for an
answer goes on. -/
def State.tick (s : State) : State :=
  let s := { s with mctime := s.mctime + 1 }
  if s.stopped then s
  else
    let s := if s.timeRuns then s.fabricCycle.fabricCycle.ppsStale else s
    s.vinTick.commitTick.countThrottle.countDefer.ackSome.damageSome.speculateSome.packetsRetry.snapsRetry.endedRetry.hawkAsked.preRun.prefetchAll.retryReads

end Sys2Proof.Machine
end

