-- ==== Sys2Proof/Machine/Step.lean ====
section
/-! DEFINITION. One step: the command at the front of the queue takes effect; with none waiting, a nanosecond passes. -/

namespace Sys2Proof.Machine

open Sys2Proof

/-- The state with a queue of waiting commands. -/
def State.withPending (s : State) (l : List Instr) : State := { s with pending := l }

/-- One step of the module. -/
def step (s : State) : Host.Outcome State Fault Refusal :=
  match s.pending with
  | [] => done s.tick
  | i :: rest => exec i (s.withPending rest)

/-- The state with the command a word spells put in front of its queue; no row of the opcode table gives bits, so no word
spells one (log entry 1). -/
def State.withFetchWord (s : State) (nbits w : Nat) : State :=
  match decodeTableWord nbits w with
  | some i => s.withPending (i :: s.pending)
  | none => s

end Sys2Proof.Machine
end

