-- ==== Sys2Proof/Machine/Encode.lean ====
section
/-! DEFINITION. The words of the core instructions, by the encoding tables of the spec (R30–R36, R57–R65, R154–R170, R217, R245, R278). -/

namespace Sys2Proof.Machine

open Sys2Proof

/-- The words of a core's instruction, the second 0 for a 32-bit one; none for a command that is no instruction (R30, R153, R216). -/
def insnWords (i : Instr) : Option (Nat × Nat) :=
  match i with
  | .add _ gd ga gb => some (wordA 0x00 gd ga gb 0x00, 0)
  | .sub _ gd ga gb => some (wordA 0x00 gd ga gb 0x01, 0)
  | .and _ gd ga gb => some (wordA 0x00 gd ga gb 0x02, 0)
  | .or _ gd ga gb => some (wordA 0x00 gd ga gb 0x03, 0)
  | .xor _ gd ga gb => some (wordA 0x00 gd ga gb 0x04, 0)
  | .andn _ gd ga gb => some (wordA 0x00 gd ga gb 0x05, 0)
  | .slt _ gd ga gb => some (wordA 0x00 gd ga gb 0x06, 0)
  | .sltu _ gd ga gb => some (wordA 0x00 gd ga gb 0x07, 0)
  | .sll _ gd ga gb => some (wordA 0x00 gd ga gb 0x08, 0)
  | .srl _ gd ga gb => some (wordA 0x00 gd ga gb 0x09, 0)
  | .sra _ gd ga gb => some (wordA 0x00 gd ga gb 0x0A, 0)
  | .ror _ gd ga gb => some (wordA 0x00 gd ga gb 0x0B, 0)
  | .slli _ gd ga gb => some (wordA 0x00 gd ga gb 0x0C, 0)
  | .srli _ gd ga gb => some (wordA 0x00 gd ga gb 0x0D, 0)
  | .srai _ gd ga gb => some (wordA 0x00 gd ga gb 0x0E, 0)
  | .rori _ gd ga gb => some (wordA 0x00 gd ga gb 0x0F, 0)
  | .addw _ gd ga gb => some (wordA 0x00 gd ga gb 0x10, 0)
  | .subw _ gd ga gb => some (wordA 0x00 gd ga gb 0x11, 0)
  | .min _ gd ga gb => some (wordA 0x00 gd ga gb 0x12, 0)
  | .max _ gd ga gb => some (wordA 0x00 gd ga gb 0x13, 0)
  | .minu _ gd ga gb => some (wordA 0x00 gd ga gb 0x14, 0)
  | .maxu _ gd ga gb => some (wordA 0x00 gd ga gb 0x15, 0)
  | .clz _ gd ga gb => some (wordA 0x00 gd ga gb 0x16, 0)
  | .ctz _ gd ga gb => some (wordA 0x00 gd ga gb 0x17, 0)
  | .popc _ gd ga gb => some (wordA 0x00 gd ga gb 0x18, 0)
  | .bswap _ gd ga gb => some (wordA 0x00 gd ga gb 0x19, 0)
  | .sextb _ gd ga gb => some (wordA 0x00 gd ga gb 0x1A, 0)
  | .sexth _ gd ga gb => some (wordA 0x00 gd ga gb 0x1B, 0)
  | .sextw _ gd ga gb => some (wordA 0x00 gd ga gb 0x1C, 0)
  | .zextw _ gd ga gb => some (wordA 0x00 gd ga gb 0x1D, 0)
  | .addi _ gd ga imm => some (wordI 0x01 gd ga imm, 0)
  | .andi _ gd ga imm => some (wordI 0x02 gd ga imm, 0)
  | .ori _ gd ga imm => some (wordI 0x03 gd ga imm, 0)
  | .xori _ gd ga imm => some (wordI 0x04 gd ga imm, 0)
  | .slti _ gd ga imm => some (wordI 0x05 gd ga imm, 0)
  | .sltiu _ gd ga imm => some (wordI 0x06 gd ga imm, 0)
  | .lui _ gd imm => some (wordU 0x07 gd imm, 0)
  | .mul _ gd ga gb => some (wordA 0x09 gd ga gb 0x00, 0)
  | .mulh _ gd ga gb => some (wordA 0x09 gd ga gb 0x01, 0)
  | .mulhu _ gd ga gb => some (wordA 0x09 gd ga gb 0x02, 0)
  | .mulw _ gd ga gb => some (wordA 0x09 gd ga gb 0x03, 0)
  | .div _ gd ga gb => some (wordA 0x09 gd ga gb 0x04, 0)
  | .divu _ gd ga gb => some (wordA 0x09 gd ga gb 0x05, 0)
  | .rem _ gd ga gb => some (wordA 0x09 gd ga gb 0x06, 0)
  | .remu _ gd ga gb => some (wordA 0x09 gd ga gb 0x07, 0)
  | .fadd _ gd ga gb dbl => some (wordA 0x0A gd ga gb (0x00 + 0x80 * b2n dbl), 0)
  | .fsub _ gd ga gb dbl => some (wordA 0x0A gd ga gb (0x01 + 0x80 * b2n dbl), 0)
  | .fmul _ gd ga gb dbl => some (wordA 0x0A gd ga gb (0x02 + 0x80 * b2n dbl), 0)
  | .fdiv _ gd ga gb dbl => some (wordA 0x0A gd ga gb (0x03 + 0x80 * b2n dbl), 0)
  | .fsqrt _ gd ga gb dbl => some (wordA 0x0A gd ga gb (0x04 + 0x80 * b2n dbl), 0)
  | .fma _ gd ga gb dbl => some (wordA 0x0A gd ga gb (0x05 + 0x80 * b2n dbl), 0)
  | .fmin _ gd ga gb dbl => some (wordA 0x0A gd ga gb (0x06 + 0x80 * b2n dbl), 0)
  | .fmax _ gd ga gb dbl => some (wordA 0x0A gd ga gb (0x07 + 0x80 * b2n dbl), 0)
  | .feq _ gd ga gb dbl => some (wordA 0x0A gd ga gb (0x08 + 0x80 * b2n dbl), 0)
  | .flt _ gd ga gb dbl => some (wordA 0x0A gd ga gb (0x09 + 0x80 * b2n dbl), 0)
  | .fle _ gd ga gb dbl => some (wordA 0x0A gd ga gb (0x0A + 0x80 * b2n dbl), 0)
  | .fcvtI _ gd ga gb dbl => some (wordA 0x0A gd ga gb (0x0B + 0x80 * b2n dbl), 0)
  | .fcvtF _ gd ga gb dbl => some (wordA 0x0A gd ga gb (0x0C + 0x80 * b2n dbl), 0)
  | .fcvtP _ gd ga gb dbl => some (wordA 0x0A gd ga gb (0x0D + 0x80 * b2n dbl), 0)
  | .ldb _ gt ga sg disp => some (wordM 0x10 gt ga sg disp, 0)
  | .ldbu _ gt ga sg disp => some (wordM 0x11 gt ga sg disp, 0)
  | .ldh _ gt ga sg disp => some (wordM 0x12 gt ga sg disp, 0)
  | .ldhu _ gt ga sg disp => some (wordM 0x13 gt ga sg disp, 0)
  | .ldw _ gt ga sg disp => some (wordM 0x14 gt ga sg disp, 0)
  | .ldwu _ gt ga sg disp => some (wordM 0x15 gt ga sg disp, 0)
  | .ldd _ gt ga sg disp => some (wordM 0x16 gt ga sg disp, 0)
  | .ldx _ gt ga gb sg ctl => some (wordX 0x17 gt ga gb sg ctl.toNat, 0)
  | .stb _ gt ga sg disp => some (wordM 0x18 gt ga sg disp, 0)
  | .sth _ gt ga sg disp => some (wordM 0x19 gt ga sg disp, 0)
  | .stw _ gt ga sg disp => some (wordM 0x1A gt ga sg disp, 0)
  | .std _ gt ga sg disp => some (wordM 0x1B gt ga sg disp, 0)
  | .stx _ gt ga gb sg ctl => some (wordX 0x1C gt ga gb sg ctl.toNat, 0)
  | .ldAcq _ gt ga gb sg ctl => some (wordX 0x1D gt ga gb sg (ctl.toNat % 16), 0)
  | .stRel _ gt ga gb sg ctl => some (wordX 0x1D gt ga gb sg (16 + ctl.toNat % 16), 0)
  | .atomSwap _ gd ga gb sg ord dw => some (wordX 0x1E gd ga gb sg (ord.toNat * 8 + 4 * b2n dw + 0), 0)
  | .atomAdd _ gd ga gb sg ord dw => some (wordX 0x1E gd ga gb sg (ord.toNat * 8 + 4 * b2n dw + 1), 0)
  | .atomAnd _ gd ga gb sg ord dw => some (wordX 0x1E gd ga gb sg (ord.toNat * 8 + 4 * b2n dw + 2), 0)
  | .atomOr _ gd ga gb sg ord dw => some (wordX 0x1E gd ga gb sg (ord.toNat * 8 + 4 * b2n dw + 3), 0)
  | .atomXor _ gd ga gb sg ord dw => some (wordX 0x1F gd ga gb sg (ord.toNat * 8 + 4 * b2n dw + 0), 0)
  | .atomSmax _ gd ga gb sg ord dw => some (wordX 0x1F gd ga gb sg (ord.toNat * 8 + 4 * b2n dw + 1), 0)
  | .atomSmin _ gd ga gb sg ord dw => some (wordX 0x1F gd ga gb sg (ord.toNat * 8 + 4 * b2n dw + 2), 0)
  | .atomUmax _ gd ga gb sg ord dw => some (wordX 0x1F gd ga gb sg (ord.toNat * 8 + 4 * b2n dw + 3), 0)
  | .atomUmin _ gd ga gb sg ord dw => some (wordX 0x20 gd ga gb sg (ord.toNat * 8 + 4 * b2n dw + 0), 0)
  | .cas _ gd ga gb sg ord dw => some (wordX 0x20 gd ga gb sg (ord.toNat * 8 + 4 * b2n dw + 1), 0)
  | .fenceLl _ gd ga gb => some (wordA 0x21 gd ga gb 0, 0)
  | .fenceSs _ gd ga gb => some (wordA 0x21 gd ga gb 1, 0)
  | .fenceFull _ gd ga gb => some (wordA 0x21 gd ga gb 2, 0)
  | .fenceEng _ gd ga gb => some (wordA 0x21 gd ga gb 3, 0)
  | .isync _ gd ga gb => some (wordA 0x21 gd ga gb 4, 0)
  | .beq _ ga gb disp => some (wordB 0x22 ga gb disp, 0)
  | .bne _ ga gb disp => some (wordB 0x23 ga gb disp, 0)
  | .blt _ ga gb disp => some (wordB 0x24 ga gb disp, 0)
  | .bge _ ga gb disp => some (wordB 0x25 ga gb disp, 0)
  | .bltu _ ga gb disp => some (wordB 0x26 ga gb disp, 0)
  | .bgeu _ ga gb disp => some (wordB 0x27 ga gb disp, 0)
  | .j _ disp => some (wordJ 0x28 disp, 0)
  | .call _ disp => some (wordJ 0x29 disp, 0)
  | .jr _ gd ga gb => some (wordA 0x2A gd ga gb 0x00, 0)
  | .callr _ gd ga gb => some (wordA 0x2A gd ga gb 0x01, 0)
  | .loop _ n gc disp => some (wordL 0x2B n gc disp, 0)
  | .movcR _ g creg => some (wordS g creg 0x00, 0)
  | .movcW _ g creg => some (wordS g creg 0x01, 0)
  | .statusWrite _ g => some (wordS g 0x000 0x01, 0)
  | .tableBaseWrite _ g creg => some (wordS g creg 0x01, 0)
  | .ptbWrite _ g => some (wordS g 0x013 0x01, 0)
  | .loopRegWrite _ g creg => some (wordS g creg 0x01, 0)
  | .vlWrite _ g => some (wordS g 0x030 0x01, 0)
  | .vtypeWrite _ g => some (wordS g 0x031 0x01, 0)
  | .fpflagsWrite _ g => some (wordS g 0x032 0x01, 0)
  | .tcfgWrite _ g creg => some (wordS g creg 0x01, 0)
  | .movsg _ g code => some (wordS g code 0x02, 0)
  | .movsgR _ g code => some (wordS g code 0x03, 0)
  | .callg _ g code => some (wordS g code 0x04, 0)
  | .retg _ g code => some (wordS g code 0x05, 0)
  | .retx _ g code => some (wordS g code 0x06, 0)
  | .brk _ g code => some (wordS g code 0x07, 0)
  | .wfi _ g code => some (wordS g code 0x08, 0)
  | .vcfg _ f => some (wordV 0x37 0x00 f, wordV2 f)
  | .vcfgr _ f => some (wordV 0x37 0x01 f, wordV2 f)
  | .vadd _ f => some (wordV 0x30 0x00 f, wordV2 f)
  | .vsub _ f => some (wordV 0x30 0x01 f, wordV2 f)
  | .vrsub _ f => some (wordV 0x30 0x02 f, wordV2 f)
  | .vand _ f => some (wordV 0x30 0x03 f, wordV2 f)
  | .vor _ f => some (wordV 0x30 0x04 f, wordV2 f)
  | .vxor _ f => some (wordV 0x30 0x05 f, wordV2 f)
  | .vsll _ f => some (wordV 0x30 0x06 f, wordV2 f)
  | .vsrl _ f => some (wordV 0x30 0x07 f, wordV2 f)
  | .vsra _ f => some (wordV 0x30 0x08 f, wordV2 f)
  | .vmin _ f => some (wordV 0x30 0x09 f, wordV2 f)
  | .vmax _ f => some (wordV 0x30 0x0A f, wordV2 f)
  | .vminu _ f => some (wordV 0x30 0x0B f, wordV2 f)
  | .vmaxu _ f => some (wordV 0x30 0x0C f, wordV2 f)
  | .vmul _ f => some (wordV 0x30 0x0D f, wordV2 f)
  | .vmulh _ f => some (wordV 0x30 0x0E f, wordV2 f)
  | .vmulhu _ f => some (wordV 0x30 0x0F f, wordV2 f)
  | .vmacc _ f => some (wordV 0x30 0x10 f, wordV2 f)
  | .vsadd _ f => some (wordV 0x30 0x11 f, wordV2 f)
  | .vsaddu _ f => some (wordV 0x30 0x12 f, wordV2 f)
  | .vssub _ f => some (wordV 0x30 0x13 f, wordV2 f)
  | .vssubu _ f => some (wordV 0x30 0x14 f, wordV2 f)
  | .vmerge _ f => some (wordV 0x30 0x15 f, wordV2 f)
  | .vmv _ f => some (wordV 0x30 0x16 f, wordV2 f)
  | .vfadd _ f => some (wordV 0x31 0x00 f, wordV2 f)
  | .vfsub _ f => some (wordV 0x31 0x01 f, wordV2 f)
  | .vfmul _ f => some (wordV 0x31 0x02 f, wordV2 f)
  | .vfdiv _ f => some (wordV 0x31 0x03 f, wordV2 f)
  | .vfsqrt _ f => some (wordV 0x31 0x04 f, wordV2 f)
  | .vfma _ f => some (wordV 0x31 0x05 f, wordV2 f)
  | .vfnma _ f => some (wordV 0x31 0x06 f, wordV2 f)
  | .vfmin _ f => some (wordV 0x31 0x07 f, wordV2 f)
  | .vfmax _ f => some (wordV 0x31 0x08 f, wordV2 f)
  | .vfabs _ f => some (wordV 0x31 0x09 f, wordV2 f)
  | .vfneg _ f => some (wordV 0x31 0x0A f, wordV2 f)
  | .vfcvtI _ f => some (wordV 0x31 0x0B f, wordV2 f)
  | .vfcvtF _ f => some (wordV 0x31 0x0C f, wordV2 f)
  | .vfcvtW _ f => some (wordV 0x31 0x0D f, wordV2 f)
  | .vfcvtN _ f => some (wordV 0x31 0x0E f, wordV2 f)
  | .vwmul _ f => some (wordV 0x32 0x00 f, wordV2 f)
  | .vwmulu _ f => some (wordV 0x32 0x01 f, wordV2 f)
  | .vwmulsu _ f => some (wordV 0x32 0x02 f, wordV2 f)
  | .vwmacc _ f => some (wordV 0x32 0x03 f, wordV2 f)
  | .vwmaccu _ f => some (wordV 0x32 0x04 f, wordV2 f)
  | .vwmaccsu _ f => some (wordV 0x32 0x05 f, wordV2 f)
  | .vfwmul _ f => some (wordV 0x32 0x06 f, wordV2 f)
  | .vfwma _ f => some (wordV 0x32 0x07 f, wordV2 f)
  | .vdot4 _ f => some (wordV 0x32 0x08 f, wordV2 f)
  | .vdot4u _ f => some (wordV 0x32 0x09 f, wordV2 f)
  | .vdot4su _ f => some (wordV 0x32 0x0A f, wordV2 f)
  | .vfdot4 _ f => some (wordV 0x32 0x0B f, wordV2 f)
  | .vdot2 _ f => some (wordV 0x32 0x0C f, wordV2 f)
  | .vdot2u _ f => some (wordV 0x32 0x0D f, wordV2 f)
  | .vfdot2 _ f => some (wordV 0x32 0x0E f, wordV2 f)
  | .vcmpeq _ f => some (wordV 0x33 0x00 f, wordV2 f)
  | .vcmpne _ f => some (wordV 0x33 0x01 f, wordV2 f)
  | .vcmplt _ f => some (wordV 0x33 0x02 f, wordV2 f)
  | .vcmpltu _ f => some (wordV 0x33 0x03 f, wordV2 f)
  | .vcmple _ f => some (wordV 0x33 0x04 f, wordV2 f)
  | .vcmpleu _ f => some (wordV 0x33 0x05 f, wordV2 f)
  | .vcmpgt _ f => some (wordV 0x33 0x06 f, wordV2 f)
  | .vcmpgtu _ f => some (wordV 0x33 0x07 f, wordV2 f)
  | .vfcmpeq _ f => some (wordV 0x33 0x08 f, wordV2 f)
  | .vfcmplt _ f => some (wordV 0x33 0x09 f, wordV2 f)
  | .vfcmple _ f => some (wordV 0x33 0x0A f, wordV2 f)
  | .vfcmpun _ f => some (wordV 0x33 0x0B f, wordV2 f)
  | .mand _ f => some (wordV 0x33 0x10 f, wordV2 f)
  | .mor _ f => some (wordV 0x33 0x11 f, wordV2 f)
  | .mxor _ f => some (wordV 0x33 0x12 f, wordV2 f)
  | .mandn _ f => some (wordV 0x33 0x13 f, wordV2 f)
  | .mnot _ f => some (wordV 0x33 0x14 f, wordV2 f)
  | .mset _ f => some (wordV 0x33 0x15 f, wordV2 f)
  | .mpopc _ f => some (wordV 0x33 0x16 f, wordV2 f)
  | .mfirst _ f => some (wordV 0x33 0x17 f, wordV2 f)
  | .vget _ f => some (wordV 0x36 0x00 f, wordV2 f)
  | .vgetu _ f => some (wordV 0x36 0x01 f, wordV2 f)
  | .vput _ f => some (wordV 0x36 0x02 f, wordV2 f)
  | .vslideup _ f => some (wordV 0x36 0x03 f, wordV2 f)
  | .vslidedn _ f => some (wordV 0x36 0x04 f, wordV2 f)
  | .vperm _ f => some (wordV 0x36 0x05 f, wordV2 f)
  | .vredsum _ f => some (wordV 0x36 0x06 f, wordV2 f)
  | .vredmax _ f => some (wordV 0x36 0x07 f, wordV2 f)
  | .vredmin _ f => some (wordV 0x36 0x08 f, wordV2 f)
  | .vredmaxu _ f => some (wordV 0x36 0x09 f, wordV2 f)
  | .vredminu _ f => some (wordV 0x36 0x0A f, wordV2 f)
  | .vfredsum _ f => some (wordV 0x36 0x0B f, wordV2 f)
  | .vfredmax _ f => some (wordV 0x36 0x0C f, wordV2 f)
  | .vfredmin _ f => some (wordV 0x36 0x0D f, wordV2 f)
  | .tvmov _ f => some (wordV 0x36 0x0E f, wordV2 f)
  | .vtmov _ f => some (wordV 0x36 0x0F f, wordV2 f)
  | .vld _ f => some (wordV 0x34 0x00 f, wordV2 f)
  | .vlds _ f => some (wordV 0x34 0x01 f, wordV2 f)
  | .vldx _ f => some (wordV 0x34 0x02 f, wordV2 f)
  | .vldff _ f => some (wordV 0x34 0x03 f, wordV2 f)
  | .vldm _ f => some (wordV 0x34 0x04 f, wordV2 f)
  | .vldr _ f => some (wordV 0x34 0x05 f, wordV2 f)
  | .vldmr _ f => some (wordV 0x34 0x06 f, wordV2 f)
  | .vst _ f => some (wordV 0x35 0x00 f, wordV2 f)
  | .vsts _ f => some (wordV 0x35 0x01 f, wordV2 f)
  | .vstx _ f => some (wordV 0x35 0x02 f, wordV2 f)
  | .vstm _ f => some (wordV 0x35 0x04 f, wordV2 f)
  | .vstr _ f => some (wordV 0x35 0x05 f, wordV2 f)
  | .vstmr _ f => some (wordV 0x35 0x06 f, wordV2 f)
  | .tmma _ f => some (wordT 0x38 0x00 f, wordT2 f)
  | .tmmp _ f => some (wordT 0x38 0x01 f, wordT2 f)
  | .tpull _ f => some (wordT 0x39 0x00 f, wordT2 f)
  | .tpush _ f => some (wordT 0x39 0x01 f, wordT2 f)
  | .twipe _ f => some (wordT 0x39 0x02 f, wordT2 f)
  | .accSt _ f => some (wordT 0x3A 0x00 f, wordT2 f)
  | .accLd _ f => some (wordT 0x3A 0x01 f, wordT2 f)
  | .gmm _ f => some (wordT 0x3B 0x00 f, wordT2 f)
  | .gaccOpen _ f => some (wordT 0x3B 0x01 f, wordT2 f)
  | .gaccClose _ f => some (wordT 0x3B 0x02 f, wordT2 f)
  | .glzLd _ f => some (wordG 0x00 f, wordG2 f)
  | .glzDrain _ f => some (wordG 0x01 f, wordG2 f)
  | .glzStat _ f => some (wordG 0x02 f, wordG2 f)
  | .glzHst _ f => some (wordG 0x03 f, wordG2 f)
  | .glzHld _ f => some (wordG 0x04 f, wordG2 f)
  | _ => none

end Sys2Proof.Machine
end

