-- ==== Sys2Proof/Safety.lean ====
section
/-! DEFINITION. The terms the statements are made in: a core ready at an instruction, a core after an instruction has retired, module
health kept in step. -/

namespace Sys2Proof.Machine

open Sys2Proof

/-- Core c runs and is not asked to go idle, has no pass in progress, does not wait in WFI or for a CALLG's record; the words w are fetched at its
pc, which leaves state t (R30, R66, R104, R107, R426). -/
def State.FetchesWords (s : State) (c : CoreId) (w : Nat × Nat) (t : State) : Prop :=
  s.runs c = true ∧ (s.core c).pass = none ∧ (s.core c).wfi = false ∧ (s.core c).slot.map (·.done) ≠ some true ∧ s.fetch c = (.ok w, t)

/-- Core c has fetched the words of instruction i, which leaves state t. -/
def State.Fetches (s : State) (c : CoreId) (i : Instr) (t : State) : Prop := ∃ w, insnWords i = some w ∧ s.FetchesWords c w t

/-- A core's instruction in t can run to its end: it stands in no delay slot, and single step is off. -/
def State.Unhindered (t : State) (c : CoreId) : Prop := (t.core c).slot = none ∧ (t.core c).ss = false ∧ (t.core c).stepDue = false

/-- Core c can run instruction i to its end: its words are fetched, and nothing hinders it. -/
def State.Ready (s : State) (c : CoreId) (i : Instr) (t : State) : Prop := s.Fetches c i t ∧ t.Unhindered c

/-- A core whose instruction has ended with nothing of its own done: its mode shadow ends with it (R76, R97). -/
def Core.undone (x : Core) : Core := { x with oldMode := none, issued := false }

/-- A core whose instruction has opened a delay slot (R38). -/
def Core.opened (y x : Core) (act : XferAct) (reads : List Greg) : Core :=
  { y.ageShadows with
    slot := some { addr := x.ip, act, shadows := x.lsh, msh := x.msh, reads }
    ip := x.ip + 4, msh := none, oldMode := none, entered := false, stepDue := y.stepDue || x.ss }

/-- A core whose instruction in a delay slot has retired, up to the transfer (R38). -/
def Core.slotRetired (x : Core) : Core := { x.ageShadows with entered := false, wfi := false, oldMode := none, slot := none }

/-- No active loop level ends at the core's pc (R48). -/
def Core.notLoopEnd (x : Core) : Prop := x.endLevel x.ip = none

/-- A core after an instruction of `size` bytes outside a delay slot has retired (R41, R47, R66, R112). -/
def Core.after (x : Core) (size : Nat) : Core :=
  Core.advance { x.ageShadows with entered := false, wfi := false, oldMode := none } (x.ip + BitVec.ofNat 64 size)

/-- A core without its caches and the interrupts that have reached it: what an instruction can see of it apart from hits (R55, R102, R111, R130). -/
def Core.arch (x : Core) : Core := { x with dcache := [], icache := [], tlb := [], wcache := [], descs := [], irq := [] }

/-- State t differs from s in no byte of memory, no poison mark, no matrix engine, no core but for its caches and pending interrupts, and not in the queue. -/
def State.Keeps (s t : State) : Prop :=
  t.mem = s.mem ∧ t.poison = s.poison ∧ t.engines = s.engines ∧ t.pending = s.pending ∧ ∀ c, (t.core c).arch = (s.core c).arch

/-- Core y has the registers of core x but for the general registers listed: general, control, segment, vector and mask; the loop counts where no
active loop level ends at x's pc (R29, R47, R62, R96, R152). -/
def Core.SameBut (x y : Core) (gs : List Greg) : Prop :=
  (∀ g, g ∉ gs → y.raw g = x.raw g) ∧ y.status = x.status ∧ y.sg = x.sg ∧ y.vreg = x.vreg ∧ y.mreg = x.mreg ∧ y.fpflags = x.fpflags
    ∧ y.vl = x.vl ∧ y.vtype = x.vtype ∧ y.epc = x.epc ∧ y.estatus = x.estatus ∧ y.exinfo = x.exinfo ∧ y.eaddr = x.eaddr ∧ y.hdtb = x.hdtb
    ∧ y.gtb = x.gtb ∧ y.sgtb = x.sgtb ∧ y.ptb = x.ptb ∧ y.tcfg = x.tcfg ∧ y.tstart = x.tstart ∧ y.accg = x.accg ∧ y.ls = x.ls ∧ y.le = x.le
    ∧ ((x.endLevel x.ip = none) → y.lc = x.lc)

/-- What a load into gt by core c leaves as it was in s: memory, matrix engines, the other cores, and the core's other registers. -/
def State.LoadKeeps (w s : State) (c : CoreId) (gt : Greg) : Prop :=
  (∀ a, w.byte a = s.byte a) ∧ w.poison = s.poison ∧ w.engines = s.engines ∧ (∀ e, e ≠ c → (w.core e).arch = (s.core e).arch)
    ∧ (s.core c).SameBut (w.core c) [gt]

/-- ERR_HEALTH reads as its inputs give it, with REPLACE sticky (R470–R472). -/
def State.HealthInStep (s : State) : Prop :=
  s.reg 24 .ERR_HEALTH 0 = s.healthWord (s.flag 24 .ERR_HEALTH 0 1)

end Sys2Proof.Machine
end

