-- ==== Sys2Proof/WellFormed.lean ====
section
/-! DEFINITION. Which commands are well formed: the operands whose values the spec or the row's name fixes. A packet that the
receiver checks and refuses (R373) is well formed: its refusal is an effect. -/

namespace Sys2Proof

/-- Number of temperature sensors of a die (R458). -/
def sensorCount (d : Die) : Nat := if d.val = 24 then 6 else 8

/-- Is a command well formed? -/
def WellFormed : Instr → Bool
  -- ctl[4] tells LD.ACQ and ST.REL apart (R58).
  | .ldAcq _ _ _ _ _ ctl => !ctl.getLsbD 4
  | .stRel _ _ _ _ _ ctl => ctl.getLsbD 4
  -- HDTB, GTB, SGTB (R121).
  | .tableBaseWrite _ _ creg => decide (0x010 ≤ creg.toNat ∧ creg.toNat ≤ 0x012)
  -- LS0–LC2 (R49).
  | .loopRegWrite _ _ creg => decide (0x040 ≤ creg.toNat ∧ creg.toNat ≤ 0x04A ∧ creg.toNat % 4 ≠ 3)
  -- TCFG0–TCFG7 (R209).
  | .tcfgWrite _ _ creg => decide (0x020 ≤ creg.toNat ∧ creg.toNat < 0x028)
  -- 0 clean, 1 a corrected error, 2 an uncorrectable one (R344, R357).
  | .hbmRead _ _ _ bad => decide (bad.toNat ≤ 2)
  | .patrolScrub _ bad => decide (bad.toNat ≤ 2)
  | .tileStorePatrol _ _ bad => decide (bad.toNat ≤ 2)
  -- A controller writes within one 32-byte sector (R345).
  | .hbmWrite _ _ pa data _ bad => decide (bad.toNat ≤ 2 ∧ 0 < data.length ∧ pa.toNat % 32 + data.length ≤ 32)
  -- One count for each channel of the stack (R339).
  | .ecsReadout _ counts => decide (counts.length = 16)
  -- One reading for each sensor (R453, R458).
  | .thermalRead d temps => decide (temps.length = sensorCount d)
  -- HBM channels (R352).
  | .optionPhase3End failed => failed.all fun c => decide (c < 256)
  -- TWN_GROUP is 32 bytes (R395).
  | .hello _ _ group => decide (group.length = 32)
  | _ => true

end Sys2Proof
end

