-- ==== Sys2Proof/Certificates/Slice0/Obligations.lean ====
section
/-! DEFINITION. The statements for the provers. A statement of a core's instruction starts from Ready or Fetches (Sys2Proof/Safety.lean):
the core runs and the instruction's words have been fetched, which leaves state t; State.Keeps says what t has in common with s. -/

open Sys2Proof Sys2Proof.Machine

/-! ### The machine as a whole -/

/-- A step with a command in front of the queue is exec of that command on the state with the queue's rest.
The model's own readings and choices in it: log entry 1. -/
def Obligations.StepRunsFront : Prop :=
  ∀ (s : State) (i : Instr) (rest : List Instr), s.pending = i :: rest → step s = exec i (s.withPending rest)

/-- No command stops the module: every step answers a next state, and ERR_HEALTH then reads as its inputs give it (R470–R472). -/
def Obligations.StepKeepsHealth : Prop := ∀ s : State, ∃ t, step s = .next t ∧ t.HealthInStep

/-- ERR_HEALTH is in step right after reset. -/
def Obligations.ResetHealth : Prop := State.reset.HealthInStep

/-! ### Scalar arithmetic -/

/-- R33, R34: an instruction of the ALU, multiply and divide groups on two registers writes gd and nothing else of the module, and
execution goes on after it.
R33: an instruction of the ALU group on one register, or with its count in the gb field, writes gd and nothing else. -/
def Obligations.RegisterArithmeticWritesResult : Prop :=
  (
    ∀ p ∈ ([(.add, fun a b => a + b), (.sub, fun a b => a - b), (.and, fun a b => a &&& b), (.or, fun a b => a ||| b),
        (.xor, fun a b => a ^^^ b), (.andn, fun a b => a &&& ~~~b), (.slt, fun a b => if a.toInt < b.toInt then 1 else 0),
        (.sltu, fun a b => if a.toNat < b.toNat then 1 else 0), (.sll, fun a b => a <<< (b.toNat % 64)),
        (.srl, fun a b => a >>> (b.toNat % 64)), (.sra, fun a b => a.sshiftRight (b.toNat % 64)),
        (.ror, fun a b => a.rotateRight (b.toNat % 64)), (.addw, fun a b => sext 32 (a + b)), (.subw, fun a b => sext 32 (a - b)),
        (.min, fun a b => if a.toInt < b.toInt then a else b), (.max, fun a b => if a.toInt < b.toInt then b else a),
        (.minu, fun a b => if a.toNat < b.toNat then a else b), (.maxu, fun a b => if a.toNat < b.toNat then b else a),
        (.mul, fun a b => a * b), (.mulh, fun a b => BitVec.ofInt 64 (a.toInt * b.toInt / 2 ^ 64)),
        (.mulhu, fun a b => BitVec.ofNat 64 (a.toNat * b.toNat / 2 ^ 64)), (.mulw, fun a b => sext 32 (a * b)),
        (.div, fun a b => if b = 0 then BitVec.allOnes 64 else BitVec.ofInt 64 (a.toInt.tdiv b.toInt)),
        (.divu, fun a b => if b = 0 then BitVec.allOnes 64 else BitVec.ofNat 64 (a.toNat / b.toNat)),
        (.rem, fun a b => if b = 0 then a else BitVec.ofInt 64 (a.toInt.tmod b.toInt)),
        (.remu, fun a b => if b = 0 then a else BitVec.ofNat 64 (a.toNat % b.toNat))] :
        List ((CoreId → Greg → Greg → Greg → Instr) × (Word → Word → Word))),
      ∀ (s t : State) (c : CoreId) (gd ga gb : Greg), s.Ready c (p.1 c gd ga gb) t →
        exec (p.1 c gd ga gb) s = .next (State.settle (t.updCore c fun x =>
          (x.begun.gwrite gd (p.2 (x.gread ga) (x.gread gb))).after 4))) ∧
  (
    ∀ p ∈ ([(.slli, fun a n => a <<< n), (.srli, fun a n => a >>> n), (.srai, fun a n => a.sshiftRight n),
        (.rori, fun a n => a.rotateRight n), (.clz, fun a _ => BitVec.ofNat 64 (clzN 64 a.toNat)),
        (.ctz, fun a _ => BitVec.ofNat 64 (ctzN 64 a.toNat)), (.popc, fun a _ => BitVec.ofNat 64 (popN 64 a.toNat)),
        (.bswap, fun a _ => BitVec.ofNat 64 (fromBytesBE (toBytes 8 a.toNat))), (.sextb, fun a _ => (a.setWidth 8).signExtend 64),
        (.sexth, fun a _ => (a.setWidth 16).signExtend 64), (.sextw, fun a _ => (a.setWidth 32).signExtend 64),
        (.zextw, fun a _ => a &&& 0xFFFFFFFF)] :
        List ((CoreId → Greg → Greg → Greg → Instr) × (Word → Nat → Word))),
      ∀ (s t : State) (c : CoreId) (gd ga gb : Greg), s.Ready c (p.1 c gd ga gb) t →
        exec (p.1 c gd ga gb) s = .next (State.settle (t.updCore c fun x =>
          (x.begun.gwrite gd (p.2 (x.gread ga) gb.toNat)).after 4)))

/-- R35: an instruction with an immediate writes gd and nothing else; LUI writes sext(imm20) << 14. -/
def Obligations.ImmediateWritesResult : Prop :=
  (∀ p ∈ ([(.addi, fun a i => a + i.signExtend 64), (.andi, fun a i => a &&& i.signExtend 64),
      (.ori, fun a i => a ||| i.setWidth 64), (.xori, fun a i => a ^^^ i.signExtend 64),
      (.slti, fun a i => if a.toInt < i.toInt then 1 else 0), (.sltiu, fun a i => if a.toNat < (i.signExtend 64).toNat then 1 else 0)] :
      List ((CoreId → Greg → Greg → BitVec 14 → Instr) × (Word → BitVec 14 → Word))),
    ∀ (s t : State) (c : CoreId) (gd ga : Greg) (imm : BitVec 14), s.Ready c (p.1 c gd ga imm) t →
      exec (p.1 c gd ga imm) s = .next (State.settle (t.updCore c fun x => (x.begun.gwrite gd (p.2 (x.gread ga) imm)).after 4))) ∧
  ∀ (s t : State) (c : CoreId) (gd : Greg) (imm : BitVec 20), s.Ready c (.lui c gd imm) t →
    exec (.lui c gd imm) s = .next (State.settle (t.updCore c fun x => (x.begun.gwrite gd (imm.signExtend 64 <<< 14)).after 4))

/-- R29, R43: what ADD, SUB, AND, OR, XOR and MUL leave unchanged, and gd afterwards, from the state before the fetch: memory, every
other core but for its caches and pending interrupts, every general register but gd, g0, and every control and segment register of the core;
the loop counts where no active loop level ends at the instruction's address (R47). -/
def Obligations.BinaryFrame : Prop :=
  ∀ p ∈ ([(.add, fun a b => a + b), (.sub, fun a b => a - b), (.and, fun a b => a &&& b), (.or, fun a b => a ||| b),
      (.xor, fun a b => a ^^^ b), (.mul, fun a b => a * b)] :
      List ((CoreId → Greg → Greg → Greg → Instr) × (Word → Word → Word))),
    ∀ (s t : State) (c : CoreId) (gd ga gb : Greg), s.Ready c (p.1 c gd ga gb) t →
      ∃ u, exec (p.1 c gd ga gb) s = .next u ∧ (∀ a, u.byte a = s.byte a) ∧ u.poison = s.poison ∧ u.engines = s.engines
        ∧ (∀ e, e ≠ c → (u.core e).arch = (s.core e).arch) ∧ (s.core c).SameBut (u.core c) [gd]
        ∧ (u.core c).raw gd = (if gd = 0 then 0 else p.2 ((s.core c).gread ga) ((s.core c).gread gb))

/-- R36, R192, R193: a scalar floating-point instruction that raises no flag whose trap is enabled writes gd with its result, ORs the
flags it raises into FPFLAGS, and changes nothing else; one that raises an enabled flag takes vector 0x0C with INFO [4:0] the enabled flags
raised and [9:5] all raised, gd and FPFLAGS not written: the state entering the handler is the one its words were fetched in. -/
def Obligations.FpWritesResult : Prop :=
  ∀ p ∈ ([
      (.fadd, fun _ ga gb => [ga, gb], fun d m z _ a b => fpWord (fAdd (fpFmt d) m z (fpVal d a) (fpVal d b))),
      (.fsub, fun _ ga gb => [ga, gb], fun d m z _ a b => fpWord (fAdd (fpFmt d) m z (fpVal d a) (fpVal d b).negate)),
      (.fmul, fun _ ga gb => [ga, gb], fun d m z _ a b => fpWord (fMul (fpFmt d) m z (fpVal d a) (fpVal d b))),
      (.fdiv, fun _ ga gb => [ga, gb], fun d m z _ a b => fpWord (fDiv (fpFmt d) m z (fpVal d a) (fpVal d b))),
      (.fsqrt, fun _ ga _ => [ga], fun d m z _ a _ => fpWord (fSqrt (fpFmt d) m z (fpVal d a))),
      (.fma, fun gd ga gb => [gd, ga, gb], fun d m z g a b => fpWord (fFma (fpFmt d) m z (fpVal d g) (fpVal d a) (fpVal d b))),
      (.fmin, fun _ ga gb => [ga, gb], fun d _ _ _ a b => fpWord (fMaxMin (fpFmt d) false (fpBits d a) (fpBits d b))),
      (.fmax, fun _ ga gb => [ga, gb], fun d _ _ _ a b => fpWord (fMaxMin (fpFmt d) true (fpBits d a) (fpBits d b))),
      (.feq, fun _ ga gb => [ga, gb], fun d _ _ _ a b => let r := fCmp true feqVal (fpVal d a) (fpVal d b); (if r.1 then 1 else 0, r.2)),
      (.flt, fun _ ga gb => [ga, gb], fun d _ _ _ a b => let r := fCmp false fltVal (fpVal d a) (fpVal d b); (if r.1 then 1 else 0, r.2)),
      (.fle, fun _ ga gb => [ga, gb], fun d _ _ _ a b => let r := fCmp false (fun x y => !fltVal y x) (fpVal d a) (fpVal d b); (if r.1 then 1 else 0, r.2)),
      (.fcvtI, fun _ ga _ => [ga], fun d m _ _ a _ => let r := fToInt 64 m (fpVal d a); (BitVec.ofInt 64 r.1, r.2)),
      (.fcvtF, fun _ ga _ => [ga], fun d m z _ a _ => fpWord (fOfInt (fpFmt d) m z a.toInt)),
      (.fcvtP, fun _ ga _ => [ga], fun d m z _ a _ => fpWord (packVal (fpFmt d) m z (fpVal (!d) a)))] :
      List ((CoreId → Greg → Greg → Greg → Bool → Instr) × (Greg → Greg → Greg → List Greg) × (Bool → RMode → Bool → Word → Word → Word → Word × FFlags))),
    ∀ (s t : State) (c : CoreId) (gd ga gb : Greg) (dbl : Bool), s.Ready c (p.1 c gd ga gb dbl) t →
      let x := t.core c
      let r := p.2.2 dbl (fpMode x.fpflags) (fpSat x.fpflags) (x.gread gd) (x.gread ga) (x.gread gb)
      (r.2 &&& fpTraps x.fpflags = 0 → exec (p.1 c gd ga gb dbl) s = .next (State.settle (t.updCore c fun y =>
        Core.after { y.begun.gwrite gd r.1 with fpflags := x.fpflags ||| r.2.setWidth 64 } 4))) ∧
      ∀ u : State, r.2 &&& fpTraps x.fpflags ≠ 0 →
        (t.updCore c Core.undone).except c (p.2.1 gd ga gb) ⟨0x0C, (r.2 &&& fpTraps x.fpflags).toNat + 2 ^ 5 * r.2.toNat, 0⟩ = some u →
        exec (p.1 c gd ga gb dbl) s = .next u.settle

/-! ### Loads, stores, atomics, fences -/

/-- R41, R42, R52: a scalar load whose access succeeds leaves the bytes read, sign- or zero-extended, in gt with a load shadow over it, and
changes no byte of memory, no other core but for its caches and pending interrupts, and of its own core no other general register and no
control, segment, vector or mask register (the loop counts where no active loop level ends at its address).
What a scalar read of plain memory gives (R21, R52, R99, R123): with translation off, an offset within a readable segment, the bytes in
one line of ordinary memory that can be reached, is in service, carries no poison and is no working state of a stream, the line not held
by the data cache and no vector or tile access holding it back, the read answers the bytes of memory and changes caches alone.
The model's own readings and choices in it: log entries 42, 44. -/
def Obligations.LoadsComplete : Prop :=
  (
    (∀ p ∈ ([(.ldb, 1, true), (.ldbu, 1, false), (.ldh, 2, true), (.ldhu, 2, false), (.ldw, 4, true), (.ldwu, 4, false), (.ldd, 8, false)] :
        List ((CoreId → Greg → Greg → Sreg → BitVec 11 → Instr) × Nat × Bool)),
      ∀ (s t u : State) (c : CoreId) (gt ga : Greg) (sg : Sreg) (disp : BitVec 11) (bs : List Byte), s.Ready c (p.1 c gt ga sg disp) t →
        (t.updCore c Core.begun).readData c sg .read ((t.core c).gread ga + disp.signExtend 64) p.2.1 = (.ok bs, u) →
        let w := State.settle ((u.setGLoad c gt (loadValue p.2.2 bs)).updCore c fun x => x.after 4)
        exec (p.1 c gt ga sg disp) s = .next w ∧ w.LoadKeeps s c gt) ∧
    ∀ (s t u : State) (c : CoreId) (gt ga gb : Greg) (sg : Sreg) (ctl : BitVec 5) (bs : List Byte), s.Ready c (.ldx c gt ga gb sg ctl) t → ctl.toNat % 8 ≠ 7 →
      (t.updCore c Core.begun).readData c sg .read ((t.core c).gread ga + ((t.core c).gread gb <<< (ctl.toNat / 8)))
        (2 ^ (ctl.toNat / 2 % 4)) = (.ok bs, u) →
      let w := State.settle ((u.setGLoad c gt (loadValue (ctl.toNat % 2 == 0) bs)).updCore c fun x => x.after 4)
      exec (.ldx c gt ga gb sg ctl) s = .next w ∧ w.LoadKeeps s c gt) ∧
  (
    ∀ (s : State) (c : CoreId) (sg : Sreg) (o : Word) (n : Nat),
      let x := s.core c
      let g := x.sgNow sg.toNat
      let pa := g.base + o.toNat
      bit x.ptb 0 = false → g.null = false → g.readable = true → x.ring ≤ g.ring → o.toNat + n - 1 ≤ g.limit → 0 < n → n ≤ 8 →
      pa % 64 + n ≤ 64 → pa + n ≤ 2 ^ 48 → s.homeCheck (reqOf c) pa = none → (s.decodePA pa).plain = true →
      s.homeBusy (reqOf c) (s.decodePA pa) = false → s.rspDown (reqOf c) pa = false → s.anyPoison pa n = false →
      s.timedOut (reqOf c) pa = none → x.line (pa / 64) = none → s.vecHolds c [⟨pa, n⟩] false = false →
      (pa + n ≤ ksramBase ∨ ksramBase + 64 * s.fld 24 .STM_CFG 0 18 0 ≤ pa) →
      ∃ u, s.readData c sg .read o n = (.ok (s.bytes pa n), u) ∧ s.Keeps u)

/-- R52, R54: a scalar store whose access succeeds has had its effect, the low bytes of gt written at its address, and execution goes
on.
What a scalar store to plain memory does and leaves alone (R52, R54, R55, R82): under the same conditions for a
writable segment, a line outside a protected Skim region and a store buffer that takes the store, the n bytes at the linear address are the bytes stored, every other byte of
memory reads as before, no other core changes but for pending interrupts, and no register of this core: general, control, segment, vector or
mask.
The model's own readings and choices in it: log entries 10, 42. -/
def Obligations.StoresComplete : Prop :=
  (
    (∀ p ∈ ([(.stb, 1), (.sth, 2), (.stw, 4), (.std, 8)] : List ((CoreId → Greg → Greg → Sreg → BitVec 11 → Instr) × Nat)),
      ∀ (s t u : State) (c : CoreId) (gt ga : Greg) (sg : Sreg) (disp : BitVec 11), s.Ready c (p.1 c gt ga sg disp) t →
        (t.updCore c Core.begun).writeData c sg ((t.core c).gread ga + disp.signExtend 64) (toBytes p.2 ((t.core c).gread gt).toNat) = (.ok (), u) →
        (u.core c).slot = none → (u.core c).stepDue = false →
        exec (p.1 c gt ga sg disp) s = .next (State.settle (u.updCore c fun x => x.after 4))) ∧
    ∀ (s t u : State) (c : CoreId) (gt ga gb : Greg) (sg : Sreg) (ctl : BitVec 5), s.Ready c (.stx c gt ga gb sg ctl) t → ctl.toNat % 2 = 0 →
      (t.updCore c Core.begun).writeData c sg ((t.core c).gread ga + ((t.core c).gread gb <<< (ctl.toNat / 8)))
        (toBytes (2 ^ (ctl.toNat / 2 % 4)) ((t.core c).gread gt).toNat) = (.ok (), u) →
      (u.core c).slot = none → (u.core c).stepDue = false →
      exec (.stx c gt ga gb sg ctl) s = .next (State.settle (u.updCore c fun x => x.after 4))) ∧
  (
    ∀ (s : State) (c : CoreId) (sg : Sreg) (o : Word) (bs : List Byte),
      let x := s.core c
      let g := x.sgNow sg.toNat
      let n := bs.length
      let pa := g.base + o.toNat
      bit x.ptb 0 = false → g.null = false → g.writable = true → x.ring ≤ g.ring → o.toNat + n - 1 ≤ g.limit → 0 < n → n ≤ 8 →
      pa % 64 + n ≤ 64 → pa + n ≤ 2 ^ 48 → s.homeCheck (reqOf c) pa = none → (s.decodePA pa).plain = true →
      s.homeBusy (reqOf c) (s.decodePA pa) = false → s.skimProtected pa n = false → s.storeHeld c = false →
      s.vecHolds c [⟨pa, n⟩] true = false →
      ∃ u, s.writeData c sg o bs = (.ok (), u) ∧ u.bytes pa n = bs ∧ (∀ a, a < pa ∨ pa + n ≤ a → u.byte a = s.byte a)
        ∧ (∀ e, e ≠ c → (u.core e).arch = (s.core e).arch) ∧ x.SameBut (u.core c) [] ∧ (u.core c).lsh = x.lsh ∧ (u.core c).slot = x.slot
        ∧ (u.core c).stepDue = x.stepDue ∧ (u.core c).ip = x.ip ∧ u.engines = s.engines)

/-- R58, R107: LD.ACQ whose access is legal and aligned reads at its home, past an invalidated data cache, and writes gt without a
load shadow; ST.REL is performed once every earlier store of its core has been.
R55, R57, R92, R102: the fences and ISYNC with their register fields 0. FENCE.LL and FENCE.FULL invalidate the data cache; FENCE.SS
does not wait, and holds later stores back until the earlier ones are acknowledged; FENCE.FULL, ISYNC and, once every vector, tile and gang
operation of the core is over, FENCE.ENG go on when every earlier store has been acknowledged, and wait otherwise; ISYNC invalidates the
instruction cache and the descriptor cache.
The model's own readings and choices in it: log entries 10, 42. -/
def Obligations.OrderingInstructions : Prop :=
  (
    ∀ (s t u : State) (c : CoreId) (gt ga : Greg) (sg : Sreg) (ctl : BitVec 5) (ps : List Piece), ctl.toNat % 8 = 0 →
      let n := if ctl.getLsbD 3 then 8 else 4
      let o := (t.core c).gread ga
      (∀ (v : State) (bs : List Byte), s.Ready c (.ldAcq c gt ga 0 sg ctl) t → (t.updCore c Core.begun).alignedAccess c sg .read o n = (.ok ps, u) →
        (u.dropCache c).homeLoad c ps = (.ok bs, v) →
        exec (.ldAcq c gt ga 0 sg ctl) s = .next (State.settle (v.updCore c fun x => (x.gwrite gt (loadValue true bs)).after 4))) ∧
      ∀ v : State, s.Ready c (.stRel c gt ga 0 sg ctl) t → (t.updCore c Core.begun).alignedAccess c sg .write o n = (.ok ps, u) →
        u.allAcked c = true →
        (u.acked c).storeBytes c o ps (toBytes n ((u.core c).gread gt).toNat) = (.ok (), v) →
        (v.core c).slot = none → (v.core c).stepDue = false →
        exec (.stRel c gt ga 0 sg ctl) s = .next (State.settle (v.updCore c fun x => x.after 4))) ∧
  (
    ∀ (s t : State) (c : CoreId),
      let b := t.updCore c Core.begun
      (s.Ready c (.fenceLl c 0 0 0) t →
        exec (.fenceLl c 0 0 0) s = .next (State.settle (t.updCore c fun x => Core.after { x.begun with dcache := [] } 4))) ∧
      (s.Ready c (.fenceSs c 0 0 0) t → exec (.fenceSs c 0 0 0) s = .next (State.settle (t.updCore c fun x =>
        let left := x.unacked.filter (t.ackOut c)
        Core.after { x.begun with unacked := left, fenced := left.length } 4))) ∧
      (b.allAcked c = true →
        (s.Ready c (.fenceFull c 0 0 0) t → exec (.fenceFull c 0 0 0) s =
          .next (State.settle (t.updCore c fun x => Core.after { x.begun with dcache := [], unacked := [], fenced := 0 } 4))) ∧
        (s.Ready c (.isync c 0 0 0) t → exec (.isync c 0 0 0) s =
          .next (State.settle (t.updCore c fun x => Core.after { x.begun with unacked := [], fenced := 0, descs := [], icache := [] } 4))) ∧
        (s.Ready c (.fenceEng c 0 0 0) t → b.engQuiet c = true → exec (.fenceEng c 0 0 0) s =
          .next (State.settle (t.updCore c fun x => Core.after { x.begun with unacked := [], fenced := 0 } 4)))) ∧
      (b.allAcked c = false → ∀ i ∈ [Instr.fenceFull c 0 0 0, .isync c 0 0 0, .fenceEng c 0 0 0], s.Ready c i t →
        exec i s = .next (State.settle (t.updCore c Core.undone))))

/-- R59, R60: an atomic whose access is legal and aligned, a releasing one with every earlier store acknowledged, replaces the value at its home by its function of the old value and gb's (CAS: of
gd's as well), and writes the old value, sign-extended from 32 bits for a word, to gd.
R59, R345: what an atomic does at its home where its read succeeds: the n bytes become the function of the old value, and every
other byte reads as before. -/
def Obligations.AtomicsComplete : Prop :=
  (
    ∀ p ∈ ([(.atomSwap, fun _ _ _ b => b), (.atomAdd, fun _ _ old b => old + b), (.atomAnd, fun _ _ old b => old &&& b),
        (.atomOr, fun _ _ old b => old ||| b), (.atomXor, fun _ _ old b => old ^^^ b),
        (.atomSmax, fun _ _ old b => if old.toInt < b.toInt then b else old), (.atomSmin, fun _ _ old b => if b.toInt < old.toInt then b else old),
        (.atomUmax, fun _ _ old b => if old.toNat < b.toNat then b else old), (.atomUmin, fun _ _ old b => if b.toNat < old.toNat then b else old),
        (.cas, fun _ d old b => if old = d then b else old)] :
        List ((CoreId → Greg → Greg → Greg → Sreg → BitVec 2 → Bool → Instr) × ((n : Nat) → BitVec n → BitVec n → BitVec n → BitVec n))),
      ∀ (s t u v : State) (c : CoreId) (gd ga gb : Greg) (sg : Sreg) (ord : BitVec 2) (dw : Bool) (pc : Piece) (old : Nat), s.Ready c (p.1 c gd ga gb sg ord dw) t →
        let n := if dw then 8 else 4
        let x := t.core c
        (t.updCore c Core.begun).alignedAccess c sg .atomic (x.gread ga) n = (.ok [pc], u) →
        (ord.getLsbD 1 = true → u.allAcked c = true) →
        let u1 := if ord.getLsbD 0 then u.dropCache c else u
        let u2 := if ord.getLsbD 1 then u1.acked c else u1
        u2.atomicAt c pc (fun o => (p.2 (8 * n) ((x.gread gd).setWidth (8 * n)) (BitVec.ofNat (8 * n) o) ((x.gread gb).setWidth (8 * n))).toNat)
          = (.ok old, v) →
        exec (p.1 c gd ga gb sg ord dw) s =
          .next (State.settle (v.updCore c fun y => (y.gwrite gd (loadValue true (toBytes n old))).after 4))) ∧
  (
    ∀ (s : State) (c : CoreId) (p : Piece) (f : Nat → Nat), s.homeCheck (reqOf c) p.pa = none → (s.decodePA p.pa).plain = true →
      s.homeBusy (reqOf c) (s.decodePA p.pa) = false → s.rspDown (reqOf c) p.pa = false → s.anyPoison p.pa p.n = false →
      s.timedOut (reqOf c) p.pa = none → s.skimProtected p.pa p.n = false →
      (p.pa + p.n ≤ ksramBase ∨ ksramBase + 64 * s.fld 24 .STM_CFG 0 18 0 ≤ p.pa) →
      ∃ u, s.atomicAt c p f = (.ok (fromBytes (s.bytes p.pa p.n)), u)
        ∧ u.bytes p.pa p.n = toBytes p.n (f (fromBytes (s.bytes p.pa p.n)))
        ∧ ∀ a, a < p.pa ∨ p.pa + p.n ≤ a → u.byte a = s.byte a)

/-! ### Control flow -/

/-- R37, R38: a branch, jump or call outside a delay slot whose address ends no active loop opens its delay slot at A + 4, after which
execution goes on at A + 4 × sext(disp) or, a branch not taken, at A + 8, CALL and CALLR then writing A + 8 to g63.
R38, R104, R105: an instruction in the delay slot of a transfer has its effect, which leaves state u, and retires, and the transfer is then
made: execution goes on at `next`, the link written to g63 after it when there is one; a CALLG stores its record, once nothing holds it back,
and g62, sg0, sg7 and the ring become the gate's; after a RETG g62, sg0, sg7, the ring and IM are those of the caller's record. Stated of
every instruction of a core that goes on after its own work, and of ADDI as exec answers it.
The model's own readings and choices in it: log entries 43, 44. -/
def Obligations.TransfersAndSlots : Prop :=
  (
    ∀ (s t : State) (c : CoreId),
      let x := t.core c
      let opens := fun (i : Instr) (next : Word) (link : Option Word) (reads : List Greg) =>
        s.Fetches c i t → x.slot = none → x.notLoopEnd →
        exec i s = .next (State.settle (t.updCore c fun y => y.begun.opened x (.go next link) reads))
      (∀ p ∈ ([(.beq, fun a b => decide (a = b)), (.bne, fun a b => decide (a ≠ b)), (.blt, fun a b => decide (a.toInt < b.toInt)),
          (.bge, fun a b => decide (b.toInt ≤ a.toInt)), (.bltu, fun a b => decide (a.toNat < b.toNat)),
          (.bgeu, fun a b => decide (b.toNat ≤ a.toNat))] :
          List ((CoreId → Greg → Greg → BitVec 14 → Instr) × (Word → Word → Bool))),
        ∀ (ga gb : Greg) (disp : BitVec 14),
          opens (p.1 c ga gb disp) (if p.2 (x.gread ga) (x.gread gb) then x.ip + (disp.signExtend 64 <<< 2) else x.ip + 8) none [ga, gb]) ∧
      (∀ disp : BitVec 26, opens (.j c disp) (x.ip + (disp.signExtend 64 <<< 2)) none [] ∧
        opens (.call c disp) (x.ip + (disp.signExtend 64 <<< 2)) (some (x.ip + 8)) []) ∧
      ∀ gd ga gb : Greg, opens (.jr c gd ga gb) (x.gread ga &&& ~~~(3 : Word)) none [ga] ∧
        opens (.callr c gd ga gb) (x.gread ga &&& ~~~(3 : Word)) (some (x.ip + 8)) [ga]) ∧
  (
    (∀ (s t u : State) (c : CoreId) (i : Insn) (body : State → Body) (sl : Slot), s.FetchesWords c (i.word, i.word2) t →
      (t.core c).slot = some sl → i.early (t.core c) = none → body (t.updCore c Core.begun) = .next u → (u.core c).slot = some sl →
      (u.core c).stepDue = false → u.slotHeld c = false →
      let y := (u.core c).slotRetired
      match sl.act with
      | .go next none => runInsn c i body s = .next (State.settle (u.setCore c { y with ip := next }))
      | .go next (some v) => runInsn c i body s = .next (State.settle (u.setCore c { y.gwrite 63 v with ip := next }))
      | .callg parts record rec next cs ss ring =>
        runInsn c i body s = .next (State.settle (((u.setCore c y).postStore c 2 rec parts (bytesOf record)).updCore c fun z =>
          let z := ((z.setSg 7 ss).gwrite 62 rec).setSg 0 cs
          { z with status := setBits z.status 1 0 ring, ip := next, msh := none }))
      | .retg next g62 cs ss ring im => runInsn c i body s = .next (State.settle (u.setCore c
          (let z := ((y.setSg 0 cs).setSg 7 ss).gwrite 62 g62
           { z with status := setBits (setBits z.status 1 0 ring) 2 2 (b2n im), ip := next, msh := none })))) ∧
    ∀ (s t : State) (c : CoreId) (gd ga : Greg) (imm : BitVec 14) (sl : Slot), s.Fetches c (.addi c gd ga imm) t →
      (t.core c).slot = some sl → (t.core c).ss = false → (t.core c).stepDue = false → (t.core c).notLoopEnd → t.slotHeld c = false →
      let y := ((t.core c).begun.gwrite gd ((t.core c).gread ga + imm.signExtend 64)).slotRetired
      match sl.act with
      | .go next none => exec (.addi c gd ga imm) s = .next (State.settle (t.setCore c { y with ip := next }))
      | .go next (some v) => exec (.addi c gd ga imm) s = .next (State.settle (t.setCore c { y.gwrite 63 v with ip := next }))
      | .callg parts record rec next cs ss ring =>
        let u := (t.setCore c y).postStore c 2 rec parts (bytesOf record)
        exec (.addi c gd ga imm) s = .next (State.settle (u.updCore c fun z =>
          let z := ((z.setSg 7 ss).gwrite 62 rec).setSg 0 cs
          { z with status := setBits z.status 1 0 ring, ip := next, msh := none }))
      | .retg next g62 cs ss ring im =>
        exec (.addi c gd ga imm) s = .next (State.settle (t.setCore c
          (let z := ((y.setSg 0 cs).setSg 7 ss).gwrite 62 g62
           { z with status := setBits (setBits z.status 1 0 ring) 2 2 (b2n im), ip := next, msh := none }))))

/-- R39: a control transfer in a delay slot, a branch, J, CALL, JR, CALLR, LOOP, CALLG, RETG, RETX or WFI, raises 0x01, with the word in INFO.
R63: MOVC.W of a control register that the ring may not write raises 0x02; of an undefined one, 0x01.
R106, R113: BRK takes vector 0x10 with its code in INFO. -/
def Obligations.ExceptionsTaken : Prop :=
  (
    ∀ (s t u : State) (c : CoreId) (g gd ga gb : Greg) (d14 : BitVec 14) (d26 : BitVec 26) (n : BitVec 2) (d18 : BitVec 18) (code : BitVec 12),
      (t.core c).slot.isSome = true →
      ∀ p ∈ ([(.beq c ga gb d14, [ga, gb], wordB 0x22 ga gb d14), (.bne c ga gb d14, [ga, gb], wordB 0x23 ga gb d14),
          (.blt c ga gb d14, [ga, gb], wordB 0x24 ga gb d14), (.bge c ga gb d14, [ga, gb], wordB 0x25 ga gb d14),
          (.bltu c ga gb d14, [ga, gb], wordB 0x26 ga gb d14), (.bgeu c ga gb d14, [ga, gb], wordB 0x27 ga gb d14),
          (.j c d26, [], wordJ 0x28 d26), (.call c d26, [], wordJ 0x29 d26), (.jr c gd ga gb, [ga], wordA 0x2A gd ga gb 0),
          (.callr c gd ga gb, [ga], wordA 0x2A gd ga gb 1), (.loop c n ga d18, [ga], wordL 0x2B n ga d18),
          (.callg c g code, [62], wordS g code 0x04), (.retg c g code, [62], wordS g code 0x05), (.retx c g code, [62], wordS g code 0x06),
          (.wfi c g code, [], wordS g code 0x08)] : List (Instr × List Greg × Nat)),
        s.Fetches c p.1 t → t.except c p.2.1 ⟨0x01, p.2.2, 0⟩ = some u → exec p.1 s = .next u.settle) ∧
  (
    ∀ (s t u : State) (c : CoreId) (g : Greg) (creg : BitVec 12), s.Fetches c (.movcW c g creg) t →
      (∀ r, cregRings (isSystem c) creg.toNat = some r → r.2 < (t.core c).ring →
        t.except c [g] ⟨0x02, wordS g creg 0x01, 0⟩ = some u → exec (.movcW c g creg) s = .next u.settle) ∧
      (cregRings (isSystem c) creg.toNat = none →
        t.except c [g] ⟨0x01, wordS g creg 0x01, 0⟩ = some u → exec (.movcW c g creg) s = .next u.settle)) ∧
  (
    ∀ (s t u : State) (c : CoreId) (g : Greg) (code : BitVec 12), s.Fetches c (.brk c g code) t → (t.core c).slot = none ∨ (t.core c).notLoopEnd →
      (t.updCore c Core.undone).except c [] ⟨0x10, code.toNat, 0⟩ = some u → exec (.brk c g code) s = .next u.settle)

/-- R46: LOOP n with n ≤ 2 and a displacement other than 0 sets LSn = A + 4, LEn = A + 4 × disp18, LCn = gc and STATUS.LP, and goes on at
the body, or after it for a count of 0; n = 3, a displacement of 0 and LOOP in a delay slot raise 0x01. -/
def Obligations.LoopSetsLevel : Prop :=
  (∀ (s t : State) (c : CoreId) (n : BitVec 2) (gc : Greg) (disp : BitVec 18), s.Ready c (.loop c n gc disp) t → (t.core c).notLoopEnd → n ≠ 3 → disp ≠ 0 →
    let x := t.core c
    let last := x.ip + (disp.setWidth 64 <<< 2)
    let count := x.gread gc
    exec (.loop c n gc disp) s = .next (State.settle (t.updCore c fun y =>
      { (Core.advance ((y.begun.setLoop n.toNat (x.ip + 4) last count).ageShadows) (if count = 0 then last + 4 else x.ip + 4)) with
        entered := false, oldMode := none }))) ∧
  ∀ (s t u : State) (c : CoreId) (n : BitVec 2) (gc : Greg) (disp : BitVec 18), s.Fetches c (.loop c n gc disp) t →
    (t.core c).slot.isSome = true ∨ n = 3 ∨ disp = 0 → t.except c [gc] ⟨0x01, wordL 0x2B n gc disp, 0⟩ = some u →
    exec (.loop c n gc disp) s = .next u.settle

/-! ### Control registers, segments, gates, exceptions -/

/-- R62, R63: MOVC.R of a defined control register that the ring may read writes its value to g; MOVC.W of one that the ring may write
writes it, once nothing it waits for is left (cregWaits: FPFLAGS for vector floating point, a read of VL for a VLDFF, TCFG for operations on
its tile; mchkNow: TCFG for the notification of their errors, where the core may take it).
R97: MOVSG whose checks pass loads segment register [10:8], opening a mode shadow for sg0; MOVSG.R reads a selector.
The model's own readings and choices in it: log entries 45, 48. -/
def Obligations.ControlAndSegmentMoves : Prop :=
  (
    ∀ (s t : State) (c : CoreId) (g : Greg) (creg : BitVec 12) (r : Nat × Nat), cregRings (isSystem c) creg.toNat = some r →
      let write := fun (i : Instr) (n : Nat) => s.Ready c i t → (t.core c).begun.cregWaits n true = false → exec i s = .next (State.settle
        (if 0x020 ≤ n ∧ n < 0x028 then
          let k := (t.updCore c Core.begun).mchkNow c
          if k.1 then k.2.updCore c fun x => { x with msh := (t.core c).msh, oldMode := none }
          else (k.2.writeTcfg c (n - 0x020) ((t.core c).gread g)).updCore c fun x => x.after 4
        else t.updCore c fun x => (x.begun.writeCreg n (x.gread g)).after 4))
      (s.Ready c (.movcR c g creg) t → (t.core c).ring ≤ r.1 → (t.core c).begun.cregWaits creg.toNat false = false →
        exec (.movcR c g creg) s = .next (State.settle (t.updCore c fun x => (x.begun.gwrite g (x.begun.readCreg creg.toNat)).after 4))) ∧
      ((t.core c).ring ≤ r.2 →
        write (.movcW c g creg) creg.toNat ∧ write (.tableBaseWrite c g creg) creg.toNat ∧ write (.loopRegWrite c g creg) creg.toNat ∧
        write (.tcfgWrite c g creg) creg.toNat ∧
        (creg = 0x000 → write (.statusWrite c g) 0x000) ∧ (creg = 0x013 → write (.ptbWrite c g) 0x013) ∧
        (creg = 0x030 → write (.vlWrite c g) 0x030) ∧ (creg = 0x031 → write (.vtypeWrite c g) 0x031) ∧
        (creg = 0x032 → write (.fpflagsWrite c g) 0x032))) ∧
  (
    ∀ (s t : State) (c : CoreId) (g : Greg) (code : BitVec 12),
      (∀ (u : State) (sg : SegReg), s.Ready c (.movsg c g code) t → (t.updCore c Core.begun).segLoad c (bits code 10 8) ((t.core c).gread g) (t.core c).ring = (.ok sg, u) →
        (u.core c).slot = none → (u.core c).stepDue = false →
        exec (.movsg c g code) s = .next (State.settle (u.updCore c fun x => Core.after
          { x.setSg (bits code 10 8) sg with msh := if bits code 10 8 = 0 then some { sg0 := x.sgOf 0, im := x.im } else none } 4))) ∧
      (s.Ready c (.movsgR c g code) t → exec (.movsgR c g code) s = .next (State.settle (t.updCore c fun x =>
        (x.begun.gwrite g ((x.sgOf (bits code 10 8)).sel.setWidth 64)).after 4))))

/-- R105: RETG reads its record of 32 bytes at g62 through sg7; where the ring in it is not more privileged and its segments load, the
delay slot opens, after which (TransfersAndSlots' clause of R105) ring, IM, sg0, sg7, g62 and the pc are the caller's.
R103, R104: CALLG through a present gate that the ring may use, into the same or a more privileged ring, whose segments load and whose
record can be stored, opens its delay slot: the record of return offset, g62, selectors, ring and IM is stored when the slot completes
(TransfersAndSlots), on the gate's stack for an inner ring.
The model's own readings and choices in it: log entries 43, 46, 47. -/
def Obligations.GatesOpenSlot : Prop :=
  (
    ∀ (s t : State) (c : CoreId) (g : Greg) (code : BitVec 12) (ws : List Word) (cs ss : SegReg), s.Fetches c (.retg c g code) t →
      (t.core c).slot = none → (t.core c).notLoopEnd →
      let x := t.core c
      let ring := bits (ws.getD 3 0) 1 0
      let u := (t.updCore c Core.begun).readStack c (x.gread 62) 4
      let v := u.2.segLoad c 0 (BitVec.ofNat 64 (bits (ws.getD 2 0) 15 0)) ring
      let w := v.2.segLoad c 7 (BitVec.ofNat 64 (bits (ws.getD 2 0) 31 16)) ring
      u.1 = some (.ok ws) → x.ring ≤ ring → v.1 = .ok cs → w.1 = .ok ss →
      exec (.retg c g code) s = .next (State.settle (w.2.updCore c fun y =>
        y.opened x (.retg (ws.getD 0 0 &&& ~~~(3 : Word)) (ws.getD 1 0) cs ss ring (bit (ws.getD 3 0) 2)) [62]))) ∧
  (
    ∀ (s t : State) (c : CoreId) (g : Greg) (code : BitVec 12) (d0 d1 d2 d3 : Word) (cs ss : SegReg) (ps : List Piece),
      s.Fetches c (.callg c g code) t → (t.core c).slot = none → (t.core c).notLoopEnd →
      let x := t.core c
      let ring := bits d2 33 32
      let d := (t.updCore c Core.begun).descriptor c 1 code.toNat (bits x.gtb 47 17 * 2 ^ 17 + 32 * code.toNat) 4
      let u := d.2.segLoad c 0 (BitVec.ofNat 64 (bits d2 15 0)) ring
      let v := if ring < x.ring then u.2.segLoad c 7 (BitVec.ofNat 64 (bits d2 31 16)) ring else (.ok (x.sgOf 7), u.2)
      let rec_ := ((if ring < x.ring then BitVec.ofNat 64 (bits d1 51 0) else x.gread 62) - 32) &&& ~~~(0x1F : Word)
      let w := v.2.storable c ss 7 ring rec_ 32
      code.toNat < min (bits x.gtb 12 0) 4096 → d.1 = .ok [d0, d1, d2, d3] → bit d2 36 = true → x.ring ≤ bits d2 35 34 → ring ≤ x.ring →
      u.1 = .ok cs → v.1 = .ok ss → w.1 = some (.ok ps) →
      exec (.callg c g code) s = .next (State.settle (w.2.updCore c fun y => y.opened x
        (.callg ps [x.ip + 8, x.gread 62, BitVec.ofNat 64 ((x.sgOf 0).sel.toNat + 2 ^ 16 * (x.sgOf 7).sel.toNat),
          BitVec.ofNat 64 (x.ring + 4 * b2n x.im)] rec_ (d0 &&& 0xFFFFFFFFFFFFC) cs ss ring) [62])))

/-- R116–R118: RETX of a frame whose ring is not more privileged and whose segments load restores the mode, g62, the shadow and the pc from
the frame, with a mode shadow under the frame's SSG0 where MSH = 1; or, where R118 chains to a pending event, enters its handler on the
same frame.
R113, R114, R121: what entering a handler does once its checks have passed: the frame of context, status, EXINFO, EADDR, shadow
value, g62 and selectors is stored at f, so that where its parts lie in ordinary memory they hold its 64 bytes and every other byte reads as
before, g62 is f, the copies in EPC, ESTATUS, EXINFO and EADDR are those of the frame, the ring and IM
are the descriptor's, STATUS.LP and SS are 0, and the pc is the handler's offset.
The model's own readings and choices in it: log entry 47. -/
def Obligations.HandlersEnteredAndLeft : Prop :=
  (
    ∀ (s t : State) (c : CoreId) (g : Greg) (code : BitVec 12) (ws : List Word) (cs old ss : SegReg), s.Ready c (.retx c g code) t →
      (t.core c).notLoopEnd →
      let x := t.core c
      let es := ws.getD 1 0
      let w6 := ws.getD 6 0
      let ring := bits es 1 0
      let r := (t.updCore c Core.begun).readStack c (x.gread 62) 8
      let u := r.2.segLoad c 0 (BitVec.ofNat 64 (bits w6 15 0)) ring
      let v := if bit es 5 then u.2.segLoad c 0 (BitVec.ofNat 64 (bits w6 47 32)) ring else (.ok cs, u.2)
      let w := v.2.segLoad c 7 (BitVec.ofNat 64 (bits w6 31 16)) ring
      let k := w.2.tryChain c (x.gread 62) ws
      r.1 = some (.ok ws) → x.ring ≤ ring → u.1 = .ok cs → v.1 = .ok old → w.1 = .ok ss →
      (k.1 = some none → (k.2.core c).stepDue = false →
        exec (.retx c g code) s = .next (State.settle (k.2.updCore c fun y =>
          (y.returned ws cs ss (if bit es 5 then some old else none)).ended))) ∧
      (∀ z : State, k.1 = some (some z) → (z.core c).stepDue = false →
        exec (.retx c g code) s = .next (State.settle (z.updCore c Core.ended))) ∧
      ((bit es 2 = true ∨ x.hdtbSet = false) → (w.2.core c).hdtbSet = x.hdtbSet → k = (some none, w.2))) ∧
  (
    ∀ (s : State) (c : CoreId) (k : Ctx) (e : Entry) (d0 d2 : Word) (cs ss : SegReg) (f : Word) (parts : List Piece),
      let x := s.core c
      let fr := x.frame k e
      let y := (s.enterAt c k e d0 d2 cs ss f parts).core c
      fr.length = 8 ∧ fr.getD 0 0 = k.epc ∧ fr.getD 1 0 = x.saveStatus k ∧ fr.getD 2 0 = e.word ∧ fr.getD 3 0 = e.eaddr ∧ fr.getD 5 0 = x.raw 62 ∧
      fr.getD 4 0 = (match k.shadow with | some h => h.old | none => 0) ∧
      fr.getD 6 0 = BitVec.ofNat 64 ((x.sgOf 0).sel.toNat + 2 ^ 16 * (x.sgOf 7).sel.toNat
        + 2 ^ 32 * (match k.msh with | some m => m.sg0.sel | none => (x.sgOf 0).sel).toNat) ∧ fr.getD 7 0 = 0 ∧
      (parts.all (fun p => (s.decodePA p.pa).plain) = true → (parts.map (·.n)).sum = 64 → parts.Pairwise (fun p q => p.overlaps q = false) →
        parts.flatMap (fun p => (s.enterAt c k e d0 d2 cs ss f parts).bytes p.pa p.n) = bytesOf fr ∧
        ∀ a, (∀ p ∈ parts, a < p.pa ∨ p.pa + p.n ≤ a) → (s.enterAt c k e d0 d2 cs ss f parts).byte a = s.byte a) ∧
      y.epc = k.epc ∧ y.estatus = x.saveStatus k ∧ y.exinfo = e.word ∧ y.eaddr = e.eaddr ∧ y.raw 62 = f ∧ y.ip = d0 &&& 0xFFFFFFFFFFFFC ∧
      y.sgOf 0 = cs ∧ y.sgOf 7 = ss ∧ y.ring = bits d2 33 32 ∧ y.im = bit d2 38 ∧ y.lp = false ∧ y.ss = false ∧ y.lsh = [] ∧
      y.slot = none ∧ y.msh = none)

/-- R62: WFI at ring 0 or 1 goes on when an event is pending, and else waits in place.
R15, R28, R111, R112: the oldest interrupt on its way between two dies whose route is up becomes pending at its core once; EVENT_ACCEPT at a core that waits for nothing, with its events
enabled, enters the handler of the first event its ring may take, which is then no longer pending.
The model's own readings and choices in it: log entry 46. -/
def Obligations.InterruptsArrive : Prop :=
  (
    ∀ (s t : State) (c : CoreId) (g : Greg) (code : BitVec 12), s.Ready c (.wfi c g code) t → (t.core c).ring ≤ 1 →
      ((t.core c).eventPending = true →
        exec (.wfi c g code) s = .next (State.settle (t.updCore c fun x => x.begun.after 4))) ∧
      ((t.core c).eventPending = false →
        exec (.wfi c g code) s = .next (State.settle (t.updCore c fun x => { x.undone with wfi := true })))) ∧
  (
    (∀ (s : State) (c : CoreId) (vec : Vec8) (die : Die),
      s.flight.find? (fun f => f.die == die.val && f.core / 4 == c.val / 4) = some { core := c.val, vec := vec.toNat, die := die.val } →
      s.stopped = false → s.downOn die.val (dieOf c).val false = none → s.pathBusy die.val (dieOf c).val = false → ((s.core c).irq.find? fun p => p.vec == vec.toNat) = none →
      exec (.interruptDelivery c vec die) s = .next (State.settle
        ((({ s with flight := s.flight.erase { core := c.val, vec := vec.toNat, die := die.val } } : State).updCore c fun x =>
          { x with irq := x.irq ++ [({ vec := vec.toNat, die := die.val } : IrqPend)] }).packet die.val (dieOf c).val false))) ∧
    ∀ (s t u : State) (c : CoreId) (e : Event) (ws : List Word), s.runs c = true → (s.core c).wfi = false → (s.core c).hdtbSet = true →
      (s.core c).im = false → (s.core c).entered = false → (s.core c).issued = false → (s.core c).pass = none →
      (s.core c).boundary = true →
      s.chooseEvent c (s.core c).ring (s.core c).events = (some (some (e, ws)), t) →
      State.enter ((t.orphanDrds (.core c.val)).setCore c { t.core c with
        pass := none, tstart := (s.core c).tstart, slot := none, mchk := e.taken.mchk, prewarn := e.taken.prewarn, irq := e.taken.irq })
        c { epc := (s.core c).ip, shadow := (s.core c).lsh.head? } e.entry = some u →
      exec (.eventAccept c) s = .next (State.settle (u.mxeSync (dieOf c).val)))

/-! ### The vector unit -/

/-- R148, R150, R151, R153: an instruction of the arithmetic pipe whose fields are legal, at a core with room in its vector unit and no
trap enabled, retires into the unit with VTYPE, VL, FPFLAGS and its general registers as they stand; with VL = 0 it does nothing.
The model's own readings and choices in it: log entry 50. -/
def Obligations.VectorArithmeticRetires : Prop :=
  let claim := fun (p : (CoreId → VFields → Instr) × VOp) =>
    ∀ (s t : State) (c : CoreId) (f : VFields), s.Ready c (p.1 c f) t → (t.core c).notLoopEnd → vLegal p.2 f (t.core c) = true →
      ((t.core c).vl = 0 → exec (p.1 c f) s = .next (State.settle (t.updCore c fun x => x.begun.after 8))) ∧
      ((t.core c).vl ≠ 0 → (p.2.fp = true → fpTraps (t.core c).fpflags = 0) → (t.core c).vq.length < 16 →
        exec (p.1 c f) s = .next (State.settle (t.updCore c fun x => Core.after { x.begun with
          vq := x.vq ++ [{ op := p.2, f, vtype := x.vtype, vl := x.vl.toNat, fpflags := x.fpflags, xa := x.gread f.ga, xb := x.gread f.gb }] } 8)))
  (∀ p ∈ ([(.vadd, .add), (.vsub, .sub), (.vrsub, .rsub), (.vand, .and), (.vor, .or), (.vxor, .xor), (.vsll, .sll), (.vsrl, .srl),
      (.vsra, .sra), (.vmin, .min), (.vmax, .max), (.vminu, .minu), (.vmaxu, .maxu), (.vmul, .mul), (.vmulh, .mulh), (.vmulhu, .mulhu),
      (.vmacc, .macc), (.vsadd, .sadd), (.vsaddu, .saddu), (.vssub, .ssub), (.vssubu, .ssubu), (.vmerge, .merge), (.vmv, .mv),
      (.vfadd, .fadd), (.vfsub, .fsub), (.vfmul, .fmul), (.vfdiv, .fdiv), (.vfsqrt, .fsqrt), (.vfma, .fma), (.vfnma, .fnma),
      (.vfmin, .fmin), (.vfmax, .fmax), (.vfabs, .fabs), (.vfneg, .fneg), (.vfcvtI, .fcvtI), (.vfcvtF, .fcvtF), (.vfcvtW, .fcvtW),
      (.vfcvtN, .fcvtN)] :
      List ((CoreId → VFields → Instr) × VOp)), claim p) ∧
  ∀ p ∈ ([(.vwmul, .wmul), (.vwmulu, .wmulu), (.vwmulsu, .wmulsu), (.vwmacc, .wmacc), (.vwmaccu, .wmaccu), (.vwmaccsu, .wmaccsu),
      (.vfwmul, .fwmul), (.vfwma, .fwma), (.vdot4, .dot4), (.vdot4u, .dot4u), (.vdot4su, .dot4su), (.vfdot4, .fdot4), (.vdot2, .dot2),
      (.vdot2u, .dot2u), (.vfdot2, .fdot2), (.vcmpeq, .cmpeq), (.vcmpne, .cmpne), (.vcmplt, .cmplt), (.vcmpltu, .cmpltu),
      (.vcmple, .cmple), (.vcmpleu, .cmpleu), (.vcmpgt, .cmpgt), (.vcmpgtu, .cmpgtu), (.vfcmpeq, .fcmpeq), (.vfcmplt, .fcmplt),
      (.vfcmple, .fcmple), (.vfcmpun, .fcmpun), (.mand, .mand), (.mor, .mor), (.mxor, .mxor), (.mandn, .mandn), (.mnot, .mnot),
      (.mset, .mset), (.vput, .put), (.vslideup, .slideup), (.vslidedn, .slidedn), (.vperm, .perm), (.vredsum, .redsum),
      (.vredmax, .redmax), (.vredmin, .redmin), (.vredmaxu, .redmaxu), (.vredminu, .redminu), (.vfredsum, .fredsum),
      (.vfredmax, .fredmax), (.vfredmin, .fredmin)] :
      List ((CoreId → VFields → Instr) × VOp)), claim p

/-- R151: VECTOR_COMPLETE at a core whose oldest instruction is an arithmetic one takes it out of the unit and gives it its effect on the
core; a load whose every element is answered is placed, a store whose homes are free is performed; and a delay slot whose instruction
waited for the unit goes on.
R144, R149, R156: what an integer task does to its group when it completes, for elements of whole bytes: an active element of vd is the
instruction's result on the old elements of vd and va and the operand x, an inactive one is 0 with Z and else kept, elements at and above
VL keep their value; and the result r of every integer instruction at the width w from operands below 2 ^ w, A and B their signed values,
is the one of R156's table, itself below 2 ^ w.
R144, R149, R157–R163, R192: what the other arithmetic tasks do when they complete, from the registers they find: the elementwise
floating-point instructions, the conversions, the widening instructions, the dot products, VSLIDEDN and VPERM write element by element
(the dot products lane by lane) under the mask, Z and the tail, the compares likewise bit by bit into a mask; VSLIDEUP leaves the elements
below its shift, VMERGE chooses by its mask, VPUT writes one element, the mask operations write the bits below VL, and the reductions write
element 0 alone; FPFLAGS accrues the task's flags; no other byte, mask bit or register of the core changes.
The model's own readings and choices in it: log entries 51, 52. -/
def Obligations.VectorCompletes : Prop :=
  (
    ∀ (s : State) (c : CoreId) (k : VTask) (rest : List VTask), s.stopped = false → (s.core c).vq = k :: rest → k.q = none →
      (k.op ∉ ([.ld, .lds, .ldx, .ldff, .ldm, .ldr, .ldmr, .st, .sts, .stx, .stm, .str, .stmr, .tvmov, .vtmov] : List VOp) →
        exec (.vectorComplete c) s = .next (State.settle (State.slotGoesOn (s.updCore c fun x => k.arith { x with vq := rest }) c))) ∧
      (k.op ∈ ([.ld, .lds, .ldx, .ldff, .ldm, .ldr, .ldmr] : List VOp) →
        ∀ (k2 : VTask) (u : State), s.vecLoads c k k.acc = (k2, u) → k2.acc = [] →
        exec (.vectorComplete c) s =
          .next (State.settle (((u.updCore c fun x => k.zeroInactive { x with vq := rest }).lateError c 3 k2.late).slotGoesOn c))) ∧
      (k.op ∈ ([.st, .sts, .stx, .stm, .str, .stmr] : List VOp) → s.storesReady (reqOf c) k.acc = true →
        exec (.vectorComplete c) s = .next (State.settle (((s.vecStores c k).updCore c fun x => { x with vq := rest }).slotGoesOn c)))) ∧
  (
    let ops : List VOp := [.add, .sub, .rsub, .and, .or, .xor, .sll, .srl, .sra, .min, .max, .minu, .maxu, .mul, .mulh, .mulhu, .macc, .sadd,
      .saddu, .ssub, .ssubu, .mv]
    (∀ (k : VTask) (x : Core), k.op ∈ ops → (k.sew = 8 ∨ k.sew = 16 ∨ k.sew = 32 ∨ k.sew = 64) → ∀ i,
        let v := (k.arith x).velem k.sew k.f.vd.toNat i
        let old := x.velem k.sew k.f.vd.toNat i
        (k.len ≤ i → v = old) ∧
        (i < k.len → k.active x i = true → v = vIntRes k.op k.sew old (k.a x i) (k.b x i)) ∧
        (i < k.len → k.active x i = false → v = if k.f.z then 0 else old)) ∧
    ∀ w d a b : Nat, 0 < w → d < 2 ^ w → a < 2 ^ w → b < 2 ^ w →
      let r := fun op => vIntRes op w d a b
      let R := fun op => sintOf w (r op)
      let A := sintOf w a
      let B := sintOf w b
      let clamp := fun v : Int => max (-2 ^ (w - 1)) (min v (2 ^ (w - 1) - 1))
      (∀ op ∈ ops, r op < 2 ^ w) ∧
      r .add = (a + b) % 2 ^ w ∧ r .sub = (a + 2 ^ w - b) % 2 ^ w ∧ r .rsub = (b + 2 ^ w - a) % 2 ^ w ∧
      r .and = a &&& b ∧ r .or = a ||| b ∧ r .xor = a ^^^ b ∧
      r .sll = (a <<< (b % w)) % 2 ^ w ∧ r .srl = a >>> (b % w) ∧ R .sra = A / 2 ^ (b % w) ∧
      R .min = min A B ∧ R .max = max A B ∧ r .minu = min a b ∧ r .maxu = max a b ∧
      r .mul = (a * b) % 2 ^ w ∧ R .mulh = A * B / 2 ^ w ∧ r .mulhu = a * b / 2 ^ w ∧ r .macc = (d + a * b) % 2 ^ w ∧
      R .sadd = clamp (A + B) ∧ r .saddu = min (2 ^ w - 1) (a + b) ∧ R .ssub = clamp (A - B) ∧ r .ssubu = a - b ∧ r .mv = b) ∧
  (
    ∀ (k : VTask) (x : Core), (k.sew = 4 ∨ k.sew = 8 ∨ k.sew = 16 ∨ k.sew = 32 ∨ k.sew = 64) → k.len ≤ 32768 →
      let r := k.elems x
      let y := k.arith x
      let w := k.sew
      let vd := k.f.vd.toNat
      let shift := if k.f.form = 1 then k.xb.toNat else k.f.imm.toNat
      let m := fpMode k.fpflags
      let sat := fpSat k.fpflags
      let masks : List VOp := [.cmpeq, .cmpne, .cmplt, .cmpltu, .cmple, .cmpleu, .cmpgt, .cmpgtu, .fcmpeq, .fcmplt, .fcmple, .fcmpun,
        .mand, .mor, .mxor, .mandn, .mnot, .mset]
      let reds : List VOp := [.redsum, .redmax, .redmin, .redmaxu, .redminu, .fredsum, .fredmax, .fredmin]
      let act := (List.range k.len).filter (k.active x)
      y = { x with vreg := y.vreg, mreg := y.mreg, fpflags := fpAccrue x.fpflags (k.flags x) } ∧
      (k.op ∈ masks → y.vreg = x.vreg ∧ ∀ j i, j ≠ vd ∨ k.len ≤ i → i < 32768 → vd < 8 → j < 8 → y.mbit j i = x.mbit j i) ∧
      (k.op ∉ masks → y.mreg = x.mreg ∧
        ∀ j, j < 2048 * vd ∨ 2048 * vd + (r.w * max 1 r.n + 7) / 8 ≤ j → y.vbytes 0 j 1 = x.vbytes 0 j 1) ∧
      (k.op ∈ ([.fadd, .fsub, .fmul, .fdiv, .fsqrt, .fma, .fnma, .fmin, .fmax, .fabs, .fneg, .fcvtI, .fcvtF, .fcvtW, .fcvtN, .fwmul, .fwma,
          .wmul, .wmulu, .wmulsu, .wmacc, .wmaccu, .wmaccsu, .dot4, .dot4u, .dot4su, .fdot4, .dot2, .dot2u, .fdot2, .slideup, .slidedn,
          .perm] : List VOp) → ∀ i,
        let v := y.velem r.w vd i
        let old := x.velem r.w vd i
        let kept := r.n ≤ i ∨ (k.op = .slideup ∧ i < shift)
        (kept → v = old) ∧ (¬ kept → k.active x i = true → v = (r.val i).1 % 2 ^ r.w) ∧
        (¬ kept → k.active x i = false → v = if k.f.z then 0 else old)) ∧
      (∀ i < k.len,
        (k.op ∈ ([.cmpeq, .cmpne, .cmplt, .cmpltu, .cmple, .cmpleu, .cmpgt, .cmpgtu] : List VOp) →
          y.mbit vd i = if k.active x i then vCmpRes k.op w (k.a x i) (k.b x i) else if k.f.z then false else x.mbit vd i) ∧
        (k.op ∈ ([.fcmpeq, .fcmplt, .fcmple, .fcmpun] : List VOp) →
          y.mbit vd i = if k.active x i then (vFcmpRes k.op k.fmt (k.a x i) (k.b x i)).1 else if k.f.z then false else x.mbit vd i)) ∧
      (∀ i < k.len,
        let a := x.mbit k.f.va.toNat i
        let b := x.mbit k.f.vb.toNat i
        (k.op = .mand → y.mbit vd i = (a && b)) ∧ (k.op = .mor → y.mbit vd i = (a || b)) ∧ (k.op = .mxor → y.mbit vd i = (a ^^ b)) ∧
        (k.op = .mandn → y.mbit vd i = (a && !b)) ∧ (k.op = .mnot → y.mbit vd i = !a) ∧ (k.op = .mset → y.mbit vd i = true)) ∧
      (∀ i, (k.op = .merge → y.velem w vd i = if i < k.len then (if x.mbit k.f.mkr.toNat i then k.b x i else k.a x i) else x.velem w vd i) ∧
        (k.op = .put → y.velem w vd i = if i = k.xb.toNat ∧ i < k.len then
          (if k.active x i then k.xa.toNat % 2 ^ w else if k.f.z then 0 else x.velem w vd i) else x.velem w vd i) ∧
        (k.op ∈ reds → y.velem w vd i = if i = 0 then (k.reduce x).1 % 2 ^ w else x.velem w vd i)) ∧
      (k.op = .redsum → (k.reduce x).1 % 2 ^ w = (k.b x 0 + (act.map (k.a x)).sum) % 2 ^ w) ∧
      (k.op = .redmaxu → (k.reduce x).1 = (act.map (k.a x)).foldl max (k.b x 0)) ∧
      (k.op = .redminu → (k.reduce x).1 = (act.map (k.a x)).foldl min (k.b x 0)) ∧
      (k.op = .redmax → sintOf w (k.reduce x).1 = (act.map fun i => sintOf w (k.a x i)).foldl max (sintOf w (k.b x 0))) ∧
      (k.op = .redmin → sintOf w (k.reduce x).1 = (act.map fun i => sintOf w (k.a x i)).foldl min (sintOf w (k.b x 0))) ∧
      ∀ i,
        let a := unpack k.fmt (k.a x i)
        let b := unpack k.fmt (k.b x i)
        let d := unpack k.fmt (x.velem w vd i)
        (k.op = .fadd → r.val i = fAdd k.fmt m sat a b) ∧ (k.op = .fsub → r.val i = fAdd k.fmt m sat a b.negate) ∧
        (k.op = .fmul → r.val i = fMul k.fmt m sat a b) ∧ (k.op = .fdiv → r.val i = fDiv k.fmt m sat a b) ∧
        (k.op = .fsqrt → r.val i = fSqrt k.fmt m sat a) ∧ (k.op = .fma → r.val i = fFma k.fmt m sat d a b) ∧
        (k.op = .fnma → r.val i = fFma k.fmt m sat d a.negate b) ∧
        (k.op = .fwmul → r.val i = fMul k.wide m sat a b) ∧
        (k.op = .fwma → r.val i = fFma k.wide m sat (unpack k.wide (x.velem (2 * w) vd i)) a b) ∧
        (k.op = .wmulu → (r.val i).1 = k.a x i * k.b x i) ∧
        (k.op = .wmul → (r.val i).1 = (sintOf w (k.a x i) * sintOf w (k.b x i) % 2 ^ (2 * w)).toNat) ∧
        (k.op = .slidedn → (r.val i).1 = if i + shift < vlMax k.vtype then k.a x (i + shift) else 0) ∧
        (k.op = .slideup → (r.val i).1 = k.a x (i - shift)) ∧
        (k.op = .perm → (r.val i).1 = if k.b x i < vlMax k.vtype then k.a x (k.b x i) else 0))

/-- R151, R162, R163: VGET, VGETU, MPOPC and MFIRST with their fields legal and the unit empty write their result to the general register
VD.
R146, R147, R155: VCFG and VCFGR with their unused fields 0 set VTYPE from their image, VL to the lesser of g[GA] and VLMAX (VLMAX
for g0), or 0 with ILL for a reserved image, and write VL to g[VD].
The model's own readings and choices in it: log entries 48, 50. -/
def Obligations.VectorScalarsAndConfiguration : Prop :=
  (
    ∀ p ∈ ([
        (.vget, .get, fun x f => sext (sewBits x.vtype) (if (x.gread f.gb).toNat < vlMax x.vtype then
          BitVec.ofNat 64 (x.velem (sewBits x.vtype) f.va.toNat (x.gread f.gb).toNat) else 0)),
        (.vgetu, .getu, fun x f => if (x.gread f.gb).toNat < vlMax x.vtype then
          BitVec.ofNat 64 (x.velem (sewBits x.vtype) f.va.toNat (x.gread f.gb).toNat) else 0),
        (.mpopc, .mpopc, fun x f => BitVec.ofNat 64 ((List.range x.vl.toNat).countP fun i => x.mbit f.va.toNat i)),
        (.mfirst, .mfirst, fun x f => match (List.range x.vl.toNat).find? fun i => x.mbit f.va.toNat i with
          | some i => BitVec.ofNat 64 i
          | none => BitVec.allOnes 64)] : List ((CoreId → VFields → Instr) × VOp × (Core → VFields → Word))),
      ∀ (s t : State) (c : CoreId) (f : VFields), s.Ready c (p.1 c f) t → (t.core c).notLoopEnd → vLegal p.2.1 f (t.core c) = true →
        (t.core c).vl ≠ 0 → (t.core c).vq = [] →
        exec (p.1 c f) s = .next (State.settle (t.updCore c fun x => (x.begun.gwrite f.vd (p.2.2 x f)).after 8))) ∧
  (
    ∀ (s t : State) (c : CoreId) (f : VFields), (t.core c).notLoopEnd →
      f.form = 0 → f.va = 0 → f.vb = 0 → f.me = false → f.mkr = 0 → f.z = false → f.sg = 0 →
      let done_ := fun (i : Instr) (image : Word) => s.Ready c i t → ∃ u, exec i s = .next u ∧
        (u.core c).vtype = (if vtypeReserved image then 2 ^ 63 else image &&& 0x3F) ∧
        (u.core c).vl = (if vtypeReserved image then 0
          else if f.ga = 0 then BitVec.ofNat 64 (vlMax (image &&& 0x3F))
          else BitVec.ofNat 64 (min ((t.core c).gread f.ga).toNat (vlMax (image &&& 0x3F)))) ∧
        (u.core c).raw f.vd = (if f.vd = 0 then 0 else (u.core c).vl) ∧ (∀ g, g ≠ f.vd → (u.core c).raw g = (t.core c).raw g) ∧
        (u.core c).vreg = (t.core c).vreg ∧ (u.core c).mreg = (t.core c).mreg ∧ (∀ a, u.byte a = t.byte a)
      (f.gb = 0 → done_ (.vcfg c f) (zx f.imm)) ∧ (f.imm = 0 → done_ (.vcfgr c f) ((t.core c).gread f.gb &&& 0xFFF)))

/-- R150, R164, R165: a vector load or store whose fields are legal, VL not 0 and every active element passes its checks retires into the
unit with its checked elements, once nothing it must wait for is in the unit or the tile queue. VSTM's bits at and above VL are free.
The model's own readings and choices in it: log entries 50, 52. -/
def Obligations.VectorMemoryRetires : Prop :=
  ∀ p ∈ ([(.vld, .ld), (.vlds, .lds), (.vldx, .ldx), (.vldff, .ldff), (.vldm, .ldm), (.vldr, .ldr), (.vldmr, .ldmr), (.vst, .st),
      (.vsts, .sts), (.vstx, .stx), (.vstm, .stm), (.vstr, .str), (.vstmr, .stmr)] : List ((CoreId → VFields → Instr) × VOp)),
    ∀ (s t u v : State) (c : CoreId) (f : VFields) (l : List ElemAcc), s.Ready c (p.1 c f) t → (t.core c).notLoopEnd →
      vLegal p.2 f (t.core c) = true → (t.core c).vl ≠ 0 → (t.core c).vq = [] →
      let k := (t.core c).vtask p.2 f
      (t.updCore c Core.begun).elemChecks c (reqOf c) f.sg.toNat p.2.stores (k.offs (t.core c) ((t.core c).eaV f)) = (.all l, u, v) →
      u.tqHolds c (l.flatMap (·.parts)) p.2.stores = false → (u.core c).vq = [] → (u.core c).slot = none → (u.core c).stepDue = false →
      let w := if p.2 = .stm then u.freeNat else (k.xb.toNat, u)
      exec (p.1 c f) s = .next (State.settle (w.2.updCore c fun x => Core.after { x with
        vq := [{ k with acc := l, xb := BitVec.ofNat 64 w.1, ep := u.epochCur }] } 8))

/-! ### Tiles and the matrix engine -/

/-- R220–R222, R226: the tile instructions that pass their field, shape, group and address checks retire into the tile queue with the
values their checks took. R171, R172: TVMOV and VTMOV with legal fields, VL not 0, a configured tile
and its rows within it enter both queues.
The model's own readings and choices in it: log entry 53. -/
def Obligations.TileInstructionsRetire : Prop :=
  (
    ∀ (s t : State) (c : CoreId) (f : TFields), (t.core c).notLoopEnd → isSystem c = false → f.rsv0 = 0 → f.rsv1 = false →
      let x := t.core c
      let b := t.updCore c Core.begun
      let retired := fun (i : Instr) (u : State) (k : TTask) => s.Ready c i t → exec i s = .next (State.settle (State.updCore
        (State.mxeSync (u.updCore c fun y => { y with tq := y.tq ++ [{ k with ep := u.epochCur }] }) (dieOf c).val) c fun y => y.after 8))
      let rows := fun (n : Nat) => tcfgRows (x.tcfgOf n)
      let rb := fun (n : Nat) => tcfgRb (x.tcfgOf n)
      let ea := fun (n : Nat) => tileOffs (x.gread f.ga + sx f.imm) (x.gread f.gb) (rows n) (rb n)
      (∀ (u v : State) (l : List ElemAcc), f.tb = 0 → f.add = false → f.fin = false → (u.core c).tq.length < 16 →
        u.asked (dieOf c).val 4 = false → (u.core c).slot = none →
        (u.core c).stepDue = false →
        (f.ta = 0 → rows f.td.toNat ≠ 0 → b.elemChecks c (reqOf c) f.sg.toNat false (ea f.td.toNat) = (.all l, u, v) →
          u.vqHolds c (l.flatMap (·.parts)) false = false →
          retired (.tpull c f) u { op := .tpull, tile := f.td.toNat, rows := rows f.td.toNat, rb := rb f.td.toNat, acc := l }) ∧
        (f.td = 0 → rows f.ta.toNat ≠ 0 → b.elemChecks c (reqOf c) f.sg.toNat true (ea f.ta.toNat) = (.all l, u, v) →
          u.vqHolds c (l.flatMap (·.parts)) true = false →
          retired (.tpush c f) u { op := .tpush, tile := f.ta.toNat, rows := rows f.ta.toNat, rb := rb f.ta.toNat, acc := l })) ∧
      (x.tq.length < 16 → t.asked (dieOf c).val 4 = false → f.tb = 0 → f.add = false → f.gb = 0 → f.sg = 0 →
        (f.ta = 0 → f.fin = false → f.ga = 0 → f.imm = 0 → rows f.td.toNat ≠ 0 →
          retired (.twipe c f) b { op := .twipe, tile := f.td.toNat, rows := rows f.td.toNat, rb := rb f.td.toNat }) ∧
        ∀ base : Nat,
          (f.ta = 0 → f.fin = false → rows f.td.toNat ≠ 0 → (rb f.td.toNat = 1024 ∨ rb f.td.toNat = 2048) →
            b.groupCheck c (x.gread f.ga + zx f.imm).toNat (rb f.td.toNat / 1024 * rows f.td.toNat) = .ok base →
            retired (.accSt c f) b
              { op := .accSt, tile := f.td.toNat, rows := rows f.td.toNat, rb := rb f.td.toNat, row0 := base + (x.gread f.ga + zx f.imm).toNat
                fin := false, base, group := bits x.accg 5 0 }) ∧
          (f.td = 0 → rows f.ta.toNat ≠ 0 → (rb f.ta.toNat = 1024 ∨ rb f.ta.toNat = 2048) →
            b.groupCheck c (x.gread f.ga + zx f.imm).toNat (rb f.ta.toNat / 1024 * rows f.ta.toNat) = .ok base →
            retired (.accLd c f) b
              { op := .accLd, tile := f.ta.toNat, rows := rows f.ta.toNat, rb := rb f.ta.toNat, row0 := base + (x.gread f.ga + zx f.imm).toNat
                fin := f.fin, base, group := bits x.accg 5 0 }))) ∧
  (
    (∀ p ∈ ([(.tvmov, .tvmov, .tvmov, fun f => f.va.toNat % 8), (.vtmov, .vtmov, .vtmov, fun f => f.vd.toNat % 8)] :
        List ((CoreId → VFields → Instr) × VOp × TOp × (VFields → Nat))),
      ∀ (s t : State) (c : CoreId) (f : VFields), s.Ready c (p.1 c f) t → (t.core c).notLoopEnd → isSystem c = false →
        vLegal p.2.1 f (t.core c) = true → (t.core c).vl ≠ 0 → (t.core c).vq.length < 16 → (t.core c).tq.length < 16 →
        t.asked (dieOf c).val 4 = false →
        let x := t.core c
        let w := x.tcfgOf (p.2.2.2 f)
        let off := (x.gread f.gb).toNat
        tcfgRows w ≠ 0 → off + (x.vl.toNat * sewBits x.vtype / 8 + tcfgRb w - 1) / max 1 (tcfgRb w) ≤ tcfgRows w →
        exec (p.1 c f) s = .next (State.settle (State.updCore
          (State.mxeSync (t.updCore c fun y => { y.begun with
            tq := y.tq ++ [{ op := p.2.2.1, tile := p.2.2.2 f, rows := tcfgRows w, rb := tcfgRb w, row0 := off, ep := t.epochCur }] })
            (dieOf c).val) c
          fun y => Core.after { y with vq := y.vq ++ [x.vtask p.2.1 f] } 8))))

/-- R220–R222, R226, R229: TILE_QUEUE_OP performs the head of the queue that it has begun, else of the queue the rotation serves: TWIPE fills
the tile with zeros, ACC.ST copies accumulator rows to the tile, ACC.LD tile rows to the accumulators, handing its entries over with FIN; TPULL
places each row whose data have come and stays at the head until the last has, TPUSH writes the tile's rows once their homes are free; and
what a late read error or a lost row leaves is notified (R220). A row's data replace its bytes of the tile. VTMOV at the head of both queues moves its bytes to the tile.
The model's own readings and choices in it: log entries 53, 63. -/
def Obligations.TileQueueRuns : Prop :=
  (
    ∀ (s : State) (d : CDie) (c : CoreId) (k : TTask) (ks : List TTask), s.stopped = false → (dieOf c).val = d.val →
      ((s.engine d.val).tileRun = none → s.tileServed d.val = nextCore d.val (s.engine d.val).lastTile (fun e => (s.core e).tileReady)) ∧
      (s.tileServed d.val = some c → (s.core c).tq = k :: ks →
      let slot := tileSlot (coreK c).val k.tile
      let ran := fun (u : State) (f : Engine → Engine) => State.updEngine (u.updCore c fun x => { x with tq := ks }) d.val f
      let served := fun (u : State) => exec (.tileQueueOp d (coreK c)) s =
        .next (State.settle ((State.mxeSync (u.updEngine d.val fun x => { x with lastTile := (coreK c).val, tileRun := none }) d.val).slotGoesOn c))
      (k.op = .twipe → served (ran s fun x => x.setTile slot k.rb (131072 * slot) (List.replicate (k.rows * k.rb) 0) false)) ∧
      (k.op = .accSt → s.passOwes d.val k.row0 k.amCount = false →
        served (ran (s.eccAm d.val k.row0 k.amCount) fun x => accToTile x slot k)) ∧
      (k.op = .accLd → s.passOwes d.val k.row0 k.amCount = false →
        let u := ran (s.eccTile d.val (131072 * slot) (k.rows * k.rb)) fun x => tileToAcc x slot k
        let q := k.rb / 1024
        served (if k.fin then u.holdEntries d.val (entriesOf k.row0 k.base k.rows q k.group (if q = 2 then 2 else 0) 1 (coreK c).val 0 k.rows)
          else u)) ∧
      (k.op = .tpull → ∀ (k2 : TTask) (u : State), s.pullRows c k k.acc = (k2, u) →
        (k2.acc = [] → served ((u.updCore c fun x => { x with tq := x.tq.drop 1 }).lateError c 4 k2.late)) ∧
        (k2.acc ≠ [] → exec (.tileQueueOp d (coreK c)) s = .next (State.settle (State.updEngine
          (u.updCore c fun x => { x with tq := k2 :: x.tq.drop 1 }) d.val fun x => { x with tileRun := some (coreK c).val })))) ∧
      (k.op = .tpush → s.storesReady (engReq d.val) k.acc = true →
        ∀ (lost : Option (Word × Bool)) (u : State), (s.eccTile d.val (131072 * slot) (k.rows * k.rb)).pushRows c k = (lost, u) →
        served ((u.updCore c fun x => { x with tq := x.tq.drop 1 }).lateError c 4 lost)) ∧
      (∀ (e : ElemAcc) (es : List ElemAcc) (bs : List Byte) (u : State), s.homeElem (.tile c.val) (engReq d.val) 4 e = (some (bs, none), u) →
        s.pullRows c k (e :: es) =
          (u.updEngine d.val fun x => x.setTile slot k.rb (tileAt slot k.rb e.idx) bs false).pullRows c k es) ∧
      ∀ (e : ElemAcc) (u : State), k.acc = [e] →
        let bs := (s.engine d.val).tileBytes (tileAt slot k.rb e.idx) k.rb
        s.pushParts c ((s.engine d.val).tilePoison (tileAt slot k.rb e.idx) k.rb) e.hosts e.parts bs = (false, u) →
        s.pushRows c k = (none, u.updCore c fun y => { y with unacked := y.unacked ++ [s.undoOf { e with idx := tpushIdx k.tile } bs] }))) ∧
  (
    ∀ (s : State) (d : CDie) (c : CoreId) (k : TTask) (v : VTask) (ks : List TTask) (vs : List VTask), s.stopped = false → (dieOf c).val = d.val →
      s.tileServed d.val = some c → (s.core c).tq = k :: ks → (s.core c).vq = v :: vs →
      let slot := tileSlot (coreK c).val k.tile
      let a := tileAt slot k.rb k.row0
      let n := v.len * v.sew / 8
      let served := fun (u : State) => exec (.tileQueueOp d (coreK c)) s = .next (State.settle
        ((State.mxeSync (u.updEngine d.val fun e => { e with lastTile := (coreK c).val, tileRun := none }) d.val).slotGoesOn c))
      let popped := s.updCore c fun x => { x with tq := ks, vq := vs }
      (k.op = .vtmov → served (popped.updEngine d.val fun e => e.setTile slot k.rb a ((s.core c).vbytes v.f.va.toNat 0 n) false)) ∧
      (k.op = .tvmov → (s.engine d.val).tdmg = [] → (s.engine d.val).tpoison = [] → v.sew = 4 ∨ v.sew = 8 ∨ v.sew = 16 ∨ v.sew = 32 ∨ v.sew = 64 →
        served (popped.updCore c fun x => x.setVbytes v.f.vd.toNat 0 ((s.engine d.val).tileBytes a n))))

/-- R218, R219, R223, R225, R227: TMMA and TMMP whose fields, shapes and group pass their checks become their core's pass, from the row
TSTART names when it is valid for this instruction, and else from row 0; the core stays at the instruction. The group's descriptor is the one
its check reads: as it stands, or as it stood when the pass was checked behind an older instruction (R227).
R218, R227, R232: a pass whose last row has entered retires: its core goes on after the instruction, and TSTART's valid bit is clear
when it set the start row.
The model's own readings and choices in it: log entries 31, 53, 64. -/
def Obligations.PassesCheckedAndRetired : Prop :=
  (
    ∀ (s t : State) (c : CoreId) (f : TFields) (base : Nat), (t.core c).notLoopEnd → isSystem c = false →
      f.rsv0 = 0 → f.rsv1 = false → f.td = 0 → f.gb = 0 → f.sg = 0 →
      let x := t.core c
      let e := t.engine (dieOf c).val
      let ta := f.ta.toNat
      let tb := f.tb.toNat
      let ea := tcfgEtype (x.tcfgOf ta)
      let kp := (passDepth ea (tcfgEtype (x.tcfgOf tb))).getD 0
      let m := tcfgRows (x.tcfgOf ta)
      let off := (x.gread f.ga + zx f.imm).toNat
      let used := bit x.tstart 11 && bits x.tstart 61 12 == bits x.ip 51 2
      let start := if used then bits x.tstart 10 0 else 0
      let tags := fun (pair : Bool) => if pair then [t.bankTag c tb kp, t.bankTag c (tb + 1) kp] else [t.bankTag c tb kp]
      let pass := fun (pair : Bool) => ({
        pair, ta, tb, add := f.add, fin := f.fin && decide (start < m), am := base + off, base, group := bits x.accg 5 0, m
        kb := tcfgRows (x.tcfgOf tb), kp, w := accW (accFormat ea pair), next := start, used
        latched := if (tags pair).all e.hasBank then tags pair else [], seq := e.checks
        stepped := x.ss && x.slot.isNone, reads := [f.ga] } : Pass)
      let checked := fun (i : Instr) (pair : Bool) => s.Fetches c i t → ∀ (ag : Word) (u : State),
        (t.updCore c Core.begun).groupSeen c pair ta tb = (ag, u) →
        groupCheckOf (coreK c) (bits x.accg 5 0) ag off (accW (accFormat ea pair) * m) = .ok base →
        exec i s = .next (State.settle (State.updCore (u.updEngine (dieOf c).val fun e => { e with checks := e.checks + 1 }) c fun y =>
          { y.undone with pass := some (pass pair), ahead := none }))
      (x.tmmaCheck ta tb = none → checked (.tmma c f) false) ∧
      (x.tmmpCheck ta tb = none → ta % 2 = 0 → tb % 2 = 0 → checked (.tmmp c f) true) ∧
      (x.ahead = none → ∀ pair, (t.updCore c Core.begun).groupSeen c pair ta tb =
        (t.reg (dieOf c).val .MXE_AG (bits x.accg 5 0), t.updCore c Core.begun))) ∧
  (
    ∀ (s : State) (c : CoreId) (p : Pass), s.running c = true → (s.core c).pass = some p → p.reset = false → p.m ≤ p.next →
      (s.core c).slot = none → p.stepped = false → (s.core c).stepDue = false →
      exec (.passRetirement c) s = .next (State.settle (s.updCore c fun x => Core.after
        { x with pass := none, msh := none, tstart := if p.used then setBit x.tstart 11 false else x.tstart } 8)))

/-- R202–R206, R227–R229, R240, R269: PASS_STREAM takes the next row of the pass that streams through the array, whose operands carry no
uncorrectable word: the accumulator rows of its output become what the array makes of them, poisoned when an operand was, MXE_ROWS counts
it and MXE_FPF takes its flags; with the last row of an entry a pass with FIN hands it over. With nothing streaming and no gang
work, the next pass in rotation that has its B block latched starts; with none latched, the first checked one starts from the banks its
load fills. B_LOAD loads the block of the first checked pass that has none into a free bank.
The model's own readings and choices in it: log entries 31, 63, 64. -/
def Obligations.PassStreams : Prop :=
  ∀ (s : State) (d : CDie) (c : CoreId) (p : Pass), s.stopped = false → (dieOf c).val = d.val → (s.core c).pass = some p →
    let x := s.core c
    let y := s.engine d.val
    let ea := tcfgEtype (x.tcfgOf p.ta)
    let eb := tcfgEtype (x.tcfgOf p.tb)
    let acc := accFormat ea p.pair
    let am := p.am + p.w * p.next
    let a := s.passA c p p.next
    let b := s.passB c p
    let o := rowOut ea eb p.kp acc p.pair p.add a b (y.amRows am (accW acc))
    let ts := s.passTags c p
    let starts := fun (u : State) => ∀ rows task : Nat, exec (.passStream d (coreK c) rows task) s = .next (State.settle (State.streamRows
      (u.updEngine d.val fun e => { e with lastPass := (coreK c).val, gangOn := false }) c { p with streaming := true, latched := ts } rows))
    (s.streamingCore d.val = some c → p.next < p.m → y.tdmg = [] → y.admg = [] → y.bdmg0 = 0 → y.bdmg1 = 0 →
      let u := State.updCore (s.updEngine d.val fun e => e.setAm am (accW acc) o.1 (a.poison || b.poison || (p.add && e.amPoisoned am (accW acc))))
        c fun z => { z with pass := some { p with next := p.next + 1 } }
      let v := if p.fin then u.holdEntries d.val (entriesOf p.am p.base p.m p.w p.group acc 0 (coreK c).val p.next (p.next + 1)) else u
      exec (.passStream d (coreK c) 1 0) s = .next (State.settle (State.mxeSync (State.orReg (v.countReg d.val .MXE_ROWS (coreK c).val 1)
        d.val .MXE_FPF (coreK c).val (o.2.setWidth 64)) d.val))) ∧
    (s.streamingCore d.val = none → s.passHeld d.val = false → s.gangWork d.val = [] →
      (nextCore d.val y.lastPass s.passLatched = some c → ts.all y.hasBank = true → starts (s.reuseBanks d.val ts)) ∧
      (nextCore d.val y.lastPass s.passLatched = none → s.nextLoad d.val = some c → x.passReady = true →
        ts.all y.hasBank = false → ∀ u, s.latch c ts = some u → starts u)) ∧
    (s.running c = true → s.nextLoad d.val = some c → p.pair = false → y.hasBank (s.bankTag c p.tb p.kp) = false →
      let tag := s.bankTag c p.tb p.kp
      let u := s.updCore c fun z => { z with pass := some { p with latched := [tag] } }
      ∀ i, u.freeBank d.val = some i →
        exec (.bLoad c) s = .next (State.settle (State.mxeSync ((u.readB c tag).2.loadBank d.val i tag (u.readB c tag).1) d.val)))

/-- R269–R271: while the finished-tile queue has fewer than 64 entries, FTQ_POST puts the oldest waiting one at its end, in an entry not in
use, its valid bit set and its first doubleword's other fields, origin and member as given; with 64 the entry waits.
The model's own readings and choices in it: log entry 54. -/
def Obligations.FinishedTilePosted : Prop :=
  ∀ (s : State) (d : CDie) (ws : List Word) (rest : List (List Word)), s.stopped = false → (s.engine d.val).held = ws :: rest →
    ((s.engine d.val).ftq.length < 64 → ∃ (t : State) (e : Nat), exec (.ftqPost d) s = .next t ∧ e < 64 ∧ e ∉ (s.engine d.val).ftq ∧
      (t.engine d.val).ftq = (s.engine d.val).ftq ++ [e] ∧ (t.engine d.val).held = rest ∧ bit (t.ftqW d.val e 0) 63 = true ∧
      (∀ i < 38, bit (t.ftqW d.val e 0) i = bit (ws.getD 0 0) i) ∧ t.ftqW d.val e 1 = ws.getD 1 0 ∧ t.ftqW d.val e 2 = ws.getD 2 0 ∧
      (∀ a, t.byte a = s.byte a)) ∧
    (64 ≤ (s.engine d.val).ftq.length → ∃ t, exec (.ftqPost d) s = .next t ∧ (t.engine d.val).ftq = (s.engine d.val).ftq ∧
      (t.engine d.val).held = ws :: rest)

/-! ### Gangs -/

/-- R245–R249, R255, R257: GMM, GACC.OPEN and GACC.CLOSE of a leader core that pass every check are accepted into the gang's queue, and
the accepted state of the gang's groups follows.
The model's own readings and choices in it: log entry 30. -/
def Obligations.GangInstructionsAccepted : Prop :=
  ∀ (s t : State) (c : CoreId) (f : TFields) (g : Nat), (t.core c).notLoopEnd → isSystem c = false →
    f.rsv0 = 0 → f.rsv1 = false → f.ta = 0 → f.tb = 0 → f.td = 0 → f.add = false → f.fin = false → f.gb = 0 →
    let accepted := fun (u : State) (e : GangEntry) (acc : List (Nat × Nat) → List (Nat × Nat)) =>
      (.next (State.settle (State.updCore (State.updGang (u.gangPut g e) g fun x => { x with accepted := acc x.accepted }) c fun x => x.after 8)) : Out)
    (∀ (u v : State) (ps : List Piece) (bs : List Byte), s.Ready c (.gmm c f) t →
      let d := gmmOf (words64 16 bs) (t.core c).ptb (t.core c).ring (.core c)
      (t.updCore c Core.begun).elemCheck c (reqOf c) f.sg.toNat false ((t.core c).gread f.ga + sx f.imm) 128 = (.ok ps, u) →
      u.readNow c ((t.core c).gread f.ga + sx f.imm) ps = (.ok bs, v) → d.check (gmmRsv (words64 16 bs)) = none → v.ledBy c = some g →
      v.gmmGangCheck g d = none → v.accessesDone c = true → (v.acked c).gangRoom g = true → (v.core c).slot = none →
      (v.core c).stepDue = false → exec (.gmm c f) s = accepted (v.acked c) (.gmm d) id) ∧
    (f.sg = 0 → f.imm.toNat < 16 → t.ledBy c = some g → t.gangRoom g = true →
      (∀ base : Nat, s.Ready c (.gaccOpen c f) t → let rows := ((t.core c).gread f.ga).toNat
        t.acceptedRows g f.imm.toNat = none → rows ≠ 0 → rows ≤ t.fld 24 .GNG_GLOBAL 0 39 24 →
        freeRange (t.fld 24 .GNG_GLOBAL 0 23 8) (t.fld 24 .GNG_GLOBAL 0 39 24) rows ((t.acceptedRanges g).map (·.2)) = some base →
        exec (.gaccOpen c f) s = accepted (t.updCore c Core.begun) (.openG f.imm.toNat rows) fun l => l ++ [(f.imm.toNat, rows)]) ∧
      (s.Ready c (.gaccClose c f) t → f.ga = 0 → (t.acceptedRows g f.imm.toNat).isSome = true →
        exec (.gaccClose c f) s = accepted (t.updCore c Core.begun) (.closeG f.imm.toNat) fun l => l.filter fun e => e.1 != f.imm.toNat))

/-- R251–R260: GANG_OP_START takes the head of an idle gang's queue: an open or a close of a group is executed and counted in GNG_OPS, and a
GMM, of a core, a stream or a window, whose group is open with room becomes the running operation with its tasks, GNG_GRP holding the
geometry and the members' progress at 0. RUNNING_SUM adds the sums of the predecessor's rows. GANG_OP_COMPLETE and GANG_OP_FAIL write
the completion record, and once that write is performed end the operation; a window's operation leaves its window draining, or failed.
R254: RUNNING_SUM of a position whose passes are done and whose predecessor is finished adds the predecessor's rows to
its own, row by row, in the format of the operation.
The model's own readings and choices in it: log entries 30, 64, 67. -/
def Obligations.GangOperations : Prop :=
  (
    ∀ (s : State) (g : Gang), s.stopped = false →
      (∀ rest : List GangEntry, (s.gang g.val).run = none → (s.gang g.val).narrow = [] → (s.gang g.val).readmit = [] →
        (∀ i rows base : Nat, (s.gang g.val).queue = .openG i rows :: rest →
          let s1 := s.updGang g.val fun x => { x with queue := rest }
          freeRange (s1.fld 24 .GNG_GLOBAL 0 23 8) (s1.fld 24 .GNG_GLOBAL 0 39 24) rows (s1.heldRanges g.val i) = some base →
          exec (.gangOpStart g) s = .next (State.settle (State.countReg ((s1.setReg 24 .GNG_GRP (16 * g.val + i)
            (BitVec.ofNat 64 (base + 2 ^ 16 * rows + 2 ^ 63))).gangAg g.val i fun _ => BitVec.ofNat 64 (base + 2 ^ 16 * rows + 2 ^ 32 * 15 + 2 ^ 63))
            24 .GNG_OPS g.val 1))) ∧
        (∀ i : Nat, (s.gang g.val).queue = .closeG i :: rest →
          exec (.gangOpStart g) s = .next (State.settle (State.countReg (((s.updGang g.val fun x => { x with queue := rest }).setFld 24 .GNG_GRP
            (16 * g.val + i) 63 63 0).gangAg g.val i fun v => setBit v 63 false) 24 .GNG_OPS g.val 1))) ∧
        (∀ d : Gmm, (s.gang g.val).queue = .gmm d :: rest →
          let form := s.fld 24 .GNG_STAT g.val 31 24
          let active := s.fld 24 .GNG_STAT g.val 23 0
          let grp := s.grpReg g.val d.grp
          bit grp 63 = true → d.off + d.need (d.bm * d.bn) (max 1 (popN 24 active)) ≤ bits grp 31 16 →
          (d.add = true → bit grp 45 = true ∧ bits grp 39 32 = form ∧ bits grp 44 40 = d.l) →
          let s1 := (setBitsOf 24 active).foldl (fun u e => u.setReg e .GNG_PROG 0 0)
            (s.setReg 24 .GNG_GRP (16 * g.val + d.grp) (setBits (setBits (setBits grp 39 32 form) 44 40 d.l) 45 45 1))
          let s2 := State.updGang { s1 with free := s1.free + 1 } g.val fun x => { x with
            queue := rest
            run := some { d, form, active, tstart := BitVec.ofNat 64 s.time, pick := s.free, tasks := tasksOf d active } }
          let s3 := match d.src with | .window w => s2.setWindow w { s2.window w with state := .running } | _ => s2
          exec (.gangOpStart g) s = .next (State.settle ((setBitsOf 24 active).foldl (fun u e => u.mxeSync e) s3)))) ∧
      ∀ r : GangRun, (s.gang g.val).run = some r →
        (∀ (b p : Nat) (t u : GangTask), r.failed = false → 0 < p → p < r.d.l → r.tasks[b * r.d.l + p]? = some t →
          r.tasks[b * r.d.l + p - 1]? = some u → t.summed = false → (r.d.segment p).2 ≤ t.done → u.finished r.d = true →
          s.blockDead r.d b = false → s.downOn u.die t.die false = none → s.pathBusy u.die t.die = false →
          let w := accW r.d.acc
          let n := s.blockRows r.d b
          let a := s.taskRow g.val r b p
          let k := s.taskRow g.val r b (p - 1)
          let s1 := ((s.packet u.die t.die false).eccAm u.die k (w * n)).eccAm t.die a (w * n)
          let o := (s1.engine t.die).addRows r.d.acc a k n (s1.engine u.die)
          let r' := { r with
            flags := r.flags ||| o.2.1, poison := r.poison || o.2.2, tasks := setAt r.tasks (b * r.d.l + p) { t with summed := true } }
          let s2 := State.orReg (State.updGang (s1.updEngine t.die fun _ => o.1) g.val fun x => { x with run := some r' }) t.die .GNG_FPF 0 (zx o.2.1)
          exec (.runningSum g b p) s = .next (State.settle (State.taskDone (if o.2.2 then s2.blockPoisoned r.d b else s2) g.val r' (b * r.d.l + p)
            { t with summed := true }))) ∧
        let closes := fun (i : Instr) (q : GangRun) (after : State → State) =>
          (r.recorded = true → s.postedBy (.gang g.val) = false → exec i s = .next (State.settle (s.gangEnd g.val r.d))) ∧
          (r.recorded = false → ∀ u : State, s.gangRecord g.val r.d q.status q = (true, u) →
            let v := (after u).updGang g.val fun x => { x with run := some { q with recorded := true } }
            v.postedBy (.gang g.val) = false → exec i s = .next (State.settle (v.gangEnd g.val r.d)))
        (∀ busy : List Nat, r.failed = false → s.gangFinished r = true →
          ((∀ w, r.d.src ≠ .window w) →
            closes (.gangOpComplete g busy) { r with status := 1 } fun u => u.stragglers g.val r.active busy) ∧
          (∀ w, r.d.src = .window w → exec (.gangOpComplete g busy) s = .next (State.settle (State.gangEnd (State.dropPref (State.stragglers
            (s.setWindow w { s.window w with state := .draining, flags := Nat.lor (s.window w).flags r.flags.toNat, form := r.form })
            g.val r.active busy) fun v _ => v == w) g.val r.d)))) ∧
        (r.failed = true → ((∀ w, r.d.src ≠ .window w) → closes (.gangOpFail g) r id) ∧
          (∀ w, r.d.src = .window w → exec (.gangOpFail g) s = .next (State.settle ((s.failWindow w).gangEnd g.val r.d))))) ∧
  (
    ∀ (s : State) (g p : Nat) (r : GangRun) (t u : GangTask), (s.gang g).run = some r → r.failed = false → r.d.l = 2 → p = 1 →
      r.tasks[1]? = some t → r.tasks[0]? = some u → t.summed = false → (r.d.segment 1).2 ≤ t.done → u.finished r.d = true →
      s.blockDead r.d 0 = false → s.downOn u.die t.die false = none → s.pathBusy u.die t.die = false → s.blockRows r.d 0 = 1 → r.d.acc = 0 → r.d.fin = false →
      (s.engine t.die).admg = [] → (s.engine u.die).admg = [] →
      let a := s.taskRow g r 0 1
      let c := s.taskRow g r 0 0
      let o := sumRows 0 ((s.engine t.die).amRows a 1) ((s.engine u.die).amRows c 1)
      ((s.runningSum g 0 p).engine t.die) = (s.engine t.die).setAm a 1 o.1
        ((s.engine u.die).amPoisoned c 1 || (s.engine t.die).amPoisoned a 1))

/-- R263–R265: GNG_READMIT queues a C-die of the gang that is not active; at a boundary GANG_NARROW takes a flagged die that is not the
leader's out of the active members when more than the floor remain, counting the generation, and GANG_READMISSION takes one back in. -/
def Obligations.GangMembershipChanges : Prop :=
  ∀ (s : State) (g : Gang) (rest : List Nat) (d : Nat), s.stopped = false →
    (∀ (q : Src) (v : Word) (u : State), s.regAccess q 24 .GNG_READMIT g.val = (true, u) → bit v 5 = true → bits v 4 0 < 24 →
      u.flag 24 .GNG_CFG g.val (bits v 4 0) = true → u.flag 24 .GNG_STAT g.val (bits v 4 0) = false →
      (u.gang g.val).readmit.contains (bits v 4 0) = false →
      exec (.gngReadmit q g v) s = .next (State.settle (u.updGang g.val fun x => { x with readmit := x.readmit ++ [bits v 4 0] }))) ∧
    ((s.gang g.val).run = none → (s.gang g.val).narrow = d :: rest → d < 24 → (s.fld 24 .GNG_STAT g.val 23 0).testBit d = true →
      s.fld 24 .GNG_CFG g.val 30 24 / 4 ≠ d → s.fld 24 .GNG_CFG g.val 36 32 < popN 24 (s.fld 24 .GNG_STAT g.val 23 0) →
      ∃ t, exec (.gangNarrow g) s = .next t ∧ (t.gang g.val).narrow = rest ∧
        t.fld 24 .GNG_STAT g.val 23 0 = s.fld 24 .GNG_STAT g.val 23 0 - 2 ^ d ∧
        t.fld 24 .GNG_STAT g.val 31 24 = (s.fld 24 .GNG_STAT g.val 31 24 + 1) % 256) ∧
    ((s.gang g.val).run = none → (s.gang g.val).readmit = d :: rest → d < 24 →
      ∃ t, exec (.gangReadmission g) s = .next t ∧ (t.gang g.val).readmit = rest ∧ t.flag 24 .GNG_STAT g.val d = true ∧
        t.fld 24 .GNG_STAT g.val 31 24 = (s.fld 24 .GNG_STAT g.val 31 24 + 1) % 256 ∧
        (∀ e < 24, e ≠ d → t.flag 24 .GNG_STAT g.val e = s.flag 24 .GNG_STAT g.val e))

/-! ### Glaze -/

/-- R273, R278, R279, R283, R284: GLZ.LD of a program that checks loads its slot; GLZ.DRAIN with nothing to drain writes 0 to g[GD], and
else claims its quarter; GLZ.STAT takes a running amax into its history, GLZ.HST stores a history's image, GLZ.HLD loads one.
The model's own readings and choices in it: log entries 54, 55. -/
def Obligations.GlazeInstructions : Prop :=
  ∀ (s t : State) (c : CoreId) (f : GFields), (t.core c).notLoopEnd → isSystem c = false → f.rsv0 = 0 → f.rsv1 = false →
    f.gb = 0 →
    let o := (t.core c).gread f.ga
    let d := (dieOf c).val
    let i := f.imm.toNat % 64
    (∀ (u v : State) (h : Word) (ops : List Word), s.Ready c (.glzLd c f) t → f.gd = 0 →
      (t.updCore c Core.begun).readImageAt c f.sg.toNat (o + sx f.imm) 1 = (.ok [h], u) → bits h 6 0 ≠ 0 → bits h 6 0 ≤ 64 →
      u.readImageAt c f.sg.toNat (o + sx f.imm + 8) (bits h 6 0) = (.ok ops, v) → gFirstBad ops = none →
      (v.core c).slot = none → (v.core c).stepDue = false →
      exec (.glzLd c f) s = .next (State.settle (v.updCore c fun x =>
        Core.after { x with glz := put (fun _ => []) x.glz f.slot.toNat (h :: ops) } 8))) ∧
    (s.Ready c (.glzDrain c f) t → f.slot = 0 → f.ga = 0 → f.sg = 0 → f.imm = 0 →
      (t.nextQuarter c = none → exec (.glzDrain c f) s = .next (State.settle (t.updCore c fun x => (x.begun.gwrite f.gd 0).after 8))) ∧
      ∀ (e q : Nat) (u v w : State) (l tr : List (Nat × Piece)) (bs : List Byte),
        let geo := t.quarterGeo d e q
        let bind := t.reg d .GLZ_BIND geo.grp
        let prog := (t.core c).slotOf (bits bind 3 0)
        t.nextQuarter c = some (e, q) → bit bind 63 = true → prog ≠ [] →
        (t.updCore c Core.begun).linChecks c none [(false, false, bits bind 51 6 * 64, 192)] = (.ok l, u) →
        u.readNow c (BitVec.ofNat 64 (bits bind 51 6 * 64)) (l.map (·.2)) = (.ok bs, v) → descCheck (words64 24 bs) (prog.drop 1) = none →
        v.linChecks c (v.entryWindow d e) (quarterRanges (words64 24 bs) (prog.drop 1) geo) = (.ok tr, w) → (w.core c).vq.length < 16 →
        w.tqHolds c (tr.map (·.2)) true = false → (w.core c).amOwed geo.am (accW geo.afmt * geo.rows) = false →
        ((w.claimQuarter c f.gd e q geo (prog.drop 1) (words64 24 bs) tr).core c).slot = none →
        ((w.claimQuarter c f.gd e q geo (prog.drop 1) (words64 24 bs) tr).core c).stepDue = false →
        exec (.glzDrain c f) s = .next (State.settle ((w.claimQuarter c f.gd e q geo (prog.drop 1) (words64 24 bs) tr).updCore c
          fun x => x.after 8))) ∧
    (f.slot = 0 → f.gd = 0 →
      (s.Ready c (.glzStat c f) t → f.ga = 0 → f.sg = 0 →
        (i < 48 → bit (t.reg d .MXE_AG i) 63 = true → bit (t.reg d .MXE_AG i) (32 + (coreK c).val) = true → t.quarterOf d i = false →
          exec (.glzStat c f) s = .next (State.settle (State.updCore (State.setReg (State.updEngine (t.updCore c Core.begun) d fun x =>
            x.setHist i ((x.histOf i).push (fMaxMin .fp32 true 0 (t.fld d .GLZ_AMR i 31 0)).1)) d .GLZ_AMR i 0) c fun x => x.after 8))) ∧
        ∀ ds : List Nat, t.histDies c i = some ds → (∀ e ∈ ds, t.quarterOf e i = false) →
          let v := ds.foldl (fun a e => (fMaxMin .fp32 true a (t.fld e .GLZ_AMR i 31 0)).1) 0
          exec (.glzStat c f) s = .next (State.settle (State.updCore (ds.foldl (fun u e =>
            (u.updEngine e fun x => x.setHist i ((x.histOf i).push v)).setReg e .GLZ_AMR i 0) (t.updCore c Core.begun)) c fun x => x.after 8))) ∧
      (∀ (u v : State) (l : List ElemAcc), s.Ready c (.glzHst c f) t →
        (t.updCore c Core.begun).elemChecks c (reqOf c) f.sg.toNat true (histOffs o) = (.all l, u, v) → (u.histDies c i).isSome = true →
        u.vecHolds c (l.flatMap (·.parts)) true = false → u.storesReady (reqOf c) l = true → u.storeHeld c = false →
        let w := u.storeImage c l ((u.engine d).histOf i).image
        (w.core c).slot = none → (w.core c).stepDue = false →
        exec (.glzHst c f) s = .next (State.settle (w.updCore c fun x => x.after 8))) ∧
      ∀ (u : State) (ws : List Word) (ds : List Nat), s.Ready c (.glzHld c f) t →
        (t.updCore c Core.begun).readImageAt c f.sg.toNat o 10 = (.ok ws, u) → u.histDies c i = some ds →
        (u.core c).slot = none → (u.core c).stepDue = false →
        exec (.glzHld c f) s = .next (State.settle (State.updCore
          (ds.foldl (fun w e => w.updEngine e fun x => x.setHist i (histOf (bytesOf ws))) u) c fun x => x.after 8)))

/-- R198: a statistics update goes to the next entry of a history of 16 after HEAD, HEAD follows it, COUNT grows to 16 at most, and the
image that GLZ.HST stores, of 80 bytes, holds entry j at 4j, HEAD and COUNT at 0x40 and zeros after, and loads back as the history it was
taken from; an entry not written reads 0.
The model's own readings and choices in it: log entry 55. -/
def Obligations.HistoryRoundTrip : Prop :=
  (∀ j, ({} : Hist).vals.getD j 0 = 0) ∧ ({} : Hist).count = 0 ∧
  ∀ (h : Hist) (v : Nat), h.vals.length = 16 → h.head < 16 → h.count ≤ 16 →
    (h.push v).head = (h.head + 1) % 16 ∧ (h.push v).count = min 16 (h.count + 1) ∧ (h.push v).vals.getD ((h.head + 1) % 16) 0 = v ∧
    (∀ j < 16, j ≠ (h.head + 1) % 16 → (h.push v).vals.getD j 0 = h.vals.getD j 0) ∧
    (∀ j < 16, fromBytes ((h.image.drop (4 * j)).take 4) = h.vals.getD j 0 % 2 ^ 32) ∧
    fromBytes ((h.image.drop 0x40).take 4) = h.head + 16 * h.count ∧ h.image.drop 0x44 = List.replicate 12 0 ∧
    h.image.length = 80 ∧ ((∀ w ∈ h.vals, w < 2 ^ 32) → histOf h.image = h)

/-- R279–R282: GLAZE_QUARTER_RUN of a claimed quarter whose homes are free and whose data have come runs its rows and marks it done;
ENTRY_DONE frees an entry whose four quarters are done, FTQ_CMD's DISCARD marks the unclaimed quarters of an entry done.
The model's own readings and choices in it: log entries 54, 64. -/
def Obligations.QuartersRun : Prop :=
  ∀ (s : State) (d : CDie), s.stopped = false →
    (∀ (c : CoreId) (k : Quarter) (v : VTask) (rest : List VTask) (m : QData) (u w : State) (fl : FFlags), (s.core c).vq = v :: rest →
      v.q = some k → let geo := s.quarterGeo (dieOf c).val k.entry k.q
      s.quarterBusy c geo k = false →
      s.passOwes (dieOf c).val geo.am (accW geo.afmt * geo.rows) = false → s.quarterData c geo k = (.ok m, u) →
      u.quarterRows c geo k m = ((none, w), fl) →
      exec (.glazeQuarterRun c) s = .next (State.settle
        (((w.updCore c fun x => { x with vq := x.vq.drop 1 }).quarterDone c k fl).slotGoesOn c))) ∧
    (∀ e : BitVec 6, e.toNat ∈ (s.engine d.val).ftq → bits (s.ftqW d.val e.toNat 0) 46 43 = 15 →
      s.outputsPosted d.val e.toNat = false →
      (e.toNat ∈ (s.engine d.val).disc ∨ (look (fun _ => {}) (s.engine d.val).counter e.toNat).parts = []) →
      ∃ t, exec (.entryDone d e) s = .next t ∧ e.toNat ∉ (t.engine d.val).ftq ∧
        (∀ x, x ≠ e.toNat → (x ∈ (t.engine d.val).ftq ↔ x ∈ (s.engine d.val).ftq)) ∧ (∀ a, t.byte a = s.byte a)) ∧
    ∀ (q : Src) (v : Word) (u : State), s.regAccess q d.val .FTQ_CMD 0 = (true, u) → bits v 9 8 = 1 → bits v 5 0 ∈ (u.engine d.val).ftq →
      bits (u.ftqW d.val (bits v 5 0) 0) 46 43 ≠ 15 →
      Nat.lor (bits (u.ftqW d.val (bits v 5 0) 0) 46 43) (15 - bits (u.ftqW d.val (bits v 5 0) 0) 42 39) ≠ 15 →
      ∃ t, exec (.ftqCmdDiscard q d v) s = .next t ∧ (t.engine d.val).ftq = (u.engine d.val).ftq ∧
        bits (t.ftqW d.val (bits v 5 0) 0) 46 43
          = Nat.lor (bits (u.ftqW d.val (bits v 5 0) 0) 46 43) (15 - bits (u.ftqW d.val (bits v 5 0) 0) 42 39)

/-! ### Streams -/

/-- R289, R302, R303: the operations of STM_CMD from a source that reaches the block, in the states that accept them: ENABLE clears HEAD,
TAIL and STATE to IDLE, DISABLE ends in DISABLED, RETRY makes the command at HEAD ready again, SKIP retires it, CANCEL ends it; each
leaves RES = 1. ENABLE and the others in a state that does not accept them leave RES = 2 and change nothing else.
R303: CANCEL_END of a cancelling stream whose command has ended discards the commands not started and leaves it IDLE, with an event
packet of kind 3 and the interrupt of STM_ROUTE.
The model's own readings and choices in it: log entry 66. -/
def Obligations.StreamOperations : Prop :=
  (
    ∀ (b s : State) (q : Src) (sid : StreamId), b.regAccess q 24 .STM_CMD 0 = (true, s) → sid.toNat < s.fld 24 .STM_CFG 0 18 0 →
      let n := sid.toNat
      let res := fun (u : State) (k : Word) => (.next (State.settle (u.setReg 24 .STM_CMDSTAT 0 k)) : Out)
      (s.strState n = 0 → 4 ≤ s.strF n 0 52 48 → s.strF n 0 52 48 ≤ 20 → s.strF n 0 5 0 = 0 →
        exec (.enable q sid) b = res (State.noteCredit ({ ((s.dropDone n none).setStrW n 2 0).setStrF n 3 35 32 1 with
          trowel := { s.trowel with enabled := (n :: s.trowel.enabled).mergeSort (· ≤ ·) } }) n) 1) ∧
      (s.strState n ≠ 0 → exec (.enable q sid) b = res s 2) ∧
      (s.strState n = 1 ∨ s.strState n = 7 → ∃ t, exec (.disable q sid) b = .next t ∧ t.strState n = 0 ∧ t.reg 24 .STM_CMDSTAT 0 = 1) ∧
      (s.strState n ≠ 1 → s.strState n ≠ 7 → exec (.disable q sid) b = res s 2) ∧
      (s.strState n = 7 → exec (.retry q sid) b = res ((s.dropRun n).setStrState n 2) 1 ∧
        ∀ r, s.runOf n = some r → exec (.skip q sid) b = res ((s.setStrState n 5).retireBase r false) 1) ∧
      (s.strState n ≠ 7 → exec (.retry q sid) b = res s 2 ∧ exec (.skip q sid) b = res s 2) ∧
      (s.strState n = 0 ∨ s.strState n = 8 → exec (.cancel q sid) b = res s 2) ∧
      (s.strState n ≠ 0 → s.strState n ≠ 8 →
        let u := s.setStrState n 8
        let v := State.undoAhead { u with trowel := { u.trowel with cancelCode := put (fun _ => 0) u.trowel.cancelCode n 0 } } n
        (∀ r, v.runOf n = some r → exec (.cancel q sid) b = res (v.endByCancel r) 1) ∧
        (v.runOf n = none → exec (.cancel q sid) b = res v 1 ∧ v.trowel.runs = s.trowel.runs ∧ v.strState n = 8))) ∧
  (
    ∀ (s : State) (sid : StreamId), s.stopped = false → s.strState sid.toNat = 8 → s.runOf sid.toNat = none →
      s.evtRoom = true → exec (.cancelEnd sid) s = .next (State.settle (State.sendIrq
        (((s.setStrF sid.toNat 2 31 0 (s.strF sid.toNat 2 63 32)).setStrState sid.toNat 1).streamEvent sid.toNat 3
          (look (fun _ => 0) s.trowel.cancelCode sid.toNat) 0 0) (s.fld 24 .STM_ROUTE 0 15 0) 24)))

/-- R291–R293: a CMD packet of one to eight commands for an enabled stream that is not cancelling: commands that EXPSEQ has passed are skipped,
the rest, with credit for them, are written to the ring slots from TAIL on; TAIL and EXPSEQ count them, and an IDLE stream becomes READY. A
packet of duplicates only is answered with the credit; an out-of-order, a too long, a misdirected packet and one whose slots cannot be
written are rejected with reasons 1, 2, 3, 4 and 5.
R296–R298, R301: COMMAND_START starts the command of the READY stream that comes next: the stream is RUNNING with the command as its
ring slot holds it; a malformed command faults the stream with FCODE 1, one naming a sync object that does not exist with 2.
The model's own readings and choices in it: log entries 59, 66. -/
def Obligations.CommandsAppendedAndStarted : Prop :=
  (
    ∀ (s : State) (sid : StreamId) (seq : BitVec 32) (ws : List Word) (k : Nat), s.stopped = false → (s.link .agd).state = 5 →
      1 ≤ k → k ≤ 8 → ws.length = 8 * k → s.evtRoom = true →
      let n := sid.toNat
      let cs := groups8 8 ws
      s.slotsBusy n (s.newCmds n seq.toNat cs) = false →
      let o := s.owe .agd 0 (1 + 4 * k)
      let out := fun (u : State) => (.next (State.settle u) : Out)
      let d := (seq - BitVec.ofNat 32 (o.strExp n)).toInt
      (o.fld 24 .STM_CFG 0 18 0 ≤ n ∨ o.strState n = 0 → exec (.cmd sid seq ws) s = out (o.rejectCmd n 3 seq.toNat)) ∧
      (n < o.fld 24 .STM_CFG 0 18 0 → o.strState n = 8 → exec (.cmd sid seq ws) s = out (o.rejectCmd n 4 seq.toNat)) ∧
      (n < o.fld 24 .STM_CFG 0 18 0 → o.strState n ≠ 0 → o.strState n ≠ 8 →
        (0 < d → exec (.cmd sid seq ws) s = out (o.rejectCmd n 1 seq.toNat)) ∧
        (d ≤ 0 → k ≤ d.natAbs → exec (.cmd sid seq ws) s = out (o.sendCreditOnly n)) ∧
        (d ≤ 0 → d.natAbs < k →
          (o.strCredit n < k - d.natAbs → exec (.cmd sid seq ws) s = out (o.rejectCmd n 2 seq.toNat)) ∧
          (k - d.natAbs ≤ o.strCredit n → ∀ u : State,
            (o.writeSlots n (o.strF n 2 63 32) (cs.drop d.natAbs) = (.ok (), u) →
              let v := (u.setStrF n 2 63 32 (o.strF n 2 63 32 + (k - d.natAbs))).setStrF n 3 31 0 (u.strExp n + (k - d.natAbs))
              exec (.cmd sid seq ws) s = out (((if v.strState n = 1 then v.setStrState n 2 else v).countReg 24 .STM_APPENDED 0
                (k - d.natAbs)).preAdd n (o.strF n 2 63 32) (cs.drop d.natAbs))) ∧
            ∀ code : Nat, o.writeSlots n (o.strF n 2 63 32) (cs.drop d.natAbs) = (.err code, u) →
              exec (.cmd sid seq ws) s = out (u.rejectCmd n 5 seq.toNat))))) ∧
  (
    ∀ (s t : State) (n : Nat) (bs : List Byte), s.stopped = false → s.nextStream = some n →
      s.devRead kReq (.unit 24 11) 64 (s.strSlot n (s.strF n 2 31 0)) 64 = (.ok bs, t) →
      let ws := words64 8 bs
      let u := State.setStrState ({ t with trowel := { t.trowel with
        lastStart := (s.strF n 0 55 53, n) :: t.trowel.lastStart.filter fun e => e.1 != s.strF n 0 55 53
        starts := t.trowel.starts + 1 } }) n 5
      let r : StreamRun := { s := n, cmd := ws, run := .begun, gen := u.strF n 5 31 0, ord := u.trowel.starts }
      (cmdMalformed ws = true → exec .commandStart s = .next (State.settle (u.faultStream r 0x01 0))) ∧
      (cmdMalformed ws = false → u.cmdBadSync ws = true → exec .commandStart s = .next (State.settle (u.faultStream r 0x02 0))) ∧
      (cmdMalformed ws = false → u.cmdBadSync ws = false → exec .commandStart s = .next (State.settle (u.setRun r))))

/-- R297, R300, R301, R305, R307, R313, R317, R333: what a started command does: NOP retires; SIGNAL updates its object and retires, or faults
with FCODE 4 when its object holds poison; WAIT retires when
its object has reached its value, and else waits with its timeout; TIMED waits for its time; MARK stages its entry and retires; FENCE
retires once what it waits for is done; COPY and FILL take a place of engine 1; LAUNCH of a work-item image queues its item and of a
gang-template image joins a window once its addresses have been translated, faulting with FCODE 3 when that was aborted; GLAUNCH whose descriptor passes enters the gang's queue.
R296, R297: a COPY or a FILL goes on block by block, each block ending at a 4 KiB boundary of its destination or at the command's end,
with the bytes read from its source or of its pattern; after the last block, its posted stores done, it signals and retires. In a stream that
is cancelled it ends at the next such boundary (R303).
The model's own readings and choices in it: log entries 59, 66, 67. -/
def Obligations.StartedCommands : Prop :=
  (
    ∀ (s : State) (sid : StreamId) (r : StreamRun), s.stopped = false → s.runOf sid.toNat = some r → r.run = .begun →
      let out := fun (u : State) => (.next (State.settle u) : Out)
      let i := bits (r.dw 1) 15 0
      (r.opc = 0x00 → exec (.nop sid) s = out (s.finish r)) ∧
      (r.opc = 0x06 →
        (s.anyPoison (synAddr i) 32 = false → exec (.signal sid) s = out ((s.synUpdate i (bit (r.dw 1) 16) (r.dw 2)).finish r)) ∧
        (s.anyPoison (synAddr i) 32 = true → exec (.signal sid) s = out ((s.poisonUsed 24 11 kReq (synAddr i) 6).faultStream r 0x04 0))) ∧
      (r.opc = 0x05 → s.anyPoison (synAddr i) 32 = false →
        ((r.dw 2).toNat ≤ (s.synValue i).toNat → exec (.wait sid) s = out (s.finish r)) ∧
        ((s.synValue i).toNat < (r.dw 2).toNat → exec (.wait sid) s = out ((((s.setRun { r with
          run := .waiting (if r.dw 3 = 0 then none else some (s.time + (r.dw 3).toNat)) }).setStrState r.s 3).countWaiters i).armTimers))) ∧
      (r.opc = 0x07 → exec (.timed sid) s = out (((s.setRun { r with run := .timed (r.dw 1).toNat }).setStrState r.s 4).armTimers)) ∧
      (r.opc = 0x08 → s.stagingRoom ≠ 0 →
        let u := s.stage i 0 r.s (s.strSeq r.s) (bytesOf [r.dw 2, r.dw 3, r.dw 4, r.dw 5, r.dw 6, r.dw 7])
        exec (.mark sid) s = out (State.finish ({ u with trowel := { u.trowel with
          lastMark := put (fun _ => 0) u.trowel.lastMark r.s (u.fld 24 .TWN_STN_HEAD 0 63 0) } }) r)) ∧
      (r.opc = 0x0A → s.fenceMet r.s = true → exec (.fence sid) s = out (s.finish r)) ∧
      (r.opc = 0x03 → copyOverlaps r = false → s.copies < 8 → exec (.copy sid) s = out (s.setRun { r with run := .copying 0 })) ∧
      (r.opc = 0x03 → copyOverlaps r = true → exec (.copy sid) s = out (s.faultStream r 0x01 0)) ∧
      (r.opc = 0x04 → s.copies < 8 → exec (.fill sid) s = out (s.setRun { r with run := .copying 0 })) ∧
      (r.opc = 0x01 → bits (r.dw 0) 63 32 < s.fld 24 .TRW_KIT_CNT 0 16 0 → ∀ (t : State) (img : List Word),
        s.readImage (bits (r.dw 0) 63 32) = (.ok img, t) →
        (imgKind img = 0 → bits (r.dw 1) 60 48 = 0 → bits (r.dw 7) 21 17 < 24 ∨ bits (r.dw 7) 21 17 = 0x1F →
          let d := t.itemDie (bits (r.dw 7) 21 17)
          t.fld 24 .TRW_WQN d 12 0 < 5120 →
          ∃ u, exec (.launch sid) s = .next u ∧ u.runOf r.s = some { r with run := .item d false } ∧
            u.queued d = t.insertItem r.s (t.queued d)) ∧
        (imgKind img = 1 → t.launchBad r img = false → let n := t.strF r.s 2 31 0
          ((t.trowel.pre.any fun p => p.s == r.s && p.n == n) = true → exec (.launch sid) s = out t) ∧
          ((t.trowel.pre.any fun p => p.s == r.s && p.n == n) = false →
            ((t.preTag r.s).isSome = true → exec (.launch sid) s = out (t.coalesce r img)) ∧
            ((t.preTag r.s) = none → ∀ u : State, let pages := prePages r.cmd (imageRows img).1 (imageRows img).2
              (t.pagesOver (t.strCtx r.s 0 64) pages = (.ok (), u) → exec (.launch sid) s = out ((u.preKeep r.s n u.epochCur).coalesce r img)) ∧
              (t.pagesOver (t.strCtx r.s 0 64) pages = (.aborted, u) → exec (.launch sid) s = out (u.faultStream r 0x03 0)))))) ∧
      (r.opc = 0x02 → ∀ (t : State) (ws : List Word), s.devWordsLin (s.strCtx r.s 0 64) (bits (r.dw 1) 51 0) 16 = (.ok ws, t) →
        let d := gmmOf ws (t.strW r.s 1) (t.strF r.s 0 57 56) (.stream r.s)
        let g := bits (r.dw 0) 33 32
        d.check (gmmRsv ws) = none → t.gangV g = true → t.gmmGangCheck g d = none → t.gangRoom g = true →
        exec (.glaunch sid) s = out ((t.setRun { r with run := .glaunch g true }).gangPut g (.gmm d)))) ∧
  (
    ∀ (s t u : State) (sid : StreamId) (r : StreamRun) (off : Nat) (bs : List Byte), s.stopped = false → s.runOf sid.toNat = some r →
      r.run = .copying off → r.opc = 0x03 ∨ r.opc = 0x04 →
      let n := bits (r.dw 3) 39 0
      let dst := bits (r.dw (if r.opc = 3 then 2 else 1)) 51 0
      let k := min (n - off) (4096 - (dst + off) % 4096)
      (n ≤ off → s.postedBy (.stream r.s) = false → exec (.copyFillComplete sid) s = .next (State.settle (s.finish r))) ∧
      (s.strState r.s = 8 → (dst + off) % 4096 = 0 → off < n → exec (.copyFillComplete sid) s = .next (State.settle (s.dropRun r.s))) ∧
      (off < n → s.strState r.s ≠ 8 ∨ (dst + off) % 4096 ≠ 0 →
        (if r.opc = 3 then s.devReadLin (s.strCtx r.s 1 4096) ((bits (r.dw 1) 51 0 + off) % 2 ^ 52) k
          else (.ok ((List.range k).map fun i => BitVec.ofNat 8 ((r.dw 2).toNat >>> (8 * ((off + i) % 8)))), s)) = (.ok bs, t) →
        t.devWriteLin (s.strCtx r.s 1 4096) ((dst + off) % 2 ^ 52) bs false = (.ok (), u) →
        (n ≤ off + k → u.postedBy (.stream r.s) = false → exec (.copyFillComplete sid) s = .next (State.settle (u.finish r))) ∧
        exec (.copyFillComplete sid) s = .next (State.settle (u.copyOn r (n / 4096 + 2) (off + k)))))

/-- R293, R297, R299, R380: a command, its effects and signal done, retires, where a packet that it needs finds room: HEAD counts it, GEN
counts a LAUNCH or GLAUNCH, and the stream is IDLE when nothing is left in its ring and else READY.
The model's own readings and choices in it: log entry 66. -/
def Obligations.RetirementAdvances : Prop :=
  ∀ (s : State) (r : StreamRun), (s.trowel.enabled.contains r.s) = true → s.strState r.s ≠ 8 →
    (s.evtRoom = true ∨ (r.ntf = false ∧
      s.strCredit r.s + 1 - look (fun _ => 0) s.trowel.credit r.s < max 1 (s.fld 24 .STM_CFG 0 47 32))) →
    ∀ gen : Bool, let t := s.retireBase r gen
      t.runOf r.s = none ∧ t.strF r.s 2 31 0 = (s.strF r.s 2 31 0 + 1) % 2 ^ 32 ∧ t.strF r.s 2 63 32 = s.strF r.s 2 63 32 ∧
      t.strF r.s 5 31 0 = (if gen then (s.strF r.s 5 31 0 + 1) % 2 ^ 32 else s.strF r.s 5 31 0) ∧
      t.strState r.s = (if t.strUsed r.s = 0 then 1 else 2) ∧
      ∀ a, (a < strAddr r.s ∨ strAddr r.s + 64 ≤ a) → t.byte a = s.byte a

/-! ### Sync objects, triggers, windows -/

/-- R304–R306, R337: SYN_OP of an object that exists, holds no poison and has no waiter it satisfies: VALUE becomes the operand or the sum
modulo 2 ^ 64, and no byte outside VALUE changes; whatever waits, the object takes the update. Out of range it sets SYN_STAT. -/
def Obligations.SyncUpdates : Prop :=
  ∀ (b s : State) (q : Src) (v : Word), b.regAccess q 24 .SYN_OP 0 = (true, s) →
    let i := bits v 15 0
    (s.fld 24 .SYN_CFG 0 16 0 ≤ i → exec (.synOp q v) b = .next (State.settle (s.setFld 24 .SYN_STAT 0 0 0 1))) ∧
    (i < s.fld 24 .SYN_CFG 0 16 0 →
      exec (.synOp q v) b = .next (State.settle (s.synUpdate i (bit v 16) (BitVec.ofNat 64 (bits v 63 32))))) ∧
    (i < s.fld 24 .SYN_CFG 0 16 0 → s.anyPoison (synAddr i) 32 = false → (∀ r ∈ s.trowel.runs, ∀ d, r.run ≠ .waiting d) → s.snap = none →
      let w := if bit v 16 then BitVec.ofNat 64 (bits v 63 32) else s.synValue i + BitVec.ofNat 64 (bits v 63 32)
      ∃ t, exec (.synOp q v) b = .next t ∧ t.synValue i = w ∧ (∀ a, (a < synAddr i ∨ synAddr i + 8 ≤ a) → t.byte a = s.byte a))

/-- R308–R312: the due trigger of the lowest number fires, and a trigger of the device's own does its work: STAT
is set; a PER of 0 disarms it and another moves CMP past the present, MISSED growing by the periods missed, up to 255. TT_CMP and TT_CTL of the
240 software triggers take a write, which clears STAT where it writes 1; a write to a trigger of the device's own, 240 to 255, clears its STAT
where it writes 1 and changes nothing else.
R312: after triggers 241, 245 and 240 have fired, the expired entries of their lists are handled, the lowest stream or window first: a
TIMED retires, a WAIT faults with FCODE 5, a window closes with cause 5; a list with none left arms its trigger again. -/
def Obligations.TriggersFire : Prop :=
  (
    ∀ (s : State) (n : TrigId),
      (s.stopped = false → s.triggerDue n.toNat = true → (∀ i < n.toNat, s.triggerDue i = false) →
        let u := s.fireTrigger n.toNat
        let out := fun (v : State) => exec (.triggerFire n) s = .next (State.settle v)
        (n.toNat < 240 ∨ 245 < n.toNat → out u) ∧ (n = 242 → out u.heartbeat) ∧ (n = 243 → out u.snapFire) ∧
        (n = 240 ∨ n = 241 ∨ n = 245 → out { u with trowel := { u.trowel with draining := u.trowel.draining ++ [n.toNat] } }) ∧
        (n = 244 → out (if u.supply.warn then u.warnOff else u))) ∧
      (∀ k, k < 240 → bit (s.reg 24 .TT_CTL k) 2 = false → bit (s.reg 24 .TT_CTL k) 3 = false →
        let t := s.fireTrigger k
        t.flag 24 .TT_CTL k 1 = true ∧
        (s.fld 24 .TT_PER k 63 0 = 0 → t.flag 24 .TT_CTL k 0 = false ∧ t.reg 24 .TT_CMP k = s.reg 24 .TT_CMP k) ∧
        (s.fld 24 .TT_PER k 63 0 ≠ 0 → s.fld 24 .TT_CMP k 63 0 ≤ s.time → t.flag 24 .TT_CTL k 0 = s.flag 24 .TT_CTL k 0 ∧
          t.reg 24 .TT_CMP k = s.reg 24 .TT_CMP k + BitVec.ofNat 64 (((s.time - s.fld 24 .TT_CMP k 63 0) / s.fld 24 .TT_PER k 63 0 + 1)
            * s.fld 24 .TT_PER k 63 0) ∧
          t.fld 24 .TT_CTL k 55 48 = min 255 (s.fld 24 .TT_CTL k 55 48 + (s.time - s.fld 24 .TT_CMP k 63 0) / s.fld 24 .TT_PER k 63 0))) ∧
      ∀ (b : State) (q : Src) (v : Word),
        (b.regAccess q 24 .TT_CMP n.toNat = (true, s) →
          exec (.ttCmpWrite q n v) b = .next (State.settle (if n.toNat < 240 then s.setReg 24 .TT_CMP n.toNat v else s))) ∧
        (b.regAccess q 24 .TT_CTL n.toNat = (true, s) → ∃ t, exec (.ttCtlWrite q n v) b = .next t ∧ t.flag 24 .TT_CTL n.toNat 1 = (s.flag 24 .TT_CTL n.toNat 1 && !bit v 1) ∧
          (n.toNat < 240 → t.flag 24 .TT_CTL n.toNat 0 = bit v 0 ∧ t.fld 24 .TT_CTL n.toNat 47 16 = bits v 47 16) ∧
          (240 ≤ n.toNat → t.reg 24 .TT_CTL n.toNat = s.reg 24 .TT_CTL n.toNat &&& ~~~(v &&& 2)))) ∧
  (
    ∀ (s : State) (n : Nat) (r : StreamRun), s.stopped = false →
      (s.trowel.draining.contains 241 = true → s.firstExpired s.timedList = some n → s.runOf n = some r →
        exec .timedExpiry s = .next (State.settle ((s.finish r).afterExpiry 241 State.timedList))) ∧
      (s.trowel.draining.contains 245 = true → s.firstExpired s.waitList = some n → s.runOf n = some r →
        exec .waitTimeout s = .next (State.settle (((s.faultStream r 0x05 0).countWaiters (bits (r.dw 1) 15 0)).afterExpiry 245 State.waitList))) ∧
      (s.trowel.draining.contains 240 = true → s.firstExpired s.deadlineList = some n →
        exec .windowDeadline s = .next (State.settle ((s.closeWindow n 5).afterExpiry 240 State.deadlineList))) ∧
      ∀ l : List (Nat × Nat), s.firstExpired l = some n → (∃ e ∈ l, e.2 = n ∧ e.1 ≤ s.time) ∧ ∀ e ∈ l, e.1 ≤ s.time → n ≤ e.2)

/-- R313–R315, R319, R327: a read of TRW_WQ takes the oldest item of a die, which runs; TRW_WDONE of a running item retires its LAUNCH or
faults it with FCODE 9, and sets WERR when there is none; TRW_FLUSH closes the open windows it names; TRW_MFAULT fails a member of a
draining window. -/
def Obligations.TrowelRegisters : Prop :=
  ∀ (b s : State) (q : Src) (v : Word),
    (∀ (d : CDie) (st slot : Nat) (l : List (Nat × Nat)) (r : StreamRun), b.regAccess q 24 .TRW_WQ d.val = (true, s) → s.queued d.val = (st, slot) :: l → s.runOf st = some r →
      ∃ t, exec (.trwWq q d) b = .next t ∧ t.queued d.val = l ∧ t.runOf r.s = some { r with run := .item d.val true }) ∧
    (∀ d : CDie, b.regAccess q 24 .TRW_WQ d.val = (true, s) → s.queued d.val = [] → exec (.trwWq q d) b = .next (State.settle s)) ∧
    (b.regAccess q 24 .TRW_WDONE 0 = (true, s) → ∀ (r : StreamRun) (d : Nat), s.runOf (bits v 17 0) = some r → r.run = .item d true →
      exec (.trwWdone q v) b = .next (State.settle
        ((if bit v 18 then s.faultStream r 0x09 (bits v 26 19) else s.finish r).wqnSync d))) ∧
    (b.regAccess q 24 .TRW_WDONE 0 = (true, s) → s.runOf (bits v 17 0) = none → exec (.trwWdone q v) b = .next (State.settle (s.setFld 24 .TRW_STAT 0 26 26 1))) ∧
    (b.regAccess q 24 .TRW_FLUSH 0 = (true, s) → exec (.trwFlush q v) b = .next (State.settle
      ((s.trowel.windows.filter fun e => e.2.state == .openW && (bit v 16 || e.2.kih == bits v 15 0)).foldl
        (fun u e => u.closeWindow e.1 4) s))) ∧
    (b.regAccess q 24 .TRW_MFAULT 0 = (true, s) → (s.window (bits v 9 0)).state = .draining → bits v 21 10 < (s.window (bits v 9 0)).members.length →
      ∃ t, exec (.trwMfault q v) b = .next t ∧
        ((t.window (bits v 9 0)).members.getD (bits v 21 10) {}).failed = some (0x07, bits v 29 22)) ∧
    (b.regAccess q 24 .TRW_MFAULT 0 = (true, s) → (s.window (bits v 9 0)).state ≠ .draining → exec (.trwMfault q v) b = .next (State.settle (s.setFld 24 .TRW_STAT 0 27 27 1)))

/-- R318–R321: a window closes with its cause, the image's next serial number, the slot and the group that the serial gives; the next
window of the image takes the serial after it.
R318, R319, R322, R325, R326, R329, R330: a waiting LAUNCH opens the lowest free window, or joins the OPEN one of its key; the oldest
closed window of a gang whose gates pass is dispatched step by step: translations, seed table, Glaze descriptor, and, with room there and
in staging, the gang's queue; a drained window's members are scattered in order, each with its record and its outcome.
The model's own readings and choices in it: log entries 20, 22, 66, 67. -/
def Obligations.WindowsClose : Prop :=
  (
    ∀ (s : State) (w cause : Nat),
      let x := s.window w
      let t := s.closeWindow w cause
      let y := t.window w
      y.state = .closed ∧ y.close = cause ∧ y.serial = s.nextSerial x.kih ∧ t.nextSerial x.kih = s.nextSerial x.kih + 1 ∧
      y.slot = s.nextSerial x.kih % max 1 (imgNslot x.image) ∧ y.group = imgGrp x.image + (if imgAlt x.image then s.nextSerial x.kih % 2 else 0) ∧
      y.members = x.members ∧ y.closedAt = s.trowel.closeOrder + 1 ∧ (∀ k, k ≠ x.kih → t.nextSerial k = s.nextSerial k) ∧
      ∀ v, v ≠ w → t.window v = s.window v) ∧
  (
    ∀ (s t : State), s.stopped = false →
      (∀ (r : StreamRun) (rest : List StreamRun) (img : List Word) (w : Nat),
        ((s.trowel.runs.filter fun r => r.run == .wantsWindow).mergeSort fun a b => decide (a.s ≤ b.s)) = r :: rest →
        s.readImage (bits (r.dw 0) 63 32) = (.ok img, t) →
        let held := if bit (r.dw 0) 10 then t.openWindowOf r else none
        let dl := if bits (img.getD 0 0) 63 32 = 0 then t.fld 24 .TRW_DEFDL 0 31 0 else bits (img.getD 0 0) 63 32
        let x : Window :=
          { state := .openW, kih := bits (r.dw 0) 63 32, ckey := bits (r.dw 1) 31 0, shape := bits (r.dw 1) 47 32
            deadline := BitVec.ofNat 64 (t.time + dl), opened := BitVec.ofNat 64 t.time, gang := imgGang img, image := img
            ptb := t.strW r.s 1, ring := t.strF r.s 0 57 56, ckeyOwn := !bit (r.dw 0) 10, tag := t.epochCur }
        (held = none → ((List.range 1024).find? fun w => decide ((t.window w).state = .free)) = some w → t.slotRoom = true →
          exec .windowOpenDeferred s = .next (State.settle (((t.setWindow w x).joinWindow r w).armTimers))) ∧
        (held = some w → t.overCapacity (bits (r.dw 0) 63 32) img (rowBlocks (t.window w).members + (bits (r.dw 1) 60 48 + 255) / 256) = false →
          exec .windowOpenDeferred s = .next (State.settle (t.joinWindow r w)))) ∧
      (∀ (g : Gang) (w : Nat) (x : Window) (rest : List (Nat × Window)), s.flag 24 .THM_STAT 0 1 = false →
        s.closedWindows g.val = (w, x) :: rest →
        let queued := fun (a : State) => let z := a.window w
          a.postedBy (.window w) = false → a.gangRoom z.gang = true → 1 + (z.members.length + 5) / 6 ≤ a.stagingRoom →
          exec (.windowDispatch g) s = .next (State.settle (State.gangPut (State.setWindow (a.windowRecord z) w
            { z with state := .queued, tstart := BitVec.ofNat 64 (a.windowRecord z).time }) z.gang
            (.gmm (imgGmm z.image (256 * rowBlocks z.members) z.group z.ptb z.ring w))))
        (x.step = 3 → queued s) ∧
        ∀ (img : List Word) (u v y : State), x.step = 0 → s.gatesPass x = true → s.readImage x.kih = (.ok img, t) →
          let x := { x with image := img }
          let ctx := winCtx w x
          let wrec := bits (img.getD 14 0) 51 0
          let gd := bits (img.getD 7 0) 51 0 + (if x.group = imgGrp img then 0 else 0xC0)
          let at_ := fun (a : State) (n : Nat) => a.setWindow w { a.window w with step := n }
          (t.setWindow w x).dispatch1 w x = (some true, u) → (at_ u 1).recordRoom ((at_ u 1).window w) = true →
          (if wrec = 0 then (.ok (), at_ u 1) else (at_ u 1).devWriteLin ctx ((wrec + 0x10000 * x.slot) % 2 ^ 52)
            (seedTable ((at_ u 1).window w)) false) = (.ok (), v) →
          (at_ v 2).writeDws ctx ((glazeWrites x).map fun e => (gd + e.1, e.2)) = (.ok (), y) → queued (at_ y 3)) ∧
      ∀ w : WinId, ((s.window w.toNat).state = .draining ∧ (s.window w.toNat).posted = 0) ∨ (s.window w.toNat).state = .scatter →
        let x := { s.window w.toNat with state := .scatter }
        let u := s.setWindow w.toNat x
        let y := x.members.getD x.next {}
        let status := if y.cancelled then 5 else if y.failed.isSome then 2 else 1
        (if y.crec = 0 ∨ x.recDone then (.ok (), u) else u.devWriteLin { q := kReq, eng := 0, own := .stream y.s, ptb := y.ptb, ring := y.ring }
          y.crec (memberRecord x x.next status u.time) false) = (.ok (), t) → t.postedBy (.stream y.s) = false →
        let o := match t.runOf y.s with
          | none => t
          | some run => match y.failed with
            | some (fcode, code) => t.faultStream run fcode (if fcode = 0x09 then code else 0)
            | none => if y.cancelled then t.dropRun y.s else t.finish run
        exec (.scatterMember w) s = .next (State.settle (if x.members.length ≤ x.next + 1 then o.freeWindow w.toNat
          else o.setWindow w.toNat { x with next := x.next + 1, recDone := false })))

/-! ### The fault queue and translation epochs -/

/-- R137–R141: a requester's translation that faults for the first time, no record holding its key and one free, makes a NEW record whose
eight doublewords hold its address, table, cause, level, ring and kind, its creator with a join count of 1, the creator's list slot and no
other, and the fabric time; a read of FQ_HEAD takes the oldest NEW record into service; RESOLVE and ABORT free a
record that is not free, and else set the error bit of FQ_STAT; a waiting requester gets a record once one is free.
R131–R133, R135: GO of TRW_EPOCH_BUMP, from the host or from ring 0 or 1, with no round in progress advances CUR, sets PEND, invalidates every die's translations and
waits for all 25 dies; in a round it asks for one more. A die with no access under way from before the round acknowledges, and is taken
off; the last lets the round end: PEND clears, CUR stays, it is written to the echo address if one is enabled, and the interrupt of
TRW_EPOCH_ROUTE is sent.
The model's own readings and choices in it: log entries 60, 63, 67. -/
def Obligations.FaultsAndEpochs : Prop :=
  (
    (∀ (s : State) (w : Waiter), s.recFor w = none → s.freeRecs ≠ [] → w.die < 32 → w.eng < 16 → w.tbase < 2 ^ 48 →
      w.cause < 8 → w.level < 4 → w.ring < 4 →
      ∃ i, i ∈ s.freeRecs ∧ (s.fqFault w).recState i = 1 ∧ (s.fqFault w).fqOrder = s.fqOrder ++ [i] ∧
        let r := fun j => (s.fqFault w).regW 24 .FQ_REC i j
        r 0 = BitVec.ofNat 64 w.la ∧ bits (r 1) 47 0 = w.tbase ∧ bits (r 1) 50 48 = w.cause ∧ bits (r 1) 52 51 = w.level ∧
        bits (r 1) 54 53 = w.ring ∧ bit (r 1) 55 = w.write ∧ bits (r 1) 63 56 = 0 ∧
        r 2 = BitVec.ofNat 64 (w.die + 2 ^ 5 * w.eng + 2 ^ 16 + 2 ^ 33) ∧
        r 3 = BitVec.ofNat 64 (w.die + 2 ^ 5 * w.eng + 2 ^ 9 * b2n w.write + 2 ^ 10 * w.cause + 2 ^ 15) ∧
        r 4 = 0 ∧ r 5 = 0 ∧ r 6 = 0 ∧ r 7 = BitVec.ofNat 64 s.time) ∧
    (∀ (b s : State) (q : Src) (v : Word) (i : Nat),
      (b.regAccess q 24 .FQ_HEAD 0 = (true, s) → (s.fqOrder.find? fun i => s.recState i == 1) = none → exec (.fqHead q) b = .next (State.settle s)) ∧
      (b.regAccess q 24 .FQ_HEAD 0 = (true, s) → (s.fqOrder.find? fun i => s.recState i == 1) = some i → i < 256 →
        ∃ t, exec (.fqHead q) b = .next t ∧ t.recState i = 2 ∧ (∀ j < 256, j ≠ i → t.recState j = s.recState j) ∧ t.fqOrder = s.fqOrder) ∧
      (b.regAccess q 24 .FQ_CMD 0 = (true, s) → s.recState (bits v 7 0) ≠ 0 →
        exec (.resolve q v) b = .next (State.settle ((s.fqFree (bits v 7 0) false).preRun)) ∧
        exec (.abort q v) b = .next (State.settle ((s.fqFree (bits v 7 0) true).preRun))) ∧
      (b.regAccess q 24 .FQ_CMD 0 = (true, s) → s.recState (bits v 7 0) = 0 →
        exec (.resolve q v) b = .next (State.settle (s.setFld 24 .FQ_STAT 0 19 19 1)) ∧
        exec (.abort q v) b = .next (State.settle (s.setFld 24 .FQ_STAT 0 19 19 1)))) ∧
    (∀ (s t : State) (d : Die) (eng : BitVec 3) (la : Lin) (ring : BitVec 2) (write : Bool) (ptb : Word) (cause level : Nat), s.stopped = false →
      let w : Waiter := { die := d.val, eng := eng.toNat, tbase := bits ptb 47 19 * 2 ^ 19, span := la.toNat / 2 ^ 25, la := la.toNat
                          ring := ring.toNat, write, own := .unit d.val eng.toNat }
      s.fqWaits w = false → (s.fqAbort.any w.same) = false →
      s.xlateDev (if d.val = 24 then kReq else ⟨d.val, 4⟩) eng.toNat w.own (s.fqFresh.any w.same) ptb ring.toNat la.toNat write
        = (.fault cause level, t) →
      exec (.fqFault d eng la ring write ptb) s = .next (State.settle
        (State.fqFault { t with fqFresh := t.fqFresh.filter fun x => !w.same x } { w with cause, level }))) ∧
    ∀ (s : State) (w : Waiter) (l : List Waiter), s.stopped = false → s.fqWait = w :: l → s.freeRecs ≠ [] ∨ (s.recFor w).isSome = true →
      exec .fqDeferredCreate s = .next (State.settle (State.fqFault ({ s with fqWait := l }) w))) ∧
  (
    ∀ (s : State),
      (∀ (b : State) (q : Src) (v : Word), b.regAccess q 24 .TRW_EPOCH_BUMP 0 = (true, s) → s.epochMay q = true → bit v 0 = true →
        (s.flag 24 .TRW_EPOCH 0 32 = false → ∃ t, exec (.trwEpochBump q v) b = .next t ∧
          t.fld 24 .TRW_EPOCH 0 31 0 = (s.fld 24 .TRW_EPOCH 0 31 0 + 1) % 2 ^ 32 ∧ t.flag 24 .TRW_EPOCH 0 32 = true ∧ t.epochWait = List.range 25) ∧
        (s.flag 24 .TRW_EPOCH 0 32 = true →
          exec (.trwEpochBump q v) b = .next (State.settle (s.setFld 24 .TRW_EPOCH 0 33 33 1)))) ∧
      (s.stopped = false →
        (∀ d : Die, s.oldAccess d.val = false → exec (.epochDieAck d) s = .next (State.settle { s with epochWait := s.epochWait.filter (· != d.val) })) ∧
        (s.flag 24 .TRW_EPOCH 0 32 = true → s.epochWait = [] →
          let e := s.setReg 24 .TRW_EPOCH 0 (BitVec.ofNat 64 (s.fld 24 .TRW_EPOCH 0 31 0))
          let ends := fun (u : State) => exec .epochRoundEnd s = .next (State.settle
            (if s.flag 24 .TRW_EPOCH 0 33 then State.epochStart (u.sendIrq (u.fld 24 .TRW_EPOCH_ROUTE 0 15 0) 24)
              else u.sendIrq (u.fld 24 .TRW_EPOCH_ROUTE 0 15 0) 24))
          (s.flag 24 .TRW_EPOCH_ECHO 0 0 = false → ends e) ∧
          (s.flag 24 .TRW_EPOCH_ECHO 0 0 = true → ∀ u : State,
            e.devWrite kReq .echo 64 (bits (s.reg 24 .TRW_EPOCH_ECHO 0) 47 3 * 8) (toBytes 8 (s.fld 24 .TRW_EPOCH 0 31 0)) false = (.ok (), u) →
            ends u))))

/-! ### HBM, errors, links and packets -/

/-- R344–R346, R350, R353, R357, R358: a controller's read that finds a single-bit error counts it as corrected, and one that finds an
uncorrectable error marks the sector and logs class 0x02; patrol reads do the same while patrol is on; a write leaves its bytes at its
address and no other byte changed; counts read out of the stack add to HBM_CHERR; a readout of 100 °C trips the stack; PMAP_PEND takes
new fences. A tile store's patrol marks a line likewise, and its fill's end lets requests go on. A write of HBM_MRG while the device is
locked is discarded (R355); unlocked it sets the register's fields, but none of them with RUN while a test runs; RUN with a reference within
±10 steps starts the test when none runs and no supply warning stands, on the pseudo-channel the register names then, and RES reports it in
progress; a running test ends with its error count, DONE set and RUN clear.
The model's own readings and choices in it: log entries 27, 32. -/
def Obligations.HbmCommands : Prop :=
  ∀ s : State, s.stopped = false →
    let out := fun (u : State) => (.next (State.settle u) : Out)
    let found := fun (pa ch pc : Nat) (q : Req) (bad : BitVec 2) =>
      let d := stackDie (ch / 16)
      let a := unitBase pa
      if s.poisonedAt a = true then s
      else if bad = 1 then State.corrected (s.satFld d .HBM_CHERR (ch % 16) 31 0 1) d 5 1
      else if bad = 2 then
        State.logErr ((s.setPoison a true).satFld d .HBM_CHERR (ch % 16) 47 32 1) d 0x02 1 5 q (some a) true (ch + 2 ^ 8 * pc)
      else s
    (∀ (pa : BitVec 48) (ch pc : Nat), s.patrolServes pa.toNat = some (ch, pc) → let d := stackDie (ch / 16)
      s.flag d .HBM_SCRUB 0 32 = true → s.supply.warn = false → ∀ bad, exec (.patrolScrub pa bad) s = out (found pa.toNat ch pc ⟨d, 5⟩ bad)) ∧
    (∀ (pa : BitVec 48) (ch pc : Nat), s.hbmServes pa.toNat = some (ch, pc) →
      let a := unitBase pa.toNat
      (∀ (rd : Die) (ru : BitVec 4) (bad : BitVec 2), exec (.hbmRead rd ru pa bad) s = out (found pa.toNat ch pc ⟨rd.val, ru.toNat⟩ bad)) ∧
      ∀ (rd : Die) (ru : BitVec 4) (data : List Byte) (poisoned : Bool) (bad : BitVec 2), 0 < data.length → pa.toNat % 32 + data.length ≤ 32 →
        ∃ t, exec (.hbmWrite rd ru pa data poisoned bad) s = .next t ∧ t.bytes pa.toNat data.length = data ∧
          (∀ b, b < pa.toNat ∨ pa.toNat + data.length ≤ b → t.byte b = s.byte b) ∧ (data.length = 32 → t.poisonedAt a = poisoned)) ∧
    (∀ (st : Stack) (counts : List Nat), s.flag (stackDie st.val) .HBM_STAT 0 0 = true →
      exec (.ecsReadout st counts) s = out ((enumFrom 0 (counts.take 16)).foldl (fun s e => s.satFld (stackDie st.val) .HBM_CHERR e.1 31 0 e.2) s)) ∧
    (∀ (st : Stack) (temp : BitVec 8), s.flag (stackDie st.val) .HBM_STAT 0 0 = true →
      ∃ t, exec (.stackTempReadout st temp) s = .next t ∧ t.fld (stackDie st.val) .HBM_TEMP 0 7 0 = temp.toNat ∧
        t.fld (stackDie st.val) .HBM_TEMP 0 15 8 = max temp.toNat (s.fld (stackDie st.val) .HBM_TEMP 0 15 8) ∧
        (t.flag (stackDie st.val) .HBM_STAT 0 1 = (s.flag (stackDie st.val) .HBM_STAT 0 1 || decide (100 ≤ temp.toNat)))) ∧
    (∀ (q : Src) (j : BitVec 2) (v : Word) (u : State), s.regAccess q 24 .PMAP_PEND j.toNat = (true, u) →
      ∃ t, exec (.pmapPend q j v) s = .next t ∧ t.reg 24 .PMAP_PEND j.toNat = u.reg 24 .PMAP_PEND j.toNat ||| v) ∧
    (∀ (d : CDie) (line : BitVec 25) (bad : BitVec 2), d.val ∉ s.tileFill → 64 * line.toNat < 0x7C000000 →
      let pa := tileBase + 0x80000000 * d.val + 64 * line.toNat
      s.poisonedAt pa = false → exec (.tileStorePatrol d line bad) s = out (if bad = 1 then s.corrected d.val 6 1
        else if bad = 2 then (s.setPoison pa true).logErr d.val 0x02 1 6 ⟨d.val, 6⟩ (some pa) true 0 else s)) ∧
    (∀ d : CDie, exec (.tileStoreFillDone d) s = out { s with tileFill := s.tileFill.filter (· != d.val) }) ∧
    (∀ st : Stack, st.val ∈ s.hbmWait → exec (.hbmRetrainDone st) s =
      out ((({ s with hbmWait := s.hbmWait.filter (· != st.val) }).setFld (stackDie st.val) .HBM_STAT 0 0 0 1).setFld (stackDie st.val)
        .HBM_STAT 0 5 5 (b2n s.supply.warn))) ∧
    ∀ (q : Src) (st : Stack) (v : Word) (errs : BitVec 32),
    let d := stackDie st.val
    let vref := (BitVec.ofNat 5 (bits v 16 12)).toInt
    (∀ b : State, b.regAccess q d .HBM_MRG 0 = (true, s) → s.flag 24 .SEC_DBG 0 1 = false → exec (.hbmMrgRun q st v) b = .next s.settle) ∧
    (∀ b : State, b.regAccess q d .HBM_MRG 0 = (true, s) → s.flag 24 .SEC_DBG 0 1 = true →
      let u := s.setReg d .HBM_MRG 0 ((s.reg d .HBM_MRG 0 &&& ~~~0x1FFFF) ||| (v &&& 0x1FFFF))
      (bit v 17 = false → exec (.hbmMrgRun q st v) b = out u) ∧
      (bit v 17 = true → s.flag d .HBM_MRG_RES 0 33 = true → exec (.hbmMrgRun q st v) b = out s) ∧
      (bit v 17 = true → s.flag d .HBM_MRG_RES 0 33 = false → s.supply.warn = false → -10 ≤ vref → vref ≤ 10 →
        exec (.hbmMrgRun q st v) b = out { (u.setFld d .HBM_MRG_RES 0 34 32 2) with
          supply := { s.supply with margin := put (fun _ => 0) s.supply.margin d (bits v 4 0) } })) ∧
    (s.flag d .HBM_MRG_RES 0 33 = true →
      ∃ t, exec (.marginTestDone st errs) s = .next t ∧ t.fld d .HBM_MRG_RES 0 31 0 = errs.toNat ∧
        t.flag d .HBM_MRG_RES 0 32 = true ∧ t.flag d .HBM_MRG_RES 0 33 = false)

/-- R19, R20, R28, R461, R462, R465–R468: the eighth replay in a row from one transfer exhausts the pair that carries an edge; a doubled
edge switches to its standby pair and any other goes down; a reset die's ports carry traffic again; a FIFO that disagrees with its count is
logged as class 0x07 and loses what it held; a late response as 0x06; a request that waited too long as 0x05, an access at its home ending
when it is next tried; a read of ERR_HEAD frees the oldest entry.
The model's own readings and choices in it: log entries 32, 33, 61. -/
def Obligations.ErrorReports : Prop :=
  ∀ s : State, s.stopped = false →
    let out := fun (u : State) => (.next (State.settle u) : Out)
    (∀ (e : Fin 40) (side : Bool) (seq : BitVec 8), s.edge e.val ≠ .down →
      let key := 2 * e.val + b2n side
      let old := look (fun _ => {}) s.scrim key
      let sent := s.transfers (if side then (edgeDies e.val).1 else (edgeDies e.val).2)
        (edgeSide (if side then (edgeDies e.val).1 else (edgeDies e.val).2) e.val)
      let n := if old.seq = seq.toNat ∧ old.n ≠ 0 ∧ sent < old.sent + 256 then old.n + 1 else 1
      let u := s.corrected (if side then (edgeDies e.val).2 else (edgeDies e.val).1) 7 1
      exec (.scrimReplay e side seq) s = out (if 8 ≤ n then State.edgeFails { u with scrim := put (fun _ => {}) u.scrim key {} } e.val
        else { u with scrim := put (fun _ => {}) u.scrim key { seq := seq.toNat, n, sent } })) ∧
    (∀ e : Fin 40, doubledEdge e.val = true → s.edge e.val = .primary →
      ∃ t, exec (.standbySwitch e) s = .next t ∧ t.edge e.val = .standby ∧ (∀ f, f ≠ e.val → t.edge f = s.edge f) ∧
        t.flag (edgeDies e.val).1 .SCR_PORT_STAT 0 5 = true ∧ t.flag (edgeDies e.val).2 .SCR_PORT_STAT 0 5 = true ∧
        ∀ side : Bool, look (fun _ => {}) t.scrim (2 * e.val + b2n side) = {}) ∧
    (∀ e : Fin 40, s.edge e.val ≠ .down → (doubledEdge e.val = true → s.edge e.val = .standby) →
      ∃ t, exec (.edgeDown e) s = .next t ∧ t.edge e.val = .down ∧ (∀ f, f ≠ e.val → t.edge f = s.edge f) ∧
        t.flag (edgeDies e.val).1 .SCR_PORT_STAT 0 6 = true ∧ t.flag (edgeDies e.val).2 .SCR_PORT_STAT 0 6 = true ∧
        (∀ p ∈ [(edgeDies e.val).1, (edgeDies e.val).2], t.flag p .SCR_PORT_STAT 0 (edgeSide p e.val) = false)) ∧
    (∀ d : CDie, ∃ t, exec (.scrimPortRetrainDone d) s = .next t ∧ ∀ side < 4, t.flag d.val .SCR_PORT_STAT 0 side =
      (match neighbour d.val side with | some o => s.edge (edgeNo d.val o) != .down | none => false)) ∧
    (∀ (d : Die) (unit : BitVec 4) (queue entries : BitVec 16),
      let key := d.val * 2 ^ 20 + unit.toNat * 2 ^ 16 + queue.toNat
      let v := if unit = 8 then s.loseWaiting .agd entries.toNat else if unit = 9 then s.loseWaiting .twn entries.toNat else if unit = 10 then s.loseWaiting .hwk entries.toNat
        else s.loseFlights d.val entries.toNat
      let recent := v.time :: (look (fun _ => []) v.fifoErr key).filter fun t => decide (v.time < t + 1000000000)
      let u := { v with fifoErr := put (fun _ => []) v.fifoErr key (recent.take 4) }
      let w := u.freeNat.2.logErr d.val 0x07 1 unit.toNat ⟨d.val, unit.toNat⟩ (some u.freeNat.1) false (queue.toNat + 2 ^ 16 * entries.toNat)
      exec (.fifoPointerMismatch d unit queue entries) s = out (if 4 ≤ recent.length then w.setReplace else w)) ∧
    (∀ (tag : BitVec 10) (x : Drd), (s.drds.find? fun x => x.tag == tag.toNat && x.ans.isNone && !x.held && x.own != Own.none) = some x →
      s.expired x.own.req x.since = true →
      ∃ t, exec (.responseTimeout (.drd tag)) s = .next t ∧ ({ tag := x.tag, pa := x.pa, late := true } : Drd) ∈ t.drds ∧
        { x with ans := some (23, []) } ∈ t.drds ∧ x ∉ t.drds) ∧
    (∀ (tag : BitVec 14) (m : Mirw), (s.twin.mirw.find? fun m => m.tag == tag.toNat && !m.late) = some m → s.expired m.own.req m.since = true →
      exec (.responseTimeout (.mirw tag)) s = out (State.mirwFailed (State.logTimeout { s with twin := { s.twin with
        mirw := s.twin.mirw.map fun e => if e == m then { m with own := .none, lsn := 0, late := true } else e } } m.own.req (0x200000000000 + m.off)) m 7)) ∧
    (∀ (addr : Word) (p : Pkt), ((s.dwrLost ++ (s.link .agd).unsent).find? fun p => p.type == 0x12 && p.b == addr.toNat && p.own != Own.none)
      = some p → s.expired p.own.req p.since = true → exec (.responseTimeout (.dwr addr)) s = out (s.dwrTimeout p)) ∧
    (∀ (tag : BitVec 14) (m : Mirw), (s.hrds.find? fun d => d.tag == tag.toNat && d.ans.isNone && d.own != .none) = none →
      (s.hawk.writes.find? fun m => m.tag == tag.toNat && m.own != .none) = some m → s.expired kReq m.since = true →
      exec (.responseTimeout (.hawk tag)) s = out (State.postFailed (State.logTimeout { s with hawk := { s.hawk with
        writes := s.hawk.writes.map fun e => if e == m then { m with own := .none, late := true } else e } } kReq (m.off % 2 ^ 48)) m.own m.off 7)) ∧
    (∀ (c : CoreId) (pa : BitVec 48) (e : ElemAcc),
      ((s.core c).unacked.find? fun e => e.parts.any fun p => decide (p.pa ≤ pa.toNat ∧ pa.toNat < p.pa + p.n)) = some e →
      s.expired (reqOf c) e.since = true →
      exec (.responseTimeout (.store c pa)) s = out ((s.logTimeout (reqOf c) pa.toNat).lostStore c pa.toNat)) ∧
    (∀ c : CoreId, exec (.responseTimeout (.access c)) s = out (s.waitsOut (reqOf c))) ∧
    (∀ d : CDie, exec (.responseTimeout (.engine d)) s = out (s.waitsOut ⟨d.val, 4⟩)) ∧
    exec (.responseTimeout .kdie) s = out (s.waitsOut ⟨24, 11⟩) ∧
    (∀ q : Req, (s.waitsOut q).waits = s.waits.map fun w =>
      if (w.die == q.die && w.unit == q.unit && s.expired q w.since) = true then { w with out := true } else w) ∧
    (∀ (d : Die) (unit : BitVec 4) (pa : BitVec 48),
      exec (.orphanResponse d unit pa) s = out (s.logErr d.val 0x06 0 unit.toNat ⟨d.val, unit.toNat⟩ (some pa.toNat) false 0)) ∧
    ∀ (q : Src) (d : Die) (u : State), s.regAccess q d.val .ERR_HEAD 0 = (true, u) →
      (look (fun _ => []) u.errOrder d.val = [] → exec (.errHead q d) s = out u) ∧
      ∀ (i : Nat) (l : List Nat), look (fun _ => []) u.errOrder d.val = i :: l →
        exec (.errHead q d) s = out ({ u with errOrder := put (fun _ => []) u.errOrder d.val l }.setFld d.val .ERR_STAT 0 6 0 l.length)

/-- R363–R365, R369, R393, R415: a link's states: DETECT to TRAIN with signal on the lanes of a group, TRAIN to ALIGN, ALIGN to PARAM with
the widest width among the trained lanes or to DETECT, PARAM to ACTIVE with the credit advertised, or its shortfall logged, ACTIVE to
RECOVERY and back, a time limit or a retrain to DETECT, or to DISABLED while AGD_LCTL.DIS is set; AGD_LCTL retrains or disables the Agdoa link.
The model's own readings and choices in it: log entries 14, 23, 68. -/
def Obligations.LinkStates : Prop :=
  ∀ (s : State) (l : LinkId), s.stopped = false →
    let k := s.link l
    let out := fun (u : State) => (.next (State.settle u) : Out)
    let falls := fun (i : Instr) => exec i s = out (s.linkToDetect l) ∧
      (s.twin.mirw = [] → s.snap = none → ∃ t, exec i s = .next t ∧ (t.link l).state =
        if (l = .agd ∧ s.flag 24 .AGD_LCTL 0 3) ∨ (l = .twn ∧ s.twinHere = false) then 0 else 1)
    (∀ lanes : BitVec 32, k.state = 1 → (∃ g, 8 * g < linkLanes l ∧ lanes.toNat / 2 ^ (8 * g) % 256 = 255) →
      ∃ t, exec (.linkSignalDetect l lanes) s = .next t ∧ t.link l = { k with state := 2 }) ∧
    (∀ good : BitVec 32, k.state = 2 →
      exec (.linkTrainDone l good) s = out (s.setLink l { k with state := 3, good := good.toNat % 2 ^ linkLanes l })) ∧
    (∀ (rev : Bool) (pol : BitVec 32), k.state = 3 →
      (∀ w g, chooseWidth l k.good (if l = .agd then s.fld 24 .AGD_LCTL 0 2 1 else 0) = some (w, g) →
        exec (.linkAlignDone l rev pol) s = out
          (s.setLink l { k with state := 4, width := w, group := g, rev := rev, pol := pol.toNat % 2 ^ linkLanes l, adv := advertised l })) ∧
      (chooseWidth l k.good (if l = .agd then s.fld 24 .AGD_LCTL 0 2 1 else 0) = none → falls (.linkAlignDone l rev pol))) ∧
    (∀ req rsp evt mgt : BitVec 16, k.state = 4 →
      (creditsOk l req.toNat rsp.toNat evt.toNat mgt.toNat = true →
        ∃ t, exec (.linkParamDone l req rsp evt mgt) s = .next t ∧ (t.link l).state = 5 ∧
          (l = .hwk → k.wait = [] → (t.link l).credit = [req.toNat, rsp.toNat, evt.toNat, mgt.toNat])) ∧
      (creditsOk l req.toNat rsp.toNat evt.toNat mgt.toNat = false → exec (.linkParamDone l req rsp evt mgt) s = out (State.logErr
        (if l = .agd then s.setReg 24 .AGD_CRED 0 (mgt ++ evt ++ rsp ++ req) else s) 24 0x11 1 (linkUnit l) ⟨24, linkUnit l⟩ none false 0))) ∧
    (k.state ∈ [2, 3, 4, 6] → falls (.linkStateTimeout l)) ∧
    (k.state = 5 → ∃ t, exec (.linkRecovery l) s = .next t ∧ (t.link l).state = 6) ∧
    (k.state = 6 → k.replays < 7 → ∃ t, exec (.linkRecoveryDone l) s = .next t ∧ (t.link l).state = 5) ∧
    (k.state = 5 ∨ k.state = 6 → falls (.linkRetrain l)) ∧
    ∀ (b : State) (q : Src), b.regAccess q 24 .AGD_LCTL 0 = (true, s) →
      (s.flag 24 .AGD_LCTL 0 3 = false → (s.link .agd).state ≠ 0 → ∃ t, exec (.agdLctlRetrain q) b = .next t ∧ (t.link .agd).state = 1 ∧
        t.flag 24 .AGD_LCTL 0 0 = false) ∧
      ∀ v : Word, (bit v 3 = true → ∃ t, exec (.agdLctlDis q v) b = .next t ∧ (t.link .agd).state = 0) ∧
        (bit v 3 = false → s.flag 24 .AGD_LCTL 0 3 = true → (s.link .agd).state = 0 →
          ∃ t, exec (.agdLctlDis q v) b = .next t ∧ (t.link .agd).state = 1)

/-- R362, R366, R367, R370: of a good codeword the ACK is taken, and a flit that comes next is counted and acknowledged; an uncorrectable one is discarded, with a
NAK when it starts an episode; a NAK and an ACK timeout replay from their flit; a credit return adds to the credit held, and the device
returns what it owes in one LCTL.
The model's own readings and choices in it: log entries 12, 15, 68. -/
def Obligations.FlitsAndCredit : Prop :=
  ∀ (s : State) (l : LinkId), (s.link l).state = 5 →
    let k := s.link l
    let out := fun (u : State) => (.next (State.settle u) : Out)
    (∀ (fixed seqd : Bool) (fseq : BitVec 9) (ack : Option (BitVec 9)) (odd : List OddPkt),
      let c := if l = .agd ∧ fixed = true then s.countReg 24 .AGD_FECC 0 1 else s
      let e := if l = .agd then s.countReg 24 .AGD_FECU 0 1 else s
      let u := c.setLink l (match ack with | some a => Link.ackTo { k with badRun := 0 } a.toNat | none => { k with badRun := 0 })
      (seqd = true → (u.link l).rx % 512 = fseq.toNat → exec (.flitReceive l false fixed seqd fseq ack odd) s =
        out (odd.foldl (fun v p => v.discardOdd l p)
          (u.setLink l (Link.pump { u.link l with rx := (u.link l).rx + 1, skipping := false })))) ∧
      (seqd = false ∨ (u.link l).rx % 512 ≠ fseq.toNat → exec (.flitReceive l false fixed seqd fseq ack odd) s = out u) ∧
      (k.badRun < 15 → exec (.flitReceive l true fixed seqd fseq ack odd) s =
        out (let u := e.setLink l { k with badRun := k.badRun + 1, skipping := true }
          if k.skipping = true then u else u.send l { type := 0x01, a := 1, b := k.rx % 512, data := List.replicate 16 0 })) ∧
      (15 ≤ k.badRun → exec (.flitReceive l true fixed seqd fseq ack odd) s = out (e.recoverLink l))) ∧
    (∀ seq : BitVec 9, let n := k.acked + (seq.toNat + 512 - k.acked % 512) % 512
      n < k.tx → exec (.nak l seq) s = out (s.replayFrom l n)) ∧
    (k.acked < k.tx → exec (.ackTimeoutReplay l) s = out (s.replayFrom l k.acked)) ∧
    (∀ n, let r := if k.replays ≠ 0 ∧ k.replayAt = n then k.replays + 1 else 1
      let u := s.setLink l { k with replayAt := n, replays := r, fcw := k.fcwOf (some (k.tx - 1)) }
      (8 ≤ r → s.replayFrom l n = s.recoverLink l) ∧
      (r < 8 → (l ≠ .agd → s.replayFrom l n = u) ∧
        (l = .agd → s.replayFrom l n = State.countReg (if k.sent.any fun e => e.2.type == 0x50 && decide (n ≤ e.1) then
          { u with sync := { u.sync with spoilt := true } } else u) 24 .AGD_REPLAY 0 1))) ∧
    (∀ (req rsp evt mgt : BitVec 16) (a b c d : Nat), k.credit = [a, b, c, d] → exec (.lctl l req rsp evt mgt) s =
      out (s.setLink l (Link.pump { k with credit := [a + req.toNat, b + rsp.toNat, c + evt.toNat, d + mgt.toNat] }))) ∧
    (k.owed.any (· != 0) = true → exec (.creditReturnSend l) s = out (State.send (s.setLink l { k with owed := [0, 0, 0, 0] }) l
      { type := 0x01, a := 2, data := ((k.owed.take 4).flatMap fun n => toBytes 2 n) ++ List.replicate 8 0 }))

/-- R27, R372–R376, R383, R384, R461, R462, R464: host packets on an ACTIVE link. A write reaches memory and, with ACKREQ, is answered; a
read is answered with the bytes at its address; either is answered with status 4 while its tag is in use, and out of form it is discarded as
malformed; a completion answers its DRD, and one without a DRD, or whose DRD timed out, is an orphan; a MGMT packet is taken in, and a control or
PLDM command that the MC does not serve is answered with its error (the places of its fields: log entry 70); RESET with
its key asserts the warm source, after the flit that acknowledges it. A register write takes effect under the access types of its register's
bits (R4, R5).
The model's own readings and choices in it: log entries 2, 32, 66, 68. -/
def Obligations.HostPackets : Prop :=
  ∀ s : State, s.stopped = false →
    let out := fun (u : State) => (.next (State.settle u) : Out)
    ((s.link .agd).state = 5 →
      (∀ (tag : BitVec 14) (addr : BitVec 48) (ackreq : Bool) (data : List Byte),
        let pa := addr.toNat
        let o := s.owe .agd 0 (1 + (data.length + 15) / 16)
        let answered := fun (u : State) (st : Nat) => exec (.mwr tag addr ackreq data) s = out (if ackreq = true then u.sendCpl tag.toNat st [] else u)
        (pktOk pa data.length = true → (ackreq = true → s.tagUsed tag.toNat = false) →
          (∀ u, o.hostWrite pa data = (.ok (), u) → answered u 0) ∧ ∀ code u, o.hostWrite pa data = (.err code, u) → answered u 1) ∧
        (pktOk pa data.length = true → ackreq = true → s.tagUsed tag.toNat = true → answered o 4) ∧
        (pktOk pa data.length = false → answered (s.malformed .agd 0x10 (1 + (data.length + 15) / 16)) 3) ∧
        (0 < data.length → pa % 64 + data.length ≤ 64 → (o.decodePA pa).plain = true → o.phase = 0 → o.confined = false →
          o.homeCheck hostReq pa = none → o.homeBusy hostReq (o.decodePA pa) = false → o.timedOut hostReq pa = none → o.rspDown hostReq pa = false →
          o.skimProtected pa data.length = false → ∃ u, o.hostWrite pa data = (.ok (), u) ∧ u.bytes pa data.length = data ∧
            ∀ a, a < pa ∨ pa + data.length ≤ a → u.byte a = s.byte a)) ∧
      (∀ (tag : BitVec 14) (addr : BitVec 48) (n : Nat),
        let pa := addr.toNat
        let o := s.owe .agd 0 1
        (pktOk pa n = true → s.tagUsed tag.toNat = false → s.cplsOut.length < 4096 → ∀ st data u, o.hostRead pa n = (.ok (st, data), u) →
          exec (.mrd tag addr n) s = out (u.sendCpl tag.toNat st data)) ∧
        (pktOk pa n = true → s.tagUsed tag.toNat = true → exec (.mrd tag addr n) s = out (o.sendCpl tag.toNat 4 [])) ∧
        (pktOk pa n = false → exec (.mrd tag addr n) s = out ((s.malformed .agd 0x11 1).sendCpl tag.toNat 3 [])) ∧
        (0 < n → pa % 64 + n ≤ 64 → (o.decodePA pa).plain = true → o.phase = 0 → o.confined = false →
          o.homeCheck hostReq pa = none → o.homeBusy hostReq (o.decodePA pa) = false → o.rspDown hostReq pa = false →
          o.anyPoison pa n = false → (∀ i < n, o.workByte (pa + i) = false) →
          ∃ u, o.hostRead pa n = (.ok (0, s.bytes pa n), u) ∧ ∀ a, u.byte a = s.byte a)) ∧
      (∀ (tag : BitVec 14) (status : BitVec 4) (data : List Byte),
        let o := s.owe .agd 1 (1 + (data.length + 15) / 16)
        let mine := s.drds.find? fun d => d.tag == tag.toNat && d.ans.isNone && !d.held
        (mine = none → exec (.cpl tag status data) s = out (o.logSomewhere 24 0x06 0 8 ⟨24, 8⟩ false 0)) ∧
        ∀ d : Drd, mine = some d →
          (d.own = .none → exec (.cpl tag status data) s =
            out (State.logErr { o with drds := o.drds.erase d } 24 0x06 0 8 ⟨24, 8⟩ (some d.pa) false 0)) ∧
          (d.own ≠ .none → exec (.cpl tag status data) s = out (State.retryReads { o with drds := o.drds.map fun e => if e == d then
            { e with ans := some (if status = 0 ∧ data.length ≠ d.n then 3 else status.toNat, data) } else e }))) ∧
      (∀ data : List Byte, (5 ≤ data.length → data.length ≤ 256 →
          let o := s.owe .agd 3 (1 + (data.length + 15) / 16)
          let b := fun i => (data.getD i 0).toNat
          let u : State := { o with mc := { o.mc with inst := put (fun _ => 0) o.mc.inst (bindNo .agd) (b 5 % 32) } }
          (o.mcReach .agd = false ∨ b 5 < 128 → exec (.mgmt data) s = out o) ∧
          (o.mcReach .agd = true → 128 ≤ b 5 →
            (b 4 % 128 = 0 → exec (.mgmt data) s = out (if b 6 ∈ [1, 2, 3, 4, 5] then u else u.answer .agd .unsupportedCmd [b 5 % 32])) ∧
            (b 4 % 128 = 1 → exec (.mgmt data) s = out (if u.pldmTypes.contains (b 6 % 64) && (pldmCommands (b 6 % 64)).contains (b 7) then u
              else u.answer .agd .unsupportedPldmCmd [b 5 % 32])) ∧
            (1 < b 4 % 128 → exec (.mgmt data) s = out u))) ∧
        (data.length < 5 ∨ 256 < data.length → exec (.mgmt data) s = out (s.malformed .agd 0x40 (1 + (data.length + 15) / 16)))) ∧
      exec (.reset 0x5752 0) s = out ((s.updLink .agd Link.idle).assertSource 6 0) ∧
      ∀ (a : BitVec 32) (b : Word), a ≠ 0x5752 ∨ b ≠ 0 → exec (.reset a b) s = out (s.malformed .agd 0x5F 1)) ∧
    (∀ (q : Src) (addr : BitVec 48) (data : List Byte) (r : RegRef) (t : State), s.srcUp q = true →
      srcMay q (addr.toNat / 0x10000 % 0x100) = true → data.length = 4 ∨ data.length = 8 → s.ctrlBusy (srcReq q) addr.toNat = false →
      s.ctrlTarget (srcReq q) (q == .host) addr.toNat data.length = .inl r →
      let v := BitVec.ofNat 64 (fromBytes data)
      let hi := data.length = 4 ∧ addr.toNat % 8 = 4
      ((s.endWait (srcReq q) addr.toNat).travel (srcReq q).die r.die).writeReg q r (if hi then v <<< 32 else v)
        (if data.length = 8 then BitVec.allOnes 64 else if hi then maskBits 63 32 else maskBits 31 0) = (true, t) →
      t.rspDown (srcReq q) addr.toNat = false →
      exec (.registerWrite q addr data) s = out t) ∧
    ∀ (q : Src) (r : RegRef) (v : Word), r.name ∈ [RegName.ERR_ROUTE, .ERR_CFG, .TWN_ROUTE, .HWK_ROUTE, .AGD_TASYM, .AGD_OWB, .AGD_OWC] →
      s.writeReg q r v (BitVec.allOnes 64) =
        (true, s.setRegW r.die r.name r.i r.w (plainWrite (regInfo r.name) (s.regW r.die r.name r.i r.w) v (BitVec.allOnes 64)))

/-! ### Fabric time -/

/-- R385–R391: an exchange starts with a TSREQ when TSYNC is enabled, the link ACTIVE, none outstanding and the interval over; a TSRSP in
time whose delay is within AGD_TCFG and within 40 ns of the least of the last 16 is accepted, and any other or none rejected; an accepted
exchange reports its delay and offset and clears HOLD; the first one makes fabric time valid with FREQ and SLEW 0; SLEW ends at its time;
16 intervals without one set HOLD; a TIME_PPS edge disciplines fabric time or is counted as not used; three missing edges set PPSLOST.
The model's own readings and choices in it: log entries 25, 58. -/
def Obligations.TimeSync : Prop :=
  ∀ s : State,
    let out := fun (u : State) => (.next (State.settle u) : Out)
    let k := s.link .agd
    (s.flag 24 .AGD_TCFG 0 1 = true → k.state = 5 → s.sync.out = none → s.sync.lastStart + s.tsyncInt ≤ s.time →
      k.fits { type := 0x50, a := s.sync.id, b := s.time } = true → (∀ p ∈ k.wait, pktClass p.type ≠ 3) →
      exec .timeExchangeStart s = out (State.send { s with sync := { s.sync with
        out := some (s.sync.id, s.time), id := (s.sync.id + 1) % 65536, lastStart := s.time, spoilt := false } } .agd
        { type := 0x50, a := s.sync.id, b := s.time })) ∧
    (∀ (id : BitVec 16) (t2 t3 : Word) (oid t1 : Nat), k.state = 5 → s.sync.out = some (oid, t1) →
      let o := s.owe .agd 3 2
      let d : Int := ((s.time : Int) - t1) - ((t3.toNat : Int) - t2.toNat)
      let theta : Int := ((t2.toNat : Int) - t1) - ((s.time : Int) - t3.toNat) + (BitVec.ofNat 16 (o.fld 24 .AGD_TASYM 0 15 0)).toInt
      (oid ≠ id.toNat ∨ t1 + 100000 < s.time ∨ s.sync.spoilt = true ∨ d < 0 ∨ (o.fld 24 .AGD_TCFG 0 47 32 : Int) < d →
        exec (.tsrsp id t2 t3) s = out o.rejectExchange) ∧
      (oid = id.toNat → s.time ≤ t1 + 100000 → s.sync.spoilt = false → 0 ≤ d → d ≤ (o.fld 24 .AGD_TCFG 0 47 32 : Int) →
        (∀ x ∈ s.sync.delays.take 15, d ≤ x + 40) → exec (.tsrsp id t2 t3) s =
          out (State.acceptExchange { o with sync := { o.sync with delays := (d :: o.sync.delays).take 16 } } t1 d theta)) ∧
      (oid = id.toNat → s.time ≤ t1 + 100000 → s.sync.spoilt = false → 0 ≤ d → d ≤ (o.fld 24 .AGD_TCFG 0 47 32 : Int) →
        (∃ x ∈ s.sync.delays.take 15, x + 40 < d) → exec (.tsrsp id t2 t3) s =
          out (State.rejectExchange { o with sync := { o.sync with delays := (d :: o.sync.delays).take 16 } }))) ∧
    (∀ (t1 : Nat) (d theta : Int), let t := s.acceptExchange t1 d theta
      t.reg 24 .AGD_TOFS 0 = (BitVec.ofInt 32 d ++ BitVec.ofInt 32 (theta.tdiv 2) : BitVec 64) ∧ t.flag 24 .AGD_TSTAT 0 1 = false ∧
        t.flag 24 .AGD_TSTAT 0 0 = true ∧ t.sync.out = none ∧ t.sync.lastT1 = some t1) ∧
    (∀ (theta span : Int) (full : Bool), s.flag 24 .AGD_TSTAT 0 0 = false →
      let t := s.discipline theta span full
      t.flag 24 .AGD_TSTAT 0 0 = true ∧ t.fld 24 .AGD_TFREQ 0 31 0 = 0 ∧ t.sync.slew = 0 ∧ (theta ≤ 0 → t.time = s.time)) ∧
    (∀ e : Nat × Nat, s.sync.out = some e → e.2 + 100000 < s.time → exec .timeExchangeTimeout s = out s.rejectExchange) ∧
    (s.sync.slewEnd ≤ s.time → exec .slewExpiry s = out { s with sync := { s.sync with slew := 0 } }) ∧
    (s.timeRuns = true → s.sync.accAt + 16 * s.tsyncInt ≤ s.time → exec .holdTimeout s = out (s.setFld 24 .AGD_TSTAT 0 1 1 1)) ∧
    (s.timeRuns = true → s.pinHeld 11 = false → s.flag 24 .AGD_TCFG 0 0 = true →
      let e : Int := 2 * (s.time : Int) + (s.frac : Int) / 2 ^ 31
      let q : Int := e - 2 * ((s.fld 24 .AGD_PPSOFS 0 29 0 % 1000000000 : Nat) : Int)
      let eps : Int := (q + 1000000000) % 2000000000 - 1000000000
      let skip := (∃ t, s.sync.ppsAt = some t ∧ s.time < t + 500000000) ∨ (∃ t, s.sync.stepAt = some t ∧ s.time < t + 1000) ∨
        2000 * s.fld 24 .AGD_TCFG 0 63 48 < eps.natAbs
      let n : Int := (q + 1000000000).fdiv 2000000000
      (skip → exec .timePpsEdge s = out (s.ppsUnused n)) ∧
      (¬ skip → exec .timePpsEdge s = out (State.discipline { s.setFld 24 .AGD_TSTAT 0 3 3 1 with
        sync := { s.sync with ppsEps := eps, ppsAt := some s.time, ppsMiss := 0, ppsSec := some n } } (-eps) (2000000000 - s.sync.ppsEps + eps) true))) ∧
    (s.timeRuns = true → s.flag 24 .AGD_TCFG 0 0 = true →
      (3 ≤ s.sync.ppsMiss ∨ s.sync.ppsAt.getD 0 + 3000000000 + 1000 * s.fld 24 .AGD_TCFG 0 63 48 < s.time) →
      exec .ppsLost s = out { (s.setFld 24 .AGD_TSTAT 0 4 4 1).setFld 24 .AGD_TSTAT 0 3 3 0 with
        sync := { s.sync with ppsMiss := max 3 s.sync.ppsMiss } })

/-! ### The twin -/

/-- R394–R397, R401: presence begins and ends the twin link; a HELLO of another group or of the module's own serial fails pairing, and one
of another serial gives role B when that serial is the lower; an AUTH
message is acted on once its fragments are whole; a session that comes up is reported with its peer; a failed pairing is retried; FENCE,
THAW and REKEY act in the states that accept them; role B's fence waits 2 ms; a lost partner leaves ALONE and the region frozen.
The model's own readings and choices in it: log entries 3, 5, 16, 69. -/
def Obligations.TwinSession : Prop :=
  ∀ s : State,
    let out := fun (u : State) => (.next (State.settle u) : Out)
    (s.stopped = false → s.pinHeld 8 = false →
      (s.phase = 0 → let u := { s with twin := { s.twin with present := true } }
        let v := if (s.link .twn).state = 0 then u.updLink .twn fun k => { k with state := 1 } else u
        exec .twinPresentFall s = out (if s.fld 24 .TWN_STAT 0 2 0 = 0 then v.setFld 24 .TWN_STAT 0 2 0 1 else v)) ∧
      exec .twinPresentRise s = out (State.twinDown (State.retrainLink { s with twin := { s.twin with present := false } } .twn 0) false)) ∧
    ((s.link .twn).state = 5 →
      (∀ (serial : Word) (g group : List Byte), group.length = 32 → s.twin.group = some g → s.twin.session = false → s.skimOk = true →
        s.twin.failed = false → let o := s.owe .twn 3 3
        (g ≠ group → exec (.hello 1 serial group) s = out (o.pairFail 1)) ∧
        (g = group → serial = Config.serial → exec (.hello 1 serial group) s = out (o.pairFail 2)) ∧
        (g = group → serial ≠ Config.serial → serial.toNat < Config.serial.toNat ∨ s.flag 24 .SEC_STAT 0 3 = true → ∃ t, exec (.hello 1 serial group) s = .next t ∧
          t.flag 24 .TWN_STAT 0 3 = decide (serial.toNat < Config.serial.toNat) ∧ t.twin.hello = some (serial.toNat, group))) ∧
      (∀ (msg : BitVec 4) (frag count : BitVec 8) (total : Nat) (data : List Byte), frag < count → data.length ≤ 4064 → 1 ≤ msg → msg ≤ 3 →
        (s.twin.hello.isSome = true ∨ s.twin.session = true) →
        let o := s.owe .twn 3 (1 + (data.length + 15) / 16)
        let fs := (o.twin.frags.filter fun f => f.1 != frag.toNat) ++ [(frag.toNat, data)]
        (fs.length < count.toNat → exec (.auth msg frag count total data) s = out { o with twin := { o.twin with frags := fs } }) ∧
        (count.toNat ≤ fs.length → (joinFrags fs count.toNat).length = total → exec (.auth msg frag count total data) s =
          out (State.authMessage { o with twin := { o.twin with frags := [] } } msg.toNat (joinFrags fs count.toNat))) ∧
        (count.toNat ≤ fs.length → (joinFrags fs count.toNat).length ≠ total → exec (.auth msg frag count total data) s =
          out (State.malformed { o with twin := { o.twin with frags := [] } } .twn 0x61 0))) ∧
      (s.twin.failed = true → s.twin.session = true →
        exec .pairingRetry s = out (State.rekey { s with twin := { s.twin with failed := false } })) ∧
      (s.twin.failed = true → s.twin.session = false →
        let u := State.twinActive { s with twin := { s.twin with failed := false, hello := none } }
        exec .pairingRetry s = out (match s.twin.hello with
          | some (serial, group) => if u.twin.failed || u.twin.group.isNone then u else u.hello serial group
          | none => u))) ∧
    (∀ (data : List Byte) (peer : Nat) (group : List Byte), s.flag 24 .TWN_STAT 0 3 = true → s.twin.auth = 2 → s.twin.hello = some (peer, group) →
      (peerSigned s.twin.peerCert (sha3_256 s.twin.transcript) data = true → s.authMessage 3 data = s.sessionUp peer) ∧
      (peerSigned s.twin.peerCert (sha3_256 s.twin.transcript) data = false → s.authMessage 3 data = s.pairFail 4)) ∧
    (∀ peer, s.twin.session = false → let t := s.sessionUp peer
      t.twin.session = true ∧ t.reg 24 .TWN_PEER 0 = BitVec.ofNat 64 peer ∧ t.fld 24 .TWN_STAT 0 2 0 = 3 ∧ t.fld 24 .TWN_STAT 0 11 8 = 0 ∧
        (t.link .twn).count = 0 ∧ t.twin.rxCount = 0) ∧
    (s.fld 24 .TWN_STAT 0 2 0 = 3 → max 1 (s.fld 24 .TWN_CTL 0 3 0) ≤ s.fld 24 .TWN_STAT 0 11 8 → exec .partnerLost s = out s.partnerLost ∧
      (s.twin.mirw = [] → s.snap = none → ∃ t, exec .partnerLost s = .next t ∧ t.twin.session = false ∧ t.fld 24 .TWN_STAT 0 2 0 = 4 ∧ t.flag 24 .TWN_STAT 0 13 = true)) ∧
    (∀ (b : State) (q : Src), b.regAccess q 24 .TWN_CMD 0 = (true, s) →
      (s.fld 24 .TWN_STAT 0 2 0 = 4 → s.twinHere = true →
        (s.twin.roleB = false → exec (.fenceTwin q) b = out s.fenceNow) ∧
        (s.twin.roleB = true → s.twin.fence = none →
          exec (.fenceTwin q) b = out { s with twin := { s.twin with fence := some (s.time + 2000000) } })) ∧
      ((∀ r, s.restore = some r → r.src ≠ 0 ∧ r.src ≠ 4) → exec (.thaw q) b = out (s.setFld 24 .TWN_STAT 0 13 13 0)) ∧
      (s.twinUp = true → s.twin.auth = 3 → s.flag 24 .TWN_STAT 0 3 = false →
        ∃ t, exec (.rekey q) b = .next t ∧ t.twin.auth = 1 ∧ t.twin.session = true)) ∧
    (∀ t, s.twin.fence = some t → t ≤ s.time → s.fld 24 .TWN_STAT 0 2 0 = 4 → exec .fenceDelayed s = out s.fenceNow) ∧
    (let t := s.fenceNow; t.fld 24 .TWN_STAT 0 2 0 = 5 ∧ t.twin.pulse = true ∧ t.twin.fence = none) ∧
    exec .twinRstOutPulseEnd s = out { s with twin := { s.twin with pulse := false } }

/-- R394, R396, R398–R400, R403, R413: protected packets in a session count in their direction: one whose tag is not its key's, and one without a session, is counted and
dropped; a good one resets MISS; MIRW is performed and answered with MACK, MACK ends its mirror write, or is an orphan
when that has timed out (R462), RETURN brings bytes of a restore's
image. A staged Stencil entry goes to the ring while it has room, its poison with it, and in a session with mirroring on to the partner,
which poison does not reach (R463, R464), and TWN_STN_FREE takes
a value from its own up to HEAD.
The model's own readings and choices in it: log entries 5, 16, 69. -/
def Obligations.TwinTraffic : Prop :=
  ∀ s : State,
    let out := fun (u : State) => (.next (State.settle u) : Out)
    ((s.link .twn).state = 5 → s.twin.session = false → ∀ (st : BitVec 4) (tm : Word) (mac : List Byte),
      let p : Pkt := { type := 0x64, a := st.toNat, b := tm.toNat }
      exec (.hb st tm mac) s = out ((s.owe .twn (pktClass p.type) p.len).satFld 24 .TWN_STAT 0 47 16 1)) ∧
    ((s.link .twn).state = 5 → s.twin.session = true →
      let checked := fun (p : Pkt) (mac : List Byte) => (s.owe .twn (pktClass p.type) p.len).tagCheck p mac
      let good := fun (c : State) => State.setFld { c with twin := { c.twin with heard := true } } 24 .TWN_STAT 0 11 8 0
      let dropped := fun (i : Instr) (p : Pkt) (mac : List Byte) => ∀ c, checked p mac = (false, c) →
        exec i s = out (State.rekeyDue (c.satFld 24 .TWN_STAT 0 47 16 1))
      (∀ (tag : BitVec 14) (off : BitVec 39) (data mac : List Byte), 0 < data.length → off.toNat % 2048 + data.length ≤ 2048 →
        (s.mirrorIn off.toNat data).1 ≠ .wait →
        let p : Pkt := { type := 0x62, tag := tag.toNat, a := data.length - 1, b := off.toNat, data := data }
        dropped (.mirw tag off data mac) p mac ∧
        ∀ c a u, checked p mac = (true, c) → (good c).mirrorIn off.toNat data = (a, u) → exec (.mirw tag off data mac) s =
          out (State.rekeyDue (u.twinSend { type := 0x63, tag := tag.toNat, a := if a = .ok () then 0 else 1 }))) ∧
      (∀ (tag : BitVec 14) (status : BitVec 4) (mac : List Byte),
        let p : Pkt := { type := 0x63, tag := tag.toNat, a := status.toNat }
        dropped (.mack tag status mac) p mac ∧
        ∀ c, checked p mac = (true, c) →
          ((s.twin.mirw.find? fun m => m.tag == tag.toNat) = none →
            exec (.mack tag status mac) s = out (State.rekeyDue ((good c).logSomewhere 24 0x06 0 9 ⟨24, 9⟩ false 0))) ∧
          ∀ m : Mirw, (s.twin.mirw.find? fun m => m.tag == tag.toNat) = some m →
            let u := { good c with twin := { (good c).twin with mirw := s.twin.mirw.filter fun e => e.tag != tag.toNat } }
            let v := if m.late then u.logErr 24 0x06 0 9 ⟨24, 9⟩ (some (0x200000000000 + m.off)) false 0
              else if status = 0 then u else (u.errResponse 24 3 9 m.own.req (0x200000000000 + m.off)).mirwFailed m 3
            exec (.mack tag status mac) s = out (State.rekeyDue (if m.lsn = 0 then v else v.stnDur))) ∧
      (∀ (st : BitVec 4) (tm : Word) (mac : List Byte),
        let p : Pkt := { type := 0x64, a := st.toNat, b := tm.toNat }
        dropped (.hb st tm mac) p mac ∧ ∀ c, checked p mac = (true, c) → exec (.hb st tm mac) s = out (State.rekeyDue (good c))) ∧
      ∀ (off : BitVec 48) (data mac : List Byte) (r : Restore), s.restore = some r → r.src = 3 →
        let p : Pkt := { type := 0x65, a := data.length - 1, b := off.toNat, data := data }
        dropped (.returnPkt off data mac) p mac ∧
        ∀ c, checked p mac = (true, c) → exec (.returnPkt off data mac) s = out (State.rekeyDue { good c with restore := some { r with
          got := putRun (fun _ => (0 : Byte)) r.got off.toNat data,
          seen := putRun (fun _ => false) r.seen off.toNat (data.map fun _ => true) } })) ∧
    (let n := s.stencil.ring
      let slot := 64 * (n % 2 ^ s.fld 24 .TWN_STN 0 53 48)
      let bs := s.bytes (stagingBase + 64 * (n % 1048576)) 64
      let bad := s.anyPoison (stagingBase + 64 * (n % 1048576)) 64
      let mirror := s.fld 24 .TWN_STAT 0 2 0 = 3 ∧ s.flag 24 .TWN_CTL 0 11 = true ∧ s.twinUp = true
      ∀ (a : Acc Unit) (u : State), s.stopped = false → n < s.fld 24 .TWN_STN_HEAD 0 63 0 →
        s.fld 24 .TWN_STN_HEAD 0 63 0 - s.fld 24 .TWN_STN_FREE 0 63 0 < 2 ^ s.fld 24 .TWN_STN 0 53 48 →
        s.devWrite kReq .none 64 (s.fld 24 .TWN_STN 0 47 0 + slot) bs bad = (a, u) → a ≠ .wait →
        let v := State.stageOwed { u with stencil := { u.stencil with ring := n + 1 } }
        (¬ mirror → exec .stencilRingWrite s = out v.stnDur) ∧
        (mirror → s.mirrorRoom 1 = true →
          let w := if v.stencil.resumed then v
            else State.stageRecord { v with stencil := { v.stencil with resumed := true } } 0xF011 (toBytes 8 n) []
          let own : Own := if fromBytes (bs.take 2) < 0xF000 then .stream (fromBytes (bs.take 8) / 2 ^ 28 % 2 ^ 18) else .log
          let off := w.fld 24 .TWN_STN_MOFS 0 38 0 + slot
          exec .stencilRingWrite s = out (State.stnDur (if bad then (w.egress kReq 9 (0x200000000000 + off)).mirwFailed { lsn := n + 1 } 3
            else (w.twinPost own kReq (n + 1) off bs).2)))) ∧
    ∀ (b : State) (q : Src) (v : Word), b.regAccess q 24 .TWN_STN_FREE 0 = (true, s) →
      exec (.twnStnFreeWrite q v) b = out (if s.fld 24 .TWN_STN_FREE 0 63 0 ≤ v.toNat ∧ v.toNat ≤ s.fld 24 .TWN_STN_HEAD 0 63 0
        then s.setReg 24 .TWN_STN_FREE 0 v else s)

/-! ### Snapshots, restores and the cartridge -/

/-- R406–R408: a started SNAP reads its plan. One with a reason is refused with it in its result record, a page that an ABORT ends giving
reason 7; one that passes every check and translates records entry 0xF002 and arms trigger 243 for its flip time. Once the trigger has fired
and the gate is met it flips: stream state captured, live pointers switched, entry 0xF003. A gate unmet at its limit drops it with reason 8;
its staged copies made and performed, it signals STAGESYNC, after it has retired as before.
R409–R411: a tier of a flipped snapshot reads its next block, records its leaf digest or ends with status 4 when it differs from the one
recorded, and writes the block past the manifest; after the last block it writes what follows the header, and with every write performed the
header; with that performed it records entry 0xF004, signals and ends with status 1. A failure ends it with its own status.
The model's own readings and choices in it: log entries 5, 18, 21, 69. -/
def Obligations.Snapshots : Prop :=
  (
    ∀ s : State,
      let out := fun (u : State) => (.next (State.settle u) : Out)
      let pages := fun (p : Snap) => p.ranges.flatMap fun e => (spanPages e.1 e.2.1).map fun a => (a, e.2.2)
      (∀ (sid : StreamId) (r : StreamRun) (h : List Word) (v : State), s.stopped = false → s.runOf sid.toNat = some r → r.run = .begun →
        r.opc = 0x09 →
        let x := { s.strCtx r.s 2 4096 with ring := s.strF r.s 0 57 56 }
        let la := bits (r.dw 2) 51 0
        s.devWordsLin x la 16 = (.ok h, v) →
        (∀ w, v.readRegions x la h = (.aborted, w) → exec (.snap sid) s = out (w.snapClose r (w.snapOf r { h }) 7)) ∧
        ∀ (plan : Plan) (t : State), v.readRegions x la h = (.ok plan, t) →
          let p := t.snapOf r plan
          let why := t.snapReason p plan.bad
          (why ≠ 0 → exec (.snap sid) s = out (t.snapClose r p why)) ∧
          (∀ u, why = 0 → t.pagesOver x (pages p) = (.aborted, u) → exec (.snap sid) s = out (u.snapClose r p 7)) ∧
          ∀ u, why = 0 → t.pagesOver x (pages p) = (.ok (), u) → u.stagingRoom ≠ 0 →
            exec (.snap sid) s = out (State.setRun (State.armTimer (State.stageRecord { u with snapCount := p.id, snap := some p } 0xF002
              (toBytes 8 p.id ++ toBytes 8 (bits (r.dw 1) 2 0)) []) 243 [p.flipAt]) { r with run := .snap })) ∧
      (∀ (r : StreamRun) (p : Snap) (reason : Nat) (u : State),
        s.devWriteLin (p.ctx (.stream p.stream)) p.result (p.record reason) false = (.ok (), u) →
        s.snapClose r p reason = if reason = 9 then u.dropRun r.s else u.faultStream r 0x0A 0) ∧
      (∀ p : Snap, s.snap = some p → p.fired = false → s.triggerDue 243 = true →
        exec .snapFlip s = exec .snapFlip (s.fireTrigger 243).snapFire) ∧
      (∀ p : Snap, s.snap = some p →
        (∀ (b c : State) (rs : List Region), p.fired = true → p.flipped = false → (p.gateEn = false ∨ p.gateMet = true) →
          (p.captured = true ∧ b = s ∨
            p.captured = false ∧ s.devWriteLin (p.ctx (.stream p.stream)) p.genCap (s.genBytes p) false = (.ok (), b)) →
          b.switchLive (p.ctx (.stream p.stream)) p.regions = (.ok (), rs, c) →
          let d := c.updSnap fun p => { p with captured := true, regions := rs }
          d.stagingRoom ≠ 0 →
          exec .snapFlip s = out (State.snapRetire (State.updSnap
            (d.stageRecord 0xF003 (toBytes 8 p.id ++ toBytes 8 d.time ++ toBytes 8 p.genCount) []) fun p =>
              { p with flipped := true, flipTime := d.time, flipLsn := d.fld 24 .TWN_STN_HEAD 0 63 0 }))) ∧
        (p.fired = true → p.flipped = false → p.gateEn = true → p.gateMet = false → p.gateTmo ≠ 0 → p.flipAt + p.gateTmo ≤ s.time →
          let u := { s.setFld 24 .TT_CTL 243 0 0 0 with snap := none }
          ∀ r, u.runOf p.stream = some r → exec .gateTimeout s = out (u.snapClose r p 8)) ∧
        (s.staging = [] → p.flipped = true → p.staged = false → let t := s.stageStep p
          exec .stageCopyComplete s =
            out (State.snapRetire (t.2.updSnap fun p => { p with regions := t.1.regions, copied := t.1.copied, staged := t.1.staged })))) ∧
      ∀ p : Snap,
        (∀ l, s.staging = p :: l → let t := s.stageStep p
          exec .stageCopyComplete s = out { t.2 with staging := if t.1.staged = true then l else t.1 :: l }) ∧
        ∀ (rs : List Region) (u : State), (p.copied = true ∧ rs = p.regions ∧ u = s ∨
            p.copied = false ∧ s.stageCopies (p.ctx (.tier 3)) p.regions = ((rs, false), u)) →
          (u.postedBy (.tier 3) = false →
            s.stageStep p = ({ p with regions := rs, copied := true, staged := true }, u.synUpdate (p.syncs.getD 3 0) false 1)) ∧
          (u.postedBy (.tier 3) = true → s.stageStep p = ({ p with regions := rs, copied := true }, u))) ∧
  (
    ∀ (s : State) (p : Snap) (t : Fin 3), s.snap = some p → (p.tier t).1 = 15 → p.flipped = true →
      let out := fun (u : State) => (.next (State.settle u) : Out)
      let n := imageBytes p.image
      let nblk := blockCount n
      let i := (p.tier t).2
      (∀ (bs : List Byte) (u : State), s.canStream p t = true → i < nblk →
        s.devReadParts (p.ctx (.tier t.val)) (imageParts (·.src) p.image (i * blockSize) (blockLen n i)) = (.ok bs, u) →
        let old := look (fun _ => []) p.leaves i
        (old ≠ [] → old ≠ leafDigest bs → exec (.tierBlock t) s = out (u.endTier t.val 4)) ∧
        (old = [] ∨ old = leafDigest bs →
          let v := u.updSnap fun p => { p with leaves := put (fun _ => []) p.leaves i (leafDigest bs) }
          exec (.tierBlock t) s = out (v.tierPut p t (manifestBytes p.image.length nblk + i * blockSize) bs fun w => w.tierNext t))) ∧
      (s.canStream p t = true → i = nblk → let r := p.restPart nblk t
        exec (.tierBlock t) s = out (s.tierPut p t r.1 r.2 fun w => w.tierNext t)) ∧
      (s.tierIdle t = true → 2 ≤ s.stagingRoom → i = nblk + 1 →
        exec (.tierComplete t) s = out (s.tierPut p t 0 (p.firstPart Config.serial.toNat nblk t) fun w => w.tierNext t)) ∧
      (s.tierIdle t = true → 2 ≤ s.stagingRoom → nblk + 1 < i → exec (.tierComplete t) s = out (State.endTier (State.synUpdate
        (s.stageRecord 0xF004 (toBytes 8 p.id ++ toBytes 8 t.val ++ rootOf p.leaves nblk) []) (p.syncs.getD t.val 0) false 1) t.val 1)) ∧
      (∀ cause : BitVec 4, 2 ≤ cause.toNat → cause.toNat ≤ 5 → exec (.tierFail t cause) s = out (s.endTier t.val cause.toNat)) ∧
      (∀ status : Nat, s.endTier t.val status = State.snapRetire (State.orphanPosts (State.renamePosts
        { s with snap := some { p with tiers := setAt p.tiers t.val (status, i) } } fun o => if o == .tier t.val then .past p.stream else o)
        (.tier t.val))) ∧
      ∀ (off : Nat) (bs : List Byte) (u : State),
        (s.tierWrite p t off bs = (.ok (), u) → s.tierPut p t off bs (fun w => w.tierNext t) = u.tierNext t) ∧
        (∀ code, s.tierWrite p t off bs = (.err code, u) →
          s.tierPut p t off bs (fun w => w.tierNext t) = u.endTier t.val (if code = 6 then 2 else 3)) ∧
        (∀ q, u.snap = some q → u.tierNext t = { u with snap := some { q with tiers := setAt q.tiers t.val (15, (q.tier t).2 + 1) } }))

/-- R413: GO of TWN_RCMD with no restore in progress starts one from its source; its manifest header, and then the tables behind it, are held
against the plan, or with SRC 4 sent to the partner, and a misfit ends it with status 2; a block whose digest is the manifest's is written or
sent on and counted, one whose digest differs ends it with status 3; the last step checks the root, gives the listed streams their SEED and
GEN, and ends it with status 1 and the interrupt of TWN_ROUTE.
The model's own readings and choices in it: log entries 5, 18, 21. -/
def Obligations.Restores : Prop :=
  ∀ s : State,
    let out := fun (u : State) => (.next (State.settle u) : Out)
    (∀ (b : State) (q : Src) (v : Word), b.regAccess q 24 .TWN_RCMD 0 = (true, s) → bit v 0 = true → s.restore = none →
      exec (.twnRcmdGo q v) b = out (State.setReg { s.setReg 24 .TWN_RCMD 0 (plainWrite (regInfo .TWN_RCMD) (s.reg 24 .TWN_RCMD 0) v
        (BitVec.allOnes 64)) with restore := some {
          src := bits v 3 1, ofs := bits v 55 8, expect := bit v 4, ptb := (s.core ⟨96, by decide⟩).ptb } } 24 .TWN_RSTAT 0 0x20)) ∧
    (∀ (r : Restore) (hb : List Byte) (u : State), s.restore = some r → r.head = [] → r.src ≤ 4 → s.restoreRead r 0 128 = (.ok hb, u) →
      let head := words64 16 hb
      let nreg := bits (head.getD 4 0) 44 32
      let nblk := bits (head.getD 4 0) 31 0
      let leaves := fun (tb : List Byte) => (List.range nblk).map fun i => (tb.drop (32 * nreg + 32 * i)).take 32
      (headOk head = false → exec .restoreComplete s = out (u.endRestore 2)) ∧
      (∀ (tb : List Byte) (w : State), headOk head = true → r.src = 4 → u.restoreRead r 128 (32 * nreg + 32 * nblk) = (.ok tb, w) →
        let rs := tableRegions (words64 (4 * nreg) tb) nreg
        (headFits head rs = false → exec .restoreComplete s = out (w.endRestore 2)) ∧
        (headFits head rs = true → w.twinUp = true → exec .restoreComplete s =
          out { w.returnBytes 0 (hb ++ tb) with restore := some { r with head := head, leaves := leaves tb, regions := rs } })) ∧
      ∀ (p : Plan) (v : State), headOk head = true → r.src ≠ 4 → u.readPlan r.ctx (u.fld 24 .TWN_RPLAN 0 51 0) = (.ok p, v) →
        (p.bad = true ∨ headFits head (planRegions p) = false → exec .restoreComplete s = out (v.endRestore 2)) ∧
        ∀ (tb : List Byte) (w : State), p.bad = false → headFits head (planRegions p) = true →
          v.restoreRead r 128 (32 * nreg + 32 * nblk) = (.ok tb, w) →
          (tableFits (words64 (4 * nreg) tb) (planRegions p) = false → exec .restoreComplete s = out (w.endRestore 2)) ∧
          (tableFits (words64 (4 * nreg) tb) (planRegions p) = true → exec .restoreComplete s = out { w with restore := some { r with
            head := head, leaves := leaves tb, regions := planRegions p, genCap := p.f 9 51 0, genFirst := p.f 10 17 0
            genCount := p.f 10 36 18 } })) ∧
    ∀ r : Restore, s.restore = some r → r.head ≠ [] →
      let n := imageBytes r.regions
      let fin := fun (u : State) =>
        let v := ((u.setFld 24 .TWN_RSTAT 0 3 0 1).setFld 24 .TWN_RSTAT 0 4 4 1).setFld 24 .TWN_RSTAT 0 5 5 0
        out (State.sendIrq { v with restore := none } (v.fld 24 .TWN_ROUTE 0 15 0) 24)
      let counted := fun (u : State) =>
        out (State.setFld { u with restore := some { r with block := r.block + 1 } } 24 .TWN_RSTAT 0 37 6 (r.block + 1))
      (r.src ≤ 4 → r.block < blockCount n → ∀ (bs : List Byte) (u : State),
        let at_ := manifestBytes r.regions.length (blockCount n) + r.block * blockSize
        s.restoreRead r at_ (blockLen n r.block) = (.ok bs, u) →
        (leafDigest bs ≠ r.leaves.getD r.block [] → exec .restoreComplete s = out (u.endRestore 3)) ∧
        (leafDigest bs = r.leaves.getD r.block [] → r.src = 4 → u.twinUp = true →
          exec .restoreComplete s = counted (u.returnBytes at_ bs)) ∧
        ∀ v : State, leafDigest bs = r.leaves.getD r.block [] → r.src ≠ 4 →
          u.devWriteParts r.ctx (imageParts (·.buf0) r.regions (r.block * blockSize) (blockLen n r.block)) bs = (.ok (), v) →
          exec .restoreComplete s = counted v) ∧
      (r.src ≤ 4 → blockCount n ≤ r.block → merkleRoot 64 r.leaves = bytesOf ((List.range 4).map fun i => r.head.getD (7 + i) 0) →
        (r.expect = true → merkleRoot 64 r.leaves = s.rroot) →
        (r.src = 4 → exec .restoreComplete s = fin s) ∧
        ∀ (gs : List Word) (v : State), r.src ≠ 4 → s.devWordsLin r.ctx r.genCap (2 * r.genCount) = (.ok gs, v) →
          exec .restoreComplete s = fin (v.restoreGens r gs)) ∧
      (r.src ≤ 4 → blockCount n ≤ r.block → (merkleRoot 64 r.leaves ≠ bytesOf ((List.range 4).map fun i => r.head.getD (7 + i) 0) ∨
        (r.expect = true ∧ merkleRoot 64 r.leaves ≠ s.rroot)) → exec .restoreComplete s = out (s.endRestore 4))

/-- R415–R418: a cartridge is detected; its wear read, its identity is verified or rejected; its completions answer its reads and writes; its
wear is reported, with WORN and read-only at their marks; a release ends what uses it and waits for its requests, and a loss of signal
without one is a surprise.
The model's own readings and choices in it: log entries 17, 24, 26, 69. -/
def Obligations.CartridgeCommands : Prop :=
  ∀ s : State,
    let out := fun (u : State) => (.next (State.settle u) : Out)
    (s.stopped = false → (s.link .hwk).state = 1 → s.hawkState = 0 → exec .hawkInsert s = out (State.setFld (State.setFld (State.setHawk
      { s.updLink .hwk fun k => { k with state := 2 } with hawk := { s.hawk with wearSeen := false } } 1) 24 .HWK_STAT 0 4 3 0)
        24 .HWK_STAT 0 15 8 0)) ∧
    (∀ record : List Byte, s.hawkState = 2 → (s.link .hwk).state = 5 → s.hawk.wearSeen = true →
      let t := s.owe .hwk 3 (1 + (record.length + 15) / 16)
      exec (.hawkVerify record) s = out (if t.cartOk record = true
        then State.setHawk (t.setReg 24 .HWK_ID 0 (BitVec.ofNat 64 (fromBytes ((record.drop 12).take 8)))) 3
        else (t.retrainLink .hwk 0).setHawk 6)) ∧
    (∀ (tag : BitVec 14) (status : BitVec 4) (data : List Byte), (s.link .hwk).state = 5 →
      let o := s.owe .hwk 1 (1 + (data.length + 15) / 16)
      let u := if status = 5 then o.hawkReadOnly else o
      let asked := u.hrds.find? fun d => d.tag == tag.toNat && d.ans.isNone
      let wrote := u.hawk.writes.find? fun m => m.tag == tag.toNat
      (∀ d : Drd, asked = some d → d.own ≠ .none → exec (.hcpl tag status data) s =
        out (State.hawkRelease { u with hrds := u.hrds.map fun e => if e = d then
          { e with ans := some (if status = 0 ∧ data.length ≠ d.n then 3 else status.toNat, data) } else e })) ∧
      (∀ d : Drd, asked = some d → d.own = .none → let v := { u with hrds := u.hrds.erase d }
        (d.late = false → exec (.hcpl tag status data) s = out v.hawkRelease) ∧
        (d.late = true → exec (.hcpl tag status data) s =
          out (State.hawkRelease (v.logErr 24 0x06 0 10 ⟨24, 10⟩ (some (d.addr % 2 ^ 48)) false 0)))) ∧
      (∀ m : Mirw, asked = none → wrote = some m →
        let v := { u with hawk := { u.hawk with writes := u.hawk.writes.filter fun e => e.tag != tag.toNat } }
        (m.late = true → exec (.hcpl tag status data) s =
          out (State.hawkRelease (v.logErr 24 0x06 0 10 ⟨24, 10⟩ (some (m.off % 2 ^ 48)) false 0))) ∧
        (m.late = false → status = 0 → exec (.hcpl tag status data) s = out v.hawkRelease) ∧
        ∀ t, m.late = false → status ≠ 0 → m.own = .tier t →
          exec (.hcpl tag status data) s = out (State.hawkRelease ((v.hawkRefuse 3 m.off).endTier t 3))) ∧
      (asked = none → wrote = none → ∃ a, exec (.hcpl tag status data) s =
        out (State.logErr { u with free := u.free + 1 } 24 0x06 0 10 ⟨24, 10⟩ (some a) false 0))) ∧
    (∀ (bytes : Word) (worn : BitVec 8), s.hawkState = 2 ∨ s.hawkState = 3 ∨ s.hawkState = 4 → (s.link .hwk).state = 5 →
      ∃ t, exec (.wearReadout bytes worn) s = .next t ∧ t.reg 24 .HWK_WEAR 0 = bytes ∧ t.fld 24 .HWK_STAT 0 15 8 = worn.toNat ∧
        t.hawk.wearSeen = true ∧
        t.flag 24 .HWK_STAT 0 3 = (s.flag 24 .HWK_STAT 0 3 || decide (36000000000000000 ≤ bytes.toNat)) ∧
        t.flag 24 .HWK_STAT 0 4 = (s.flag 24 .HWK_STAT 0 4 || decide (40000000000000000 ≤ bytes.toNat))) ∧
    (∀ (b : State) (q : Src) (v : Word), b.regAccess q 24 .HWK_CTL 0 = (true, s) → bit v 0 = true → s.hawkState = 3 →
      let w := s.setReg 24 .HWK_CTL 0 (plainWrite (regInfo .HWK_CTL) (s.reg 24 .HWK_CTL 0) v (BitVec.allOnes 64))
      let used := s.tierRuns 1 = true ∨ ∃ r, s.restore = some r ∧ r.src = 1
      (used → bit v 1 = false → exec (.hwkCtlRelease q v) b = out w) ∧
      (¬ used ∨ bit v 1 = true →
        exec (.hwkCtlRelease q v) b = out (State.hawkRelease (State.endHawkRestore (State.endTier (w.setHawk 4) 1 5))))) ∧
    (s.hawkState = 4 → s.hawk.hrel = false → (∀ m ∈ s.hawk.writes, m.late = true) → (∀ d ∈ s.hrds, d.ans ≠ none ∨ d.late = true) →
      s.hawkRelease = State.send { s with hawk := { s.hawk with hrel := true } } .hwk { type := 0x74 }) ∧
    (s.hawkState = 4 → ∃ t, exec .releaseComplete s = .next t ∧ t.hawkState = 5 ∧ (t.link .hwk).state = 0 ∧ t.hawk.hrel = false) ∧
    (s.hawkState = 5 ∨ s.hawkState = 6 → exec .hawkSignalLoss s = out (State.updLink (s.setHawk 0) .hwk fun k => { k with state := 1 })) ∧
    (s.hawkState ≠ 0 → s.hawkState ≠ 5 → s.hawkState ≠ 6 →
      let u := State.hawkDown (State.setFld (State.setHawk { s with hawk := { s.hawk with hrel := false } } 0) 24 .HWK_STAT 0 5 5 1)
      exec .hawkSignalLoss s = out (State.logCart (State.retrainLink (State.endHawkRestore (u.endTier 1 5)) .hwk 1)) ∧
      ∃ t, exec .hawkSignalLoss s = .next t ∧ t.hawkState = 0 ∧ t.flag 24 .HWK_STAT 0 5 = true ∧ (t.link .hwk).state = 1 ∧ t.hawk.writes = [])

/-! ### Resets -/

/-- R422–R425, R455, R513, R521–R524: a source that asserts is recorded in RST_CAUSE and stops the module; a cold one empties memory and a
warm one keeps HBM; the last source to release takes the module out of reset into option loading. The pins, the input, REFCLK, PWR_EN and
the rails assert and release their sources.
The model's own readings and choices in it: log entries 7, 19. -/
def Obligations.ResetSources : Prop :=
  ∀ s : State,
    let out := fun (u : State) => (.next (State.settle u) : Out)
    (∀ (r : RstSrc) (reason : BitVec 8),
      (r ≠ .powerOn → r ≠ .refclk → exec (.resetSourceAssert r reason) s = out (s.assertSource (srcCode r) reason.toNat)) ∧
      (r = .powerOn → s.rst.trip = false → exec (.resetSourceAssert r reason) s = out (State.assertSource
        { s with rst := { s.rst with rails := false, starting := s.rst.starting || s.rst.rails } } 1 0)) ∧
      (r = .powerOn → s.rst.trip = true → exec (.resetSourceAssert r reason) s = out s) ∧
      (r = .refclk → exec (.resetSourceAssert r reason) s = exec .refclkLoss s)) ∧
    (∀ src reason : Nat, 1 ≤ src → src ≤ 11 → src ∉ s.rst.asserted → let t := s.assertSource src reason
      t.stopped = true ∧ t.rst.asserted = s.rst.asserted ++ [src] ∧ (s.inReset = false → t.fld 24 .RST_CAUSE 0 3 0 = src) ∧
        (s.coldNow = true → ∀ a, t.byte a = s.byte a) ∧
        (s.coldNow = false → src ≤ 4 → ∀ a, t.byte a = 0) ∧
        (s.coldNow = false → 4 < src → ∀ a, t.byte a = if a < hbmEnd then s.byte a else 0)) ∧
    (exec (.resetSourceRelease .refclk) s = exec .refclkRestore s) ∧
    (∀ r : RstSrc, r ≠ .refclk → (r = .powerOn → s.rst.rails = true) →
      (srcCode r ∈ s.rst.asserted → (∃ c' ∈ s.rst.asserted, c' ≠ srcCode r) → exec (.resetSourceRelease r) s =
        out (State.tryStart { s with rst := { s.rst with asserted := s.rst.asserted.filter (· != srcCode r) } })) ∧
      (s.rst.asserted = [srcCode r] → s.rst.trip = false → exec (.resetSourceRelease r) s =
        out (State.tryStart (State.leaveReset { s with rst := { s.rst with asserted := [] } })))) ∧
    exec (.resetN false) s = out (s.assertSource 3 0) ∧ exec (.resetN true) s = out (s.releaseSource 3) ∧
    exec (.twinResetN false) s = out (s.assertSource 5 0) ∧ exec (.twinResetN true) s = out (s.releaseSource 5) ∧
    (∀ v : BitVec 16, v.toNat < 4000 →
      let u := if s.supply.warn = true then { s with supply := { s.supply with up := false, low := min s.supply.low v.toNat } }
        else let t := { s with supply := { s.supply with warn := true, up := false, low := v.toNat, began := s.mctime } }
          if s.stopped = true then t else t.satFld 24 .PWR_WARN_CNT 0 31 0 1
      exec (.supplyUndervoltage v) s = out (State.assertSource (if s.coldNow = true then u else u.logNow 0x0003 0 24 u.supply.low
        (u.mctime - u.supply.began) (u.reg 24 .PWR_WARN_CNT 0).toNat) 2 0)) ∧
    exec .pwrEnRise s = out (State.tryStart { s with rst := { s.rst with pwrEn := true } }) ∧
    exec .pwrEnFall s =
      out (State.assertSource { s with rst := { s.rst with pwrEn := false, starting := false, rails := false, trip := false } } 1 0) ∧
    (s.rst.starting = true → s.rst.rails = false → exec .pwrGoodRise s =
      out (State.releaseSource { s with rst := { s.rst with starting := false, rails := true, railsSeen := true } } 1)) ∧
    (s.rst.refclk = true → exec .refclkLoss s = out (State.assertSource { s with rst := { s.rst with refclk := false } } 11 0)) ∧
    (s.rst.refclk = false → exec .refclkRestore s =
      out (State.tryStart (State.releaseSource { s with rst := { s.rst with refclk := true } } 11))) ∧
    ∃ t, exec .standbyRailDown s = .next t ∧ t.rst.asserted = [1, 2] ++ s.rst.asserted.filter (fun n => n == 3 || n == 5 || n == 11) ∧
      (∀ d < 25, t.reg d .RST_CAUSE 0 = 0x41) ∧ t.rst.railsSeen = false ∧ t.rst.rails = false ∧ t.rst.pwrEn = s.rst.pwrEn ∧
      t.rst.trip = false

/-- R422, R426–R430: a request for a gang's, a C-die's or a block's reset is taken when option loading is over and no reset of its dies is
in progress, and BUSY is set on each; the oldest request of a die is made once its blocks are idle or their time is up; RST_CTL.WARM asserts
its source; RST_RUN starts each halted core it names at its RST_START.
The model's own readings and choices in it: log entry 8. -/
def Obligations.ResetRequests : Prop :=
  ∀ (b s : State) (q : Src) (v : Word),
    let out := fun (u : State) => (.next (State.settle u) : Out)
    let take := fun (r : ResetReq) => State.hawkAsked (r.dies.foldl (fun u d => State.setFld u d .RST_STAT 0 2 2 1)
      { s with rst := { s.rst with reqs := s.rst.reqs ++ [r] } })
    (b.regAccess q 24 .RST_CTL 0 = (true, s) → exec (.warm q) b = out (s.assertSource 8 0) ∧
      (let g := bits v 2 1
        let ds := setBitsOf 24 (s.fld 24 .GNG_CFG g 23 0)
        (s.phase = 0 → s.gangV g = true → (∀ d ∈ ds, s.dieBusy d = false) → exec (.ganggo q v) b = out (take ⟨2, ds, g, s.mctime⟩)) ∧
        (s.phase ≠ 0 ∨ s.gangV g = false ∨ (∃ d ∈ ds, s.dieBusy d = true) → exec (.ganggo q v) b = out (s.setFld 24 .RST_STAT 0 4 4 1))) ∧
      let d := bits v 8 4
      (s.phase = 0 → d < 24 → s.dieBusy d = false → exec (.cdiego q v) b = out (take ⟨1, [d], d, s.mctime⟩)) ∧
      (s.phase ≠ 0 ∨ 24 ≤ d ∨ s.dieBusy d = true → exec (.cdiego q v) b = out (s.setFld 24 .RST_STAT 0 4 4 1))) ∧
    (∀ d : Die, b.regAccess q d.val .RST_BLK 0 = (true, s) → bit v 4 = true → let code := bits v 3 0
      (s.phase = 0 → blockDefined d.val code = true → s.dieBusy d.val = false →
        exec (.rstBlk q d v) b = out (take ⟨0, [d.val], code, s.mctime⟩)) ∧
      (s.phase ≠ 0 ∨ blockDefined d.val code = false ∨ s.dieBusy d.val = true →
        exec (.rstBlk q d v) b = out (s.setFld d.val .RST_STAT 0 4 4 1))) ∧
    (∀ (d : Die) (idle : Bool) (r : ResetReq), (s.rst.reqs.find? fun r => r.dies.contains d.val) = some r → s.stopped = false →
      (idle = true → s.requestIdle r = true) → (idle = false → s.idleOver r = true) →
      let u := { s with rst := { s.rst with reqs := s.rst.reqs.erase r } }
      (r.level = 0 → exec (.resetIdleReached d idle) s = out ((u.blockReset d.val r.what idle).resetDone r idle)) ∧
      (r.level = 1 → exec (.resetIdleReached d idle) s =
        out (State.resetDone (State.logCauses ((u.cdieReset r.what).setReg r.what .RST_CAUSE 0 0x1A) r) r idle)) ∧
      (r.level = 2 → exec (.resetIdleReached d idle) s = out (State.resetDone ((u.gangReset r.what).logCauses r) r idle))) ∧
    ∀ (d : Die), b.regAccess q d.val .RST_RUN 0 = (true, s) → ∃ t, exec (.rstRun q d v) b = .next t ∧
      (∀ c : CoreId, dieOf c = d → bit v (coreK c).val = true → s.flag d.val .RST_RUN 0 (coreK c).val = false →
        (t.core c).ip = s.reg d.val .RST_START (coreK c).val &&& 0xFFFFFFFFFFFFC ∧ t.flag d.val .RST_RUN 0 (coreK c).val = true) ∧
      (∀ c : CoreId, dieOf c ≠ d ∨ bit v (coreK c).val = false → t.core c = s.core c)

/-! ### Option loading, updates, security -/

/-- R432, R434, R438, R441, R443, R473: phase 1 ends with the vendor keys in place and the Agdoa link in DETECT; phase 2 selects a copy of
the Render image and goes on to phase 3, or ends with NOIMG; phase 3 ends option loading. An update is refused while one runs or option
loading is in progress; a read-back that is good leaves the image in the target copy, a bad one gives reason 11.
The model's own readings and choices in it: log entries 3, 28, 37, 39, 69. -/
def Obligations.OptionLoading : Prop :=
  ∀ s : State, s.stopped = false →
    let out := fun (u : State) => (.next (State.settle u) : Out)
    (s.phase = 1 → ∃ t, exec .optionPhase1End s = .next t ∧ t.phase = 2 ∧ (t.link .agd).state = 1 ∧ t.reg 24 .RND_STATUS 0 = 0 ∧
      t.fld 24 .SEC_STAT 0 2 0 = (match keyGeneration s.fuses.keyhEd s.fuses.keyhMl with | some g => g + 4 | none => 0)) ∧
    (s.phase = 2 → let c := s.selectCopy false false
      ∃ t, exec .optionPhase2End s = .next t ∧ t.phase = (if c.slot = 0 then 0 else 3) ∧ t.flag 24 .RND_STATUS 0 2 = decide (c.slot = 0) ∧
        t.fld 24 .RND_STATUS 0 1 0 = c.slot ∧
        t.reg 24 .RND_SEQ 0 = (if c.slot = 0 then s.reg 24 .RND_SEQ 0 else BitVec.ofNat 64 (hdrSeq (s.copyRd false c.slot)))) ∧
    (s.phase = 3 → ∀ failed, ∃ t, exec (.optionPhase3End failed) s = .next t ∧ t.phase = 0 ∧ t.rst.mapBefore = none ∧ t.rst.tripped = []) ∧
    (∀ (b : State) (q : Src), b.regAccess q 24 .RND_UPDCMD 0 = (true, s) →
      (s.phase ≠ 0 ∨ s.flag 24 .RND_UPDSTAT 0 0 = true → exec (.rndUpdcmd q) b = out (s.setFld 24 .RND_UPDSTAT 0 6 6 1)) ∧
      (s.phase = 0 → s.flag 24 .RND_UPDSTAT 0 0 = false →
        exec (.rndUpdcmd q) b = out (State.updRead { s.setFld 24 .RND_UPDSTAT 0 5 0 1 with upd := some {} }))) ∧
    ∀ u, s.upd = some u → u.target ≠ 0 →
      (let v := (s.updResult 0 u.target).norWrite (copyBase false u.target).1 u.image
       exec (.renderUpdateDone true) s =
          out { v with mc := { v.mc with pendSeq := setAt v.mc.pendSeq 0 (some (hdrSeq (listRd u.image))) } }) ∧
      exec (.renderUpdateDone false) s = out (s.updResult 11 u.target)

/-- R477, R478, R482, R485, R486, R488, R489: a rollback counter moves to its target once its commit is done, and a commit out of its bounds
or from a source that is not a system core is refused; MREXT extends a register by 48 bytes of memory; an attestation answers a request with
a signed report; a token opens the scopes it names or counts a failure, and after eight a token is refused unchecked. A token in band whose bytes have not come loses
to one that has (log entry 38).
The model's own readings and choices in it: log entries 3, 5, 38, 69, 70. -/
def Obligations.SecurityCommands : Prop :=
  ∀ s : State,
    let out := fun (u : State) => (.next (State.settle u) : Out)
    (∀ (b : State) (c : CoreId) (v : Word), b.regAccess (.core c) 24 .SEC_ARB_CMD 0 = (true, s) → isSystem c = true → bit v 9 = true →
      let k := bits v 1 0
      let t := bits v 8 2
      let bad := s.phase ≠ 0 ∨ s.flag 24 .SEC_ARB 0 32 = true ∨ t ≤ s.fuses.count k ∨ 64 < t ∨ (k < 3 ∧ s.verInUse k < t)
      (bad → exec (.secArbCmd (.core c) v) b = out s.secBad) ∧
      (¬ bad → exec (.secArbCmd (.core c) v) b =
        out (State.setFld { s with sec := { s.sec with commit := some (k, t), stepAt := s.mctime + 100000 } } 24 .SEC_ARB 0 32 32 1))) ∧
    (∀ (b : State) (q : Src) (v : Word), (∀ c, q = .core c → isSystem c = false) →
      (b.regAccess q 24 .SEC_ARB_CMD 0 = (true, s) →
        exec (.secArbCmd q v) b = out (s.errResponse 24 3 7 (srcReq q) (ctrlBase + regKey 24 .SEC_ARB_CMD 0 0))) ∧
      (b.regAccess q 24 .SEC_MREXT 0 = (true, s) →
        exec (.secMrext q v) b = out (s.errResponse 24 3 7 (srcReq q) (ctrlBase + regKey 24 .SEC_MREXT 0 0)))) ∧
    (∀ k t : Nat, s.stopped = false → s.sec.commit = some (k, t) → k < 4 → t ≤ 64 → s.fuses.count k ≤ t →
      s.fuses.steps.length = 4 → (∀ i, s.fuses.count k ≤ i → let p := s.fuses.steps.getD k (0, 0); (p.1 ||| p.2).getLsbD i = false) →
      ∃ u, exec .arbCommitDone s = .next u ∧
      u.fuses.count k = t ∧ (∀ j < 4, j ≠ k → u.fuses.count j = s.fuses.count j) ∧ u.fld 24 .SEC_ARB 0 (8 * k + 7) (8 * k) = t ∧ u.flag 24 .SEC_ARB 0 32 = false ∧ u.sec.commit = none) ∧
    (∀ (b : State) (c : CoreId) (v : Word), b.regAccess (.core c) 24 .SEC_MREXT 0 = (true, s) → isSystem c = true → bit v 3 = true →
      let w := s.setReg 24 .SEC_MREXT 0 ((s.reg 24 .SEC_MREXT 0 &&& ~~~0xFFFFFFFFFF07) ||| (v &&& 0xFFFFFFFFFF07))
      (bits v 2 0 < 4 → exec (.secMrext (.core c) v) b = out s.secBad) ∧
      (4 ≤ bits v 2 0 → exec (.secMrext (.core c) v) b = out (w.runExts (s.sec.ext ++ [(bits v 2 0, bits v 47 8 * 256)]))) ∧
      ∀ (d : List Byte) (u : State), 4 ≤ bits v 2 0 → s.sec.ext = [] →
        w.devRead secReq (.unit 24 12) 64 (bits v 47 8 * 256) 48 = (.ok d, u) → exec (.secMrext (.core c) v) b =
        out (State.setFld { u.extend (bits v 2 0) d with sec := { u.sec with ext := [] } } 24 .SEC_STAT 0 5 5 0)) ∧
    (∀ (b : State) (q : Src), b.regAccess q 24 .SEC_ATT_CTL 0 = (true, s) →
      (s.flag 24 .SEC_ATT_CTL 0 1 = true → exec (.secAttCtl q) b = out s.secBad) ∧
      (s.flag 24 .SEC_ATT_CTL 0 1 = false → s.flag 24 .SEC_STAT 0 3 = true → ∃ t, exec (.secAttCtl q) b = .next t ∧
        t.sec.att = some s.reportHead ∧ t.flag 24 .SEC_ATT_CTL 0 1 = true ∧ t.fld 24 .SEC_ATT_CTL 0 3 2 = 0 ∧
        t.sec.attIn = s.fld 24 .SEC_ATT_IN 0 47 7 * 128 ∧ t.sec.attOut = s.fld 24 .SEC_ATT_OUT 0 47 12 * 4096) ∧
      (s.flag 24 .SEC_ATT_CTL 0 1 = false → s.flag 24 .SEC_STAT 0 3 = false →
        exec (.secAttCtl q) b = out (s.setFld 24 .SEC_ATT_CTL 0 3 2 3))) ∧
    (∀ (head req : List Byte) (t u : State), s.stopped = false → s.sec.att = some head →
      s.devRead secReq (.unit 24 15) 64 s.sec.attIn 128 = (.ok req, t) →
      let sig := t.signPair (head ++ req)
      sig.2.devWrite secReq (.unit 24 15) 64 t.sec.attOut (head ++ req ++ sig.1) false = (.ok (), u) →
      exec .attestationDone s = out (u.attEnds 1)) ∧
    ∀ (jtag : Bool) (data : List Byte), s.stopped = false → data.length = tokenLen →
      let n := s.fld 24 .SEC_DBG 0 7 4 + 1
      let r := s.tokenReason data
      (∀ pa, s.sec.tok = some pa → ∃ t, exec (.token jtag data) s = .next t ∧ t.fld 24 .SEC_DBG 0 10 9 = 3 ∧ t.sec.tok = none) ∧
      (s.flag 24 .SEC_DBG 0 8 = true → s.sec.tok = none → exec (.token jtag data) s = out (s.setFld 24 .SEC_DBG 0 10 9 2)) ∧
      (s.flag 24 .SEC_DBG 0 8 = false → s.sec.tok = none → ∃ t, exec (.token jtag data) s = .next t ∧ t.fld 24 .SEC_DBG 0 10 9 = (if r = 0 then 1 else 2) ∧
        t.fld 24 .SEC_DBG 0 2 0 = (if r = 0 then Nat.lor (s.fld 24 .SEC_DBG 0 2 0) (fromBytes ((data.drop 0x30).take 8) / 2 ^ 16 % 8)
          else s.fld 24 .SEC_DBG 0 2 0) ∧
        t.fld 24 .SEC_DBG 0 7 4 = (if r = 0 then n - 1 else n % 16) ∧ t.flag 24 .SEC_DBG 0 8 = (decide (r ≠ 0) && decide (8 ≤ n)) ∧
        (r ≠ 0 → t.fld 24 .SEC_DBG 0 14 11 = r))

/-! ### Power and heat -/

/-- R444–R455, R458: a warning of the input is counted, reported, and puts every die's warning demand to step 5; 45.0 V arms trigger 244,
whose firing releases the warning; the demand then falls step by step. Every microsecond a die compares its estimate with its ceiling, and
at each reading of its sensors its temperature with its limits; 110 °C trips the module. The step in force is the highest of the die's demands (R445).
The model's own readings and choices in it: log entries 27, 29. -/
def Obligations.PowerAndHeat : Prop :=
  ∀ s : State, s.stopped = false →
    let out := fun (u : State) => (.next (State.settle u) : Out)
    let stepped := fun (t : State) (d : Nat) =>
      let p := (demandOf t.supply.power d).step
      let h := (demandOf t.supply.thermal d).step
      t.reg d .PWR_STAT 0 = BitVec.ofNat 64 (max p (max h (look (fun _ => 0) t.supply.demand d)) + 2 ^ 3 * p + 2 ^ 6 * h + 2 ^ 9 * b2n t.supply.warn)
    (∀ v : BitVec 16, v.toNat < 4400 → s.supply.warn = false → ∃ t, exec (.supplyWarn v) s = .next t ∧ t.supply.warn = true ∧
      t.flag 24 .PWR_EVT 0 0 = true ∧ t.fld 24 .PWR_VIN 0 15 0 = v.toNat ∧
      t.fld 24 .PWR_WARN_CNT 0 31 0 = min (2 ^ 32 - 1) (s.fld 24 .PWR_WARN_CNT 0 31 0 + 1) ∧
      t.supply.demand = ((List.range 25).map fun d => (d, 5)) ∧ ∀ d < 25, stepped t d) ∧
    (∀ v : BitVec 16, v.toNat < 4400 → s.supply.warn = true →
      let u : State := { s with supply := { s.supply with up := false, low := min s.supply.low v.toNat } }
      exec (.supplyWarn v) s = out ((u.vinSample v.toNat).setFld 24 .TT_CTL 244 0 0 0)) ∧
    (∀ v : BitVec 16, s.supply.warn = true →
      let u := State.vinSample { s with supply := { s.supply with up := decide (4500 ≤ v.toNat), low := min s.supply.low v.toNat } } v.toNat
      (4500 ≤ v.toNat → s.flag 24 .TT_CTL 244 0 = true → exec (.supplyRise45v v) s = out u) ∧
      (4500 ≤ v.toNat → s.flag 24 .TT_CTL 244 0 = false → exec (.supplyRise45v v) s = out (u.armTimer 244 [s.time + 1000000])) ∧
      (v.toNat < 4500 → exec (.supplyRise45v v) s = out (u.setFld 24 .TT_CTL 244 0 0 0))) ∧
    (s.supply.warn = true → s.triggerDue 244 = true → ∃ t, exec .supplyWarnRelease s = .next t ∧ t.supply.warn = false ∧
      t.flag 24 .PWR_EVT 0 1 = true ∧ t.fld 24 .PWR_VMIN 0 15 0 = s.supply.low % 2 ^ 16 ∧
      t.supply.demand = s.supply.demand ∧ ∀ d < 25, stepped t d) ∧
    (∀ d : Die, let w := look (fun _ => 0) s.supply.demand d.val
      s.supply.warn = false → w ≠ 0 → look (fun _ => 0) s.supply.due d.val ≤ s.time → ∃ t, exec (.warningReturnStep d) s = .next t ∧
        look (fun _ => 0) t.supply.demand d.val = w - 1 ∧ look (fun _ => 0) t.supply.due d.val = s.time + 10000 ∧ stepped t d.val) ∧
    (∀ (d : Die) (est stack : BitVec 16), let c := s.fld d.val .PWR_CEIL 0 15 0
      ∃ t, exec (.powerDemandEval d est stack) s = .next t ∧ stepped t d.val ∧ t.fld d.val .PWR_EST 0 15 0 = est.toNat ∧
        t.fld d.val .PWR_EST 0 31 16 = (if isEdgeDie d.val then stack.toNat else 0) ∧
        demandOf t.supply.power d.val = (demandOf s.supply.power d.val).eval 5 s.time 10000 100000
          (decide (c * 100 < est.toNat * 103)) (decide (est.toNat * 103 < c * 90)) ∧
        (isEdgeDie d.val = true → let h := s.fld d.val .PWR_HCEIL 0 15 0
          demandOf t.supply.stack d.val = (demandOf s.supply.stack d.val).eval 2 s.time 10000 100000
            (decide (h * 100 < stack.toNat * 103)) (decide (stack.toNat * 103 < h * 90)))) ∧
    (∀ (x : Demand) (top now gap hold : Nat) (cold : Bool),
      (x.rose = none → (x.eval top now gap hold true cold).step = min top (x.step + 1)) ∧
      (∀ r, x.rose = some r → now < r + gap → (x.eval top now gap hold true cold).step = x.step) ∧
      (∀ l, x.low = some l → l + hold ≤ now → (x.eval top now gap hold false true).step = x.step - 1) ∧
      (x.eval top now gap hold false false).step = x.step) ∧
    ∀ (d : Die) (temps : List Byte), temps.length = sensorsOf d.val → let j : Nat := (temps.map (·.toNat)).foldl max 0
      ∃ t, exec (.thermalRead d temps) s = .next t ∧ stepped t d.val ∧ demandOf t.supply.thermal d.val =
          (demandOf s.supply.thermal d.val).eval 5 s.time 100000 1000000 (decide (97 ≤ j)) (decide (j ≤ 93)) ∧
        t.fld d.val .THM_TEMP 0 7 0 = j ∧ t.rst.trip = (decide (110 ≤ j) || (s.rst.hot.contains d.val && decide (97 ≤ j))) ∧
        (∀ i < temps.length, t.fld d.val .THM_SENS i 7 0 = (temps.getD i 0).toNat) ∧
        t.flag d.val .THM_STAT 0 1 = (decide (105 ≤ j) || (s.flag d.val .THM_STAT 0 1 && decide (103 < j)))

/-! ### The management controller -/

/-- R500–R506: a request on a binding that reaches the MC is answered on it: the MCTP control commands, PLDM base, monitoring and update
commands, each with its success code and values or the code that its table gives; an endpoint ID, a terminus ID, an event receiver and a
buffer size are kept. An update is asked for, its component accepted and its target erased; it is activated, cancelled, or refused to
another agent. The recovery responder answers monitoring commands with UNSUPPORTED_PLDM_CMD.
The model's own readings and choices in it: log entries 35, 70. -/
def Obligations.ManagementMessages : Prop :=
  ∀ (s : State) (b : Bind), s.mcReach b = true →
    let ans := fun (u : State) (c : RCode) (l : List Nat) => (.next (State.settle (u.answer b c l)) : Out)
    (∀ eid : BitVec 8, exec (.setEndpointId b eid) s =
      ans { s with mc := { s.mc with eid := put (fun _ => 0) s.mc.eid (bindNo b) eid.toNat } } .success [eid.toNat]) ∧
    exec (.getEndpointId b) s = ans s .success [look (fun _ => 0) s.mc.eid (bindNo b)] ∧
    exec (.getEndpointUuid b) s = ans s .success [Config.mcInfo 0] ∧
    exec (.getMctpVersionSupport b) s = ans s .success [Config.mcInfo 1] ∧
    exec (.getMessageTypeSupport b) s = ans s .success [0, 1] ∧
    (∀ tid : BitVec 8, exec (.settid b tid) s = ans { s with mc := { s.mc with tid := tid.toNat } } .success []) ∧
    exec (.gettid b) s = ans s .success [s.mc.tid] ∧
    exec (.getpldmtypes b) s = ans s .success (if s.mcRecov then [0, 5] else [0, 2, 5]) ∧
    (∀ ty : BitVec 8,
      (ty.toNat ∈ s.pldmTypes → exec (.getpldmversion b ty) s = ans s .success [Config.mcInfo (2 + ty.toNat)] ∧
        exec (.getpldmcommands b ty) s = ans s .success (pldmCommands ty.toNat)) ∧
      (ty.toNat ∉ s.pldmTypes → exec (.getpldmversion b ty) s = ans s .invalidData [] ∧ exec (.getpldmcommands b ty) s = ans s .invalidData [])) ∧
    (s.mcRecov = true → ∀ (id size : BitVec 16) (h : BitVec 32) (on : Bool) (eid : BitVec 8),
      exec (.getsensorreading b id) s = ans s .unsupportedPldmCmd [] ∧ exec (.getpdrrepositoryinfo b) s = ans s .unsupportedPldmCmd [] ∧
      exec (.getpdr b h) s = ans s .unsupportedPldmCmd [] ∧ exec (.seteventreceiver b on eid) s = ans s .unsupportedPldmCmd [] ∧
      exec (.geteventreceiver b) s = ans s .unsupportedPldmCmd [] ∧
      exec (.eventmessagebuffersize b size) s = ans s .unsupportedPldmCmd []) ∧
    (s.mcRecov = false →
      (∀ id : BitVec 16, (id.toNat ∉ sensorIds → exec (.getsensorreading b id) s = ans s .invalidData []) ∧
        (id.toNat ∈ sensorIds → exec (.getsensorreading b id) s = match look (fun _ => none) s.mc.sensors id.toNat with
          | some v => ans s .success [v]
          | none => ans s .unavailable [])) ∧
      exec (.getpdrrepositoryinfo b) s = ans s .success [301] ∧
      exec (.getpdr b 0) s = ans s .success [0, s.mc.tid] ∧
      (∀ (h : BitVec 32) (id : Nat), h ≠ 0 → sensorIds[h.toNat - 1]? = some id → exec (.getpdr b h) s =
        ans s .success (h.toNat :: id :: (s.thresholds id).flatMap fun t => [t.1, t.2.1])) ∧
      (∀ h : BitVec 32, h ≠ 0 → sensorIds[h.toNat - 1]? = none → exec (.getpdr b h) s = ans s .invalidData []) ∧
      (∀ eid : BitVec 8,
        exec (.seteventreceiver b true eid) s = .next (State.settle (State.evPump (State.answer
          { s with mc := { s.mc with receiver := some (b, eid.toNat), evSent := false } } b .success []))) ∧
        exec (.seteventreceiver b false eid) s = ans { s with mc := { s.mc with receiver := none, evSent := false, events := [] } } .success []) ∧
      exec (.geteventreceiver b) s = ans s .success (match s.mc.receiver with | some (r, eid) => [1, bindNo r, eid] | none => [0]) ∧
      ∀ size : BitVec 16, exec (.eventmessagebuffersize b size) s = ans { s with mc := { s.mc with bufSize := size.toNat } } .success [size.toNat]) ∧
    exec (.querydeviceidentifiers b) s = ans s .success
      [0x0001, Config.mcInfo 8, 0xFFFF, (s.reg 24 .SEC_DEVID 0).toNat, (s.reg 24 .SEC_SERIAL 0).toNat] ∧
    (∃ l, exec (.getfirmwareparameters b) s = ans s .success l ∧ (s.mcRecov = true → l.length = 5) ∧ (s.mcRecov = false → l.length = 10)) ∧
    (∀ piece : BitVec 32,
      (s.mc.upd = none → exec (.requestupdate b piece) s =
        ans (s.setUpd (some { agent := b, piece := max 1 (min 4096 piece.toNat) })) .success []) ∧
      ∀ u, s.mc.upd = some u → exec (.requestupdate b piece) s = ans s .alreadyInUpdateMode []) ∧
    (∀ (comp : BitVec 16) (stamp : BitVec 32), s.mc.upd = none →
      exec (.passcomponenttable b comp stamp) s = ans s .notInUpdateMode [] ∧ exec (.cancelupdate b) s = ans s .notInUpdateMode []) ∧
    (∀ u, s.mc.upd = some u → u.agent = b →
      (∀ (comp : BitVec 16) (stamp : BitVec 32), exec (.passcomponenttable b comp stamp) s =
        ans s .success [if s.hasComp comp.toNat && s.stampOk (comp.toNat == 2) stamp.toNat then 1 else 0]) ∧
      (∀ stamp size : BitVec 32, let t := s.updateTarget true (s.fld 24 .SEC_FWSEL 0 1 0)
        s.wouldStrand t = false → s.stampOk true stamp.toNat = true → 0x50 ≤ size.toNat → size.toNat ≤ (copyBase true t).2 →
        exec (.updatecomponent b 2 stamp size) s = .next (State.settle (State.mcSend (State.answer (State.setUpd
          (s.norErase (copyBase true t).1 (copyBase true t).2) (some { u with
            comp := 2, target := t, size := size.toNat, next := 0, head := [], result := 0 })) b .success [1]) b [5, 0, min u.piece size.toNat]))) ∧
      (∀ stamp size : BitVec 32, let t := s.updateTarget false (s.fld 24 .RND_STATUS 0 1 0)
        s.mcRecov = false → s.stopped = false → s.phase = 0 → s.flag 24 .RND_UPDSTAT 0 0 = false →
        s.stampOk false stamp.toNat = true → 0x50 ≤ size.toNat → size.toNat ≤ (copyBase false t).2 →
        exec (.updatecomponent b 1 stamp size) s = .next (State.settle (State.mcSend (State.answer (State.setUpd
          ((s.norErase (copyBase false t).1 (copyBase false t).2).setFld 24 .RND_UPDSTAT 0 5 0 1) (some { u with
            comp := 1, target := t, size := size.toNat, next := 0, head := [], result := 0 })) b .success [1]) b [5, 0, min u.piece size.toNat]))) ∧
      (∀ (comp : BitVec 16) (stamp size : BitVec 32),
        (s.hasComp comp.toNat = false → exec (.updatecomponent b comp stamp size) s = ans s .invalidData []) ∧
        (comp = 1 → s.mcRecov = false → s.stopped = true ∨ s.phase ≠ 0 ∨ s.flag 24 .RND_UPDSTAT 0 0 = true →
          exec (.updatecomponent b comp stamp size) s = ans s .notReady []) ∧
        (comp = 2 → s.wouldStrand (s.updateTarget true (s.fld 24 .SEC_FWSEL 0 1 0)) = true →
          exec (.updatecomponent b comp stamp size) s = ans s .unableToInitiateUpdate [])) ∧
      exec (.activatefirmware b true) s = ans s .selfContainedActivationNotPermitted [] ∧
      exec (.activatefirmware b false) s = ans (s.setUpd none) .success [] ∧
      exec (.cancelupdatecomponent b) s = ans ((s.dropComp u).setUpd (some { u with comp := 0, target := 0, result := 1 })) .success [] ∧
      exec (.cancelupdate b) s = ans ((s.dropComp u).setUpd none) .success []) ∧
    exec (.getstatus b) s = ans s .success (match s.mc.upd with | some u => [1, u.comp, u.target, u.next, u.result] | none => [0])

/-- R481, R492–R499, R502, R504, R506, R507: the MC selects its firmware or comes up as the recovery responder; it samples its sensors; its
watchdog is enabled and restarted by its key from a system core, warns at half its period and asserts the warm source at the full one; a
hang of the MC is logged and asserts the cold source; the oldest queued entry of its log is programmed under the next SEQ; events are sent
again or taken off; an update's data go to flash piece by piece and are verified; the mailbox reads the log, requests a cold reset, or
writes the sensors' readings. A read of STM_NEXTF takes off its oldest stream (R336).
The model's own readings and choices in it: log entries 2, 28, 34, 36. -/
def Obligations.ManagementController : Prop :=
  ∀ s : State,
    let out := fun (u : State) => (.next (State.settle u) : Out)
    (s.coldNow = false → s.fld 24 .MC_STAT 0 1 0 = 0 → s.sec.idEd ≠ [] → let c := s.selectCopy true true
      ∃ t, exec .mcFirmwareSelection s = .next t ∧ t.fld 24 .MC_STAT 0 1 0 = (if c.slot = 0 then 2 else 1) ∧
        t.fld 24 .SEC_FWSEL 0 3 2 = (if c.slot = 0 then s.fld 24 .SEC_FWSEL 0 3 2 else c.slot) ∧
        t.reg 24 .SEC_MCSEQ 0 = (if c.slot = 0 then s.reg 24 .SEC_MCSEQ 0 else BitVec.ofNat 64 (hdrSeq (s.copyRd true c.slot)))) ∧
    (∀ samples : List Sample, s.mcAlive = true → s.mcRecov = false → ∃ t, exec (.sensorSample samples) s = .next t ∧
      ∀ id ∈ sensorIds, look (fun _ => none) t.mc.sensors id = s.sampleOf samples id) ∧
    (∀ (b : State) (q : Src) (v : Word), b.regAccess q 24 .MC_WDCFG 0 = (true, s) → s.flag 24 .MC_WDCFG 0 0 = false → bit v 0 = true → ∃ t,
      exec (.mcWdcfgWrite q v) b = .next t ∧ t.flag 24 .MC_WDCFG 0 0 = true ∧ t.fld 24 .MC_WDCFG 0 31 16 = bits v 31 16 ∧
      t.mc.wd = some s.mctime ∧ t.mc.prewarned = false) ∧
    (∀ (b : State) (c : CoreId) (v : Word), b.regAccess (.core c) 24 .MC_WDKICK 0 = (true, s) → isSystem c = true → bits v 31 0 = 0x4B434B49 →
      s.flag 24 .MC_WDCFG 0 0 = true →
      (s.wdOut = false → exec (.mcWdkick (.core c) v) b = out { s with mc := { s.mc with wd := some s.mctime, prewarned := false } }) ∧
      (s.wdOut = true → exec (.mcWdkick (.core c) v) b = out s)) ∧
    (∀ (b : State) (v : Word), b.regAccess .host 24 .MC_WDKICK 0 = (true, s) → exec (.mcWdkick .host v) b =
      out (s.errResponse 24 3 7 (srcReq .host) (ctrlBase + regKey 24 .MC_WDKICK 0 0))) ∧
    (∀ (b : State) (c : CoreId) (v : Word), b.regAccess (.core c) 24 .MC_WDKICK 0 = (true, s) → isSystem c = false ∨ bits v 31 0 ≠ 0x4B434B49 →
      exec (.mcWdkick (.core c) v) b = out (s.errResponse 24 3 7 (srcReq (.core c)) (ctrlBase + regKey 24 .MC_WDKICK 0 0))) ∧
    (∀ t : Nat, s.mc.wd = some t →
      (∀ c : CoreId, s.mc.prewarned = false → t + s.wdPeriod / 2 ≤ s.mctime → s.fld 24 .MC_WDCFG 0 38 32 = c.val → ∃ u,
        exec .watchdogPrewarning s = .next u ∧ (u.core c).prewarn = true ∧ u.mc.prewarned = true) ∧
      (t + s.wdPeriod ≤ s.mctime → exec .watchdogExpiry s =
        out ((State.mcLog { s with mc := { s.mc with wd := none } } 0x0005 0 24 2 0 0).assertSource 7 1))) ∧
    (s.coldNow = false → s.flag 24 .MC_STAT 0 0 = true → exec .mcHang s = out ((s.logNow 0x0005 0 24 3 0 0).assertSource 4 0xF0)) ∧
    (∀ (e : McEntry) (l : List McEntry) (whole : Bool), s.coldNow = false → s.fld 24 .MC_STAT 0 1 0 ≠ 0 → s.mclog.queue = e :: l →
      let t := State.logProgram { s with mclog := { s.mclog with queue := l } } e whole
      (s.mclog.dropped = 0 → exec (.logEntryWrite whole) s = out t) ∧
      (s.mclog.dropped ≠ 0 → exec (.logEntryWrite whole) s = out (State.mcLog { t with mclog := { t.mclog with dropped := 0 } } 0x000D 0 24
        s.mclog.dropped (s.mclog.next + 1 + l.length) 0)) ∧
      t.mclog.queue = l ∧ t.mclog.next = s.mclog.next + 1 ∧
      look (fun _ => none) t.mclog.flash (s.mclog.next % 65536) = some { seq := s.mclog.next, e := e, torn := !whole } ∧
      (whole = true → t.reg 24 .MC_LOGHEAD 0 = BitVec.ofNat 64 s.mclog.next)) ∧
    (s.mcAlive = true → s.mc.evSent = true →
      exec .eventRetry s = out (State.evPump { s with mc := { s.mc with evSent := false } }) ∧
      exec .platformEventAcknowledged s = out (State.evPump { s with mc := { s.mc with evSent := false, events := s.mc.events.drop 1 } })) ∧
    (∀ (u : FwUpd), s.mc.upd = some u → s.mcAlive = true → u.target ≠ 0 →
      (∀ data : List Byte, u.next ≠ u.size → data.length = min u.piece (u.size - u.next) →
        let t := State.setUpd (s.norWrite ((copyBase (u.comp == 2) u.target).1 + max 0x50 u.next) (data.drop (0x50 - u.next)))
          (some { u with next := u.next + data.length, head := u.head ++ data.take (0x50 - u.next) })
        exec (.firmwareDataReceived data) s = out (if u.next + data.length < u.size
          then t.mcSend u.agent [5, u.next + data.length, min u.piece (u.size - (u.next + data.length))] else t.mcSend u.agent [6, 0])) ∧
      (u.next = u.size →
        let fw := u.comp == 2
        let base := (copyBase fw u.target).1
        let rd := listRd (u.head ++ s.norBytes (base + 0x50) (u.size - 0x50))
        let r := if s.fullReason fw false rd = 0 ∧ fw = true then s.fullReason true true rd else s.fullReason fw false rd
        ∀ good, exec (.updateVerify good) s = out (if r ≠ 0 then s.updFinish u r (hdrSeq rd)
          else if hdrLen rd ≠ u.size then s.updFinish u 2 (hdrSeq rd)
          else if s.seqAbove fw (hdrSeq rd) = false then s.updFinish u 10 (hdrSeq rd)
          else if good = true then (s.norWrite base u.head).updFinish u 0 (hdrSeq rd) else s.updFinish u 11 (hdrSeq rd)))) ∧
    (∀ (b : State) (q : Src), b.regAccess q 24 .MC_CMD 0 = (true, s) → mcCmdOk q = true → s.flag 24 .MC_CMDSTAT 0 2 = false → s.mcAlive = true → s.mcRecov = false →
      (∀ count : BitVec 16, 1 ≤ count.toNat → count.toNat ≤ 4096 → exec (.logread q count) b = out (s.mcRun 1 count.toNat)) ∧
      (∀ reason : BitVec 8, reason ≠ 1 → reason.toNat < 0xF0 → exec (.cold q reason) b = out (s.assertSource 4 reason.toNat)) ∧
      exec (.sensors q) b = out (s.mcRun 3 0)) ∧
    (∀ (count n : Nat) (u : State), s.mcWrite (s.fld 24 .MC_ADDR 0 47 6 * 64) (s.mcRecords 1 count) 0 = ((.ok (), n), u) →
      s.mcRun 1 count = u.mcRes 1 n) ∧
    (∀ (n : Nat) (u : State), State.mcWrite { s with free := s.free + 0x500 } (s.fld 24 .MC_ADDR 0 47 6 * 64) (s.mcRecords 3 0) 0 = ((.ok (), n), u) →
      s.mcRun 3 0 = u.mcRes 1 n) ∧
    ∀ (b : State) (q : Src), b.regAccess q 24 .STM_NEXTF 0 = (true, s) →
      (s.trowel.nextf = [] → exec (.stmNextf q) b = out s) ∧
      ∀ (n : Nat) (l : List Nat), s.trowel.nextf = n :: l → exec (.stmNextf q) b = out { s with trowel := { s.trowel with nextf := l } }
end

