-- ==== Sys2Proof/Laws/Sparse.lean ====
section
/-! SUPPORT. The laws of sparse stores: what is read after a write, and that the canonical form is kept. -/

namespace Sys2Proof.Machine

variable {α : Type}

theorem look_eraseKey_self (d : Nat → α) (m : Sparse α) (k : Nat) : look d (eraseKey m k) k = d k := by
  induction m with
  | nil => rfl
  | cons e m ih =>
    obtain ⟨j, w⟩ := e
    by_cases h : j = k
    · simpa [eraseKey, h] using ih
    · simpa [eraseKey, h, look] using ih

theorem look_eraseKey_ne (d : Nat → α) (m : Sparse α) {k j : Nat} (h : j ≠ k) : look d (eraseKey m k) j = look d m j := by
  induction m with
  | nil => rfl
  | cons e m ih =>
    obtain ⟨i, w⟩ := e
    by_cases hi : i = k
    · have : k ≠ j := fun h' => h h'.symm
      simpa [eraseKey, hi, look, this] using ih
    · by_cases hj : i = j
      · simp [eraseKey, look, hj, h]
      · simpa [eraseKey, hi, look, hj] using ih

theorem look_insertKey_ne (d : Nat → α) (m : Sparse α) (v : α) {k j : Nat} (h : j ≠ k) :
    look d (insertKey k v m) j = look d m j := by
  have hk : k ≠ j := fun h' => h h'.symm
  induction m with
  | nil => simp [insertKey, look, hk]
  | cons e m ih =>
    obtain ⟨i, w⟩ := e
    by_cases hi : k < i
    · simp [insertKey, hi, look, hk]
    · simp only [insertKey, hi, if_false, look, ih]

theorem look_insertKey_self (d : Nat → α) (m : Sparse α) (k : Nat) (v : α) (h : ∀ e ∈ m, e.1 ≠ k) :
    look d (insertKey k v m) k = v := by
  induction m with
  | nil => simp [insertKey, look]
  | cons e m ih =>
    obtain ⟨i, w⟩ := e
    have hi : i ≠ k := h (i, w) (List.mem_cons_self ..)
    have ih := ih fun e he => h e (List.mem_cons_of_mem _ he)
    by_cases hl : k < i
    · simp [insertKey, hl, look]
    · simpa [insertKey, hl, look, hi] using ih

theorem not_mem_eraseKey (m : Sparse α) (k : Nat) : ∀ e ∈ eraseKey m k, e.1 ≠ k := by
  intro e he
  simpa [eraseKey] using (List.mem_filter.mp he).2

theorem eraseKey_insertKey (m : Sparse α) (k : Nat) (v : α) : eraseKey (insertKey k v m) k = eraseKey m k := by
  induction m with
  | nil => simp [insertKey, eraseKey]
  | cons e m ih =>
    obtain ⟨i, w⟩ := e
    by_cases h : k < i
    · simp [insertKey, h, eraseKey]
    · by_cases hi : i = k
      · simpa [insertKey, eraseKey, hi] using ih
      · simpa [insertKey, h, eraseKey, hi] using ih

theorem eraseKey_idem (m : Sparse α) (k : Nat) : eraseKey (eraseKey m k) k = eraseKey m k := by simp [eraseKey]

variable [DecidableEq α]

/-- A key reads as it was last written. -/
@[simp] theorem look_put_self (d : Nat → α) (m : Sparse α) (k : Nat) (v : α) : look d (put d m k v) k = v := by
  unfold put
  split
  · rw [look_eraseKey_self, ‹v = d k›]
  · exact look_insertKey_self d _ k v (not_mem_eraseKey m k)

/-- Every other key reads as before. -/
theorem look_put_ne (d e : Nat → α) (m : Sparse α) (v : α) {k j : Nat} (h : j ≠ k) : look e (put d m k v) j = look e m j := by
  unfold put
  split
  · exact look_eraseKey_ne e m h
  · rw [look_insertKey_ne e _ v h, look_eraseKey_ne e m h]

theorem look_put (d : Nat → α) (m : Sparse α) (k j : Nat) (v : α) : look d (put d m k v) j = if j = k then v else look d m j := by
  by_cases h : j = k
  · subst h; simp
  · simp [look_put_ne d d m v h, h]

/-- The last of two writes of a key counts. -/
@[simp] theorem put_put (d : Nat → α) (m : Sparse α) (k : Nat) (v w : α) : put d (put d m k v) k w = put d m k w := by
  have h : eraseKey (put d m k v) k = eraseKey m k := by
    unfold put; split
    · exact eraseKey_idem m k
    · rw [eraseKey_insertKey, eraseKey_idem]
  unfold put at h ⊢
  rw [h]

/-! ### The canonical form -/

theorem wfFrom_mono (d : Nat → α) {m : Sparse α} {lo lo' : Nat} (h : lo' ≤ lo) (hm : wfFrom d lo m = true) : wfFrom d lo' m = true := by
  cases m with
  | nil => rfl
  | cons e m =>
    obtain ⟨k, v⟩ := e
    simp [wfFrom] at hm ⊢
    exact ⟨⟨by omega, hm.1.2⟩, hm.2⟩

theorem wfFrom_eraseKey (d : Nat → α) {m : Sparse α} {lo : Nat} (k : Nat) (hm : wfFrom d lo m = true) :
    wfFrom d lo (eraseKey m k) = true := by
  induction m generalizing lo with
  | nil => rfl
  | cons e m ih =>
    obtain ⟨i, w⟩ := e
    simp [wfFrom] at hm
    by_cases h : i = k
    · have := wfFrom_mono d (lo' := lo) (by omega) (ih hm.2)
      simpa [eraseKey, h] using this
    · have := ih hm.2
      simp [eraseKey, h, wfFrom, hm.1] at this ⊢
      exact this

theorem wfFrom_insertKey (d : Nat → α) {m : Sparse α} {lo k : Nat} {v : α} (hk : lo ≤ k) (hv : v ≠ d k) (hm : wfFrom d lo m = true)
    (hn : ∀ e ∈ m, e.1 ≠ k) : wfFrom d lo (insertKey k v m) = true := by
  induction m generalizing lo with
  | nil => simp [insertKey, wfFrom, hk, hv]
  | cons e m ih =>
    obtain ⟨i, w⟩ := e
    have hi : i ≠ k := hn (i, w) (List.mem_cons_self ..)
    simp [wfFrom] at hm
    by_cases hl : k < i
    · have := wfFrom_mono d (lo' := k + 1) (by omega) (lo := i + 1) hm.2
      simp [insertKey, hl, wfFrom, hk, hv, hm.1, hm.2]
    · have := ih (lo := i + 1) (by omega) hm.2 fun e he => hn e (List.mem_cons_of_mem _ he)
      simp [insertKey, hl, wfFrom, hm.1, this]

/-- A write keeps the canonical form. -/
theorem wf_put (d : Nat → α) {m : Sparse α} (k : Nat) (v : α) (hm : wf d m = true) : wf d (put d m k v) = true := by
  unfold wf at hm ⊢
  unfold put
  split
  · exact wfFrom_eraseKey d k hm
  · exact wfFrom_insertKey d (Nat.zero_le k) ‹_› (wfFrom_eraseKey d k hm) (not_mem_eraseKey m k)

/-- A run of writes keeps the canonical form. -/
theorem wf_putRun (d : Nat → α) (vs : List α) {m : Sparse α} (k : Nat) (hm : wf d m = true) : wf d (putRun d m k vs) = true := by
  induction vs generalizing m k with
  | nil => exact hm
  | cons v vs ih => exact ih (k + 1) (wf_put d k v hm)

theorem wfFrom_filter (d : Nat → α) (p : Nat × α → Bool) {m : Sparse α} {lo : Nat} (hm : wfFrom d lo m = true) :
    wfFrom d lo (m.filter p) = true := by
  induction m generalizing lo with
  | nil => rfl
  | cons e m ih =>
    obtain ⟨k, v⟩ := e
    simp [wfFrom] at hm
    by_cases h : p (k, v) = true
    · simp [h, wfFrom, hm.1, ih hm.2]
    · have := wfFrom_mono d (lo' := lo) (by omega) (ih hm.2)
      simpa [h] using this

/-- Entries taken out keep the canonical form. -/
theorem wf_dropKeys (d : Nat → α) (p : Nat → Bool) {m : Sparse α} (hm : wf d m = true) : wf d (dropKeys p m) = true :=
  wfFrom_filter d _ hm

/-- A key outside a run of writes reads as before. -/
theorem look_putRun_out (d : Nat → α) (vs : List α) (m : Sparse α) (k j : Nat) (h : j < k ∨ k + vs.length ≤ j) :
    look d (putRun d m k vs) j = look d m j := by
  induction vs generalizing m k with
  | nil => rfl
  | cons v vs ih =>
    simp only [List.length_cons] at h
    rw [putRun, ih _ _ (by omega), look_put_ne d d m v (by omega)]

omit [DecidableEq α] in
/-- A run has the length that is read. -/
@[simp] theorem length_lookRun (d : Nat → α) (m : Sparse α) (k n : Nat) : (lookRun d m k n).length = n := by
  induction n generalizing k with
  | zero => rfl
  | succ n ih => simp [lookRun, ih]

/-- A run reads as it was written. -/
theorem lookRun_putRun (d : Nat → α) (vs : List α) (m : Sparse α) (k : Nat) : lookRun d (putRun d m k vs) k vs.length = vs := by
  induction vs generalizing m k with
  | nil => rfl
  | cons v vs ih =>
    simp only [putRun, List.length_cons, lookRun, ih]
    rw [look_putRun_out d vs _ (k + 1) k (by omega), look_put_self]

end Sys2Proof.Machine
end

