-- ==== Sys2Proof/Laws/State.lean ====
section
/-! SUPPORT. One lemma per field per update of State, true by unfolding, and the laws of its registers and cores. -/

namespace Sys2Proof.Machine

open Sys2Proof

/-! ### Fields an update leaves alone -/

@[simp] theorem State.setRegW_pending (s : State) (d : Nat) (r : RegName) (i w : Nat) (v : Word) : (s.setRegW d r i w v).pending = s.pending := rfl
@[simp] theorem State.setRegW_free (s : State) (d : Nat) (r : RegName) (i w : Nat) (v : Word) : (s.setRegW d r i w v).free = s.free := rfl
@[simp] theorem State.setRegW_mem (s : State) (d : Nat) (r : RegName) (i w : Nat) (v : Word) : (s.setRegW d r i w v).mem = s.mem := rfl
@[simp] theorem State.setRegW_poison (s : State) (d : Nat) (r : RegName) (i w : Nat) (v : Word) : (s.setRegW d r i w v).poison = s.poison := rfl
@[simp] theorem State.setRegW_cores (s : State) (d : Nat) (r : RegName) (i w : Nat) (v : Word) : (s.setRegW d r i w v).cores = s.cores := rfl
@[simp] theorem State.setRegW_engines (s : State) (d : Nat) (r : RegName) (i w : Nat) (v : Word) : (s.setRegW d r i w v).engines = s.engines := rfl
@[simp] theorem State.setRegW_edges (s : State) (d : Nat) (r : RegName) (i w : Nat) (v : Word) : (s.setRegW d r i w v).edges = s.edges := rfl
@[simp] theorem State.setRegW_flight (s : State) (d : Nat) (r : RegName) (i w : Nat) (v : Word) : (s.setRegW d r i w v).flight = s.flight := rfl
@[simp] theorem State.setRegW_gangs (s : State) (d : Nat) (r : RegName) (i w : Nat) (v : Word) : (s.setRegW d r i w v).gangs = s.gangs := rfl
@[simp] theorem State.setRegW_trowel (s : State) (d : Nat) (r : RegName) (i w : Nat) (v : Word) : (s.setRegW d r i w v).trowel = s.trowel := rfl
@[simp] theorem State.setRegW_fqJoin (s : State) (d : Nat) (r : RegName) (i w : Nat) (v : Word) : (s.setRegW d r i w v).fqJoin = s.fqJoin := rfl
@[simp] theorem State.setRegW_fqWait (s : State) (d : Nat) (r : RegName) (i w : Nat) (v : Word) : (s.setRegW d r i w v).fqWait = s.fqWait := rfl
@[simp] theorem State.setRegW_fqAbort (s : State) (d : Nat) (r : RegName) (i w : Nat) (v : Word) : (s.setRegW d r i w v).fqAbort = s.fqAbort := rfl
@[simp] theorem State.setRegW_dtlb (s : State) (d : Nat) (r : RegName) (i w : Nat) (v : Word) : (s.setRegW d r i w v).dtlb = s.dtlb := rfl
@[simp] theorem State.setRegW_fqOrder (s : State) (d : Nat) (r : RegName) (i w : Nat) (v : Word) : (s.setRegW d r i w v).fqOrder = s.fqOrder := rfl
@[simp] theorem State.setRegW_epochWait (s : State) (d : Nat) (r : RegName) (i w : Nat) (v : Word) : (s.setRegW d r i w v).epochWait = s.epochWait := rfl
@[simp] theorem State.setRegW_errOrder (s : State) (d : Nat) (r : RegName) (i w : Nat) (v : Word) : (s.setRegW d r i w v).errOrder = s.errOrder := rfl
@[simp] theorem State.setRegW_mclog (s : State) (d : Nat) (r : RegName) (i w : Nat) (v : Word) : (s.setRegW d r i w v).mclog = s.mclog := rfl
@[simp] theorem State.setRegW_time (s : State) (d : Nat) (r : RegName) (i w : Nat) (v : Word) : (s.setRegW d r i w v).time = s.time := rfl
@[simp] theorem State.setRegW_frac (s : State) (d : Nat) (r : RegName) (i w : Nat) (v : Word) : (s.setRegW d r i w v).frac = s.frac := rfl
@[simp] theorem State.setRegW_timeRuns (s : State) (d : Nat) (r : RegName) (i w : Nat) (v : Word) : (s.setRegW d r i w v).timeRuns = s.timeRuns := rfl
@[simp] theorem State.setRegW_mctime (s : State) (d : Nat) (r : RegName) (i w : Nat) (v : Word) : (s.setRegW d r i w v).mctime = s.mctime := rfl
@[simp] theorem State.setRegW_hbmWait (s : State) (d : Nat) (r : RegName) (i w : Nat) (v : Word) : (s.setRegW d r i w v).hbmWait = s.hbmWait := rfl
@[simp] theorem State.setRegW_tileFill (s : State) (d : Nat) (r : RegName) (i w : Nat) (v : Word) : (s.setRegW d r i w v).tileFill = s.tileFill := rfl
@[simp] theorem State.setRegW_links (s : State) (d : Nat) (r : RegName) (i w : Nat) (v : Word) : (s.setRegW d r i w v).links = s.links := rfl
@[simp] theorem State.setRegW_drds (s : State) (d : Nat) (r : RegName) (i w : Nat) (v : Word) : (s.setRegW d r i w v).drds = s.drds := rfl
@[simp] theorem State.setRegW_hrds (s : State) (d : Nat) (r : RegName) (i w : Nat) (v : Word) : (s.setRegW d r i w v).hrds = s.hrds := rfl
@[simp] theorem State.setRegW_waits (s : State) (d : Nat) (r : RegName) (i w : Nat) (v : Word) : (s.setRegW d r i w v).waits = s.waits := rfl
@[simp] theorem State.setRegW_sent (s : State) (d : Nat) (r : RegName) (i w : Nat) (v : Word) : (s.setRegW d r i w v).sent = s.sent := rfl
@[simp] theorem State.setRegW_fuses (s : State) (d : Nat) (r : RegName) (i w : Nat) (v : Word) : (s.setRegW d r i w v).fuses = s.fuses := rfl
@[simp] theorem State.setRegW_tap (s : State) (d : Nat) (r : RegName) (i w : Nat) (v : Word) : (s.setRegW d r i w v).tap = s.tap := rfl
@[simp] theorem State.setRegW_sync (s : State) (d : Nat) (r : RegName) (i w : Nat) (v : Word) : (s.setRegW d r i w v).sync = s.sync := rfl
@[simp] theorem State.setRegW_twin (s : State) (d : Nat) (r : RegName) (i w : Nat) (v : Word) : (s.setRegW d r i w v).twin = s.twin := rfl
@[simp] theorem State.setRegW_stencil (s : State) (d : Nat) (r : RegName) (i w : Nat) (v : Word) : (s.setRegW d r i w v).stencil = s.stencil := rfl
@[simp] theorem State.setRegW_snap (s : State) (d : Nat) (r : RegName) (i w : Nat) (v : Word) : (s.setRegW d r i w v).snap = s.snap := rfl
@[simp] theorem State.setRegW_snapCount (s : State) (d : Nat) (r : RegName) (i w : Nat) (v : Word) : (s.setRegW d r i w v).snapCount = s.snapCount := rfl
@[simp] theorem State.setRegW_restore (s : State) (d : Nat) (r : RegName) (i w : Nat) (v : Word) : (s.setRegW d r i w v).restore = s.restore := rfl
@[simp] theorem State.setRegW_hawk (s : State) (d : Nat) (r : RegName) (i w : Nat) (v : Word) : (s.setRegW d r i w v).hawk = s.hawk := rfl
@[simp] theorem State.setRegW_rst (s : State) (d : Nat) (r : RegName) (i w : Nat) (v : Word) : (s.setRegW d r i w v).rst = s.rst := rfl
@[simp] theorem State.setRegW_nor (s : State) (d : Nat) (r : RegName) (i w : Nat) (v : Word) : (s.setRegW d r i w v).nor = s.nor := rfl
@[simp] theorem State.setRegW_upd (s : State) (d : Nat) (r : RegName) (i w : Nat) (v : Word) : (s.setRegW d r i w v).upd = s.upd := rfl
@[simp] theorem State.setRegW_supply (s : State) (d : Nat) (r : RegName) (i w : Nat) (v : Word) : (s.setRegW d r i w v).supply = s.supply := rfl
@[simp] theorem State.setRegW_sec (s : State) (d : Nat) (r : RegName) (i w : Nat) (v : Word) : (s.setRegW d r i w v).sec = s.sec := rfl
@[simp] theorem State.setRegW_mc (s : State) (d : Nat) (r : RegName) (i w : Nat) (v : Word) : (s.setRegW d r i w v).mc = s.mc := rfl
@[simp] theorem State.setRegW_fifoErr (s : State) (d : Nat) (r : RegName) (i w : Nat) (v : Word) : (s.setRegW d r i w v).fifoErr = s.fifoErr := rfl
@[simp] theorem State.setRegW_scrim (s : State) (d : Nat) (r : RegName) (i w : Nat) (v : Word) : (s.setRegW d r i w v).scrim = s.scrim := rfl
@[simp] theorem State.setRegW_fqFresh (s : State) (d : Nat) (r : RegName) (i w : Nat) (v : Word) : (s.setRegW d r i w v).fqFresh = s.fqFresh := rfl
@[simp] theorem State.setRegW_dwrLost (s : State) (d : Nat) (r : RegName) (i w : Nat) (v : Word) : (s.setRegW d r i w v).dwrLost = s.dwrLost := rfl
@[simp] theorem State.setRegW_staging (s : State) (d : Nat) (r : RegName) (i w : Nat) (v : Word) : (s.setRegW d r i w v).staging = s.staging := rfl

@[simp] theorem State.setCore_pending (s : State) (c : CoreId) (x : Core) : (s.setCore c x).pending = s.pending := rfl
@[simp] theorem State.setCore_free (s : State) (c : CoreId) (x : Core) : (s.setCore c x).free = s.free := rfl
@[simp] theorem State.setCore_regs (s : State) (c : CoreId) (x : Core) : (s.setCore c x).regs = s.regs := rfl
@[simp] theorem State.setCore_mem (s : State) (c : CoreId) (x : Core) : (s.setCore c x).mem = s.mem := rfl
@[simp] theorem State.setCore_poison (s : State) (c : CoreId) (x : Core) : (s.setCore c x).poison = s.poison := rfl
@[simp] theorem State.setCore_engines (s : State) (c : CoreId) (x : Core) : (s.setCore c x).engines = s.engines := rfl
@[simp] theorem State.setCore_edges (s : State) (c : CoreId) (x : Core) : (s.setCore c x).edges = s.edges := rfl
@[simp] theorem State.setCore_flight (s : State) (c : CoreId) (x : Core) : (s.setCore c x).flight = s.flight := rfl
@[simp] theorem State.setCore_gangs (s : State) (c : CoreId) (x : Core) : (s.setCore c x).gangs = s.gangs := rfl
@[simp] theorem State.setCore_trowel (s : State) (c : CoreId) (x : Core) : (s.setCore c x).trowel = s.trowel := rfl
@[simp] theorem State.setCore_fqJoin (s : State) (c : CoreId) (x : Core) : (s.setCore c x).fqJoin = s.fqJoin := rfl
@[simp] theorem State.setCore_fqWait (s : State) (c : CoreId) (x : Core) : (s.setCore c x).fqWait = s.fqWait := rfl
@[simp] theorem State.setCore_fqAbort (s : State) (c : CoreId) (x : Core) : (s.setCore c x).fqAbort = s.fqAbort := rfl
@[simp] theorem State.setCore_dtlb (s : State) (c : CoreId) (x : Core) : (s.setCore c x).dtlb = s.dtlb := rfl
@[simp] theorem State.setCore_fqOrder (s : State) (c : CoreId) (x : Core) : (s.setCore c x).fqOrder = s.fqOrder := rfl
@[simp] theorem State.setCore_epochWait (s : State) (c : CoreId) (x : Core) : (s.setCore c x).epochWait = s.epochWait := rfl
@[simp] theorem State.setCore_errOrder (s : State) (c : CoreId) (x : Core) : (s.setCore c x).errOrder = s.errOrder := rfl
@[simp] theorem State.setCore_mclog (s : State) (c : CoreId) (x : Core) : (s.setCore c x).mclog = s.mclog := rfl
@[simp] theorem State.setCore_time (s : State) (c : CoreId) (x : Core) : (s.setCore c x).time = s.time := rfl
@[simp] theorem State.setCore_frac (s : State) (c : CoreId) (x : Core) : (s.setCore c x).frac = s.frac := rfl
@[simp] theorem State.setCore_timeRuns (s : State) (c : CoreId) (x : Core) : (s.setCore c x).timeRuns = s.timeRuns := rfl
@[simp] theorem State.setCore_mctime (s : State) (c : CoreId) (x : Core) : (s.setCore c x).mctime = s.mctime := rfl
@[simp] theorem State.setCore_hbmWait (s : State) (c : CoreId) (x : Core) : (s.setCore c x).hbmWait = s.hbmWait := rfl
@[simp] theorem State.setCore_tileFill (s : State) (c : CoreId) (x : Core) : (s.setCore c x).tileFill = s.tileFill := rfl
@[simp] theorem State.setCore_links (s : State) (c : CoreId) (x : Core) : (s.setCore c x).links = s.links := rfl
@[simp] theorem State.setCore_drds (s : State) (c : CoreId) (x : Core) : (s.setCore c x).drds = s.drds := rfl
@[simp] theorem State.setCore_hrds (s : State) (c : CoreId) (x : Core) : (s.setCore c x).hrds = s.hrds := rfl
@[simp] theorem State.setCore_waits (s : State) (c : CoreId) (x : Core) : (s.setCore c x).waits = s.waits := rfl
@[simp] theorem State.setCore_sent (s : State) (c : CoreId) (x : Core) : (s.setCore c x).sent = s.sent := rfl
@[simp] theorem State.setCore_fuses (s : State) (c : CoreId) (x : Core) : (s.setCore c x).fuses = s.fuses := rfl
@[simp] theorem State.setCore_tap (s : State) (c : CoreId) (x : Core) : (s.setCore c x).tap = s.tap := rfl
@[simp] theorem State.setCore_sync (s : State) (c : CoreId) (x : Core) : (s.setCore c x).sync = s.sync := rfl
@[simp] theorem State.setCore_twin (s : State) (c : CoreId) (x : Core) : (s.setCore c x).twin = s.twin := rfl
@[simp] theorem State.setCore_stencil (s : State) (c : CoreId) (x : Core) : (s.setCore c x).stencil = s.stencil := rfl
@[simp] theorem State.setCore_snap (s : State) (c : CoreId) (x : Core) : (s.setCore c x).snap = s.snap := rfl
@[simp] theorem State.setCore_snapCount (s : State) (c : CoreId) (x : Core) : (s.setCore c x).snapCount = s.snapCount := rfl
@[simp] theorem State.setCore_restore (s : State) (c : CoreId) (x : Core) : (s.setCore c x).restore = s.restore := rfl
@[simp] theorem State.setCore_hawk (s : State) (c : CoreId) (x : Core) : (s.setCore c x).hawk = s.hawk := rfl
@[simp] theorem State.setCore_rst (s : State) (c : CoreId) (x : Core) : (s.setCore c x).rst = s.rst := rfl
@[simp] theorem State.setCore_nor (s : State) (c : CoreId) (x : Core) : (s.setCore c x).nor = s.nor := rfl
@[simp] theorem State.setCore_upd (s : State) (c : CoreId) (x : Core) : (s.setCore c x).upd = s.upd := rfl
@[simp] theorem State.setCore_supply (s : State) (c : CoreId) (x : Core) : (s.setCore c x).supply = s.supply := rfl
@[simp] theorem State.setCore_sec (s : State) (c : CoreId) (x : Core) : (s.setCore c x).sec = s.sec := rfl
@[simp] theorem State.setCore_mc (s : State) (c : CoreId) (x : Core) : (s.setCore c x).mc = s.mc := rfl
@[simp] theorem State.setCore_fifoErr (s : State) (c : CoreId) (x : Core) : (s.setCore c x).fifoErr = s.fifoErr := rfl
@[simp] theorem State.setCore_scrim (s : State) (c : CoreId) (x : Core) : (s.setCore c x).scrim = s.scrim := rfl
@[simp] theorem State.setCore_fqFresh (s : State) (c : CoreId) (x : Core) : (s.setCore c x).fqFresh = s.fqFresh := rfl
@[simp] theorem State.setCore_dwrLost (s : State) (c : CoreId) (x : Core) : (s.setCore c x).dwrLost = s.dwrLost := rfl
@[simp] theorem State.setCore_staging (s : State) (c : CoreId) (x : Core) : (s.setCore c x).staging = s.staging := rfl

@[simp] theorem State.updEngine_pending (s : State) (d : Nat) (f : Engine → Engine) : (s.updEngine d f).pending = s.pending := rfl
@[simp] theorem State.updEngine_free (s : State) (d : Nat) (f : Engine → Engine) : (s.updEngine d f).free = s.free := rfl
@[simp] theorem State.updEngine_regs (s : State) (d : Nat) (f : Engine → Engine) : (s.updEngine d f).regs = s.regs := rfl
@[simp] theorem State.updEngine_mem (s : State) (d : Nat) (f : Engine → Engine) : (s.updEngine d f).mem = s.mem := rfl
@[simp] theorem State.updEngine_poison (s : State) (d : Nat) (f : Engine → Engine) : (s.updEngine d f).poison = s.poison := rfl
@[simp] theorem State.updEngine_cores (s : State) (d : Nat) (f : Engine → Engine) : (s.updEngine d f).cores = s.cores := rfl
@[simp] theorem State.updEngine_edges (s : State) (d : Nat) (f : Engine → Engine) : (s.updEngine d f).edges = s.edges := rfl
@[simp] theorem State.updEngine_flight (s : State) (d : Nat) (f : Engine → Engine) : (s.updEngine d f).flight = s.flight := rfl
@[simp] theorem State.updEngine_gangs (s : State) (d : Nat) (f : Engine → Engine) : (s.updEngine d f).gangs = s.gangs := rfl
@[simp] theorem State.updEngine_trowel (s : State) (d : Nat) (f : Engine → Engine) : (s.updEngine d f).trowel = s.trowel := rfl
@[simp] theorem State.updEngine_fqJoin (s : State) (d : Nat) (f : Engine → Engine) : (s.updEngine d f).fqJoin = s.fqJoin := rfl
@[simp] theorem State.updEngine_fqWait (s : State) (d : Nat) (f : Engine → Engine) : (s.updEngine d f).fqWait = s.fqWait := rfl
@[simp] theorem State.updEngine_fqAbort (s : State) (d : Nat) (f : Engine → Engine) : (s.updEngine d f).fqAbort = s.fqAbort := rfl
@[simp] theorem State.updEngine_dtlb (s : State) (d : Nat) (f : Engine → Engine) : (s.updEngine d f).dtlb = s.dtlb := rfl
@[simp] theorem State.updEngine_fqOrder (s : State) (d : Nat) (f : Engine → Engine) : (s.updEngine d f).fqOrder = s.fqOrder := rfl
@[simp] theorem State.updEngine_epochWait (s : State) (d : Nat) (f : Engine → Engine) : (s.updEngine d f).epochWait = s.epochWait := rfl
@[simp] theorem State.updEngine_errOrder (s : State) (d : Nat) (f : Engine → Engine) : (s.updEngine d f).errOrder = s.errOrder := rfl
@[simp] theorem State.updEngine_mclog (s : State) (d : Nat) (f : Engine → Engine) : (s.updEngine d f).mclog = s.mclog := rfl
@[simp] theorem State.updEngine_time (s : State) (d : Nat) (f : Engine → Engine) : (s.updEngine d f).time = s.time := rfl
@[simp] theorem State.updEngine_frac (s : State) (d : Nat) (f : Engine → Engine) : (s.updEngine d f).frac = s.frac := rfl
@[simp] theorem State.updEngine_timeRuns (s : State) (d : Nat) (f : Engine → Engine) : (s.updEngine d f).timeRuns = s.timeRuns := rfl
@[simp] theorem State.updEngine_mctime (s : State) (d : Nat) (f : Engine → Engine) : (s.updEngine d f).mctime = s.mctime := rfl
@[simp] theorem State.updEngine_hbmWait (s : State) (d : Nat) (f : Engine → Engine) : (s.updEngine d f).hbmWait = s.hbmWait := rfl
@[simp] theorem State.updEngine_tileFill (s : State) (d : Nat) (f : Engine → Engine) : (s.updEngine d f).tileFill = s.tileFill := rfl
@[simp] theorem State.updEngine_links (s : State) (d : Nat) (f : Engine → Engine) : (s.updEngine d f).links = s.links := rfl
@[simp] theorem State.updEngine_drds (s : State) (d : Nat) (f : Engine → Engine) : (s.updEngine d f).drds = s.drds := rfl
@[simp] theorem State.updEngine_hrds (s : State) (d : Nat) (f : Engine → Engine) : (s.updEngine d f).hrds = s.hrds := rfl
@[simp] theorem State.updEngine_waits (s : State) (d : Nat) (f : Engine → Engine) : (s.updEngine d f).waits = s.waits := rfl
@[simp] theorem State.updEngine_sent (s : State) (d : Nat) (f : Engine → Engine) : (s.updEngine d f).sent = s.sent := rfl
@[simp] theorem State.updEngine_fuses (s : State) (d : Nat) (f : Engine → Engine) : (s.updEngine d f).fuses = s.fuses := rfl
@[simp] theorem State.updEngine_tap (s : State) (d : Nat) (f : Engine → Engine) : (s.updEngine d f).tap = s.tap := rfl
@[simp] theorem State.updEngine_sync (s : State) (d : Nat) (f : Engine → Engine) : (s.updEngine d f).sync = s.sync := rfl
@[simp] theorem State.updEngine_twin (s : State) (d : Nat) (f : Engine → Engine) : (s.updEngine d f).twin = s.twin := rfl
@[simp] theorem State.updEngine_stencil (s : State) (d : Nat) (f : Engine → Engine) : (s.updEngine d f).stencil = s.stencil := rfl
@[simp] theorem State.updEngine_snap (s : State) (d : Nat) (f : Engine → Engine) : (s.updEngine d f).snap = s.snap := rfl
@[simp] theorem State.updEngine_snapCount (s : State) (d : Nat) (f : Engine → Engine) : (s.updEngine d f).snapCount = s.snapCount := rfl
@[simp] theorem State.updEngine_restore (s : State) (d : Nat) (f : Engine → Engine) : (s.updEngine d f).restore = s.restore := rfl
@[simp] theorem State.updEngine_hawk (s : State) (d : Nat) (f : Engine → Engine) : (s.updEngine d f).hawk = s.hawk := rfl
@[simp] theorem State.updEngine_rst (s : State) (d : Nat) (f : Engine → Engine) : (s.updEngine d f).rst = s.rst := rfl
@[simp] theorem State.updEngine_nor (s : State) (d : Nat) (f : Engine → Engine) : (s.updEngine d f).nor = s.nor := rfl
@[simp] theorem State.updEngine_upd (s : State) (d : Nat) (f : Engine → Engine) : (s.updEngine d f).upd = s.upd := rfl
@[simp] theorem State.updEngine_supply (s : State) (d : Nat) (f : Engine → Engine) : (s.updEngine d f).supply = s.supply := rfl
@[simp] theorem State.updEngine_sec (s : State) (d : Nat) (f : Engine → Engine) : (s.updEngine d f).sec = s.sec := rfl
@[simp] theorem State.updEngine_mc (s : State) (d : Nat) (f : Engine → Engine) : (s.updEngine d f).mc = s.mc := rfl
@[simp] theorem State.updEngine_fifoErr (s : State) (d : Nat) (f : Engine → Engine) : (s.updEngine d f).fifoErr = s.fifoErr := rfl
@[simp] theorem State.updEngine_scrim (s : State) (d : Nat) (f : Engine → Engine) : (s.updEngine d f).scrim = s.scrim := rfl
@[simp] theorem State.updEngine_fqFresh (s : State) (d : Nat) (f : Engine → Engine) : (s.updEngine d f).fqFresh = s.fqFresh := rfl
@[simp] theorem State.updEngine_dwrLost (s : State) (d : Nat) (f : Engine → Engine) : (s.updEngine d f).dwrLost = s.dwrLost := rfl
@[simp] theorem State.updEngine_staging (s : State) (d : Nat) (f : Engine → Engine) : (s.updEngine d f).staging = s.staging := rfl

@[simp] theorem State.setBytes_pending (s : State) (pa : Nat) (bs : List Byte) : (s.setBytes pa bs).pending = s.pending := rfl
@[simp] theorem State.setBytes_free (s : State) (pa : Nat) (bs : List Byte) : (s.setBytes pa bs).free = s.free := rfl
@[simp] theorem State.setBytes_regs (s : State) (pa : Nat) (bs : List Byte) : (s.setBytes pa bs).regs = s.regs := rfl
@[simp] theorem State.setBytes_poison (s : State) (pa : Nat) (bs : List Byte) : (s.setBytes pa bs).poison = s.poison := rfl
@[simp] theorem State.setBytes_cores (s : State) (pa : Nat) (bs : List Byte) : (s.setBytes pa bs).cores = s.cores := rfl
@[simp] theorem State.setBytes_engines (s : State) (pa : Nat) (bs : List Byte) : (s.setBytes pa bs).engines = s.engines := rfl
@[simp] theorem State.setBytes_edges (s : State) (pa : Nat) (bs : List Byte) : (s.setBytes pa bs).edges = s.edges := rfl
@[simp] theorem State.setBytes_flight (s : State) (pa : Nat) (bs : List Byte) : (s.setBytes pa bs).flight = s.flight := rfl
@[simp] theorem State.setBytes_gangs (s : State) (pa : Nat) (bs : List Byte) : (s.setBytes pa bs).gangs = s.gangs := rfl
@[simp] theorem State.setBytes_trowel (s : State) (pa : Nat) (bs : List Byte) : (s.setBytes pa bs).trowel = s.trowel := rfl
@[simp] theorem State.setBytes_fqJoin (s : State) (pa : Nat) (bs : List Byte) : (s.setBytes pa bs).fqJoin = s.fqJoin := rfl
@[simp] theorem State.setBytes_fqWait (s : State) (pa : Nat) (bs : List Byte) : (s.setBytes pa bs).fqWait = s.fqWait := rfl
@[simp] theorem State.setBytes_fqAbort (s : State) (pa : Nat) (bs : List Byte) : (s.setBytes pa bs).fqAbort = s.fqAbort := rfl
@[simp] theorem State.setBytes_dtlb (s : State) (pa : Nat) (bs : List Byte) : (s.setBytes pa bs).dtlb = s.dtlb := rfl
@[simp] theorem State.setBytes_fqOrder (s : State) (pa : Nat) (bs : List Byte) : (s.setBytes pa bs).fqOrder = s.fqOrder := rfl
@[simp] theorem State.setBytes_epochWait (s : State) (pa : Nat) (bs : List Byte) : (s.setBytes pa bs).epochWait = s.epochWait := rfl
@[simp] theorem State.setBytes_errOrder (s : State) (pa : Nat) (bs : List Byte) : (s.setBytes pa bs).errOrder = s.errOrder := rfl
@[simp] theorem State.setBytes_mclog (s : State) (pa : Nat) (bs : List Byte) : (s.setBytes pa bs).mclog = s.mclog := rfl
@[simp] theorem State.setBytes_time (s : State) (pa : Nat) (bs : List Byte) : (s.setBytes pa bs).time = s.time := rfl
@[simp] theorem State.setBytes_frac (s : State) (pa : Nat) (bs : List Byte) : (s.setBytes pa bs).frac = s.frac := rfl
@[simp] theorem State.setBytes_timeRuns (s : State) (pa : Nat) (bs : List Byte) : (s.setBytes pa bs).timeRuns = s.timeRuns := rfl
@[simp] theorem State.setBytes_mctime (s : State) (pa : Nat) (bs : List Byte) : (s.setBytes pa bs).mctime = s.mctime := rfl
@[simp] theorem State.setBytes_hbmWait (s : State) (pa : Nat) (bs : List Byte) : (s.setBytes pa bs).hbmWait = s.hbmWait := rfl
@[simp] theorem State.setBytes_tileFill (s : State) (pa : Nat) (bs : List Byte) : (s.setBytes pa bs).tileFill = s.tileFill := rfl
@[simp] theorem State.setBytes_links (s : State) (pa : Nat) (bs : List Byte) : (s.setBytes pa bs).links = s.links := rfl
@[simp] theorem State.setBytes_drds (s : State) (pa : Nat) (bs : List Byte) : (s.setBytes pa bs).drds = s.drds := rfl
@[simp] theorem State.setBytes_hrds (s : State) (pa : Nat) (bs : List Byte) : (s.setBytes pa bs).hrds = s.hrds := rfl
@[simp] theorem State.setBytes_waits (s : State) (pa : Nat) (bs : List Byte) : (s.setBytes pa bs).waits = s.waits := rfl
@[simp] theorem State.setBytes_sent (s : State) (pa : Nat) (bs : List Byte) : (s.setBytes pa bs).sent = s.sent := rfl
@[simp] theorem State.setBytes_fuses (s : State) (pa : Nat) (bs : List Byte) : (s.setBytes pa bs).fuses = s.fuses := rfl
@[simp] theorem State.setBytes_tap (s : State) (pa : Nat) (bs : List Byte) : (s.setBytes pa bs).tap = s.tap := rfl
@[simp] theorem State.setBytes_sync (s : State) (pa : Nat) (bs : List Byte) : (s.setBytes pa bs).sync = s.sync := rfl
@[simp] theorem State.setBytes_twin (s : State) (pa : Nat) (bs : List Byte) : (s.setBytes pa bs).twin = s.twin := rfl
@[simp] theorem State.setBytes_stencil (s : State) (pa : Nat) (bs : List Byte) : (s.setBytes pa bs).stencil = s.stencil := rfl
@[simp] theorem State.setBytes_snap (s : State) (pa : Nat) (bs : List Byte) : (s.setBytes pa bs).snap = s.snap := rfl
@[simp] theorem State.setBytes_snapCount (s : State) (pa : Nat) (bs : List Byte) : (s.setBytes pa bs).snapCount = s.snapCount := rfl
@[simp] theorem State.setBytes_restore (s : State) (pa : Nat) (bs : List Byte) : (s.setBytes pa bs).restore = s.restore := rfl
@[simp] theorem State.setBytes_hawk (s : State) (pa : Nat) (bs : List Byte) : (s.setBytes pa bs).hawk = s.hawk := rfl
@[simp] theorem State.setBytes_rst (s : State) (pa : Nat) (bs : List Byte) : (s.setBytes pa bs).rst = s.rst := rfl
@[simp] theorem State.setBytes_nor (s : State) (pa : Nat) (bs : List Byte) : (s.setBytes pa bs).nor = s.nor := rfl
@[simp] theorem State.setBytes_upd (s : State) (pa : Nat) (bs : List Byte) : (s.setBytes pa bs).upd = s.upd := rfl
@[simp] theorem State.setBytes_supply (s : State) (pa : Nat) (bs : List Byte) : (s.setBytes pa bs).supply = s.supply := rfl
@[simp] theorem State.setBytes_sec (s : State) (pa : Nat) (bs : List Byte) : (s.setBytes pa bs).sec = s.sec := rfl
@[simp] theorem State.setBytes_mc (s : State) (pa : Nat) (bs : List Byte) : (s.setBytes pa bs).mc = s.mc := rfl
@[simp] theorem State.setBytes_fifoErr (s : State) (pa : Nat) (bs : List Byte) : (s.setBytes pa bs).fifoErr = s.fifoErr := rfl
@[simp] theorem State.setBytes_scrim (s : State) (pa : Nat) (bs : List Byte) : (s.setBytes pa bs).scrim = s.scrim := rfl
@[simp] theorem State.setBytes_fqFresh (s : State) (pa : Nat) (bs : List Byte) : (s.setBytes pa bs).fqFresh = s.fqFresh := rfl
@[simp] theorem State.setBytes_dwrLost (s : State) (pa : Nat) (bs : List Byte) : (s.setBytes pa bs).dwrLost = s.dwrLost := rfl
@[simp] theorem State.setBytes_staging (s : State) (pa : Nat) (bs : List Byte) : (s.setBytes pa bs).staging = s.staging := rfl

@[simp] theorem State.setPoison_pending (s : State) (pa : Nat) (b : Bool) : (s.setPoison pa b).pending = s.pending := rfl
@[simp] theorem State.setPoison_free (s : State) (pa : Nat) (b : Bool) : (s.setPoison pa b).free = s.free := rfl
@[simp] theorem State.setPoison_regs (s : State) (pa : Nat) (b : Bool) : (s.setPoison pa b).regs = s.regs := rfl
@[simp] theorem State.setPoison_mem (s : State) (pa : Nat) (b : Bool) : (s.setPoison pa b).mem = s.mem := rfl
@[simp] theorem State.setPoison_cores (s : State) (pa : Nat) (b : Bool) : (s.setPoison pa b).cores = s.cores := rfl
@[simp] theorem State.setPoison_engines (s : State) (pa : Nat) (b : Bool) : (s.setPoison pa b).engines = s.engines := rfl
@[simp] theorem State.setPoison_edges (s : State) (pa : Nat) (b : Bool) : (s.setPoison pa b).edges = s.edges := rfl
@[simp] theorem State.setPoison_flight (s : State) (pa : Nat) (b : Bool) : (s.setPoison pa b).flight = s.flight := rfl
@[simp] theorem State.setPoison_gangs (s : State) (pa : Nat) (b : Bool) : (s.setPoison pa b).gangs = s.gangs := rfl
@[simp] theorem State.setPoison_trowel (s : State) (pa : Nat) (b : Bool) : (s.setPoison pa b).trowel = s.trowel := rfl
@[simp] theorem State.setPoison_fqJoin (s : State) (pa : Nat) (b : Bool) : (s.setPoison pa b).fqJoin = s.fqJoin := rfl
@[simp] theorem State.setPoison_fqWait (s : State) (pa : Nat) (b : Bool) : (s.setPoison pa b).fqWait = s.fqWait := rfl
@[simp] theorem State.setPoison_fqAbort (s : State) (pa : Nat) (b : Bool) : (s.setPoison pa b).fqAbort = s.fqAbort := rfl
@[simp] theorem State.setPoison_dtlb (s : State) (pa : Nat) (b : Bool) : (s.setPoison pa b).dtlb = s.dtlb := rfl
@[simp] theorem State.setPoison_fqOrder (s : State) (pa : Nat) (b : Bool) : (s.setPoison pa b).fqOrder = s.fqOrder := rfl
@[simp] theorem State.setPoison_epochWait (s : State) (pa : Nat) (b : Bool) : (s.setPoison pa b).epochWait = s.epochWait := rfl
@[simp] theorem State.setPoison_errOrder (s : State) (pa : Nat) (b : Bool) : (s.setPoison pa b).errOrder = s.errOrder := rfl
@[simp] theorem State.setPoison_mclog (s : State) (pa : Nat) (b : Bool) : (s.setPoison pa b).mclog = s.mclog := rfl
@[simp] theorem State.setPoison_time (s : State) (pa : Nat) (b : Bool) : (s.setPoison pa b).time = s.time := rfl
@[simp] theorem State.setPoison_frac (s : State) (pa : Nat) (b : Bool) : (s.setPoison pa b).frac = s.frac := rfl
@[simp] theorem State.setPoison_timeRuns (s : State) (pa : Nat) (b : Bool) : (s.setPoison pa b).timeRuns = s.timeRuns := rfl
@[simp] theorem State.setPoison_mctime (s : State) (pa : Nat) (b : Bool) : (s.setPoison pa b).mctime = s.mctime := rfl
@[simp] theorem State.setPoison_hbmWait (s : State) (pa : Nat) (b : Bool) : (s.setPoison pa b).hbmWait = s.hbmWait := rfl
@[simp] theorem State.setPoison_tileFill (s : State) (pa : Nat) (b : Bool) : (s.setPoison pa b).tileFill = s.tileFill := rfl
@[simp] theorem State.setPoison_links (s : State) (pa : Nat) (b : Bool) : (s.setPoison pa b).links = s.links := rfl
@[simp] theorem State.setPoison_drds (s : State) (pa : Nat) (b : Bool) : (s.setPoison pa b).drds = s.drds := rfl
@[simp] theorem State.setPoison_hrds (s : State) (pa : Nat) (b : Bool) : (s.setPoison pa b).hrds = s.hrds := rfl
@[simp] theorem State.setPoison_waits (s : State) (pa : Nat) (b : Bool) : (s.setPoison pa b).waits = s.waits := rfl
@[simp] theorem State.setPoison_sent (s : State) (pa : Nat) (b : Bool) : (s.setPoison pa b).sent = s.sent := rfl
@[simp] theorem State.setPoison_fuses (s : State) (pa : Nat) (b : Bool) : (s.setPoison pa b).fuses = s.fuses := rfl
@[simp] theorem State.setPoison_tap (s : State) (pa : Nat) (b : Bool) : (s.setPoison pa b).tap = s.tap := rfl
@[simp] theorem State.setPoison_sync (s : State) (pa : Nat) (b : Bool) : (s.setPoison pa b).sync = s.sync := rfl
@[simp] theorem State.setPoison_twin (s : State) (pa : Nat) (b : Bool) : (s.setPoison pa b).twin = s.twin := rfl
@[simp] theorem State.setPoison_stencil (s : State) (pa : Nat) (b : Bool) : (s.setPoison pa b).stencil = s.stencil := rfl
@[simp] theorem State.setPoison_snap (s : State) (pa : Nat) (b : Bool) : (s.setPoison pa b).snap = s.snap := rfl
@[simp] theorem State.setPoison_snapCount (s : State) (pa : Nat) (b : Bool) : (s.setPoison pa b).snapCount = s.snapCount := rfl
@[simp] theorem State.setPoison_restore (s : State) (pa : Nat) (b : Bool) : (s.setPoison pa b).restore = s.restore := rfl
@[simp] theorem State.setPoison_hawk (s : State) (pa : Nat) (b : Bool) : (s.setPoison pa b).hawk = s.hawk := rfl
@[simp] theorem State.setPoison_rst (s : State) (pa : Nat) (b : Bool) : (s.setPoison pa b).rst = s.rst := rfl
@[simp] theorem State.setPoison_nor (s : State) (pa : Nat) (b : Bool) : (s.setPoison pa b).nor = s.nor := rfl
@[simp] theorem State.setPoison_upd (s : State) (pa : Nat) (b : Bool) : (s.setPoison pa b).upd = s.upd := rfl
@[simp] theorem State.setPoison_supply (s : State) (pa : Nat) (b : Bool) : (s.setPoison pa b).supply = s.supply := rfl
@[simp] theorem State.setPoison_sec (s : State) (pa : Nat) (b : Bool) : (s.setPoison pa b).sec = s.sec := rfl
@[simp] theorem State.setPoison_mc (s : State) (pa : Nat) (b : Bool) : (s.setPoison pa b).mc = s.mc := rfl
@[simp] theorem State.setPoison_fifoErr (s : State) (pa : Nat) (b : Bool) : (s.setPoison pa b).fifoErr = s.fifoErr := rfl
@[simp] theorem State.setPoison_scrim (s : State) (pa : Nat) (b : Bool) : (s.setPoison pa b).scrim = s.scrim := rfl
@[simp] theorem State.setPoison_fqFresh (s : State) (pa : Nat) (b : Bool) : (s.setPoison pa b).fqFresh = s.fqFresh := rfl
@[simp] theorem State.setPoison_dwrLost (s : State) (pa : Nat) (b : Bool) : (s.setPoison pa b).dwrLost = s.dwrLost := rfl
@[simp] theorem State.setPoison_staging (s : State) (pa : Nat) (b : Bool) : (s.setPoison pa b).staging = s.staging := rfl

@[simp] theorem State.withPending_free (s : State) (l : List Instr) : (s.withPending l).free = s.free := rfl
@[simp] theorem State.withPending_regs (s : State) (l : List Instr) : (s.withPending l).regs = s.regs := rfl
@[simp] theorem State.withPending_mem (s : State) (l : List Instr) : (s.withPending l).mem = s.mem := rfl
@[simp] theorem State.withPending_poison (s : State) (l : List Instr) : (s.withPending l).poison = s.poison := rfl
@[simp] theorem State.withPending_cores (s : State) (l : List Instr) : (s.withPending l).cores = s.cores := rfl
@[simp] theorem State.withPending_engines (s : State) (l : List Instr) : (s.withPending l).engines = s.engines := rfl
@[simp] theorem State.withPending_edges (s : State) (l : List Instr) : (s.withPending l).edges = s.edges := rfl
@[simp] theorem State.withPending_flight (s : State) (l : List Instr) : (s.withPending l).flight = s.flight := rfl
@[simp] theorem State.withPending_gangs (s : State) (l : List Instr) : (s.withPending l).gangs = s.gangs := rfl
@[simp] theorem State.withPending_trowel (s : State) (l : List Instr) : (s.withPending l).trowel = s.trowel := rfl
@[simp] theorem State.withPending_fqJoin (s : State) (l : List Instr) : (s.withPending l).fqJoin = s.fqJoin := rfl
@[simp] theorem State.withPending_fqWait (s : State) (l : List Instr) : (s.withPending l).fqWait = s.fqWait := rfl
@[simp] theorem State.withPending_fqAbort (s : State) (l : List Instr) : (s.withPending l).fqAbort = s.fqAbort := rfl
@[simp] theorem State.withPending_dtlb (s : State) (l : List Instr) : (s.withPending l).dtlb = s.dtlb := rfl
@[simp] theorem State.withPending_fqOrder (s : State) (l : List Instr) : (s.withPending l).fqOrder = s.fqOrder := rfl
@[simp] theorem State.withPending_epochWait (s : State) (l : List Instr) : (s.withPending l).epochWait = s.epochWait := rfl
@[simp] theorem State.withPending_errOrder (s : State) (l : List Instr) : (s.withPending l).errOrder = s.errOrder := rfl
@[simp] theorem State.withPending_mclog (s : State) (l : List Instr) : (s.withPending l).mclog = s.mclog := rfl
@[simp] theorem State.withPending_time (s : State) (l : List Instr) : (s.withPending l).time = s.time := rfl
@[simp] theorem State.withPending_frac (s : State) (l : List Instr) : (s.withPending l).frac = s.frac := rfl
@[simp] theorem State.withPending_timeRuns (s : State) (l : List Instr) : (s.withPending l).timeRuns = s.timeRuns := rfl
@[simp] theorem State.withPending_mctime (s : State) (l : List Instr) : (s.withPending l).mctime = s.mctime := rfl
@[simp] theorem State.withPending_hbmWait (s : State) (l : List Instr) : (s.withPending l).hbmWait = s.hbmWait := rfl
@[simp] theorem State.withPending_tileFill (s : State) (l : List Instr) : (s.withPending l).tileFill = s.tileFill := rfl
@[simp] theorem State.withPending_links (s : State) (l : List Instr) : (s.withPending l).links = s.links := rfl
@[simp] theorem State.withPending_drds (s : State) (l : List Instr) : (s.withPending l).drds = s.drds := rfl
@[simp] theorem State.withPending_hrds (s : State) (l : List Instr) : (s.withPending l).hrds = s.hrds := rfl
@[simp] theorem State.withPending_waits (s : State) (l : List Instr) : (s.withPending l).waits = s.waits := rfl
@[simp] theorem State.withPending_sent (s : State) (l : List Instr) : (s.withPending l).sent = s.sent := rfl
@[simp] theorem State.withPending_fuses (s : State) (l : List Instr) : (s.withPending l).fuses = s.fuses := rfl
@[simp] theorem State.withPending_tap (s : State) (l : List Instr) : (s.withPending l).tap = s.tap := rfl
@[simp] theorem State.withPending_sync (s : State) (l : List Instr) : (s.withPending l).sync = s.sync := rfl
@[simp] theorem State.withPending_twin (s : State) (l : List Instr) : (s.withPending l).twin = s.twin := rfl
@[simp] theorem State.withPending_stencil (s : State) (l : List Instr) : (s.withPending l).stencil = s.stencil := rfl
@[simp] theorem State.withPending_snap (s : State) (l : List Instr) : (s.withPending l).snap = s.snap := rfl
@[simp] theorem State.withPending_snapCount (s : State) (l : List Instr) : (s.withPending l).snapCount = s.snapCount := rfl
@[simp] theorem State.withPending_restore (s : State) (l : List Instr) : (s.withPending l).restore = s.restore := rfl
@[simp] theorem State.withPending_hawk (s : State) (l : List Instr) : (s.withPending l).hawk = s.hawk := rfl
@[simp] theorem State.withPending_rst (s : State) (l : List Instr) : (s.withPending l).rst = s.rst := rfl
@[simp] theorem State.withPending_nor (s : State) (l : List Instr) : (s.withPending l).nor = s.nor := rfl
@[simp] theorem State.withPending_upd (s : State) (l : List Instr) : (s.withPending l).upd = s.upd := rfl
@[simp] theorem State.withPending_supply (s : State) (l : List Instr) : (s.withPending l).supply = s.supply := rfl
@[simp] theorem State.withPending_sec (s : State) (l : List Instr) : (s.withPending l).sec = s.sec := rfl
@[simp] theorem State.withPending_mc (s : State) (l : List Instr) : (s.withPending l).mc = s.mc := rfl
@[simp] theorem State.withPending_fifoErr (s : State) (l : List Instr) : (s.withPending l).fifoErr = s.fifoErr := rfl
@[simp] theorem State.withPending_scrim (s : State) (l : List Instr) : (s.withPending l).scrim = s.scrim := rfl
@[simp] theorem State.withPending_fqFresh (s : State) (l : List Instr) : (s.withPending l).fqFresh = s.fqFresh := rfl
@[simp] theorem State.withPending_dwrLost (s : State) (l : List Instr) : (s.withPending l).dwrLost = s.dwrLost := rfl
@[simp] theorem State.withPending_staging (s : State) (l : List Instr) : (s.withPending l).staging = s.staging := rfl

@[simp] theorem State.withPending_pending (s : State) (l : List Instr) : (s.withPending l).pending = l := rfl
@[simp] theorem State.setBytes_mem (s : State) (pa : Nat) (bs : List Byte) : (s.setBytes pa bs).mem = putRun memDefault s.mem pa bs := rfl

/-! ### One spelling for the updates -/

@[simp] theorem State.setReg_eq (s : State) (d : Nat) (r : RegName) (i : Nat) (v : Word) : s.setReg d r i v = s.setRegW d r i 0 v := rfl
@[simp] theorem State.reg_eq (s : State) (d : Nat) (r : RegName) (i : Nat) : s.reg d r i = s.regW d r i 0 := rfl
@[simp] theorem State.updCore_eq (s : State) (c : CoreId) (f : Core → Core) : s.updCore c f = s.setCore c (f (s.core c)) := rfl
@[simp] theorem State.setG_eq (s : State) (c : CoreId) (g : Greg) (v : Word) : s.setG c g v = s.setCore c ((s.core c).gwrite g v) := rfl
@[simp] theorem State.greg_eq (s : State) (c : CoreId) (g : Greg) : s.greg c g = (s.core c).gread g := rfl

/-! ### What a register reads as -/

/-- A doubleword of a register reads as it was last written. -/
@[simp] theorem State.regW_setRegW_self (s : State) (d : Nat) (r : RegName) (i w : Nat) (v : Word) :
    (s.setRegW d r i w v).regW d r i w = v := by
  simp [State.regW, State.setRegW]

/-- A doubleword at another place reads as before. -/
theorem State.regW_setRegW_ne (s : State) {d d' : Nat} {r r' : RegName} {i i' w w' : Nat} (v : Word)
    (h : regKey d' r' i' w' ≠ regKey d r i w) : (s.setRegW d r i w v).regW d' r' i' w' = s.regW d' r' i' w' :=
  look_put_ne (fun _ => regReset r d i) (fun _ => regReset r' d' i') s.regs v h

/-- The last of two writes of a doubleword counts. -/
@[simp] theorem State.setRegW_setRegW (s : State) (d : Nat) (r : RegName) (i w : Nat) (v u : Word) :
    (s.setRegW d r i w v).setRegW d r i w u = s.setRegW d r i w u := by
  simp [State.setRegW]

@[simp] theorem State.regW_setCore (s : State) (c : CoreId) (x : Core) (d : Nat) (r : RegName) (i w : Nat) :
    (s.setCore c x).regW d r i w = s.regW d r i w := rfl

/-! ### What a core is -/

@[simp] theorem State.core_setCore_self (s : State) (c : CoreId) (x : Core) : (s.setCore c x).core c = x := by
  simp [State.core, State.setCore]

theorem State.core_setCore_ne (s : State) {c e : CoreId} (x : Core) (h : e ≠ c) : (s.setCore c x).core e = s.core e := by
  have h : e.val ≠ c.val := fun h' => h (Fin.ext h')
  simp [State.core, State.setCore, look_put, h]

@[simp] theorem State.setCore_setCore (s : State) (c : CoreId) (x y : Core) : (s.setCore c x).setCore c y = s.setCore c y := by
  simp [State.setCore]

@[simp] theorem State.core_setRegW (s : State) (d : Nat) (r : RegName) (i w : Nat) (v : Word) (c : CoreId) :
    (s.setRegW d r i w v).core c = s.core c := rfl

@[simp] theorem State.core_withPending (s : State) (l : List Instr) (c : CoreId) : (s.withPending l).core c = s.core c := rfl

/-! ### What a byte of memory reads as -/

/-- A byte outside a write reads as before. -/
theorem State.byte_setBytes_out (s : State) (pa a : Nat) (bs : List Byte) (h : a < pa ∨ pa + bs.length ≤ a) :
    (s.setBytes pa bs).byte a = s.byte a := look_putRun_out memDefault bs s.mem pa a h

/-- A run of bytes reads as it was written. -/
theorem State.bytes_setBytes (s : State) (pa : Nat) (bs : List Byte) : (s.setBytes pa bs).bytes pa bs.length = bs :=
  lookRun_putRun memDefault bs s.mem pa

@[simp] theorem State.byte_setCore (s : State) (c : CoreId) (x : Core) (a : Nat) : (s.setCore c x).byte a = s.byte a := rfl
@[simp] theorem State.byte_setRegW (s : State) (d : Nat) (r : RegName) (i w : Nat) (v : Word) (a : Nat) :
    (s.setRegW d r i w v).byte a = s.byte a := rfl

end Sys2Proof.Machine
end

