-- ==== Sys2Proof/Laws/Core.lean ====
section
/-! SUPPORT. What the frame of an instruction comes to once the instruction's own work is known, and the laws of a core's registers. -/

namespace Sys2Proof.Machine

open Sys2Proof

/-! ### A core's registers -/

theorem Core.gwrite_zero (x : Core) (v : Word) : x.gwrite 0 v = x := by simp [Core.gwrite]

@[simp] theorem Core.gread_zero (x : Core) : x.gread 0 = 0 := by simp [Core.gread]

/-- A register other than g0 reads as it was last written, a load shadow of it ended (R29, R43). -/
theorem Core.gread_gwrite_self (x : Core) {g : Greg} (v : Word) (h : g ≠ 0) : (x.gwrite g v).gread g = v := by
  have hs : oldestShadow g (x.lsh.filter fun h => h.reg != g) = none := by
    simp only [oldestShadow, List.filter_filter, List.getLast?_eq_none_iff, List.filter_eq_nil_iff]
    intro a _
    by_cases ha : a.reg = g <;> simp [ha]
  rw [Core.gwrite, if_neg h, Core.gread, if_neg h, hs]
  simp only [Core.raw, if_neg h, look_put_self]

theorem Core.gwrite_slot (x : Core) (g : Greg) (v : Word) : (x.gwrite g v).slot = x.slot := by
  unfold Core.gwrite; split <;> rfl
theorem Core.gwrite_stepDue (x : Core) (g : Greg) (v : Word) : (x.gwrite g v).stepDue = x.stepDue := by
  unfold Core.gwrite; split <;> rfl
theorem Core.gwrite_ss (x : Core) (g : Greg) (v : Word) : (x.gwrite g v).ss = x.ss := by
  unfold Core.gwrite; split <;> rfl
theorem Core.loadWrite_slot (x : Core) (g : Greg) (v old : Word) : (x.loadWrite g v old).slot = x.slot := by
  unfold Core.loadWrite; split <;> rfl
theorem Core.loadWrite_stepDue (x : Core) (g : Greg) (v old : Word) : (x.loadWrite g v old).stepDue = x.stepDue := by
  unfold Core.loadWrite; split <;> rfl

/-! ### Retirement -/

theorem Core.loopEnd_stepDue (x : Core) (p next : Word) (l : List Nat) : (x.loopEnd p next l).1.stepDue = x.stepDue := by
  induction l generalizing x next with
  | nil => rfl
  | cons n ns ih =>
    unfold Core.loopEnd
    split
    · exact ih ..
    · dsimp only
      split
      · exact (ih ..).trans rfl
      · rfl

theorem Core.advance_stepDue (x : Core) (next : Word) : (x.advance next).stepDue = x.stepDue := by
  unfold Core.advance
  split
  · exact Core.loopEnd_stepDue ..
  · rfl

theorem Core.after_stepDue (x : Core) (n : Nat) : (x.after n).stepDue = x.stepDue := by
  unfold Core.after
  rw [Core.advance_stepDue]
  rfl

/-- Outside a delay slot, retirement is the core's own (R66). -/
theorem State.retire_noSlot (s : State) (c : CoreId) (n : Nat) (h : (s.core c).slot = none) :
    s.retire c n = s.setCore c ((s.core c).after n) := by
  have h' : ({ (s.core c).ageShadows with entered := false, wfi := false } : Core).slot = none := h
  simp [State.retire, Core.after, h']
  rfl

/-- Single step is off: nothing is raised. -/
theorem State.stepTrap_off (s : State) (c : CoreId) (h : (s.core c).stepDue = false) : s.stepTrap c false = some s := by
  simp [State.stepTrap, h]

/-! ### The frame of an instruction -/

/-- An instruction that has its effect and goes on. -/
theorem runInsn_next {c : CoreId} {i : Insn} {body : State → Body} {s t u : State} (h : s.FetchesWords c (i.word, i.word2) t)
    (hr : t.Unhindered c) (he : i.early (t.core c) = none) (hb : body (t.setCore c (t.core c).begun) = .next u)
    (hs : (u.core c).slot = none) (hd : (u.core c).stepDue = false) :
    runInsn c i body s = done (u.setCore c ((u.core c).after i.size)) := by
  obtain ⟨h1, h2, h3, h5, h4⟩ := h
  obtain ⟨hsl, hss, _⟩ := hr
  have hb' : body (t.updCore c Core.begun) = .next u := hb
  have ht : (u.setCore c ((u.core c).after i.size)).stepTrap c false = some (u.setCore c ((u.core c).after i.size)) :=
    State.stepTrap_off _ _ (by simp [Core.after_stepDue, hd])
  simp only [runInsn, h1, h2, h3, h4, h5, he]
  simp [finish, hb', hss, State.slotHeld, hs, State.retire_noSlot u c i.size hs, ht, orWait, -State.updCore_eq]

/-- A control transfer: its delay slot is next (R38). -/
theorem runInsn_xfer {c : CoreId} {i : Insn} {body : State → Body} {s t u : State} {a : XferAct}
    (h : s.FetchesWords c (i.word, i.word2) t) (he : i.early (t.core c) = none)
    (hb : body (t.setCore c (t.core c).begun) = .xfer u a) :
    runInsn c i body s = done (u.setCore c { (u.core c).ageShadows with
      slot := some { addr := (t.core c).ip, act := a, shadows := (t.core c).lsh, msh := (t.core c).msh, reads := i.reads }
      ip := (t.core c).ip + 4, msh := none, oldMode := none, entered := false, stepDue := (u.core c).stepDue || (t.core c).ss }) := by
  obtain ⟨h1, h2, h3, h5, h4⟩ := h
  have hb' : body (t.updCore c Core.begun) = .xfer u a := hb
  simp only [runInsn, h1, h2, h3, h4, h5, he]
  simp [finish, hb', -State.updCore_eq]
  rfl

/-- An instruction that sets the whole context itself. -/
theorem runInsn_whole {c : CoreId} {i : Insn} {body : State → Body} {s t u : State} (h : s.FetchesWords c (i.word, i.word2) t)
    (hss : (t.core c).ss = false) (he : i.early (t.core c) = none) (hb : body (t.setCore c (t.core c).begun) = .whole u)
    (hd : (u.core c).stepDue = false) : runInsn c i body s = done (u.setCore c (u.core c).ended) := by
  obtain ⟨h1, h2, h3, h5, h4⟩ := h
  have hb' : body (t.updCore c Core.begun) = .whole u := hb
  have ht : (u.updCore c Core.ended).stepTrap c false = some (u.updCore c Core.ended) :=
    State.stepTrap_off _ _ (by simpa [Core.ended] using hd)
  simp only [runInsn, h1, h2, h3, h4, h5, he]
  simp only [finish, hb', hss, ht, orWait, Bool.not_true, Option.isSome_none, Bool.false_and, Bool.or_self, Bool.false_eq_true, if_false,
    if_true]
  rfl

/-- An instruction that sets where execution goes on (R46). -/
theorem runInsn_jump {c : CoreId} {i : Insn} {body : State → Body} {s t u : State} {dst : Word}
    (h : s.FetchesWords c (i.word, i.word2) t) (hr : t.Unhindered c) (he : i.early (t.core c) = none)
    (hb : body (t.setCore c (t.core c).begun) = .jump u dst) (hd : (u.core c).stepDue = false) :
    runInsn c i body s = done (u.setCore c { (u.core c).ageShadows.advance dst with entered := false, oldMode := none }) := by
  obtain ⟨h1, h2, h3, h5, h4⟩ := h
  obtain ⟨hsl, hss, _⟩ := hr
  have hb' : body (t.updCore c Core.begun) = .jump u dst := hb
  have ht : (u.setCore c { (u.core c).ageShadows.advance dst with entered := false, oldMode := none }).stepTrap c false = some _ :=
    State.stepTrap_off _ _ (by rw [State.core_setCore_self]; exact (Core.advance_stepDue ..).trans hd)
  simp only [runInsn, h1, h2, h3, h4, h5, he]
  simp [finish, hb', hss, -State.updCore_eq]
  exact congrArg (orWait s) ht

end Sys2Proof.Machine
end

