-- ==== Sys2Proof/Laws/Ends.lean ====
section
/-! SUPPORT. Every command answers a next state whose ERR_HEALTH has been recomputed: one lemma per meaning. -/

namespace Sys2Proof.Machine

open Sys2Proof

set_option linter.unreachableTactic false
set_option linter.unusedTactic false

/-- An answer that is a next state with ERR_HEALTH recomputed. -/
def Ends (o : Out) : Prop := ∃ t, o = done t

theorem ends_done (s : State) : Ends (done s) := ⟨s, rfl⟩

theorem ends_orWait (s : State) (t : Option State) : Ends (orWait s t) := by
  cases t <;> exact ends_done _

theorem ends_raise (s : State) (c : CoreId) (r : List Greg) (e : Exc) (t : State) : Ends (s.raise c r e t) := ends_orWait ..

theorem ends_protectedIn (p : Pkt) (mac : List Byte) (s : State) (f : State → State) : Ends (protectedIn p mac s f) := by
  unfold protectedIn
  exact ends_done _

theorem ends_finish (c : CoreId) (i : Insn) (x : Core) (s : State) (b : Body) : Ends (finish c i x s b) := by
  unfold finish
  cases b <;> first | exact ends_done _ | exact ends_orWait _ _ | exact ends_raise .. | skip
  dsimp only
  split
  · exact ends_done _
  · exact ends_orWait _ _

theorem ends_runInsn (c : CoreId) (i : Insn) (b : State → Body) (s : State) : Ends (runInsn c i b s) := by
  unfold runInsn
  repeat'
    first
    | exact ends_done _
    | exact ends_orWait _ _
    | exact ends_finish ..
    | split
    | dsimp only

theorem ends_execAdd : ∀ c gd ga gb s, Ends (execAdd c gd ga gb s) := by
  intro c gd ga gb s
  unfold execAdd binary
  exact ends_runInsn ..
theorem ends_execSub : ∀ c gd ga gb s, Ends (execSub c gd ga gb s) := by
  intro c gd ga gb s
  unfold execSub binary
  exact ends_runInsn ..
theorem ends_execAnd : ∀ c gd ga gb s, Ends (execAnd c gd ga gb s) := by
  intro c gd ga gb s
  unfold execAnd binary
  exact ends_runInsn ..
theorem ends_execOr : ∀ c gd ga gb s, Ends (execOr c gd ga gb s) := by
  intro c gd ga gb s
  unfold execOr binary
  exact ends_runInsn ..
theorem ends_execXor : ∀ c gd ga gb s, Ends (execXor c gd ga gb s) := by
  intro c gd ga gb s
  unfold execXor binary
  exact ends_runInsn ..
theorem ends_execAndn : ∀ c gd ga gb s, Ends (execAndn c gd ga gb s) := by
  intro c gd ga gb s
  unfold execAndn binary
  exact ends_runInsn ..
theorem ends_execSlt : ∀ c gd ga gb s, Ends (execSlt c gd ga gb s) := by
  intro c gd ga gb s
  unfold execSlt binary
  exact ends_runInsn ..
theorem ends_execSltu : ∀ c gd ga gb s, Ends (execSltu c gd ga gb s) := by
  intro c gd ga gb s
  unfold execSltu binary
  exact ends_runInsn ..
theorem ends_execSll : ∀ c gd ga gb s, Ends (execSll c gd ga gb s) := by
  intro c gd ga gb s
  unfold execSll binary
  exact ends_runInsn ..
theorem ends_execSrl : ∀ c gd ga gb s, Ends (execSrl c gd ga gb s) := by
  intro c gd ga gb s
  unfold execSrl binary
  exact ends_runInsn ..
theorem ends_execSra : ∀ c gd ga gb s, Ends (execSra c gd ga gb s) := by
  intro c gd ga gb s
  unfold execSra binary
  exact ends_runInsn ..
theorem ends_execRor : ∀ c gd ga gb s, Ends (execRor c gd ga gb s) := by
  intro c gd ga gb s
  unfold execRor binary
  exact ends_runInsn ..
theorem ends_execSlli : ∀ c gd ga gb s, Ends (execSlli c gd ga gb s) := by
  intro c gd ga gb s
  unfold execSlli unary
  exact ends_runInsn ..
theorem ends_execSrli : ∀ c gd ga gb s, Ends (execSrli c gd ga gb s) := by
  intro c gd ga gb s
  unfold execSrli unary
  exact ends_runInsn ..
theorem ends_execSrai : ∀ c gd ga gb s, Ends (execSrai c gd ga gb s) := by
  intro c gd ga gb s
  unfold execSrai unary
  exact ends_runInsn ..
theorem ends_execRori : ∀ c gd ga gb s, Ends (execRori c gd ga gb s) := by
  intro c gd ga gb s
  unfold execRori unary
  exact ends_runInsn ..
theorem ends_execAddw : ∀ c gd ga gb s, Ends (execAddw c gd ga gb s) := by
  intro c gd ga gb s
  unfold execAddw binary
  exact ends_runInsn ..
theorem ends_execSubw : ∀ c gd ga gb s, Ends (execSubw c gd ga gb s) := by
  intro c gd ga gb s
  unfold execSubw binary
  exact ends_runInsn ..
theorem ends_execMin : ∀ c gd ga gb s, Ends (execMin c gd ga gb s) := by
  intro c gd ga gb s
  unfold execMin binary
  exact ends_runInsn ..
theorem ends_execMax : ∀ c gd ga gb s, Ends (execMax c gd ga gb s) := by
  intro c gd ga gb s
  unfold execMax binary
  exact ends_runInsn ..
theorem ends_execMinu : ∀ c gd ga gb s, Ends (execMinu c gd ga gb s) := by
  intro c gd ga gb s
  unfold execMinu binary
  exact ends_runInsn ..
theorem ends_execMaxu : ∀ c gd ga gb s, Ends (execMaxu c gd ga gb s) := by
  intro c gd ga gb s
  unfold execMaxu binary
  exact ends_runInsn ..
theorem ends_execClz : ∀ c gd ga gb s, Ends (execClz c gd ga gb s) := by
  intro c gd ga gb s
  unfold execClz unary
  exact ends_runInsn ..
theorem ends_execCtz : ∀ c gd ga gb s, Ends (execCtz c gd ga gb s) := by
  intro c gd ga gb s
  unfold execCtz unary
  exact ends_runInsn ..
theorem ends_execPopc : ∀ c gd ga gb s, Ends (execPopc c gd ga gb s) := by
  intro c gd ga gb s
  unfold execPopc unary
  exact ends_runInsn ..
theorem ends_execBswap : ∀ c gd ga gb s, Ends (execBswap c gd ga gb s) := by
  intro c gd ga gb s
  unfold execBswap unary
  exact ends_runInsn ..
theorem ends_execSextb : ∀ c gd ga gb s, Ends (execSextb c gd ga gb s) := by
  intro c gd ga gb s
  unfold execSextb unary
  exact ends_runInsn ..
theorem ends_execSexth : ∀ c gd ga gb s, Ends (execSexth c gd ga gb s) := by
  intro c gd ga gb s
  unfold execSexth unary
  exact ends_runInsn ..
theorem ends_execSextw : ∀ c gd ga gb s, Ends (execSextw c gd ga gb s) := by
  intro c gd ga gb s
  unfold execSextw unary
  exact ends_runInsn ..
theorem ends_execZextw : ∀ c gd ga gb s, Ends (execZextw c gd ga gb s) := by
  intro c gd ga gb s
  unfold execZextw unary
  exact ends_runInsn ..
theorem ends_execAddi : ∀ c gd ga imm s, Ends (execAddi c gd ga imm s) := by
  intro c gd ga imm s
  unfold execAddi unary
  exact ends_runInsn ..
theorem ends_execAndi : ∀ c gd ga imm s, Ends (execAndi c gd ga imm s) := by
  intro c gd ga imm s
  unfold execAndi unary
  exact ends_runInsn ..
theorem ends_execOri : ∀ c gd ga imm s, Ends (execOri c gd ga imm s) := by
  intro c gd ga imm s
  unfold execOri unary
  exact ends_runInsn ..
theorem ends_execXori : ∀ c gd ga imm s, Ends (execXori c gd ga imm s) := by
  intro c gd ga imm s
  unfold execXori unary
  exact ends_runInsn ..
theorem ends_execSlti : ∀ c gd ga imm s, Ends (execSlti c gd ga imm s) := by
  intro c gd ga imm s
  unfold execSlti unary
  exact ends_runInsn ..
theorem ends_execSltiu : ∀ c gd ga imm s, Ends (execSltiu c gd ga imm s) := by
  intro c gd ga imm s
  unfold execSltiu unary
  exact ends_runInsn ..
theorem ends_execLui : ∀ c gd imm s, Ends (execLui c gd imm s) := by
  intro c gd imm s
  unfold execLui
  exact ends_runInsn ..
theorem ends_execMul : ∀ c gd ga gb s, Ends (execMul c gd ga gb s) := by
  intro c gd ga gb s
  unfold execMul binary
  exact ends_runInsn ..
theorem ends_execMulh : ∀ c gd ga gb s, Ends (execMulh c gd ga gb s) := by
  intro c gd ga gb s
  unfold execMulh binary
  exact ends_runInsn ..
theorem ends_execMulhu : ∀ c gd ga gb s, Ends (execMulhu c gd ga gb s) := by
  intro c gd ga gb s
  unfold execMulhu binary
  exact ends_runInsn ..
theorem ends_execMulw : ∀ c gd ga gb s, Ends (execMulw c gd ga gb s) := by
  intro c gd ga gb s
  unfold execMulw binary
  exact ends_runInsn ..
theorem ends_execDiv : ∀ c gd ga gb s, Ends (execDiv c gd ga gb s) := by
  intro c gd ga gb s
  unfold execDiv binary
  exact ends_runInsn ..
theorem ends_execDivu : ∀ c gd ga gb s, Ends (execDivu c gd ga gb s) := by
  intro c gd ga gb s
  unfold execDivu binary
  exact ends_runInsn ..
theorem ends_execRem : ∀ c gd ga gb s, Ends (execRem c gd ga gb s) := by
  intro c gd ga gb s
  unfold execRem binary
  exact ends_runInsn ..
theorem ends_execRemu : ∀ c gd ga gb s, Ends (execRemu c gd ga gb s) := by
  intro c gd ga gb s
  unfold execRemu binary
  exact ends_runInsn ..
theorem ends_execFadd : ∀ c gd ga gb dbl s, Ends (execFadd c gd ga gb dbl s) := by
  intro c gd ga gb dbl s
  unfold execFadd fpBinary fpInsn
  exact ends_runInsn ..
theorem ends_execFsub : ∀ c gd ga gb dbl s, Ends (execFsub c gd ga gb dbl s) := by
  intro c gd ga gb dbl s
  unfold execFsub fpBinary fpInsn
  exact ends_runInsn ..
theorem ends_execFmul : ∀ c gd ga gb dbl s, Ends (execFmul c gd ga gb dbl s) := by
  intro c gd ga gb dbl s
  unfold execFmul fpBinary fpInsn
  exact ends_runInsn ..
theorem ends_execFdiv : ∀ c gd ga gb dbl s, Ends (execFdiv c gd ga gb dbl s) := by
  intro c gd ga gb dbl s
  unfold execFdiv fpBinary fpInsn
  exact ends_runInsn ..
theorem ends_execFsqrt : ∀ c gd ga gb dbl s, Ends (execFsqrt c gd ga gb dbl s) := by
  intro c gd ga gb dbl s
  unfold execFsqrt fpInsn
  exact ends_runInsn ..
theorem ends_execFma : ∀ c gd ga gb dbl s, Ends (execFma c gd ga gb dbl s) := by
  intro c gd ga gb dbl s
  unfold execFma fpInsn
  exact ends_runInsn ..
theorem ends_execFmin : ∀ c gd ga gb dbl s, Ends (execFmin c gd ga gb dbl s) := by
  intro c gd ga gb dbl s
  unfold execFmin fpInsn
  exact ends_runInsn ..
theorem ends_execFmax : ∀ c gd ga gb dbl s, Ends (execFmax c gd ga gb dbl s) := by
  intro c gd ga gb dbl s
  unfold execFmax fpInsn
  exact ends_runInsn ..
theorem ends_execFeq : ∀ c gd ga gb dbl s, Ends (execFeq c gd ga gb dbl s) := by
  intro c gd ga gb dbl s
  unfold execFeq fpCompare fpInsn
  exact ends_runInsn ..
theorem ends_execFlt : ∀ c gd ga gb dbl s, Ends (execFlt c gd ga gb dbl s) := by
  intro c gd ga gb dbl s
  unfold execFlt fpCompare fpInsn
  exact ends_runInsn ..
theorem ends_execFle : ∀ c gd ga gb dbl s, Ends (execFle c gd ga gb dbl s) := by
  intro c gd ga gb dbl s
  unfold execFle fpCompare fpInsn
  exact ends_runInsn ..
theorem ends_execFcvtI : ∀ c gd ga gb dbl s, Ends (execFcvtI c gd ga gb dbl s) := by
  intro c gd ga gb dbl s
  unfold execFcvtI fpInsn
  exact ends_runInsn ..
theorem ends_execFcvtF : ∀ c gd ga gb dbl s, Ends (execFcvtF c gd ga gb dbl s) := by
  intro c gd ga gb dbl s
  unfold execFcvtF fpInsn
  exact ends_runInsn ..
theorem ends_execFcvtP : ∀ c gd ga gb dbl s, Ends (execFcvtP c gd ga gb dbl s) := by
  intro c gd ga gb dbl s
  unfold execFcvtP fpInsn
  exact ends_runInsn ..
theorem ends_execLdb : ∀ c gt ga sg disp s, Ends (execLdb c gt ga sg disp s) := by
  intro c gt ga sg disp s
  unfold execLdb loadM load
  exact ends_runInsn ..
theorem ends_execLdbu : ∀ c gt ga sg disp s, Ends (execLdbu c gt ga sg disp s) := by
  intro c gt ga sg disp s
  unfold execLdbu loadM load
  exact ends_runInsn ..
theorem ends_execLdh : ∀ c gt ga sg disp s, Ends (execLdh c gt ga sg disp s) := by
  intro c gt ga sg disp s
  unfold execLdh loadM load
  exact ends_runInsn ..
theorem ends_execLdhu : ∀ c gt ga sg disp s, Ends (execLdhu c gt ga sg disp s) := by
  intro c gt ga sg disp s
  unfold execLdhu loadM load
  exact ends_runInsn ..
theorem ends_execLdw : ∀ c gt ga sg disp s, Ends (execLdw c gt ga sg disp s) := by
  intro c gt ga sg disp s
  unfold execLdw loadM load
  exact ends_runInsn ..
theorem ends_execLdwu : ∀ c gt ga sg disp s, Ends (execLdwu c gt ga sg disp s) := by
  intro c gt ga sg disp s
  unfold execLdwu loadM load
  exact ends_runInsn ..
theorem ends_execLdd : ∀ c gt ga sg disp s, Ends (execLdd c gt ga sg disp s) := by
  intro c gt ga sg disp s
  unfold execLdd loadM load
  exact ends_runInsn ..
theorem ends_execLdx : ∀ c gt ga gb sg ctl s, Ends (execLdx c gt ga gb sg ctl s) := by
  intro c gt ga gb sg ctl s
  unfold execLdx load
  exact ends_runInsn ..
theorem ends_execStb : ∀ c gt ga sg disp s, Ends (execStb c gt ga sg disp s) := by
  intro c gt ga sg disp s
  unfold execStb storeM store
  exact ends_runInsn ..
theorem ends_execSth : ∀ c gt ga sg disp s, Ends (execSth c gt ga sg disp s) := by
  intro c gt ga sg disp s
  unfold execSth storeM store
  exact ends_runInsn ..
theorem ends_execStw : ∀ c gt ga sg disp s, Ends (execStw c gt ga sg disp s) := by
  intro c gt ga sg disp s
  unfold execStw storeM store
  exact ends_runInsn ..
theorem ends_execStd : ∀ c gt ga sg disp s, Ends (execStd c gt ga sg disp s) := by
  intro c gt ga sg disp s
  unfold execStd storeM store
  exact ends_runInsn ..
theorem ends_execStx : ∀ c gt ga gb sg ctl s, Ends (execStx c gt ga gb sg ctl s) := by
  intro c gt ga gb sg ctl s
  unfold execStx store
  exact ends_runInsn ..
theorem ends_execLdAcq : ∀ c gt ga gb sg ctl s, Ends (execLdAcq c gt ga gb sg ctl s) := by
  intro c gt ga gb sg ctl s
  unfold execLdAcq
  exact ends_runInsn ..
theorem ends_execStRel : ∀ c gt ga gb sg ctl s, Ends (execStRel c gt ga gb sg ctl s) := by
  intro c gt ga gb sg ctl s
  unfold execStRel
  exact ends_runInsn ..
theorem ends_execAtomSwap : ∀ c gd ga gb sg ord dw s, Ends (execAtomSwap c gd ga gb sg ord dw s) := by
  intro c gd ga gb sg ord dw s
  unfold execAtomSwap atomic
  exact ends_runInsn ..
theorem ends_execAtomAdd : ∀ c gd ga gb sg ord dw s, Ends (execAtomAdd c gd ga gb sg ord dw s) := by
  intro c gd ga gb sg ord dw s
  unfold execAtomAdd atomic
  exact ends_runInsn ..
theorem ends_execAtomAnd : ∀ c gd ga gb sg ord dw s, Ends (execAtomAnd c gd ga gb sg ord dw s) := by
  intro c gd ga gb sg ord dw s
  unfold execAtomAnd atomic
  exact ends_runInsn ..
theorem ends_execAtomOr : ∀ c gd ga gb sg ord dw s, Ends (execAtomOr c gd ga gb sg ord dw s) := by
  intro c gd ga gb sg ord dw s
  unfold execAtomOr atomic
  exact ends_runInsn ..
theorem ends_execAtomXor : ∀ c gd ga gb sg ord dw s, Ends (execAtomXor c gd ga gb sg ord dw s) := by
  intro c gd ga gb sg ord dw s
  unfold execAtomXor atomic
  exact ends_runInsn ..
theorem ends_execAtomSmax : ∀ c gd ga gb sg ord dw s, Ends (execAtomSmax c gd ga gb sg ord dw s) := by
  intro c gd ga gb sg ord dw s
  unfold execAtomSmax atomic
  exact ends_runInsn ..
theorem ends_execAtomSmin : ∀ c gd ga gb sg ord dw s, Ends (execAtomSmin c gd ga gb sg ord dw s) := by
  intro c gd ga gb sg ord dw s
  unfold execAtomSmin atomic
  exact ends_runInsn ..
theorem ends_execAtomUmax : ∀ c gd ga gb sg ord dw s, Ends (execAtomUmax c gd ga gb sg ord dw s) := by
  intro c gd ga gb sg ord dw s
  unfold execAtomUmax atomic
  exact ends_runInsn ..
theorem ends_execAtomUmin : ∀ c gd ga gb sg ord dw s, Ends (execAtomUmin c gd ga gb sg ord dw s) := by
  intro c gd ga gb sg ord dw s
  unfold execAtomUmin atomic
  exact ends_runInsn ..
theorem ends_execCas : ∀ c gd ga gb sg ord dw s, Ends (execCas c gd ga gb sg ord dw s) := by
  intro c gd ga gb sg ord dw s
  unfold execCas atomic
  exact ends_runInsn ..
theorem ends_execFenceLl : ∀ c gd ga gb s, Ends (execFenceLl c gd ga gb s) := by
  intro c gd ga gb s
  unfold execFenceLl fence
  exact ends_runInsn ..
theorem ends_execFenceSs : ∀ c gd ga gb s, Ends (execFenceSs c gd ga gb s) := by
  intro c gd ga gb s
  unfold execFenceSs fence
  exact ends_runInsn ..
theorem ends_execFenceFull : ∀ c gd ga gb s, Ends (execFenceFull c gd ga gb s) := by
  intro c gd ga gb s
  unfold execFenceFull fence
  exact ends_runInsn ..
theorem ends_execFenceEng : ∀ c gd ga gb s, Ends (execFenceEng c gd ga gb s) := by
  intro c gd ga gb s
  unfold execFenceEng fence
  exact ends_runInsn ..
theorem ends_execIsync : ∀ c gd ga gb s, Ends (execIsync c gd ga gb s) := by
  intro c gd ga gb s
  unfold execIsync fence
  exact ends_runInsn ..
theorem ends_execBeq : ∀ c ga gb disp s, Ends (execBeq c ga gb disp s) := by
  intro c ga gb disp s
  unfold execBeq branch
  exact ends_runInsn ..
theorem ends_execBne : ∀ c ga gb disp s, Ends (execBne c ga gb disp s) := by
  intro c ga gb disp s
  unfold execBne branch
  exact ends_runInsn ..
theorem ends_execBlt : ∀ c ga gb disp s, Ends (execBlt c ga gb disp s) := by
  intro c ga gb disp s
  unfold execBlt branch
  exact ends_runInsn ..
theorem ends_execBge : ∀ c ga gb disp s, Ends (execBge c ga gb disp s) := by
  intro c ga gb disp s
  unfold execBge branch
  exact ends_runInsn ..
theorem ends_execBltu : ∀ c ga gb disp s, Ends (execBltu c ga gb disp s) := by
  intro c ga gb disp s
  unfold execBltu branch
  exact ends_runInsn ..
theorem ends_execBgeu : ∀ c ga gb disp s, Ends (execBgeu c ga gb disp s) := by
  intro c ga gb disp s
  unfold execBgeu branch
  exact ends_runInsn ..
theorem ends_execJ : ∀ c disp s, Ends (execJ c disp s) := by
  intro c disp s
  unfold execJ jump
  exact ends_runInsn ..
theorem ends_execCall : ∀ c disp s, Ends (execCall c disp s) := by
  intro c disp s
  unfold execCall jump
  exact ends_runInsn ..
theorem ends_execJr : ∀ c gd ga gb s, Ends (execJr c gd ga gb s) := by
  intro c gd ga gb s
  unfold execJr jumpReg
  exact ends_runInsn ..
theorem ends_execCallr : ∀ c gd ga gb s, Ends (execCallr c gd ga gb s) := by
  intro c gd ga gb s
  unfold execCallr jumpReg
  exact ends_runInsn ..
theorem ends_execLoop : ∀ c n gc disp s, Ends (execLoop c n gc disp s) := by
  intro c n gc disp s
  unfold execLoop
  exact ends_runInsn ..
theorem ends_execMovcR : ∀ c g creg s, Ends (execMovcR c g creg s) := by
  intro c g creg s
  unfold execMovcR
  exact ends_runInsn ..
theorem ends_execMovcW : ∀ c g creg s, Ends (execMovcW c g creg s) := by
  intro c g creg s
  unfold execMovcW movcWrite
  exact ends_runInsn ..
theorem ends_execStatusWrite : ∀ c g s, Ends (execStatusWrite c g s) := by
  intro c g s
  unfold execStatusWrite movcWrite
  exact ends_runInsn ..
theorem ends_execTableBaseWrite : ∀ c g creg s, Ends (execTableBaseWrite c g creg s) := by
  intro c g creg s
  unfold execTableBaseWrite movcWrite
  exact ends_runInsn ..
theorem ends_execPtbWrite : ∀ c g s, Ends (execPtbWrite c g s) := by
  intro c g s
  unfold execPtbWrite movcWrite
  exact ends_runInsn ..
theorem ends_execLoopRegWrite : ∀ c g creg s, Ends (execLoopRegWrite c g creg s) := by
  intro c g creg s
  unfold execLoopRegWrite movcWrite
  exact ends_runInsn ..
theorem ends_execVlWrite : ∀ c g s, Ends (execVlWrite c g s) := by
  intro c g s
  unfold execVlWrite movcWrite
  exact ends_runInsn ..
theorem ends_execVtypeWrite : ∀ c g s, Ends (execVtypeWrite c g s) := by
  intro c g s
  unfold execVtypeWrite movcWrite
  exact ends_runInsn ..
theorem ends_execFpflagsWrite : ∀ c g s, Ends (execFpflagsWrite c g s) := by
  intro c g s
  unfold execFpflagsWrite movcWrite
  exact ends_runInsn ..
theorem ends_execTcfgWrite : ∀ c g creg s, Ends (execTcfgWrite c g creg s) := by
  intro c g creg s
  unfold execTcfgWrite movcWrite
  exact ends_runInsn ..
theorem ends_execMovsg : ∀ c g code s, Ends (execMovsg c g code s) := by
  intro c g code s
  unfold execMovsg
  exact ends_runInsn ..
theorem ends_execMovsgR : ∀ c g code s, Ends (execMovsgR c g code s) := by
  intro c g code s
  unfold execMovsgR
  exact ends_runInsn ..
theorem ends_execCallg : ∀ c g code s, Ends (execCallg c g code s) := by
  intro c g code s
  unfold execCallg
  exact ends_runInsn ..
theorem ends_execRetg : ∀ c g code s, Ends (execRetg c g code s) := by
  intro c g code s
  unfold execRetg
  exact ends_runInsn ..
theorem ends_execRetx : ∀ c g code s, Ends (execRetx c g code s) := by
  intro c g code s
  unfold execRetx
  exact ends_runInsn ..
theorem ends_execBrk : ∀ c g code s, Ends (execBrk c g code s) := by
  intro c g code s
  unfold execBrk
  exact ends_runInsn ..
theorem ends_execWfi : ∀ c g code s, Ends (execWfi c g code s) := by
  intro c g code s
  unfold execWfi
  exact ends_runInsn ..
theorem ends_execInterruptDelivery : ∀ c vec die s, Ends (execInterruptDelivery c vec die s) := by
  intro c vec die s
  unfold execInterruptDelivery
  repeat' first
    | with_reducible exact ends_done _
    | with_reducible exact ends_orWait _ _
    | with_reducible exact ends_raise ..
    | with_reducible exact ends_protectedIn ..
    | with_reducible exact ends_runInsn ..
    | extract_lets
    | split
theorem ends_execEventAccept : ∀ c s, Ends (execEventAccept c s) := by
  intro c s
  unfold execEventAccept
  repeat' first
    | with_reducible exact ends_done _
    | with_reducible exact ends_orWait _ _
    | with_reducible exact ends_raise ..
    | with_reducible exact ends_protectedIn ..
    | with_reducible exact ends_runInsn ..
    | extract_lets
    | split
theorem ends_execVcfg : ∀ c f s, Ends (execVcfg c f s) := by
  intro c f s
  unfold execVcfg
  exact ends_runInsn ..
theorem ends_execVcfgr : ∀ c f s, Ends (execVcfgr c f s) := by
  intro c f s
  unfold execVcfgr
  exact ends_runInsn ..
theorem ends_execVadd : ∀ c f s, Ends (execVadd c f s) := by
  intro c f s
  unfold execVadd vArith
  exact ends_runInsn ..
theorem ends_execVsub : ∀ c f s, Ends (execVsub c f s) := by
  intro c f s
  unfold execVsub vArith
  exact ends_runInsn ..
theorem ends_execVrsub : ∀ c f s, Ends (execVrsub c f s) := by
  intro c f s
  unfold execVrsub vArith
  exact ends_runInsn ..
theorem ends_execVand : ∀ c f s, Ends (execVand c f s) := by
  intro c f s
  unfold execVand vArith
  exact ends_runInsn ..
theorem ends_execVor : ∀ c f s, Ends (execVor c f s) := by
  intro c f s
  unfold execVor vArith
  exact ends_runInsn ..
theorem ends_execVxor : ∀ c f s, Ends (execVxor c f s) := by
  intro c f s
  unfold execVxor vArith
  exact ends_runInsn ..
theorem ends_execVsll : ∀ c f s, Ends (execVsll c f s) := by
  intro c f s
  unfold execVsll vArith
  exact ends_runInsn ..
theorem ends_execVsrl : ∀ c f s, Ends (execVsrl c f s) := by
  intro c f s
  unfold execVsrl vArith
  exact ends_runInsn ..
theorem ends_execVsra : ∀ c f s, Ends (execVsra c f s) := by
  intro c f s
  unfold execVsra vArith
  exact ends_runInsn ..
theorem ends_execVmin : ∀ c f s, Ends (execVmin c f s) := by
  intro c f s
  unfold execVmin vArith
  exact ends_runInsn ..
theorem ends_execVmax : ∀ c f s, Ends (execVmax c f s) := by
  intro c f s
  unfold execVmax vArith
  exact ends_runInsn ..
theorem ends_execVminu : ∀ c f s, Ends (execVminu c f s) := by
  intro c f s
  unfold execVminu vArith
  exact ends_runInsn ..
theorem ends_execVmaxu : ∀ c f s, Ends (execVmaxu c f s) := by
  intro c f s
  unfold execVmaxu vArith
  exact ends_runInsn ..
theorem ends_execVmul : ∀ c f s, Ends (execVmul c f s) := by
  intro c f s
  unfold execVmul vArith
  exact ends_runInsn ..
theorem ends_execVmulh : ∀ c f s, Ends (execVmulh c f s) := by
  intro c f s
  unfold execVmulh vArith
  exact ends_runInsn ..
theorem ends_execVmulhu : ∀ c f s, Ends (execVmulhu c f s) := by
  intro c f s
  unfold execVmulhu vArith
  exact ends_runInsn ..
theorem ends_execVmacc : ∀ c f s, Ends (execVmacc c f s) := by
  intro c f s
  unfold execVmacc vArith
  exact ends_runInsn ..
theorem ends_execVsadd : ∀ c f s, Ends (execVsadd c f s) := by
  intro c f s
  unfold execVsadd vArith
  exact ends_runInsn ..
theorem ends_execVsaddu : ∀ c f s, Ends (execVsaddu c f s) := by
  intro c f s
  unfold execVsaddu vArith
  exact ends_runInsn ..
theorem ends_execVssub : ∀ c f s, Ends (execVssub c f s) := by
  intro c f s
  unfold execVssub vArith
  exact ends_runInsn ..
theorem ends_execVssubu : ∀ c f s, Ends (execVssubu c f s) := by
  intro c f s
  unfold execVssubu vArith
  exact ends_runInsn ..
theorem ends_execVmerge : ∀ c f s, Ends (execVmerge c f s) := by
  intro c f s
  unfold execVmerge vArith
  exact ends_runInsn ..
theorem ends_execVmv : ∀ c f s, Ends (execVmv c f s) := by
  intro c f s
  unfold execVmv vArith
  exact ends_runInsn ..
theorem ends_execVfadd : ∀ c f s, Ends (execVfadd c f s) := by
  intro c f s
  unfold execVfadd vArith
  exact ends_runInsn ..
theorem ends_execVfsub : ∀ c f s, Ends (execVfsub c f s) := by
  intro c f s
  unfold execVfsub vArith
  exact ends_runInsn ..
theorem ends_execVfmul : ∀ c f s, Ends (execVfmul c f s) := by
  intro c f s
  unfold execVfmul vArith
  exact ends_runInsn ..
theorem ends_execVfdiv : ∀ c f s, Ends (execVfdiv c f s) := by
  intro c f s
  unfold execVfdiv vArith
  exact ends_runInsn ..
theorem ends_execVfsqrt : ∀ c f s, Ends (execVfsqrt c f s) := by
  intro c f s
  unfold execVfsqrt vArith
  exact ends_runInsn ..
theorem ends_execVfma : ∀ c f s, Ends (execVfma c f s) := by
  intro c f s
  unfold execVfma vArith
  exact ends_runInsn ..
theorem ends_execVfnma : ∀ c f s, Ends (execVfnma c f s) := by
  intro c f s
  unfold execVfnma vArith
  exact ends_runInsn ..
theorem ends_execVfmin : ∀ c f s, Ends (execVfmin c f s) := by
  intro c f s
  unfold execVfmin vArith
  exact ends_runInsn ..
theorem ends_execVfmax : ∀ c f s, Ends (execVfmax c f s) := by
  intro c f s
  unfold execVfmax vArith
  exact ends_runInsn ..
theorem ends_execVfabs : ∀ c f s, Ends (execVfabs c f s) := by
  intro c f s
  unfold execVfabs vArith
  exact ends_runInsn ..
theorem ends_execVfneg : ∀ c f s, Ends (execVfneg c f s) := by
  intro c f s
  unfold execVfneg vArith
  exact ends_runInsn ..
theorem ends_execVfcvtI : ∀ c f s, Ends (execVfcvtI c f s) := by
  intro c f s
  unfold execVfcvtI vArith
  exact ends_runInsn ..
theorem ends_execVfcvtF : ∀ c f s, Ends (execVfcvtF c f s) := by
  intro c f s
  unfold execVfcvtF vArith
  exact ends_runInsn ..
theorem ends_execVfcvtW : ∀ c f s, Ends (execVfcvtW c f s) := by
  intro c f s
  unfold execVfcvtW vArith
  exact ends_runInsn ..
theorem ends_execVfcvtN : ∀ c f s, Ends (execVfcvtN c f s) := by
  intro c f s
  unfold execVfcvtN vArith
  exact ends_runInsn ..
theorem ends_execVwmul : ∀ c f s, Ends (execVwmul c f s) := by
  intro c f s
  unfold execVwmul vArith
  exact ends_runInsn ..
theorem ends_execVwmulu : ∀ c f s, Ends (execVwmulu c f s) := by
  intro c f s
  unfold execVwmulu vArith
  exact ends_runInsn ..
theorem ends_execVwmulsu : ∀ c f s, Ends (execVwmulsu c f s) := by
  intro c f s
  unfold execVwmulsu vArith
  exact ends_runInsn ..
theorem ends_execVwmacc : ∀ c f s, Ends (execVwmacc c f s) := by
  intro c f s
  unfold execVwmacc vArith
  exact ends_runInsn ..
theorem ends_execVwmaccu : ∀ c f s, Ends (execVwmaccu c f s) := by
  intro c f s
  unfold execVwmaccu vArith
  exact ends_runInsn ..
theorem ends_execVwmaccsu : ∀ c f s, Ends (execVwmaccsu c f s) := by
  intro c f s
  unfold execVwmaccsu vArith
  exact ends_runInsn ..
theorem ends_execVfwmul : ∀ c f s, Ends (execVfwmul c f s) := by
  intro c f s
  unfold execVfwmul vArith
  exact ends_runInsn ..
theorem ends_execVfwma : ∀ c f s, Ends (execVfwma c f s) := by
  intro c f s
  unfold execVfwma vArith
  exact ends_runInsn ..
theorem ends_execVdot4 : ∀ c f s, Ends (execVdot4 c f s) := by
  intro c f s
  unfold execVdot4 vArith
  exact ends_runInsn ..
theorem ends_execVdot4u : ∀ c f s, Ends (execVdot4u c f s) := by
  intro c f s
  unfold execVdot4u vArith
  exact ends_runInsn ..
theorem ends_execVdot4su : ∀ c f s, Ends (execVdot4su c f s) := by
  intro c f s
  unfold execVdot4su vArith
  exact ends_runInsn ..
theorem ends_execVfdot4 : ∀ c f s, Ends (execVfdot4 c f s) := by
  intro c f s
  unfold execVfdot4 vArith
  exact ends_runInsn ..
theorem ends_execVdot2 : ∀ c f s, Ends (execVdot2 c f s) := by
  intro c f s
  unfold execVdot2 vArith
  exact ends_runInsn ..
theorem ends_execVdot2u : ∀ c f s, Ends (execVdot2u c f s) := by
  intro c f s
  unfold execVdot2u vArith
  exact ends_runInsn ..
theorem ends_execVfdot2 : ∀ c f s, Ends (execVfdot2 c f s) := by
  intro c f s
  unfold execVfdot2 vArith
  exact ends_runInsn ..
theorem ends_execVcmpeq : ∀ c f s, Ends (execVcmpeq c f s) := by
  intro c f s
  unfold execVcmpeq vArith
  exact ends_runInsn ..
theorem ends_execVcmpne : ∀ c f s, Ends (execVcmpne c f s) := by
  intro c f s
  unfold execVcmpne vArith
  exact ends_runInsn ..
theorem ends_execVcmplt : ∀ c f s, Ends (execVcmplt c f s) := by
  intro c f s
  unfold execVcmplt vArith
  exact ends_runInsn ..
theorem ends_execVcmpltu : ∀ c f s, Ends (execVcmpltu c f s) := by
  intro c f s
  unfold execVcmpltu vArith
  exact ends_runInsn ..
theorem ends_execVcmple : ∀ c f s, Ends (execVcmple c f s) := by
  intro c f s
  unfold execVcmple vArith
  exact ends_runInsn ..
theorem ends_execVcmpleu : ∀ c f s, Ends (execVcmpleu c f s) := by
  intro c f s
  unfold execVcmpleu vArith
  exact ends_runInsn ..
theorem ends_execVcmpgt : ∀ c f s, Ends (execVcmpgt c f s) := by
  intro c f s
  unfold execVcmpgt vArith
  exact ends_runInsn ..
theorem ends_execVcmpgtu : ∀ c f s, Ends (execVcmpgtu c f s) := by
  intro c f s
  unfold execVcmpgtu vArith
  exact ends_runInsn ..
theorem ends_execVfcmpeq : ∀ c f s, Ends (execVfcmpeq c f s) := by
  intro c f s
  unfold execVfcmpeq vArith
  exact ends_runInsn ..
theorem ends_execVfcmplt : ∀ c f s, Ends (execVfcmplt c f s) := by
  intro c f s
  unfold execVfcmplt vArith
  exact ends_runInsn ..
theorem ends_execVfcmple : ∀ c f s, Ends (execVfcmple c f s) := by
  intro c f s
  unfold execVfcmple vArith
  exact ends_runInsn ..
theorem ends_execVfcmpun : ∀ c f s, Ends (execVfcmpun c f s) := by
  intro c f s
  unfold execVfcmpun vArith
  exact ends_runInsn ..
theorem ends_execMand : ∀ c f s, Ends (execMand c f s) := by
  intro c f s
  unfold execMand vArith
  exact ends_runInsn ..
theorem ends_execMor : ∀ c f s, Ends (execMor c f s) := by
  intro c f s
  unfold execMor vArith
  exact ends_runInsn ..
theorem ends_execMxor : ∀ c f s, Ends (execMxor c f s) := by
  intro c f s
  unfold execMxor vArith
  exact ends_runInsn ..
theorem ends_execMandn : ∀ c f s, Ends (execMandn c f s) := by
  intro c f s
  unfold execMandn vArith
  exact ends_runInsn ..
theorem ends_execMnot : ∀ c f s, Ends (execMnot c f s) := by
  intro c f s
  unfold execMnot vArith
  exact ends_runInsn ..
theorem ends_execMset : ∀ c f s, Ends (execMset c f s) := by
  intro c f s
  unfold execMset vArith
  exact ends_runInsn ..
theorem ends_execMpopc : ∀ c f s, Ends (execMpopc c f s) := by
  intro c f s
  unfold execMpopc vScalar
  exact ends_runInsn ..
theorem ends_execMfirst : ∀ c f s, Ends (execMfirst c f s) := by
  intro c f s
  unfold execMfirst vScalar
  exact ends_runInsn ..
theorem ends_execVget : ∀ c f s, Ends (execVget c f s) := by
  intro c f s
  unfold execVget vScalar
  exact ends_runInsn ..
theorem ends_execVgetu : ∀ c f s, Ends (execVgetu c f s) := by
  intro c f s
  unfold execVgetu vScalar
  exact ends_runInsn ..
theorem ends_execVput : ∀ c f s, Ends (execVput c f s) := by
  intro c f s
  unfold execVput vArith
  exact ends_runInsn ..
theorem ends_execVslideup : ∀ c f s, Ends (execVslideup c f s) := by
  intro c f s
  unfold execVslideup vArith
  exact ends_runInsn ..
theorem ends_execVslidedn : ∀ c f s, Ends (execVslidedn c f s) := by
  intro c f s
  unfold execVslidedn vArith
  exact ends_runInsn ..
theorem ends_execVperm : ∀ c f s, Ends (execVperm c f s) := by
  intro c f s
  unfold execVperm vArith
  exact ends_runInsn ..
theorem ends_execVredsum : ∀ c f s, Ends (execVredsum c f s) := by
  intro c f s
  unfold execVredsum vArith
  exact ends_runInsn ..
theorem ends_execVredmax : ∀ c f s, Ends (execVredmax c f s) := by
  intro c f s
  unfold execVredmax vArith
  exact ends_runInsn ..
theorem ends_execVredmin : ∀ c f s, Ends (execVredmin c f s) := by
  intro c f s
  unfold execVredmin vArith
  exact ends_runInsn ..
theorem ends_execVredmaxu : ∀ c f s, Ends (execVredmaxu c f s) := by
  intro c f s
  unfold execVredmaxu vArith
  exact ends_runInsn ..
theorem ends_execVredminu : ∀ c f s, Ends (execVredminu c f s) := by
  intro c f s
  unfold execVredminu vArith
  exact ends_runInsn ..
theorem ends_execVfredsum : ∀ c f s, Ends (execVfredsum c f s) := by
  intro c f s
  unfold execVfredsum vArith
  exact ends_runInsn ..
theorem ends_execVfredmax : ∀ c f s, Ends (execVfredmax c f s) := by
  intro c f s
  unfold execVfredmax vArith
  exact ends_runInsn ..
theorem ends_execVfredmin : ∀ c f s, Ends (execVfredmin c f s) := by
  intro c f s
  unfold execVfredmin vArith
  exact ends_runInsn ..
theorem ends_execTvmov : ∀ c f s, Ends (execTvmov c f s) := by
  intro c f s
  unfold execTvmov tileMove
  exact ends_runInsn ..
theorem ends_execVtmov : ∀ c f s, Ends (execVtmov c f s) := by
  intro c f s
  unfold execVtmov tileMove
  exact ends_runInsn ..
theorem ends_execVld : ∀ c f s, Ends (execVld c f s) := by
  intro c f s
  unfold execVld vMem
  exact ends_runInsn ..
theorem ends_execVlds : ∀ c f s, Ends (execVlds c f s) := by
  intro c f s
  unfold execVlds vMem
  exact ends_runInsn ..
theorem ends_execVldx : ∀ c f s, Ends (execVldx c f s) := by
  intro c f s
  unfold execVldx vMem
  exact ends_runInsn ..
theorem ends_execVldff : ∀ c f s, Ends (execVldff c f s) := by
  intro c f s
  unfold execVldff vMem
  exact ends_runInsn ..
theorem ends_execVldm : ∀ c f s, Ends (execVldm c f s) := by
  intro c f s
  unfold execVldm vMem
  exact ends_runInsn ..
theorem ends_execVldr : ∀ c f s, Ends (execVldr c f s) := by
  intro c f s
  unfold execVldr vMem
  exact ends_runInsn ..
theorem ends_execVldmr : ∀ c f s, Ends (execVldmr c f s) := by
  intro c f s
  unfold execVldmr vMem
  exact ends_runInsn ..
theorem ends_execVst : ∀ c f s, Ends (execVst c f s) := by
  intro c f s
  unfold execVst vMem
  exact ends_runInsn ..
theorem ends_execVsts : ∀ c f s, Ends (execVsts c f s) := by
  intro c f s
  unfold execVsts vMem
  exact ends_runInsn ..
theorem ends_execVstx : ∀ c f s, Ends (execVstx c f s) := by
  intro c f s
  unfold execVstx vMem
  exact ends_runInsn ..
theorem ends_execVstm : ∀ c f s, Ends (execVstm c f s) := by
  intro c f s
  unfold execVstm vMem
  exact ends_runInsn ..
theorem ends_execVstr : ∀ c f s, Ends (execVstr c f s) := by
  intro c f s
  unfold execVstr vMem
  exact ends_runInsn ..
theorem ends_execVstmr : ∀ c f s, Ends (execVstmr c f s) := by
  intro c f s
  unfold execVstmr vMem
  exact ends_runInsn ..
theorem ends_execVectorComplete : ∀ c s, Ends (execVectorComplete c s) := by
  intro c s
  unfold execVectorComplete
  repeat' first
    | with_reducible exact ends_done _
    | with_reducible exact ends_orWait _ _
    | with_reducible exact ends_raise ..
    | with_reducible exact ends_protectedIn ..
    | with_reducible exact ends_runInsn ..
    | extract_lets
    | split
theorem ends_execTmma : ∀ c f s, Ends (execTmma c f s) := by
  intro c f s
  unfold execTmma
  exact ends_runInsn ..
theorem ends_execTmmp : ∀ c f s, Ends (execTmmp c f s) := by
  intro c f s
  unfold execTmmp
  exact ends_runInsn ..
theorem ends_execTpull : ∀ c f s, Ends (execTpull c f s) := by
  intro c f s
  unfold execTpull tileMem
  exact ends_runInsn ..
theorem ends_execTpush : ∀ c f s, Ends (execTpush c f s) := by
  intro c f s
  unfold execTpush tileMem
  exact ends_runInsn ..
theorem ends_execTwipe : ∀ c f s, Ends (execTwipe c f s) := by
  intro c f s
  unfold execTwipe
  exact ends_runInsn ..
theorem ends_execAccSt : ∀ c f s, Ends (execAccSt c f s) := by
  intro c f s
  unfold execAccSt tileAcc
  exact ends_runInsn ..
theorem ends_execAccLd : ∀ c f s, Ends (execAccLd c f s) := by
  intro c f s
  unfold execAccLd tileAcc
  exact ends_runInsn ..
theorem ends_execTileQueueOp : ∀ d k s, Ends (execTileQueueOp d k s) := by
  intro d k s
  unfold execTileQueueOp
  repeat' first
    | with_reducible exact ends_done _
    | with_reducible exact ends_orWait _ _
    | with_reducible exact ends_raise ..
    | with_reducible exact ends_protectedIn ..
    | with_reducible exact ends_runInsn ..
    | extract_lets
    | split
theorem ends_execBLoad : ∀ c s, Ends (execBLoad c s) := by
  intro c s
  unfold execBLoad
  repeat' first
    | with_reducible exact ends_done _
    | with_reducible exact ends_orWait _ _
    | with_reducible exact ends_raise ..
    | with_reducible exact ends_protectedIn ..
    | with_reducible exact ends_runInsn ..
    | extract_lets
    | split
theorem ends_execPassStream : ∀ d k rows task s, Ends (execPassStream d k rows task s) := by
  intro d k rows task s
  unfold execPassStream
  repeat' first
    | with_reducible exact ends_done _
    | with_reducible exact ends_orWait _ _
    | with_reducible exact ends_raise ..
    | with_reducible exact ends_protectedIn ..
    | with_reducible exact ends_runInsn ..
    | extract_lets
    | split
theorem ends_execFtqPost : ∀ d s, Ends (execFtqPost d s) := by
  intro d s
  unfold execFtqPost
  with_reducible exact ends_done _
theorem ends_execGmm : ∀ c f s, Ends (execGmm c f s) := by
  intro c f s
  unfold execGmm
  exact ends_runInsn ..
theorem ends_execGaccOpen : ∀ c f s, Ends (execGaccOpen c f s) := by
  intro c f s
  unfold execGaccOpen
  exact ends_runInsn ..
theorem ends_execGaccClose : ∀ c f s, Ends (execGaccClose c f s) := by
  intro c f s
  unfold execGaccClose
  exact ends_runInsn ..
theorem ends_execGangOpStart : ∀ g s, Ends (execGangOpStart g s) := by
  intro g s
  unfold execGangOpStart
  repeat' first
    | with_reducible exact ends_done _
    | with_reducible exact ends_orWait _ _
    | with_reducible exact ends_raise ..
    | with_reducible exact ends_protectedIn ..
    | with_reducible exact ends_runInsn ..
    | extract_lets
    | split
theorem ends_execRunningSum : ∀ g b p s, Ends (execRunningSum g b p s) := by
  intro g b p s
  unfold execRunningSum
  with_reducible exact ends_done _
theorem ends_execGangOpComplete : ∀ g busy s, Ends (execGangOpComplete g busy s) := by
  intro g busy s
  unfold execGangOpComplete
  repeat' first
    | with_reducible exact ends_done _
    | with_reducible exact ends_orWait _ _
    | with_reducible exact ends_raise ..
    | with_reducible exact ends_protectedIn ..
    | with_reducible exact ends_runInsn ..
    | extract_lets
    | split
theorem ends_execGangOpFail : ∀ g s, Ends (execGangOpFail g s) := by
  intro g s
  unfold execGangOpFail
  repeat' first
    | with_reducible exact ends_done _
    | with_reducible exact ends_orWait _ _
    | with_reducible exact ends_raise ..
    | with_reducible exact ends_protectedIn ..
    | with_reducible exact ends_runInsn ..
    | extract_lets
    | split
theorem ends_execGangNarrow : ∀ g s, Ends (execGangNarrow g s) := by
  intro g s
  unfold execGangNarrow
  repeat' first
    | with_reducible exact ends_done _
    | with_reducible exact ends_orWait _ _
    | with_reducible exact ends_raise ..
    | with_reducible exact ends_protectedIn ..
    | with_reducible exact ends_runInsn ..
    | extract_lets
    | split
theorem ends_execGngReadmit : ∀ q g v s, Ends (execGngReadmit q g v s) := by
  intro q g v s
  unfold execGngReadmit regCmd
  repeat' first
    | with_reducible exact ends_done _
    | with_reducible exact ends_orWait _ _
    | with_reducible exact ends_raise ..
    | with_reducible exact ends_protectedIn ..
    | with_reducible exact ends_runInsn ..
    | extract_lets
    | split
theorem ends_execGangReadmission : ∀ g s, Ends (execGangReadmission g s) := by
  intro g s
  unfold execGangReadmission
  repeat' first
    | with_reducible exact ends_done _
    | with_reducible exact ends_orWait _ _
    | with_reducible exact ends_raise ..
    | with_reducible exact ends_protectedIn ..
    | with_reducible exact ends_runInsn ..
    | extract_lets
    | split
theorem ends_execGlzLd : ∀ c f s, Ends (execGlzLd c f s) := by
  intro c f s
  unfold execGlzLd
  exact ends_runInsn ..
theorem ends_execGlzDrain : ∀ c f s, Ends (execGlzDrain c f s) := by
  intro c f s
  unfold execGlzDrain
  exact ends_runInsn ..
theorem ends_execGlazeQuarterRun : ∀ c s, Ends (execGlazeQuarterRun c s) := by
  intro c s
  unfold execGlazeQuarterRun
  repeat' first
    | with_reducible exact ends_done _
    | with_reducible exact ends_orWait _ _
    | with_reducible exact ends_raise ..
    | with_reducible exact ends_protectedIn ..
    | with_reducible exact ends_runInsn ..
    | extract_lets
    | split
theorem ends_execGlzStat : ∀ c f s, Ends (execGlzStat c f s) := by
  intro c f s
  unfold execGlzStat
  exact ends_runInsn ..
theorem ends_execGlzHst : ∀ c f s, Ends (execGlzHst c f s) := by
  intro c f s
  unfold execGlzHst
  exact ends_runInsn ..
theorem ends_execGlzHld : ∀ c f s, Ends (execGlzHld c f s) := by
  intro c f s
  unfold execGlzHld
  exact ends_runInsn ..
theorem ends_execEntryDone : ∀ d e s, Ends (execEntryDone d e s) := by
  intro d e s
  unfold execEntryDone
  repeat' first
    | with_reducible exact ends_done _
    | with_reducible exact ends_orWait _ _
    | with_reducible exact ends_raise ..
    | with_reducible exact ends_protectedIn ..
    | with_reducible exact ends_runInsn ..
    | extract_lets
    | split
theorem ends_execFtqCmdDiscard : ∀ q d v s, Ends (execFtqCmdDiscard q d v s) := by
  intro q d v s
  unfold execFtqCmdDiscard regCmd
  repeat' first
    | with_reducible exact ends_done _
    | with_reducible exact ends_orWait _ _
    | with_reducible exact ends_raise ..
    | with_reducible exact ends_protectedIn ..
    | with_reducible exact ends_runInsn ..
    | extract_lets
    | split
theorem ends_execTrwEpochBump : ∀ q v s, Ends (execTrwEpochBump q v s) := by
  intro q v s
  unfold execTrwEpochBump regCmd
  repeat' first
    | with_reducible exact ends_done _
    | with_reducible exact ends_orWait _ _
    | with_reducible exact ends_raise ..
    | with_reducible exact ends_protectedIn ..
    | with_reducible exact ends_runInsn ..
    | extract_lets
    | split
theorem ends_execEpochDieAck : ∀ d s, Ends (execEpochDieAck d s) := by
  intro d s
  unfold execEpochDieAck
  with_reducible exact ends_done _
theorem ends_execEpochRoundEnd : ∀ s, Ends (execEpochRoundEnd s) := by
  intro s
  unfold execEpochRoundEnd
  repeat' first
    | with_reducible exact ends_done _
    | with_reducible exact ends_orWait _ _
    | with_reducible exact ends_raise ..
    | with_reducible exact ends_protectedIn ..
    | with_reducible exact ends_runInsn ..
    | extract_lets
    | split
theorem ends_execFqFault : ∀ d eng la ring write ptb s, Ends (execFqFault d eng la ring write ptb s) := by
  intro d eng la ring write ptb s
  unfold execFqFault
  repeat' first
    | with_reducible exact ends_done _
    | with_reducible exact ends_orWait _ _
    | with_reducible exact ends_raise ..
    | with_reducible exact ends_protectedIn ..
    | with_reducible exact ends_runInsn ..
    | extract_lets
    | split
theorem ends_execFqDeferredCreate : ∀ s, Ends (execFqDeferredCreate s) := by
  intro s
  unfold execFqDeferredCreate
  repeat' first
    | with_reducible exact ends_done _
    | with_reducible exact ends_orWait _ _
    | with_reducible exact ends_raise ..
    | with_reducible exact ends_protectedIn ..
    | with_reducible exact ends_runInsn ..
    | extract_lets
    | split
theorem ends_execFqHead : ∀ q s, Ends (execFqHead q s) := by
  intro q s
  unfold execFqHead regCmd
  repeat' first
    | with_reducible exact ends_done _
    | with_reducible exact ends_orWait _ _
    | with_reducible exact ends_raise ..
    | with_reducible exact ends_protectedIn ..
    | with_reducible exact ends_runInsn ..
    | extract_lets
    | split
theorem ends_execResolve : ∀ q v s, Ends (execResolve q v s) := by
  intro q v s
  unfold execResolve regCmd
  repeat' first
    | with_reducible exact ends_done _
    | with_reducible exact ends_orWait _ _
    | with_reducible exact ends_raise ..
    | with_reducible exact ends_protectedIn ..
    | with_reducible exact ends_runInsn ..
    | extract_lets
    | split
theorem ends_execAbort : ∀ q v s, Ends (execAbort q v s) := by
  intro q v s
  unfold execAbort regCmd
  repeat' first
    | with_reducible exact ends_done _
    | with_reducible exact ends_orWait _ _
    | with_reducible exact ends_raise ..
    | with_reducible exact ends_protectedIn ..
    | with_reducible exact ends_runInsn ..
    | extract_lets
    | split
theorem ends_execCmd : ∀ sid seq cmds s, Ends (execCmd sid seq cmds s) := by
  intro sid seq cmds s
  unfold execCmd
  repeat' first
    | with_reducible exact ends_done _
    | with_reducible exact ends_orWait _ _
    | with_reducible exact ends_raise ..
    | with_reducible exact ends_protectedIn ..
    | with_reducible exact ends_runInsn ..
    | extract_lets
    | split
theorem ends_execEnable : ∀ q sid s, Ends (execEnable q sid s) := by
  intro q sid s
  unfold execEnable regCmd
  repeat' first
    | with_reducible exact ends_done _
    | with_reducible exact ends_orWait _ _
    | with_reducible exact ends_raise ..
    | with_reducible exact ends_protectedIn ..
    | with_reducible exact ends_runInsn ..
    | extract_lets
    | split
theorem ends_execDisable : ∀ q sid s, Ends (execDisable q sid s) := by
  intro q sid s
  unfold execDisable regCmd
  repeat' first
    | with_reducible exact ends_done _
    | with_reducible exact ends_orWait _ _
    | with_reducible exact ends_raise ..
    | with_reducible exact ends_protectedIn ..
    | with_reducible exact ends_runInsn ..
    | extract_lets
    | split
theorem ends_execRetry : ∀ q sid s, Ends (execRetry q sid s) := by
  intro q sid s
  unfold execRetry regCmd
  repeat' first
    | with_reducible exact ends_done _
    | with_reducible exact ends_orWait _ _
    | with_reducible exact ends_raise ..
    | with_reducible exact ends_protectedIn ..
    | with_reducible exact ends_runInsn ..
    | extract_lets
    | split
theorem ends_execSkip : ∀ q sid s, Ends (execSkip q sid s) := by
  intro q sid s
  unfold execSkip regCmd
  repeat' first
    | with_reducible exact ends_done _
    | with_reducible exact ends_orWait _ _
    | with_reducible exact ends_raise ..
    | with_reducible exact ends_protectedIn ..
    | with_reducible exact ends_runInsn ..
    | extract_lets
    | split
theorem ends_execCancel : ∀ q sid s, Ends (execCancel q sid s) := by
  intro q sid s
  unfold execCancel regCmd
  repeat' first
    | with_reducible exact ends_done _
    | with_reducible exact ends_orWait _ _
    | with_reducible exact ends_raise ..
    | with_reducible exact ends_protectedIn ..
    | with_reducible exact ends_runInsn ..
    | extract_lets
    | split
theorem ends_execCancelEnd : ∀ sid s, Ends (execCancelEnd sid s) := by
  intro sid s
  unfold execCancelEnd
  repeat' first
    | with_reducible exact ends_done _
    | with_reducible exact ends_orWait _ _
    | with_reducible exact ends_raise ..
    | with_reducible exact ends_protectedIn ..
    | with_reducible exact ends_runInsn ..
    | extract_lets
    | split
theorem ends_execCommandStart : ∀ s, Ends (execCommandStart s) := by
  intro s
  unfold execCommandStart
  repeat' first
    | with_reducible exact ends_done _
    | with_reducible exact ends_orWait _ _
    | with_reducible exact ends_raise ..
    | with_reducible exact ends_protectedIn ..
    | with_reducible exact ends_runInsn ..
    | extract_lets
    | split
theorem ends_execNop : ∀ sid s, Ends (execNop sid s) := by
  intro sid s
  unfold execNop onBegun
  repeat' first
    | with_reducible exact ends_done _
    | with_reducible exact ends_orWait _ _
    | with_reducible exact ends_raise ..
    | with_reducible exact ends_protectedIn ..
    | with_reducible exact ends_runInsn ..
    | extract_lets
    | split
theorem ends_execLaunch : ∀ sid s, Ends (execLaunch sid s) := by
  intro sid s
  unfold execLaunch onBegun
  repeat' first
    | with_reducible exact ends_done _
    | with_reducible exact ends_orWait _ _
    | with_reducible exact ends_raise ..
    | with_reducible exact ends_protectedIn ..
    | with_reducible exact ends_runInsn ..
    | extract_lets
    | split
theorem ends_execGlaunch : ∀ sid s, Ends (execGlaunch sid s) := by
  intro sid s
  unfold execGlaunch onBegun
  repeat' first
    | with_reducible exact ends_done _
    | with_reducible exact ends_orWait _ _
    | with_reducible exact ends_raise ..
    | with_reducible exact ends_protectedIn ..
    | with_reducible exact ends_runInsn ..
    | extract_lets
    | split
theorem ends_execCopy : ∀ sid s, Ends (execCopy sid s) := by
  intro sid s
  unfold execCopy onBegun
  repeat' first
    | with_reducible exact ends_done _
    | with_reducible exact ends_orWait _ _
    | with_reducible exact ends_raise ..
    | with_reducible exact ends_protectedIn ..
    | with_reducible exact ends_runInsn ..
    | extract_lets
    | split
theorem ends_execFill : ∀ sid s, Ends (execFill sid s) := by
  intro sid s
  unfold execFill onBegun
  repeat' first
    | with_reducible exact ends_done _
    | with_reducible exact ends_orWait _ _
    | with_reducible exact ends_raise ..
    | with_reducible exact ends_protectedIn ..
    | with_reducible exact ends_runInsn ..
    | extract_lets
    | split
theorem ends_execCopyFillComplete : ∀ sid s, Ends (execCopyFillComplete sid s) := by
  intro sid s
  unfold execCopyFillComplete
  repeat' first
    | with_reducible exact ends_done _
    | with_reducible exact ends_orWait _ _
    | with_reducible exact ends_raise ..
    | with_reducible exact ends_protectedIn ..
    | with_reducible exact ends_runInsn ..
    | extract_lets
    | split
theorem ends_execWait : ∀ sid s, Ends (execWait sid s) := by
  intro sid s
  unfold execWait onBegun
  repeat' first
    | with_reducible exact ends_done _
    | with_reducible exact ends_orWait _ _
    | with_reducible exact ends_raise ..
    | with_reducible exact ends_protectedIn ..
    | with_reducible exact ends_runInsn ..
    | extract_lets
    | split
theorem ends_execSignal : ∀ sid s, Ends (execSignal sid s) := by
  intro sid s
  unfold execSignal onBegun
  repeat' first
    | with_reducible exact ends_done _
    | with_reducible exact ends_orWait _ _
    | with_reducible exact ends_raise ..
    | with_reducible exact ends_protectedIn ..
    | with_reducible exact ends_runInsn ..
    | extract_lets
    | split
theorem ends_execTimed : ∀ sid s, Ends (execTimed sid s) := by
  intro sid s
  unfold execTimed onBegun
  repeat' first
    | with_reducible exact ends_done _
    | with_reducible exact ends_orWait _ _
    | with_reducible exact ends_raise ..
    | with_reducible exact ends_protectedIn ..
    | with_reducible exact ends_runInsn ..
    | extract_lets
    | split
theorem ends_execMark : ∀ sid s, Ends (execMark sid s) := by
  intro sid s
  unfold execMark onBegun
  repeat' first
    | with_reducible exact ends_done _
    | with_reducible exact ends_orWait _ _
    | with_reducible exact ends_raise ..
    | with_reducible exact ends_protectedIn ..
    | with_reducible exact ends_runInsn ..
    | extract_lets
    | split
theorem ends_execSnap : ∀ sid s, Ends (execSnap sid s) := by
  intro sid s
  unfold execSnap onBegun
  repeat' first
    | with_reducible exact ends_done _
    | with_reducible exact ends_orWait _ _
    | with_reducible exact ends_raise ..
    | with_reducible exact ends_protectedIn ..
    | with_reducible exact ends_runInsn ..
    | extract_lets
    | split
theorem ends_execFence : ∀ sid s, Ends (execFence sid s) := by
  intro sid s
  unfold execFence onBegun
  repeat' first
    | with_reducible exact ends_done _
    | with_reducible exact ends_orWait _ _
    | with_reducible exact ends_raise ..
    | with_reducible exact ends_protectedIn ..
    | with_reducible exact ends_runInsn ..
    | extract_lets
    | split
theorem ends_execSynOp : ∀ q v s, Ends (execSynOp q v s) := by
  intro q v s
  unfold execSynOp regCmd
  repeat' first
    | with_reducible exact ends_done _
    | with_reducible exact ends_orWait _ _
    | with_reducible exact ends_raise ..
    | with_reducible exact ends_protectedIn ..
    | with_reducible exact ends_runInsn ..
    | extract_lets
    | split
theorem ends_execTriggerFire : ∀ n s, Ends (execTriggerFire n s) := by
  intro n s
  unfold execTriggerFire
  repeat' first
    | with_reducible exact ends_done _
    | with_reducible exact ends_orWait _ _
    | with_reducible exact ends_raise ..
    | with_reducible exact ends_protectedIn ..
    | with_reducible exact ends_runInsn ..
    | extract_lets
    | split
theorem ends_execTtCmpWrite : ∀ q n v s, Ends (execTtCmpWrite q n v s) := by
  intro q n v s
  unfold execTtCmpWrite regCmd
  repeat' first
    | with_reducible exact ends_done _
    | with_reducible exact ends_orWait _ _
    | with_reducible exact ends_raise ..
    | with_reducible exact ends_protectedIn ..
    | with_reducible exact ends_runInsn ..
    | extract_lets
    | split
theorem ends_execTtCtlWrite : ∀ q n v s, Ends (execTtCtlWrite q n v s) := by
  intro q n v s
  unfold execTtCtlWrite regCmd
  repeat' first
    | with_reducible exact ends_done _
    | with_reducible exact ends_orWait _ _
    | with_reducible exact ends_raise ..
    | with_reducible exact ends_protectedIn ..
    | with_reducible exact ends_runInsn ..
    | extract_lets
    | split
theorem ends_execTimedExpiry : ∀ s, Ends (execTimedExpiry s) := by
  intro s
  unfold execTimedExpiry onExpiry
  repeat' first
    | with_reducible exact ends_done _
    | with_reducible exact ends_orWait _ _
    | with_reducible exact ends_raise ..
    | with_reducible exact ends_protectedIn ..
    | with_reducible exact ends_runInsn ..
    | extract_lets
    | split
theorem ends_execWaitTimeout : ∀ s, Ends (execWaitTimeout s) := by
  intro s
  unfold execWaitTimeout onExpiry
  repeat' first
    | with_reducible exact ends_done _
    | with_reducible exact ends_orWait _ _
    | with_reducible exact ends_raise ..
    | with_reducible exact ends_protectedIn ..
    | with_reducible exact ends_runInsn ..
    | extract_lets
    | split
theorem ends_execWindowDeadline : ∀ s, Ends (execWindowDeadline s) := by
  intro s
  unfold execWindowDeadline onExpiry
  repeat' first
    | with_reducible exact ends_done _
    | with_reducible exact ends_orWait _ _
    | with_reducible exact ends_raise ..
    | with_reducible exact ends_protectedIn ..
    | with_reducible exact ends_runInsn ..
    | extract_lets
    | split
theorem ends_execTrwWq : ∀ q d s, Ends (execTrwWq q d s) := by
  intro q d s
  unfold execTrwWq regCmd
  repeat' first
    | with_reducible exact ends_done _
    | with_reducible exact ends_orWait _ _
    | with_reducible exact ends_raise ..
    | with_reducible exact ends_protectedIn ..
    | with_reducible exact ends_runInsn ..
    | extract_lets
    | split
theorem ends_execTrwWdone : ∀ q v s, Ends (execTrwWdone q v s) := by
  intro q v s
  unfold execTrwWdone regCmd
  repeat' first
    | with_reducible exact ends_done _
    | with_reducible exact ends_orWait _ _
    | with_reducible exact ends_raise ..
    | with_reducible exact ends_protectedIn ..
    | with_reducible exact ends_runInsn ..
    | extract_lets
    | split
theorem ends_execTrwFlush : ∀ q v s, Ends (execTrwFlush q v s) := by
  intro q v s
  unfold execTrwFlush regCmd
  repeat' first
    | with_reducible exact ends_done _
    | with_reducible exact ends_orWait _ _
    | with_reducible exact ends_raise ..
    | with_reducible exact ends_protectedIn ..
    | with_reducible exact ends_runInsn ..
    | extract_lets
    | split
theorem ends_execTrwMfault : ∀ q v s, Ends (execTrwMfault q v s) := by
  intro q v s
  unfold execTrwMfault regCmd
  repeat' first
    | with_reducible exact ends_done _
    | with_reducible exact ends_orWait _ _
    | with_reducible exact ends_raise ..
    | with_reducible exact ends_protectedIn ..
    | with_reducible exact ends_runInsn ..
    | extract_lets
    | split
theorem ends_execWindowDispatch : ∀ g s, Ends (execWindowDispatch g s) := by
  intro g s
  unfold execWindowDispatch
  repeat' first
    | with_reducible exact ends_done _
    | with_reducible exact ends_orWait _ _
    | with_reducible exact ends_raise ..
    | with_reducible exact ends_protectedIn ..
    | with_reducible exact ends_runInsn ..
    | extract_lets
    | split
theorem ends_execWindowOpenDeferred : ∀ s, Ends (execWindowOpenDeferred s) := by
  intro s
  unfold execWindowOpenDeferred
  split
  · exact ends_done _
  · extract_lets l
    clear_value l
    cases l with
    | nil => exact ends_done _
    | cons r l => dsimp only; split <;> exact ends_done _
theorem ends_execScatterMember : ∀ w s, Ends (execScatterMember w s) := by
  intro w s
  unfold execScatterMember
  repeat' first
    | with_reducible exact ends_done _
    | with_reducible exact ends_orWait _ _
    | with_reducible exact ends_raise ..
    | with_reducible exact ends_protectedIn ..
    | with_reducible exact ends_runInsn ..
    | extract_lets
    | split
theorem ends_execHbmRead : ∀ rd ru pa bad s, Ends (execHbmRead rd ru pa bad s) := by
  intro rd ru pa bad s
  unfold execHbmRead
  with_reducible exact ends_done _
theorem ends_execHbmWrite : ∀ rd ru pa data poisoned bad s, Ends (execHbmWrite rd ru pa data poisoned bad s) := by
  intro rd ru pa data poisoned bad s
  unfold execHbmWrite
  with_reducible exact ends_done _
theorem ends_execPatrolScrub : ∀ pa bad s, Ends (execPatrolScrub pa bad s) := by
  intro pa bad s
  unfold execPatrolScrub
  with_reducible exact ends_done _
theorem ends_execEcsReadout : ∀ st counts s, Ends (execEcsReadout st counts s) := by
  intro st counts s
  unfold execEcsReadout
  with_reducible exact ends_done _
theorem ends_execStackTempReadout : ∀ st temp s, Ends (execStackTempReadout st temp s) := by
  intro st temp s
  unfold execStackTempReadout
  with_reducible exact ends_done _
theorem ends_execPmapPend : ∀ q j v s, Ends (execPmapPend q j v s) := by
  intro q j v s
  unfold execPmapPend regCmd
  repeat' first
    | with_reducible exact ends_done _
    | with_reducible exact ends_orWait _ _
    | with_reducible exact ends_raise ..
    | with_reducible exact ends_protectedIn ..
    | with_reducible exact ends_runInsn ..
    | extract_lets
    | split
theorem ends_execHbmMrgRun : ∀ q st v s, Ends (execHbmMrgRun q st v s) := by
  intro q st v s
  unfold execHbmMrgRun regCmd
  repeat' first
    | with_reducible exact ends_done _
    | with_reducible exact ends_orWait _ _
    | with_reducible exact ends_raise ..
    | with_reducible exact ends_protectedIn ..
    | with_reducible exact ends_runInsn ..
    | extract_lets
    | split
theorem ends_execMarginTestDone : ∀ st errs s, Ends (execMarginTestDone st errs s) := by
  intro st errs s
  unfold execMarginTestDone
  with_reducible exact ends_done _
theorem ends_execTileStorePatrol : ∀ d line bad s, Ends (execTileStorePatrol d line bad s) := by
  intro d line bad s
  unfold execTileStorePatrol
  with_reducible exact ends_done _
theorem ends_execTileStoreFillDone : ∀ d s, Ends (execTileStoreFillDone d s) := by
  intro d s
  unfold execTileStoreFillDone
  with_reducible exact ends_done _
theorem ends_execScrimReplay : ∀ e side seq s, Ends (execScrimReplay e side seq s) := by
  intro e side seq s
  unfold execScrimReplay
  repeat' first
    | with_reducible exact ends_done _
    | with_reducible exact ends_orWait _ _
    | with_reducible exact ends_raise ..
    | with_reducible exact ends_protectedIn ..
    | with_reducible exact ends_runInsn ..
    | extract_lets
    | split
theorem ends_execStandbySwitch : ∀ e s, Ends (execStandbySwitch e s) := by
  intro e s
  unfold execStandbySwitch
  with_reducible exact ends_done _
theorem ends_execEdgeDown : ∀ e s, Ends (execEdgeDown e s) := by
  intro e s
  unfold execEdgeDown
  with_reducible exact ends_done _
theorem ends_execFifoPointerMismatch : ∀ d unit queue entries s, Ends (execFifoPointerMismatch d unit queue entries s) := by
  intro d unit queue entries s
  unfold execFifoPointerMismatch
  repeat' first
    | with_reducible exact ends_done _
    | with_reducible exact ends_orWait _ _
    | with_reducible exact ends_raise ..
    | with_reducible exact ends_protectedIn ..
    | with_reducible exact ends_runInsn ..
    | extract_lets
    | split
theorem ends_execResponseTimeout : ∀ r s, Ends (execResponseTimeout r s) := by
  intro r s
  unfold execResponseTimeout
  with_reducible exact ends_done _
theorem ends_execOrphanResponse : ∀ d unit pa s, Ends (execOrphanResponse d unit pa s) := by
  intro d unit pa s
  unfold execOrphanResponse
  with_reducible exact ends_done _
theorem ends_execErrHead : ∀ q d s, Ends (execErrHead q d s) := by
  intro q d s
  unfold execErrHead regCmd
  repeat' first
    | with_reducible exact ends_done _
    | with_reducible exact ends_orWait _ _
    | with_reducible exact ends_raise ..
    | with_reducible exact ends_protectedIn ..
    | with_reducible exact ends_runInsn ..
    | extract_lets
    | split
theorem ends_execLinkSignalDetect : ∀ l lanes s, Ends (execLinkSignalDetect l lanes s) := by
  intro l lanes s
  unfold execLinkSignalDetect
  with_reducible exact ends_done _
theorem ends_execLinkTrainDone : ∀ l good s, Ends (execLinkTrainDone l good s) := by
  intro l good s
  unfold execLinkTrainDone
  with_reducible exact ends_done _
theorem ends_execLinkAlignDone : ∀ l rev pol s, Ends (execLinkAlignDone l rev pol s) := by
  intro l rev pol s
  unfold execLinkAlignDone
  with_reducible exact ends_done _
theorem ends_execLinkParamDone : ∀ l req rsp evt mgt s, Ends (execLinkParamDone l req rsp evt mgt s) := by
  intro l req rsp evt mgt s
  unfold execLinkParamDone
  with_reducible exact ends_done _
theorem ends_execLinkStateTimeout : ∀ l s, Ends (execLinkStateTimeout l s) := by
  intro l s
  unfold execLinkStateTimeout
  with_reducible exact ends_done _
theorem ends_execLinkRecovery : ∀ l s, Ends (execLinkRecovery l s) := by
  intro l s
  unfold execLinkRecovery
  with_reducible exact ends_done _
theorem ends_execLinkRecoveryDone : ∀ l s, Ends (execLinkRecoveryDone l s) := by
  intro l s
  unfold execLinkRecoveryDone
  with_reducible exact ends_done _
theorem ends_execLinkRetrain : ∀ l s, Ends (execLinkRetrain l s) := by
  intro l s
  unfold execLinkRetrain
  with_reducible exact ends_done _
theorem ends_execAgdLctlRetrain : ∀ q s, Ends (execAgdLctlRetrain q s) := by
  intro q s
  unfold execAgdLctlRetrain regCmd
  repeat' first
    | with_reducible exact ends_done _
    | with_reducible exact ends_orWait _ _
    | with_reducible exact ends_raise ..
    | with_reducible exact ends_protectedIn ..
    | with_reducible exact ends_runInsn ..
    | extract_lets
    | split
theorem ends_execAgdLctlDis : ∀ q v s, Ends (execAgdLctlDis q v s) := by
  intro q v s
  unfold execAgdLctlDis regCmd
  repeat' first
    | with_reducible exact ends_done _
    | with_reducible exact ends_orWait _ _
    | with_reducible exact ends_raise ..
    | with_reducible exact ends_protectedIn ..
    | with_reducible exact ends_runInsn ..
    | extract_lets
    | split
theorem ends_execFlitReceive : ∀ l bad fixed seqd fseq ack odd s, Ends (execFlitReceive l bad fixed seqd fseq ack odd s) := by
  intro l bad fixed seqd fseq ack odd s
  unfold execFlitReceive
  with_reducible exact ends_done _
theorem ends_execNak : ∀ l seq s, Ends (execNak l seq s) := by
  intro l seq s
  unfold execNak
  with_reducible exact ends_done _
theorem ends_execAckTimeoutReplay : ∀ l s, Ends (execAckTimeoutReplay l s) := by
  intro l s
  unfold execAckTimeoutReplay
  with_reducible exact ends_done _
theorem ends_execLctl : ∀ l req rsp evt mgt s, Ends (execLctl l req rsp evt mgt s) := by
  intro l req rsp evt mgt s
  unfold execLctl
  with_reducible exact ends_done _
theorem ends_execCreditReturnSend : ∀ l s, Ends (execCreditReturnSend l s) := by
  intro l s
  unfold execCreditReturnSend
  with_reducible exact ends_done _
theorem ends_execMwr : ∀ tag addr ackreq data s, Ends (execMwr tag addr ackreq data s) := by
  intro tag addr ackreq data s
  unfold execMwr
  repeat' first
    | with_reducible exact ends_done _
    | with_reducible exact ends_orWait _ _
    | with_reducible exact ends_raise ..
    | with_reducible exact ends_protectedIn ..
    | with_reducible exact ends_runInsn ..
    | extract_lets
    | split
theorem ends_execMrd : ∀ tag addr n s, Ends (execMrd tag addr n s) := by
  intro tag addr n s
  unfold execMrd
  repeat' first
    | with_reducible exact ends_done _
    | with_reducible exact ends_orWait _ _
    | with_reducible exact ends_raise ..
    | with_reducible exact ends_protectedIn ..
    | with_reducible exact ends_runInsn ..
    | extract_lets
    | split
theorem ends_execCpl : ∀ tag status data s, Ends (execCpl tag status data s) := by
  intro tag status data s
  unfold execCpl
  repeat' first
    | with_reducible exact ends_done _
    | with_reducible exact ends_orWait _ _
    | with_reducible exact ends_raise ..
    | with_reducible exact ends_protectedIn ..
    | with_reducible exact ends_runInsn ..
    | extract_lets
    | split
theorem ends_execMgmt : ∀ data s, Ends (execMgmt data s) := by
  intro data s
  unfold execMgmt
  with_reducible exact ends_done _
theorem ends_execReset : ∀ a b s, Ends (execReset a b s) := by
  intro a b s
  unfold execReset
  with_reducible exact ends_done _
theorem ends_execTimeExchangeStart : ∀ s, Ends (execTimeExchangeStart s) := by
  intro s
  unfold execTimeExchangeStart
  with_reducible exact ends_done _
theorem ends_execTsrsp : ∀ id t2 t3 s, Ends (execTsrsp id t2 t3 s) := by
  intro id t2 t3 s
  unfold execTsrsp
  with_reducible exact ends_done _
theorem ends_execTimeExchangeTimeout : ∀ s, Ends (execTimeExchangeTimeout s) := by
  intro s
  unfold execTimeExchangeTimeout
  with_reducible exact ends_done _
theorem ends_execSlewExpiry : ∀ s, Ends (execSlewExpiry s) := by
  intro s
  unfold execSlewExpiry
  with_reducible exact ends_done _
theorem ends_execHoldTimeout : ∀ s, Ends (execHoldTimeout s) := by
  intro s
  unfold execHoldTimeout
  with_reducible exact ends_done _
theorem ends_execTimePpsEdge : ∀ s, Ends (execTimePpsEdge s) := by
  intro s
  unfold execTimePpsEdge
  with_reducible exact ends_done _
theorem ends_execPpsLost : ∀ s, Ends (execPpsLost s) := by
  intro s
  unfold execPpsLost
  with_reducible exact ends_done _
theorem ends_execTwinPresentFall : ∀ s, Ends (execTwinPresentFall s) := by
  intro s
  unfold execTwinPresentFall
  with_reducible exact ends_done _
theorem ends_execTwinPresentRise : ∀ s, Ends (execTwinPresentRise s) := by
  intro s
  unfold execTwinPresentRise
  with_reducible exact ends_done _
theorem ends_execHello : ∀ version serial group s, Ends (execHello version serial group s) := by
  intro version serial group s
  unfold execHello
  with_reducible exact ends_done _
theorem ends_execAuth : ∀ msg frag count total data s, Ends (execAuth msg frag count total data s) := by
  intro msg frag count total data s
  unfold execAuth
  with_reducible exact ends_done _
theorem ends_execPairingRetry : ∀ s, Ends (execPairingRetry s) := by
  intro s
  unfold execPairingRetry
  with_reducible exact ends_done _
theorem ends_execMirw : ∀ tag off data tagok s, Ends (execMirw tag off data tagok s) := by
  intro tag off data tagok s
  unfold execMirw
  repeat' first
    | with_reducible exact ends_done _
    | with_reducible exact ends_orWait _ _
    | with_reducible exact ends_raise ..
    | with_reducible exact ends_protectedIn ..
    | with_reducible exact ends_runInsn ..
    | extract_lets
    | split
theorem ends_execMack : ∀ tag status tagok s, Ends (execMack tag status tagok s) := by
  intro tag status tagok s
  unfold execMack
  repeat' first
    | with_reducible exact ends_done _
    | with_reducible exact ends_orWait _ _
    | with_reducible exact ends_raise ..
    | with_reducible exact ends_protectedIn ..
    | with_reducible exact ends_runInsn ..
    | extract_lets
    | split
theorem ends_execHb : ∀ state time tagok s, Ends (execHb state time tagok s) := by
  intro state time tagok s
  unfold execHb
  repeat' first
    | with_reducible exact ends_done _
    | with_reducible exact ends_orWait _ _
    | with_reducible exact ends_raise ..
    | with_reducible exact ends_protectedIn ..
    | with_reducible exact ends_runInsn ..
    | extract_lets
    | split
theorem ends_execPartnerLost : ∀ s, Ends (execPartnerLost s) := by
  intro s
  unfold execPartnerLost
  with_reducible exact ends_done _
theorem ends_execFenceTwin : ∀ q s, Ends (execFenceTwin q s) := by
  intro q s
  unfold execFenceTwin regCmd
  repeat' first
    | with_reducible exact ends_done _
    | with_reducible exact ends_orWait _ _
    | with_reducible exact ends_raise ..
    | with_reducible exact ends_protectedIn ..
    | with_reducible exact ends_runInsn ..
    | extract_lets
    | split
theorem ends_execFenceDelayed : ∀ s, Ends (execFenceDelayed s) := by
  intro s
  unfold execFenceDelayed
  with_reducible exact ends_done _
theorem ends_execThaw : ∀ q s, Ends (execThaw q s) := by
  intro q s
  unfold execThaw regCmd
  repeat' first
    | with_reducible exact ends_done _
    | with_reducible exact ends_orWait _ _
    | with_reducible exact ends_raise ..
    | with_reducible exact ends_protectedIn ..
    | with_reducible exact ends_runInsn ..
    | extract_lets
    | split
theorem ends_execRekey : ∀ q s, Ends (execRekey q s) := by
  intro q s
  unfold execRekey regCmd
  repeat' first
    | with_reducible exact ends_done _
    | with_reducible exact ends_orWait _ _
    | with_reducible exact ends_raise ..
    | with_reducible exact ends_protectedIn ..
    | with_reducible exact ends_runInsn ..
    | extract_lets
    | split
theorem ends_execReturnPkt : ∀ off data tagok s, Ends (execReturnPkt off data tagok s) := by
  intro off data tagok s
  unfold execReturnPkt
  repeat' first
    | with_reducible exact ends_done _
    | with_reducible exact ends_orWait _ _
    | with_reducible exact ends_raise ..
    | with_reducible exact ends_protectedIn ..
    | with_reducible exact ends_runInsn ..
    | extract_lets
    | split
theorem ends_execStencilRingWrite : ∀ s, Ends (execStencilRingWrite s) := by
  intro s
  unfold execStencilRingWrite
  with_reducible exact ends_done _
theorem ends_execTwnStnFreeWrite : ∀ q v s, Ends (execTwnStnFreeWrite q v s) := by
  intro q v s
  unfold execTwnStnFreeWrite regCmd
  repeat' first
    | with_reducible exact ends_done _
    | with_reducible exact ends_orWait _ _
    | with_reducible exact ends_raise ..
    | with_reducible exact ends_protectedIn ..
    | with_reducible exact ends_runInsn ..
    | extract_lets
    | split
theorem ends_execSnapFlip : ∀ s, Ends (execSnapFlip s) := by
  intro s
  unfold execSnapFlip
  with_reducible exact ends_done _
theorem ends_execGateTimeout : ∀ s, Ends (execGateTimeout s) := by
  intro s
  unfold execGateTimeout
  with_reducible exact ends_done _
theorem ends_execStageCopyComplete : ∀ s, Ends (execStageCopyComplete s) := by
  intro s
  unfold execStageCopyComplete
  with_reducible exact ends_done _
theorem ends_execTierBlock : ∀ t s, Ends (execTierBlock t s) := by
  intro t s
  unfold execTierBlock
  with_reducible exact ends_done _
theorem ends_execTierComplete : ∀ t s, Ends (execTierComplete t s) := by
  intro t s
  unfold execTierComplete
  with_reducible exact ends_done _
theorem ends_execTierFail : ∀ t cause s, Ends (execTierFail t cause s) := by
  intro t cause s
  unfold execTierFail
  with_reducible exact ends_done _
theorem ends_execTwnRcmdGo : ∀ q v s, Ends (execTwnRcmdGo q v s) := by
  intro q v s
  unfold execTwnRcmdGo regCmd
  repeat' first
    | with_reducible exact ends_done _
    | with_reducible exact ends_orWait _ _
    | with_reducible exact ends_raise ..
    | with_reducible exact ends_protectedIn ..
    | with_reducible exact ends_runInsn ..
    | extract_lets
    | split
theorem ends_execRestoreComplete : ∀ s, Ends (execRestoreComplete s) := by
  intro s
  unfold execRestoreComplete
  with_reducible exact ends_done _
theorem ends_execHawkInsert : ∀ s, Ends (execHawkInsert s) := by
  intro s
  unfold execHawkInsert
  with_reducible exact ends_done _
theorem ends_execHawkVerify : ∀ record s, Ends (execHawkVerify record s) := by
  intro record s
  unfold execHawkVerify
  with_reducible exact ends_done _
theorem ends_execHcpl : ∀ tag status data s, Ends (execHcpl tag status data s) := by
  intro tag status data s
  unfold execHcpl
  with_reducible exact ends_done _
theorem ends_execWearReadout : ∀ bytes worn s, Ends (execWearReadout bytes worn s) := by
  intro bytes worn s
  unfold execWearReadout
  with_reducible exact ends_done _
theorem ends_execHwkCtlRelease : ∀ q v s, Ends (execHwkCtlRelease q v s) := by
  intro q v s
  unfold execHwkCtlRelease regCmd
  repeat' first
    | with_reducible exact ends_done _
    | with_reducible exact ends_orWait _ _
    | with_reducible exact ends_raise ..
    | with_reducible exact ends_protectedIn ..
    | with_reducible exact ends_runInsn ..
    | extract_lets
    | split
theorem ends_execReleaseComplete : ∀ s, Ends (execReleaseComplete s) := by
  intro s
  unfold execReleaseComplete
  with_reducible exact ends_done _
theorem ends_execHawkSignalLoss : ∀ s, Ends (execHawkSignalLoss s) := by
  intro s
  unfold execHawkSignalLoss
  with_reducible exact ends_done _
theorem ends_execResetSourceAssert : ∀ r reason s, Ends (execResetSourceAssert r reason s) := by
  intro r reason s
  unfold execResetSourceAssert
  with_reducible exact ends_done _
theorem ends_execResetSourceRelease : ∀ r s, Ends (execResetSourceRelease r s) := by
  intro r s
  unfold execResetSourceRelease
  with_reducible exact ends_done _
theorem ends_execResetN : ∀ high s, Ends (execResetN high s) := by
  intro high s
  unfold execResetN
  with_reducible exact ends_done _
theorem ends_execTwinResetN : ∀ high s, Ends (execTwinResetN high s) := by
  intro high s
  unfold execTwinResetN
  with_reducible exact ends_done _
theorem ends_execSupplyUndervoltage : ∀ mv10 s, Ends (execSupplyUndervoltage mv10 s) := by
  intro mv10 s
  unfold execSupplyUndervoltage
  with_reducible exact ends_done _
theorem ends_execWarm : ∀ q s, Ends (execWarm q s) := by
  intro q s
  unfold execWarm regCmd
  repeat' first
    | with_reducible exact ends_done _
    | with_reducible exact ends_orWait _ _
    | with_reducible exact ends_raise ..
    | with_reducible exact ends_protectedIn ..
    | with_reducible exact ends_runInsn ..
    | extract_lets
    | split
theorem ends_execGanggo : ∀ q v s, Ends (execGanggo q v s) := by
  intro q v s
  unfold execGanggo regCmd
  repeat' first
    | with_reducible exact ends_done _
    | with_reducible exact ends_orWait _ _
    | with_reducible exact ends_raise ..
    | with_reducible exact ends_protectedIn ..
    | with_reducible exact ends_runInsn ..
    | extract_lets
    | split
theorem ends_execCdiego : ∀ q v s, Ends (execCdiego q v s) := by
  intro q v s
  unfold execCdiego regCmd
  repeat' first
    | with_reducible exact ends_done _
    | with_reducible exact ends_orWait _ _
    | with_reducible exact ends_raise ..
    | with_reducible exact ends_protectedIn ..
    | with_reducible exact ends_runInsn ..
    | extract_lets
    | split
theorem ends_execRstBlk : ∀ q d v s, Ends (execRstBlk q d v s) := by
  intro q d v s
  unfold execRstBlk regCmd
  repeat' first
    | with_reducible exact ends_done _
    | with_reducible exact ends_orWait _ _
    | with_reducible exact ends_raise ..
    | with_reducible exact ends_protectedIn ..
    | with_reducible exact ends_runInsn ..
    | extract_lets
    | split
theorem ends_execResetIdleReached : ∀ d idle s, Ends (execResetIdleReached d idle s) := by
  intro d idle s
  unfold execResetIdleReached
  with_reducible exact ends_done _
theorem ends_execRstRun : ∀ q d v s, Ends (execRstRun q d v s) := by
  intro q d v s
  unfold execRstRun regCmd
  repeat' first
    | with_reducible exact ends_done _
    | with_reducible exact ends_orWait _ _
    | with_reducible exact ends_raise ..
    | with_reducible exact ends_protectedIn ..
    | with_reducible exact ends_runInsn ..
    | extract_lets
    | split
theorem ends_execOptionPhase1End : ∀ s, Ends (execOptionPhase1End s) := by
  intro s
  unfold execOptionPhase1End
  with_reducible exact ends_done _
theorem ends_execOptionPhase2End : ∀ s, Ends (execOptionPhase2End s) := by
  intro s
  unfold execOptionPhase2End
  with_reducible exact ends_done _
theorem ends_execOptionPhase3End : ∀ failed s, Ends (execOptionPhase3End failed s) := by
  intro failed s
  unfold execOptionPhase3End
  with_reducible exact ends_done _
theorem ends_execRndUpdcmd : ∀ q s, Ends (execRndUpdcmd q s) := by
  intro q s
  unfold execRndUpdcmd regCmd
  repeat' first
    | with_reducible exact ends_done _
    | with_reducible exact ends_orWait _ _
    | with_reducible exact ends_raise ..
    | with_reducible exact ends_protectedIn ..
    | with_reducible exact ends_runInsn ..
    | extract_lets
    | split
theorem ends_execRenderUpdateDone : ∀ good s, Ends (execRenderUpdateDone good s) := by
  intro good s
  unfold execRenderUpdateDone
  with_reducible exact ends_done _
theorem ends_execSecArbCmd : ∀ q v s, Ends (execSecArbCmd q v s) := by
  intro q v s
  unfold execSecArbCmd sysCmd regCmd
  repeat' first
    | with_reducible exact ends_done _
    | with_reducible exact ends_orWait _ _
    | with_reducible exact ends_raise ..
    | with_reducible exact ends_protectedIn ..
    | with_reducible exact ends_runInsn ..
    | extract_lets
    | split
theorem ends_execArbCommitDone : ∀ s, Ends (execArbCommitDone s) := by
  intro s
  unfold execArbCommitDone
  with_reducible exact ends_done _
theorem ends_execSecMrext : ∀ q v s, Ends (execSecMrext q v s) := by
  intro q v s
  unfold execSecMrext sysCmd regCmd
  repeat' first
    | with_reducible exact ends_done _
    | with_reducible exact ends_orWait _ _
    | with_reducible exact ends_raise ..
    | with_reducible exact ends_protectedIn ..
    | with_reducible exact ends_runInsn ..
    | extract_lets
    | split
theorem ends_execSecAttCtl : ∀ q s, Ends (execSecAttCtl q s) := by
  intro q s
  unfold execSecAttCtl regCmd
  repeat' first
    | with_reducible exact ends_done _
    | with_reducible exact ends_orWait _ _
    | with_reducible exact ends_raise ..
    | with_reducible exact ends_protectedIn ..
    | with_reducible exact ends_runInsn ..
    | extract_lets
    | split
theorem ends_execAttestationDone : ∀ s, Ends (execAttestationDone s) := by
  intro s
  unfold execAttestationDone
  with_reducible exact ends_done _
theorem ends_execToken : ∀ jtag data s, Ends (execToken jtag data s) := by
  intro jtag data s
  unfold execToken
  with_reducible exact ends_done _
theorem ends_execSupplyWarn : ∀ mv10 s, Ends (execSupplyWarn mv10 s) := by
  intro mv10 s
  unfold execSupplyWarn
  with_reducible exact ends_done _
theorem ends_execSupplyRise45v : ∀ mv10 s, Ends (execSupplyRise45v mv10 s) := by
  intro mv10 s
  unfold execSupplyRise45v
  with_reducible exact ends_done _
theorem ends_execSupplyWarnRelease : ∀ s, Ends (execSupplyWarnRelease s) := by
  intro s
  unfold execSupplyWarnRelease
  with_reducible exact ends_done _
theorem ends_execWarningReturnStep : ∀ d s, Ends (execWarningReturnStep d s) := by
  intro d s
  unfold execWarningReturnStep
  with_reducible exact ends_done _
theorem ends_execPowerDemandEval : ∀ d est stack s, Ends (execPowerDemandEval d est stack s) := by
  intro d est stack s
  unfold execPowerDemandEval
  with_reducible exact ends_done _
theorem ends_execThermalRead : ∀ d temps s, Ends (execThermalRead d temps s) := by
  intro d temps s
  unfold execThermalRead
  with_reducible exact ends_done _
theorem ends_execPwrEnFall : ∀ s, Ends (execPwrEnFall s) := by
  intro s
  unfold execPwrEnFall
  with_reducible exact ends_done _
theorem ends_execPwrEnRise : ∀ s, Ends (execPwrEnRise s) := by
  intro s
  unfold execPwrEnRise
  with_reducible exact ends_done _
theorem ends_execPwrGoodRise : ∀ s, Ends (execPwrGoodRise s) := by
  intro s
  unfold execPwrGoodRise
  with_reducible exact ends_done _
theorem ends_execRefclkLoss : ∀ s, Ends (execRefclkLoss s) := by
  intro s
  unfold execRefclkLoss
  with_reducible exact ends_done _
theorem ends_execRefclkRestore : ∀ s, Ends (execRefclkRestore s) := by
  intro s
  unfold execRefclkRestore
  with_reducible exact ends_done _
theorem ends_execSensorSample : ∀ samples s, Ends (execSensorSample samples s) := by
  intro samples s
  unfold execSensorSample
  with_reducible exact ends_done _
theorem ends_execMcHang : ∀ s, Ends (execMcHang s) := by
  intro s
  unfold execMcHang
  with_reducible exact ends_done _
theorem ends_execMcWdcfgWrite : ∀ q v s, Ends (execMcWdcfgWrite q v s) := by
  intro q v s
  unfold execMcWdcfgWrite regCmd
  repeat' first
    | with_reducible exact ends_done _
    | with_reducible exact ends_orWait _ _
    | with_reducible exact ends_raise ..
    | with_reducible exact ends_protectedIn ..
    | with_reducible exact ends_runInsn ..
    | extract_lets
    | split
theorem ends_execMcWdkick : ∀ q v s, Ends (execMcWdkick q v s) := by
  intro q v s
  unfold execMcWdkick regCmd
  repeat' first
    | with_reducible exact ends_done _
    | with_reducible exact ends_orWait _ _
    | with_reducible exact ends_raise ..
    | with_reducible exact ends_protectedIn ..
    | with_reducible exact ends_runInsn ..
    | extract_lets
    | split
theorem ends_execWatchdogPrewarning : ∀ s, Ends (execWatchdogPrewarning s) := by
  intro s
  unfold execWatchdogPrewarning
  with_reducible exact ends_done _
theorem ends_execWatchdogExpiry : ∀ s, Ends (execWatchdogExpiry s) := by
  intro s
  unfold execWatchdogExpiry
  with_reducible exact ends_done _
theorem ends_execLogEntryWrite : ∀ whole s, Ends (execLogEntryWrite whole s) := by
  intro whole s
  unfold execLogEntryWrite
  with_reducible exact ends_done _
theorem ends_execSetEndpointId : ∀ b eid s, Ends (execSetEndpointId b eid s) := by
  intro b eid s
  unfold execSetEndpointId mcCmd
  with_reducible exact ends_done _
theorem ends_execGetEndpointId : ∀ b s, Ends (execGetEndpointId b s) := by
  intro b s
  unfold execGetEndpointId mcCmd
  with_reducible exact ends_done _
theorem ends_execGetEndpointUuid : ∀ b s, Ends (execGetEndpointUuid b s) := by
  intro b s
  unfold execGetEndpointUuid mcCmd
  with_reducible exact ends_done _
theorem ends_execGetMctpVersionSupport : ∀ b s, Ends (execGetMctpVersionSupport b s) := by
  intro b s
  unfold execGetMctpVersionSupport mcCmd
  with_reducible exact ends_done _
theorem ends_execGetMessageTypeSupport : ∀ b s, Ends (execGetMessageTypeSupport b s) := by
  intro b s
  unfold execGetMessageTypeSupport mcCmd
  with_reducible exact ends_done _
theorem ends_execSettid : ∀ b tid s, Ends (execSettid b tid s) := by
  intro b tid s
  unfold execSettid mcCmd
  with_reducible exact ends_done _
theorem ends_execGettid : ∀ b s, Ends (execGettid b s) := by
  intro b s
  unfold execGettid mcCmd
  with_reducible exact ends_done _
theorem ends_execGetpldmversion : ∀ b ty s, Ends (execGetpldmversion b ty s) := by
  intro b ty s
  unfold execGetpldmversion mcCmd
  with_reducible exact ends_done _
theorem ends_execGetpldmtypes : ∀ b s, Ends (execGetpldmtypes b s) := by
  intro b s
  unfold execGetpldmtypes mcCmd
  with_reducible exact ends_done _
theorem ends_execGetpldmcommands : ∀ b ty s, Ends (execGetpldmcommands b ty s) := by
  intro b ty s
  unfold execGetpldmcommands mcCmd
  with_reducible exact ends_done _
theorem ends_execGetsensorreading : ∀ b id s, Ends (execGetsensorreading b id s) := by
  intro b id s
  unfold execGetsensorreading mcCmd
  with_reducible exact ends_done _
theorem ends_execGetpdrrepositoryinfo : ∀ b s, Ends (execGetpdrrepositoryinfo b s) := by
  intro b s
  unfold execGetpdrrepositoryinfo mcCmd
  with_reducible exact ends_done _
theorem ends_execGetpdr : ∀ b handle s, Ends (execGetpdr b handle s) := by
  intro b handle s
  unfold execGetpdr mcCmd
  with_reducible exact ends_done _
theorem ends_execSeteventreceiver : ∀ b on eid s, Ends (execSeteventreceiver b on eid s) := by
  intro b on eid s
  unfold execSeteventreceiver mcCmd
  with_reducible exact ends_done _
theorem ends_execGeteventreceiver : ∀ b s, Ends (execGeteventreceiver b s) := by
  intro b s
  unfold execGeteventreceiver mcCmd
  with_reducible exact ends_done _
theorem ends_execEventmessagebuffersize : ∀ b size s, Ends (execEventmessagebuffersize b size s) := by
  intro b size s
  unfold execEventmessagebuffersize mcCmd
  with_reducible exact ends_done _
theorem ends_execEventRetry : ∀ s, Ends (execEventRetry s) := by
  intro s
  unfold execEventRetry
  with_reducible exact ends_done _
theorem ends_execQuerydeviceidentifiers : ∀ b s, Ends (execQuerydeviceidentifiers b s) := by
  intro b s
  unfold execQuerydeviceidentifiers mcCmd
  with_reducible exact ends_done _
theorem ends_execGetfirmwareparameters : ∀ b s, Ends (execGetfirmwareparameters b s) := by
  intro b s
  unfold execGetfirmwareparameters mcCmd
  with_reducible exact ends_done _
theorem ends_execRequestupdate : ∀ b piece s, Ends (execRequestupdate b piece s) := by
  intro b piece s
  unfold execRequestupdate mcCmd
  with_reducible exact ends_done _
theorem ends_execPasscomponenttable : ∀ b comp stamp s, Ends (execPasscomponenttable b comp stamp s) := by
  intro b comp stamp s
  unfold execPasscomponenttable updCmd mcCmd
  with_reducible exact ends_done _
theorem ends_execUpdatecomponent : ∀ b comp stamp size s, Ends (execUpdatecomponent b comp stamp size s) := by
  intro b comp stamp size s
  unfold execUpdatecomponent updCmd mcCmd
  with_reducible exact ends_done _
theorem ends_execFirmwareDataReceived : ∀ data s, Ends (execFirmwareDataReceived data s) := by
  intro data s
  unfold execFirmwareDataReceived
  with_reducible exact ends_done _
theorem ends_execUpdateVerify : ∀ good s, Ends (execUpdateVerify good s) := by
  intro good s
  unfold execUpdateVerify
  with_reducible exact ends_done _
theorem ends_execActivatefirmware : ∀ b selfContained s, Ends (execActivatefirmware b selfContained s) := by
  intro b selfContained s
  unfold execActivatefirmware updCmd mcCmd
  with_reducible exact ends_done _
theorem ends_execGetstatus : ∀ b s, Ends (execGetstatus b s) := by
  intro b s
  unfold execGetstatus mcCmd
  with_reducible exact ends_done _
theorem ends_execCancelupdatecomponent : ∀ b s, Ends (execCancelupdatecomponent b s) := by
  intro b s
  unfold execCancelupdatecomponent updCmd mcCmd
  with_reducible exact ends_done _
theorem ends_execCancelupdate : ∀ b s, Ends (execCancelupdate b s) := by
  intro b s
  unfold execCancelupdate updCmd mcCmd
  with_reducible exact ends_done _
theorem ends_execLogread : ∀ q count s, Ends (execLogread q count s) := by
  intro q count s
  unfold execLogread mailbox regCmd
  repeat' first
    | with_reducible exact ends_done _
    | with_reducible exact ends_orWait _ _
    | with_reducible exact ends_raise ..
    | with_reducible exact ends_protectedIn ..
    | with_reducible exact ends_runInsn ..
    | extract_lets
    | split
theorem ends_execCold : ∀ q reason s, Ends (execCold q reason s) := by
  intro q reason s
  unfold execCold mailbox regCmd
  repeat' first
    | with_reducible exact ends_done _
    | with_reducible exact ends_orWait _ _
    | with_reducible exact ends_raise ..
    | with_reducible exact ends_protectedIn ..
    | with_reducible exact ends_runInsn ..
    | extract_lets
    | split
theorem ends_execSensors : ∀ q s, Ends (execSensors q s) := by
  intro q s
  unfold execSensors mailbox regCmd
  repeat' first
    | with_reducible exact ends_done _
    | with_reducible exact ends_orWait _ _
    | with_reducible exact ends_raise ..
    | with_reducible exact ends_protectedIn ..
    | with_reducible exact ends_runInsn ..
    | extract_lets
    | split
theorem ends_execStmNextf : ∀ q s, Ends (execStmNextf q s) := by
  intro q s
  unfold execStmNextf regCmd
  repeat' first
    | with_reducible exact ends_done _
    | with_reducible exact ends_orWait _ _
    | with_reducible exact ends_raise ..
    | with_reducible exact ends_protectedIn ..
    | with_reducible exact ends_runInsn ..
    | extract_lets
    | split
theorem ends_execRegisterWrite : ∀ q addr data s, Ends (execRegisterWrite q addr data s) := by
  intro q addr data s
  unfold execRegisterWrite
  with_reducible exact ends_done _
theorem ends_execPassRetirement : ∀ c s, Ends (execPassRetirement c s) := by
  intro c s
  unfold execPassRetirement
  repeat' first
    | with_reducible exact ends_done _
    | with_reducible exact ends_orWait _ _
    | with_reducible exact ends_raise ..
    | with_reducible exact ends_protectedIn ..
    | with_reducible exact ends_runInsn ..
    | extract_lets
    | split
theorem ends_execHbmRetrainDone : ∀ st s, Ends (execHbmRetrainDone st s) := by
  intro st s
  unfold execHbmRetrainDone
  with_reducible exact ends_done _
theorem ends_execScrimPortRetrainDone : ∀ d s, Ends (execScrimPortRetrainDone d s) := by
  intro d s
  unfold execScrimPortRetrainDone
  with_reducible exact ends_done _
theorem ends_execTwinRstOutPulseEnd : ∀ s, Ends (execTwinRstOutPulseEnd s) := by
  intro s
  unfold execTwinRstOutPulseEnd
  with_reducible exact ends_done _
theorem ends_execStandbyRailDown : ∀ s, Ends (execStandbyRailDown s) := by
  intro s
  unfold execStandbyRailDown
  with_reducible exact ends_done _
theorem ends_execMcFirmwareSelection : ∀ s, Ends (execMcFirmwareSelection s) := by
  intro s
  unfold execMcFirmwareSelection
  with_reducible exact ends_done _
theorem ends_execPlatformEventAcknowledged : ∀ s, Ends (execPlatformEventAcknowledged s) := by
  intro s
  unfold execPlatformEventAcknowledged
  with_reducible exact ends_done _

/-- Every command answers a next state with ERR_HEALTH recomputed. -/
theorem ends_exec (i : Instr) (s : State) : Ends (exec i s) := by
  cases i with
  | add c gd ga gb => exact ends_execAdd c gd ga gb s
  | sub c gd ga gb => exact ends_execSub c gd ga gb s
  | and c gd ga gb => exact ends_execAnd c gd ga gb s
  | or c gd ga gb => exact ends_execOr c gd ga gb s
  | xor c gd ga gb => exact ends_execXor c gd ga gb s
  | andn c gd ga gb => exact ends_execAndn c gd ga gb s
  | slt c gd ga gb => exact ends_execSlt c gd ga gb s
  | sltu c gd ga gb => exact ends_execSltu c gd ga gb s
  | sll c gd ga gb => exact ends_execSll c gd ga gb s
  | srl c gd ga gb => exact ends_execSrl c gd ga gb s
  | sra c gd ga gb => exact ends_execSra c gd ga gb s
  | ror c gd ga gb => exact ends_execRor c gd ga gb s
  | slli c gd ga gb => exact ends_execSlli c gd ga gb s
  | srli c gd ga gb => exact ends_execSrli c gd ga gb s
  | srai c gd ga gb => exact ends_execSrai c gd ga gb s
  | rori c gd ga gb => exact ends_execRori c gd ga gb s
  | addw c gd ga gb => exact ends_execAddw c gd ga gb s
  | subw c gd ga gb => exact ends_execSubw c gd ga gb s
  | min c gd ga gb => exact ends_execMin c gd ga gb s
  | max c gd ga gb => exact ends_execMax c gd ga gb s
  | minu c gd ga gb => exact ends_execMinu c gd ga gb s
  | maxu c gd ga gb => exact ends_execMaxu c gd ga gb s
  | clz c gd ga gb => exact ends_execClz c gd ga gb s
  | ctz c gd ga gb => exact ends_execCtz c gd ga gb s
  | popc c gd ga gb => exact ends_execPopc c gd ga gb s
  | bswap c gd ga gb => exact ends_execBswap c gd ga gb s
  | sextb c gd ga gb => exact ends_execSextb c gd ga gb s
  | sexth c gd ga gb => exact ends_execSexth c gd ga gb s
  | sextw c gd ga gb => exact ends_execSextw c gd ga gb s
  | zextw c gd ga gb => exact ends_execZextw c gd ga gb s
  | addi c gd ga imm => exact ends_execAddi c gd ga imm s
  | andi c gd ga imm => exact ends_execAndi c gd ga imm s
  | ori c gd ga imm => exact ends_execOri c gd ga imm s
  | xori c gd ga imm => exact ends_execXori c gd ga imm s
  | slti c gd ga imm => exact ends_execSlti c gd ga imm s
  | sltiu c gd ga imm => exact ends_execSltiu c gd ga imm s
  | lui c gd imm => exact ends_execLui c gd imm s
  | mul c gd ga gb => exact ends_execMul c gd ga gb s
  | mulh c gd ga gb => exact ends_execMulh c gd ga gb s
  | mulhu c gd ga gb => exact ends_execMulhu c gd ga gb s
  | mulw c gd ga gb => exact ends_execMulw c gd ga gb s
  | div c gd ga gb => exact ends_execDiv c gd ga gb s
  | divu c gd ga gb => exact ends_execDivu c gd ga gb s
  | rem c gd ga gb => exact ends_execRem c gd ga gb s
  | remu c gd ga gb => exact ends_execRemu c gd ga gb s
  | fadd c gd ga gb dbl => exact ends_execFadd c gd ga gb dbl s
  | fsub c gd ga gb dbl => exact ends_execFsub c gd ga gb dbl s
  | fmul c gd ga gb dbl => exact ends_execFmul c gd ga gb dbl s
  | fdiv c gd ga gb dbl => exact ends_execFdiv c gd ga gb dbl s
  | fsqrt c gd ga gb dbl => exact ends_execFsqrt c gd ga gb dbl s
  | fma c gd ga gb dbl => exact ends_execFma c gd ga gb dbl s
  | fmin c gd ga gb dbl => exact ends_execFmin c gd ga gb dbl s
  | fmax c gd ga gb dbl => exact ends_execFmax c gd ga gb dbl s
  | feq c gd ga gb dbl => exact ends_execFeq c gd ga gb dbl s
  | flt c gd ga gb dbl => exact ends_execFlt c gd ga gb dbl s
  | fle c gd ga gb dbl => exact ends_execFle c gd ga gb dbl s
  | fcvtI c gd ga gb dbl => exact ends_execFcvtI c gd ga gb dbl s
  | fcvtF c gd ga gb dbl => exact ends_execFcvtF c gd ga gb dbl s
  | fcvtP c gd ga gb dbl => exact ends_execFcvtP c gd ga gb dbl s
  | ldb c gt ga sg disp => exact ends_execLdb c gt ga sg disp s
  | ldbu c gt ga sg disp => exact ends_execLdbu c gt ga sg disp s
  | ldh c gt ga sg disp => exact ends_execLdh c gt ga sg disp s
  | ldhu c gt ga sg disp => exact ends_execLdhu c gt ga sg disp s
  | ldw c gt ga sg disp => exact ends_execLdw c gt ga sg disp s
  | ldwu c gt ga sg disp => exact ends_execLdwu c gt ga sg disp s
  | ldd c gt ga sg disp => exact ends_execLdd c gt ga sg disp s
  | ldx c gt ga gb sg ctl => exact ends_execLdx c gt ga gb sg ctl s
  | stb c gt ga sg disp => exact ends_execStb c gt ga sg disp s
  | sth c gt ga sg disp => exact ends_execSth c gt ga sg disp s
  | stw c gt ga sg disp => exact ends_execStw c gt ga sg disp s
  | std c gt ga sg disp => exact ends_execStd c gt ga sg disp s
  | stx c gt ga gb sg ctl => exact ends_execStx c gt ga gb sg ctl s
  | ldAcq c gt ga gb sg ctl => exact ends_execLdAcq c gt ga gb sg ctl s
  | stRel c gt ga gb sg ctl => exact ends_execStRel c gt ga gb sg ctl s
  | atomSwap c gd ga gb sg ord dw => exact ends_execAtomSwap c gd ga gb sg ord dw s
  | atomAdd c gd ga gb sg ord dw => exact ends_execAtomAdd c gd ga gb sg ord dw s
  | atomAnd c gd ga gb sg ord dw => exact ends_execAtomAnd c gd ga gb sg ord dw s
  | atomOr c gd ga gb sg ord dw => exact ends_execAtomOr c gd ga gb sg ord dw s
  | atomXor c gd ga gb sg ord dw => exact ends_execAtomXor c gd ga gb sg ord dw s
  | atomSmax c gd ga gb sg ord dw => exact ends_execAtomSmax c gd ga gb sg ord dw s
  | atomSmin c gd ga gb sg ord dw => exact ends_execAtomSmin c gd ga gb sg ord dw s
  | atomUmax c gd ga gb sg ord dw => exact ends_execAtomUmax c gd ga gb sg ord dw s
  | atomUmin c gd ga gb sg ord dw => exact ends_execAtomUmin c gd ga gb sg ord dw s
  | cas c gd ga gb sg ord dw => exact ends_execCas c gd ga gb sg ord dw s
  | fenceLl c gd ga gb => exact ends_execFenceLl c gd ga gb s
  | fenceSs c gd ga gb => exact ends_execFenceSs c gd ga gb s
  | fenceFull c gd ga gb => exact ends_execFenceFull c gd ga gb s
  | fenceEng c gd ga gb => exact ends_execFenceEng c gd ga gb s
  | isync c gd ga gb => exact ends_execIsync c gd ga gb s
  | beq c ga gb disp => exact ends_execBeq c ga gb disp s
  | bne c ga gb disp => exact ends_execBne c ga gb disp s
  | blt c ga gb disp => exact ends_execBlt c ga gb disp s
  | bge c ga gb disp => exact ends_execBge c ga gb disp s
  | bltu c ga gb disp => exact ends_execBltu c ga gb disp s
  | bgeu c ga gb disp => exact ends_execBgeu c ga gb disp s
  | j c disp => exact ends_execJ c disp s
  | call c disp => exact ends_execCall c disp s
  | jr c gd ga gb => exact ends_execJr c gd ga gb s
  | callr c gd ga gb => exact ends_execCallr c gd ga gb s
  | loop c n gc disp => exact ends_execLoop c n gc disp s
  | movcR c g creg => exact ends_execMovcR c g creg s
  | movcW c g creg => exact ends_execMovcW c g creg s
  | statusWrite c g => exact ends_execStatusWrite c g s
  | tableBaseWrite c g creg => exact ends_execTableBaseWrite c g creg s
  | ptbWrite c g => exact ends_execPtbWrite c g s
  | loopRegWrite c g creg => exact ends_execLoopRegWrite c g creg s
  | vlWrite c g => exact ends_execVlWrite c g s
  | vtypeWrite c g => exact ends_execVtypeWrite c g s
  | fpflagsWrite c g => exact ends_execFpflagsWrite c g s
  | tcfgWrite c g creg => exact ends_execTcfgWrite c g creg s
  | movsg c g code => exact ends_execMovsg c g code s
  | movsgR c g code => exact ends_execMovsgR c g code s
  | callg c g code => exact ends_execCallg c g code s
  | retg c g code => exact ends_execRetg c g code s
  | retx c g code => exact ends_execRetx c g code s
  | brk c g code => exact ends_execBrk c g code s
  | wfi c g code => exact ends_execWfi c g code s
  | interruptDelivery c vec die => exact ends_execInterruptDelivery c vec die s
  | eventAccept c => exact ends_execEventAccept c s
  | vcfg c f => exact ends_execVcfg c f s
  | vcfgr c f => exact ends_execVcfgr c f s
  | vadd c f => exact ends_execVadd c f s
  | vsub c f => exact ends_execVsub c f s
  | vrsub c f => exact ends_execVrsub c f s
  | vand c f => exact ends_execVand c f s
  | vor c f => exact ends_execVor c f s
  | vxor c f => exact ends_execVxor c f s
  | vsll c f => exact ends_execVsll c f s
  | vsrl c f => exact ends_execVsrl c f s
  | vsra c f => exact ends_execVsra c f s
  | vmin c f => exact ends_execVmin c f s
  | vmax c f => exact ends_execVmax c f s
  | vminu c f => exact ends_execVminu c f s
  | vmaxu c f => exact ends_execVmaxu c f s
  | vmul c f => exact ends_execVmul c f s
  | vmulh c f => exact ends_execVmulh c f s
  | vmulhu c f => exact ends_execVmulhu c f s
  | vmacc c f => exact ends_execVmacc c f s
  | vsadd c f => exact ends_execVsadd c f s
  | vsaddu c f => exact ends_execVsaddu c f s
  | vssub c f => exact ends_execVssub c f s
  | vssubu c f => exact ends_execVssubu c f s
  | vmerge c f => exact ends_execVmerge c f s
  | vmv c f => exact ends_execVmv c f s
  | vfadd c f => exact ends_execVfadd c f s
  | vfsub c f => exact ends_execVfsub c f s
  | vfmul c f => exact ends_execVfmul c f s
  | vfdiv c f => exact ends_execVfdiv c f s
  | vfsqrt c f => exact ends_execVfsqrt c f s
  | vfma c f => exact ends_execVfma c f s
  | vfnma c f => exact ends_execVfnma c f s
  | vfmin c f => exact ends_execVfmin c f s
  | vfmax c f => exact ends_execVfmax c f s
  | vfabs c f => exact ends_execVfabs c f s
  | vfneg c f => exact ends_execVfneg c f s
  | vfcvtI c f => exact ends_execVfcvtI c f s
  | vfcvtF c f => exact ends_execVfcvtF c f s
  | vfcvtW c f => exact ends_execVfcvtW c f s
  | vfcvtN c f => exact ends_execVfcvtN c f s
  | vwmul c f => exact ends_execVwmul c f s
  | vwmulu c f => exact ends_execVwmulu c f s
  | vwmulsu c f => exact ends_execVwmulsu c f s
  | vwmacc c f => exact ends_execVwmacc c f s
  | vwmaccu c f => exact ends_execVwmaccu c f s
  | vwmaccsu c f => exact ends_execVwmaccsu c f s
  | vfwmul c f => exact ends_execVfwmul c f s
  | vfwma c f => exact ends_execVfwma c f s
  | vdot4 c f => exact ends_execVdot4 c f s
  | vdot4u c f => exact ends_execVdot4u c f s
  | vdot4su c f => exact ends_execVdot4su c f s
  | vfdot4 c f => exact ends_execVfdot4 c f s
  | vdot2 c f => exact ends_execVdot2 c f s
  | vdot2u c f => exact ends_execVdot2u c f s
  | vfdot2 c f => exact ends_execVfdot2 c f s
  | vcmpeq c f => exact ends_execVcmpeq c f s
  | vcmpne c f => exact ends_execVcmpne c f s
  | vcmplt c f => exact ends_execVcmplt c f s
  | vcmpltu c f => exact ends_execVcmpltu c f s
  | vcmple c f => exact ends_execVcmple c f s
  | vcmpleu c f => exact ends_execVcmpleu c f s
  | vcmpgt c f => exact ends_execVcmpgt c f s
  | vcmpgtu c f => exact ends_execVcmpgtu c f s
  | vfcmpeq c f => exact ends_execVfcmpeq c f s
  | vfcmplt c f => exact ends_execVfcmplt c f s
  | vfcmple c f => exact ends_execVfcmple c f s
  | vfcmpun c f => exact ends_execVfcmpun c f s
  | mand c f => exact ends_execMand c f s
  | mor c f => exact ends_execMor c f s
  | mxor c f => exact ends_execMxor c f s
  | mandn c f => exact ends_execMandn c f s
  | mnot c f => exact ends_execMnot c f s
  | mset c f => exact ends_execMset c f s
  | mpopc c f => exact ends_execMpopc c f s
  | mfirst c f => exact ends_execMfirst c f s
  | vget c f => exact ends_execVget c f s
  | vgetu c f => exact ends_execVgetu c f s
  | vput c f => exact ends_execVput c f s
  | vslideup c f => exact ends_execVslideup c f s
  | vslidedn c f => exact ends_execVslidedn c f s
  | vperm c f => exact ends_execVperm c f s
  | vredsum c f => exact ends_execVredsum c f s
  | vredmax c f => exact ends_execVredmax c f s
  | vredmin c f => exact ends_execVredmin c f s
  | vredmaxu c f => exact ends_execVredmaxu c f s
  | vredminu c f => exact ends_execVredminu c f s
  | vfredsum c f => exact ends_execVfredsum c f s
  | vfredmax c f => exact ends_execVfredmax c f s
  | vfredmin c f => exact ends_execVfredmin c f s
  | tvmov c f => exact ends_execTvmov c f s
  | vtmov c f => exact ends_execVtmov c f s
  | vld c f => exact ends_execVld c f s
  | vlds c f => exact ends_execVlds c f s
  | vldx c f => exact ends_execVldx c f s
  | vldff c f => exact ends_execVldff c f s
  | vldm c f => exact ends_execVldm c f s
  | vldr c f => exact ends_execVldr c f s
  | vldmr c f => exact ends_execVldmr c f s
  | vst c f => exact ends_execVst c f s
  | vsts c f => exact ends_execVsts c f s
  | vstx c f => exact ends_execVstx c f s
  | vstm c f => exact ends_execVstm c f s
  | vstr c f => exact ends_execVstr c f s
  | vstmr c f => exact ends_execVstmr c f s
  | vectorComplete c => exact ends_execVectorComplete c s
  | tmma c f => exact ends_execTmma c f s
  | tmmp c f => exact ends_execTmmp c f s
  | tpull c f => exact ends_execTpull c f s
  | tpush c f => exact ends_execTpush c f s
  | twipe c f => exact ends_execTwipe c f s
  | accSt c f => exact ends_execAccSt c f s
  | accLd c f => exact ends_execAccLd c f s
  | tileQueueOp d k => exact ends_execTileQueueOp d k s
  | bLoad c => exact ends_execBLoad c s
  | passStream d k rows task => exact ends_execPassStream d k rows task s
  | ftqPost d => exact ends_execFtqPost d s
  | gmm c f => exact ends_execGmm c f s
  | gaccOpen c f => exact ends_execGaccOpen c f s
  | gaccClose c f => exact ends_execGaccClose c f s
  | gangOpStart g => exact ends_execGangOpStart g s
  | runningSum g b p => exact ends_execRunningSum g b p s
  | gangOpComplete g busy => exact ends_execGangOpComplete g busy s
  | gangOpFail g => exact ends_execGangOpFail g s
  | gangNarrow g => exact ends_execGangNarrow g s
  | gngReadmit q g v => exact ends_execGngReadmit q g v s
  | gangReadmission g => exact ends_execGangReadmission g s
  | glzLd c f => exact ends_execGlzLd c f s
  | glzDrain c f => exact ends_execGlzDrain c f s
  | glazeQuarterRun c => exact ends_execGlazeQuarterRun c s
  | glzStat c f => exact ends_execGlzStat c f s
  | glzHst c f => exact ends_execGlzHst c f s
  | glzHld c f => exact ends_execGlzHld c f s
  | entryDone d e => exact ends_execEntryDone d e s
  | ftqCmdDiscard q d v => exact ends_execFtqCmdDiscard q d v s
  | trwEpochBump q v => exact ends_execTrwEpochBump q v s
  | epochDieAck d => exact ends_execEpochDieAck d s
  | epochRoundEnd => exact ends_execEpochRoundEnd s
  | fqFault d eng la ring write ptb => exact ends_execFqFault d eng la ring write ptb s
  | fqDeferredCreate => exact ends_execFqDeferredCreate s
  | fqHead q => exact ends_execFqHead q s
  | resolve q v => exact ends_execResolve q v s
  | abort q v => exact ends_execAbort q v s
  | cmd sid seq cmds => exact ends_execCmd sid seq cmds s
  | enable q sid => exact ends_execEnable q sid s
  | disable q sid => exact ends_execDisable q sid s
  | retry q sid => exact ends_execRetry q sid s
  | skip q sid => exact ends_execSkip q sid s
  | cancel q sid => exact ends_execCancel q sid s
  | cancelEnd sid => exact ends_execCancelEnd sid s
  | commandStart => exact ends_execCommandStart s
  | nop sid => exact ends_execNop sid s
  | launch sid => exact ends_execLaunch sid s
  | glaunch sid => exact ends_execGlaunch sid s
  | copy sid => exact ends_execCopy sid s
  | fill sid => exact ends_execFill sid s
  | copyFillComplete sid => exact ends_execCopyFillComplete sid s
  | wait sid => exact ends_execWait sid s
  | signal sid => exact ends_execSignal sid s
  | timed sid => exact ends_execTimed sid s
  | mark sid => exact ends_execMark sid s
  | snap sid => exact ends_execSnap sid s
  | fence sid => exact ends_execFence sid s
  | synOp q v => exact ends_execSynOp q v s
  | triggerFire n => exact ends_execTriggerFire n s
  | ttCmpWrite q n v => exact ends_execTtCmpWrite q n v s
  | ttCtlWrite q n v => exact ends_execTtCtlWrite q n v s
  | timedExpiry => exact ends_execTimedExpiry s
  | waitTimeout => exact ends_execWaitTimeout s
  | windowDeadline => exact ends_execWindowDeadline s
  | trwWq q d => exact ends_execTrwWq q d s
  | trwWdone q v => exact ends_execTrwWdone q v s
  | trwFlush q v => exact ends_execTrwFlush q v s
  | trwMfault q v => exact ends_execTrwMfault q v s
  | windowDispatch g => exact ends_execWindowDispatch g s
  | windowOpenDeferred => exact ends_execWindowOpenDeferred s
  | scatterMember w => exact ends_execScatterMember w s
  | hbmRead rd ru pa bad => exact ends_execHbmRead rd ru pa bad s
  | hbmWrite rd ru pa data poisoned bad => exact ends_execHbmWrite rd ru pa data poisoned bad s
  | patrolScrub pa bad => exact ends_execPatrolScrub pa bad s
  | ecsReadout st counts => exact ends_execEcsReadout st counts s
  | stackTempReadout st temp => exact ends_execStackTempReadout st temp s
  | pmapPend q j v => exact ends_execPmapPend q j v s
  | hbmMrgRun q st v => exact ends_execHbmMrgRun q st v s
  | marginTestDone st errs => exact ends_execMarginTestDone st errs s
  | tileStorePatrol d line bad => exact ends_execTileStorePatrol d line bad s
  | tileStoreFillDone d => exact ends_execTileStoreFillDone d s
  | scrimReplay e side seq => exact ends_execScrimReplay e side seq s
  | standbySwitch e => exact ends_execStandbySwitch e s
  | edgeDown e => exact ends_execEdgeDown e s
  | fifoPointerMismatch d unit queue entries => exact ends_execFifoPointerMismatch d unit queue entries s
  | responseTimeout r => exact ends_execResponseTimeout r s
  | orphanResponse d unit pa => exact ends_execOrphanResponse d unit pa s
  | errHead q d => exact ends_execErrHead q d s
  | linkSignalDetect l lanes => exact ends_execLinkSignalDetect l lanes s
  | linkTrainDone l good => exact ends_execLinkTrainDone l good s
  | linkAlignDone l rev pol => exact ends_execLinkAlignDone l rev pol s
  | linkParamDone l req rsp evt mgt => exact ends_execLinkParamDone l req rsp evt mgt s
  | linkStateTimeout l => exact ends_execLinkStateTimeout l s
  | linkRecovery l => exact ends_execLinkRecovery l s
  | linkRecoveryDone l => exact ends_execLinkRecoveryDone l s
  | linkRetrain l => exact ends_execLinkRetrain l s
  | agdLctlRetrain q => exact ends_execAgdLctlRetrain q s
  | agdLctlDis q v => exact ends_execAgdLctlDis q v s
  | flitReceive l bad fixed seqd fseq ack odd => exact ends_execFlitReceive l bad fixed seqd fseq ack odd s
  | nak l seq => exact ends_execNak l seq s
  | ackTimeoutReplay l => exact ends_execAckTimeoutReplay l s
  | lctl l req rsp evt mgt => exact ends_execLctl l req rsp evt mgt s
  | creditReturnSend l => exact ends_execCreditReturnSend l s
  | mwr tag addr ackreq data => exact ends_execMwr tag addr ackreq data s
  | mrd tag addr n => exact ends_execMrd tag addr n s
  | cpl tag status data => exact ends_execCpl tag status data s
  | mgmt data => exact ends_execMgmt data s
  | reset a b => exact ends_execReset a b s
  | timeExchangeStart => exact ends_execTimeExchangeStart s
  | tsrsp id t2 t3 => exact ends_execTsrsp id t2 t3 s
  | timeExchangeTimeout => exact ends_execTimeExchangeTimeout s
  | slewExpiry => exact ends_execSlewExpiry s
  | holdTimeout => exact ends_execHoldTimeout s
  | timePpsEdge => exact ends_execTimePpsEdge s
  | ppsLost => exact ends_execPpsLost s
  | twinPresentFall => exact ends_execTwinPresentFall s
  | twinPresentRise => exact ends_execTwinPresentRise s
  | hello version serial group => exact ends_execHello version serial group s
  | auth msg frag count total data => exact ends_execAuth msg frag count total data s
  | pairingRetry => exact ends_execPairingRetry s
  | mirw tag off data tagok => exact ends_execMirw tag off data tagok s
  | mack tag status tagok => exact ends_execMack tag status tagok s
  | hb state time tagok => exact ends_execHb state time tagok s
  | partnerLost => exact ends_execPartnerLost s
  | fenceTwin q => exact ends_execFenceTwin q s
  | fenceDelayed => exact ends_execFenceDelayed s
  | thaw q => exact ends_execThaw q s
  | rekey q => exact ends_execRekey q s
  | returnPkt off data tagok => exact ends_execReturnPkt off data tagok s
  | stencilRingWrite => exact ends_execStencilRingWrite s
  | twnStnFreeWrite q v => exact ends_execTwnStnFreeWrite q v s
  | snapFlip => exact ends_execSnapFlip s
  | gateTimeout => exact ends_execGateTimeout s
  | stageCopyComplete => exact ends_execStageCopyComplete s
  | tierBlock t => exact ends_execTierBlock t s
  | tierComplete t => exact ends_execTierComplete t s
  | tierFail t cause => exact ends_execTierFail t cause s
  | twnRcmdGo q v => exact ends_execTwnRcmdGo q v s
  | restoreComplete => exact ends_execRestoreComplete s
  | hawkInsert => exact ends_execHawkInsert s
  | hawkVerify record => exact ends_execHawkVerify record s
  | hcpl tag status data => exact ends_execHcpl tag status data s
  | wearReadout bytes worn => exact ends_execWearReadout bytes worn s
  | hwkCtlRelease q v => exact ends_execHwkCtlRelease q v s
  | releaseComplete => exact ends_execReleaseComplete s
  | hawkSignalLoss => exact ends_execHawkSignalLoss s
  | resetSourceAssert r reason => exact ends_execResetSourceAssert r reason s
  | resetSourceRelease r => exact ends_execResetSourceRelease r s
  | resetN high => exact ends_execResetN high s
  | twinResetN high => exact ends_execTwinResetN high s
  | supplyUndervoltage mv10 => exact ends_execSupplyUndervoltage mv10 s
  | warm q => exact ends_execWarm q s
  | ganggo q v => exact ends_execGanggo q v s
  | cdiego q v => exact ends_execCdiego q v s
  | rstBlk q d v => exact ends_execRstBlk q d v s
  | resetIdleReached d idle => exact ends_execResetIdleReached d idle s
  | rstRun q d v => exact ends_execRstRun q d v s
  | optionPhase1End => exact ends_execOptionPhase1End s
  | optionPhase2End => exact ends_execOptionPhase2End s
  | optionPhase3End failed => exact ends_execOptionPhase3End failed s
  | rndUpdcmd q => exact ends_execRndUpdcmd q s
  | renderUpdateDone good => exact ends_execRenderUpdateDone good s
  | secArbCmd q v => exact ends_execSecArbCmd q v s
  | arbCommitDone => exact ends_execArbCommitDone s
  | secMrext q v => exact ends_execSecMrext q v s
  | secAttCtl q => exact ends_execSecAttCtl q s
  | attestationDone => exact ends_execAttestationDone s
  | token jtag data => exact ends_execToken jtag data s
  | supplyWarn mv10 => exact ends_execSupplyWarn mv10 s
  | supplyRise45v mv10 => exact ends_execSupplyRise45v mv10 s
  | supplyWarnRelease => exact ends_execSupplyWarnRelease s
  | warningReturnStep d => exact ends_execWarningReturnStep d s
  | powerDemandEval d est stack => exact ends_execPowerDemandEval d est stack s
  | thermalRead d temps => exact ends_execThermalRead d temps s
  | pwrEnFall => exact ends_execPwrEnFall s
  | pwrEnRise => exact ends_execPwrEnRise s
  | pwrGoodRise => exact ends_execPwrGoodRise s
  | refclkLoss => exact ends_execRefclkLoss s
  | refclkRestore => exact ends_execRefclkRestore s
  | sensorSample samples => exact ends_execSensorSample samples s
  | mcHang => exact ends_execMcHang s
  | mcWdcfgWrite q v => exact ends_execMcWdcfgWrite q v s
  | mcWdkick q v => exact ends_execMcWdkick q v s
  | watchdogPrewarning => exact ends_execWatchdogPrewarning s
  | watchdogExpiry => exact ends_execWatchdogExpiry s
  | logEntryWrite whole => exact ends_execLogEntryWrite whole s
  | setEndpointId b eid => exact ends_execSetEndpointId b eid s
  | getEndpointId b => exact ends_execGetEndpointId b s
  | getEndpointUuid b => exact ends_execGetEndpointUuid b s
  | getMctpVersionSupport b => exact ends_execGetMctpVersionSupport b s
  | getMessageTypeSupport b => exact ends_execGetMessageTypeSupport b s
  | settid b tid => exact ends_execSettid b tid s
  | gettid b => exact ends_execGettid b s
  | getpldmversion b ty => exact ends_execGetpldmversion b ty s
  | getpldmtypes b => exact ends_execGetpldmtypes b s
  | getpldmcommands b ty => exact ends_execGetpldmcommands b ty s
  | getsensorreading b id => exact ends_execGetsensorreading b id s
  | getpdrrepositoryinfo b => exact ends_execGetpdrrepositoryinfo b s
  | getpdr b handle => exact ends_execGetpdr b handle s
  | seteventreceiver b on eid => exact ends_execSeteventreceiver b on eid s
  | geteventreceiver b => exact ends_execGeteventreceiver b s
  | eventmessagebuffersize b size => exact ends_execEventmessagebuffersize b size s
  | eventRetry => exact ends_execEventRetry s
  | querydeviceidentifiers b => exact ends_execQuerydeviceidentifiers b s
  | getfirmwareparameters b => exact ends_execGetfirmwareparameters b s
  | requestupdate b piece => exact ends_execRequestupdate b piece s
  | passcomponenttable b comp stamp => exact ends_execPasscomponenttable b comp stamp s
  | updatecomponent b comp stamp size => exact ends_execUpdatecomponent b comp stamp size s
  | firmwareDataReceived data => exact ends_execFirmwareDataReceived data s
  | updateVerify good => exact ends_execUpdateVerify good s
  | activatefirmware b selfContained => exact ends_execActivatefirmware b selfContained s
  | getstatus b => exact ends_execGetstatus b s
  | cancelupdatecomponent b => exact ends_execCancelupdatecomponent b s
  | cancelupdate b => exact ends_execCancelupdate b s
  | logread q count => exact ends_execLogread q count s
  | cold q reason => exact ends_execCold q reason s
  | sensors q => exact ends_execSensors q s
  | stmNextf q => exact ends_execStmNextf q s
  | registerWrite q addr data => exact ends_execRegisterWrite q addr data s
  | passRetirement c => exact ends_execPassRetirement c s
  | hbmRetrainDone st => exact ends_execHbmRetrainDone st s
  | scrimPortRetrainDone d => exact ends_execScrimPortRetrainDone d s
  | twinRstOutPulseEnd => exact ends_execTwinRstOutPulseEnd s
  | standbyRailDown => exact ends_execStandbyRailDown s
  | mcFirmwareSelection => exact ends_execMcFirmwareSelection s
  | platformEventAcknowledged => exact ends_execPlatformEventAcknowledged s

end Sys2Proof.Machine
end

