-- ==== Sys2Proof/Laws/Frame.lean ====
section
/-! SUPPORT. What reads leave unchanged: logging, sending packets, translating, reading memory and fetching change no byte of memory and
no core but for its caches and the interrupts that have reached it. -/

namespace Sys2Proof.Machine

open Sys2Proof

/-! ### The relation -/

theorem State.Keeps.refl (s : State) : s.Keeps s := ⟨rfl, rfl, rfl, rfl, fun _ => rfl⟩

/-- One part of the relation at a time: what holds of each core, and of the four other fields. -/
theorem State.Keeps.cores {s t : State} (h : s.Keeps t) (c : CoreId) : (t.core c).arch = (s.core c).arch := h.right.right.right.right c

theorem State.Keeps.trans {s t u : State} (h : s.Keeps t) (k : t.Keeps u) : s.Keeps u := by
  refine ⟨?_, ?_, ?_, ?_, fun c => by rw [k.cores, h.cores]⟩
  · rw [k.left, h.left]
  · rw [k.right.left, h.right.left]
  · rw [k.right.right.left, h.right.right.left]
  · rw [k.right.right.right.left, h.right.right.right.left]

theorem State.Keeps.byte {s t : State} (h : s.Keeps t) (a : Nat) : t.byte a = s.byte a := by rw [State.byte, h.1]; rfl

theorem State.Keeps.slot {s t : State} (h : s.Keeps t) (c : CoreId) : (t.core c).slot = (s.core c).slot :=
  (congrArg Core.slot (h.2.2.2.2 c) : (t.core c).arch.slot = (s.core c).arch.slot)
theorem State.Keeps.stepDue {s t : State} (h : s.Keeps t) (c : CoreId) : (t.core c).stepDue = (s.core c).stepDue :=
  (congrArg Core.stepDue (h.2.2.2.2 c) : (t.core c).arch.stepDue = (s.core c).arch.stepDue)

theorem State.Keeps.of {α : Type} {s t : State} {r : α × State} {a : α} (e : r = (a, t)) (h : s.Keeps r.2) : s.Keeps t := by
  subst e; exact h

/-- A core's caches replaced. -/
theorem State.keeps_setCore {s : State} {c : CoreId} {x : Core} (h : x.arch = (s.core c).arch) : s.Keeps (s.setCore c x) := by
  refine ⟨rfl, rfl, rfl, rfl, fun e => ?_⟩
  by_cases he : e = c
  · subst he; simpa using h
  · rw [State.core_setCore_ne _ _ he]

/-! ### Logging and packets -/

theorem State.keeps_setRegW (s : State) (d : Nat) (r : RegName) (i w : Nat) (v : Word) : s.Keeps (s.setRegW d r i w v) :=
  ⟨rfl, rfl, rfl, rfl, fun _ => rfl⟩

theorem State.keeps_setFld (s : State) (d : Nat) (r : RegName) (i hi lo v : Nat) : s.Keeps (s.setFld d r i hi lo v) :=
  s.keeps_setRegW ..

theorem State.keeps_satFld (s : State) (d : Nat) (r : RegName) (i hi lo n : Nat) : s.Keeps (s.satFld d r i hi lo n) :=
  s.keeps_setRegW ..

theorem State.keeps_sendIrq (s : State) (route die : Nat) : s.Keeps (s.sendIrq route die) := by
  unfold State.sendIrq
  dsimp only
  split <;> exact ⟨rfl, rfl, rfl, rfl, fun _ => rfl⟩

theorem State.keeps_mcLog (s : State) (kind sev die p0 p1 p2 : Nat) : s.Keeps (s.mcLog kind sev die p0 p1 p2) := by
  unfold State.mcLog
  dsimp only
  split
  · exact State.Keeps.trans (t := { s with mclog := { s.mclog with dropped := s.mclog.dropped + 1 } }) ⟨rfl, rfl, rfl, rfl, fun _ => rfl⟩
      (State.keeps_satFld ..)
  · exact ⟨rfl, rfl, rfl, rfl, fun _ => rfl⟩

theorem State.keeps_setReplace (s : State) : s.Keeps s.setReplace := by
  unfold State.setReplace
  split
  · exact .refl s
  · exact (s.keeps_setRegW ..).trans (State.keeps_mcLog ..)

theorem State.keeps_settle (s : State) : s.Keeps s.settle := by
  unfold State.settle
  dsimp only
  split
  · exact s.keeps_setReplace.trans (State.keeps_setRegW ..)
  · exact State.keeps_setRegW ..

theorem State.keeps_freeNat (s : State) : s.Keeps s.freeNat.2 := ⟨rfl, rfl, rfl, rfl, fun _ => rfl⟩
theorem State.keeps_freeBool (s : State) : s.Keeps s.freeBool.2 := ⟨rfl, rfl, rfl, rfl, fun _ => rfl⟩

theorem State.keeps_choose (s : State) (l : List Nat) : s.Keeps (s.choose l).2 := by
  unfold State.choose
  split <;> exact ⟨rfl, rfl, rfl, rfl, fun _ => rfl⟩

theorem State.keeps_errOrder (s : State) (x : Sparse (List Nat)) : s.Keeps { s with errOrder := x } :=
  ⟨rfl, rfl, rfl, rfl, fun _ => rfl⟩

theorem State.keeps_logErr (s : State) (die cls sev unit : Nat) (q : Req) (addr : Option Nat) (poison : Bool) (info : Nat) :
    s.Keeps (s.logErr die cls sev unit q addr poison info) := by
  unfold State.logErr
  extract_lets s1 dw0 a order s2 s3 s4
  have h1 : s.Keeps s1 := by
    unfold s1; split
    · exact State.keeps_satFld ..
    · exact .refl s
  have h2 : s1.Keeps s2 := by
    have hc := s1.keeps_choose ((List.range 64).filter fun i => !order.contains i)
    unfold s2
    split
    · rename_i h; rw [h] at hc; exact hc.trans (State.keeps_satFld ..)
    · rename_i h
      rw [h] at hc
      refine .trans ?_ (State.keeps_setFld ..)
      refine .trans ?_ (State.keeps_errOrder _ _)
      exact (((hc.trans (State.keeps_setRegW ..)).trans (State.keeps_setRegW ..)).trans (State.keeps_setRegW ..)).trans
        (State.keeps_setRegW ..)
  have h3 : s2.Keeps s3 := State.keeps_mcLog ..
  have h4 : s3.Keeps s4 := by
    unfold s4; split
    · exact State.keeps_sendIrq ..
    · exact .refl s3
  have h := ((h1.trans h2).trans h3).trans h4
  split
  · exact h.trans (State.keeps_setReplace _)
  · exact h

theorem State.keeps_errResponse (s : State) (gen code unit : Nat) (q : Req) (pa : Nat) : s.Keeps (s.errResponse gen code unit q pa) :=
  s.keeps_logErr ..

theorem State.keeps_poisonUsed (s : State) (die unit : Nat) (q : Req) (pa info : Nat) : s.Keeps (s.poisonUsed die unit q pa info) :=
  s.keeps_logErr ..

theorem State.keeps_setLink (s : State) (l : LinkId) (k : Link) : s.Keeps (s.setLink l k) := by
  unfold State.setLink
  split <;> exact ⟨rfl, rfl, rfl, rfl, fun _ => rfl⟩

theorem State.keeps_send (s : State) (l : LinkId) (p : Pkt) : s.Keeps (s.send l p) := s.keeps_setLink ..

/-! ### Packets on the Scrim -/

theorem State.keeps_sent (s : State) (x : Sparse (Nat × Nat)) : s.Keeps { s with sent := x } := ⟨rfl, rfl, rfl, rfl, fun _ => rfl⟩
theorem State.keeps_waits (s : State) (x : List Waiting) : s.Keeps { s with waits := x } := ⟨rfl, rfl, rfl, rfl, fun _ => rfl⟩
theorem State.keeps_flight (s : State) (x : List Flight) : s.Keeps { s with flight := x } := ⟨rfl, rfl, rfl, rfl, fun _ => rfl⟩

theorem State.keeps_pendIrq (s : State) (c : CoreId) (vec die : Nat) : s.Keeps (s.pendIrq c vec die) := by
  unfold State.pendIrq
  split
  · exact State.keeps_setCore rfl
  next p _ =>
    have hc := s.keeps_choose [p.die, die]
    split
    next e => exact State.Keeps.trans (.of e hc) (State.keeps_setCore rfl)
    next e => exact .of e hc

/-- Interrupts that reach their cores change nothing but what is pending there. -/
theorem State.keeps_arrive (s : State) (src dst : Nat) : s.Keeps (s.arrive src dst) := by
  unfold State.arrive
  generalize s.flight.filter (fun f => f.die == src && f.core / 4 == dst) = l
  induction l generalizing s with
  | nil => exact .refl s
  | cons f fs ih =>
    rw [List.foldl_cons]
    refine State.Keeps.trans ?_ (ih _)
    dsimp only
    split
    · exact (s.keeps_flight _).trans (State.keeps_pendIrq ..)
    · exact s.keeps_flight _

theorem State.keeps_travel (s : State) (src dst : Nat) : s.Keeps (s.travel src dst) := by
  unfold State.travel
  split
  · exact .refl s
  · exact ((s.keeps_arrive src dst).trans (State.keeps_sent ..)).trans (State.keeps_sent ..)

theorem State.keeps_noteWait (s : State) (q : Req) (pa : Nat) : s.Keeps (s.noteWait q pa) := by
  unfold State.noteWait
  split
  · exact .refl s
  · exact s.keeps_waits _

theorem State.keeps_endWait (s : State) (q : Req) (pa : Nat) : s.Keeps (s.endWait q pa) := s.keeps_waits _

theorem State.keeps_rspLost (s : State) (q : Req) (pa : Nat) : s.Keeps (s.rspLost q pa) := s.keeps_logErr ..

theorem State.keeps_refuse (s : State) (q : Req) (code die unit pa : Nat) : s.Keeps (s.refuse q code die unit pa).2 := by
  unfold State.refuse
  dsimp only
  split
  · exact (s.keeps_errResponse ..).trans (State.keeps_rspLost ..)
  · exact s.keeps_errResponse ..

theorem State.keeps_refused {α : Type} (s : State) (q : Req) (code die unit pa : Nat) :
    s.Keeps (s.refused (α := α) q code die unit pa).2 := s.keeps_refuse ..

theorem State.keeps_atHome (s : State) (q : Req) (pa : Nat) : s.Keeps (s.atHome q pa).2 := by
  unfold State.atHome
  split
  · exact (s.keeps_endWait q pa).trans (State.keeps_refused ..)
  · dsimp only
    split
    · exact (s.keeps_endWait q pa).trans (State.keeps_refused ..)
    · split
      · exact s.keeps_noteWait ..
      · exact (s.keeps_endWait q pa).trans (State.keeps_travel ..)

/-! ### Reads at their homes -/

theorem State.keeps_asRead (s : State) (pa : Nat) (bs : List Byte) : s.Keeps (s.asRead pa bs).2 := by
  unfold State.asRead
  split
  · exact .refl s
  · generalize hr : (([] : List Byte), s) = r
    have h : s.Keeps r.2 := hr ▸ State.Keeps.refl s
    clear hr
    induction List.range bs.length generalizing r with
    | nil => exact h
    | cons i is ih =>
      rw [List.foldl_cons]
      refine ih _ ?_
      split
      · exact h.trans r.2.keeps_freeNat
      · exact h

theorem State.keeps_plainRead (s : State) (q : Req) (pa n : Nat) : s.Keeps (s.plainRead q pa n).2 := by
  have h := s.keeps_atHome q pa
  unfold State.plainRead
  split
  next s1 e =>
    have h1 : s.Keeps s1 := .of e h
    split
    · exact h1.trans (State.keeps_rspLost ..)
    · split
      · exact h1
      · exact h1.trans (State.keeps_asRead ..)
  next e => exact .of e h
  next e => exact .of e h
  next e => exact .of e h

theorem State.keeps_readPieces (s : State) (q : Req) (ps : List Piece) : s.Keeps (s.readPieces q ps).2 := by
  induction ps generalizing s with
  | nil => exact .refl s
  | cons p ps ih =>
    unfold State.readPieces
    split
    next bs s1 h =>
      have h1 : s.Keeps s1 := .of h (s.keeps_plainRead ..)
      split
      next r s2 h => exact h1.trans (.of h (ih s1))
      next => exact h1.trans (ih s1)
    next => exact s.keeps_plainRead ..

theorem State.keeps_readWords (s : State) (q : Req) (pa n : Nat) : s.Keeps (s.readWords q pa n).2 := by
  have h := s.keeps_readPieces q (lines pa (8 * n))
  unfold State.readWords
  split <;> exact .of ‹_› h

theorem State.keeps_tableHome (s : State) (q : Req) (pa : Nat) : s.Keeps (s.tableHome q pa).2 := by
  have h := s.keeps_plainRead q pa 8
  unfold State.tableHome
  split
  · exact .refl s
  · split
    next h1 => exact .of h1 h
    next h1 => exact .of h1 h
    next h1 => exact State.Keeps.trans (.of h1 h) (State.keeps_poisonUsed ..)
    next h1 => exact .of h1 h

theorem State.keeps_timedOut {s t : State} {q : Req} {pa : Nat} (h : s.timedOut q pa = some t) : s.Keeps t := by
  unfold State.timedOut at h
  split at h
  · cases h; exact s.keeps_waits _
  · cases h

/-! ### Host windows -/

theorem State.keeps_drds (s : State) (l : List Drd) : s.Keeps { s with drds := l } := ⟨rfl, rfl, rfl, rfl, fun _ => rfl⟩

theorem State.keeps_issueDrd (s : State) (d : Drd) : s.Keeps (s.issueDrd d) := by
  have hc := s.keeps_choose s.freeDrdTags
  unfold State.issueDrd
  split
  next e => exact .of e hc
  next t s1 e =>
    refine .trans ?_ (State.keeps_send _ _ _)
    exact State.Keeps.trans (.of e hc) (s1.keeps_drds _)

theorem State.keeps_issueDrds (s : State) (own : Own) : s.Keeps (s.issueDrds own) := by
  unfold State.issueDrds
  generalize s.drds.filter (fun d => d.own == own && d.held && d.ans.isNone) = hs
  induction hs generalizing s with
  | nil => exact .refl s
  | cons h hs ih =>
    rw [List.foldl_cons]
    exact (s.keeps_issueDrd h).trans (ih (s.issueDrd h))

theorem State.keeps_hostAsk {s t : State} {own : Own} {q : Req} {ps : List Piece} (h : s.hostAsk own q ps = .inr t) : s.Keeps t := by
  unfold State.hostAsk at h
  split at h
  · cases h; exact s.keeps_issueDrds own
  · split at h
    · cases h
    · cases h; exact (s.keeps_drds _).trans (State.keeps_issueDrds ..)

theorem State.keeps_hostFetch (s : State) (own : Own) (q : Req) (lim pa n : Nat) : s.Keeps (s.hostFetch own q lim pa n).2 := by
  unfold State.hostFetch
  extract_lets ps
  split
  · exact s.keeps_errResponse ..
  next s1 e =>
    have h := State.keeps_hostAsk e
    split
    · exact h.trans (State.keeps_errResponse ..)
    · exact h

theorem State.keeps_used {α : Type} {s : State} (own : Own) (ps : List Piece) (r : Acc α × State) (h : s.Keeps r.2) :
    s.Keeps (Acc.used own ps r).2 := by
  unfold Acc.used
  split
  · exact h
  · exact h.trans (State.keeps_drds _ _)

theorem State.keeps_devAsk (s : State) (q : Req) (own : Own) (lim : Nat) (ps : List Piece) : s.Keeps (s.devAsk q own lim ps).2 := by
  unfold State.devAsk
  generalize true = b
  induction ps generalizing s b with
  | nil => exact .refl s
  | cons p ps ih =>
    rw [List.foldl_cons]
    refine State.Keeps.trans ?_ (ih _ _)
    split
    · extract_lets parts
      split
      next e => exact State.keeps_hostAsk e
      next => exact .refl s
    · exact .refl s

/-! ### A core's reads -/

theorem State.keeps_addLine (s : State) (n : Nat) (l : Sparse (List Byte)) (k : Nat) (v : List Byte) : s.Keeps (s.addLine n l k v).2 := by
  have hc := s.keeps_choose (l.map (·.1))
  unfold State.addLine
  split
  · exact .refl s
  · split <;> exact .of ‹_› hc

theorem State.keeps_fillLine (s : State) (c : CoreId) (pa : Nat) : s.Keeps (s.fillLine c pa) := by
  unfold State.fillLine
  dsimp only
  split
  · exact .refl s
  · exact (s.keeps_addLine ..).trans (State.keeps_setCore rfl)

theorem State.keeps_missRead (s : State) (c : CoreId) (pa n : Nat) : s.Keeps (s.missRead c pa n).2 := by
  unfold State.missRead
  split
  next bs s1 e =>
    have h1 : s.Keeps s1 := .of e (s.keeps_plainRead ..)
    dsimp only
    split
    · exact (h1.trans s1.keeps_freeBool).trans (State.keeps_fillLine ..)
    · exact h1.trans s1.keeps_freeBool
  next => exact s.keeps_plainRead ..

theorem State.keeps_cacheRead (s : State) (c : CoreId) (pa n : Nat) : s.Keeps (s.cacheRead c pa n).2 := by
  unfold State.cacheRead
  split
  · extract_lets use
    have hu : s.Keeps use.2 := s.keeps_freeBool
    clear_value use
    split
    · exact hu.trans (State.keeps_asRead ..)
    · have hd : use.2.Keeps (use.2.updCore c fun x => x.dropLine pa) := State.keeps_setCore rfl
      exact (hu.trans hd).trans (State.keeps_missRead ..)
  · exact s.keeps_missRead ..

theorem State.keeps_tableCore (s : State) (c : CoreId) (pa : Nat) : s.Keeps (s.tableCore c pa).2 := by
  have h := s.keeps_cacheRead c pa 8
  unfold State.tableCore
  split
  · exact .refl s
  · split
    next bs s1 e =>
      have h1 : s.Keeps s1 := .of e h
      dsimp only
      split
      · exact h1
      · exact h1.trans (State.keeps_tableHome ..)
    next e => exact .of e h
    next e => exact State.Keeps.trans (.of e h) (State.keeps_poisonUsed ..)
    next e => exact .of e h

theorem State.keeps_walkCore (s : State) (c : CoreId) (tbase la base : Nat) (l : List Nat) : s.Keeps (s.walkCore c tbase la base l).2 := by
  induction l generalizing s base with
  | nil => exact .refl s
  | cons lvl ls ih =>
    have h := s.keeps_tableCore c (base + 8 * tableIdx lvl la)
    unfold State.walkCore
    split
    next e => exact .of e h
    next e => exact .of e h
    next e => exact .of e h
    next e s1 he =>
      have h1 : s.Keeps s1 := .of he h
      repeat' split
      · exact h1
      · exact h1
      · exact h1
      · refine .trans ?_ (ih _ _)
        exact h1.trans (State.keeps_setCore rfl)

theorem State.keeps_pointer (s : State) (c : CoreId) (tbase la lvl : Nat) : s.Keeps (s.pointer c tbase la lvl).2 := by
  unfold State.pointer
  split
  · exact .refl s
  · dsimp only
    split
    · exact s.keeps_freeBool
    · exact s.keeps_freeBool.trans (State.keeps_setCore rfl)

theorem State.keeps_walkFrom (s : State) (c : CoreId) (tbase la : Nat) : s.Keeps (s.walkFrom c tbase la).2 := by
  have h := s.keeps_pointer c tbase la 2
  unfold State.walkFrom
  split
  next e => exact State.Keeps.trans (.of e h) (State.keeps_walkCore ..)
  next s1 e =>
    have h1 : s.Keeps s1 := .of e h
    have k := s1.keeps_pointer c tbase la 1
    split
    next e => exact (h1.trans (.of e k)).trans (State.keeps_walkCore ..)
    next e => exact (h1.trans (.of e k)).trans (State.keeps_walkCore ..)

theorem State.keeps_coreLeaf (s : State) (c : CoreId) (tbase la : Nat) : s.Keeps (s.coreLeaf c tbase la).2 := by
  unfold State.coreLeaf
  split
  · exact .refl s
  · dsimp only
    split
    · exact s.keeps_freeBool
    · exact s.keeps_freeBool.trans (State.keeps_setCore rfl)

theorem State.keeps_xlateCore (s : State) (c : CoreId) (ring la : Nat) (k : AKind) : s.Keeps (s.xlateCore c ring la k).2 := by
  unfold State.xlateCore
  extract_lets ptb tbase fin
  split
  · split <;> exact .refl s
  · have h := s.keeps_coreLeaf c tbase la
    split
    next e => exact .of e h
    next s1 e =>
      have h1 : s.Keeps s1 := .of e h
      have w := s1.keeps_walkFrom c tbase la
      split
      next e => exact (h1.trans (.of e w)).trans (State.keeps_setCore rfl)
      next e => exact h1.trans (.of e w)
      next e => exact h1.trans (.of e w)

theorem State.keeps_xlateParts (s : State) (c : CoreId) (sg : Nat) (k : AKind) (ring : Nat) (o : Word) (ps : List Piece) :
    s.Keeps (s.xlateParts c sg k ring o ps).2 := by
  induction ps generalizing s o with
  | nil => exact .refl s
  | cons p ps ih =>
    have h := s.keeps_xlateCore c ring p.pa k
    unfold State.xlateParts
    split
    next e => exact .of e h
    next e => exact .of e h
    next pa s1 e =>
      have h1 : s.Keeps s1 := .of e h
      split
      next e => exact h1.trans (.of e (ih ..))
      next => exact h1.trans (ih ..)

theorem State.keeps_checkAccess (s : State) (c : CoreId) (g : SegReg) (sg : Nat) (k : AKind) (ring : Nat) (o : Word) (n : Nat) :
    s.Keeps (s.checkAccess c g sg k ring o n).2 := by
  unfold State.checkAccess
  split
  · exact .refl s
  · exact s.keeps_xlateParts ..

theorem State.keeps_dataAccess (s : State) (c : CoreId) (sg : Sreg) (k : AKind) (o : Word) (n : Nat) :
    s.Keeps (s.dataAccess c sg k o n).2 := s.keeps_checkAccess ..

theorem State.keeps_fqSync (s : State) : s.Keeps s.fqSync := s.keeps_setRegW ..

theorem State.keeps_rdFqHead (s : State) : s.Keeps s.rdFqHead.2 := by
  unfold State.rdFqHead
  split
  · exact .refl s
  · exact (s.keeps_setRegW ..).trans (State.keeps_fqSync _)

theorem State.keeps_rdErrHead (s : State) (d : Nat) : s.Keeps (s.rdErrHead d).2 := by
  unfold State.rdErrHead
  split
  · exact .refl s
  · exact .trans ⟨rfl, rfl, rfl, rfl, fun _ => rfl⟩ (State.keeps_setFld ..)

theorem State.keeps_rdNextf (s : State) : s.Keeps s.rdNextf.2 := by
  unfold State.rdNextf
  split <;> exact ⟨rfl, rfl, rfl, rfl, fun _ => rfl⟩

theorem State.keeps_trowel (s : State) (x : Trowel) : s.Keeps { s with trowel := x } := ⟨rfl, rfl, rfl, rfl, fun _ => rfl⟩

theorem State.keeps_trwSync (s : State) : s.Keeps s.trwSync := s.keeps_setRegW ..

theorem State.keeps_setRun (s : State) (r : StreamRun) : s.Keeps (s.setRun r) := by
  unfold State.setRun
  exact .trans (s.keeps_trowel _) (State.keeps_trwSync _)

theorem State.keeps_wqnSync (s : State) (d : Nat) : s.Keeps (s.wqnSync d) := s.keeps_setRegW ..

theorem State.keeps_rdWq (s : State) (d : Nat) : s.Keeps (s.rdWq d).2 := by
  unfold State.rdWq
  split
  · exact .refl s
  · refine .trans ?_ (State.keeps_wqnSync _ _)
    dsimp only
    split
    · exact .trans (s.keeps_trowel _) (State.keeps_setRun _ _)
    · exact s.keeps_trowel _

theorem State.keeps_rdScrBytes (s : State) (d side : Nat) (r : RegName) : s.Keeps (s.rdScrBytes d side r).2 := by
  unfold State.rdScrBytes
  extract_lets x more n
  have h : s.Keeps n.2 := by
    unfold n; split
    · exact s.keeps_freeNat
    · exact .refl s
  exact (h.trans (State.keeps_sent ..)).trans (State.keeps_setRegW ..)

theorem State.keeps_readReg (s : State) (r : RegRef) : s.Keeps (s.readReg r).2 := by
  unfold State.readReg
  split
  · exact .refl s
  iterate 4
    split
    · exact s.keeps_rdScrBytes ..
  split
  · exact s.keeps_rdErrHead ..
  split
  · exact s.keeps_rdNextf
  split
  · exact s.keeps_rdFqHead
  split
  · exact s.keeps_rdWq ..
  · exact .refl s

theorem State.keeps_ctrlRead (s : State) (q : Src) (pa n : Nat) : s.Keeps (s.ctrlRead q pa n).2 := by
  unfold State.ctrlRead
  extract_lets rq
  split
  · exact s.keeps_noteWait ..
  · have h := s.keeps_endWait rq pa
    split
    · exact h.trans (State.keeps_refused ..)
    · extract_lets x
      have k : s.Keeps x.2 := (h.trans (State.keeps_travel ..)).trans (State.keeps_readReg ..)
      split
      · exact k.trans (State.keeps_rspLost ..)
      · exact k

theorem State.keeps_loadPart (s : State) (c : CoreId) (fresh crossing : Bool) (p : Piece) :
    s.Keeps (s.loadPart c fresh crossing p).2 := by
  unfold State.loadPart
  split
  · split
    · exact s.keeps_rspLost ..
    · exact s.keeps_hostFetch ..
  · exact s.keeps_refused ..
  · have h := s.keeps_ctrlRead (.core c) p.pa p.n
    split
    · exact s.keeps_refused ..
    · split <;> exact .of ‹_› h
  · split
    · exact s.keeps_plainRead ..
    · exact s.keeps_cacheRead ..

theorem State.keeps_loadParts (s : State) (c : CoreId) (fresh crossing : Bool) (ps : List Piece) :
    s.Keeps (s.loadParts c fresh crossing ps).2 := by
  induction ps generalizing s with
  | nil => exact .refl s
  | cons p ps ih =>
    have h := s.keeps_loadPart c fresh crossing p
    unfold State.loadParts
    split
    next bs s1 e =>
      have h1 : s.Keeps s1 := .of e h
      split
      next e => exact h1.trans (.of e (ih s1))
      next => exact h1.trans (ih s1)
    next => exact h

theorem State.keeps_routeFail {s t : State} {c : CoreId} {crossing : Bool} {ps : List Piece} {n : Nat}
    (h : s.routeFail c crossing ps = some (n, t)) : s.Keeps t := by
  induction ps with
  | nil => cases h
  | cons p ps ih =>
    unfold State.routeFail at h
    split at h
    next s1 e => cases h; exact State.keeps_timedOut e
    next =>
      split at h
      · exact .of (Option.some.inj h) (s.keeps_refuse ..)
      · exact ih h

theorem State.keeps_noteBusy (s : State) (q : Req) (ps : List Piece) : s.Keeps (s.noteBusy q ps) := by
  unfold State.noteBusy
  split
  · exact s.keeps_noteWait ..
  · exact .refl s

theorem State.keeps_loadBytes (s : State) (c : CoreId) (fresh : Bool) (ps : List Piece) : s.Keeps (s.loadBytes c fresh ps).2 := by
  unfold State.loadBytes
  extract_lets crossing asked busy
  split
  next e => exact State.keeps_routeFail e
  next =>
    have h : s.Keeps asked.2 := s.keeps_devAsk ..
    split
    · exact State.keeps_used _ _ _ (h.trans (State.keeps_loadParts ..))
    · dsimp only
      split
      · exact h.trans (State.keeps_noteBusy ..)
      · exact h

theorem State.keeps_corePoison (s : State) (c : CoreId) (ps : List Piece) (code : Nat) : s.Keeps (s.corePoison c ps code) := by
  unfold State.corePoison
  dsimp only
  split
  · exact s.keeps_poisonUsed ..
  · exact .refl s

/-- A scalar read of data changes nothing but caches and logs. -/
theorem State.keeps_readData (s : State) (c : CoreId) (sg : Sreg) (k : AKind) (o : Word) (n : Nat) :
    s.Keeps (s.readData c sg k o n).2 := by
  have h := s.keeps_dataAccess c sg k o n
  unfold State.readData
  split
  next e => exact .of e h
  next e => exact .of e h
  next ps s1 e =>
    have h1 : s.Keeps s1 := .of e h
    have h2 := s1.keeps_loadBytes c false ps
    split
    · exact h1
    · split
      next e => exact h1.trans (.of e h2)
      next e => exact h1.trans (.of e h2)
      next e => exact (h1.trans (.of e h2)).trans (State.keeps_corePoison ..)
      next e => exact h1.trans (.of e h2)

/-! ### The fetch -/

theorem State.keeps_fillCode (s : State) (c : CoreId) (pa : Nat) : s.Keeps (s.fillCode c pa) := by
  unfold State.fillCode
  dsimp only
  split
  · exact .refl s
  · exact (s.keeps_addLine ..).trans (State.keeps_setCore rfl)

theorem State.keeps_missCode (s : State) (c : CoreId) (pa n : Nat) : s.Keeps (s.missCode c pa n).2 := by
  unfold State.missCode
  split
  next bs s1 e =>
    have h1 : s.Keeps s1 := .of e (s.keeps_plainRead ..)
    dsimp only
    split
    · exact (h1.trans s1.keeps_freeBool).trans (State.keeps_fillCode ..)
    · exact h1.trans s1.keeps_freeBool
  next => exact s.keeps_plainRead ..

theorem State.keeps_codeRead (s : State) (c : CoreId) (pa n : Nat) : s.Keeps (s.codeRead c pa n).2 := by
  unfold State.codeRead
  split
  · extract_lets use
    have hu : s.Keeps use.2 := s.keeps_freeBool
    clear_value use
    split
    · exact hu
    · have hd : use.2.Keeps (use.2.updCore c fun x => { x with icache := dropKeys (· == pa / 64) x.icache }) := State.keeps_setCore rfl
      exact (hu.trans hd).trans (State.keeps_missCode ..)
  · exact s.keeps_missCode ..

theorem State.keeps_codeParts (s : State) (c : CoreId) (ps : List Piece) : s.Keeps (s.codeParts c ps).2 := by
  induction ps generalizing s with
  | nil => exact .refl s
  | cons p ps ih =>
    have h := s.keeps_codeRead c p.pa p.n
    unfold State.codeParts
    split
    next bs s1 e =>
      have h1 : s.Keeps s1 := .of e h
      split
      next e => exact h1.trans (.of e (ih s1))
      next => exact h1.trans (ih s1)
    next => exact h

theorem State.keeps_fetchWord (s : State) (c : CoreId) (o : Word) : s.Keeps (s.fetchWord c o).2 := by
  unfold State.fetchWord
  extract_lets x g
  have h := s.keeps_checkAccess c g 0 .fetch x.ring o 4
  split
  next e => exact .of e h
  next e => exact .of e h
  next ps s1 e =>
    have h1 : s.Keeps s1 := .of e h
    extract_lets host
    have h2 : s1.Keeps (if host then s1.loadBytes c true ps else s1.codeParts c ps).2 := by
      split
      · exact s1.keeps_loadBytes ..
      · exact s1.keeps_codeParts ..
    split
    next e => exact h1.trans (.of e h2)
    next e => exact h1.trans (.of e h2)
    next e => exact (h1.trans (.of e h2)).trans (State.keeps_corePoison ..)
    next e => exact h1.trans (.of e h2)

/-- The fetch of an instruction changes nothing but caches and logs. -/
theorem State.keeps_fetch (s : State) (c : CoreId) : s.Keeps (s.fetch c).2 := by
  have h := s.keeps_fetchWord c (s.core c).ip
  unfold State.fetch
  split
  next w s1 e =>
    have h1 : s.Keeps s1 := .of e h
    have h2 := s1.keeps_fetchWord c ((s1.core c).ip + 4)
    split
    · split <;> exact h1.trans (.of ‹_› h2)
    · exact h1
  next e => exact .of e h
  next e => exact .of e h

theorem State.FetchesWords.keeps {s t : State} {c : CoreId} {w : Nat × Nat} (h : s.FetchesWords c w t) : s.Keeps t :=
  .of h.2.2.2.2 (s.keeps_fetch c)

theorem State.Fetches.keeps {s t : State} {c : CoreId} {i : Instr} (h : s.Fetches c i t) : s.Keeps t :=
  h.choose_spec.2.keeps

end Sys2Proof.Machine
end

