-- ==== Sys2Proof/Laws/Memory.lean ====
section
/-! SUPPORT. Memory keeps its canonical form under every operation on it; a load of one line of plain memory. -/

namespace Sys2Proof.Machine

open Sys2Proof

/-- Memory's canonical form: addresses strictly rising, no byte listed that reads as an unlisted one. -/
def State.MemWf (s : State) : Prop := wf memDefault s.mem = true

theorem State.memWf_reset : State.reset.MemWf := rfl
theorem State.MemWf.setBytes {s : State} (h : s.MemWf) (pa : Nat) (bs : List Byte) : (s.setBytes pa bs).MemWf := wf_putRun _ _ _ h
theorem State.MemWf.setByte {s : State} (h : s.MemWf) (pa : Nat) (b : Byte) : (s.setByte pa b).MemWf := wf_put _ _ _ h
theorem State.MemWf.setMem64 {s : State} (h : s.MemWf) (pa : Nat) (v : Word) : (s.setMem64 pa v).MemWf := h.setBytes ..
theorem State.MemWf.setPoison {s : State} (h : s.MemWf) (pa : Nat) (b : Bool) : (s.setPoison pa b).MemWf := h
theorem State.MemWf.homeWrite {s : State} (h : s.MemWf) (pa : Nat) (bs : List Byte) (p : Bool) : (s.homeWrite pa bs p).MemWf := by
  apply State.MemWf.setBytes
  suffices H : ∀ (l : List Nat) (f : State → Nat → State), (∀ t u, t.MemWf → (f t u).MemWf) → (l.foldl f s).MemWf by
    apply H
    intro t u ht
    dsimp only
    split
    · exact ht
    · exact ht
  intro l f hf
  induction l generalizing s with
  | nil => exact h
  | cons u us ih => exact ih (hf s u h)
/-- Memory emptied over the addresses a test names: HBM, a tile store. -/
theorem State.MemWf.dropKeys {s : State} (h : s.MemWf) (p : Nat → Bool) : wf memDefault (dropKeys p s.mem) = true := wf_dropKeys _ _ h
/-- Memory of which a reset keeps what a test names. -/
theorem State.MemWf.filter {s : State} (h : s.MemWf) (p : Nat × Byte → Bool) : wf memDefault (s.mem.filter p) = true := wfFrom_filter _ _ h
theorem State.MemWf.of_keeps {s t : State} (k : s.Keeps t) (h : s.MemWf) : t.MemWf := by unfold State.MemWf; rw [k.1]; exact h

/-- A state whose core may have kept the line of pa in its data cache, as a free bit says (R55). -/
def State.keptLine (s : State) (c : CoreId) (pa : Nat) : State :=
  let k := s.freeBool
  if k.1 then k.2.fillLine c pa else k.2

theorem State.keeps_keptLine (s : State) (c : CoreId) (pa : Nat) : s.Keeps (s.keptLine c pa) := by
  unfold State.keptLine
  dsimp only
  split
  · exact (s.keeps_freeBool).trans (State.keeps_fillLine ..)
  · exact s.keeps_freeBool

/-- A load of one line that the data cache does not hold gives the bytes at its home. -/
theorem State.loadBytes_line {s u : State} {c : CoreId} {p : Piece} {bs : List Byte} (h1 : s.routeFail c false [p] = none)
    (h2 : s.devAsk (reqOf c) (.core c.val) 64 [p] = (true, s)) (h3 : (s.decodePA p.pa).plain = true)
    (h4 : (s.core c).line (p.pa / 64) = none) (h5 : s.plainRead (reqOf c) p.pa p.n = (.ok bs, u)) :
    s.loadBytes c false [p] = Acc.used (.core c.val) [p] (.ok bs, u.keptLine c p.pa) := by
  have h6 : s.loadPart c false false p = s.cacheRead c p.pa p.n := by
    unfold State.loadPart; split <;> rename_i h <;> first | rfl | (rw [h] at h3; cases h3)
  simp only [State.loadBytes, h1, h2, State.loadParts, List.length_singleton, Nat.lt_irrefl, decide_false, h6, State.cacheRead, h4,
    State.missRead, h5, State.keptLine, List.append_nil, List.any_cons, List.any_nil, h3, Bool.not_true, Bool.false_or, Bool.or_false, Bool.false_and, Bool.not_false,
    Bool.and_self, if_true]

end Sys2Proof.Machine
end

