-- ==== Sys2Proof/Tests/Slice0.lean ====
section
/-! SUPPORT. The model's own tests: each check of WellFormed refuses an ill-formed command, for every statement a concrete state and
operands that meet its hypotheses (one theorem a statement, one conjunct a clause, at a boundary where there is one), and results
worked out by hand from the spec's rules. -/

namespace Sys2Proof.Tests

open Sys2Proof Sys2Proof.Machine

set_option maxRecDepth 8000
-- One theorem at a time: a thread for each of these evaluations is more than the machine gives.
set_option Elab.async false

/-! ### States -/

/-- Core 0 of C-die 0. -/
def aCore : CoreId := ⟨0, by decide⟩
/-- S0, the first system core. -/
def sCore : CoreId := ⟨96, by decide⟩

/-- S0 as the source of register accesses. -/
def q0 : Src := .core sCore

/-- The module out of reset, option loading over, nothing running. -/
def idle : State := (List.range 25).foldl (fun s d => s.setReg d .SCR_PORT_STAT 0 0x1F)
  { rst := { asserted := [], rails := true, pwrEn := true, railsSeen := true }, timeRuns := true }

/-- aCore, and S0 beside it, run at the first byte of HBM, of which 4 KiB are in service. -/
def up : State := ((idle.setFld 0 .RST_RUN 0 0 0 1).setFld 24 .RST_RUN 0 0 0 1).setReg 24 .HBM_CAP 0 4096

/-- The words of i at aCore's pc; the second sector of their line is poisoned, so that no copy of the line is kept (R67). -/
def at_ (s : State) (i : Instr) : State :=
  let w := (insnWords i).getD (0, 0)
  (s.setBytes 0 (toBytes 4 w.1 ++ toBytes 4 w.2)).setPoison 32 true

/-- Words of a fetch, and the bytes of i's instruction. -/
def long (i : Instr) : Bool := isLong ((insnWords i).getD (0, 0)).1

/-- The state its fetch leaves: a free bit drawn for each word. -/
def fetched (s : State) (i : Instr) : State := { at_ s i with free := (at_ s i).free + (if long i then 2 else 1) }

/-- With translation off an access is checked without a trace. -/
theorem checked_same {s : State} {g : SegReg} {sg ring n : Nat} {k : AKind} {o : Word} {ps : List Piece} (h0 : bit (s.core aCore).ptb 0 = false)
    (h : (s.checkAccess aCore g sg k ring o n).1 = .ok ps) : s.checkAccess aCore g sg k ring o n = (.ok ps, s) := by
  have parts : ∀ (l : List Piece) (o : Word), (s.xlateParts aCore sg k ring o l).2 = s := by
    intro l
    induction l with
    | nil => intro o; rfl
    | cons p ps ih =>
      intro o
      have hx : (s.xlateCore aCore ring p.pa k).2 = s := by
        unfold State.xlateCore
        simp only [h0, Bool.not_false, if_true]
        split <;> rfl
      unfold State.xlateParts
      split
      case h_3 =>
        rename_i pa u e
        have e2 : s = u := by rw [← hx, e]
        subst e2
        split
        · rename_i r v e3
          exact ((congrArg Prod.snd e3).symm.trans (ih _) : v = s)
        · exact ih _
      all_goals rename_i e; exact ((congrArg Prod.snd e).symm.trans hx)
  refine Prod.ext h ?_
  unfold State.checkAccess
  split
  · rfl
  · exact parts _ _

/-- A request to the requester's own die that nothing holds back leaves no trace. -/
def homeOk (s : State) (q : Req) (pa : Nat) : Bool :=
  decide (s.homeCheck q pa = none) && (s.decodePA pa).plain && !s.homeBusy q (s.decodePA pa) && s.waits.isEmpty &&
    decide (q.die = (s.decodePA pa).die)

theorem home_same {s : State} {q : Req} {pa : Nat} (h : homeOk s q pa = true) : s.atHome q pa = (.ok (), s) := by
  simp only [homeOk, Bool.and_eq_true, Bool.not_eq_true', decide_eq_true_eq, List.isEmpty_iff] at h
  obtain ⟨⟨⟨⟨h1, h2⟩, h3⟩, h4⟩, h5⟩ := h
  have e : s.endWait q pa = s := by unfold State.endWait; cases s; simp only at h4; subst h4; rfl
  unfold State.atHome State.travel
  simp [h1, h2, h3, h5, e]

/-- A read of plain memory outside the Trowel's working state, at the requester's own die, leaves no trace. -/
theorem read_same {s : State} {q : Req} {pa n : Nat} {bs : List Byte} (h0 : pa + n ≤ ksramBase) (h1 : homeOk s q pa = true)
    (h : (s.plainRead q pa n).1 = .ok bs) : s.plainRead q pa n = (.ok bs, s) := by
  refine Prod.ext h ?_
  unfold State.plainRead at h ⊢
  have hb : (s.bytes pa n).length = n := by simp [State.bytes]
  rw [home_same h1] at h ⊢
  revert h
  dsimp only
  repeat' split
  all_goals first | (intro h; cases h; done) | (intro _; simp [State.asRead, hb, h0])

/-- One word of code in a line that is not kept: the facts that evaluation decides. -/
theorem fetchWord_eq {s : State} {o : Word} {a : Nat} {bs : List Byte} (h0 : (s.core aCore).msh = none)
    (h1 : s.checkAccess aCore ((s.core aCore).sgOf 0) 0 .fetch (s.core aCore).ring o 4 = (.ok [⟨a, 4⟩], s))
    (h2 : (s.decodePA a).plain = true) (h3 : (s.core aCore).codeLine (a / 64) = none)
    (h4 : s.plainRead (reqOf aCore) a 4 = (.ok bs, s)) (h5 : s.anyPoison (a - a % 64) 64 = true) :
    s.fetchWord aCore o = (.ok (fromBytes bs), { s with free := s.free + 1 }) := by
  have h7 : ({ s with free := s.free + 1 } : State).fillCode aCore a = { s with free := s.free + 1 } := by
    unfold State.fillCode
    exact if_pos h5
  have h8 : s.codeParts aCore [⟨a, 4⟩] = (.ok bs, { s with free := s.free + 1 }) := by
    simp only [State.codeParts, State.codeRead, h3, State.missCode, h4, State.freeBool, h7, ite_self, List.append_nil]
  unfold State.fetchWord
  simp only [h0, h1, List.any_cons, List.any_nil, Bool.or_false]
  cases hd : s.decodePA a <;> first | (rw [hd] at h2; cases h2; done) | simp [h8]

/-- The facts of one word, by evaluation. -/
def codeOk (s : State) (a : Nat) (bs : List Byte) : Bool :=
  decide ((s.core aCore).msh = none) && !bit (s.core aCore).ptb 0 && decide (a + 4 ≤ ksramBase) &&
  decide ((s.checkAccess aCore ((s.core aCore).sgOf 0) 0 .fetch (s.core aCore).ring (BitVec.ofNat 64 a) 4).1 = .ok [⟨a, 4⟩]) &&
  homeOk s (reqOf aCore) a && decide ((s.core aCore).codeLine (a / 64) = none) && decide ((s.plainRead (reqOf aCore) a 4).1 = .ok bs) &&
  s.anyPoison (a - a % 64) 64

theorem word_of {s : State} {a : Nat} {bs : List Byte} (h : codeOk s a bs = true) :
    s.fetchWord aCore (BitVec.ofNat 64 a) = (.ok (fromBytes bs), { s with free := s.free + 1 }) := by
  simp only [codeOk, Bool.and_eq_true, Bool.not_eq_true', decide_eq_true_eq] at h
  have hp := h.1.1.1.2
  simp only [homeOk, Bool.and_eq_true] at hp
  exact fetchWord_eq h.1.1.1.1.1.1.1 (checked_same h.1.1.1.1.1.1.2 h.1.1.1.1.2) hp.1.1.1.2 h.1.1.2 (read_same h.1.1.1.1.1.2 h.1.1.1.2 h.1.2) h.2

/-- The words of an instruction, as bytes. -/
def word1 (i : Instr) : List Byte := toBytes 4 ((insnWords i).getD (0, 0)).1
def word2 (i : Instr) : List Byte := toBytes 4 ((insnWords i).getD (0, 0)).2
/-- A core that stands at address 0 can fetch i there. -/
def fetchOk (s : State) (i : Instr) : Bool :=
  let u := at_ s i
  decide ((u.core aCore).ip = 0) && codeOk u 0 (word1 i) && decide (insnWords i = some (fromBytes (word1 i), fromBytes (word2 i))) &&
  (if long i then codeOk { u with free := u.free + 1 } 4 (word2 i) else decide (fromBytes (word2 i) = 0)) && decide (isLong (fromBytes (word1 i)) = long i)

theorem fetch_of {s : State} {i : Instr} (h : fetchOk s i = true) :
    (at_ s i).fetch aCore = (.ok (fromBytes (word1 i), fromBytes (word2 i)), fetched s i) := by
  simp only [fetchOk, Bool.and_eq_true, decide_eq_true_eq] at h
  have h1 := word_of h.1.1.1.2
  unfold State.fetch
  rw [h.1.1.1.1]
  rw [show (0 : Word) = BitVec.ofNat 64 0 from rfl, h1]
  simp only [h.2]
  unfold fetched
  cases hl : long i with
  | false =>
    have h2 := h.1.2
    rw [hl] at h2
    simp only [Bool.false_eq_true, if_false, decide_eq_true_eq] at h2
    simp [h2]
  | true =>
    have h2 := h.1.2
    rw [hl] at h2
    simp only [if_true] at h2
    have hip : (({ at_ s i with free := (at_ s i).free + 1 } : State).core aCore).ip = 0 := h.1.1.1.1
    have h3 := word_of h2
    simp only [if_true, hip, show (0 : Word) + 4 = BitVec.ofNat 64 4 from rfl, h3]

/-- Fetches and Ready, from facts that evaluation decides. -/
theorem fetches_of {s : State} {i : Instr} (h : (fetchOk s i && (at_ s i).runs aCore && ((at_ s i).core aCore).pass.isNone &&
    !((at_ s i).core aCore).wfi && decide (((at_ s i).core aCore).slot.map (·.done) ≠ some true)) = true) : (at_ s i).Fetches aCore i (fetched s i) := by
  simp only [Bool.and_eq_true, Bool.not_eq_true', Option.isNone_iff_eq_none, decide_eq_true_eq] at h
  obtain ⟨⟨⟨⟨h1, h2⟩, h3⟩, h4⟩, h5⟩ := h
  have hw := h1
  simp only [fetchOk, Bool.and_eq_true, decide_eq_true_eq] at hw
  exact ⟨_, hw.1.1.2, h2, h3, h4, h5, fetch_of h1⟩

theorem ready_of {s : State} {i : Instr} (h : (fetchOk s i && (at_ s i).runs aCore && ((at_ s i).core aCore).pass.isNone &&
    !((at_ s i).core aCore).wfi && decide (((at_ s i).core aCore).slot.map (·.done) ≠ some true)) = true) (h2 : (((fetched s i).core aCore).slot.isNone && !((fetched s i).core aCore).ss &&
    !((fetched s i).core aCore).stepDue) = true) : (at_ s i).Ready aCore i (fetched s i) := by
  simp only [Bool.and_eq_true, Bool.not_eq_true', Option.isNone_iff_eq_none] at h2
  exact ⟨fetches_of h, h2.1.1, h2.1.2, h2.2⟩

/-- `up` with the core changed. -/
def upWith (f : Core → Core) : State := up.updCore aCore f

/-- Doublewords placed in memory. -/
def putWords (s : State) (pa : Nat) (ws : List Word) : State := s.setBytes pa (bytesOf ws)

/-- Tables in tile store 0: handler 0x01 and 0x02 and 0x10 (at +0x2000), gate 1 (at +0x20000), segments 1 and 3 code, 2 stack, at ring 0
(at +0x40000). -/
def tables (s : State) : State :=
  let h : List Word := [0x100000001000, 0x100000009000, 0x0000001000020001, 0]
  let s := putWords s 0x100000002020 (h ++ h)
  let s := putWords s 0x100000002200 h
  let s := putWords s 0x100000020020 [0x100000001000, 0, 0x0000001C00000001, 0]
  let s := putWords s 0x100000040010 [0, 0x034FFFFFFFFFFFFF, 0, 0x07CFFFFFFFFFFFFF, 0, 0x034FFFFFFFFFFFFF]
  s.updCore aCore fun x => { (x.gwrite 62 0x100000008000) with
    hdtb := 0x100000002000 + 0x20, gtb := 0x100000020000 + 2, sgtb := 0x100000040000 + 4, hdtbSet := true }

/-- The tables in place. -/
def env : State := tables up

/-- A source's access to a register of its own die arrives at it, and leaves no trace of its own. -/
def here (s : State) (q : Src) (r : RegName) (d : Nat := 24) : Bool :=
  let rq := srcReq q
  s.srcUp q && srcMay q (regInfo r).blk && !(q == .host && !s.hostMay d (regInfo r).blk) && decide (rq.die = d) &&
    (s.downOn d d false).isNone && (s.downOn d d true).isNone && !s.pathBusy d d
theorem here_access {s : State} {q : Src} {r : RegName} {i d : Nat} (h : here s q r d = true) : s.regAccess q d r i = (true, s) := by
  simp only [here, Bool.and_eq_true, Bool.not_eq_true', decide_eq_true_eq, Option.isNone_iff_eq_none] at h
  obtain ⟨⟨⟨⟨⟨⟨h1, h2⟩, h3⟩, h4⟩, h5⟩, h6⟩, h7⟩ := h
  simp [State.regAccess, State.answered, State.travel, h1, h2, h3, h4, h5, h6, h7]

/-- The fetched state with the core's own work begun. -/
def begun (s : State) (i : Instr) : State := (fetched s i).updCore aCore Core.begun

/-! ### Witnesses: the machine and the scalar core -/

theorem wit_StepRunsFront : ({ pending := [.add aCore 1 2 3] } : State).pending = .add aCore 1 2 3 :: [] := rfl

theorem wit_RegisterArithmeticWritesResult : (at_ up (.add aCore 1 2 3)).Ready aCore (.add aCore 1 2 3) (fetched up (.add aCore 1 2 3)) :=
  ready_of (by decide +kernel) (by decide +kernel)
theorem wit_RegisterArithmeticWritesResult_one : (at_ up (.slli aCore 1 2 63)).Ready aCore (.slli aCore 1 2 63) (fetched up (.slli aCore 1 2 63)) :=
  ready_of (by decide +kernel) (by decide +kernel)
theorem wit_ImmediateWritesResult : (at_ up (.addi aCore 1 2 0x2000)).Ready aCore (.addi aCore 1 2 0x2000) (fetched up (.addi aCore 1 2 0x2000)) :=
  ready_of (by decide +kernel) (by decide +kernel)
theorem wit_ImmediateWritesResult_lui : (at_ up (.lui aCore 0 0xFFFFF)).Ready aCore (.lui aCore 0 0xFFFFF) (fetched up (.lui aCore 0 0xFFFFF)) :=
  ready_of (by decide +kernel) (by decide +kernel)
theorem wit_BinaryFrame : (at_ up (.mul aCore 0 2 3)).Ready aCore (.mul aCore 0 2 3) (fetched up (.mul aCore 0 2 3)) :=
  ready_of (by decide +kernel) (by decide +kernel)

/-- 1.0 in g1, 0 in g2; with every trap enabled, and with none. -/
def fpS (traps : Word) : State := env.updCore aCore fun x => { x.gwrite 1 0x3F800000 with fpflags := traps }
def fpI : Instr := .fdiv aCore 3 1 2 false
def fpR (s : State) : Word × FFlags :=
  let x := s.core aCore
  fpWord (fDiv (fpFmt false) (fpMode x.fpflags) (fpSat x.fpflags) (fpVal false (x.gread 1)) (fpVal false (x.gread 2)))
theorem wit_FpWritesResult : (at_ (fpS 0) fpI).Ready aCore fpI (fetched (fpS 0) fpI) ∧
    (fpR (fetched (fpS 0) fpI)).2 &&& fpTraps ((fetched (fpS 0) fpI).core aCore).fpflags = 0 :=
  ⟨ready_of (by decide +kernel) (by decide +kernel), by decide +kernel⟩
/-- The state of a trap's entry. -/
def fpT : State := fetched (fpS 0x1F00) fpI
theorem wit_FpWritesResult_trap : (at_ (fpS 0x1F00) fpI).Ready aCore fpI fpT ∧
    (fpR fpT).2 &&& fpTraps (fpT.core aCore).fpflags ≠ 0 ∧
    ((fpT.updCore aCore Core.undone).except aCore [1, 2] ⟨0x0C, ((fpR fpT).2 &&& fpTraps (fpT.core aCore).fpflags).toNat
        + 2 ^ 5 * (fpR fpT).2.toNat, 0⟩).isSome = true :=
  ⟨ready_of (by decide +kernel) (by decide +kernel), by decide +kernel, by decide +kernel⟩

/-- g1 holds an address of data, a line apart from the code; g2 is 3. -/
def memS : State := env.updCore aCore fun x => (x.gwrite 1 0x100000003000).gwrite 2 3
def ldI : Instr := .ldd aCore 4 1 1 (-8)
def ldxI : Instr := .ldx aCore 4 1 0 1 0x06
theorem wit_LoadsComplete : (at_ memS ldI).Ready aCore ldI (fetched memS ldI) ∧
    ((begun memS ldI).readData aCore 1 .read (((fetched memS ldI).core aCore).gread 1 + (-8 : BitVec 11).signExtend 64) 8).1
      = .ok (List.replicate 8 0) ∧ (at_ memS ldxI).Ready aCore ldxI (fetched memS ldxI) ∧
    (0x1F : BitVec 5).toNat % 8 = 7 ∧ (0x06 : BitVec 5).toNat % 8 ≠ 7 ∧
    ((begun memS ldxI).readData aCore 1 .read (((fetched memS ldxI).core aCore).gread 1 + (((fetched memS ldxI).core aCore).gread 0 <<< 0)) 8).1
      = .ok (List.replicate 8 0) :=
  ⟨ready_of (by decide +kernel) (by decide +kernel), by decide +kernel, ready_of (by decide +kernel) (by decide +kernel), by and_intros <;> decide +kernel⟩

/-- What LoadsComplete and StoresComplete ask of n bytes of plain memory at pa: a whole line's end. -/
def plainOk (s : State) (pa n : Nat) : Bool :=
  let x := s.core aCore
  let g := x.sgNow 1
  !bit x.ptb 0 && !g.null && g.readable && g.writable && decide (x.ring ≤ g.ring) && decide (pa + n - 1 ≤ g.limit) && decide (0 < n)
    && decide (n ≤ 8) && decide (g.base = 0) && decide (pa % 64 + n ≤ 64) && decide (pa + n ≤ 2 ^ 48) && decide (s.homeCheck (reqOf aCore) pa = none)
    && (s.decodePA pa).plain && !s.homeBusy (reqOf aCore) (s.decodePA pa) && !s.rspDown (reqOf aCore) pa && !s.anyPoison pa n
    && decide (s.timedOut (reqOf aCore) pa = none) && decide ((x.line (pa / 64)) = none) && !s.storeHeld aCore
    && !s.vecHolds aCore [⟨pa, n⟩] false && !s.vecHolds aCore [⟨pa, n⟩] true && !s.skimProtected pa n
theorem wit_LoadsComplete_plain : plainOk memS 0x100000003038 8 = true ∧ 0x100000003038 + 8 ≤ ksramBase ∧
    (plainOk memS ksramBase 8 = true ∧ ksramBase + 64 * memS.fld 24 .STM_CFG 0 18 0 ≤ ksramBase) := by
  and_intros <;> decide +kernel
def stI : Instr := .std aCore 4 1 1 (-8)
def stxI : Instr := .stx aCore 4 1 2 1 0x1E
def stW (i : Instr) (o : Word) : CRes Unit × State := (begun memS i).writeData aCore 1 (((fetched memS i).core aCore).gread 1 + o) (toBytes 8 0)
theorem wit_StoresComplete : (at_ memS stI).Ready aCore stI (fetched memS stI) ∧ (stW stI ((-8 : BitVec 11).signExtend 64)).1 = .ok () ∧
    ((stW stI ((-8 : BitVec 11).signExtend 64)).2.core aCore).slot = none ∧ ((stW stI ((-8 : BitVec 11).signExtend 64)).2.core aCore).stepDue = false ∧
    (at_ memS stxI).Ready aCore stxI (fetched memS stxI) ∧ (0x1E : BitVec 5).toNat % 2 = 0 ∧
    (stW stxI (((fetched memS stxI).core aCore).gread 2 <<< 3)).1 = .ok () ∧
    ((stW stxI (((fetched memS stxI).core aCore).gread 2 <<< 3)).2.core aCore).slot = none ∧
    ((stW stxI (((fetched memS stxI).core aCore).gread 2 <<< 3)).2.core aCore).stepDue = false ∧ plainOk memS 0x100000003038 8 = true :=
  ⟨ready_of (by decide +kernel) (by decide +kernel), by decide +kernel, by decide +kernel, by decide +kernel,
    ready_of (by decide +kernel) (by decide +kernel), by and_intros <;> decide +kernel⟩

def aqI : Instr := .ldAcq aCore 4 1 0 1 8
def rlI : Instr := .stRel aCore 4 1 0 1 8
def alignedW (i : Instr) (k : AKind) : CRes (List Piece) × State := (begun memS i).alignedAccess aCore 1 k 0x100000003000 8
def relW : CRes Unit × State := ((alignedW rlI .write).2.acked aCore).storeBytes aCore 0x100000003000 [⟨0x100000003000, 8⟩] (toBytes 8 0)
theorem wit_OrderingInstructions : (at_ memS aqI).Ready aCore aqI (fetched memS aqI) ∧ ((fetched memS aqI).core aCore).gread 1 = 0x100000003000 ∧
    (8 : BitVec 5).toNat % 8 = 0 ∧ (alignedW aqI .read).1 = .ok [⟨0x100000003000, 8⟩] ∧
    (((alignedW aqI .read).2.dropCache aCore).homeLoad aCore [⟨0x100000003000, 8⟩]).1 = .ok (List.replicate 8 0) ∧
    (at_ memS rlI).Ready aCore rlI (fetched memS rlI) ∧ (alignedW rlI .write).1 = .ok [⟨0x100000003000, 8⟩] ∧
    (alignedW rlI .write).2.allAcked aCore = true ∧ relW.1 = .ok () ∧ (relW.2.core aCore).slot = none ∧ (relW.2.core aCore).stepDue = false :=
  ⟨ready_of (by decide +kernel) (by decide +kernel), by decide +kernel, by decide +kernel, by decide +kernel, by decide +kernel,
    ready_of (by decide +kernel) (by decide +kernel), by and_intros <;> decide +kernel⟩
/-- A store to a host window that is not acknowledged: its DWR waits. -/
def outS : State := { memS.updCore aCore fun x => { x with unacked := [{ parts := [⟨0x400000000000, 8⟩] }] } with
  links := put (fun _ => {}) memS.links 0 { wait := [{ type := 0x12, a := 7, pa := 0x400000000000, own := .core aCore.val }] } }
def llI : Instr := .fenceLl aCore 0 0 0
def ssI : Instr := .fenceSs aCore 0 0 0
def fullI : Instr := .fenceFull aCore 0 0 0
def isI : Instr := .isync aCore 0 0 0
def engI : Instr := .fenceEng aCore 0 0 0
theorem wit_OrderingInstructions_fences : (at_ memS llI).Ready aCore llI (fetched memS llI) ∧ (at_ memS ssI).Ready aCore ssI (fetched memS ssI) ∧
    (at_ memS fullI).Ready aCore fullI (fetched memS fullI) ∧ (at_ memS isI).Ready aCore isI (fetched memS isI) ∧
    (at_ memS engI).Ready aCore engI (fetched memS engI) ∧ (begun memS fullI).allAcked aCore = true ∧ (begun memS isI).allAcked aCore = true ∧
    (begun memS engI).allAcked aCore = true ∧ (begun memS engI).engQuiet aCore = true ∧ (at_ outS fullI).Ready aCore fullI (fetched outS fullI) ∧
    (begun outS fullI).allAcked aCore = false :=
  ⟨ready_of (by decide +kernel) (by decide +kernel), ready_of (by decide +kernel) (by decide +kernel), ready_of (by decide +kernel) (by decide +kernel),
    ready_of (by decide +kernel) (by decide +kernel), ready_of (by decide +kernel) (by decide +kernel), by decide +kernel, by decide +kernel,
    by decide +kernel, by decide +kernel, ready_of (by decide +kernel) (by decide +kernel), by decide +kernel⟩
def atI : Instr := .atomAdd aCore 4 1 2 1 3 true
theorem wit_AtomicsComplete : (at_ memS atI).Ready aCore atI (fetched memS atI) ∧ (alignedW atI .atomic).1 = .ok [⟨0x100000003000, 8⟩] ∧
    (alignedW atI .atomic).2.allAcked aCore = true ∧
    ((((alignedW atI .atomic).2.dropCache aCore).acked aCore).atomicAt aCore ⟨0x100000003000, 8⟩ fun o => o + 3).1 = .ok 0 ∧
    plainOk memS 0x100000003038 8 = true :=
  ⟨ready_of (by decide +kernel) (by decide +kernel), by and_intros <;> decide +kernel⟩

/-- A delay slot in progress. -/
def slotS (a : XferAct) : State := env.updCore aCore fun x => { x with slot := some { addr := x.ip - 4, act := a } }
def goA : XferAct := .go 0x100000000100 (some 0x100000000004)
def cgA : XferAct := .callg [⟨0x100000007FE0, 32⟩] [4, 0, 0, 0] 0x100000007FE0 0x100000001000 {} {} 0
def rgA : XferAct := .retg 0x100 0x100000008000 {} {} 3 true
def beqI : Instr := .beq aCore 1 2 0x2000
def adI : Instr := .addi aCore 1 2 1
/-- What an ADDI in the slot of `a` asks. -/
def slotOk (a : XferAct) : Bool :=
  let x := (fetched (slotS a) adI).core aCore
  decide (x.slot.map (·.act) = some a) && !x.ss && !x.stepDue && (x.endLevel x.ip).isNone
/-- The words of adI, as an instruction with any work of its own has them. -/
def adW : Insn := { word := ((insnWords adI).getD (0, 0)).1, word2 := ((insnWords adI).getD (0, 0)).2 }
theorem fetchesWords_of {s : State} {i : Instr} {w : Nat × Nat} (h : (fetchOk s i && (at_ s i).runs aCore && ((at_ s i).core aCore).pass.isNone &&
    !((at_ s i).core aCore).wfi && decide (((at_ s i).core aCore).slot.map (·.done) ≠ some true)) = true) (hw : insnWords i = some w) :
    (at_ s i).FetchesWords aCore w (fetched s i) := by
  obtain ⟨v, h1, h2⟩ := fetches_of h
  rw [hw] at h1
  cases h1
  exact h2
theorem wit_TransfersAndSlots : (at_ env beqI).Fetches aCore beqI (fetched env beqI) ∧ ((fetched env beqI).core aCore).slot = none ∧
    ((fetched env beqI).core aCore).endLevel ((fetched env beqI).core aCore).ip = none ∧
    (∀ i ∈ [Instr.j aCore 1, .call aCore 1, .jr aCore 0 1 0, .callr aCore 0 1 0], fetchOk env i = true) ∧
    (at_ (slotS goA) adI).Fetches aCore adI (fetched (slotS goA) adI) ∧ slotOk goA = true ∧ slotOk (.go 4 none) = true ∧
    (at_ (slotS cgA) adI).Fetches aCore adI (fetched (slotS cgA) adI) ∧ slotOk cgA = true ∧
    (fetched (slotS cgA) adI).slotHeld aCore = false ∧
    (at_ (slotS cgA) adI).FetchesWords aCore (adW.word, adW.word2) (fetched (slotS cgA) adI) ∧
    adW.early ((fetched (slotS cgA) adI).core aCore) = none ∧ ((begun (slotS cgA) adI).core aCore).slot.isSome = true ∧
    ((begun (slotS cgA) adI).core aCore).stepDue = false ∧ (begun (slotS cgA) adI).slotHeld aCore = false ∧
    (at_ (slotS rgA) adI).Fetches aCore adI (fetched (slotS rgA) adI) ∧ slotOk rgA = true :=
  ⟨fetches_of (by decide +kernel), by decide +kernel, by decide +kernel, by decide +kernel, fetches_of (by decide +kernel), by decide +kernel,
    by decide +kernel, fetches_of (by decide +kernel), by decide +kernel, by decide +kernel, fetchesWords_of (by decide +kernel) rfl, by decide +kernel,
    by decide +kernel, by decide +kernel, by decide +kernel, fetches_of (by decide +kernel), by decide +kernel⟩
/-- A core at ring 3. -/
def ring3 : State := env.updCore aCore fun x => { (x.setSg 0 { x.sgOf 0 with ring := 3 }) with status := 3 }
def mwI (n : BitVec 12) : Instr := .movcW aCore 1 n
def brI : Instr := .brk aCore 0 0xFFF
theorem wit_ExceptionsTaken : (at_ (slotS goA) beqI).Fetches aCore beqI (fetched (slotS goA) beqI) ∧ ((fetched (slotS goA) beqI).core aCore).slot.isSome = true ∧
    ((fetched (slotS goA) beqI).except aCore [1, 2] ⟨0x01, wordB 0x22 1 2 0x2000, 0⟩).isSome = true ∧
    (at_ ring3 (mwI 0x013)).Fetches aCore (mwI 0x013) (fetched ring3 (mwI 0x013)) ∧ cregRings (isSystem aCore) 0x013 = some (1, 1) ∧
    1 < ((fetched ring3 (mwI 0x013)).core aCore).ring ∧ ((fetched ring3 (mwI 0x013)).except aCore [1] ⟨0x02, wordS 1 0x013 0x01, 0⟩).isSome = true ∧
    (at_ env (mwI 0xFFF)).Fetches aCore (mwI 0xFFF) (fetched env (mwI 0xFFF)) ∧ cregRings (isSystem aCore) 0xFFF = none ∧
    ((fetched env (mwI 0xFFF)).except aCore [1] ⟨0x01, wordS 1 0xFFF 0x01, 0⟩).isSome = true ∧
    (at_ env brI).Fetches aCore brI (fetched env brI) ∧ (((fetched env brI).updCore aCore Core.undone).except aCore [] ⟨0x10, 0xFFF, 0⟩).isSome = true :=
  ⟨fetches_of (by decide +kernel), by decide +kernel, by decide +kernel, fetches_of (by decide +kernel), by decide +kernel, by decide +kernel,
    by decide +kernel, fetches_of (by decide +kernel), by decide +kernel, by decide +kernel, fetches_of (by decide +kernel), by decide +kernel⟩
/-- A branch, jump, loop, gate, return and WFI in the slot. -/
theorem wit_ExceptionsTaken_slot : ∀ p ∈ [(Instr.bne aCore 1 2 0x2000, ([1, 2] : List Greg), wordB 0x23 1 2 0x2000), (.blt aCore 1 2 1, [1, 2], wordB 0x24 1 2 1),
    (.bge aCore 1 2 1, [1, 2], wordB 0x25 1 2 1), (.bltu aCore 1 2 1, [1, 2], wordB 0x26 1 2 1), (.bgeu aCore 1 2 1, [1, 2], wordB 0x27 1 2 1),
    (.j aCore 1, [], wordJ 0x28 1), (.call aCore 1, [], wordJ 0x29 1), (.jr aCore 0 1 0, [1], wordA 0x2A 0 1 0 0), (.callr aCore 0 1 0, [1], wordA 0x2A 0 1 0 1),
    (.loop aCore 2 1 1, [1], wordL 0x2B 2 1 1), (.callg aCore 0 1, [62], wordS 0 1 0x04), (.retg aCore 0 0, [62], wordS 0 0 0x05),
    (.retx aCore 0 0, [62], wordS 0 0 0x06), (.wfi aCore 0 0, [], wordS 0 0 0x08)],
    fetchOk (slotS goA) p.1 = true ∧ ((fetched (slotS goA) p.1).except aCore p.2.1 ⟨0x01, p.2.2, 0⟩).isSome = true := by decide +kernel
theorem wit_ExceptionsTaken_brk : (at_ (slotS goA) brI).Fetches aCore brI (fetched (slotS goA) brI) ∧ ((fetched (slotS goA) brI).core aCore).notLoopEnd ∧
    (((fetched (slotS goA) brI).updCore aCore Core.undone).except aCore [] ⟨0x10, 0xFFF, 0⟩).isSome = true :=
  ⟨fetches_of (by decide +kernel), by show Core.endLevel _ _ = none; decide +kernel, by decide +kernel⟩
def lpI (n : BitVec 2) (d : BitVec 18) : Instr := .loop aCore n 1 d
def lpTrap (s : State) (n : BitVec 2) (d : BitVec 18) : Bool := ((fetched s (lpI n d)).except aCore [1] ⟨0x01, wordL 0x2B n 1 d, 0⟩).isSome
theorem wit_LoopSetsLevel : (at_ up (lpI 2 0x3FFFF)).Ready aCore (lpI 2 0x3FFFF) (fetched up (lpI 2 0x3FFFF)) ∧
    ((fetched up (lpI 2 0x3FFFF)).core aCore).endLevel ((fetched up (lpI 2 0x3FFFF)).core aCore).ip = none ∧
    (at_ env (lpI 3 1)).Fetches aCore (lpI 3 1) (fetched env (lpI 3 1)) ∧ lpTrap env 3 1 = true ∧
    (at_ env (lpI 0 0)).Fetches aCore (lpI 0 0) (fetched env (lpI 0 0)) ∧ lpTrap env 0 0 = true ∧
    (at_ (slotS goA) (lpI 2 1)).Fetches aCore (lpI 2 1) (fetched (slotS goA) (lpI 2 1)) ∧ lpTrap (slotS goA) 2 1 = true :=
  ⟨ready_of (by decide +kernel) (by decide +kernel), by decide +kernel, fetches_of (by decide +kernel), by decide +kernel,
    fetches_of (by decide +kernel), by decide +kernel, fetches_of (by decide +kernel), by decide +kernel⟩

def sgI : Instr := .movsg aCore 2 0x200
def sgR : SegLoad × State := (begun (env.updCore aCore fun x => x.gwrite 2 2) sgI).segLoad aCore 2 2 0
theorem wit_ControlAndSegmentMoves : (at_ env (.movcR aCore 1 0)).Ready aCore (.movcR aCore 1 0) (fetched env (.movcR aCore 1 0)) ∧
    (at_ env (mwI 0)).Ready aCore (mwI 0) (fetched env (mwI 0)) ∧ cregRings (isSystem aCore) 0x000 = some (3, 1) ∧
    ((fetched env (mwI 0)).core aCore).begun.cregWaits 0 true = false ∧ ((fetched env (.movcR aCore 1 0)).core aCore).begun.cregWaits 0 false = false ∧
    ((fetched env (mwI 0)).core aCore).ring = 0 ∧ ((begun env (mwI 0x027)).core aCore).cregWaits 0x027 true = false ∧
    (at_ (env.updCore aCore fun x => x.gwrite 2 2) sgI).Ready aCore sgI (fetched (env.updCore aCore fun x => x.gwrite 2 2) sgI) ∧ bits (0x200 : BitVec 12) 10 8 = 2 ∧
    (match sgR.1 with | .ok g => g.type == 3 | _ => false) = true ∧ (sgR.2.core aCore).slot = none ∧ (sgR.2.core aCore).stepDue = false ∧
    (at_ env (.movsgR aCore 1 0x700)).Ready aCore (.movsgR aCore 1 0x700) (fetched env (.movsgR aCore 1 0x700)) :=
  ⟨ready_of (by decide +kernel) (by decide +kernel), ready_of (by decide +kernel) (by decide +kernel), by decide +kernel, by decide +kernel,
    by decide +kernel, by decide +kernel, by decide +kernel, ready_of (by decide +kernel) (by decide +kernel), by decide +kernel, by decide +kernel,
    by decide +kernel, by decide +kernel, ready_of (by decide +kernel) (by decide +kernel)⟩

/-- A gate's record at g62, and a frame of a handler. -/
def recS : State := (putWords env 0x100000008000 [0x100000000200, 0x100000008020, 0x20001, 0]).updCore aCore fun x =>
  { (x.setSg 7 { x.sgOf 7 with sel := 2 }) with msh := none }
def frameS (es : Word) : State := putWords recS 0x100000008000 [0x100000000200, es, 0, 0, 0, 0x100000008040, 0x20001, 0]
def rgI : Instr := .retg aCore 0 0
def rxI : Instr := .retx aCore 0 0
/-- What a read leaves of a line read at its home, by whether a copy is kept. -/
def keptBy (s : State) (b : Bool) : State :=
  let u : State := { s with free := s.free + 1 }
  if b then u.fillLine aCore 0x100000008000 else u
theorem no_drds {u : State} {p : Drd → Bool} (h : u.drds = []) : { u with drds := u.drds.filter p } = u := by
  cases u
  dsimp only at h
  simp only [h, List.filter_nil]
theorem readStack_eq (s : State) (n : Nat) (bs : List Byte)
    (h0 : s.dataAccess aCore 7 .read 0x100000008000 (8 * n) = (.ok [⟨0x100000008000, 8 * n⟩], s))
    (h1 : s.routeFail aCore false [⟨0x100000008000, 8 * n⟩] = none)
    (h2 : s.devAsk (reqOf aCore) (.core aCore.val) 64 [⟨0x100000008000, 8 * n⟩] = (true, s))
    (h3 : (s.decodePA 0x100000008000).plain = true) (h4 : (s.core aCore).line (0x100000008000 / 64) = none)
    (h5 : s.plainRead (reqOf aCore) 0x100000008000 (8 * n) = (.ok bs, s)) (h6 : s.vecHolds aCore [⟨0x100000008000, 8 * n⟩] false = false)
    (h7 : ∀ b, (keptBy s b).drds = []) :
    s.readStack aCore 0x100000008000 n = (some (.ok (words64 n bs)), keptBy s (Config.freeBool s.free)) := by
  have h : s.loadBytes aCore false [⟨0x100000008000, 8 * n⟩] = (.ok bs, s.keptLine aCore 0x100000008000) := by
    rw [State.loadBytes_line h1 h2 h3 h4 h5]
    exact congrArg (Prod.mk _) (no_drds (h7 (Config.freeBool s.free)))
  unfold State.readStack
  rw [h0]
  simp only [h6, h]
  rfl
def segs (s : State) (r : Nat) : SegLoad × SegLoad × State :=
  let a := s.segLoad aCore 0 1 r
  let b := a.2.segLoad aCore 7 2 r
  (a.1, b.1, b.2)
def loads (l : SegLoad) : Bool := match l with | .ok _ => true | _ => false
/-- The facts of `readStack_eq`, by evaluation. -/
def stackOk (s : State) (ws : List Word) : Bool :=
  !bit (s.core aCore).ptb 0 && decide ((s.dataAccess aCore 7 .read 0x100000008000 (8 * ws.length)).1 = .ok [⟨0x100000008000, 8 * ws.length⟩]) &&
  decide (s.routeFail aCore false [⟨0x100000008000, 8 * ws.length⟩] = none) && homeOk s (reqOf aCore) 0x100000008000 &&
  decide ((s.core aCore).line (0x100000008000 / 64) = none) && decide (0x100000008000 + 8 * ws.length ≤ ksramBase) &&
  decide ((s.plainRead (reqOf aCore) 0x100000008000 (8 * ws.length)).1 = .ok (bytesOf ws)) &&
  !s.vecHolds aCore [⟨0x100000008000, 8 * ws.length⟩] false && decide (∀ b, (keptBy s b).drds = []) && decide (words64 ws.length (bytesOf ws) = ws)
theorem stack_of {s : State} {ws : List Word} (h : stackOk s ws = true)
    (h2 : s.devAsk (reqOf aCore) (.core aCore.val) 64 [⟨0x100000008000, 8 * ws.length⟩] = (true, s)) :
    s.readStack aCore 0x100000008000 ws.length = (some (.ok ws), keptBy s (Config.freeBool s.free)) := by
  simp only [stackOk, Bool.and_eq_true, Bool.not_eq_true', decide_eq_true_eq] at h
  obtain ⟨⟨⟨⟨⟨⟨⟨⟨⟨h0, h1⟩, hr⟩, hh⟩, h4⟩, h5⟩, h6⟩, h7⟩, h8⟩, h9⟩ := h
  have h3 := hh
  simp only [homeOk, Bool.and_eq_true] at h3
  rw [readStack_eq s ws.length (bytesOf ws) (checked_same h0 h1) hr h2 h3.1.1.1.2 h4 (read_same h5 hh h6) h7 h8, h9]
theorem recS_read : (begun recS rgI).readStack aCore 0x100000008000 4 =
    (some (.ok [0x100000000200, 0x100000008020, 0x20001, 0]), keptBy (begun recS rgI) (Config.freeBool (begun recS rgI).free)) :=
  stack_of (ws := [0x100000000200, 0x100000008020, 0x20001, 0]) (by decide +kernel) rfl
theorem wit_GatesOpenSlot : (at_ recS rgI).Fetches aCore rgI (fetched recS rgI) ∧ ((fetched recS rgI).core aCore).slot = none ∧
    ((fetched recS rgI).core aCore).endLevel ((fetched recS rgI).core aCore).ip = none ∧ ((fetched recS rgI).core aCore).gread 62 = 0x100000008000 ∧
    ((fetched recS rgI).core aCore).ring ≤ 0 ∧
    ∀ b, loads (segs (keptBy (begun recS rgI) b) 0).1 = true ∧ loads (segs (keptBy (begun recS rgI) b) 0).2.1 = true :=
  ⟨fetches_of (by decide +kernel), by decide +kernel, by decide +kernel, by decide +kernel, by decide +kernel, by decide +kernel⟩
def cgI : Instr := .callg aCore 0 1
def gateRead : Acc (List Word) × State := (begun env cgI).descriptor aCore 1 1 0x100000020020 4
theorem wit_GatesOpenSlot_callg : (at_ env cgI).Fetches aCore cgI (fetched env cgI) ∧ ((fetched env cgI).core aCore).slot = none ∧
    ((fetched env cgI).core aCore).endLevel ((fetched env cgI).core aCore).ip = none ∧
    (1 : BitVec 12).toNat < min (bits ((fetched env cgI).core aCore).gtb 12 0) 4096 ∧
    bits ((fetched env cgI).core aCore).gtb 47 17 * 2 ^ 17 + 32 * (1 : BitVec 12).toNat = 0x100000020020 ∧
    gateRead.1 = .ok [0x100000001000, 0, 0x0000001C00000001, 0] ∧ bit (0x0000001C00000001 : Word) 36 = true ∧
    ((fetched env cgI).core aCore).ring ≤ bits (0x0000001C00000001 : Word) 35 34 ∧
    bits (0x0000001C00000001 : Word) 33 32 = ((fetched env cgI).core aCore).ring ∧ loads (gateRead.2.segLoad aCore 0 1 0).1 = true ∧
    (match ((gateRead.2.segLoad aCore 0 1 0).2.storable aCore (((fetched env cgI).core aCore).sgOf 7) 7 0 0x100000007FE0 32).1 with
      | some (.ok _) => true | _ => false) = true :=
  ⟨fetches_of (by decide +kernel), by decide +kernel, by decide +kernel, by decide +kernel, by decide +kernel, by decide +kernel, by decide +kernel,
    by decide +kernel, by decide +kernel, by decide +kernel, by decide +kernel⟩
theorem frameS_read : (begun (frameS 4) rxI).readStack aCore 0x100000008000 8 =
    (some (.ok [0x100000000200, 0x4, 0, 0, 0, 0x100000008040, 0x20001, 0]), keptBy (begun (frameS 4) rxI) (Config.freeBool (begun (frameS 4) rxI).free)) :=
  stack_of (ws := [0x100000000200, 0x4, 0, 0, 0, 0x100000008040, 0x20001, 0]) (by decide +kernel) rfl
theorem wit_HandlersEnteredAndLeft : (at_ (frameS 4) rxI).Ready aCore rxI (fetched (frameS 4) rxI) ∧
    ((fetched (frameS 4) rxI).core aCore).endLevel ((fetched (frameS 4) rxI).core aCore).ip = none ∧
    ((fetched (frameS 4) rxI).core aCore).gread 62 = 0x100000008000 ∧ bit (0x4 : Word) 2 = true ∧ bit (0x4 : Word) 5 = false ∧
    ∀ b, loads (segs (keptBy (begun (frameS 4) rxI) b) 0).1 = true ∧ loads (segs (keptBy (begun (frameS 4) rxI) b) 0).2.1 = true ∧
      ((segs (keptBy (begun (frameS 4) rxI) b) 0).2.2.core aCore).stepDue = false ∧
      ((segs (keptBy (begun (frameS 4) rxI) b) 0).2.2.core aCore).hdtbSet = ((fetched (frameS 4) rxI).core aCore).hdtbSet :=
  ⟨ready_of (by decide +kernel) (by decide +kernel), by decide +kernel, by decide +kernel, by decide +kernel, by decide +kernel, by decide +kernel⟩

/-- A frame in one part of ordinary memory. -/
theorem wit_HandlersEnteredAndLeft_frame : (env.decodePA 0x100000007FC0).plain = true ∧ (([⟨0x100000007FC0, 64⟩] : List Piece).map (·.n)).sum = 64 := by
  decide +kernel
/-- An event pending: a watchdog pre-warning, vector 32, whose handler takes over the ring and stack it finds. -/
def withEvent (s : State) : State :=
  (putWords s 0x100000002400 [0x100000001000, 0x100000009000, 0x0000001000020003, 0]).updCore aCore fun x => { x with prewarn := true }
/-- RETX of a frame with IM = 0 where the event is pending: it is chained to. -/
def chainS : State := withEvent (frameS 0)
theorem chain_read : (begun chainS rxI).readStack aCore 0x100000008000 8 =
    (some (.ok [0x100000000200, 0, 0, 0, 0, 0x100000008040, 0x20001, 0]), keptBy (begun chainS rxI) (Config.freeBool (begun chainS rxI).free)) :=
  stack_of (ws := [0x100000000200, 0, 0, 0, 0, 0x100000008040, 0x20001, 0]) (by decide +kernel) rfl
def chained (b : Bool) : Option (Option State) :=
  ((segs (keptBy (begun chainS rxI) b) 0).2.2.tryChain aCore 0x100000008000 [0x100000000200, 0, 0, 0, 0, 0x100000008040, 0x20001, 0]).1
theorem wit_HandlersEnteredAndLeft_chain : (at_ chainS rxI).Ready aCore rxI (fetched chainS rxI) ∧
    ∀ b, (match chained b with | some (some z) => !(z.core aCore).stepDue | _ => false) = true :=
  ⟨ready_of (by decide +kernel) (by decide +kernel), by decide +kernel⟩

def evS : State := withEvent env
def wfI : Instr := .wfi aCore 0 0
def evOf : List Event := (evS.core aCore).events
theorem evOf_eq : evOf = [⟨{ vec := 32, info := 0x80000018, async := true }, { evS.core aCore with prewarn := false }⟩] := by
  have h1 : (evS.core aCore).mchk = [] := by decide +kernel
  have h2 : (evS.core aCore).prewarn = true := by decide +kernel
  have h3 : (evS.core aCore).irq = [] := by decide +kernel
  simp [evOf, Core.events, h1, h2, h3]
/-- The entry EVENT_ACCEPT makes of it. -/
def evEntry : Entry := { vec := 32, info := 0x80000018, async := true }
def evDesc : Acc (List Word) × State := evS.descriptor aCore 0 32 0x100000002400 4
/-- The state after the choice, its descriptor now in the descriptor cache, and the entry. -/
def evIn : State := (evDesc.2.orphanDrds (.core aCore.val)).setCore aCore { evDesc.2.core aCore with prewarn := false }
theorem evIn_enters : (State.enter evIn aCore { epc := (evS.core aCore).ip } evEntry).isSome = true := by
  unfold State.enter State.tryEnter State.descriptor State.freeBool
  generalize Config.freeBool _ = b
  cases b <;> decide +kernel
theorem wit_InterruptsArrive : (at_ evS wfI).Ready aCore wfI (fetched evS wfI) ∧ ((fetched evS wfI).core aCore).ring ≤ 1 ∧
    ((fetched evS wfI).core aCore).eventPending = true ∧ (at_ env wfI).Ready aCore wfI (fetched env wfI) ∧
    ((fetched env wfI).core aCore).eventPending = false ∧
    ({ up with flight := [{ core := 0, vec := 255, die := 24 }] } : State).flight.find? (fun f => f.die == 24 && f.core / 4 == 0) =
      some ({ core := 0, vec := 255, die := 24 } : Flight) ∧
    up.stopped = false ∧ up.downOn 24 0 false = none ∧ up.pathBusy 24 0 = false ∧ ((up.core aCore).irq.find? fun p => p.vec == 255) = none ∧
    evS.runs aCore = true ∧ (evS.core aCore).wfi = false ∧ (evS.core aCore).hdtbSet = true ∧ (evS.core aCore).im = false ∧
    (evS.core aCore).entered = false ∧ (evS.core aCore).issued = false ∧ (evS.core aCore).pass = none ∧
    (evS.core aCore).boundary = true ∧ evDesc.1 = .ok [0x100000001000, 0x100000009000, 0x0000001000020003, 0] ∧
    (State.enter evIn aCore { epc := (evS.core aCore).ip } evEntry).isSome = true :=
  ⟨ready_of (by decide +kernel) (by decide +kernel), by decide +kernel, by decide +kernel, ready_of (by decide +kernel) (by decide +kernel),
    by decide +kernel, by decide +kernel, by decide +kernel, by decide +kernel, by decide +kernel, by decide +kernel, by decide +kernel,
    by decide +kernel, by decide +kernel, by decide +kernel, by decide +kernel, by decide +kernel, by decide +kernel, by decide +kernel,
    by decide +kernel, evIn_enters⟩

/-! ### Witnesses: vectors, tiles, the engine -/

/-- VL = 1 at SEW 32, FPFLAGS 0. -/
def vecS : State := env.updCore aCore fun x => { (x.gwrite 1 0x100000003000) with vl := 1, vtype := 2 }
def vaI : Instr := .vadd aCore {}
def vfI : Instr := .vfadd aCore {}
theorem wit_VectorArithmeticRetires : (at_ vecS vaI).Ready aCore vaI (fetched vecS vaI) ∧
    ((fetched vecS vaI).core aCore).endLevel ((fetched vecS vaI).core aCore).ip = none ∧
    vLegal .add {} ((fetched vecS vaI).core aCore) = true ∧ (at_ vecS vfI).Ready aCore vfI (fetched vecS vfI) ∧
    vLegal .fadd {} ((fetched vecS vfI).core aCore) = true ∧
    ((fetched vecS vaI).core aCore).vl ≠ 0 ∧ fpTraps ((fetched vecS vfI).core aCore).fpflags = 0 ∧ ((fetched vecS vaI).core aCore).vq.length < 16 ∧
    (at_ up vaI).Ready aCore vaI (fetched up vaI) ∧ vLegal .add {} ((fetched up vaI).core aCore) = true ∧ ((fetched up vaI).core aCore).vl = 0 :=
  ⟨ready_of (by decide +kernel) (by decide +kernel), by decide +kernel, by decide +kernel, ready_of (by decide +kernel) (by decide +kernel),
    by decide +kernel, by decide +kernel, by decide +kernel, by decide +kernel, ready_of (by decide +kernel) (by decide +kernel), by decide +kernel,
    by decide +kernel⟩
def vk (op : VOp) (acc : List ElemAcc) : VTask := { op, vtype := 2, vl := 1, acc }
def vAcc : List ElemAcc := [{ idx := 0, off := 0x100000003000, parts := [⟨0x100000003000, 4⟩] }]
theorem wit_VectorCompletes : (vk .add []).q = none ∧
    VOp.add ∉ ([.ld, .lds, .ldx, .ldff, .ldm, .ldr, .ldmr, .st, .sts, .stx, .stm, .str, .stmr, .tvmov, .vtmov] : List VOp) ∧
    (upWith fun x => { x with vq := [vk .add []] }).stopped = false ∧ ((upWith fun x => { x with vq := [vk .add []] }).core aCore).vq = [vk .add []] ∧
    ((upWith fun x => { x with vq := [vk .ld vAcc] }).vecLoads aCore (vk .ld vAcc) vAcc).1.acc = [] ∧
    (upWith fun x => { x with vq := [vk .st vAcc] }).storesReady (reqOf aCore) vAcc = true ∧ (vk .add []).sew = 32 ∧ 0 < (vk .add []).len ∧
    (vk .add []).active {} 0 = true ∧ ({ vk .add [] with f := { me := true } } : VTask).active {} 0 = false := by
  and_intros <;> decide +kernel
/-- An element kept, an active one, one without a mask bit, and a mask result below VL. -/
theorem wit_VectorCompletes_others : (vk .slideup []).sew = 32 ∧ (vk .fadd []).len = 1 ∧ (vk .fadd []).len ≤ 32768 ∧ ((vk .fadd []).elems {}).n ≤ 1 ∧
    ¬ (((vk .fadd []).elems {}).n ≤ 0) ∧ (vk .fadd []).active {} 0 = true ∧ ({ vk .fadd [] with f := { me := true } } : VTask).active {} 0 = false ∧
    ({ vk .fdot4 [] with vl := 4, vtype := 1 } : VTask).len = 4 ∧ ({ vk .redsum [] with vl := 1 } : VTask).sew = 32 := by
  and_intros <;> decide +kernel
def vgI : Instr := .vget aCore {}
def vcI : Instr := .vcfg aCore { imm := 0x3F, ga := 63 }
def vcrI : Instr := .vcfgr aCore { gb := 63 }
theorem wit_VectorScalarsAndConfiguration : (at_ vecS vgI).Ready aCore vgI (fetched vecS vgI) ∧ vLegal .get {} ((fetched vecS vgI).core aCore) = true ∧
    vLegal .getu {} ((fetched vecS vgI).core aCore) = true ∧ vLegal .mpopc {} ((fetched vecS vgI).core aCore) = true ∧
    vLegal .mfirst {} ((fetched vecS vgI).core aCore) = true ∧ ((fetched vecS vgI).core aCore).vl ≠ 0 ∧ ((fetched vecS vgI).core aCore).vq = [] ∧
    (at_ vecS vcI).Ready aCore vcI (fetched vecS vcI) ∧ (at_ vecS vcrI).Ready aCore vcrI (fetched vecS vcrI) ∧
    ((fetched vecS vcI).core aCore).endLevel ((fetched vecS vcI).core aCore).ip = none ∧
    ({ vd := 63, ga := 63 } : VFields).form = 0 ∧ vtypeReserved (zx ({ imm := 0x3F } : VFields).imm) = true ∧
    vtypeReserved (zx ({ imm := 0x02 } : VFields).imm) = false :=
  ⟨ready_of (by decide +kernel) (by decide +kernel), by decide +kernel, by decide +kernel, by decide +kernel, by decide +kernel, by decide +kernel,
    by decide +kernel, ready_of (by decide +kernel) (by decide +kernel), ready_of (by decide +kernel) (by decide +kernel), by and_intros <;> decide +kernel⟩
def vmF : VFields := { ga := 1, sg := 1 }
def vmB (op : VOp) (i : Instr) : Bool :=
  let x := (fetched vecS i).core aCore
  let k := x.vtask op vmF
  match (begun vecS i).elemChecks aCore (reqOf aCore) 1 op.stores (k.offs x (x.eaV vmF)) with
  | (.all l, u, _) => vLegal op vmF x && !u.tqHolds aCore (l.flatMap (·.parts)) op.stores && (u.core aCore).vq.isEmpty && (u.core aCore).slot.isNone
      && !(u.core aCore).stepDue
  | _ => false
theorem wit_VectorMemoryRetires : (at_ vecS (.vld aCore vmF)).Ready aCore (.vld aCore vmF) (fetched vecS (.vld aCore vmF)) ∧ vmB .ld (.vld aCore vmF) = true ∧
    (at_ vecS (.vst aCore vmF)).Ready aCore (.vst aCore vmF) (fetched vecS (.vst aCore vmF)) ∧ vmB .st (.vst aCore vmF) = true ∧
    (at_ vecS (.vstm aCore vmF)).Ready aCore (.vstm aCore vmF) (fetched vecS (.vstm aCore vmF)) ∧ vmB .stm (.vstm aCore vmF) = true :=
  ⟨ready_of (by decide +kernel) (by decide +kernel), by decide +kernel, ready_of (by decide +kernel) (by decide +kernel), by decide +kernel,
    ready_of (by decide +kernel) (by decide +kernel), by decide +kernel⟩
/-- TCFG0 and TCFG1: BF16 halves of A, 2 rows of 8 bytes; TCFG2 and TCFG3: BF16 halves of B, 4 rows of 512 bytes; TCFG4: rows of 1,024
bytes, one. Group 0 has rows 0–1023 and belongs to core 0. -/
def tileS : State :=
  let s := vecS.updCore aCore fun x => { x with
    tcfg := [(0, 0x300080002), (1, 0x300080002), (2, 0x302000004), (3, 0x302000004), (4, 0x204000001)] }
  s.setReg 0 .MXE_AG 0 0x8000000104000000
def okBase (r : Except Exc Nat) : Option Nat := match r with | .ok b => some b | .error _ => none
def plI : Instr := .tpull aCore { td := 4, ga := 1, sg := 1 }
def psI : Instr := .tpush aCore { ta := 4, ga := 1, sg := 1 }
def twI : Instr := .twipe aCore { td := 4 }
def asI : Instr := .accSt aCore { td := 4, imm := 1023 }
def alI : Instr := .accLd aCore { ta := 4, imm := 1023, fin := true }
def tvI : Instr := .tvmov aCore { vd := 8, va := 4 }
def vtI : Instr := .vtmov aCore { vd := 4, va := 8 }
def tlOk (w : Bool) (i : Instr) : Bool :=
  match (begun tileS i).elemChecks aCore (reqOf aCore) 1 w (tileOffs (((fetched tileS i).core aCore).gread 1 + sx (0 : BitVec 12)) (((fetched tileS i).core aCore).gread 0) 1 1024) with
  | (.all l, u, _) => !u.vqHolds aCore (l.flatMap (·.parts)) w && decide ((u.core aCore).tq.length < 16) && (u.core aCore).slot.isNone
      && !(u.core aCore).stepDue
  | _ => false
theorem wit_TileInstructionsRetire : (at_ tileS plI).Ready aCore plI (fetched tileS plI) ∧ (at_ tileS psI).Ready aCore psI (fetched tileS psI) ∧
    (at_ tileS twI).Ready aCore twI (fetched tileS twI) ∧ (at_ tileS asI).Ready aCore asI (fetched tileS asI) ∧
    (at_ tileS alI).Ready aCore alI (fetched tileS alI) ∧ (at_ tileS tvI).Ready aCore tvI (fetched tileS tvI) ∧
    (at_ tileS vtI).Ready aCore vtI (fetched tileS vtI) :=
  ⟨ready_of (by decide +kernel) (by decide +kernel), ready_of (by decide +kernel) (by decide +kernel), ready_of (by decide +kernel) (by decide +kernel),
    ready_of (by decide +kernel) (by decide +kernel), ready_of (by decide +kernel) (by decide +kernel), ready_of (by decide +kernel) (by decide +kernel),
    ready_of (by decide +kernel) (by decide +kernel)⟩
theorem wit_TileInstructionsRetire_fields : isSystem aCore = false ∧
    tcfgRows (((fetched tileS plI).core aCore).tcfgOf 4) = 1 ∧ tcfgRb (((fetched tileS plI).core aCore).tcfgOf 4) = 1024 ∧
    tlOk false plI = true ∧ tlOk true psI = true ∧ ((fetched tileS twI).core aCore).tq.length < 16 ∧
    okBase ((begun tileS asI).groupCheck aCore 1023 1) = some 0 ∧ okBase ((begun tileS alI).groupCheck aCore 1023 1) = some 0 ∧
    okBase ((begun tileS alI).groupCheck aCore 1024 1) = none ∧
    vLegal .tvmov { vd := 8, va := 4 } ((fetched tileS tvI).core aCore) = true ∧ vLegal .vtmov { vd := 4, va := 8 } ((fetched tileS vtI).core aCore) = true ∧
    ((fetched tileS tvI).core aCore).vl ≠ 0 ∧ ((fetched tileS tvI).core aCore).vq.length < 16 ∧
    (((fetched tileS tvI).core aCore).gread 0).toNat + (((fetched tileS tvI).core aCore).vl.toNat * sewBits ((fetched tileS tvI).core aCore).vtype / 8 + 1024 - 1) / 1024 ≤ 1 := by
  and_intros <;> decide +kernel

def tqS (op : TOp) : State := (tileS.updCore aCore fun x => { x with
  tq := [{ op, tile := 4, rows := 1, rb := 1024 }], vq := [{ op := if op = .tvmov then .tvmov else .vtmov, vtype := 2, vl := 2 }] })
/-- A row of the tile whose place is in tile store 1. -/
def rowAcc : ElemAcc := { idx := 0, off := 0x100080003000, parts := [⟨0x100080003000, 64⟩] }
def tqRow (op : TOp) (fill : List Nat) : State := { (tileS.updCore aCore fun x => { x with
  tq := [{ op, tile := 4, rows := 1, rb := 1024, acc := [rowAcc] }] }) with tileFill := fill }
theorem wit_TileQueueRuns : (tqS .twipe).stopped = false ∧ ((tqS .twipe).engine 0).tileRun = none ∧
    (tqS .twipe).tileServed 0 = some aCore ∧ (tqS .accSt).tileServed 0 = some aCore ∧
    (tqS .accSt).passOwes 0 0 1 = false ∧ (tqS .accLd).tileServed 0 = some aCore ∧ (tqS .vtmov).tileServed 0 = some aCore ∧
    (tqS .tvmov).tileServed 0 = some aCore ∧ ((tqS .tvmov).engine 0).tdmg = [] ∧ ((tqS .tvmov).engine 0).tpoison = [] ∧ (dieOf aCore).val = 0 ∧
    ({ op := .tvmov, vtype := 2, vl := 2 } : VTask).sew = 32 := by
  and_intros <;> decide +kernel
/-- A TPULL whose row comes, and one whose row waits for tile store 1 to fill; a TPUSH of a row. -/
theorem wit_TileQueueRuns_rows : (tqRow .tpull []).tileServed 0 = some aCore ∧ (tqRow .tpush []).tileServed 0 = some aCore ∧
    ((tqRow .tpull []).pullRows aCore { op := .tpull, tile := 4, rows := 1, rb := 1024 } [rowAcc]).1.acc = [] ∧
    ((tqRow .tpull [1]).pullRows aCore { op := .tpull, tile := 4, rows := 1, rb := 1024 } [rowAcc]).1.acc = [rowAcc] ∧
    (tqRow .tpush []).storesReady (engReq 0) [rowAcc] = true ∧
    ((tqRow .tpull []).homeElem (.tile 0) (engReq 0) 4 rowAcc).1 = some (List.replicate 64 0, none) ∧
    ((tqRow .tpush []).pushParts aCore false [] rowAcc.parts (List.replicate 64 1)).1 = false := by
  and_intros <;> decide +kernel

/-- The pass of a TMMA of tiles 0 and 2. -/
def aPass : Pass := { ta := 0, tb := 2, m := 2, kb := 4, kp := 256 }
def passS (p : Pass) : State := tileS.updCore aCore fun x => { x with pass := some p }
def tmI : Instr := .tmma aCore { ta := 0, tb := 2 }
def tpI : Instr := .tmmp aCore { ta := 0, tb := 2, imm := 1020 }
theorem wit_PassesCheckedAndRetired : (at_ tileS tmI).Fetches aCore tmI (fetched tileS tmI) ∧ (at_ tileS tpI).Fetches aCore tpI (fetched tileS tpI) ∧
    ((fetched tileS tmI).core aCore).tmmaCheck 0 2 = none ∧ ((fetched tileS tpI).core aCore).tmmpCheck 0 2 = none ∧
    okBase ((begun tileS tmI).groupCheck aCore 0 (accW (accFormat 3 false) * 2)) = some 0 ∧
    okBase (groupCheckOf (coreK aCore) 0 ((fetched tileS tmI).reg 0 .MXE_AG 0) 0 (accW (accFormat 3 false) * 2)) = some 0 ∧
    ((fetched tileS tmI).core aCore).ahead = none ∧
    okBase ((begun tileS tpI).groupCheck aCore 1020 (accW (accFormat 3 true) * 2)) = some 0 ∧
    (passS { aPass with next := 2 }).running aCore = true ∧ ((passS { aPass with next := 2 }).core aCore).pass = some { aPass with next := 2 } ∧
    ((passS { aPass with next := 2 }).core aCore).slot = none ∧ ((passS { aPass with next := 2 }).core aCore).stepDue = false :=
  ⟨fetches_of (by decide +kernel), fetches_of (by decide +kernel), by and_intros <;> decide +kernel⟩
def strmS : State := passS { aPass with streaming := true, next := 1 }
/-- The pass's B block, held by the first bank. -/
def aTag : Bank := (passS aPass).bankTag aCore 2 256
def latchedS : State := (passS { aPass with latched := [aTag] }).updEngine 0 fun e => { e with bank0 := some aTag }
theorem wit_PassStreams : strmS.stopped = false ∧ (dieOf aCore).val = 0 ∧ strmS.streamingCore 0 = some aCore ∧ 1 < aPass.m ∧ (strmS.engine 0).tdmg = [] ∧
    (strmS.engine 0).admg = [] ∧ (strmS.engine 0).bdmg0 = 0 ∧ (strmS.engine 0).bdmg1 = 0 ∧
    latchedS.streamingCore 0 = none ∧ latchedS.passHeld 0 = false ∧ latchedS.gangWork 0 = [] ∧
    nextCore 0 (latchedS.engine 0).lastPass latchedS.passLatched = some aCore ∧ [aTag].all (latchedS.engine 0).hasBank = true ∧
    latchedS.passTags aCore aPass = [aTag] ∧ (passS aPass).streamingCore 0 = none ∧ (passS aPass).passHeld 0 = false ∧ (passS aPass).gangWork 0 = [] ∧
    nextCore 0 ((passS aPass).engine 0).lastPass (passS aPass).passLatched = none ∧ (passS aPass).nextLoad 0 = some aCore ∧
    ((passS aPass).core aCore).passReady = true ∧ ((passS aPass).engine 0).hasBank aTag = false ∧ ((passS aPass).latch aCore [aTag]).isSome = true ∧
    (passS aPass).running aCore = true ∧
    (State.freeBank ((passS aPass).updCore aCore fun z => { z with pass := some { aPass with latched := [aTag] } }) 0).isSome = true := by
  and_intros <;> decide +kernel
def ftqS (n : Nat) : State := idle.updEngine 0 fun x => { x with ftq := List.range n, held := [[0x1FFFFFFFFF, 1, 2]] }
theorem wit_FinishedTilePosted : (ftqS 63).stopped = false ∧ ((ftqS 63).engine 0).held = [[0x1FFFFFFFFF, 1, 2]] ∧
    ((ftqS 63).engine 0).ftq.length < 64 ∧ (ftqS 64).stopped = false ∧
    64 ≤ ((ftqS 64).engine 0).ftq.length ∧ ((ftqS 64).engine 0).held = [[0x1FFFFFFFFF, 1, 2]] := by
  and_intros <;> decide +kernel

/-! ### Witnesses: gangs and Glaze -/

/-- The GMM descriptor of M = N = 256, K = 64, BF16, L = 1. -/
def gmmWs : List Word := [0x5000, 64, 0, 0, 0x6000, 512, 0, 0, 0x0000000100000100, 0x0000203300000040, 0, 0, 0, 0, 0, 0]
/-- Gang 0: dies 0 and 1, led by core 0, at least one member; its group 0 open with 2,048 rows, the region 4,096 rows from 0x100. -/
def gangS : State :=
  let s := (putWords vecS 0x100000003000 gmmWs).setReg 24 .GNG_CFG 0 0x8000000100000003
  let s := ((s.setReg 24 .GNG_STAT 0 0x3).setFld 24 .GNG_GLOBAL 0 23 8 0x100).setFld 24 .GNG_GLOBAL 0 39 24 4096
  (s.setReg 24 .GNG_GRP 0 0x8000000008000100).updGang 0 fun x => { x with accepted := [(0, 2048)] }
def aGmm : Gmm := gmmOf gmmWs 0 0 (.core aCore)
def ggI : Instr := .gmm aCore { ga := 1, sg := 1 }
def goI : Instr := .gaccOpen aCore { ga := 1, imm := 15 }
def gcI : Instr := .gaccClose aCore {}
def gmmChk : CRes (List Piece) × State := (begun gangS ggI).elemCheck aCore (reqOf aCore) 1 false 0x100000003000 128
def gmmRead : CRes (List Byte) × State := gmmChk.2.readNow aCore 0x100000003000 [⟨0x100000003000, 64⟩, ⟨0x100000003040, 64⟩]
theorem freeRange_alone (base size r : Nat) (h : r ≤ size) : freeRange base size r [] = some base := by
  simp only [freeRange, List.map_nil, List.mergeSort_singleton, List.find?_cons, List.all_nil, Bool.and_true, Nat.le_refl, true_and]
  rw [decide_eq_true (by omega)]
theorem gmm_fits : gmmRead.2.gmmGangCheck 0 aGmm = none := by
  simp only [State.gmmGangCheck, State.members, snakeOrder, List.length_mergeSort]
  decide +kernel
/-- GACC.OPEN of all 4,096 rows: g1 holds the count. -/
def openS : State := ((gangS.setReg 24 .GNG_GRP 0 0).updGang 0 fun x => { x with accepted := [] }).updCore aCore fun x => x.gwrite 1 4096
theorem wit_GangInstructionsAccepted : (at_ gangS ggI).Ready aCore ggI (fetched gangS ggI) ∧ isSystem aCore = false ∧
    gmmChk.1 = .ok [⟨0x100000003000, 64⟩, ⟨0x100000003040, 64⟩] ∧ gmmRead.1 = .ok (bytesOf gmmWs) ∧
    aGmm.check (gmmRsv gmmWs) = none ∧ gmmRead.2.ledBy aCore = some 0 ∧ gmmRead.2.gmmGangCheck 0 aGmm = none ∧
    (gmmRead.2.core aCore).vq = [] ∧ (gmmRead.2.core aCore).tq = [] ∧ (gmmRead.2.acked aCore).gangRoom 0 = true ∧
    (gmmRead.2.core aCore).slot = none ∧ (gmmRead.2.core aCore).stepDue = false :=
  ⟨ready_of (by decide +kernel) (by decide +kernel), by decide +kernel, by decide +kernel, by decide +kernel, by decide +kernel, by decide +kernel,
    gmm_fits, by decide +kernel, by decide +kernel, by decide +kernel, by decide +kernel, by decide +kernel⟩
theorem wit_GangInstructionsAccepted_groups : (at_ openS goI).Ready aCore goI (fetched openS goI) ∧ (fetched openS goI).ledBy aCore = some 0 ∧
    (fetched openS goI).gangRoom 0 = true ∧ (fetched openS goI).acceptedRows 0 15 = none ∧ (((fetched openS goI).core aCore).gread 1).toNat = 4096 ∧
    (fetched openS goI).fld 24 .GNG_GLOBAL 0 39 24 = 4096 ∧ (fetched openS goI).fld 24 .GNG_GLOBAL 0 23 8 = 0x100 ∧ (fetched openS goI).acceptedRanges 0 = [] ∧
    freeRange 0x100 4096 4096 [] = some 0x100 ∧ (at_ gangS gcI).Ready aCore gcI (fetched gangS gcI) ∧
    (fetched gangS gcI).ledBy aCore = some 0 ∧ (fetched gangS gcI).gangRoom 0 = true ∧ ((fetched gangS gcI).acceptedRows 0 0).isSome = true :=
  ⟨ready_of (by decide +kernel) (by decide +kernel), by decide +kernel, by decide +kernel, by decide +kernel, by decide +kernel, by decide +kernel,
    by decide +kernel, by decide +kernel, freeRange_alone _ _ _ (by decide), ready_of (by decide +kernel) (by decide +kernel), by decide +kernel,
    by decide +kernel, by decide +kernel⟩
def gangQ (f : GangSt → GangSt) : State := gangS.updGang 0 f
def t0 : GangTask := { b := 0, p := 0, die := 0, done := 1, summed := true, posted := true }
def t1 : GangTask := { b := 0, p := 1, die := 1, done := 1 }
/-- An operation of two passes of one block, the first task finished; the same with no task left, and failed. -/
def aRun : GangRun := { d := { aGmm with l := 2, k := 512 }, active := 3, tasks := [t0, t1] }
def endRun : GangRun := { aRun with tasks := [] }
def runG (r : GangRun) : State := gangQ fun x => { x with run := some r }
def wrote (r : GangRun) (st : Nat) : Bool :=
  let w := (runG r).gangRecord 0 r.d st r
  w.1 && !(w.2.updGang 0 fun x => { x with run := some { r with recorded := true } }).postedBy (.gang 0)
theorem wit_GangOperations : (gangQ fun x => { x with queue := [.openG 15 4096] }).stopped = false ∧
    ((gangQ fun x => { x with queue := [.openG 15 4096] }).gang 0).run = none ∧
    ((gangQ fun x => { x with queue := [.openG 15 4096] }).gang 0).narrow = [] ∧
    ((gangQ fun x => { x with queue := [.openG 15 4096] }).gang 0).readmit = [] ∧
    bit (gangS.grpReg 0 aGmm.grp) 63 = true ∧ aGmm.add = false ∧
    aGmm.off + aGmm.need (aGmm.bm * aGmm.bn) (max 1 (popN 24 (gangS.fld 24 .GNG_STAT 0 23 0))) ≤ bits (gangS.grpReg 0 aGmm.grp) 31 16 ∧
    aGmm.src = .core aCore ∧ aRun.failed = false ∧ (aRun.d.segment 1).2 ≤ 1 ∧ t0.finished aRun.d = true ∧
    (runG aRun).blockDead aRun.d 0 = false ∧ (runG aRun).downOn 0 1 false = none ∧ (runG aRun).pathBusy 0 1 = false ∧ aRun.d.acc = 0 ∧ aRun.d.fin = false ∧
    (runG endRun).gangFinished endRun = true ∧ wrote { endRun with status := 1 } 1 = true ∧ wrote { endRun with failed := true, status := 2 } 2 = true ∧
    (runG { endRun with recorded := true }).postedBy (.gang 0) = false := by
  and_intros <;> decide +kernel
theorem gangQ_ranges : (gangQ fun x => { x with queue := [] }).heldRanges 0 15 = [(0x100, 2048)] := by decide +kernel
theorem wit_GangOperations_open : freeRange 0x100 4096 2048 [(0x100, 2048)] = some 0x900 := by
  simp only [freeRange, List.map_cons, List.map_nil]
  rw [show ([0x100, 0x900] : List Nat).mergeSort (fun a b => decide (a ≤ b)) = [0x100, 0x900] from List.mergeSort_of_pairwise (by decide)]
  decide
theorem wit_GangOperations_sums : (runG { aRun with d := { aRun.d with m := 1 } }).blockRows { aRun.d with m := 1 } 0 = 1 ∧
    (gangS.engine 0).admg = [] ∧ (gangS.engine 1).admg = [] ∧ aRun.tasks[1]? = some t1 ∧ aRun.tasks[0]? = some t0 := by
  and_intros <;> decide +kernel
theorem wit_GangMembershipChanges : (gangQ fun x => { x with narrow := [1] }).stopped = false ∧ here (gangS.setReg 24 .GNG_STAT 0 0x1) q0 .GNG_READMIT = true ∧
    bit (0x21 : Word) 5 = true ∧ bits (0x37 : Word) 4 0 = 23 ∧ (gangS.setReg 24 .GNG_STAT 0 0x1).flag 24 .GNG_CFG 0 1 = true ∧
    (gangS.setReg 24 .GNG_STAT 0 0x1).flag 24 .GNG_STAT 0 1 = false ∧
    ((gangS.setReg 24 .GNG_STAT 0 0x1).gang 0).readmit.contains 1 = false ∧
    ((gangQ fun x => { x with narrow := [1] }).gang 0).run = none ∧ (gangS.fld 24 .GNG_STAT 0 23 0).testBit 1 = true ∧
    gangS.fld 24 .GNG_CFG 0 30 24 / 4 ≠ 1 ∧ gangS.fld 24 .GNG_CFG 0 36 32 < popN 24 (gangS.fld 24 .GNG_STAT 0 23 0) ∧
    ((gangQ fun x => { x with readmit := [23] }).gang 0).readmit = [23] := by
  and_intros <;> decide +kernel

/-- A program of one operation: output 0 is source 8 times source 8 in FP32. -/
def glzOps : List Word := [0x30880000]
def glzDesc : List Word := [0, 0, 0x100000005000, 256] ++ List.replicate 20 0
/-- Entry 0 of the finished-tile queue: one row of group 0, bound to a descriptor and the program in slot 1. -/
def glzS : State :=
  let s := putWords (putWords tileS 0x100000003038 ([1] ++ glzOps)) 0x100000004000 glzDesc
  let s := s.updCore aCore fun x => { (x.gwrite 2 0x100000003038) with glz := [(1, 1 :: glzOps)] }
  ((s.setReg 0 .GLZ_BIND 0 0x8000100000004001).updEngine 0 fun e => { e with ftq := [0] }).setRegW 0 .FTQ_ENT 0 0 0x8000000000010000
noncomputable section
def zlI : Instr := .glzLd aCore { ga := 2, sg := 1, slot := 3 }
def zdI : Instr := .glzDrain aCore { gd := 3 }
def zsI : Instr := .glzStat aCore {}
def zhI : Instr := .glzHst aCore { ga := 1, sg := 1 }
def zlH : CRes (List Word) × State := (begun glzS zlI).readImageAt aCore 1 0x100000003038 1
def zlB : CRes (List Word) × State := zlH.2.readImageAt aCore 1 0x100000003040 1
def drain1 : CRes (List (Nat × Piece)) × State := (begun glzS zdI).linChecks aCore none [(false, false, bits (0x8000100000004001 : Word) 51 6 * 64, 192)]
def crOk {α β : Type} (r : CRes α × β) : Bool := match r.1 with | .ok _ => true | _ => false
def crList {α β : Type} (r : CRes (List α) × β) : List α := match r.1 with | .ok l => l | _ => []
def drain2 : CRes (List Byte) × State := drain1.2.readNow aCore (BitVec.ofNat 64 (bits (0x8000100000004001 : Word) 51 6 * 64)) ((crList drain1).map (·.2))
def drainGeo : QGeo := (fetched glzS zdI).quarterGeo 0 0 0
def drain3 : CRes (List (Nat × Piece)) × State := drain2.2.linChecks aCore (drain2.2.entryWindow 0 0) (quarterRanges glzDesc glzOps drainGeo)
def drained : State := drain3.2.claimQuarter aCore 3 0 0 drainGeo glzOps glzDesc (crList drain3)
theorem wit_GlazeInstructions : (at_ glzS zlI).Ready aCore zlI (fetched glzS zlI) ∧ isSystem aCore = false ∧
    zlH.1 = .ok [1] ∧ bits (1 : Word) 6 0 ≠ 0 ∧ zlB.1 = .ok glzOps ∧ gFirstBad glzOps = none ∧ (zlB.2.core aCore).slot = none ∧
    (zlB.2.core aCore).stepDue = false ∧ (at_ tileS zdI).Ready aCore zdI (fetched tileS zdI) ∧ (fetched tileS zdI).nextQuarter aCore = none ∧
    (at_ glzS zdI).Ready aCore zdI (fetched glzS zdI) ∧
    (fetched glzS zdI).nextQuarter aCore = some (0, 0) ∧ bit ((fetched glzS zdI).reg 0 .GLZ_BIND drainGeo.grp) 63 = true ∧
    ((fetched glzS zdI).core aCore).slotOf (bits ((fetched glzS zdI).reg 0 .GLZ_BIND drainGeo.grp) 3 0) = 1 :: glzOps ∧
    crOk drain1 = true ∧ words64 24 (crList drain2) = glzDesc ∧ descCheck glzDesc glzOps = none ∧ crOk drain3 = true ∧
    (drain3.2.core aCore).vq.length < 16 ∧ drain3.2.tqHolds aCore ((crList drain3).map (·.2)) true = false ∧
    (drain3.2.core aCore).amOwed drainGeo.am (accW drainGeo.afmt * drainGeo.rows) = false ∧
    (drained.core aCore).slot = none ∧ (drained.core aCore).stepDue = false :=
  ⟨ready_of (by decide +kernel) (by decide +kernel), by decide +kernel, by decide +kernel, by decide +kernel, by decide +kernel, by decide +kernel,
    by decide +kernel, by decide +kernel, ready_of (by decide +kernel) (by decide +kernel), by decide +kernel,
    ready_of (by decide +kernel) (by decide +kernel), by and_intros <;> decide +kernel⟩
def histChk : VChk × State × State := (begun tileS zhI).elemChecks aCore (reqOf aCore) 1 true (histOffs 0x100000003000)
def histOk : Bool := match histChk.1 with
  | .all l => let u := histChk.2.1
    (u.histDies aCore 0).isSome && !u.vecHolds aCore (l.flatMap (·.parts)) true && u.storesReady (reqOf aCore) l && !u.storeHeld aCore
  | _ => false
def hldI : Instr := .glzHld aCore { ga := 1, sg := 1 }
def histRd : CRes (List Word) × State := (begun tileS hldI).readImageAt aCore 1 0x100000003000 10
theorem wit_GlazeInstructions_history : (at_ tileS zsI).Ready aCore zsI (fetched tileS zsI) ∧ bit ((fetched tileS zsI).reg 0 .MXE_AG 0) 63 = true ∧
    bit ((fetched tileS zsI).reg 0 .MXE_AG 0) (32 + (coreK aCore).val) = true ∧ (fetched tileS zsI).quarterOf 0 0 = false ∧
    (fetched tileS zsI).histDies aCore 0 = some [0] ∧ (at_ tileS zhI).Ready aCore zhI (fetched tileS zhI) ∧ histOk = true ∧
    (at_ tileS hldI).Ready aCore hldI (fetched tileS hldI) ∧
    histRd.1 = .ok (List.replicate 10 0) ∧ histRd.2.histDies aCore 0 = some [0] ∧ (histRd.2.core aCore).slot = none ∧
    (histRd.2.core aCore).stepDue = false :=
  ⟨ready_of (by decide +kernel) (by decide +kernel), by decide +kernel, by decide +kernel, by decide +kernel, by decide +kernel,
    ready_of (by decide +kernel) (by decide +kernel), by decide +kernel, ready_of (by decide +kernel) (by decide +kernel), by decide +kernel,
    by decide +kernel, by decide +kernel, by decide +kernel⟩
end
/-- R198's history of 16 entries. -/
theorem wit_HistoryRoundTrip : ({} : Hist).vals.length = 16 ∧ ({} : Hist).head < 16 ∧ ({} : Hist).count ≤ 16 ∧
    ∀ w ∈ ({} : Hist).vals, w < 2 ^ 32 := by decide
def aQuarter : Quarter := { entry := 0, q := 0, prog := glzOps, desc := glzDesc }
def quarterS : State := upWith fun x => { x with vq := [{ op := .glzDrain, q := some aQuarter }] }
def aGeo : QGeo := quarterS.quarterGeo 0 0 0
def quarterOk : Bool := match (quarterS.quarterData aCore aGeo aQuarter) with
  | (.ok m, u) => (u.quarterRows aCore aGeo aQuarter m).1.1.isNone
  | _ => false
/-- Entry e, its quarters' marks as given. -/
def entryS (e : Nat) (w : Word) : State := (up.updEngine 0 fun x => { x with ftq := [e] }).setRegW 0 .FTQ_ENT e 0 w
theorem wit_QuartersRun : quarterS.stopped = false ∧ quarterOk = true ∧ quarterS.passOwes 0 aGeo.am (accW aGeo.afmt * aGeo.rows) = false ∧
    (entryS 63 0x8000780000000000).stopped = false ∧
    63 ∈ ((entryS 63 0x8000780000000000).engine 0).ftq ∧ bits ((entryS 63 0x8000780000000000).ftqW 0 63 0) 46 43 = 15 ∧
    (entryS 63 0x8000780000000000).outputsPosted 0 63 = false ∧
    (look (fun _ => {}) ((entryS 63 0x8000780000000000).engine 0).counter 63).parts = [] ∧ quarterS.quarterBusy aCore aGeo aQuarter = false ∧
    here (entryS 0 0x8000008000000000) (.core aCore) .FTQ_CMD 0 = true ∧ bits (0x100 : Word) 9 8 = 1 ∧ bits (0x13F : Word) 5 0 = 63 ∧
    Nat.lor (bits ((entryS 0 0x8000008000000000).ftqW 0 0 0) 46 43) (15 - bits ((entryS 0 0x8000008000000000).ftqW 0 0 0) 42 39) ≠ 15 ∧
    bits ((entryS 0 0x8000008000000000).ftqW 0 0 0) 46 43 ≠ 15 := by
  and_intros <;> decide +kernel

/-! ### Witnesses: streams, sync objects, triggers, windows, faults -/

/-- Stream 0 of four, its ring of 16 slots in tile store 0, in a state; four sync objects; staging and a kernel image table in place. -/
def strS (st : Nat) : State :=
  let s := ((up.setFld 24 .STM_CFG 0 18 0 4).setFld 24 .SYN_CFG 0 16 0 4).setFld 24 .STM_CFG 0 47 32 64
  let s := (s.setFld 24 .TRW_KIT_CNT 0 16 0 2).setReg 24 .TRW_KIT_BASE 0 0x100000020000
  let s := ((s.setStrW 0 0 0x0004100000010000).setStrF 0 3 35 32 st).setLink .agd { state := 5, credit := [100, 100, 100, 100] }
  { s with trowel := { s.trowel with enabled := if st = 0 then [] else [0] } }
/-- Stream 0 with a command started. -/
def runS (ws : List Word) (run : CmdRun) : State := (strS 5).setRun { s := 0, cmd := ws, run }
def hasRing (s : State) : Bool := decide (4 ≤ s.strF 0 0 52 48) && decide (s.strF 0 0 52 48 ≤ 20) && decide (s.strF 0 0 5 0 = 0)
def cancelled (s : State) : State :=
  let u := s.setStrState 0 8
  State.undoAhead { u with trowel := { u.trowel with cancelCode := put (fun _ => 0) u.trowel.cancelCode 0 0 } } 0
theorem wit_StreamOperations : here (strS 0) q0 .STM_CMD = true ∧ (3 : StreamId).toNat < (strS 0).fld 24 .STM_CFG 0 18 0 ∧
    ¬ (4 : StreamId).toNat < (strS 0).fld 24 .STM_CFG 0 18 0 ∧ (strS 0).strState 0 = 0 ∧ hasRing (strS 0) = true ∧ (strS 1).strState 0 = 1 ∧
    (strS 7).strState 0 = 7 ∧ ((strS 7).setRun { s := 0, run := .faulted }).runOf 0 = some { s := 0, run := .faulted } ∧
    (strS 8).strState 0 = 8 ∧ (strS 2).strState 0 = 2 ∧ (cancelled (strS 2)).runOf 0 = none ∧
    (cancelled (runS [0] .begun)).runOf 0 = some { s := 0, cmd := [0], run := .begun } := by
  and_intros <;> decide +kernel
theorem wit_StreamOperations_cancelEnd : (strS 8).stopped = false ∧ (strS 8).strState 0 = 8 ∧ (strS 8).runOf 0 = none ∧ (strS 8).evtRoom = true := by
  and_intros <;> decide +kernel
def nopWs : List Word := List.replicate 8 0
def owedS (st : Nat) : State := (strS st).owe .agd 0 5
/-- The ring full. -/
def fullS : State := (strS 2).setStrF 0 2 63 32 16
def queuedS (ws : List Word) : State := (putWords (strS 2) 0x100000010000 ws).setStrF 0 2 63 32 1
theorem wit_CommandsAppendedAndStarted : (strS 1).stopped = false ∧ ((strS 1).link .agd).state = 5 ∧ nopWs.length = 8 * 1 ∧
    (List.replicate 64 (0 : Word)).length = 8 * 8 ∧ (strS 1).evtRoom = true ∧
    (strS 1).slotsBusy 0 ((strS 1).newCmds 0 1 (groups8 8 nopWs)) = false ∧ (owedS 1).fld 24 .STM_CFG 0 18 0 ≤ (4 : StreamId).toNat ∧
    (owedS 0).strState 0 = 0 ∧ (owedS 8).strState 0 = 8 ∧ (owedS 1).strState 0 = 1 ∧
    0 < ((1 : BitVec 32) - BitVec.ofNat 32 ((owedS 1).strExp 0)).toInt ∧ ((-1 : BitVec 32) - BitVec.ofNat 32 ((owedS 1).strExp 0)).toInt.natAbs = 1 ∧
    1 ≤ (owedS 1).strCredit 0 ∧ (fullS.owe .agd 0 5).strCredit 0 < 1 ∧ (fullS.owe .agd 0 5).strState 0 = 2 ∧
    ((owedS 1).writeSlots 0 ((owedS 1).strF 0 2 63 32) (groups8 8 nopWs)).1 = .ok () := by
  and_intros <;> decide +kernel
/-- A ring in an address that does not exist: its slot cannot be written. -/
def lostRing : State := (strS 1).setStrW 0 0 0x00042F0000000000
theorem wit_CommandsAppendedAndStarted_lost : (match ((lostRing.owe .agd 0 5).writeSlots 0 0 (groups8 8 nopWs)).1 with | .err _ => true | _ => false) = true ∧
    lostRing.slotsBusy 0 (lostRing.newCmds 0 0 (groups8 8 nopWs)) = false ∧ 1 ≤ (lostRing.owe .agd 0 5).strCredit 0 := by
  and_intros <;> decide +kernel
theorem wit_CommandsAppendedAndStarted_start : (queuedS nopWs).stopped = false ∧ (queuedS nopWs).nextStream = some 0 ∧
    ((queuedS nopWs).devRead kReq (.unit 24 11) 64 ((queuedS nopWs).strSlot 0 ((queuedS nopWs).strF 0 2 31 0)) 64).1 = .ok (bytesOf nopWs) ∧
    cmdMalformed nopWs = false ∧ cmdMalformed (0x0B :: nopWs.tail) = true ∧ (strS 2).cmdBadSync nopWs = false ∧
    cmdMalformed (6 :: 4 :: nopWs.drop 2) = false ∧ (strS 2).cmdBadSync (6 :: 4 :: nopWs.drop 2) = true ∧
    (strS 2).cmdBadSync (6 :: 3 :: nopWs.drop 2) = false := by
  and_intros <;> decide +kernel
def aRunOf (ws : List Word) (run : CmdRun) : StreamRun := { s := 0, cmd := ws, run }
def begunOk (ws : List Word) (opc : Nat) : Bool :=
  !(runS ws .begun).stopped && decide ((runS ws .begun).runOf 0 = some (aRunOf ws .begun)) && decide ((aRunOf ws .begun).opc = opc)
/-- The images of a work item and of a gang template, and a GLAUNCH's descriptor, in tile store 0. -/
def tmplWs : List Word := [1, 0x6000, 512, 0, 0, 0x0000010000000040, 0x0000000000800433 + 0x80000, 0, 0, 0, 0, 0, 0, 1, 0, 0]
def imgS (ws : List Word) (run : CmdRun) : State :=
  let s := putWords (putWords (runS ws run) 0x100000020080 tmplWs) 0x100000003000 gmmWs
  (s.setReg 24 .GNG_CFG 0 0x8000000100000003).updGang 0 fun x => { x with accepted := [(0, 2048), (1, 2048)] }
def launchWs (kih rows die : Nat) : List Word :=
  BitVec.ofNat 64 (1 + 2 ^ 32 * kih) :: BitVec.ofNat 64 (2 ^ 48 * rows) :: (nopWs.drop 3 ++ [BitVec.ofNat 64 (2 ^ 17 * die)])
def syncWs (opc : Word) : List Word := opc :: 3 :: 1 :: nopWs.drop 3
def fillWs : List Word := [4, 0x100000003FF8, 0x0102030405060708, 16] ++ nopWs.drop 4
def copyWs (n : Word) : List Word := [3, 0x100000001000, 0x100000002000, n] ++ nopWs.drop 4
def glWs : List Word := 2 :: 0x100000003000 :: nopWs.drop 2
def glRead : DevAcc (List Word) × State := (imgS glWs .begun).devWordsLin ((imgS glWs .begun).strCtx 0 0 64) 0x100000003000 16
theorem wit_StartedCommands : begunOk nopWs 0x00 = true ∧ begunOk (syncWs 6) 0x06 = true ∧ begunOk (syncWs 5) 0x05 = true ∧
    (runS (syncWs 5) .begun).anyPoison (synAddr 3) 32 = false ∧ ((runS (syncWs 5) .begun).synValue 3).toNat = 0 ∧
    begunOk (7 :: nopWs.tail) 0x07 = true ∧ begunOk (8 :: nopWs.tail) 0x08 = true ∧ (runS (8 :: nopWs.tail) .begun).stagingRoom ≠ 0 ∧
    begunOk (10 :: nopWs.tail) 0x0A = true ∧ (runS (10 :: nopWs.tail) .begun).fenceMet 0 = true ∧
    copyOverlaps (aRunOf (copyWs 0x1000) .begun) = false ∧ copyOverlaps (aRunOf (copyWs 0x1001) .begun) = true ∧
    begunOk (copyWs 0x1000) 0x03 = true ∧ (runS fillWs .begun).copies < 8 ∧ begunOk fillWs 0x04 = true := by
  and_intros <;> decide +kernel
theorem wit_StartedCommands_launch : begunOk (launchWs 0 0 23) 0x01 = true ∧ ((imgS (launchWs 0 0 23) .begun).readImage 0).1 = .ok (List.replicate 16 0) ∧
    bits ((aRunOf (launchWs 0 0 23) .begun).dw 7) 21 17 < 24 ∧ bits ((aRunOf (launchWs 0 0 31) .begun).dw 7) 21 17 = 0x1F ∧
    (imgS (launchWs 0 0 23) .begun).fld 24 .TRW_WQN 23 12 0 < 5120 ∧
    ((imgS (launchWs 1 1 0) .begun).readImage 1).1 = .ok tmplWs ∧ imgKind tmplWs = 1 ∧
    ((imgS (launchWs 1 1 0) .begun).readImage 1).2.launchBad (aRunOf (launchWs 1 1 0) .begun) tmplWs = false ∧
    (runS (syncWs 6) .begun).anyPoison (synAddr 3) 32 = false ∧ ((runS (syncWs 6) .begun).setPoison (synAddr 3) true).anyPoison (synAddr 3) 32 = true := by
  and_intros <;> decide +kernel
def kind1 : State := ((imgS (launchWs 1 1 0) .begun).readImage 1).2
def kind1Pages : List (Nat × Bool) := prePages (launchWs 1 1 0) (imageRows tmplWs).1 (imageRows tmplWs).2
/-- A KIND 1 LAUNCH whose addresses are being translated, have been, and have not been. -/
theorem wit_StartedCommands_pre : (kind1.trowel.pre.any fun p => p.s == 0 && p.n == 0) = false ∧ kind1.preTag 0 = none ∧
    (kind1.pagesOver (kind1.strCtx 0 0 64) kind1Pages).1 = .ok () ∧
    (({ kind1 with fqAbort := [{ die := 24, eng := 0, span := 0, own := .stream 0 }] } : State).pagesOver (kind1.strCtx 0 0 64) kind1Pages).1 = .aborted ∧
    (({ kind1 with trowel := { kind1.trowel with pre := [{}] } } : State).trowel.pre.any fun p => p.s == 0 && p.n == 0) = true ∧
    (({ kind1 with trowel := { kind1.trowel with preDone := [{}] } } : State).preTag 0).isSome = true := by
  and_intros <;> decide +kernel
theorem glFits : glRead.2.gmmGangCheck 0 { aGmm with src := .stream 0 } = none := by
  simp only [State.gmmGangCheck, State.members, snakeOrder, List.length_mergeSort]
  decide +kernel
theorem wit_StartedCommands_glaunch : begunOk glWs 0x02 = true ∧ glRead.1 = .ok gmmWs ∧
    gmmOf gmmWs (glRead.2.strW 0 1) (glRead.2.strF 0 0 57 56) (.stream 0) = { aGmm with src := .stream 0 } ∧
    Gmm.check { aGmm with src := .stream 0 } (gmmRsv gmmWs) = none ∧ glRead.2.gangV 0 = true ∧ glRead.2.gangRoom 0 = true := by
  and_intros <;> decide +kernel
def onS (ws : List Word) (off : Nat) : State := runS ws (.copying off)
def fillW : DevAcc Unit × State := (onS fillWs 8).devWriteLin ((onS fillWs 8).strCtx 0 1 4096) 0x100000004000
  ((List.range 8).map fun i => BitVec.ofNat 8 ((0x0102030405060708 : Word).toNat >>> (8 * ((8 + i) % 8)))) false
def copyR : DevAcc (List Byte) × State := (onS (copyWs 8) 0).devReadLin ((onS (copyWs 8) 0).strCtx 0 1 4096) 0x100000001000 8
theorem wit_StartedCommands_goesOn : (onS fillWs 8).stopped = false ∧ (onS fillWs 8).runOf 0 = some (aRunOf fillWs (.copying 8)) ∧
    (onS fillWs 16).postedBy (.stream 0) = false ∧ min (16 - 8) (4096 - (0x100000003FF8 + 8) % 4096) = 8 ∧
    min (16 - 0) (4096 - (0x100000003FF8 + 0) % 4096) = 8 ∧ fillW.1 = .ok () ∧
    fillW.2.postedBy (.stream 0) = false ∧ copyR.1 = .ok (List.replicate 8 0) ∧
    (copyR.2.devWriteLin ((onS (copyWs 8) 0).strCtx 0 1 4096) 0x100000002000 (List.replicate 8 0) false).1 = .ok () ∧
    ((onS fillWs 8).setStrState 0 8).strState 0 = 8 ∧ (0x100000003FF8 + 8) % 4096 = 0 ∧ 8 < bits ((aRunOf fillWs (.copying 8)).dw 3) 39 0 := by
  and_intros <;> decide +kernel
theorem wit_RetirementAdvances : (aRunOf nopWs .begun).ntf = false ∧ (runS nopWs .begun).trowel.enabled.contains 0 = true ∧
    (runS nopWs .begun).strCredit 0 + 1 - look (fun _ => 0) (runS nopWs .begun).trowel.credit 0 < max 1 ((runS nopWs .begun).fld 24 .STM_CFG 0 47 32) ∧
    (runS nopWs .begun).evtRoom = true ∧ (runS nopWs .begun).strState 0 ≠ 8 := by
  and_intros <;> decide +kernel
theorem wit_SyncUpdates : here (strS 1) q0 .SYN_OP = true ∧ (strS 1).fld 24 .SYN_CFG 0 16 0 ≤ bits (4 : Word) 15 0 ∧
    bits (0x500010003 : Word) 15 0 < (strS 1).fld 24 .SYN_CFG 0 16 0 ∧ (strS 1).anyPoison (synAddr 3) 32 = false ∧
    (strS 1).trowel.runs = [] ∧ (strS 1).snap = none := by
  and_intros <;> decide +kernel
def dueS (n per : Nat) : State := { (up.setFld 24 .TT_CTL n 0 0 1).setReg 24 .TT_PER n (BitVec.ofNat 64 per) with time := 10 }
/-- The trigger is the lowest one due. -/
def duely (n : Nat) : Bool := (dueS n 3).triggerDue n && (List.range n).all fun i => !(dueS n 3).triggerDue i
theorem wit_TriggersFire : (239 : TrigId).toNat < 240 ∧ (dueS 239 3).stopped = false ∧
    (∀ n ∈ [0, 239, 240, 241, 242, 243, 244, 245, 246, 255], duely n = true) ∧
    bit ((dueS 239 3).reg 24 .TT_CTL 239) 2 = false ∧ bit ((dueS 239 3).reg 24 .TT_CTL 239) 3 = false ∧ (dueS 239 0).fld 24 .TT_PER 239 63 0 = 0 ∧
    (dueS 239 3).fld 24 .TT_PER 239 63 0 ≠ 0 ∧ (dueS 239 3).fld 24 .TT_CMP 239 63 0 ≤ (dueS 239 3).time ∧ here up q0 .TT_CMP = true ∧ here (dueS 239 3) q0 .TT_CTL = true ∧
    240 ≤ (240 : TrigId).toNat := by
  and_intros <;> decide +kernel
def drainS (n : Nat) (run : CmdRun) : State := let s := runS nopWs run; { s with time := 10, trowel := { s.trowel with draining := [n] } }
def openW : Window := { state := .openW, kih := 1, deadline := 10, image := tmplWs, members := [{ s := 0 }] }
def winS (x : Window) : State := let s := runS nopWs (.member 0 0); { s with time := 10, trowel := { s.trowel with windows := [(0, x)], draining := [240] } }
theorem wit_TriggersFire_expiries : (drainS 241 (.timed 10)).stopped = false ∧
    (drainS 241 (.timed 10)).trowel.draining.contains 241 = true ∧ (drainS 241 (.timed 10)).firstExpired (drainS 241 (.timed 10)).timedList = some 0 ∧
    (drainS 241 (.timed 10)).runOf 0 = some (aRunOf nopWs (.timed 10)) ∧ (drainS 241 (.timed 11)).firstExpired (drainS 241 (.timed 11)).timedList = none ∧
    (drainS 245 (.waiting (some 10))).trowel.draining.contains 245 = true ∧
    (drainS 245 (.waiting (some 10))).firstExpired (drainS 245 (.waiting (some 10))).waitList = some 0 ∧
    (winS openW).trowel.draining.contains 240 = true ∧ (winS openW).firstExpired (winS openW).deadlineList = some 0 := by
  and_intros <;> decide +kernel
def itemS (popped : Bool) : State := let s := runS nopWs (.item 23 popped); { s with trowel := { s.trowel with wq := [(23, [(0, 0)])] } }
def drainW : Window := { openW with state := .draining }
theorem wit_TrowelRegisters : here (itemS false) q0 .TRW_WQ = true ∧ here (itemS true) q0 .TRW_WDONE = true ∧ here (winS openW) q0 .TRW_FLUSH = true ∧ here (winS drainW) q0 .TRW_MFAULT = true ∧ (itemS false).queued 23 = [(0, 0)] ∧
    (itemS false).runOf 0 = some (aRunOf nopWs (.item 23 false)) ∧ (strS 1).queued 23 = [] ∧
    (itemS true).runOf (bits (0 : Word) 17 0) = some (aRunOf nopWs (.item 23 true)) ∧ (strS 1).runOf (bits (0 : Word) 17 0) = none ∧
    (winS openW).trowel.windows = [(0, openW)] ∧ openW.kih = bits (1 : Word) 15 0 ∧ bit (0x10000 : Word) 16 = true ∧
    ((winS drainW).window 0).state = .draining ∧ bits (0 : Word) 21 10 < ((winS drainW).window 0).members.length ∧
    ((winS openW).window 0).state ≠ .draining := by
  and_intros <;> decide +kernel
def wantS (x : List (Nat × Window)) : State :=
  let s := imgS (launchWs 1 1 0) .wantsWindow
  { s with trowel := { s.trowel with windows := x } }
def wanted (x : List (Nat × Window)) : Acc (List Word) × State := (wantS x).readImage (bits ((aRunOf (launchWs 1 1 0) .wantsWindow).dw 0) 63 32)
theorem wantS_list (x : List (Nat × Window)) : ((wantS x).trowel.runs.filter fun r => r.run == .wantsWindow).mergeSort (fun a b => decide (a.s ≤ b.s))
    = [aRunOf (launchWs 1 1 0) .wantsWindow] := by
  rw [show (wantS x).trowel.runs.filter (fun r => r.run == .wantsWindow) = [aRunOf (launchWs 1 1 0) .wantsWindow] from rfl]
  exact List.mergeSort_singleton _
def closedW (n : Nat) : Window := { openW with state := .closed, step := n }
def closedS (n : Nat) : State :=
  let s := imgS nopWs (.member 0 0)
  { s with trowel := { s.trowel with windows := [(0, closedW n)] } }
theorem closedS_list (n : Nat) : (closedS n).closedWindows 0 = [(0, closedW n)] := by
  unfold State.closedWindows
  rw [show (closedS n).trowel.windows.filter (fun e => e.2.state == .closed && e.2.gang == 0) = [(0, closedW n)] from rfl]
  exact List.mergeSort_singleton _
/-- The window queues at once from there. -/
def queueOk (a : State) : Bool := let z := a.window 0
  !a.postedBy (.window 0) && a.gangRoom z.gang && decide (1 + (z.members.length + 5) / 6 ≤ a.stagingRoom)
def disp1 : Option Bool × State := (((closedS 0).readImage 1).2.setWindow 0 (closedW 0)).dispatch1 0 (closedW 0)
def atStep (a : State) (n : Nat) : State := a.setWindow 0 { a.window 0 with step := n }
def disp3 : DevAcc Unit × State := (atStep (atStep disp1.2 1) 2).writeDws (winCtx 0 (closedW 0)) ((glazeWrites (closedW 0)).map fun e => ((0 + 0) + e.1, e.2))
theorem wit_WindowsClose : (wantS []).stopped = false ∧ (wanted []).1 = .ok tmplWs ∧ (wanted []).2.openWindowOf (aRunOf (launchWs 1 1 0) .wantsWindow) = none ∧
    ((List.range 1024).find? fun w => decide (((wanted []).2.window w).state = .free)) = some 0 ∧ (wanted []).2.slotRoom = true ∧
    (closedS 0).flag 24 .THM_STAT 0 1 = false ∧ queueOk (closedS 3) = true ∧ (closedS 0).gatesPass (closedW 0) = true ∧
    ((closedS 0).readImage (closedW 0).kih).1 = .ok tmplWs ∧ disp1.1 = some true ∧ bits (tmplWs.getD 14 0) 51 0 = 0 ∧ bits (tmplWs.getD 7 0) 51 0 = 0 ∧
    (atStep disp1.2 1).recordRoom ((atStep disp1.2 1).window 0) = true ∧ disp3.1 = .ok () ∧ queueOk (atStep disp3.2 3) = true ∧
    ((winS drainW).window 0).posted = 0 ∧ ((winS drainW).window 0).members = [{ s := 0 }] ∧ ((winS drainW).window 0).next = 0 ∧
    ((winS drainW).setWindow 0 { (winS drainW).window 0 with state := .scatter }).runOf 0 = some (aRunOf nopWs (.member 0 0)) ∧
    ((winS drainW).setWindow 0 { (winS drainW).window 0 with state := .scatter }).postedBy (.stream 0) = false := by
  and_intros <;> decide +kernel
/-- A LAUNCH with CKEYEN, and the OPEN window of its key. -/
def joinRun : StreamRun := aRunOf (0x100000401 :: (launchWs 1 1 0).tail) .wantsWindow
def keyW : Window := { openW with ckeyOwn := false }
def joinS : State := let s := (imgS [] .begun).setRun joinRun
  { s with trowel := { s.trowel with windows := [(1023, keyW)] } }
theorem joinS_list : (joinS.trowel.runs.filter fun r => r.run == .wantsWindow).mergeSort (fun a b => decide (a.s ≤ b.s)) = [joinRun] := by
  rw [show joinS.trowel.runs.filter (fun r => r.run == .wantsWindow) = [joinRun] from rfl]
  exact List.mergeSort_singleton _
theorem wit_WindowsClose_join : (joinS.readImage (bits (joinRun.dw 0) 63 32)).1 = .ok tmplWs ∧ bit (joinRun.dw 0) 10 = true ∧
    (joinS.readImage (bits (joinRun.dw 0) 63 32)).2.openWindowOf joinRun = some 1023 ∧
    (joinS.readImage 1).2.overCapacity 1 tmplWs (rowBlocks ((joinS.readImage 1).2.window 1023).members + (bits (joinRun.dw 1) 60 48 + 255) / 256) = false := by
  and_intros <;> decide +kernel
def fqW : Waiter := { die := 24, eng := 1, la := 0x2000000, span := 1 }
def fqS (st : Nat) : State := { (up.setRegW 24 .FQ_REC 255 2 (setBits 0 34 33 st)) with fqOrder := [255] }
theorem wit_FaultsAndEpochs : up.recFor fqW = none ∧ up.freeRecs ≠ [] ∧ fqW.die < 32 ∧ fqW.eng < 16 ∧ fqW.tbase < 2 ^ 48 ∧ fqW.cause < 8 ∧
    fqW.level < 4 ∧ fqW.ring < 4 ∧ ((fqS 1).recFor { fqW with span := 0 }).isSome = true ∧ here up q0 .FQ_HEAD = true ∧
    (up.fqOrder.find? fun i => up.recState i == 1) = none ∧ ((fqS 1).fqOrder.find? fun i => (fqS 1).recState i == 1) = some 255 ∧
    here (fqS 1) q0 .FQ_HEAD = true ∧ here (fqS 2) q0 .FQ_CMD = true ∧ (fqS 2).recState (bits (255 : Word) 7 0) ≠ 0 ∧ (fqS 2).recState (bits (0 : Word) 7 0) = 0 ∧
    up.stopped = false ∧ up.fqWaits fqW = false ∧ (up.fqAbort.any fqW.same) = false ∧
    (match (up.xlateDev kReq 1 (.unit 24 1) false 1 0 0 false).1 with | .fault _ _ => true | _ => false) = true ∧
    ({ up with fqWait := [fqW] } : State).freeRecs ≠ [] := by
  and_intros <;> decide +kernel
def pend (n : Nat) : State := up.setFld 24 .TRW_EPOCH 0 33 32 n
/-- A round over, its echo to the first free byte of tile store 0. -/
def echoS : State := (pend 1).setReg 24 .TRW_EPOCH_ECHO 0 (BitVec.ofNat 64 (tileBase + 1))
def echoW : Acc Unit × State := (echoS.setReg 24 .TRW_EPOCH 0 (BitVec.ofNat 64 (echoS.fld 24 .TRW_EPOCH 0 31 0))).devWrite kReq .echo 64
  (bits (echoS.reg 24 .TRW_EPOCH_ECHO 0) 47 3 * 8) (toBytes 8 (echoS.fld 24 .TRW_EPOCH 0 31 0)) false
theorem wit_FaultsAndEpochs_rounds : here up q0 .TRW_EPOCH_BUMP = true ∧ up.epochMay (.core aCore) = true ∧ ring3.epochMay (.core aCore) = false ∧
    up.epochMay .host = true ∧ bit (1 : Word) 0 = true ∧ up.flag 24 .TRW_EPOCH 0 32 = false ∧ (pend 1).stopped = false ∧
    (pend 1).flag 24 .TRW_EPOCH 0 32 = true ∧ (pend 1).oldAccess 24 = false ∧ (pend 1).flag 24 .TRW_EPOCH 0 33 = false ∧ (pend 3).flag 24 .TRW_EPOCH 0 33 = true ∧
    (pend 1).epochWait = [] ∧ (pend 1).flag 24 .TRW_EPOCH_ECHO 0 0 = false ∧ echoS.flag 24 .TRW_EPOCH_ECHO 0 0 = true ∧ echoW.1 = .ok () := by
  and_intros <;> decide +kernel

/-! ### Witnesses: HBM, errors, links, packets -/

/-- The memory map laid over all 256 channels; stack 0's controller serves, patrol on, both debug keys open. -/
def hbmS : State :=
  let s := ((up.setReg 24 .HBM_CAP 0 0x012000000000).setFld 0 .HBM_STAT 0 0 0 1).setFld 1 .HBM_STAT 0 0 0 1
  (s.setFld 0 .HBM_SCRUB 0 32 32 1).setFld 24 .SEC_DBG 0 1 1 1
theorem wit_HbmCommands : hbmS.stopped = false ∧ (hbmS.hbmServes (0x1000 : BitVec 48).toNat).isSome = true ∧ (hbmS.hbmServes 0).isSome = true ∧
    (hbmS.patrolServes 0x1000).isSome = true ∧ ((hbmS.patrolServes 0).map fun e => hbmS.flag (stackDie (e.1 / 16)) .HBM_SCRUB 0 32) = some true ∧ hbmS.supply.warn = false ∧
    (0x1FF8 : BitVec 48).toNat % 32 + 8 ≤ 32 ∧ hbmS.flag (stackDie 0) .HBM_STAT 0 0 = true ∧ here hbmS q0 .PMAP_PEND = true ∧
    (23 : CDie).val ∉ hbmS.tileFill ∧ 64 * (0x1EFFFFF : BitVec 25).toNat < 0x7C000000 ∧ hbmS.poisonedAt (tileBase + 0x80000000 * 23 + 64 * 0x1EFFFFF) = false ∧
    0 ∈ ({ hbmS with hbmWait := [0] } : State).hbmWait ∧ here hbmS (.core aCore) .HBM_MRG 0 = true ∧ up.flag 24 .SEC_DBG 0 1 = false ∧
    hbmS.flag 24 .SEC_DBG 0 1 = true ∧ hbmS.flag 0 .HBM_MRG_RES 0 33 = false ∧ bit (0x36000 : Word) 17 = true ∧ bit (0x16000 : Word) 17 = false ∧
    (BitVec.ofNat 5 (bits (0x36000 : Word) 16 12)).toInt = -10 ∧ (BitVec.ofNat 5 (bits (0x2A000 : Word) 16 12)).toInt = 10 ∧
    (hbmS.setFld 0 .HBM_MRG_RES 0 34 32 2).flag 0 .HBM_MRG_RES 0 33 = true := by
  and_intros <;> decide +kernel
/-- A read of host memory outstanding, for core 0 of C-die 0. -/
def aDrd : Drd := { tag := 3, own := .unit 0 0, pa := 0x400000000000, addr := 0, n := 64 }
def drdS : State := { (up.setLink .agd { state := 5, credit := [100, 100, 100, 100] }).setFld 24 .AGD_LSTAT 0 3 0 5 with drds := [aDrd] }
def aMirw : Mirw := { tag := 4, off := 64, n := 64, lsn := 3, own := .stream 0 }
def aDwr : Pkt := { type := 0x12, b := 0x1000, own := .core 0 }
/-- Each kind of request outstanding since 0, and no answer for a minute. -/
def lateS : State :=
  let s := drdS.updCore aCore fun x => { x with unacked := [{ parts := [⟨0x3000, 8⟩] }] }
  { s with dwrLost := [aDwr], hawk := { s.hawk with writes := [aMirw] }, twin := { s.twin with mirw := [aMirw] }, time := 60000000000
           mctime := 60000000000 }
def errS : State := { (up.setFld 0 .ERR_STAT 0 6 0 2) with errOrder := [(0, [4, 5])] }
theorem wit_ErrorReports : up.edge 39 ≠ .down ∧ doubledEdge 31 = true ∧ up.edge 31 = .primary ∧
    ({ up with edges := [(31, .standby)] } : State).edge 31 = .standby ∧ (doubledEdge 0 = true → up.edge 0 = .standby) ∧
    (look (fun _ => {}) up.scrim 3).n = 0 ∧ ({ up with scrim := [(3, { seq := 5, n := 7, sent := 0 })] } : State).transfers 24 0 < 256 ∧
    here up q0 .ERR_HEAD = true ∧ look (fun _ => []) up.errOrder 0 = [] ∧ here errS (.core aCore) .ERR_HEAD 0 = true ∧
    look (fun _ => []) errS.errOrder 0 = 4 :: [5] := by
  and_intros <;> decide +kernel
theorem wit_ErrorReports_late : (lateS.drds.find? fun x => x.tag == (3 : BitVec 10).toNat && x.ans.isNone && !x.held && x.own != Own.none) = some aDrd ∧
    lateS.expired aDrd.own.req aDrd.since = true ∧ (lateS.twin.mirw.find? fun m => m.tag == (4 : BitVec 14).toNat && !m.late) = some aMirw ∧
    lateS.expired aMirw.own.req aMirw.since = true ∧
    ((lateS.dwrLost ++ (lateS.link .agd).unsent).find? fun p => p.type == 0x12 && p.b == (0x1000 : Word).toNat && p.own != Own.none) = some aDwr ∧
    lateS.expired aDwr.own.req aDwr.since = true ∧
    (lateS.hrds.find? fun d => d.tag == (4 : BitVec 14).toNat && d.ans.isNone && d.own != .none) = none ∧
    (lateS.hawk.writes.find? fun m => m.tag == (4 : BitVec 14).toNat && m.own != .none) = some aMirw ∧ lateS.expired kReq aMirw.since = true ∧
    ((lateS.core aCore).unacked.find? fun e => e.parts.any fun p => decide (p.pa ≤ 0x3007 ∧ 0x3007 < p.pa + p.n)).isSome = true ∧
    lateS.expired (reqOf aCore) 0 = true := by
  and_intros <;> decide +kernel
def linkS (l : LinkId) (n : Nat) : State := up.setLink l { state := n, good := 0xFFFF, credit := [9, 9, 9, 9], tx := 600, acked := 500, rx := 513, owed := [0, 1, 0, 2] }
def lst (l : LinkId) (n : Nat) : Bool := decide (((linkS l n).link l).state = n)
theorem wit_LinkStates : lst .agd 1 = true ∧ (0xFF00 : BitVec 32).toNat / 2 ^ (8 * 1) % 256 = 255 ∧ 8 * 1 < linkLanes .twn ∧ lst .twn 2 = true ∧ lst .agd 3 = true ∧
    chooseWidth .agd 0xFFFF ((linkS .agd 3).fld 24 .AGD_LCTL 0 2 1) = some (2, 0) ∧ chooseWidth .hwk 0 0 = none ∧ lst .hwk 4 = true ∧
    creditsOk .hwk 257 257 0 17 = true ∧ creditsOk .twn 4096 4096 0 512 = true ∧ creditsOk .agd 257 257 257 17 = true ∧ creditsOk .agd 256 257 257 17 = false ∧
    ((linkS .hwk 4).link .hwk).wait = [] ∧ (linkS .agd 6).twin.mirw = [] ∧ (linkS .agd 6).snap = none ∧ lst .agd 5 = true ∧ lst .agd 6 = true ∧
    ((linkS .agd 6).link .agd).replays = 0 ∧ here (linkS .agd 5) q0 .AGD_LCTL = true ∧ (linkS .agd 5).flag 24 .AGD_LCTL 0 3 = false ∧
    ((linkS .agd 5).link .agd).state ≠ 0 ∧ bit (8 : Word) 3 = true ∧ bit (0 : Word) 3 = false ∧
    ((linkS .agd 0).setFld 24 .AGD_LCTL 0 3 3 1).flag 24 .AGD_LCTL 0 3 = true ∧ lst .agd 0 = true := by
  and_intros <;> decide +kernel
/-- The link's next flit is 1, whatever the ACK it carries. -/
theorem wit_FlitsAndCredit : lst .agd 5 = true ∧ ((linkS .agd 5).link .agd).badRun < 15 ∧ 15 ≤ (((linkS .agd 5).setLink .agd { state := 5, badRun := 15 }).link .agd).badRun ∧
    (Link.ackTo { (linkS .agd 5).link .agd with badRun := 0 } 500).rx % 512 = (1 : BitVec 9).toNat ∧
    500 + ((87 : BitVec 9).toNat + 512 - 500 % 512) % 512 < 600 ∧ ((linkS .agd 5).link .agd).acked < ((linkS .agd 5).link .agd).tx ∧
    LinkId.hwk ≠ LinkId.agd ∧ ((linkS .hwk 5).link .hwk).replays = 0 ∧ ({ state := 5, replayAt := 4, replays := 7 } : Link).replayAt = 4 ∧
    ((linkS .agd 5).link .agd).credit = [9, 9, 9, 9] ∧ ((linkS .agd 5).link .agd).owed.any (· != 0) = true := by
  and_intros <;> decide +kernel
def hostS : State := drdS.owe .agd 0 2
def atPA : Nat := 0x100000003010
def routeR : RegRef := { die := 24, name := .ERR_ROUTE, i := 0, w := 0 }
theorem wit_HostPackets : drdS.stopped = false ∧ (drdS.link .agd).state = 5 ∧ pktOk 0xFFF 1 = true ∧ pktOk 0xFFF 2 = false ∧ drdS.tagUsed 9 = false ∧
    (drdS.updLink .agd fun k => { k with wait := [{ type := 0x20, tag := 9 }] }).tagUsed 9 = true ∧ drdS.cplsOut.length < 4096 ∧
    (hostS.hostWrite atPA [7, 8]).1 = .ok () ∧ (match (hostS.hostWrite 0x2F0000000000 [7]).1 with | .err _ => true | _ => false) = true ∧
    atPA % 64 + 48 ≤ 64 ∧ (hostS.decodePA atPA).plain = true ∧ hostS.phase = 0 ∧
    hostS.flag 24 .RND_STATUS 0 2 = false ∧ hostS.homeCheck hostReq atPA = none ∧ hostS.homeBusy hostReq (hostS.decodePA atPA) = false ∧ hostS.confined = false ∧
    hostS.timedOut hostReq atPA = none ∧ hostS.rspDown hostReq atPA = false ∧ hostS.skimProtected atPA 48 = false ∧
    hostS.downOn (hostS.decodePA atPA).die 24 true = none ∧ hostS.anyPoison atPA 48 = false ∧ (∀ i < 48, hostS.workByte (atPA + i) = false) ∧
    (hostS.hostRead atPA 4).1 = .ok (0, [0, 0, 0, 0]) := by
  and_intros <;> decide +kernel
def routeW : Bool × State := ((up.endWait (srcReq q0) (ctrlBase + regKey 24 .ERR_ROUTE 0 0)).travel (srcReq q0).die 24).writeReg q0 routeR 0x18024 (BitVec.allOnes 64)
theorem wit_HostPackets_replies : ((drdS.owe .agd 1 5).drds.find? fun d => d.tag == (9 : BitVec 14).toNat && d.ans.isNone && !d.held) = none ∧
    (drdS.drds.find? fun d => d.tag == (3 : BitVec 14).toNat && d.ans.isNone && !d.held) = some aDrd ∧ aDrd.own ≠ .none ∧
    up.srcUp q0 = true ∧ srcMay q0 ((ctrlBase + regKey 24 .ERR_ROUTE 0 0) / 0x10000 % 0x100) = true ∧
    up.ctrlBusy (srcReq q0) (ctrlBase + regKey 24 .ERR_ROUTE 0 0) = false ∧ (BitVec.ofNat 48 (ctrlBase + regKey 24 .ERR_ROUTE 0 0)).toNat = ctrlBase + regKey 24 .ERR_ROUTE 0 0 ∧
    up.ctrlTarget (srcReq q0) (q0 == .host) (ctrlBase + regKey 24 .ERR_ROUTE 0 0) 8 = .inl routeR ∧
    routeW.1 = true ∧ routeW.2.rspDown (srcReq q0) (ctrlBase + regKey 24 .ERR_ROUTE 0 0) = false ∧ (drdS.setFld 24 .MC_STAT 0 1 0 1).mcReach .agd = true ∧
    ((drdS.setFld 24 .MC_STAT 0 1 0 1).link .agd).state = 5 ∧ drdS.mcReach .agd = false ∧ 128 ≤ (0x81 : Byte).toNat ∧
    RegName.ERR_ROUTE ∈ [RegName.ERR_ROUTE, .ERR_CFG, .TWN_ROUTE, .HWK_ROUTE, .AGD_TASYM, .AGD_OWB, .AGD_OWC] := by
  and_intros <;> decide +kernel

/-! ### Witnesses: time, the twin, snapshots, restores, the cartridge -/

/-- TSYNC on, the Agdoa link ACTIVE, an exchange outstanding since t1. -/
def timeS (t1 now : Nat) : State :=
  let s := ((drdS.setFld 24 .AGD_TCFG 0 1 0 3).setFld 24 .AGD_TCFG 0 63 48 1).setFld 24 .AGD_TCFG 0 47 32 1000
  { s with time := now, sync := { out := some (7, t1), ppsMiss := 3, delays := [10, 50] } }
theorem wit_TimeSync : (timeS 0 1000000).flag 24 .AGD_TCFG 0 1 = true ∧ ((timeS 0 1000000).link .agd).state = 5 ∧
    ({ timeS 0 1000000 with sync := {} } : State).sync.out = none ∧
    ({ timeS 0 1000000 with sync := {} } : State).sync.lastStart + ({ timeS 0 1000000 with sync := {} } : State).tsyncInt ≤ 1000000 ∧
    ((timeS 0 1000000).link .agd).fits { type := 0x50, a := 0, b := 1000000 } = true ∧ (∀ p ∈ ((timeS 0 1000000).link .agd).wait, pktClass p.type ≠ 3) ∧
    (timeS 100 400).sync.out = some (7, 100) ∧ 7 ≠ (8 : BitVec 16).toNat ∧ 100 + 100000 < (timeS 100 100101).time ∧
    ({ timeS 0 9 with sync := { (timeS 0 9).sync with spoilt := true } } : State).sync.spoilt = true ∧
    (400 : Int) - 100 - (401 - 100) < 0 ∧ (((timeS 0 9).owe .agd 3 2).fld 24 .AGD_TCFG 0 47 32 : Int) < 1001 ∧
    7 = (7 : BitVec 16).toNat ∧ (timeS 100 100100).time ≤ 100 + 100000 ∧ (timeS 100 400).sync.spoilt = false ∧ (0 : Int) ≤ (400 - 100) - (350 - 100) ∧
    (50 : Int) ≤ (((timeS 0 9).owe .agd 3 2).fld 24 .AGD_TCFG 0 47 32 : Int) ∧ (∀ x ∈ (timeS 0 9).sync.delays.take 15, (50 : Int) ≤ x + 40) ∧
    (∃ x ∈ (timeS 0 9).sync.delays.take 15, x + 40 < (51 : Int)) := by
  and_intros <;> decide +kernel
theorem wit_TimeSync_steering :
    (timeS 0 9).flag 24 .AGD_TSTAT 0 0 = false ∧ (timeS 0 9).sync.slewEnd ≤ (timeS 0 9).time ∧ (timeS 0 9).timeRuns = true ∧
    (timeS 0 16000000).sync.accAt + 16 * (timeS 0 16000000).tsyncInt ≤ (timeS 0 16000000).time ∧ (timeS 0 9).pinHeld 11 = false ∧
    (timeS 0 9).flag 24 .AGD_TCFG 0 0 = true ∧ 2000 * (timeS 0 9).fld 24 .AGD_TCFG 0 63 48 < (-2001 : Int).natAbs ∧
    ((timeS 0 9).sync.ppsAt = none ∧ (timeS 0 9).sync.stepAt = none ∧ ¬ 2000 * (timeS 0 9).fld 24 .AGD_TCFG 0 63 48 < (18 : Int).natAbs) ∧
    3 ≤ (timeS 0 9).sync.ppsMiss := by
  and_intros <;> decide +kernel
def grp : List Byte := List.replicate 32 5
/-- The twin link ACTIVE, the group set, the Skim region in HBM, the identity key available; TWN_STAT.STATE given. -/
def twinS (st : Nat) : State :=
  let s := ((hbmS.setLink .twn { state := 5, credit := [4096, 4096, 0, 512] }).setFld 24 .TWN_STAT 0 2 0 st).setFld 24 .SEC_STAT 0 3 3 1
  let s := s.setReg 24 .TWN_SKIM 0 0
  { s with twin := { s.twin with present := true, group := some grp } }
def pairedS : State := { twinS 3 with twin := { (twinS 3).twin with session := true, auth := 3, hello := some (9, grp) } }
theorem wit_TwinSession : up.stopped = false ∧ up.pinHeld 8 = false ∧ up.phase = 0 ∧ (up.link .twn).state = 0 ∧ up.fld 24 .TWN_STAT 0 2 0 = 0 ∧
    ((twinS 2).link .twn).state = 5 ∧ grp.length = 32 ∧ (twinS 2).twin.group = some grp ∧ (twinS 2).twin.session = false ∧ (twinS 2).skimOk = true ∧
    (twinS 2).twin.failed = false ∧ (twinS 2).flag 24 .SEC_STAT 0 3 = true ∧ (0 : BitVec 8) < 2 ∧ pairedS.twin.hello.isSome = true ∧
    [((0 : Nat), ([1] : List Byte))].length < (2 : BitVec 8).toNat ∧ (joinFrags [(0, [1]), (1, [2, 3])] 2).length = 3 ∧
    ({ pairedS.twin with failed := true } : Twin).session = true ∧ ({ (twinS 2).twin with failed := true } : Twin).session = false := by
  and_intros <;> decide +kernel
/-- Message 2 sent in role B; and the partner lost. -/
def roleS : State := { (twinS 2).setFld 24 .TWN_STAT 0 3 3 1 with twin := { (twinS 2).twin with auth := 2, hello := some (9, grp) } }
def lostS (b : Bool) : State := { twinS 4 with twin := { (twinS 4).twin with roleB := b } }
theorem wit_TwinSession_lost : roleS.flag 24 .TWN_STAT 0 3 = true ∧ roleS.twin.auth = 2 ∧ roleS.twin.hello = some (9, grp) ∧ pairedS.fld 24 .TWN_STAT 0 2 0 = 3 ∧
    max 1 ((pairedS.setFld 24 .TWN_STAT 0 11 8 15).fld 24 .TWN_CTL 0 3 0) ≤ (pairedS.setFld 24 .TWN_STAT 0 11 8 15).fld 24 .TWN_STAT 0 11 8 ∧
    pairedS.twin.mirw = [] ∧ pairedS.snap = none ∧ here pairedS q0 .TWN_CMD = true ∧ (lostS false).fld 24 .TWN_STAT 0 2 0 = 4 ∧ (lostS false).twinHere = true ∧
    (lostS false).twin.roleB = false ∧ (lostS true).twin.roleB = true ∧ (lostS true).twin.fence = none ∧
    pairedS.restore = none ∧ pairedS.twinUp = true ∧ pairedS.twin.auth = 3 ∧ pairedS.flag 24 .TWN_STAT 0 3 = false ∧
    ({ (lostS true).twin with fence := some 0 } : Twin).fence = some 0 := by
  and_intros <;> decide +kernel
theorem wit_TwinSession_serial : Config.serial + 1 ≠ Config.serial := by intro h; exact absurd (congrArg (· - Config.serial) h) (by simp)
/-- Any packet is checked with one answer or the other; the Stencil ring in tile store 0, an entry staged, in a session or in none. -/
def stnS (st : Nat) : State :=
  let s := ((pairedS.setFld 24 .TWN_STAT 0 2 0 st).setReg 24 .TWN_STN 0 (0x100000050000 + 0x8000000000000)).setReg 24 .TWN_STN_HEAD 0 9
  let s := (s.setReg 24 .TWN_STN_FREE 0 4).setFld 24 .TWN_CTL 0 11 11 1
  { s with stencil := { s.stencil with ring := 8 } }
theorem wit_TwinTraffic_checks (s : State) (p : Pkt) (mac : List Byte) : (∃ c, s.tagCheck p mac = (false, c)) ∨ ∃ c, s.tagCheck p mac = (true, c) := by
  cases h : (s.tagCheck p mac).1
  · exact .inl ⟨_, Prod.ext h rfl⟩
  · exact .inr ⟨_, Prod.ext h rfl⟩
theorem wit_TwinTraffic : (pairedS.link .twn).state = 5 ∧ pairedS.twin.session = true ∧ (0x7FFFFFFFC0 : BitVec 39).toNat % 2048 + 64 ≤ 2048 ∧
    (pairedS.mirrorIn 0x7FFFFFFFC0 (List.replicate 64 1)).1 ≠ .wait ∧
    (({ pairedS.twin with mirw := [aMirw] } : Twin).mirw.find? fun m => m.tag == (4 : BitVec 14).toNat) = some aMirw ∧
    (twinS 2).twin.session = false ∧ ((twinS 2).link .twn).state = 5 ∧
    (({ pairedS.twin with mirw := [{ aMirw with late := true }] } : Twin).mirw.find? fun m => m.tag == (4 : BitVec 14).toNat) = some { aMirw with late := true } ∧
    ({ pairedS with restore := some { src := 3 } } : State).restore = some { src := 3 } ∧ (stnS 1).stopped = false ∧
    (stnS 1).stencil.ring < (stnS 1).fld 24 .TWN_STN_HEAD 0 63 0 ∧
    (stnS 1).fld 24 .TWN_STN_HEAD 0 63 0 - (stnS 1).fld 24 .TWN_STN_FREE 0 63 0 < 2 ^ (stnS 1).fld 24 .TWN_STN 0 53 48 ∧ (stnS 1).fld 24 .TWN_STN 0 53 48 = 8 ∧
    ((stnS 1).devWrite kReq .none 64 ((stnS 1).fld 24 .TWN_STN 0 47 0 + 64 * (8 % 2 ^ 8)) ((stnS 1).bytes (stagingBase + 64 * 8) 64) false).1 = .ok () ∧
    (stnS 1).fld 24 .TWN_STAT 0 2 0 ≠ 3 ∧ (stnS 3).fld 24 .TWN_STAT 0 2 0 = 3 ∧ (stnS 3).flag 24 .TWN_CTL 0 11 = true ∧ (stnS 3).twinUp = true ∧
    (stnS 3).mirrorRoom 1 = true ∧ here (stnS 1) q0 .TWN_STN_FREE = true := by
  and_intros <;> decide +kernel
/-- A SNAP of one region of 64 bytes, mode m, with no generation captured, to tier 2. -/
def planWs (m : Nat) : List Word := [1, 0, 0, 0, 0, 0x100000060000] ++ List.replicate 10 0 ++
  [0x100000003000, if m = 0 then 0 else 0x100000003100, BitVec.ofNat 64 (64 + 2 ^ 40 * m), if m = 1 then 0x100000003200 else 0]
def snapCmd (t : Nat) : List Word := [9, BitVec.ofNat 64 t, 0x100000005000] ++ List.replicate 5 0
def snapS (m t : Nat) : State := putWords (runS (snapCmd t) .begun) 0x100000005000 (planWs m)
def snapX (s : State) : DevCtx := { s.strCtx 0 2 4096 with ring := s.strF 0 0 57 56 }
def aPlan (m : Nat) : Plan := { h := (planWs m).take 16, r := [(planWs m).drop 16] }
def planHead (m t : Nat) : DevAcc (List Word) × State := (snapS m t).devWordsLin (snapX (snapS m t)) 0x100000005000 16
def planRead (m t : Nat) : DevAcc Plan × State := (planHead m t).2.readRegions (snapX (snapS m t)) 0x100000005000 ((planWs m).take 16)
def pSnap (m t : Nat) : Snap := (planRead m t).2.snapOf (aRunOf (snapCmd t) .begun) (aPlan m)
def pagesOf (p : Snap) : List (Nat × Bool) := p.ranges.flatMap fun e => (spanPages e.1 e.2.1).map fun a => (a, e.2.2)
def afterPages : DevAcc Unit × State := (planRead 1 0).2.pagesOver (snapX (snapS 1 0)) (pagesOf (pSnap 1 0))
theorem wit_Snapshots : (snapS 1 0).stopped = false ∧ (snapS 1 0).runOf 0 = some (aRunOf (snapCmd 0) .begun) ∧ (aRunOf (snapCmd 0) .begun).opc = 0x09 ∧
    bits ((aRunOf (snapCmd 0) .begun).dw 2) 51 0 = 0x100000005000 ∧ (planHead 1 0).1 = .ok ((planWs 1).take 16) ∧ (planRead 1 0).1 = .ok (aPlan 1) ∧
    (planRead 1 1).1 = .ok (aPlan 1) ∧ (planRead 1 1).2.snapReason (pSnap 1 1) (aPlan 1).bad = 3 ∧
    (planRead 1 0).2.snapReason (pSnap 1 0) (aPlan 1).bad = 0 ∧ afterPages.1 = .ok () ∧ afterPages.2.stagingRoom ≠ 0 ∧
    (match ((planRead 1 0).2.devWriteLin ((pSnap 1 0).ctx (.stream 0)) (pSnap 1 0).result ((pSnap 1 0).record 3) false).1 with | .ok _ => true | _ => false) = true := by
  and_intros <;> decide +kernel
/-- A plan whose header ends a span of 32 MiB, an ABORT having come for the span behind it; the pages of its regions after such an ABORT. -/
def abortS (s : State) : State := { s with fqAbort := [{ die := 24, eng := 2, span := 0x80001, own := .stream 0 }] }
def edgeS : State :=
  let s := runS [9, 0, 0x100001FFFF80, 0, 0, 0, 0, 0] .begun
  abortS (putWords s 0x100001FFFF80 (planWs 1))
def edgeHead : DevAcc (List Word) × State := edgeS.devWordsLin (snapX edgeS) 0x100001FFFF80 16
theorem wit_Snapshots_abort : edgeS.stopped = false ∧ bits ((aRunOf [9, 0, 0x100001FFFF80, 0, 0, 0, 0, 0] .begun).dw 2) 51 0 = 0x100001FFFF80 ∧
    edgeHead.1 = .ok ((planWs 1).take 16) ∧ (edgeHead.2.readRegions (snapX edgeS) 0x100001FFFF80 ((planWs 1).take 16)).1 = .aborted ∧
    ((abortS (planRead 1 0).2).pagesOver (snapX (snapS 1 0)) [(0x100002000000, true)]).1 = .aborted := by
  and_intros <;> decide +kernel
def runSnap (m : Nat) (fired flipped : Bool) (gate : Bool) : Snap :=
  { pSnap m 4 with fired, flipped, gateEn := gate, gateTmo := 5, flipAt := 0, tiers := [(0, 0), (0, 0), (15, 0)] }
def flipS (p : Snap) : State := { runS (snapCmd 4) .snap with snap := some p, time := 10 }
def flipB (p : Snap) : DevAcc Unit × State := (flipS p).devWriteLin (p.ctx (.stream p.stream)) p.genCap ((flipS p).genBytes p) false
def switched (p : Snap) : Bool := match (flipB p).2.switchLive (p.ctx (.stream p.stream)) p.regions with
  | (.ok (), [r], u) => decide (r.src = 0x100000003100) && decide (u.stagingRoom ≠ 0)
  | _ => false
def flipP : Snap := runSnap 1 true false false
def gateP : Snap := runSnap 1 true false true
def copyP : Snap := runSnap 2 true true false
def dueSnap : State := { (flipS { flipP with fired := false }).setFld 24 .TT_CTL 243 0 0 1 with time := 10 }
theorem wit_Snapshots_flip : (flipS flipP).snap = some flipP ∧ flipP.fired = true ∧ flipP.flipped = false ∧ flipP.gateEn = false ∧ flipP.captured = false ∧
    (flipB flipP).1 = .ok () ∧ switched flipP = true ∧ dueSnap.triggerDue 243 = true ∧
    gateP.gateEn = true ∧ gateP.gateMet = false ∧ gateP.gateTmo ≠ 0 ∧ gateP.flipAt + gateP.gateTmo ≤ (flipS gateP).time ∧
    ((({ (flipS gateP).setFld 24 .TT_CTL 243 0 0 0 with snap := none } : State).runOf gateP.stream)).isSome = true ∧
    (flipS copyP).staging = [] ∧ copyP.flipped = true ∧ copyP.staged = false ∧ copyP.copied = false ∧
    ((flipS copyP).stageCopies (copyP.ctx (.tier 3)) copyP.regions).1.2 = false ∧ ({ flipS copyP with staging := [copyP] } : State).staging = copyP :: [] ∧
    ((flipS copyP).stageCopies (copyP.ctx (.tier 3)) copyP.regions).2.postedBy (.tier 3) = false := by
  and_intros <;> decide +kernel
def tierP (i : Nat) : Snap := { runSnap 0 true true false with tiers := [(0, 0), (0, 0), (15, i)] }
def blockRead : DevAcc (List Byte) × State := (flipS (tierP 0)).devReadParts ((tierP 0).ctx (.tier 2)) (imageParts (·.src) (tierP 0).image (0 * blockSize) (blockLen 64 0))
theorem wit_Snapshots_tier : (flipS (tierP 0)).snap = some (tierP 0) ∧ ((tierP 0).tier 2).1 = 15 ∧ (tierP 0).flipped = true ∧ (flipS (tierP 0)).canStream (tierP 0) 2 = true ∧ (flipS (tierP 1)).canStream (tierP 1) 2 = true ∧
    imageBytes (tierP 0).image = 64 ∧ 0 < blockCount 64 ∧ blockRead.1 = .ok (List.replicate 64 0) ∧ look (fun _ => []) (tierP 0).leaves 0 = [] ∧
    ((tierP 1).tier 2).2 = blockCount 64 ∧ (flipS (tierP 2)).tierIdle 2 = true ∧ ((tierP 2).tier 2).2 = blockCount 64 + 1 ∧
    2 ≤ (flipS (tierP 2)).stagingRoom ∧ (flipS (tierP 3)).tierIdle 2 = true ∧
    ((flipS (tierP 0)).tierWrite (tierP 0) 2 0 [1]).1 = .ok () ∧
    ((flipS (tierP 0)).tierWrite { tierP 0 with scrBase := 0x2F0000000000 } 2 0 [1]).1 ≠ .ok () ∧ 2 ≤ (flipS (tierP 3)).stagingRoom ∧ blockCount 64 + 1 < ((tierP 3).tier 2).2 ∧ 2 ≤ (2 : BitVec 4).toNat ∧ (5 : BitVec 4).toNat ≤ 5 := by
  and_intros <;> decide +kernel
theorem wit_Snapshots_leaf (bs : List Byte) : 0 :: leafDigest bs ≠ [] ∧ 0 :: leafDigest bs ≠ leafDigest bs :=
  ⟨by simp, fun h => absurd (congrArg List.length h) (by simp)⟩
def restR (src block : Nat) (leaf : List Byte) : Restore :=
  { src, ofs := 0x100000070000, regions := [{ buf0 := 0x100000003000, bytes := 64 }], head := List.replicate 7 1 ++ [1, 2, 3, 4], leaves := [leaf], block }
def restS (r : Restore) : State := { pairedS with restore := some r }
def restRead (r : Restore) : Acc (List Byte) × State := (restS r).restoreRead r (manifestBytes 1 1 + 0 * blockSize) 64
def okR : Restore := restR 2 0 (leafDigest (List.replicate 64 0))
theorem wit_Restores : here up q0 .TWN_RCMD = true ∧ bit (0xFF : Word) 0 = true ∧ up.restore = none ∧ (restR 2 0 []).head ≠ [] ∧
    imageBytes (restR 2 0 []).regions = 64 ∧ 0 < blockCount 64 ∧ (restRead (restR 2 0 [])).1 = .ok (List.replicate 64 0) ∧
    (restRead okR).1 = .ok (List.replicate 64 0) ∧ okR.leaves.getD 0 [] = leafDigest (List.replicate 64 0) ∧
    ((restRead okR).2.devWriteParts okR.ctx (imageParts (·.buf0) okR.regions 0 64) (List.replicate 64 0)).1 = .ok () ∧
    (restRead { okR with src := 4 }).1 = .ok (List.replicate 64 0) ∧ (restRead { okR with src := 4 }).2.twinUp = true ∧
    blockCount 64 ≤ (restR 2 1 []).block ∧ merkleRoot 64 [bytesOf [1, 2, 3, 4]] = bytesOf ((List.range 4).map fun i => (restR 2 0 []).head.getD (7 + i) 0) ∧
    merkleRoot 64 (restR 2 1 []).leaves ≠ bytesOf ((List.range 4).map fun i => (restR 2 0 []).head.getD (7 + i) 0) ∧
    ((restS (restR 2 1 [])).devWordsLin (restR 2 1 []).ctx 0 0).1 = .ok [] := by
  refine ⟨?_, ?_, ?_, ?_, ?_, ?_, ?_, ?_, rfl, ?_, ?_, ?_, ?_, ?_, ?_, ?_⟩ <;> decide +kernel
/-- A manifest of 64 bytes of one region and the generations', at 0x100000070000, and the plan it fits, of region size `n`. -/
def manS (n : Word) (src : Nat) : State × Restore :=
  let head : List Word := [0x14E535A4A, 0, 0, 0, 0x200000001, 64] ++ List.replicate 10 0
  let tbl : List Word := [0, 0, n, 0, 0, 0, 0, 0] ++ List.replicate 4 0
  let r : Restore := { src, ofs := 0x100000070000 }
  let s := putWords (putWords (restS r) 0x100000070000 (head ++ tbl)) 0x100000005000 (planWs 0)
  (s.setReg 24 .TWN_RPLAN 0 0x100000005000, r)
def manHead (n : Word) (src : Nat) : Acc (List Byte) × State := (manS n src).1.restoreRead (manS n src).2 0 128
def headWs (n : Word) (src : Nat) : List Word := match (manHead n src).1 with | .ok bs => words64 16 bs | _ => []
def manPlan (n : Word) : DevAcc Plan × State := (manHead n 2).2.readPlan (manS n 2).2.ctx ((manHead n 2).2.fld 24 .TWN_RPLAN 0 51 0)
def manFit (n : Word) : Option Bool := match (manPlan n) with
  | (.ok p, v) => match (v.restoreRead (manS n 2).2 128 (32 * 2 + 32 * 1)).1 with
    | .ok tb => if p.bad || !headFits (headWs n 2) (planRegions p) then none else some (tableFits (words64 8 tb) (planRegions p))
    | _ => none
  | _ => none
theorem wit_Restores_head : headOk (headWs 64 2) = true ∧ headOk [] = false ∧ bits ((headWs 64 2).getD 4 0) 44 32 = 2 ∧ bits ((headWs 64 2).getD 4 0) 31 0 = 1 ∧
    manFit 64 = some true ∧ manFit 65 = some false ∧ headOk (headWs 64 4) = true ∧ (manHead 64 4).2.twinUp = true ∧
    (match ((manHead 64 4).2.restoreRead (manS 64 4).2 128 96) with
      | (.ok tb, w) => headFits (headWs 64 4) (tableRegions (words64 8 tb) 2) && w.twinUp | _ => false) = true := by
  and_intros <;> decide +kernel

def hawkS (st : Nat) : State := (up.setLink .hwk { state := 5, credit := [300, 300, 0, 20] }).setHawk st
def hrdS : State := { hawkS 3 with hrds := [aDrd] }
def hwrS : State := { hawkS 3 with hawk := { writes := [{ aMirw with own := .tier 1 }] } }
theorem wit_CartridgeCommands : up.stopped = false ∧ ((up.setLink .hwk { state := 1 }).link .hwk).state = 1 ∧ up.hawkState = 0 ∧ (hawkS 2).hawkState = 2 ∧
    ({ hawkS 2 with hawk := { wearSeen := true } } : State).hawk.wearSeen = true ∧ (hrdS.link .hwk).state = 5 ∧
    (hrdS.hrds.find? fun d => d.tag == (3 : BitVec 14).toNat && d.ans.isNone) = some aDrd ∧ aDrd.own ≠ .none ∧ ({ aDrd with own := .none } : Drd).own = .none ∧
    (hwrS.hrds.find? fun d => d.tag == (4 : BitVec 14).toNat && d.ans.isNone) = none ∧
    (hwrS.hawk.writes.find? fun m => m.tag == (4 : BitVec 14).toNat) = some { aMirw with own := .tier 1 } ∧ aMirw.late = false ∧
    ({ aDrd with own := .none, late := true } : Drd).late = true ∧ ({ aMirw with own := .none, late := true } : Mirw).late = true ∧
    ((hawkS 3).hawk.writes.find? fun m => m.tag == (4 : BitVec 14).toNat) = none := by
  and_intros <;> decide +kernel
theorem wit_CartridgeCommands_release : (hawkS 4).hawkState = 4 ∧ here (hawkS 3) q0 .HWK_CTL = true ∧ bit (1 : Word) 0 = true ∧ bit (1 : Word) 1 = false ∧
    bit (3 : Word) 1 = true ∧ (hawkS 3).hawkState = 3 ∧ (hawkS 3).tierRuns 1 = false ∧ ({ hawkS 3 with snap := some { tiers := [(0, 0), (15, 0), (0, 0)], flipped := true } } : State).tierRuns 1 = true ∧
    (hawkS 3).restore = none ∧ (hawkS 4).hawk.hrel = false ∧ (∀ m ∈ [{ aMirw with late := true }], m.late = true) ∧ (∀ d ∈ [{ aDrd with late := true }], d.ans ≠ none ∨ d.late = true) ∧
    (hawkS 6).hawkState = 6 ∧ (hawkS 5).hawkState = 5 := by
  and_intros <;> decide +kernel

/-! ### Witnesses: resets, option loading, security, power and heat, management -/

def rstS (l : List Nat) (rails : Bool) : State := { rst := { asserted := l, rails, pwrEn := true } }
def startS : State := { rst := { asserted := [1], starting := true, pwrEn := true } }
theorem wit_ResetSources : (rstS [] false).rst.rails = false ∧ (rstS [] false).rst.trip = false ∧ 1 ≤ 11 ∧ 11 ∉ up.rst.asserted ∧ up.inReset = false ∧
    (rstS [1] true).rst.rails = true ∧ (rstS [] true).rst.refclk = true ∧ srcCode .resetN ∈ (rstS [3, 1] true).rst.asserted ∧
    (∃ c' ∈ (rstS [3, 1] true).rst.asserted, c' ≠ srcCode .resetN) ∧ (rstS [3] true).rst.asserted = [srcCode .resetN] ∧ (rstS [3] true).rst.trip = false ∧
    (3999 : BitVec 16).toNat < 4000 ∧ startS.rst.starting = true ∧ startS.rst.rails = false ∧ ({ refclk := false } : Reset).refclk = false ∧
    ({ trip := true } : Reset).trip = true ∧ (rstS [1] false).coldNow = true ∧ up.coldNow = false ∧ 11 ∉ (rstS [1] false).rst.asserted ∧
    srcCode .watchdog ≠ srcCode .refclk := by
  refine ⟨?_, ?_, ?_, ?_, ?_, ?_, ?_, ?_, ⟨1, by and_intros <;> decide⟩, ?_, ?_, ?_, ?_, ?_, ?_, ?_, ?_, ?_, ?_, ?_⟩ <;> decide +kernel
def gang0 : State := (up.setReg 24 .GNG_CFG 0 0x8000000100000003).setReg 24 .GNG_CFG 1 0
def reqS : State := { up with rst := { up.rst with reqs := [⟨0, [3], 4, 0⟩, ⟨1, [4], 4, 0⟩, ⟨2, [5, 6], 0, 0⟩] } }
theorem wit_ResetRequests : here gang0 q0 .RST_CTL = true ∧ here gang0 q0 .RST_BLK = true ∧ here gang0 q0 .RST_RUN = true ∧ gang0.phase = 0 ∧ gang0.gangV 0 = true ∧
    (∀ d ∈ setBitsOf 24 (gang0.fld 24 .GNG_CFG 0 23 0), gang0.dieBusy d = false) ∧ gang0.gangV 1 = false ∧ bits (0x170 : Word) 8 4 = 23 ∧ bits (0x180 : Word) 8 4 = 24 ∧
    gang0.dieBusy 23 = false ∧ bit (0x1A : Word) 4 = true ∧ blockDefined 24 (bits (0x1A : Word) 3 0) = true ∧ blockDefined 24 11 = false ∧ gang0.dieBusy 24 = false ∧
    (reqS.rst.reqs.find? fun r => r.dies.contains 3) = some ⟨0, [3], 4, 0⟩ ∧ (reqS.rst.reqs.find? fun r => r.dies.contains 4) = some ⟨1, [4], 4, 0⟩ ∧
    (reqS.rst.reqs.find? fun r => r.dies.contains 6) = some ⟨2, [5, 6], 0, 0⟩ ∧ reqS.stopped = false ∧
    (∀ r ∈ reqS.rst.reqs, reqS.requestIdle r = true) ∧ (∀ r ∈ reqS.rst.reqs, ({ reqS with mctime := 2 ^ 40 } : State).idleOver r = true) ∧ dieOf (⟨1, by decide⟩ : CoreId) = 0 ∧
    here gang0 (.core aCore) .RST_RUN 0 = true ∧ bit (2 : Word) (coreK ⟨1, by decide⟩).val = true ∧ gang0.flag 0 .RST_RUN 0 (coreK ⟨1, by decide⟩).val = false ∧
    dieOf sCore ≠ 0 ∧ bit (2 : Word) (coreK aCore).val = false := by
  and_intros <;> decide +kernel
def phS (n : Nat) : State := up.setFld 24 .RST_STAT 0 1 0 n
def updS : State := { up with upd := some { target := 2, image := [1, 2, 3] } }
theorem wit_OptionLoading : (phS 1).stopped = false ∧ (phS 1).phase = 1 ∧ (phS 2).phase = 2 ∧ (phS 3).phase = 3 ∧ here up q0 .RND_UPDCMD = true ∧
    (phS 1).phase ≠ 0 ∧ (up.setFld 24 .RND_UPDSTAT 0 0 0 1).flag 24 .RND_UPDSTAT 0 0 = true ∧ up.phase = 0 ∧ up.flag 24 .RND_UPDSTAT 0 0 = false ∧
    updS.upd = some { target := 2, image := [1, 2, 3] } ∧ ({ target := 2 } : Upd).target ≠ 0 := by
  and_intros <;> decide +kernel
/-- S0 running as well, the identity key available. -/
def secS : State := ((up.setFld 24 .RST_RUN 0 0 0 1).setFld 24 .SEC_STAT 0 3 3 1).setReg 24 .SEC_ATT_OUT 0 0x100000080000
def arb (t : Nat) : Prop := secS.phase ≠ 0 ∨ secS.flag 24 .SEC_ARB 0 32 = true ∨ t ≤ secS.fuses.count 3 ∨ 64 < t ∨ (3 < 3 ∧ secS.verInUse 3 < t)
def attS : State := { secS with sec := { att := some [1, 2, 3], attIn := 0x100000070000, attOut := 0x100000080000 } }
def attRead : Acc (List Byte) × State := attS.devRead secReq (.unit 24 15) 64 attS.sec.attIn 128
def mrW (v : Word) : State := secS.setReg 24 .SEC_MREXT 0 ((secS.reg 24 .SEC_MREXT 0 &&& ~~~0xFFFFFFFFFF07) ||| (v &&& 0xFFFFFFFFFF07))
theorem wit_SecurityCommands : here secS q0 .SEC_ARB_CMD = true ∧ here secS q0 .SEC_MREXT = true ∧ here secS q0 .SEC_ATT_CTL = true ∧ isSystem sCore = true ∧ bit (0x303 : Word) 9 = true ∧ bits (0x303 : Word) 1 0 = 3 ∧
    bits (0x303 : Word) 8 2 = 64 ∧ (secS.regAccess (.core aCore) 24 .SEC_ARB_CMD 0).1 = true ∧ (secS.regAccess (.core aCore) 24 .SEC_MREXT 0).1 = true ∧ isSystem aCore = false ∧ secS.stopped = false ∧
    ({ commit := some (3, 64) } : Sec).commit = some (3, 64) ∧
    bit (0x10000007000F : Word) 3 = true ∧ bits (0x0B : Word) 2 0 < 4 ∧ 4 ≤ bits (0x10000007000F : Word) 2 0 ∧ secS.sec.ext = [] ∧
    ((mrW 0x10000007000F).devRead secReq (.unit 24 12) 64 (bits (0x10000007000F : Word) 47 8 * 256) 48).1 = .ok (List.replicate 48 0) ∧
    (secS.setFld 24 .SEC_ATT_CTL 0 1 1 1).flag 24 .SEC_ATT_CTL 0 1 = true ∧
    secS.flag 24 .SEC_ATT_CTL 0 1 = false ∧ secS.flag 24 .SEC_STAT 0 3 = true ∧ attS.sec.att = some [1, 2, 3] ∧
    attRead.1 = .ok (List.replicate 128 0) ∧ (secS.setFld 24 .SEC_DBG 0 8 8 1).flag 24 .SEC_DBG 0 8 = true ∧ secS.flag 24 .SEC_DBG 0 8 = false ∧
    secS.sec.tok = none ∧ ({ tok := some 0 } : Sec).tok = some 0 ∧ secS.fuses.steps.length = 4 ∧ secS.fuses.count 3 ≤ 64 ∧
    ((mrW 0x10000007000F).devRead secReq (.unit 24 12) 64 (bits (0x10000007000F : Word) 47 8 * 256) 48).1 ≠ .wait := by
  and_intros <;> decide +kernel
theorem wit_SecurityCommands_commit : ¬ arb 64 ∧ arb 65 ∧ arb 0 := by
  unfold arb
  and_intros <;> decide +kernel
theorem wit_SecurityCommands_fuses (i : Nat) : let p := secS.fuses.steps.getD 3 (0, 0); (p.1 ||| p.2).getLsbD i = false := by
  have h : secS.fuses.steps.getD 3 (0, 0) = (0, 0) := by decide +kernel
  show (((secS.fuses.steps.getD 3 (0, 0)).1 ||| (secS.fuses.steps.getD 3 (0, 0)).2).getLsbD i) = false
  rw [h]
  simp
theorem wit_SecurityCommands_token : (List.replicate tokenLen (0 : Byte)).length = tokenLen := List.length_replicate
def warnS : State := { up with time := 2000000, supply := { up.supply with warn := true } }
def pow : Demand := { step := 3, rose := some 5, low := some 0 }
theorem wit_PowerAndHeat : up.stopped = false ∧ (4399 : BitVec 16).toNat < 4400 ∧ up.supply.warn = false ∧ warnS.supply.warn = true ∧
    4500 ≤ (4500 : BitVec 16).toNat ∧ warnS.flag 24 .TT_CTL 244 0 = false ∧ (warnS.setFld 24 .TT_CTL 244 0 0 1).flag 24 .TT_CTL 244 0 = true ∧
    (4499 : BitVec 16).toNat < 4500 ∧
    ((warnS.setFld 24 .TT_CTL 244 0 0 1).triggerDue 244) = true ∧ look (fun _ => 0) [(24, 5)] 24 ≠ 0 ∧ look (fun _ => 0) up.supply.due 24 ≤ up.time ∧
    isEdgeDie 0 = true ∧ isEdgeDie 6 = false ∧
    ({} : Demand).rose = none ∧ pow.rose = some 5 ∧ 14 < 5 + 10 ∧ pow.low = some 0 ∧ 0 + 100 ≤ 100 ∧ (List.replicate 6 (110 : Byte)).length = sensorsOf 24 ∧
    ({ up with rst := { up.rst with hot := [24] } } : State).rst.hot.contains 24 = true := by
  and_intros <;> decide +kernel
def mcS (stat : Nat) : State := drdS.setFld 24 .MC_STAT 0 1 0 stat
def mcUpd (u : FwUpd) : State := (mcS 1).setUpd (some u)
theorem wit_ManagementMessages : (mcS 1).mcReach .agd = true ∧ (mcS 2).mcReach .smb = true ∧ (0 : BitVec 8).toNat ∈ (mcS 1).pldmTypes ∧ (1 : BitVec 8).toNat ∉ (mcS 1).pldmTypes ∧
    (mcS 2).mcRecov = true ∧ (mcS 1).mcRecov = false ∧ (0 : BitVec 16).toNat ∉ sensorIds ∧ (0x432 : BitVec 16).toNat ∈ sensorIds ∧ (1 : BitVec 32) ≠ 0 ∧
    sensorIds[(1 : BitVec 32).toNat - 1]? = some 1 ∧ sensorIds[(301 : BitVec 32).toNat - 1]? = none ∧
    (mcS 1).mc.upd = none ∧ (mcUpd { agent := .agd }).mc.upd = some { agent := .agd } ∧
    ({ agent := .agd } : FwUpd).agent = .agd ∧ (mcS 1).wouldStrand ((mcS 1).updateTarget true 0) = false ∧ (mcS 1).stampOk true 0 = true ∧
    0x50 ≤ (0x50 : BitVec 32).toNat ∧ (0x50 : BitVec 32).toNat ≤ (copyBase true ((mcS 1).updateTarget true 0)).2 := by
  and_intros <;> decide +kernel
theorem wit_ManagementMessages_render : (mcS 1).stopped = false ∧ (mcS 1).phase = 0 ∧ (mcS 1).flag 24 .RND_UPDSTAT 0 0 = false ∧
    (mcS 1).stampOk false 0 = true ∧ (0x50 : BitVec 32).toNat ≤ (copyBase false ((mcS 1).updateTarget false 0)).2 ∧ (mcS 1).hasComp 3 = false ∧
    (mcS 1).hasComp (1 : BitVec 16).toNat = true ∧ ((mcS 1).setFld 24 .RND_UPDSTAT 0 0 0 1).flag 24 .RND_UPDSTAT 0 0 = true := by
  and_intros <;> decide +kernel
def anE : McEntry := { kind := 1 }
def fwU (next : Nat) : FwUpd := { agent := .agd, comp := 1, target := 1, size := 0x1000, piece := 64, next }
def wdS : State := { ((mcS 1).setFld 24 .RST_RUN 0 0 0 1).setFld 24 .MC_WDCFG 0 38 32 99 with mc := { wd := some 0 }, mctime := 70000000000 }
theorem wit_ManagementController : (mcS 0).coldNow = false ∧ (mcS 0).fld 24 .MC_STAT 0 1 0 = 0 ∧ ({ mcS 0 with sec := { (mcS 0).sec with idEd := [1] } } : State).sec.idEd ≠ [] ∧
    (mcS 1).mcAlive = true ∧ (mcS 1).mcRecov = false ∧ here up q0 .MC_WDCFG = true ∧ up.flag 24 .MC_WDCFG 0 0 = false ∧
    here wdS q0 .MC_WDKICK = true ∧ isSystem sCore = true ∧ bits (0x4B434B49 : Word) 31 0 = 0x4B434B49 ∧ bits (0x4B434B48 : Word) 31 0 ≠ 0x4B434B49 ∧
    (wdS.setFld 24 .MC_WDCFG 0 0 0 1).flag 24 .MC_WDCFG 0 0 = true ∧ wdS.wdOut = true ∧ ({ wdS with mctime := 5 } : State).wdOut = false ∧
    here drdS .host .MC_WDKICK = true ∧ wdS.mc.wd = some 0 ∧ wdS.mc.prewarned = false ∧ 0 + wdS.wdPeriod / 2 ≤ wdS.mctime ∧ wdS.fld 24 .MC_WDCFG 0 38 32 = (⟨99, by decide⟩ : CoreId).val ∧
    0 + wdS.wdPeriod ≤ wdS.mctime ∧ (mcS 1).flag 24 .MC_STAT 0 0 = true ∧ ((mcS 1).mcLog 0x0005 0 24 3 0 0).mclog.queue.getLast?.isSome = true ∧
    ({ mcS 1 with mclog := { queue := [anE] } } : State).mclog.queue = anE :: [] ∧ ({ mcS 1 with mclog := { queue := [anE] } } : State).mclog.dropped = 0 ∧
    ({ queue := [anE], dropped := 1 } : McLog).dropped ≠ 0 := by
  and_intros <;> decide +kernel
theorem wit_ManagementController_update :
    (mcS 1).fld 24 .MC_STAT 0 1 0 ≠ 0 ∧ ({ mcS 1 with mc := { evSent := true } } : State).mc.evSent = true ∧ (mcUpd (fwU 0)).mc.upd = some (fwU 0) ∧ (fwU 0).target ≠ 0 ∧
    (fwU 0).next ≠ (fwU 0).size ∧ (List.replicate 64 (0 : Byte)).length = min (fwU 0).piece ((fwU 0).size - (fwU 0).next) ∧ (fwU 0x1000).next = (fwU 0x1000).size ∧
    (fwU 0x1000).comp = 1 ∧ here drdS .host .MC_CMD = true ∧ here wdS q0 .MC_CMD = true ∧ mcCmdOk .host = true ∧ mcCmdOk q0 = true ∧ wdS.flag 24 .MC_CMDSTAT 0 2 = false ∧ wdS.mcAlive = true ∧ wdS.mcRecov = false ∧ 1 ≤ (4096 : BitVec 16).toNat ∧
    (2 : BitVec 8) ≠ 1 ∧ (0xEF : BitVec 8).toNat < 0xF0 ∧ here up q0 .STM_NEXTF = true ∧ up.trowel.nextf = [] ∧
    ({ up.trowel with nextf := [0] }).nextf = [0] := by
  and_intros <;> decide +kernel
def boxS : State := (mcS 1).setReg 24 .MC_ADDR 0 0x100000070000
theorem wit_ManagementController_mailbox : (boxS.mcWrite (boxS.fld 24 .MC_ADDR 0 47 6 * 64) (boxS.mcRecords 1 5) 0).1 = (.ok (), 0) := by decide +kernel

/-! ### Each check of WellFormed refuses an ill-formed command -/

theorem test_ill_formed_core : WellFormed (.ldAcq aCore 1 2 3 1 0x10) = false ∧ WellFormed (.stRel aCore 1 2 3 1 0x0F) = false ∧
    WellFormed (.tableBaseWrite aCore 1 0x013) = false ∧ WellFormed (.loopRegWrite aCore 1 0x043) = false ∧ WellFormed (.loopRegWrite aCore 1 0x04B) = false ∧
    WellFormed (.tcfgWrite aCore 1 0x028) = false := by decide
theorem test_well_formed_core : WellFormed (.ldAcq aCore 1 2 3 1 0x0F) = true ∧ WellFormed (.stRel aCore 1 2 3 1 0x10) = true ∧
    WellFormed (.tableBaseWrite aCore 1 0x012) = true ∧ WellFormed (.loopRegWrite aCore 1 0x04A) = true ∧ WellFormed (.tcfgWrite aCore 1 0x027) = true := by decide
theorem test_ill_formed_module : WellFormed (.hbmRead 0 0 0 3) = false ∧ WellFormed (.patrolScrub 0 3) = false ∧ WellFormed (.tileStorePatrol 0 0 3) = false ∧
    WellFormed (.hbmWrite 0 0 31 [1, 2] false 0) = false ∧ WellFormed (.hbmWrite 0 0 0 [1] false 3) = false ∧ WellFormed (.ecsReadout 0 [1]) = false ∧
    WellFormed (.thermalRead 24 (List.replicate 8 0)) = false ∧ WellFormed (.optionPhase3End [256]) = false ∧ WellFormed (.hello 1 0 [1]) = false := by decide

/-- No word spells a command. -/
theorem test_decode : decodeTableWord 32 0x04400800 = none := rfl

/-! ### Results the spec works out -/

/-- The listing of the loop that uses the shadow (after R49): its words. -/
theorem test_words : wordI 0x01 4 0 2048 = 0x04400800 ∧ wordA 0 7 0 0 0 = 0x00700000 ∧ wordL 0x2B 0 4 3 = 0xAC100003 ∧ wordM 0x16 7 5 1 0 = 0x58714800 ∧
    wordA 0 6 6 7 0 = 0x00618700 ∧ wordI 0x01 5 5 8 = 0x04514008 := by decide
/-- SCR_PORT_STAT of C06 (after R26). -/
theorem test_register_address : ctrlBase + regKey 6 .SCR_PORT_STAT 0 0 = 0x3F0007070008 := by decide
/-- The routes of C06 to C23 and back (after R18). -/
theorem test_routes : routeFrom false 23 8 6 = [7, 8, 9, 13, 18, 23] ∧ routeFrom false 6 8 23 = [22, 21, 20, 15, 11, 6] ∧
    routeFrom true 6 8 23 = [18, 13, 9, 8, 7, 6] := by decide
/-- One address with two channels out (after R342): channel 45, channel offset 0x2A9C40, pseudo-channel 1 of it. -/
def twoOut : State := ((up.setReg 24 .PMAP_OUT 0 0x2000000000).setReg 24 .PMAP_OUT 3 0x80000).setReg 24 .HBM_MAP 0 4
theorem test_hbm_address : twoOut.activeCh.length = 254 ∧ twoOut.granule = 4096 ∧ twoOut.hbmDecode 0x2A3F1C40 = (45, 0x2A9C40, 1) := by decide +kernel
/-- A host-side time step (after R391): D 304 ns, θ 1,340 ns, a step. -/
def stepped : State :=
  let s := ((timeS 3600000012500 3600000013216).setFld 24 .AGD_TSTAT 0 0 0 1).setFld 24 .AGD_TASYM 0 15 0 8
  { s.setFld 24 .AGD_TCFG 0 31 16 1000 with sync := { s.sync with delays := [] } }
def ended (o : Host.Outcome State Fault Refusal) : State := match o with | .next t => t | _ => {}
def stepEnd : State := ended (execTsrsp 7 3600000013988 3600000014400 stepped)
theorem test_time_step : stepEnd.time = 3600000013216 + 1340 ∧ stepEnd.fld 24 .AGD_TSTAT 0 31 16 = 1 ∧ stepEnd.fld 24 .AGD_TOFS 0 63 32 = 304 ∧
    stepEnd.fld 24 .AGD_TOFS 0 31 0 = 1340 := by decide +kernel
/-- The exchange after it: FREQ −750, SLEW −6,000. -/
def steeredEnd : State := ended (execTsrsp 7 3600001013982 3600001014394 { stepped with
  time := 3600001014556
  sync := { stepped.sync with out := some (7, 3600001013840), lastT1 := some 3600000012500, stepped := 2680 } })
theorem test_time_steer : steeredEnd.tFreq = -750 ∧ steeredEnd.sync.slew = -6000 ∧ steeredEnd.fld 24 .AGD_TOFS 0 31 0 = 2 ^ 32 - 6 := by decide +kernel
/-- One block of a gradient into MXFP8 (after R195): the scale, the elements, NX and UF. -/
theorem test_mxfp8 : mxBlock 10 ([0x3CB1C433, 0xB9D6F545, 0x34A80000] ++ List.replicate 29 0) (List.replicate 32 none)
    = (0x71, [0x7B, 0xCD, 0x03] ++ List.replicate 29 0, flagNX ||| flagUF) := by decide +kernel
/-- CRC-32 of the digits 1 to 9 (R497 names the polynomial of IEEE 802.3). -/
theorem test_crc32 : crc32 [0x31, 0x32, 0x33, 0x34, 0x35, 0x36, 0x37, 0x38, 0x39] = 0xCBF43926 := by decide +kernel

end Sys2Proof.Tests
end

/-! SUPPORT. What log entries leave of the traffic between dies (R468): registers' fields, the edges, the ports, the requests that wait. -/

namespace Sys2Proof.Machine

open Sys2Proof

/-! ### Fields of registers -/

/-- A bit of a word in which a field has been replaced: the field's own bit, or the word's. -/
theorem bit_setBits (w : Word) {hi lo b : Nat} (v : Nat) (h : lo ≤ hi) (hb : b < 64) :
    bit (setBits w hi lo v) b = if lo ≤ b ∧ b ≤ hi then v.testBit (b - lo) else bit w b := by
  obtain ⟨k, rfl⟩ := Nat.exists_eq_add_of_le h
  have hk : lo + k + 1 - lo = k + 1 := by omega
  generalize hx : w.toNat = x
  have hlow : x % 2 ^ lo < 2 ^ lo := Nat.mod_lt _ (by positivity)
  have hmid (y : Nat) : y % 2 ^ (k + 1) < 2 ^ (k + 1) := Nat.mod_lt _ (by positivity)
  have parts (y : Nat) : 2 ^ lo * (2 ^ (k + 1) * (x / 2 ^ lo / 2 ^ (k + 1)) + y) + x % 2 ^ lo
      = 2 ^ lo * (2 ^ (k + 1) * (x / 2 ^ lo / 2 ^ (k + 1))) + y * 2 ^ lo + x % 2 ^ lo := by ring
  have whole : x = 2 ^ lo * (2 ^ (k + 1) * (x / 2 ^ lo / 2 ^ (k + 1)) + x / 2 ^ lo % 2 ^ (k + 1)) + x % 2 ^ lo := by
    rw [Nat.div_add_mod, Nat.div_add_mod]
  have value : x - x / 2 ^ lo % 2 ^ (k + 1) * 2 ^ lo + v % 2 ^ (k + 1) * 2 ^ lo
      = 2 ^ lo * (2 ^ (k + 1) * (x / 2 ^ lo / 2 ^ (k + 1)) + v % 2 ^ (k + 1)) + x % 2 ^ lo := by
    have := whole.trans (parts _)
    rw [parts]
    omega
  have hbit : bit w b = x.testBit b := by simp [bit, BitVec.getLsbD, hx]
  have hset : bit (setBits w (lo + k) lo v) b
      = (2 ^ lo * (2 ^ (k + 1) * (x / 2 ^ lo / 2 ^ (k + 1)) + v % 2 ^ (k + 1)) + x % 2 ^ lo).testBit b := by
    simp only [bit, setBits, BitVec.getLsbD_ofNat, hb, decide_true, Bool.true_and, hx, Nat.shiftRight_eq_div_pow, hk, value]
  rw [hset, hbit, Nat.testBit_two_pow_mul_add _ hlow, Nat.testBit_two_pow_mul_add _ (hmid v)]
  conv_rhs => rw [whole, Nat.testBit_two_pow_mul_add _ hlow, Nat.testBit_two_pow_mul_add _ (hmid _)]
  by_cases h1 : b < lo
  · simp [h1, Nat.not_le.mpr h1]
  · by_cases h2 : b ≤ lo + k
    · simp [h1, h2, Nat.le_of_not_lt h1, show b - lo < k + 1 by omega]
    · simp [h1, h2, show ¬ b - lo < k + 1 by omega]

/-- A bit of a register in which a field has been replaced. -/
theorem State.flag_setFld_self (s : State) (d : Nat) (r : RegName) (i : Nat) {hi lo b : Nat} (v : Nat) (h : lo ≤ hi) (hb : b < 64) :
    (s.setFld d r i hi lo v).flag d r i b = if lo ≤ b ∧ b ≤ hi then v.testBit (b - lo) else s.flag d r i b := by
  simp [State.flag, State.setFld, bit_setBits _ v h hb]

/-- A bit of a register in which one bit has been replaced. -/
theorem State.flag_setFld_bit (s : State) (d : Nat) (r : RegName) (i n : Nat) {b : Nat} (v : Nat) (hb : b < 64) :
    (s.setFld d r i n n v).flag d r i b = if b = n then v.testBit 0 else s.flag d r i b := by
  rw [State.flag_setFld_self s d r i v le_rfl hb]
  by_cases h : b = n
  · simp [h]
  · rw [if_neg h, if_neg fun hn => h (Nat.le_antisymm hn.2 hn.1)]

/-- The first offset of a die in control space is its own (R26). -/
theorem dieBase_inj {d e : Nat} (h : dieBase d = dieBase e) : d = e := by
  unfold dieBase at h
  split at h <;> split at h <;> omega

theorem dieBase_mul (d : Nat) : ∃ k, dieBase d = 0x1000000 * k := by
  unfold dieBase
  split
  · exact ⟨0, rfl⟩
  · exact ⟨d + 1, Nat.mul_comm ..⟩

/-- A register outside block 7 is none of the port registers (R26, R28). -/
theorem regKey_ne_port {d : Nat} {r : RegName} {i w : Nat} (hb : (regInfo r).blk < 7)
    (ho : (regInfo r).off + (regInfo r).stride * i + 8 * w < 0x10000) (e : Nat) :
    regKey e .SCR_PORT_STAT 0 0 ≠ regKey d r i w := by
  obtain ⟨j, hj⟩ := dieBase_mul e
  obtain ⟨k, hk⟩ := dieBase_mul d
  simp only [regKey, hj, hk, regInfo] at *
  generalize (regInfo r).stride * i = x at *
  omega

theorem State.port_setFld_ne (s : State) {d e : Nat} (hi lo v : Nat) (h : e ≠ d) :
    (s.setFld d .SCR_PORT_STAT 0 hi lo v).regW e .SCR_PORT_STAT 0 0 = s.regW e .SCR_PORT_STAT 0 0 := by
  refine State.regW_setRegW_ne s _ fun hk => h (dieBase_inj ?_)
  simpa [regKey] using hk

/-! ### What log entries leave of the traffic between dies -/

/-- State t has of s the edges, the runs of replays, the device reads, the requests that wait, and what the ports' registers show. -/
structure State.KeepsTraffic (s t : State) : Prop where
  edges : t.edges = s.edges
  scrim : t.scrim = s.scrim
  drds : t.drds = s.drds
  waits : t.waits = s.waits
  ports : ∀ d, t.regW d .SCR_PORT_STAT 0 0 = s.regW d .SCR_PORT_STAT 0 0

theorem State.KeepsTraffic.refl (s : State) : s.KeepsTraffic s := ⟨rfl, rfl, rfl, rfl, fun _ => rfl⟩

theorem State.KeepsTraffic.trans {s t u : State} (h : s.KeepsTraffic t) (k : t.KeepsTraffic u) : s.KeepsTraffic u :=
  ⟨k.edges.trans h.edges, k.scrim.trans h.scrim, k.drds.trans h.drds, k.waits.trans h.waits, fun d => (k.ports d).trans (h.ports d)⟩

theorem State.KeepsTraffic.of {α : Type} {s t : State} {r : α × State} {a : α} (e : r = (a, t)) (h : s.KeepsTraffic r.2) :
    s.KeepsTraffic t := by subst e; exact h

theorem State.KeepsTraffic.edge {s t : State} (h : s.KeepsTraffic t) (e : Nat) : t.edge e = s.edge e :=
  congrArg (fun m => look (fun _ => EdgeSt.primary) m e) h.edges

theorem State.KeepsTraffic.flag {s t : State} (h : s.KeepsTraffic t) (d b : Nat) :
    t.flag d .SCR_PORT_STAT 0 b = s.flag d .SCR_PORT_STAT 0 b := congrArg (bit · b) (h.ports d)

/-- A fold whose every step leaves the traffic as it was does so too. -/
theorem State.keepsTraffic_foldl {α : Type} {f : State → α → State} (hf : ∀ (t : State) (a : α), t.KeepsTraffic (f t a)) (l : List α)
    (s : State) : s.KeepsTraffic (l.foldl f s) := by
  induction l generalizing s with
  | nil => exact .refl s
  | cons a l ih => exact (hf s a).trans (ih _)

theorem State.keepsTraffic_setRegW (s : State) {d : Nat} {r : RegName} {i w : Nat} (v : Word) (hb : (regInfo r).blk < 7)
    (ho : (regInfo r).off + (regInfo r).stride * i + 8 * w < 0x10000) : s.KeepsTraffic (s.setRegW d r i w v) :=
  ⟨rfl, rfl, rfl, rfl, fun e => s.regW_setRegW_ne v (regKey_ne_port hb ho e)⟩

theorem State.keepsTraffic_sendIrq (s : State) (route die : Nat) : s.KeepsTraffic (s.sendIrq route die) := by
  unfold State.sendIrq
  dsimp only
  split <;> exact ⟨rfl, rfl, rfl, rfl, fun _ => rfl⟩

theorem State.keepsTraffic_mcLog (s : State) (kind sev die p0 p1 p2 : Nat) : s.KeepsTraffic (s.mcLog kind sev die p0 p1 p2) := by
  unfold State.mcLog
  dsimp only
  split
  · exact .trans (t := { s with mclog := { s.mclog with dropped := s.mclog.dropped + 1 } }) ⟨rfl, rfl, rfl, rfl, fun _ => rfl⟩
      (State.keepsTraffic_setRegW (r := .MC_STAT) (i := 0) (w := 0) _ _ (by decide) (by decide))
  · exact ⟨rfl, rfl, rfl, rfl, fun _ => rfl⟩

theorem State.keepsTraffic_setReplace (s : State) : s.KeepsTraffic s.setReplace := by
  unfold State.setReplace
  split
  · exact .refl s
  · exact (s.keepsTraffic_setRegW _ (by decide) (by decide)).trans (State.keepsTraffic_mcLog ..)

theorem State.keepsTraffic_settle (s : State) : s.KeepsTraffic s.settle := by
  unfold State.settle
  dsimp only
  split
  · exact s.keepsTraffic_setReplace.trans (State.keepsTraffic_setRegW _ _ (by decide) (by decide))
  · exact State.keepsTraffic_setRegW _ _ (by decide) (by decide)

theorem State.keepsTraffic_choose (s : State) (l : List Nat) : s.KeepsTraffic (s.choose l).2 := by
  unfold State.choose
  split <;> exact ⟨rfl, rfl, rfl, rfl, fun _ => rfl⟩

theorem State.keepsTraffic_errOrder (s : State) (x : Sparse (List Nat)) : s.KeepsTraffic { s with errOrder := x } :=
  ⟨rfl, rfl, rfl, rfl, fun _ => rfl⟩

/-- What is picked is one of the list. -/
theorem State.mem_of_choose {s t : State} {l : List Nat} {i : Nat} (h : s.choose l = (some i, t)) : i ∈ l := by
  unfold State.choose at h
  split at h
  · simp at h
  · simp_all
  next hne _ =>
    cases h
    have hlt : Config.freeNat s.free % l.length < l.length := Nat.mod_lt _ (List.length_pos_iff.mpr hne)
    rw [List.getD_eq_getElem _ _ hlt]
    exact List.getElem_mem ..

/-- The count of uncorrectable errors of a unit, as an entry of a class leaves it (R472). -/
def State.countUe (s : State) (die cls unit : Nat) : State := if ueClass cls then s.satFld die .ERR_CNT unit 63 32 1 else s

theorem State.keepsTraffic_countUe (s : State) (die cls : Nat) {unit : Nat} (h : unit < 16) : s.KeepsTraffic (s.countUe die cls unit) := by
  unfold State.countUe
  split
  · exact s.keepsTraffic_setRegW _ (by decide) (by simp only [regInfo]; omega)
  · exact .refl s

theorem State.countUe_drds (s : State) (die cls unit : Nat) : (s.countUe die cls unit).drds = s.drds := by
  unfold State.countUe
  split
  · exact State.setRegW_drds ..
  · rfl

theorem State.countUe_waits (s : State) (die cls unit : Nat) : (s.countUe die cls unit).waits = s.waits := by
  unfold State.countUe
  split
  · exact State.setRegW_waits ..
  · rfl

/-- Beyond the count of its unit, a log entry leaves the traffic as it was. -/
theorem State.keepsTraffic_logErr_of_count (s : State) (die cls sev unit : Nat) (q : Req) (addr : Option Nat) (poison : Bool) (info : Nat) :
    (s.countUe die cls unit).KeepsTraffic (s.logErr die cls sev unit q addr poison info) := by
  unfold State.logErr
  extract_lets s1 dw0 a order s2 s3 s4
  have h2 : s1.KeepsTraffic s2 := by
    have hc := s1.keepsTraffic_choose ((List.range 64).filter fun i => !order.contains i)
    unfold s2
    split
    next h => exact (hc.of h).trans (State.keepsTraffic_setRegW _ _ (by decide) (by decide))
    next i u h =>
      have hi : i < 64 := by simpa using (List.mem_filter.mp (State.mem_of_choose h)).1
      have entry (v : State) (w : Nat) (x : Word) (hw : w < 4) : v.KeepsTraffic (v.setRegW die .ERR_LOG i w x) :=
        v.keepsTraffic_setRegW x (by decide) (by simp only [regInfo]; omega)
      refine .trans ?_ (State.keepsTraffic_setRegW _ _ (by decide) (by decide))
      refine .trans ?_ (State.keepsTraffic_errOrder _ _)
      exact ((((hc.of h).trans (entry _ 0 _ (by omega))).trans (entry _ 1 _ (by omega))).trans (entry _ 2 _ (by omega))).trans
        (entry _ 3 _ (by omega))
  have h3 : s2.KeepsTraffic s3 := State.keepsTraffic_mcLog ..
  have h4 : s3.KeepsTraffic s4 := by
    unfold s4
    split
    · exact State.keepsTraffic_sendIrq ..
    · exact .refl s3
  have h := (h2.trans h3).trans h4
  split
  · exact h.trans (State.keepsTraffic_setReplace _)
  · exact h

theorem State.keepsTraffic_logErr (s : State) (die cls sev : Nat) {unit : Nat} (q : Req) (addr : Option Nat) (poison : Bool) (info : Nat)
    (h : unit < 16) : s.KeepsTraffic (s.logErr die cls sev unit q addr poison info) :=
  (s.keepsTraffic_countUe die cls h).trans (s.keepsTraffic_logErr_of_count die cls sev unit q addr poison info)

/-- A timeout's log entry ends no device read (R461). -/
theorem State.logTimeout_drds (s : State) (q : Req) (pa : Nat) : (s.logTimeout q pa).drds = s.drds := by
  rw [State.logTimeout, (s.keepsTraffic_logErr_of_count ..).drds, State.countUe_drds]

theorem State.logTimeout_waits (s : State) (q : Req) (pa : Nat) : (s.logTimeout q pa).waits = s.waits := by
  rw [State.logTimeout, (s.keepsTraffic_logErr_of_count ..).waits, State.countUe_waits]

/-! ### Stores lost on an edge -/

theorem State.keepsTraffic_setPoison (s : State) (pa : Nat) (b : Bool) : s.KeepsTraffic (s.setPoison pa b) :=
  ⟨rfl, rfl, rfl, rfl, fun _ => rfl⟩

theorem State.keepsTraffic_undoParts (s : State) (marks : List Nat) (ps : List Piece) (was wrote : List Byte) :
    s.KeepsTraffic (s.undoParts marks ps was wrote) := by
  induction ps generalizing s was wrote with
  | nil => exact .refl s
  | cons p ps ih =>
    unfold State.undoParts
    refine .trans ?_ (ih _ _ _)
    dsimp only
    split
    · exact ⟨rfl, rfl, rfl, rfl, fun _ => rfl⟩
    · refine .trans ?_ (State.keepsTraffic_foldl (fun t u => t.keepsTraffic_setPoison u true) _ _)
      exact ⟨rfl, rfl, rfl, rfl, fun _ => rfl⟩

theorem State.keepsTraffic_lostStore (s : State) (c : CoreId) (pa : Nat) : s.KeepsTraffic (s.lostStore c pa) := by
  unfold State.lostStore
  dsimp only
  split
  · exact .refl s
  next e _ =>
    have hu : (if e.idx % 8 = 4 then 4 else (coreK c).val) < 16 := by
      split
      · omega
      · exact (coreK c).isLt.trans (by decide)
    refine .trans ?_ (State.keepsTraffic_logErr _ _ _ _ _ _ _ _ hu)
    refine .trans (.trans ?_ (State.keepsTraffic_undoParts ..)) ⟨rfl, rfl, rfl, rfl, fun _ => rfl⟩
    exact ⟨rfl, rfl, rfl, rfl, fun _ => rfl⟩

theorem State.keepsTraffic_loseStores (s : State) : s.KeepsTraffic s.loseStores := by
  refine State.keepsTraffic_foldl (fun t n => ?_) _ s
  split
  · refine State.keepsTraffic_foldl (fun u e => ?_) _ t
    have hb : u.KeepsTraffic u.freeBool.2 := ⟨rfl, rfl, rfl, rfl, fun _ => rfl⟩
    split
    · exact .refl u
    · dsimp only
      split
      · exact hb.trans (State.keepsTraffic_lostStore ..)
      · exact hb
  · exact .refl t

end Sys2Proof.Machine

/-! SUPPORT. Edges that switch and fall, and ports that train (R19, R20, R28). -/

namespace Sys2Proof.Machine

open Sys2Proof

/-! ### Edges that switch and fall (R19, R20) -/

theorem edgeDies_ne (e : Fin 40) : (edgeDies e.val).1 ≠ (edgeDies e.val).2 := by
  revert e; decide

theorem edgeSide_lt (d e : Nat) : edgeSide d e < 4 := by
  unfold edgeSide
  dsimp only
  repeat' split
  all_goals omega

/-- A key that a store has lost reads as its default, and any other as before. -/
theorem look_dropKeys {α : Type} (d : Nat → α) (p : Nat → Bool) (m : Sparse α) (k : Nat) :
    look d (dropKeys p m) k = if p k then d k else look d m k := by
  induction m with
  | nil => simp [dropKeys, look]
  | cons e m ih =>
    obtain ⟨j, v⟩ := e
    by_cases hp : p j = true
    · rw [show dropKeys p ((j, v) :: m) = dropKeys p m by simp [dropKeys, hp], ih]
      by_cases h : j = k
      · rw [if_pos (h ▸ hp), if_pos (h ▸ hp)]
      · simp [look, h]
    · rw [show dropKeys p ((j, v) :: m) = (j, v) :: dropKeys p m by simp [dropKeys, hp]]
      by_cases h : j = k
      · subst h; simp [look, hp]
      · simp [look, h, ih]

/-- One die of an edge switches to the edge's standby pair and logs it (R19, R467). -/
def State.switchDie (s : State) (d e : Nat) : State :=
  ((s.setFld d .SCR_PORT_STAT 0 5 5 1).satFld d .SCR_PORT_STAT 0 15 8 1).logErr d 0x09 2 7 ⟨d, 7⟩ none false (edgeSide d e)

theorem State.edgeSwitch_eq (s : State) (e : Nat) :
    s.edgeSwitch e = (State.switchDie { s with
      edges := put (fun _ => .primary) s.edges e .standby
      scrim := dropKeys (fun k => k == 2 * e || k == 2 * e + 1) s.scrim } (edgeDies e).1 e).switchDie (edgeDies e).2 e := rfl

theorem State.switchDie_edges (s : State) (d e : Nat) : (s.switchDie d e).edges = s.edges :=
  (State.keepsTraffic_logErr _ d 0x09 2 _ none false _ (by omega)).edges

theorem State.switchDie_scrim (s : State) (d e : Nat) : (s.switchDie d e).scrim = s.scrim :=
  (State.keepsTraffic_logErr _ d 0x09 2 _ none false _ (by omega)).scrim

theorem State.switchDie_flag_self (s : State) (d e : Nat) : (s.switchDie d e).flag d .SCR_PORT_STAT 0 5 = true := by
  rw [State.switchDie, (State.keepsTraffic_logErr _ d 0x09 2 _ none false _ (by omega)).flag, State.satFld,
    State.flag_setFld_self _ _ _ _ _ (by omega) (by omega), State.flag_setFld_self _ _ _ _ _ (by omega) (by omega)]
  rfl

theorem State.switchDie_flag_ne (s : State) {d d' : Nat} (e b : Nat) (h : d' ≠ d) :
    (s.switchDie d e).flag d' .SCR_PORT_STAT 0 b = s.flag d' .SCR_PORT_STAT 0 b := by
  rw [State.switchDie, (State.keepsTraffic_logErr _ d 0x09 2 _ none false _ (by omega)).flag]
  exact congrArg (bit · b) ((State.port_setFld_ne _ _ _ _ h).trans (State.port_setFld_ne _ _ _ _ h))

/-- One die of an edge takes the edge down and logs it (R20, R467). -/
def State.fallDie (s : State) (d e : Nat) : State :=
  let s := (s.setFld d .SCR_PORT_STAT 0 (edgeSide d e) (edgeSide d e) 0).setFld d .SCR_PORT_STAT 0 6 6 1
  let s := if doubledEdge e then s.setFld d .SCR_PORT_STAT 0 4 4 0 else s
  s.logErr d 0x0A 2 7 ⟨d, 7⟩ none false (edgeSide d e)

theorem State.edgeFall_eq (s : State) (e : Nat) :
    s.edgeFall e = ((State.loseStores { s with edges := put (fun _ => .primary) s.edges e .down }).fallDie (edgeDies e).1 e).fallDie
      (edgeDies e).2 e := rfl

theorem State.fallDie_edges (s : State) (d e : Nat) : (s.fallDie d e).edges = s.edges := by
  rw [State.fallDie, (State.keepsTraffic_logErr _ d 0x0A 2 _ none false _ (by omega)).edges]
  split <;> rfl

/-- A port's bit on the die whose edge has fallen: that of the side reads 0, the mark of a dead edge 1. -/
theorem State.fallDie_flag_self (s : State) (d e : Nat) {b : Nat} (hb : b < 64) (h4 : b ≠ 4) :
    (s.fallDie d e).flag d .SCR_PORT_STAT 0 b =
      if b = 6 then true else if b = edgeSide d e then false else s.flag d .SCR_PORT_STAT 0 b := by
  have bits : ((s.setFld d .SCR_PORT_STAT 0 (edgeSide d e) (edgeSide d e) 0).setFld d .SCR_PORT_STAT 0 6 6 1).flag d .SCR_PORT_STAT 0 b
      = if b = 6 then true else if b = edgeSide d e then false else s.flag d .SCR_PORT_STAT 0 b := by
    rw [State.flag_setFld_bit _ _ _ _ _ _ hb, State.flag_setFld_bit _ _ _ _ _ _ hb]
    rfl
  rw [State.fallDie, (State.keepsTraffic_logErr _ d 0x0A 2 _ none false _ (by omega)).flag]
  split
  · rw [State.flag_setFld_bit _ _ _ _ _ _ hb, if_neg h4, bits]
  · exact bits

theorem State.fallDie_flag_ne (s : State) {d d' : Nat} (e b : Nat) (h : d' ≠ d) :
    (s.fallDie d e).flag d' .SCR_PORT_STAT 0 b = s.flag d' .SCR_PORT_STAT 0 b := by
  have sides : ((s.setFld d .SCR_PORT_STAT 0 (edgeSide d e) (edgeSide d e) 0).setFld d .SCR_PORT_STAT 0 6 6 1).regW d' .SCR_PORT_STAT 0 0
      = s.regW d' .SCR_PORT_STAT 0 0 := (State.port_setFld_ne _ _ _ _ h).trans (State.port_setFld_ne _ _ _ _ h)
  rw [State.fallDie, (State.keepsTraffic_logErr _ d 0x0A 2 _ none false _ (by omega)).flag]
  refine congrArg (bit · b) ?_
  split
  · exact (State.port_setFld_ne _ _ _ _ h).trans sides
  · exact sides

/-- A doubled edge after the switch of R19. -/
theorem State.edgeSwitch_spec (s : State) (e : Fin 40) :
    (s.edgeSwitch e.val).edge e.val = .standby ∧ (∀ f, f ≠ e.val → (s.edgeSwitch e.val).edge f = s.edge f) ∧
      (s.edgeSwitch e.val).flag (edgeDies e.val).1 .SCR_PORT_STAT 0 5 = true ∧
      (s.edgeSwitch e.val).flag (edgeDies e.val).2 .SCR_PORT_STAT 0 5 = true ∧
      ∀ side : Bool, look (fun _ => {}) (s.edgeSwitch e.val).scrim (2 * e.val + b2n side) = {} := by
  rw [State.edgeSwitch_eq]
  refine ⟨?_, fun f hf => ?_, ?_, State.switchDie_flag_self .., fun side => ?_⟩
  · simp only [State.edge, State.switchDie_edges, look_put_self]
  · simp only [State.edge, State.switchDie_edges, look_put_ne _ _ _ _ hf]
  · rw [State.switchDie_flag_ne _ _ _ (edgeDies_ne e), State.switchDie_flag_self]
  · simp only [State.switchDie_scrim, look_dropKeys]
    cases side <;> simp [b2n]

/-- An edge after the fall of R20. -/
theorem State.edgeFall_spec (s : State) (e : Fin 40) :
    (s.edgeFall e.val).edge e.val = .down ∧ (∀ f, f ≠ e.val → (s.edgeFall e.val).edge f = s.edge f) ∧
      ∀ d ∈ [(edgeDies e.val).1, (edgeDies e.val).2], (s.edgeFall e.val).flag d .SCR_PORT_STAT 0 6 = true ∧
        (s.edgeFall e.val).flag d .SCR_PORT_STAT 0 (edgeSide d e.val) = false := by
  have self (t : State) (d : Nat) : (t.fallDie d e.val).flag d .SCR_PORT_STAT 0 6 = true ∧
      (t.fallDie d e.val).flag d .SCR_PORT_STAT 0 (edgeSide d e.val) = false := by
    have hs := edgeSide_lt d e.val
    rw [State.fallDie_flag_self _ _ _ (by omega) (by omega), State.fallDie_flag_self _ _ _ (by omega) (by omega)]
    exact ⟨if_pos rfl, by rw [if_neg (by omega), if_pos rfl]⟩
  rw [State.edgeFall_eq]
  refine ⟨?_, fun f hf => ?_, ?_⟩
  · simp only [State.edge, State.fallDie_edges, (State.keepsTraffic_loseStores _).edges, look_put_self]
  · simp only [State.edge, State.fallDie_edges, (State.keepsTraffic_loseStores _).edges, look_put_ne _ _ _ _ hf]
  · simp only [List.forall_mem_cons, List.not_mem_nil, false_imp_iff, implies_true, and_true]
    refine ⟨?_, self _ _⟩
    simp only [State.fallDie_flag_ne _ _ _ (edgeDies_ne e)]
    exact self _ _

/-! ### Ports trained (R28, R429) -/

/-- Does the edge on a side of a die have a working pair? -/
def State.sideUp (s : State) (d side : Nat) : Bool :=
  match neighbour d side with
  | some o => s.edge (edgeNo d o) != .down
  | none => false

/-- The four sides and the standby site as the bits of a number. -/
theorem testBit_sides (n e s w p : Bool) {side : Nat} (h : side < 4) :
    (0 + 2 ^ 0 * b2n n + 2 ^ 1 * b2n e + 2 ^ 2 * b2n s + 2 ^ 3 * b2n w + 16 * b2n p).testBit (side - 0)
      = [n, e, s, w].getD side false := by
  revert n e s w p side; decide

theorem State.portsUp_flag (s : State) (d : Nat) {side : Nat} (h : side < 4) :
    (s.portsUp d).flag d .SCR_PORT_STAT 0 side = s.sideUp d side := by
  unfold State.portsUp
  rw [State.flag_setFld_self _ _ _ _ _ (by omega) (by omega), if_pos ⟨Nat.zero_le _, by omega⟩,
    List.foldl_ext (g := fun v i => v + 2 ^ i * b2n (s.sideUp d i))]
  · refine (testBit_sides (s.sideUp d 0) (s.sideUp d 1) (s.sideUp d 2) (s.sideUp d 3) _ h).trans ?_
    interval_cases side <;> rfl
  · intro v i _
    unfold State.sideUp
    cases neighbour d i with
    | none => rfl
    | some o => by_cases ho : s.edge (edgeNo d o) = .down <;> simp [ho, b2n]

end Sys2Proof.Machine

/-! SUPPORT. The reports of link, FIFO and timeout errors (R461, R462, R465–R468). -/

namespace Sys2Proof.Machine

open Sys2Proof

/-! ### The commands of the ERR_ log (R461, R462, R465–R468) -/

/-- What a FIFO of a die's unit loses: packets that wait on its link, or interrupts that pass the die (R465). -/
def State.loseFifo (s : State) (d unit n : Nat) : State :=
  match unit with
  | 8 => s.loseWaiting .agd n
  | 9 => s.loseWaiting .twn n
  | 10 => s.loseWaiting .hwk n
  | _ => s.loseFlights d n

theorem State.loseFifo_eq (s : State) (d : Nat) (unit : BitVec 4) (n : Nat) :
    s.loseFifo d unit.toNat n = if unit = 8 then s.loseWaiting .agd n else if unit = 9 then s.loseWaiting .twn n
      else if unit = 10 then s.loseWaiting .hwk n else s.loseFlights d n := by
  have ne {k : BitVec 4} (h : unit ≠ k) (hk : unit.toNat = k.toNat) : False := h (BitVec.eq_of_toNat_eq hk)
  by_cases h8 : unit = 8
  · subst h8; rfl
  by_cases h9 : unit = 9
  · subst h9; rfl
  by_cases h10 : unit = 10
  · subst h10; rfl
  rw [if_neg h8, if_neg h9, if_neg h10]
  unfold State.loseFifo
  split
  next h => exact (ne h8 h).elim
  next h => exact (ne h9 h).elim
  next h => exact (ne h10 h).elim
  next => rfl

/-- Lost lock on the primary pair of a doubled edge: the edge switches (R19). -/
theorem execStandbySwitch_eq {s : State} (hs : s.stopped = false) {e : Fin 40} (hd : doubledEdge e.val = true)
    (he : s.edge e.val = .primary) : execStandbySwitch e s = done (s.edgeSwitch e.val) := by
  rw [execStandbySwitch, if_pos (by simp [hs, hd, he])]

/-- The last working pair of an edge fails: the edge falls (R20). -/
theorem execEdgeDown_eq {s : State} (hs : s.stopped = false) {e : Fin 40} (he : s.edge e.val ≠ .down)
    (hd : doubledEdge e.val = true → s.edge e.val = .standby) : execEdgeDown e s = done (s.edgeFall e.val) := by
  rw [execEdgeDown, if_neg]
  simp only [hs, Bool.or_eq_true, beq_iff_eq, he, Bool.and_eq_true, Bool.false_eq_true, false_or]
  rintro ⟨hdoubled, hprimary⟩
  exact absurd (hprimary.symm.trans (hd hdoubled)) (by decide)

theorem execScrimPortRetrainDone_eq {s : State} (hs : s.stopped = false) (d : CDie) :
    execScrimPortRetrainDone d s = done (s.portsUp d.val) := by
  rw [execScrimPortRetrainDone, if_neg (by simp [hs])]

theorem execOrphanResponse_eq {s : State} (hs : s.stopped = false) (d : Die) (unit : BitVec 4) (pa : BitVec 48) :
    execOrphanResponse d unit pa s = done (s.logErr d.val 0x06 0 unit.toNat ⟨d.val, unit.toNat⟩ (some pa.toNat) false 0) := by
  rw [execOrphanResponse, if_neg (by simp [hs])]

/-- A FIFO whose pointers disagree loses its packets and is logged; four times within a second call for a new tray (R465, R471). -/
theorem execFifoPointerMismatch_eq {s : State} (hs : s.stopped = false) (d : Die) (unit : BitVec 4) (queue entries : BitVec 16) :
    let key := d.val * 2 ^ 20 + unit.toNat * 2 ^ 16 + queue.toNat
    let v := s.loseFifo d.val unit.toNat entries.toNat
    let recent := v.time :: (look (fun _ => []) v.fifoErr key).filter fun t => decide (v.time < t + 1000000000)
    let u := { v with fifoErr := put (fun _ => []) v.fifoErr key (recent.take 4) }
    let w := u.freeNat.2.logErr d.val 0x07 1 unit.toNat ⟨d.val, unit.toNat⟩ (some u.freeNat.1) false (queue.toNat + 2 ^ 16 * entries.toNat)
    execFifoPointerMismatch d unit queue entries s = done (if 4 ≤ recent.length then w.setReplace else w) := by
  rw [execFifoPointerMismatch, if_neg (by simp [hs])]
  rfl

/-- A replay is counted as corrected, and the eighth in a row from one transfer exhausts the pair (R467). -/
theorem execScrimReplay_eq {s : State} (hs : s.stopped = false) {e : Fin 40} (side : Bool) (seq : BitVec 8) (he : s.edge e.val ≠ .down) :
    let key := 2 * e.val + b2n side
    let old := look (fun _ => {}) s.scrim key
    let sent := s.transfers (if side then (edgeDies e.val).1 else (edgeDies e.val).2)
      (edgeSide (if side then (edgeDies e.val).1 else (edgeDies e.val).2) e.val)
    let n := if old.seq = seq.toNat ∧ old.n ≠ 0 ∧ sent < old.sent + 256 then old.n + 1 else 1
    let u := s.corrected (if side then (edgeDies e.val).2 else (edgeDies e.val).1) 7 1
    execScrimReplay e side seq s = done (if 8 ≤ n then State.edgeFails { u with scrim := put (fun _ => {}) u.scrim key {} } e.val
      else { u with scrim := put (fun _ => {}) u.scrim key { seq := seq.toNat, n, sent } }) := by
  intro key old sent n u
  rw [execScrimReplay, if_neg (by simp [hs, he])]
  exact (apply_ite done (8 ≤ n) _ _).symm

theorem execResponseTimeout_eq {s : State} (hs : s.stopped = false) (o : Outst) : execResponseTimeout o s = done (s.timeout o) := by
  rw [execResponseTimeout, if_neg (by simp [hs])]

/-- The read found is outstanding, and for somebody. -/
theorem drd_outstanding {l : List Drd} {t : Nat} {x : Drd}
    (h : (l.find? fun x => x.tag == t && x.ans.isNone && !x.held && x.own != Own.none) = some x) :
    x ∈ l ∧ x.ans = none ∧ x.own ≠ .none := by
  have hx := List.find?_some h
  simp only [Bool.and_eq_true, Option.isNone_iff_eq_none, bne_iff_ne] at hx
  obtain ⟨⟨⟨_, hans⟩, _⟩, hown⟩ := hx
  exact ⟨List.mem_of_find?_eq_some h, hans, hown⟩

/-- A late DRD is answered with code 7, and its tag stays with an orphan (R374, R461). -/
theorem execResponseTimeout_drd {s : State} (hs : s.stopped = false) {tag : BitVec 10} {x : Drd}
    (h : (s.drds.find? fun x => x.tag == tag.toNat && x.ans.isNone && !x.held && x.own != Own.none) = some x)
    (he : s.expired x.own.req x.since = true) :
    ∃ t, execResponseTimeout (.drd tag) s = .next t ∧ ({ tag := x.tag, pa := x.pa, late := true } : Drd) ∈ t.drds ∧
      { x with ans := some (23, []) } ∈ t.drds ∧ x ∉ t.drds := by
  obtain ⟨hmem, hans, hown⟩ := drd_outstanding h
  refine ⟨_, execResponseTimeout_eq hs _, ?_⟩
  have drds : (s.timeout (.drd tag)).settle.drds
      = s.drds.map (fun y => if y == x then { x with ans := some (23, []) } else y)
        ++ [({ tag := x.tag, pa := x.pa, late := true } : Drd)] := by
    rw [(State.keepsTraffic_settle _).drds]
    simp only [State.timeout, h, he, if_true, State.logTimeout_drds]
  rw [drds]
  refine ⟨by simp, ?_, ?_⟩
  · exact List.mem_append_left _ (List.mem_map.mpr ⟨x, hmem, by simp⟩)
  · intro hx
    rcases List.mem_append.mp hx with hx | hx
    · obtain ⟨y, _, hy⟩ := List.mem_map.mp hx
      by_cases hyx : y = x
      · rw [if_pos (by simpa using hyx)] at hy
        rw [← hy] at hans
        exact absurd hans (by simp)
      · rw [if_neg (by simpa using hyx)] at hy
        exact hyx hy
    · rw [List.mem_singleton.mp hx] at hown
      exact hown rfl

/-- Exactly the requests of the unit whose time has run out are marked (R461). -/
theorem State.waitsOut_waits (s : State) (q : Req) : (s.waitsOut q).waits = s.waits.map fun w =>
    if (w.die == q.die && w.unit == q.unit && s.expired q w.since) = true then { w with out := true } else w := by
  have log (l : List Waiting) (t : State) : (l.foldl (fun s w => s.logTimeout q w.pa) t).waits = t.waits := by
    induction l generalizing t with
    | nil => rfl
    | cons w l ih => rw [List.foldl_cons, ih, State.logTimeout_waits]
  unfold State.waitsOut
  rw [log]
  refine List.map_congr_left fun w hw => ?_
  have hout : w.out = true → { w with out := true } = w := by
    intro h; rw [← h]
  by_cases ho : w.out = true
  · simp [hout ho]
  · simp [hw, ho]

/-- A read of ERR_HEAD of a die with no unread entry changes nothing (R468). -/
theorem State.rdErrHead_nil {s : State} {d : Nat} (h : look (fun _ => []) s.errOrder d = []) : s.rdErrHead d = (0, s) := by
  rw [State.rdErrHead, h]

/-- A read of ERR_HEAD frees the oldest unread entry (R468). -/
theorem State.rdErrHead_cons {s : State} {d i : Nat} {l : List Nat} (h : look (fun _ => []) s.errOrder d = i :: l) :
    (s.rdErrHead d).2 = State.setFld { s with errOrder := put (fun _ => []) s.errOrder d l } d .ERR_STAT 0 6 0 l.length := by
  rw [State.rdErrHead, h]

/-- A register command whose access arrives has its effect there (R27). -/
theorem regCmd_arrives {q : Src} {d : Nat} {r : RegName} {i : Nat} {s u : State} (f : State → State)
    (h : s.regAccess q d r i = (true, u)) : regCmd q d r i s f = done (f u) := by
  rw [regCmd, h]

/-- Settles O44: each report is its command's own effect; what stands beside the effect in the answered state (edges, port registers, device
reads, waiting requests) no log entry and no recomputation of ERR_HEALTH changes. -/
theorem errorReports : Obligations.ErrorReports := by
  intro s hs out
  refine ⟨fun e side seq he => ?_, fun e hd he => ?_, fun e he hd => ?_, fun d => ?_, fun d unit queue entries => ?_,
    fun tag x hx he => execResponseTimeout_drd hs hx he, fun tag m hm he => ?_, fun addr p hp he => ?_, fun tag m hn hm he => ?_,
    fun c pa e hf he => ?_, fun c => ?_, fun d => ?_, ?_, s.waitsOut_waits, fun d unit pa => ?_, fun q d u hu => ⟨fun h => ?_, fun i l h => ?_⟩⟩
  · exact execScrimReplay_eq hs side seq he
  · have settled := State.keepsTraffic_settle (s.edgeSwitch e.val)
    obtain ⟨hedge, hothers, hfst, hsnd, hruns⟩ := s.edgeSwitch_spec e
    refine ⟨(s.edgeSwitch e.val).settle, execStandbySwitch_eq hs hd he, ?_, fun f hf => ?_, ?_, ?_, fun side => ?_⟩
    · rw [settled.edge, hedge]
    · rw [settled.edge, hothers f hf]
    · rw [settled.flag, hfst]
    · rw [settled.flag, hsnd]
    · rw [settled.scrim, hruns side]
  · have settled := State.keepsTraffic_settle (s.edgeFall e.val)
    obtain ⟨hedge, hothers, hdies⟩ := s.edgeFall_spec e
    refine ⟨(s.edgeFall e.val).settle, execEdgeDown_eq hs he hd, ?_, fun f hf => ?_, ?_, ?_, fun p hp => ?_⟩
    · rw [settled.edge, hedge]
    · rw [settled.edge, hothers f hf]
    · rw [settled.flag, (hdies _ (by simp)).1]
    · rw [settled.flag, (hdies _ (by simp)).1]
    · rw [settled.flag, (hdies p hp).2]
  · refine ⟨(s.portsUp d.val).settle, execScrimPortRetrainDone_eq hs d, fun side hside => ?_⟩
    rw [(State.keepsTraffic_settle _).flag, s.portsUp_flag d.val hside]
    rfl
  · intro key v
    have h := execFifoPointerMismatch_eq hs d unit queue entries
    rw [State.loseFifo_eq] at h
    exact h
  · refine (execResponseTimeout_eq hs _).trans (congrArg done ?_)
    simp only [State.timeout, hm, he, if_true]
  · refine (execResponseTimeout_eq hs _).trans (congrArg done ?_)
    simp only [State.timeout, hp, he, if_true]
  · refine (execResponseTimeout_eq hs _).trans (congrArg done ?_)
    simp only [State.timeout, State.hawkTimeout, hn, hm, he, if_true]
  · refine (execResponseTimeout_eq hs _).trans (congrArg done ?_)
    simp only [State.timeout, hf, he, if_true]
  · exact execResponseTimeout_eq hs _
  · exact execResponseTimeout_eq hs _
  · exact execResponseTimeout_eq hs _
  · exact execOrphanResponse_eq hs d unit pa
  · exact (regCmd_arrives _ hu).trans (by rw [State.rdErrHead_nil h]; rfl)
  · exact (regCmd_arrives _ hu).trans (by rw [State.rdErrHead_cons h]; rfl)

end Sys2Proof.Machine

/-! SUPPORT. A host packet's access to ordinary memory: the state at its home, the bytes read and written (R375, R376). -/

namespace Sys2Proof.Machine

open Sys2Proof

/-! ### What decides where an address lies and whether a packet arrives -/

/-- State t has the registers and the edges of s: so routes cross the same down edges, and the Trowel's working state lies at the same place. -/
structure State.SameMap (s t : State) : Prop where
  regs : t.regs = s.regs
  edges : t.edges = s.edges

theorem State.SameMap.refl (s : State) : s.SameMap s := ⟨rfl, rfl⟩

theorem State.SameMap.trans {s t u : State} (h : s.SameMap t) (k : t.SameMap u) : s.SameMap u :=
  ⟨k.regs.trans h.regs, k.edges.trans h.edges⟩

theorem State.SameMap.rspDown {s t : State} (h : s.SameMap t) (q : Req) (pa : Nat) : t.rspDown q pa = s.rspDown q pa := by
  show State.rspDown { regs := t.regs, edges := t.edges } q pa = State.rspDown { regs := s.regs, edges := s.edges } q pa
  rw [h.regs, h.edges]

theorem State.SameMap.workByte {s t : State} (h : s.SameMap t) (a : Nat) : t.workByte a = s.workByte a := by
  show State.workByte { regs := t.regs } a = State.workByte { regs := s.regs } a
  rw [h.regs]

theorem State.sameMap_pendIrq (s : State) (c : CoreId) (vec die : Nat) : s.SameMap (s.pendIrq c vec die) := by
  have pick (l : List Nat) : s.SameMap (s.choose l).2 := by
    unfold State.choose
    split <;> exact ⟨rfl, rfl⟩
  unfold State.pendIrq
  split
  · exact ⟨rfl, rfl⟩
  next p _ =>
    have hp := pick [p.die, die]
    split
    next e => rw [e] at hp; exact ⟨hp.regs, hp.edges⟩
    next e => rw [e] at hp; exact hp

theorem State.sameMap_arrive (s : State) (src dst : Nat) : s.SameMap (s.arrive src dst) := by
  unfold State.arrive
  generalize s.flight.filter (fun f => f.die == src && f.core / 4 == dst) = l
  induction l generalizing s with
  | nil => exact .refl s
  | cons f fs ih =>
    rw [List.foldl_cons]
    refine .trans ?_ (ih _)
    have out : s.SameMap { s with flight := s.flight.erase f } := ⟨rfl, rfl⟩
    dsimp only
    split
    · exact out.trans (State.sameMap_pendIrq ..)
    · exact out

/-- A request on its way changes what has been sent and which interrupts have arrived, not the map. -/
theorem State.sameMap_travel (s : State) (src dst : Nat) : s.SameMap (s.travel src dst) := by
  unfold State.travel
  split
  · exact .refl s
  · exact (s.sameMap_arrive src dst).trans ⟨rfl, rfl⟩

/-! ### A request at its home -/

/-- The state in which a request that waits for nothing stands at its home. -/
def State.reached (s : State) (q : Req) (pa : Nat) : State := (s.endWait q pa).travel q.die (s.decodePA pa).die

theorem State.sameMap_reached (s : State) (q : Req) (pa : Nat) : s.SameMap (s.reached q pa) :=
  State.SameMap.trans (t := s.endWait q pa) ⟨rfl, rfl⟩ (State.sameMap_travel ..)

theorem State.keeps_reached (s : State) (q : Req) (pa : Nat) : s.Keeps (s.reached q pa) :=
  (s.keeps_endWait q pa).trans (State.keeps_travel ..)

/-- A request of ordinary memory that passes its checks and waits for nothing reaches its home (R20, R21, R429). -/
theorem State.atHome_reached {s : State} {q : Req} {pa : Nat} (hcheck : s.homeCheck q pa = none) (hplain : (s.decodePA pa).plain = true)
    (hbusy : s.homeBusy q (s.decodePA pa) = false) : s.atHome q pa = (.ok (), s.reached q pa) := by
  simp [State.atHome, hcheck, hplain, hbusy, State.reached]

/-- An access within one line is one piece (R53). -/
theorem lines_single {a n : Nat} (h0 : 0 < n) (h : a % 64 + n ≤ 64) : lines a n = [⟨a, n⟩] := by
  have hmin : min n (64 - a % 64) = n := by omega
  simp [lines, splitAt, hmin, h0.ne']

/-- Bytes none of which is the Trowel's working state are read as they are (R288). -/
theorem State.asRead_plain {s : State} {pa : Nat} {bs : List Byte} (h : ∀ i < bs.length, s.workByte (pa + i) = false) :
    s.asRead pa bs = (bs, s) := by
  have fold (n : Nat) (hn : n ≤ bs.length) : (List.range n).foldl (fun (r : List Byte × State) i =>
      if r.2.workByte (pa + i) then let k := r.2.freeNat; (r.1 ++ [BitVec.ofNat 8 k.1], k.2) else (r.1 ++ [bs.getD i 0], r.2)) ([], s)
      = (bs.take n, s) := by
    induction n with
    | zero => rfl
    | succ n ih =>
      have hlt : n < bs.length := by omega
      rw [List.range_succ, List.foldl_append, ih (by omega), ← List.take_append_getElem hlt, ← List.getD_eq_getElem bs 0 hlt]
      simp only [List.foldl_cons, List.foldl_nil, h n hlt, Bool.false_eq_true, if_false]
  unfold State.asRead
  split
  · rfl
  · rw [fold _ le_rfl, List.take_length]

/-- A reader at the home of bytes that are not the Trowel's working state gets them as they were. -/
theorem State.asRead_reached (s : State) (q : Req) {pa n : Nat} (hwork : ∀ i < n, s.workByte (pa + i) = false) :
    (s.reached q pa).asRead pa ((s.reached q pa).bytes pa n) = (s.bytes pa n, s.reached q pa) := by
  have bytes : (s.reached q pa).bytes pa n = s.bytes pa n := by simp only [State.bytes, (s.keeps_reached q pa).1]
  rw [bytes]
  exact State.asRead_plain fun i hi => by
    rw [(s.sameMap_reached q pa).workByte]
    exact hwork i (by simpa [State.bytes] using hi)

/-- A read of ordinary memory that reaches its home, finds no poison and can be answered, gives the bytes there. -/
theorem State.plainRead_reached {s : State} {q : Req} {pa n : Nat} (hhome : s.atHome q pa = (.ok (), s.reached q pa))
    (hrsp : s.rspDown q pa = false) (hpoison : s.anyPoison pa n = false) (hwork : ∀ i < n, s.workByte (pa + i) = false) :
    s.plainRead q pa n = (.ok (s.bytes pa n), s.reached q pa) := by
  have marks : (s.reached q pa).poisonedAt = s.poisonedAt := by
    funext a
    simp only [State.poisonedAt, (s.keeps_reached q pa).2.1]
  have poison : (s.reached q pa).anyPoison pa n = false := by rw [State.anyPoison, marks]; exact hpoison
  simp [State.plainRead, hhome, (s.sameMap_reached q pa).rspDown, hrsp, poison, s.asRead_reached q hwork]

/-- A write at its home puts its bytes and changes poison marks, and nothing else (R345, R463). -/
theorem State.homeWrite_eq (s : State) (pa : Nat) (bs : List Byte) (poisoned : Bool) :
    ∃ m, s.homeWrite pa bs poisoned = State.setBytes { s with poison := m } pa bs := by
  have marks {f : State → Nat → State} (hf : ∀ t u, ∃ m, f t u = { t with poison := m }) (l : List Nat) (t : State) :
      ∃ m, l.foldl f t = { t with poison := m } := by
    induction l generalizing t with
    | nil => exact ⟨t.poison, rfl⟩
    | cons u us ih =>
      obtain ⟨m, hm⟩ := hf t u
      obtain ⟨k, hk⟩ := ih (f t u)
      exact ⟨k, by rw [List.foldl_cons, hk, hm]⟩
  have written {t : State} (h : ∃ m, t = { s with poison := m }) :
      ∃ m, t.setBytes pa bs = State.setBytes { s with poison := m } pa bs := by
    obtain ⟨m, rfl⟩ := h
    exact ⟨m, rfl⟩
  refine written (marks (fun t u => ?_) _ s)
  dsimp only
  split
  · exact ⟨t.poison, rfl⟩
  · exact ⟨_, rfl⟩

/-- A write of ordinary memory that reaches its home and can be answered puts its bytes there, and no other byte changes. -/
theorem State.plainWriteMem_reached {s : State} {q : Req} {pa : Nat} (bs : List Byte) (poisoned : Bool)
    (hhome : s.atHome q pa = (.ok (), s.reached q pa)) (hrsp : s.rspDown q pa = false) :
    ∃ u, s.plainWriteMem q pa bs poisoned = (.ok (), u) ∧ u.bytes pa bs.length = bs ∧
      ∀ a, a < pa ∨ pa + bs.length ≤ a → u.byte a = s.byte a := by
  obtain ⟨m, hm⟩ := (s.reached q pa).homeWrite_eq pa bs poisoned
  have map : s.SameMap (State.setBytes { s.reached q pa with poison := m } pa bs) := (s.sameMap_reached q pa).trans ⟨rfl, rfl⟩
  refine ⟨State.setBytes { s.reached q pa with poison := m } pa bs, ?_, State.bytes_setBytes .., fun a ha => ?_⟩
  · simp [State.plainWriteMem, hhome, hm, map.rspDown, hrsp]
  · exact (State.byte_setBytes_out _ _ _ _ ha).trans ((s.keeps_reached q pa).byte a)

/-! ### The host's accesses (R375, R376) -/

/-- Ordinary memory is HBM, a tile store or the K-die SRAM window. -/
theorem Target.plain_cases {t : Target} (h : t.plain = true) : (∃ ch pc, t = .hbm ch pc) ∨ (∃ d, t = .tile d) ∨ t = .ksram := by
  cases t with
  | hbm ch pc => exact .inl ⟨ch, pc, rfl⟩
  | tile d => exact .inr (.inl ⟨d, rfl⟩)
  | ksram => exact .inr (.inr rfl)
  | _ => cases h

/-- While the host is not confined and option loading is over, it may reach ordinary memory (R375, R434, R527). -/
theorem State.hostMem_plain {s : State} {pa : Nat} (write : Bool) (hplain : (s.decodePA pa).plain = true) (hphase : s.phase = 0)
    (hconf : s.confined = false) : s.hostMem pa write = true := by
  obtain ⟨ch, pc, h⟩ | ⟨d, h⟩ | h := Target.plain_cases hplain <;> simp [State.hostMem, h, hphase, hconf]

theorem State.hostHolds_loaded {s : State} (t : Target) (hphase : s.phase = 0) : s.hostHolds t = false := by
  simp [State.hostHolds, hphase]

/-- A device's write of ordinary memory within one line, which nothing refuses, is the write at its home (R142, R398). -/
theorem State.devWriteBlock_plain {s : State} {q : Req} {own : Own} {lim pa : Nat} {bs : List Byte} {poisoned : Bool} (h0 : 0 < bs.length)
    (h64 : pa % 64 + bs.length ≤ 64) (hplain : (s.decodePA pa).plain = true) (htime : s.timedOut q pa = none)
    (hcheck : s.homeCheck q pa = none) (hskim : s.skimProtected pa bs.length = false) :
    s.devWriteBlock q own lim pa bs poisoned = s.plainWriteMem q pa bs poisoned := by
  obtain ⟨ch, pc, h⟩ | ⟨d, h⟩ | h := Target.plain_cases hplain <;>
    simp [State.devWriteBlock, htime, hcheck, h, hskim, lines_single h0 h64]

/-- A host write of ordinary memory within one line, which nothing refuses or holds up, puts its bytes, and no other byte changes. -/
theorem State.hostWrite_plain {s : State} {pa : Nat} {data : List Byte} (h0 : 0 < data.length) (h64 : pa % 64 + data.length ≤ 64)
    (hplain : (s.decodePA pa).plain = true) (hphase : s.phase = 0) (hconf : s.confined = false) (hcheck : s.homeCheck hostReq pa = none)
    (hbusy : s.homeBusy hostReq (s.decodePA pa) = false) (htime : s.timedOut hostReq pa = none) (hrsp : s.rspDown hostReq pa = false)
    (hskim : s.skimProtected pa data.length = false) :
    ∃ u, s.hostWrite pa data = (.ok (), u) ∧ u.bytes pa data.length = data ∧
      ∀ a, a < pa ∨ pa + data.length ≤ a → u.byte a = s.byte a := by
  obtain ⟨u, hu, hbytes⟩ := State.plainWriteMem_reached data false (State.atHome_reached hcheck hplain hbusy) hrsp
  refine ⟨u, ?_, hbytes⟩
  have block := (State.devWriteBlock_plain (own := .none) (lim := 64) h0 h64 hplain htime hcheck hskim).trans hu
  have may := State.hostMem_plain true hplain hphase hconf
  obtain ⟨ch, pc, h⟩ | ⟨d, h⟩ | h := Target.plain_cases hplain <;>
    simp [State.hostWrite, h, State.hostHolds_loaded _ hphase, may, block]

/-- A host read of ordinary memory within one line, which nothing refuses or holds up, gives the bytes there and changes none. -/
theorem State.hostRead_plain {s : State} {pa n : Nat} (h0 : 0 < n) (h64 : pa % 64 + n ≤ 64)
    (hplain : (s.decodePA pa).plain = true) (hphase : s.phase = 0) (hconf : s.confined = false) (hcheck : s.homeCheck hostReq pa = none)
    (hbusy : s.homeBusy hostReq (s.decodePA pa) = false) (hrsp : s.rspDown hostReq pa = false) (hpoison : s.anyPoison pa n = false)
    (hwork : ∀ i < n, s.workByte (pa + i) = false) :
    ∃ u, s.hostRead pa n = (.ok (0, s.bytes pa n), u) ∧ ∀ a, u.byte a = s.byte a := by
  have hk := s.keeps_reached hostReq pa
  have line : s.hostLines (lines pa n) = (.ok false, s.reached hostReq pa) := by
    simp [lines_single h0 h64, State.hostLines, State.plainRead_reached (State.atHome_reached hcheck hplain hbusy) hrsp hpoison hwork]
  have read := s.asRead_reached hostReq hwork
  have may := State.hostMem_plain false hplain hphase hconf
  refine ⟨s.reached hostReq pa, ?_, hk.byte⟩
  obtain ⟨ch, pc, h⟩ | ⟨d, h⟩ | h := Target.plain_cases hplain <;>
    simp [State.hostRead, h, State.hostHolds_loaded _ hphase, may, line, read]

end Sys2Proof.Machine

/-! SUPPORT. Host packets and register writes (R27, R372–R376, R383, R384). -/

namespace Sys2Proof.Machine

open Sys2Proof

/-! ### Requests of the host (R372–R376) -/

/-- Credit returned changes no byte of memory. -/
theorem State.bytes_owe (s : State) (l : LinkId) (cls n pa k : Nat) : (s.owe l cls n).bytes pa k = s.bytes pa k := by
  simp only [State.bytes, State.owe, State.updLink, (State.keeps_setLink s l _).1]

theorem State.byte_owe (s : State) (l : LinkId) (cls n a : Nat) : (s.owe l cls n).byte a = s.byte a :=
  (State.keeps_setLink s l _).byte a

/-- The status that answers a write (R374). -/
def Acc.status : Acc Unit → Nat
  | .ok _ => 0
  | _ => 1

section Active

variable {s : State} (hs : s.stopped = false) (ha : (s.link .agd).state = 5)

include hs ha

/-- Host packets are taken while the module runs and the Agdoa link is ACTIVE (R363, R372). -/
theorem packet_taken : ¬ (s.stopped || (s.link .agd).state != 5) = true := by simp [hs, ha]

/-- A write that has been performed or refused is answered when it asks for that (R373). -/
theorem execMwr_performed {tag : BitVec 14} {addr : BitVec 48} {ackreq : Bool} {data : List Byte} {a : Acc Unit} {u : State}
    (hok : pktOk addr.toNat data.length = true) (htag : ackreq = true → s.tagUsed tag.toNat = false)
    (hw : (s.owe .agd 0 (1 + (data.length + 15) / 16)).hostWrite addr.toNat data = (a, u)) (hwait : a ≠ .wait) :
    execMwr tag addr ackreq data s
      = done (if ackreq = true then u.sendCpl tag.toNat a.status [] else u) := by
  have free : ¬ (ackreq && s.tagUsed tag.toNat) = true := by
    rw [Bool.and_eq_true]
    rintro ⟨h1, h2⟩
    exact absurd (h2.symm.trans (htag h1)) (by decide)
  rw [execMwr, if_neg (packet_taken hs ha), if_neg (by simp [hok]), if_neg free, hw]
  cases a with
  | wait => exact absurd rfl hwait
  | ok => cases ackreq <;> rfl
  | err => cases ackreq <;> rfl
  | poison => cases ackreq <;> rfl

/-- A write whose tag is in use is answered with status 4 (R374). -/
theorem execMwr_tagUsed {tag : BitVec 14} {addr : BitVec 48} {data : List Byte} (hok : pktOk addr.toNat data.length = true)
    (htag : s.tagUsed tag.toNat = true) :
    execMwr tag addr true data s = done ((s.owe .agd 0 (1 + (data.length + 15) / 16)).sendCpl tag.toNat 4 []) := by
  rw [execMwr, if_neg (packet_taken hs ha), if_neg (by simp [hok]), if_pos (by simp [htag])]

/-- A write out of form is discarded as malformed, and answered with status 3 when it asks for an answer (R372, R373). -/
theorem execMwr_malformed {tag : BitVec 14} {addr : BitVec 48} (ackreq : Bool) {data : List Byte}
    (hok : pktOk addr.toNat data.length = false) :
    let u := s.malformed .agd 0x10 (1 + (data.length + 15) / 16)
    execMwr tag addr ackreq data s = done (if ackreq = true then u.sendCpl tag.toNat 3 [] else u) := by
  rw [execMwr, if_neg (packet_taken hs ha), if_pos (by simp [hok])]

/-- A read that its home serves is answered with its status and data (R373, R374). -/
theorem execMrd_performed {tag : BitVec 14} {addr : BitVec 48} {n st : Nat} {data : List Byte} {u : State}
    (hok : pktOk addr.toNat n = true) (htag : s.tagUsed tag.toNat = false) (hroom : s.cplsOut.length < 4096)
    (hr : (s.owe .agd 0 1).hostRead addr.toNat n = (.ok (st, data), u)) :
    execMrd tag addr n s = done (u.sendCpl tag.toNat st data) := by
  rw [execMrd, if_neg (packet_taken hs ha), if_neg (by simp [hok]), if_neg (by simp [htag]), if_neg (by omega), hr]

theorem execMrd_tagUsed {tag : BitVec 14} {addr : BitVec 48} {n : Nat} (hok : pktOk addr.toNat n = true)
    (htag : s.tagUsed tag.toNat = true) : execMrd tag addr n s = done ((s.owe .agd 0 1).sendCpl tag.toNat 4 []) := by
  rw [execMrd, if_neg (packet_taken hs ha), if_neg (by simp [hok]), if_pos htag]

theorem execMrd_malformed {tag : BitVec 14} {addr : BitVec 48} {n : Nat} (hok : pktOk addr.toNat n = false) :
    execMrd tag addr n s = done ((s.malformed .agd 0x11 1).sendCpl tag.toNat 3 []) := by
  rw [execMrd, if_neg (packet_taken hs ha), if_pos (by simp [hok])]

/-! ### Completions (R374, R461, R462) -/

/-- A completion with no read outstanding under its tag is an orphan (R462). -/
theorem execCpl_none {tag : BitVec 14} (status : BitVec 4) (data : List Byte)
    (h : (s.drds.find? fun d => d.tag == tag.toNat && d.ans.isNone && !d.held) = none) :
    execCpl tag status data s = done ((s.owe .agd 1 (1 + (data.length + 15) / 16)).logSomewhere 24 0x06 0 8 ⟨24, 8⟩ false 0) := by
  have h' : ((s.owe .agd 1 (1 + (data.length + 15) / 16)).drds.find? fun d => d.tag == tag.toNat && d.ans.isNone && !d.held) = none := h
  rw [execCpl, if_neg (packet_taken hs ha)]
  simp only [h']

/-- A completion whose read was given up is an orphan, and frees its tag; any other answers its read (R374, R461). -/
theorem execCpl_some {tag : BitVec 14} (status : BitVec 4) (data : List Byte) {d : Drd}
    (h : (s.drds.find? fun d => d.tag == tag.toNat && d.ans.isNone && !d.held) = some d) :
    let o := s.owe .agd 1 (1 + (data.length + 15) / 16)
    execCpl tag status data s = if d.own = .none
      then done (State.logErr { o with drds := o.drds.erase d } 24 0x06 0 8 ⟨24, 8⟩ (some d.pa) false 0)
      else done (State.retryReads { o with drds := o.drds.map fun e => if e == d then
        { e with ans := some (if status = 0 ∧ data.length ≠ d.n then 3 else status.toNat, data) } else e }) := by
  have h' : ((s.owe .agd 1 (1 + (data.length + 15) / 16)).drds.find? fun d => d.tag == tag.toNat && d.ans.isNone && !d.held) = some d := h
  rw [execCpl, if_neg (packet_taken hs ha)]
  simp only [h', beq_iff_eq]

/-! ### MGMT and RESET (R383, R384) -/

/-- A MGMT packet of a proper length is taken in and handed to the MC (R383). -/
theorem execMgmt_taken {data : List Byte} (h5 : 5 ≤ data.length) (h256 : data.length ≤ 256) :
    execMgmt data s = done ((s.owe .agd 3 (1 + (data.length + 15) / 16)).mctpIn data) := by
  rw [execMgmt, if_neg (packet_taken hs ha), if_neg (by omega)]

theorem execMgmt_malformed {data : List Byte} (h : data.length < 5 ∨ 256 < data.length) :
    execMgmt data s = done (s.malformed .agd 0x40 (1 + (data.length + 15) / 16)) := by
  rw [execMgmt, if_neg (packet_taken hs ha), if_pos h]

/-- RESET with its key: the next flit takes the ACK, and the warm source is asserted (R384). -/
theorem execReset_key : execReset 0x5752 0 s = done ((s.updLink .agd Link.idle).assertSource 6 0) := by
  rw [execReset, if_neg (packet_taken hs ha), if_pos ⟨rfl, rfl⟩]

theorem execReset_other {a : BitVec 32} {b : Word} (h : a ≠ 0x5752 ∨ b ≠ 0) : execReset a b s = done (s.malformed .agd 0x5F 1) := by
  have key : ¬ (a.toNat = 0x5752 ∧ b = 0) := fun ⟨h1, h2⟩ => h.elim (fun h => h (BitVec.eq_of_toNat_eq h1)) (fun h => h h2)
  rw [execReset, if_neg (packet_taken hs ha), if_neg key]

end Active

/-- A packet that the MC cannot be reached with, or that is no request, is discarded (R383, R500). -/
theorem State.mctpIn_discarded {s : State} {data : List Byte} (h : s.mcReach .agd = false ∨ (data.getD 5 0).toNat < 128) :
    s.mctpIn data = s := by
  rw [State.mctpIn, if_pos]
  rw [Bool.or_eq_true, Bool.not_eq_true', decide_eq_true_iff]
  exact h

/-- A request's ID is kept, and a control or PLDM command that the MC does not serve is answered with its error (R500, R501). -/
theorem State.mctpIn_request {s : State} {data : List Byte} (hreach : s.mcReach .agd = true) (h128 : 128 ≤ (data.getD 5 0).toNat) :
    let b := fun i => (data.getD i 0).toNat
    let u : State := { s with mc := { s.mc with inst := put (fun _ => 0) s.mc.inst (bindNo .agd) (b 5 % 32) } }
    (b 4 % 128 = 0 → s.mctpIn data = if b 6 ∈ [1, 2, 3, 4, 5] then u else u.answer .agd .unsupportedCmd [b 5 % 32]) ∧
    (b 4 % 128 = 1 → s.mctpIn data = if u.pldmTypes.contains (b 6 % 64) && (pldmCommands (b 6 % 64)).contains (b 7) then u
      else u.answer .agd .unsupportedPldmCmd [b 5 % 32]) ∧
    (1 < b 4 % 128 → s.mctpIn data = u) := by
  intro b u
  have taken : ¬ (!s.mcReach .agd || decide ((data.getD 5 0).toNat < 128)) = true := by
    rw [Bool.or_eq_true, Bool.not_eq_true', decide_eq_true_iff, hreach, not_or]
    exact ⟨by decide, by omega⟩
  refine ⟨fun h => ?_, fun h => ?_, fun h => ?_⟩
  · rw [State.mctpIn, if_neg taken]
    simp only [show (data.getD 4 0).toNat % 128 = 0 from h, List.contains_iff_mem]
    rfl
  · rw [State.mctpIn, if_neg taken]
    simp only [show (data.getD 4 0).toNat % 128 = 1 from h]
    rfl
  · rw [State.mctpIn, if_neg taken]
    dsimp only
    split
    next h0 => exact absurd (h0 ▸ h) (by decide)
    next h1 => exact absurd (h1 ▸ h) (by decide)
    next => rfl

/-! ### Writes of registers (R4, R5, R27) -/

/-- A write of control space that reaches a register which takes it, and can be answered, is the register's own write (R27). -/
theorem State.ctrlWrite_ok {s t : State} {q : Src} {pa n : Nat} {v : Word} {r : RegRef} (hbusy : s.ctrlBusy (srcReq q) pa = false)
    (htarget : s.ctrlTarget (srcReq q) (q == .host) pa n = .inl r)
    (hwrite : ((s.endWait (srcReq q) pa).travel (srcReq q).die r.die).writeReg q r (if n = 4 ∧ pa % 8 = 4 then v <<< 32 else v)
      (if n = 8 then BitVec.allOnes 64 else if n = 4 ∧ pa % 8 = 4 then maskBits 63 32 else maskBits 31 0) = (true, t))
    (hrsp : t.rspDown (srcReq q) pa = false) : s.ctrlWrite q pa n v = (.ok (), t) := by
  rw [State.ctrlWrite, if_neg (by simp [hbusy]), htarget]
  simp only [hwrite, hrsp, Bool.false_eq_true, if_false]

/-- The registers without an effect of their own take the bits that their access types let a write set (R4, R5). -/
theorem State.writeReg_plain (s : State) (q : Src) (r : RegRef) (v m : Word)
    (h : r.name ∈ [RegName.ERR_ROUTE, .ERR_CFG, .TWN_ROUTE, .HWK_ROUTE, .AGD_TASYM, .AGD_OWB, .AGD_OWC]) :
    s.writeReg q r v m = (true, s.setRegW r.die r.name r.i r.w (plainWrite (regInfo r.name) (s.regW r.die r.name r.i r.w) v m)) := by
  obtain ⟨die, name, i, w⟩ := r
  simp only [List.mem_cons, List.not_mem_nil, or_false] at h
  rcases h with rfl | rfl | rfl | rfl | rfl | rfl | rfl <;> rfl

/-- Settles O47: each packet by its own case of the receiver; a write and a read of ordinary memory by what happens at its home. -/
theorem hostPackets : Obligations.HostPackets := by
  intro s hs out
  refine ⟨fun ha => ⟨fun tag addr ackreq data => ⟨fun hok htag => ⟨fun u hu => ?_, fun code u hu => ?_⟩, fun hok hreq htag => ?_,
      fun hok => ?_, ?_⟩,
    fun tag addr n => ⟨fun hok htag hroom st data u hr => ?_, fun hok htag => ?_, fun hok => ?_, ?_⟩,
    fun tag status data => ⟨fun h => ?_, fun d hd => ⟨fun hown => ?_, fun hown => ?_⟩⟩,
    fun data => ⟨fun h5 h256 => ⟨fun hno => ?_, fun hreach h128 => ?_⟩, fun hlen => ?_⟩, ?_, fun a b hab => ?_⟩,
    fun q addr data r t hup hmay hlen hbusy htarget => ?_, fun q r v hr => ?_⟩
  · exact execMwr_performed (a := .ok ()) hs ha hok htag hu (by decide)
  · exact execMwr_performed (a := .err code) hs ha hok htag hu (by simp)
  · subst hreq
    exact execMwr_tagUsed hs ha hok htag
  · exact execMwr_malformed hs ha ackreq hok
  · intro h0 h64 hplain hphase hconf hcheck hbusy htime hrsp hskim
    obtain ⟨u, hu, hbytes, hothers⟩ := State.hostWrite_plain h0 h64 hplain hphase hconf hcheck hbusy htime hrsp hskim
    exact ⟨u, hu, hbytes, fun a ha => (hothers a ha).trans (s.byte_owe ..)⟩
  · exact execMrd_performed hs ha hok htag hroom hr
  · exact execMrd_tagUsed hs ha hok htag
  · exact execMrd_malformed hs ha hok
  · intro h0 h64 hplain hphase hconf hcheck hbusy hrsp hpoison hwork
    obtain ⟨u, hu, hothers⟩ := State.hostRead_plain h0 h64 hplain hphase hconf hcheck hbusy hrsp hpoison hwork
    exact ⟨u, by rw [hu, State.bytes_owe], fun a => (hothers a).trans (s.byte_owe ..)⟩
  · exact execCpl_none hs ha status data h
  · exact (execCpl_some hs ha status data hd).trans (if_pos hown)
  · exact (execCpl_some hs ha status data hd).trans (if_neg hown)
  · exact (execMgmt_taken hs ha h5 h256).trans (congrArg done (State.mctpIn_discarded hno))
  · obtain ⟨hctl, hpldm, hother⟩ := State.mctpIn_request hreach h128
    have taken := execMgmt_taken hs ha h5 h256
    exact ⟨fun h => taken.trans (congrArg done (hctl h)), fun h => taken.trans (congrArg done (hpldm h)),
      fun h => taken.trans (congrArg done (hother h))⟩
  · exact execMgmt_malformed hs ha hlen
  · exact execReset_key hs ha
  · exact execReset_other hs ha hab
  · intro v hi hwrite hrsp
    show execRegisterWrite q addr data s = _
    rw [execRegisterWrite, if_neg (by simp [hup, hmay]), State.ctrlWrite_ok hbusy htarget hwrite hrsp]
    rfl
  · exact s.writeReg_plain q r v _ hr

end Sys2Proof.Machine

/-! SUPPORT. The frame of a core's instruction: what comes before its own work, its exception, its waiting, its end in a delay slot
(R38–R48, R66, R107). -/

namespace Sys2Proof.Machine

open Sys2Proof

/-- A core that has been changed by a function. -/
theorem State.core_updCore_self (s : State) (c : CoreId) (f : Core → Core) : (s.updCore c f).core c = f (s.core c) :=
  s.core_setCore_self c _

theorem State.core_updCore_ne (s : State) {c e : CoreId} (f : Core → Core) (h : e ≠ c) : (s.updCore c f).core e = s.core e :=
  s.core_setCore_ne _ h

/-! ### Fetched words -/

/-- An instruction that has been fetched: the words at the core's pc are its own. -/
theorem State.Fetches.words {s t : State} {c : CoreId} {i : Instr} {w : Nat × Nat} (h : s.Fetches c i t) (hw : insnWords i = some w) :
    s.FetchesWords c w t := by
  obtain ⟨v, hv, hf⟩ := h
  cases hv.symm.trans hw
  exact hf

/-! ### Before an instruction's own work (R32, R39, R48) -/

/-- An instruction passes the checks before its own work when it is no transfer in a delay slot, its encoding is legal at its core, and it ends no
active loop level or may stand there. -/
theorem Insn.early_eq_none {i : Insn} {x : Core} (hxfer : i.xfer = false ∨ x.slot = none) (hill : i.illegal x = none)
    (hend : (i.size = 4 ∧ i.noEnd = false ∧ x.slot = none) ∨ x.notLoopEnd) : i.early x = none := by
  have hslot : (i.xfer && x.slot.isSome) = false := by
    obtain h | h := hxfer <;> simp [h]
  unfold Insn.early
  simp only [hslot, hill, Bool.false_eq_true, if_false]
  obtain ⟨hsize, hno, hs⟩ | hend := hend
  · split
    · simp [hsize, hno, hs]
    · rfl
  · rw [show x.endLevel x.ip = none from hend]

/-- A control transfer in a delay slot (R39). -/
theorem Insn.early_xfer {i : Insn} {x : Core} (hxfer : i.xfer = true) (hslot : x.slot.isSome = true) :
    i.early x = some ⟨0x01, i.word, 0⟩ := by
  simp [Insn.early, hxfer, hslot]

/-- An encoding that its core may not run (R32, R63, R107). -/
theorem Insn.early_illegal {i : Insn} {x : Core} {vec : Nat} (hxfer : i.xfer = false ∨ x.slot = none) (hill : i.illegal x = some vec) :
    i.early x = some ⟨vec, i.word, 0⟩ := by
  have hslot : (i.xfer && x.slot.isSome) = false := by
    obtain h | h := hxfer <;> simp [h]
  simp [Insn.early, hslot, hill]

section Frame

variable {c : CoreId} {i : Insn} {body : State → Body} {s t u : State}

/-- What the frame comes to once the words have been fetched and no exception comes first. -/
theorem runInsn_finish (h : s.FetchesWords c (i.word, i.word2) t) (he : i.early (t.core c) = none) :
    runInsn c i body s = finish c i (t.core c) s (body (t.updCore c Core.begun)) := by
  obtain ⟨hruns, hpass, hwfi, hdone, hfetch⟩ := h
  simp only [runInsn, hruns, hpass, hwfi, hdone, hfetch, he]
  rfl

/-- An exception that comes before the instruction's own work is taken in the state that the fetch left. -/
theorem runInsn_early {e : Exc} (h : s.FetchesWords c (i.word, i.word2) t) (he : i.early (t.core c) = some e)
    (hu : t.except c i.reads e = some u) : runInsn c i body s = done u := by
  obtain ⟨hruns, hpass, hwfi, hdone, hfetch⟩ := h
  simp only [runInsn, hruns, hpass, hwfi, hdone, hfetch, he]
  simp [State.raise, hu, orWait]

/-- An exception of the instruction's own work is taken in the state its work left. -/
theorem runInsn_exc {e : Exc} {v : State} (h : s.FetchesWords c (i.word, i.word2) t) (he : i.early (t.core c) = none)
    (hb : body (t.updCore c Core.begun) = .exc e u)
    (hv : (u.updCore c fun y => { y with msh := (t.core c).msh, oldMode := none }).except c i.reads e = some v) :
    runInsn c i body s = done v := by
  rw [runInsn_finish h he, hb, finish, State.raise, hv, orWait]

/-- An instruction that cannot be performed yet. -/
theorem runInsn_wait (h : s.FetchesWords c (i.word, i.word2) t) (he : i.early (t.core c) = none)
    (hb : body (t.updCore c Core.begun) = .wait u) :
    runInsn c i body s = done (u.updCore c fun y => { y with msh := (t.core c).msh, oldMode := none }) := by
  rw [runInsn_finish h he, hb, finish]

@[simp] theorem Core.gread_begun (x : Core) (g : Greg) : x.begun.gread g = x.gread g := rfl

/-- An instruction outside a delay slot that has its effect goes on after it. -/
theorem runInsn_done (h : s.FetchesWords c (i.word, i.word2) t) (hr : t.Unhindered c) (he : i.early (t.core c) = none)
    (hb : body (t.updCore c Core.begun) = .next u) (hslot : (u.core c).slot = none) (hdue : (u.core c).stepDue = false) :
    runInsn c i body s = done (u.updCore c fun x => x.after i.size) :=
  runInsn_next h hr he hb hslot hdue

/-- A core that has begun an instruction and gives it up has only lost its mode shadow. -/
theorem State.undone_of_begun (t : State) (c : CoreId) :
    ((t.updCore c Core.begun).updCore c fun y => { y with msh := (t.core c).msh, oldMode := none }) = t.updCore c Core.undone := by
  simp [Core.begun, Core.undone]

/-- An instruction whose own work replaces its core's registers and leaves its delay slot and single step alone. -/
theorem runInsn_upd {f : Core → Core} (h : s.FetchesWords c (i.word, i.word2) t) (hr : t.Unhindered c) (he : i.early (t.core c) = none)
    (hb : body (t.updCore c Core.begun) = .next ((t.updCore c Core.begun).updCore c f))
    (hslot : (f (t.core c).begun).slot = (t.core c).slot) (hdue : (f (t.core c).begun).stepDue = (t.core c).stepDue) :
    runInsn c i body s = done (t.updCore c fun x => (f x.begun).after i.size) := by
  rw [runInsn_done (u := t.setCore c (f (t.core c).begun)) h hr he (by simpa using hb) (by simpa using hslot.trans hr.1)
    (by simpa using hdue.trans hr.2.2)]
  simp

/-- An instruction outside a delay slot, of 32 bits and legal, whose work writes one general register (R29, R43). -/
theorem runInsn_gwrite {g : Greg} (v : Core → Word) (h : s.FetchesWords c (i.word, i.word2) t) (hr : t.Unhindered c)
    (he : i.early (t.core c) = none)
    (hb : body (t.updCore c Core.begun) = .next ((t.updCore c Core.begun).setG c g (v (t.core c)))) :
    runInsn c i body s = done (t.updCore c fun x => (x.begun.gwrite g (v x)).after i.size) :=
  runInsn_upd (f := fun x => x.gwrite g (v (t.core c))) h hr he hb (Core.gwrite_slot ..) (Core.gwrite_stepDue ..)

end Frame

end Sys2Proof.Machine

/-! SUPPORT. The register arithmetic of a core: ALU, immediates, multiply and divide (R33–R35). -/

namespace Sys2Proof.Machine

open Sys2Proof

/-! ### The shared shapes -/

section Shapes

variable {c : CoreId} {i : Instr} {word : Nat} {gd ga gb : Greg} {s t : State}

/-- A 32-bit instruction of no special form, ready to run, meets no exception before its own work. -/
theorem State.Ready.early (h : s.Ready c i t) {k : Insn} (hsize : k.size = 4) (hno : k.noEnd = false) (hill : k.illegal (t.core c) = none) :
    k.early (t.core c) = none :=
  Insn.early_eq_none (.inr h.2.1) hill (.inl ⟨hsize, hno, h.2.1⟩)

theorem binary_ready (f : Word → Word → Word) (h : s.Ready c i t) (hw : insnWords i = some (word, 0)) :
    binary c word gd ga gb f s = done (t.updCore c fun x => (x.begun.gwrite gd (f (x.gread ga) (x.gread gb))).after 4) :=
  runInsn_gwrite (fun x => f (x.gread ga) (x.gread gb)) (h.1.words hw) h.2 (h.early rfl rfl rfl) (by simp)

theorem unary_ready (f : Word → Word) (h : s.Ready c i t) (hw : insnWords i = some (word, 0)) :
    unary c word gd ga f s = done (t.updCore c fun x => (x.begun.gwrite gd (f (x.gread ga))).after 4) :=
  runInsn_gwrite (fun x => f (x.gread ga)) (h.1.words hw) h.2 (h.early rfl rfl rfl) (by simp)

end Shapes

/-- Instruction mk writes gd with f of two registers, and nothing else of the module. -/
def WritesBinary (mk : CoreId → Greg → Greg → Greg → Instr) (f : Word → Word → Word) : Prop :=
  ∀ (s t : State) (c : CoreId) (gd ga gb : Greg), s.Ready c (mk c gd ga gb) t →
    exec (mk c gd ga gb) s = .next (State.settle (t.updCore c fun x => (x.begun.gwrite gd (f (x.gread ga) (x.gread gb))).after 4))

/-- Instruction mk writes gd with f of a register and its gb field, and nothing else of the module. -/
def WritesCounted (mk : CoreId → Greg → Greg → Greg → Instr) (f : Word → Nat → Word) : Prop :=
  ∀ (s t : State) (c : CoreId) (gd ga gb : Greg), s.Ready c (mk c gd ga gb) t →
    exec (mk c gd ga gb) s = .next (State.settle (t.updCore c fun x => (x.begun.gwrite gd (f (x.gread ga) gb.toNat)).after 4))

/-- Instruction mk writes gd with f of a register and its immediate, and nothing else of the module. -/
def WritesImmediate (mk : CoreId → Greg → Greg → BitVec 14 → Instr) (f : Word → BitVec 14 → Word) : Prop :=
  ∀ (s t : State) (c : CoreId) (gd ga : Greg) (imm : BitVec 14), s.Ready c (mk c gd ga imm) t →
    exec (mk c gd ga imm) s = .next (State.settle (t.updCore c fun x => (x.begun.gwrite gd (f (x.gread ga) imm)).after 4))

/-! The words of an instruction and its meaning in one of the shared shapes, as `exec` and the encoding tables give them, say what it writes. -/

section Tables

variable {mk : CoreId → Greg → Greg → Greg → Instr} {word : Greg → Greg → Greg → Nat}

theorem writesBinary {f : Word → Word → Word} (hx : ∀ c gd ga gb s, exec (mk c gd ga gb) s = binary c (word gd ga gb) gd ga gb f s)
    (hw : ∀ c gd ga gb, insnWords (mk c gd ga gb) = some (word gd ga gb, 0)) : WritesBinary mk f := by
  intro s t c gd ga gb h
  rw [hx, binary_ready f h (hw ..), done]

theorem writesCounted {f : Word → Nat → Word}
    (hx : ∀ c gd ga gb s, exec (mk c gd ga gb) s = unary c (word gd ga gb) gd ga (fun a => f a gb.toNat) s)
    (hw : ∀ c gd ga gb, insnWords (mk c gd ga gb) = some (word gd ga gb, 0)) : WritesCounted mk f := by
  intro s t c gd ga gb h
  rw [hx, unary_ready (fun a => f a gb.toNat) h (hw ..), done]

theorem writesImmediate {mk : CoreId → Greg → Greg → BitVec 14 → Instr} {word : Greg → Greg → BitVec 14 → Nat}
    {f : Word → BitVec 14 → Word} (hx : ∀ c gd ga imm s, exec (mk c gd ga imm) s = unary c (word gd ga imm) gd ga (fun a => f a imm) s)
    (hw : ∀ c gd ga imm, insnWords (mk c gd ga imm) = some (word gd ga imm, 0)) : WritesImmediate mk f := by
  intro s t c gd ga imm h
  rw [hx, unary_ready (fun a => f a imm) h (hw ..), done]

end Tables

/-! ### Results as the spec writes them -/

/-- A shift count is the low six bits of its register (R33). -/
theorem bits_count (b : Word) : bits b 5 0 = b.toNat % 64 := by simp [bits]

theorem ite_slt {α : Type} {n : Nat} (a b : BitVec n) (x y : α) : (if a.slt b then x else y) = if a.toInt < b.toInt then x else y := by
  simp [BitVec.slt]

theorem ite_ult {α : Type} {n : Nat} (a b : BitVec n) (x y : α) : (if a.ult b then x else y) = if a.toNat < b.toNat then x else y := by
  simp [BitVec.ult]

/-- ZEXTW keeps the low half of its register. -/
theorem zext_half (a : Word) : zext 32 a = a &&& 0xFFFFFFFF := by
  have mask : a.toNat &&& 4294967295 = a.toNat % 4294967296 := Nat.and_two_pow_sub_one_eq_mod a.toNat 32
  apply BitVec.eq_of_toNat_eq
  rw [BitVec.toNat_and, show (0xFFFFFFFF : Word).toNat = 4294967295 from rfl, mask]
  simp only [zext, BitVec.toNat_setWidth]
  omega

/-- A sign-extended immediate has the immediate's value. -/
theorem toInt_sx (imm : BitVec 14) : (sx imm).toInt = imm.toInt := BitVec.toInt_signExtend_of_le (by decide)

/-! ### The obligations -/

/-- Settles O4: every row of R33 and R34 is a function of two registers, or of one and its gb field, in the shared shape. -/
theorem registerArithmeticWritesResult : Obligations.RegisterArithmeticWritesResult := by
  unfold Obligations.RegisterArithmeticWritesResult
  refine ⟨fun p hp => (?_ : WritesBinary p.1 p.2), fun p hp => (?_ : WritesCounted p.1 p.2)⟩ <;> revert p <;>
    simp only [List.forall_mem_cons, List.not_mem_nil, false_imp_iff, implies_true, and_true]
  · simp only [← bits_count, ← ite_slt, ← ite_ult]
    exact ⟨
      writesBinary (fun _ _ _ _ _ => rfl) (fun _ _ _ _ => rfl),
      writesBinary (fun _ _ _ _ _ => rfl) (fun _ _ _ _ => rfl),
      writesBinary (fun _ _ _ _ _ => rfl) (fun _ _ _ _ => rfl),
      writesBinary (fun _ _ _ _ _ => rfl) (fun _ _ _ _ => rfl),
      writesBinary (fun _ _ _ _ _ => rfl) (fun _ _ _ _ => rfl),
      writesBinary (fun _ _ _ _ _ => rfl) (fun _ _ _ _ => rfl),
      writesBinary (fun _ _ _ _ _ => rfl) (fun _ _ _ _ => rfl),
      writesBinary (fun _ _ _ _ _ => rfl) (fun _ _ _ _ => rfl),
      writesBinary (fun _ _ _ _ _ => rfl) (fun _ _ _ _ => rfl),
      writesBinary (fun _ _ _ _ _ => rfl) (fun _ _ _ _ => rfl),
      writesBinary (fun _ _ _ _ _ => rfl) (fun _ _ _ _ => rfl),
      writesBinary (fun _ _ _ _ _ => rfl) (fun _ _ _ _ => rfl),
      writesBinary (fun _ _ _ _ _ => rfl) (fun _ _ _ _ => rfl),
      writesBinary (fun _ _ _ _ _ => rfl) (fun _ _ _ _ => rfl),
      writesBinary (fun _ _ _ _ _ => rfl) (fun _ _ _ _ => rfl),
      writesBinary (fun _ _ _ _ _ => rfl) (fun _ _ _ _ => rfl),
      writesBinary (fun _ _ _ _ _ => rfl) (fun _ _ _ _ => rfl),
      writesBinary (fun _ _ _ _ _ => rfl) (fun _ _ _ _ => rfl),
      writesBinary (fun _ _ _ _ _ => rfl) (fun _ _ _ _ => rfl),
      writesBinary (fun _ _ _ _ _ => rfl) (fun _ _ _ _ => rfl),
      writesBinary (fun _ _ _ _ _ => rfl) (fun _ _ _ _ => rfl),
      writesBinary (fun _ _ _ _ _ => rfl) (fun _ _ _ _ => rfl),
      writesBinary (fun _ _ _ _ _ => rfl) (fun _ _ _ _ => rfl),
      writesBinary (fun _ _ _ _ _ => rfl) (fun _ _ _ _ => rfl),
      writesBinary (fun _ _ _ _ _ => rfl) (fun _ _ _ _ => rfl),
      writesBinary (fun _ _ _ _ _ => rfl) (fun _ _ _ _ => rfl)⟩
  · simp only [← zext_half]
    exact ⟨
      writesCounted (fun _ _ _ _ _ => rfl) (fun _ _ _ _ => rfl),
      writesCounted (fun _ _ _ _ _ => rfl) (fun _ _ _ _ => rfl),
      writesCounted (fun _ _ _ _ _ => rfl) (fun _ _ _ _ => rfl),
      writesCounted (fun _ _ _ _ _ => rfl) (fun _ _ _ _ => rfl),
      writesCounted (fun _ _ _ _ _ => rfl) (fun _ _ _ _ => rfl),
      writesCounted (fun _ _ _ _ _ => rfl) (fun _ _ _ _ => rfl),
      writesCounted (fun _ _ _ _ _ => rfl) (fun _ _ _ _ => rfl),
      writesCounted (fun _ _ _ _ _ => rfl) (fun _ _ _ _ => rfl),
      writesCounted (fun _ _ _ _ _ => rfl) (fun _ _ _ _ => rfl),
      writesCounted (fun _ _ _ _ _ => rfl) (fun _ _ _ _ => rfl),
      writesCounted (fun _ _ _ _ _ => rfl) (fun _ _ _ _ => rfl),
      writesCounted (fun _ _ _ _ _ => rfl) (fun _ _ _ _ => rfl)⟩

/-- Settles O5: every row of R35 is a function of a register and the immediate in the shared shape; LUI reads no register. -/
theorem immediateWritesResult : Obligations.ImmediateWritesResult := by
  unfold Obligations.ImmediateWritesResult
  refine ⟨fun p hp => (?_ : WritesImmediate p.1 p.2), ?_⟩
  · revert p
    simp only [List.forall_mem_cons, List.not_mem_nil, false_imp_iff, implies_true, and_true]
    simp only [← toInt_sx, ← ite_slt, ← ite_ult]
    exact ⟨
      writesImmediate (fun _ _ _ _ _ => rfl) (fun _ _ _ _ => rfl),
      writesImmediate (fun _ _ _ _ _ => rfl) (fun _ _ _ _ => rfl),
      writesImmediate (fun _ _ _ _ _ => rfl) (fun _ _ _ _ => rfl),
      writesImmediate (fun _ _ _ _ _ => rfl) (fun _ _ _ _ => rfl),
      writesImmediate (fun _ _ _ _ _ => rfl) (fun _ _ _ _ => rfl),
      writesImmediate (fun _ _ _ _ _ => rfl) (fun _ _ _ _ => rfl)⟩
  · intro s t c gd imm h
    show execLui c gd imm s = done _
    exact runInsn_gwrite (fun _ => sx imm <<< 14) (h.1.words rfl) h.2 (h.early rfl rfl rfl) rfl

end Sys2Proof.Machine

/-! SUPPORT. What an instruction leaves of its core and of the module: retirement, writes of general registers, changes of caches
(R29, R41, R43, R47). -/

namespace Sys2Proof.Machine

open Sys2Proof

/-! ### Retirement -/

/-- The loop-end step changes the loop counts alone (R47). -/
theorem Core.loopEnd_eq (x : Core) (p next : Word) (l : List Nat) : ∃ m, (x.loopEnd p next l).1 = { x with lc := m } := by
  induction l generalizing x with
  | nil => exact ⟨x.lc, rfl⟩
  | cons n ns ih =>
    unfold Core.loopEnd
    split
    · exact ih x
    · dsimp only
      split
      · obtain ⟨m, hm⟩ := ih { x with lc := put (fun _ => 0) x.lc n (x.lcOf n - 1) }
        exact ⟨m, hm⟩
      · exact ⟨_, rfl⟩

/-- Where no level of the list ends, the loop-end step does nothing (R47). -/
theorem Core.loopEnd_none {x : Core} {p : Word} (next : Word) {l : List Nat} (h : ∀ n ∈ l, x.lcOf n = 0 ∨ x.leOf n ≠ p) :
    x.loopEnd p next l = (x, next) := by
  induction l with
  | nil => rfl
  | cons n ns ih =>
    rw [Core.loopEnd, if_pos (h n List.mem_cons_self)]
    exact ih fun k hk => h k (List.mem_cons_of_mem _ hk)

/-- Going on after an instruction changes the pc and the loop counts alone. -/
theorem Core.advance_eq (x : Core) (next : Word) : ∃ m p, x.advance next = { x with lc := m, ip := p } := by
  unfold Core.advance
  split
  · obtain ⟨m, hm⟩ := x.loopEnd_eq x.ip next [2, 1, 0]
    exact ⟨m, (x.loopEnd x.ip next [2, 1, 0]).2, by dsimp only; rw [hm]⟩
  · exact ⟨x.lc, next, rfl⟩

/-- Where no active level ends, execution goes on at the next address, and no count changes (R47, R48). -/
theorem Core.advance_of_notLoopEnd {x : Core} (h : x.notLoopEnd) (next : Word) : x.advance next = { x with ip := next } := by
  unfold Core.advance
  split
  next hlp =>
    have none : x.loopEnd x.ip next [2, 1, 0] = (x, next) := Core.loopEnd_none next fun n hn => by
      have hend : [2, 1, 0].find? (fun n => x.lcOf n != 0 && x.leOf n == x.ip) = none := by
        simpa only [Core.notLoopEnd, Core.endLevel, hlp, if_true] using h
      have := List.find?_eq_none.mp hend n hn
      simp only [Bool.and_eq_true, bne_iff_ne, beq_iff_eq, not_and] at this
      by_cases h0 : x.lcOf n = 0
      · exact .inl h0
      · exact .inr (this h0)
    rw [none]
  · rfl

/-- Whether an active level ends at the pc is a matter of STATUS, the loop registers and the pc. -/
theorem Core.endLevel_congr {x y : Core} (hst : y.status = x.status) (hle : y.le = x.le) (hlc : y.lc = x.lc) (hip : y.ip = x.ip) :
    y.endLevel y.ip = x.endLevel x.ip := by
  show Core.endLevel { status := y.status, le := y.le, lc := y.lc } y.ip = Core.endLevel { status := x.status, le := x.le, lc := x.lc } x.ip
  rw [hst, hle, hlc, hip]

/-! ### The registers an instruction leaves alone -/

/-- Caches and pending interrupts are none of a core's registers. -/
theorem Core.SameBut.congr {x x' y y' : Core} {gs : List Greg} (h : x.SameBut y gs) (hx : x'.arch = x.arch) (hy : y'.arch = y.arch) :
    x'.SameBut y' gs := by
  have arch : x.arch.SameBut y.arch gs := h
  rw [← hx, ← hy] at arch
  exact arch

/-- Beginning an instruction changes none of them. -/
theorem Core.SameBut.of_begun {x y : Core} {gs : List Greg} (h : x.begun.SameBut y gs) : x.SameBut y gs := h

/-- Retirement changes none of the registers, the loop counts aside where a level ends (R47). -/
theorem Core.SameBut.after {x y : Core} {gs : List Greg} (h : x.SameBut y gs) (hip : y.ip = x.ip) (n : Nat) : x.SameBut (y.after n) gs := by
  obtain ⟨hraw, hst, hsg, hvreg, hmreg, hfp, hvl, hvt, hepc, hes, hex, hea, hhd, hgt, hsgt, hptb, htc, hts, hac, hls, hle, hlc⟩ := h
  obtain ⟨m, p, hafter⟩ :=
    Core.advance_eq { y.ageShadows with entered := false, wfi := false, oldMode := none } (y.ip + BitVec.ofNat 64 n)
  have counts (hend : x.endLevel x.ip = none) : (y.after n).lc = x.lc := by
    have hy : Core.notLoopEnd { y.ageShadows with entered := false, wfi := false, oldMode := none } :=
      (Core.endLevel_congr hst hle (hlc hend) hip).trans hend
    rw [Core.after, Core.advance_of_notLoopEnd hy]
    exact hlc hend
  have hm : (y.after n).lc = m := by rw [Core.after, hafter]
  rw [hm] at counts
  rw [Core.after, hafter]
  exact ⟨hraw, hst, hsg, hvreg, hmreg, hfp, hvl, hvt, hepc, hes, hex, hea, hhd, hgt, hsgt, hptb, htc, hts, hac, hls, hle, counts⟩

/-- A core whose general registers alone may have changed, among its registers. -/
theorem Core.sameBut_of_gpr {x y : Core} {gs : List Greg} {gpr : Sparse Word} {lsh : List Shadow} (hy : y = { x with gpr := gpr, lsh := lsh })
    (hraw : ∀ g, g ∉ gs → y.raw g = x.raw g) : x.SameBut y gs := by
  subst hy
  exact ⟨hraw, rfl, rfl, rfl, rfl, rfl, rfl, rfl, rfl, rfl, rfl, rfl, rfl, rfl, rfl, rfl, rfl, rfl, rfl, rfl, rfl, fun _ => rfl⟩

/-- Another register of a core whose register g has been written holds what it held. -/
theorem raw_put_ne {x y : Core} {g k : Greg} {v : Word} (hy : y.gpr = put (fun _ => 0) x.gpr g.toNat v) (h : k ≠ g) :
    y.raw k = x.raw k := by
  have hn : k.toNat ≠ g.toNat := fun e => h (BitVec.eq_of_toNat_eq e)
  simp only [Core.raw, hy, look_put_ne _ _ _ _ hn]

/-- A write of a general register changes that one alone (R29). -/
theorem Core.sameBut_gwrite (x : Core) (g : Greg) (v : Word) : x.SameBut (x.gwrite g v) [g] := by
  by_cases h : g = 0
  · rw [h, Core.gwrite_zero]
    exact Core.sameBut_of_gpr (gpr := x.gpr) (lsh := x.lsh) rfl fun _ _ => rfl
  · have eq : x.gwrite g v = { x with gpr := put (fun _ => 0) x.gpr g.toNat v, lsh := x.lsh.filter fun h => h.reg != g } := if_neg h
    exact Core.sameBut_of_gpr eq fun k hk => raw_put_ne (congrArg Core.gpr eq) fun e => hk (List.mem_singleton.mpr e)

/-- So does the write of a scalar load, which opens a shadow (R41, R42). -/
theorem Core.sameBut_loadWrite (x : Core) (g : Greg) (v old : Word) : x.SameBut (x.loadWrite g v old) [g] := by
  by_cases h : g = 0
  · rw [h]
    exact Core.sameBut_of_gpr (gpr := x.gpr) (lsh := x.lsh) rfl fun _ _ => rfl
  · have eq : x.loadWrite g v old = { x with
        gpr := put (fun _ => 0) x.gpr g.toNat v, lsh := { reg := g, old, was := x.raw g, left := 3, ip := x.ip, lc := x.lc } :: x.lsh } :=
      if_neg h
    exact Core.sameBut_of_gpr eq fun k hk => raw_put_ne (congrArg Core.gpr eq) fun e => hk (List.mem_singleton.mpr e)

theorem Core.gwrite_ip (x : Core) (g : Greg) (v : Word) : (x.gwrite g v).ip = x.ip := by
  unfold Core.gwrite
  split <;> rfl

theorem Core.loadWrite_ip (x : Core) (g : Greg) (v old : Word) : (x.loadWrite g v old).ip = x.ip := by
  unfold Core.loadWrite
  split <;> rfl

/-- A general register holds what was last written, g0 zero (R29). -/
theorem Core.raw_gwrite_self (x : Core) (g : Greg) (v : Word) : (x.gwrite g v).raw g = if g = 0 then 0 else v := by
  by_cases h : g = 0
  · simp [h, Core.raw]
  · rw [Core.gwrite, if_neg h, Core.raw, if_neg h, if_neg h]
    exact look_put_self ..

/-- Retirement writes no general register. -/
theorem Core.raw_after (x : Core) (n : Nat) (g : Greg) : (x.after n).raw g = x.raw g := by
  obtain ⟨m, p, hafter⟩ :=
    Core.advance_eq { x.ageShadows with entered := false, wfi := false, oldMode := none } (x.ip + BitVec.ofNat 64 n)
  rw [Core.after, hafter]
  rfl

/-! ### What of the module an instruction leaves alone -/

theorem State.Keeps.poison {s t : State} (h : s.Keeps t) : t.poison = s.poison := h.2.1

theorem State.Keeps.engines {s t : State} (h : s.Keeps t) : t.engines = s.engines := h.2.2.1

theorem State.Keeps.gread {s t : State} (h : s.Keeps t) (c : CoreId) (g : Greg) : (t.core c).gread g = (s.core c).gread g :=
  (congrArg (Core.gread · g) (h.cores c) : (t.core c).arch.gread g = (s.core c).arch.gread g)

theorem State.Keeps.raw {s t : State} (h : s.Keeps t) (c : CoreId) (g : Greg) : (t.core c).raw g = (s.core c).raw g :=
  (congrArg (Core.raw · g) (h.cores c) : (t.core c).arch.raw g = (s.core c).arch.raw g)

theorem State.Keeps.ip {s t : State} (h : s.Keeps t) (c : CoreId) : (t.core c).ip = (s.core c).ip :=
  (congrArg Core.ip (h.cores c) : (t.core c).arch.ip = (s.core c).arch.ip)

theorem Core.SameBut.refl (x : Core) (gs : List Greg) : x.SameBut x gs :=
  Core.sameBut_of_gpr (gpr := x.gpr) (lsh := x.lsh) rfl fun _ _ => rfl

theorem Core.SameBut.trans {x y z : Core} {gs : List Greg} (h : x.SameBut y gs) (hip : y.ip = x.ip) (k : y.SameBut z gs) : x.SameBut z gs := by
  obtain ⟨hraw, hst, hsg, hvreg, hmreg, hfp, hvl, hvt, hepc, hes, hex, hea, hhd, hgt, hsgt, hptb, htc, hts, hac, hls, hle, hlc⟩ := h
  obtain ⟨kraw, kst, ksg, kvreg, kmreg, kfp, kvl, kvt, kepc, kes, kex, kea, khd, kgt, ksgt, kptb, ktc, kts, kac, kls, kle, klc⟩ := k
  exact ⟨fun g hg => (kraw g hg).trans (hraw g hg), kst.trans hst, ksg.trans hsg, kvreg.trans hvreg, kmreg.trans hmreg, kfp.trans hfp,
    kvl.trans hvl, kvt.trans hvt, kepc.trans hepc, kes.trans hes, kex.trans hex, kea.trans hea, khd.trans hhd, kgt.trans hgt,
    ksgt.trans hsgt, kptb.trans hptb, ktc.trans htc, kts.trans hts, kac.trans hac, kls.trans hls, kle.trans hle, fun hend =>
      (klc ((Core.endLevel_congr hst hle (hlc hend) hip).trans hend)).trans (hlc hend)⟩

section LoadKeeps

variable {s t u : State} {c : CoreId} {g : Greg}

/-- What changes caches alone leaves everything that a load leaves. -/
theorem State.Keeps.loadKeeps (h : s.Keeps t) (c : CoreId) (g : Greg) : t.LoadKeeps s c g :=
  ⟨h.byte, h.poison, h.engines, fun e _ => h.cores e, (Core.SameBut.refl _ _).congr rfl (h.cores c)⟩

theorem State.LoadKeeps.keeps (h : t.LoadKeeps s c g) (k : t.Keeps u) : u.LoadKeeps s c g := by
  obtain ⟨hbyte, hpoison, hengines, hothers, hsame⟩ := h
  exact ⟨fun a => (k.byte a).trans (hbyte a), k.poison.trans hpoison, k.engines.trans hengines, fun e he => (k.cores e).trans (hothers e he),
    hsame.congr rfl (k.cores c)⟩

/-- The core's own change of one general register. -/
theorem State.LoadKeeps.updCore {f : Core → Core} (h : t.LoadKeeps s c g) (hip : (t.core c).ip = (s.core c).ip)
    (hf : (t.core c).SameBut (f (t.core c)) [g]) : (t.updCore c f).LoadKeeps s c g := by
  obtain ⟨hbyte, hpoison, hengines, hothers, hsame⟩ := h
  refine ⟨hbyte, hpoison, hengines, fun e he => ?_, ?_⟩
  · rw [State.core_updCore_ne _ _ he, hothers e he]
  · rw [State.core_updCore_self]
    exact hsame.trans hip hf

end LoadKeeps

/-! ### The obligation -/

/-- An instruction that writes gd with f of two registers leaves alone what R29 and R43 say. -/
theorem WritesBinary.frame {mk : CoreId → Greg → Greg → Greg → Instr} {f : Word → Word → Word} (hmk : WritesBinary mk f) {s t : State}
    {c : CoreId} {gd ga gb : Greg} (h : s.Ready c (mk c gd ga gb) t) :
    ∃ u, exec (mk c gd ga gb) s = .next u ∧ u.LoadKeeps s c gd ∧
      (u.core c).raw gd = if gd = 0 then 0 else f ((s.core c).gread ga) ((s.core c).gread gb) := by
  have hk := h.1.keeps
  refine ⟨_, hmk s t c gd ga gb h, .keeps (.updCore (hk.loadKeeps c gd) (hk.ip c) ?_) (State.keeps_settle _), ?_⟩
  · have written := ((t.core c).begun.sameBut_gwrite gd (f ((t.core c).gread ga) ((t.core c).gread gb))).after (Core.gwrite_ip ..) 4
    exact written.of_begun
  · rw [(State.keeps_settle _).raw, State.core_updCore_self, Core.raw_after, Core.raw_gwrite_self, hk.gread, hk.gread]

/-- Settles O6: each of the six writes gd with a function of two registers (`writesBinary`), and so leaves everything else alone. -/
theorem binaryFrame : Obligations.BinaryFrame := by
  have claim {mk : CoreId → Greg → Greg → Greg → Instr} {f : Word → Word → Word} (hmk : WritesBinary mk f) (s t : State) (c : CoreId)
      (gd ga gb : Greg) (h : s.Ready c (mk c gd ga gb) t) :
      ∃ u, exec (mk c gd ga gb) s = .next u ∧ (∀ a, u.byte a = s.byte a) ∧ u.poison = s.poison ∧ u.engines = s.engines
        ∧ (∀ e, e ≠ c → (u.core e).arch = (s.core e).arch) ∧ (s.core c).SameBut (u.core c) [gd]
        ∧ (u.core c).raw gd = (if gd = 0 then 0 else f ((s.core c).gread ga) ((s.core c).gread gb)) := by
    obtain ⟨u, hu, ⟨hbyte, hpoison, hengines, hothers, hsame⟩, hgd⟩ := hmk.frame h
    exact ⟨u, hu, hbyte, hpoison, hengines, hothers, hsame, hgd⟩
  unfold Obligations.BinaryFrame
  intro p hp
  refine claim (mk := p.1) (f := p.2) ?_
  revert p
  simp only [List.forall_mem_cons, List.not_mem_nil, false_imp_iff, implies_true, and_true]
  exact ⟨
    writesBinary (fun _ _ _ _ _ => rfl) (fun _ _ _ _ => rfl),
    writesBinary (fun _ _ _ _ _ => rfl) (fun _ _ _ _ => rfl),
    writesBinary (fun _ _ _ _ _ => rfl) (fun _ _ _ _ => rfl),
    writesBinary (fun _ _ _ _ _ => rfl) (fun _ _ _ _ => rfl),
    writesBinary (fun _ _ _ _ _ => rfl) (fun _ _ _ _ => rfl),
    writesBinary (fun _ _ _ _ _ => rfl) (fun _ _ _ _ => rfl)⟩

end Sys2Proof.Machine

/-! SUPPORT. Scalar floating point: the result delivered, or the trap taken (R36, R192, R193). -/

namespace Sys2Proof.Machine

open Sys2Proof

/-- Instruction mk on FPFLAGS' mode and saturation and on three registers: a result f whose flags trap nothing goes to gd, its flags to FPFLAGS;
one with an enabled flag takes vector 0x0C. -/
def FpDelivers (mk : CoreId → Greg → Greg → Greg → Bool → Instr) (reads : Greg → Greg → Greg → List Greg)
    (f : Bool → RMode → Bool → Word → Word → Word → Word × FFlags) : Prop :=
  ∀ (s t : State) (c : CoreId) (gd ga gb : Greg) (dbl : Bool), s.Ready c (mk c gd ga gb dbl) t →
    let x := t.core c
    let r := f dbl (fpMode x.fpflags) (fpSat x.fpflags) (x.gread gd) (x.gread ga) (x.gread gb)
    (r.2 &&& fpTraps x.fpflags = 0 → exec (mk c gd ga gb dbl) s = .next (State.settle (t.updCore c fun y =>
      Core.after { y.begun.gwrite gd r.1 with fpflags := x.fpflags ||| r.2.setWidth 64 } 4))) ∧
    ∀ u : State, r.2 &&& fpTraps x.fpflags ≠ 0 →
      (t.updCore c Core.undone).except c (reads gd ga gb) ⟨0x0C, (r.2 &&& fpTraps x.fpflags).toNat + 2 ^ 5 * r.2.toNat, 0⟩ = some u →
      exec (mk c gd ga gb dbl) s = .next u.settle

section Results

variable {c : CoreId} {gd : Greg} {r : Word × FFlags} {s : State}

/-- A result that traps nothing is delivered, and its flags accrue (R192). -/
theorem fpResult_delivered (h : r.2 &&& fpTraps (s.core c).fpflags = 0) :
    fpResult c gd r s = .next (s.updCore c fun x => { x.gwrite gd r.1 with fpflags := (s.core c).fpflags ||| r.2.setWidth 64 }) := by
  simp [fpResult, h, fpAccrue]

/-- A result with an enabled flag traps (R193). -/
theorem fpResult_trap (h : r.2 &&& fpTraps (s.core c).fpflags ≠ 0) :
    fpResult c gd r s = .exc ⟨0x0C, (r.2 &&& fpTraps (s.core c).fpflags).toNat + 2 ^ 5 * r.2.toNat, 0⟩ s := by
  rw [fpResult, if_pos h]
  simp [fpInfo, b2n]

end Results

/-- The words of a floating-point instruction, its frame and its result say what it delivers. -/
theorem fpDelivers {mk : CoreId → Greg → Greg → Greg → Bool → Instr} {reads : Greg → Greg → Greg → List Greg}
    {f : Bool → RMode → Bool → Word → Word → Word → Word × FFlags} {fn : Nat}
    (hx : ∀ c gd ga gb dbl s, exec (mk c gd ga gb dbl) s = fpInsn c fn dbl gd ga gb (reads gd ga gb)
      (fun s => f dbl (s.mode c) (s.sat c) (s.greg c gd) (s.greg c ga) (s.greg c gb)) s)
    (hw : ∀ c gd ga gb dbl, insnWords (mk c gd ga gb dbl) = some (wordA 0x0A gd ga gb (fn + 0x80 * b2n dbl), 0)) :
    FpDelivers mk reads f := by
  intro s t c gd ga gb dbl h x r
  have words := h.1.words (hw c gd ga gb dbl)
  have hx := hx c gd ga gb dbl s
  have flags : ((t.updCore c Core.begun).core c).fpflags = x.fpflags := by
    rw [State.core_updCore_self]
    rfl
  have result : f dbl ((t.updCore c Core.begun).mode c) ((t.updCore c Core.begun).sat c) ((t.updCore c Core.begun).greg c gd)
      ((t.updCore c Core.begun).greg c ga) ((t.updCore c Core.begun).greg c gb) = r := by
    simp only [State.mode, State.sat, State.greg, flags]
    simp only [State.core_updCore_self, Core.gread_begun]
    rfl
  constructor
  · intro quiet
    rw [hx, fpInsn, runInsn_upd (f := fun y => { y.gwrite gd r.1 with fpflags := x.fpflags ||| r.2.setWidth 64 }) words h.2
      (h.early rfl rfl rfl) ?_ (Core.gwrite_slot ..) (Core.gwrite_stepDue ..), done]
    rw [result, fpResult_delivered (by rw [flags]; exact quiet), flags]
  · intro u trap hu
    rw [hx, fpInsn, runInsn_exc words (h.early rfl rfl rfl) (u := t.updCore c Core.begun) ?_
      (by rw [State.undone_of_begun]; exact hu), done]
    rw [result, fpResult_trap (by rw [flags]; exact trap), flags]

/-- Settles O7: every row of R36 delivers its result in the shared shape. -/
theorem fpWritesResult : Obligations.FpWritesResult := by
  unfold Obligations.FpWritesResult
  refine fun p hp => (?_ : FpDelivers p.1 p.2.1 p.2.2)
  revert p
  simp only [List.forall_mem_cons, List.not_mem_nil, false_imp_iff, implies_true, and_true]
  exact ⟨
    fpDelivers (fun _ _ _ _ _ _ => rfl) (fun _ _ _ _ _ => rfl),
    fpDelivers (fun _ _ _ _ _ _ => rfl) (fun _ _ _ _ _ => rfl),
    fpDelivers (fun _ _ _ _ _ _ => rfl) (fun _ _ _ _ _ => rfl),
    fpDelivers (fun _ _ _ _ _ _ => rfl) (fun _ _ _ _ _ => rfl),
    fpDelivers (fun _ _ _ _ _ _ => rfl) (fun _ _ _ _ _ => rfl),
    fpDelivers (fun _ _ _ _ _ _ => rfl) (fun _ _ _ _ _ => rfl),
    fpDelivers (fun _ _ _ _ _ _ => rfl) (fun _ _ _ _ _ => rfl),
    fpDelivers (fun _ _ _ _ _ _ => rfl) (fun _ _ _ _ _ => rfl),
    fpDelivers (fun _ _ _ _ _ _ => rfl) (fun _ _ _ _ _ => rfl),
    fpDelivers (fun _ _ _ _ _ _ => rfl) (fun _ _ _ _ _ => rfl),
    fpDelivers (fun _ _ _ _ _ _ => rfl) (fun _ _ _ _ _ => rfl),
    fpDelivers (fun _ _ _ _ _ _ => rfl) (fun _ _ _ _ _ => rfl),
    fpDelivers (fun _ _ _ _ _ _ => rfl) (fun _ _ _ _ _ => rfl),
    fpDelivers (fun _ _ _ _ _ _ => rfl) (fun _ _ _ _ _ => rfl)⟩

end Sys2Proof.Machine

/-! SUPPORT. Scalar loads: the load's write under its shadow, and what a read of plain memory gives (R21, R41, R42, R52, R99, R123). -/

namespace Sys2Proof.Machine

open Sys2Proof

/-! ### The load's write -/

/-- A load's write keeps one of two values for its shadow; which one may take a free bit (R43, R73). -/
theorem State.setGLoad_eq (s : State) (c : CoreId) (g : Greg) (v : Word) :
    ∃ w old, s.Keeps w ∧ s.setGLoad c g v = w.updCore c fun x => x.loadWrite g v old := by
  unfold State.setGLoad
  extract_lets x first
  split
  · have same : first.2.core c = x := rfl
    refine ⟨first.2, if first.1 then x.gread g else x.raw g, s.keeps_freeBool, ?_⟩
    rw [State.updCore, State.updCore, same]
  · refine ⟨s, x.raw g, .refl s, rfl⟩

section Load

variable {c : CoreId} {i : Instr} {word n : Nat} {reads : List Greg} {gt : Greg} {sg : Sreg} {signed : Bool} {ill : Core → Option Nat}
  {ea : Core → Word} {s t u : State} {bs : List Byte}

/-- A scalar load whose access succeeds writes its register under a shadow and goes on. -/
theorem load_ready (h : s.Ready c i t) (hw : insnWords i = some (word, 0)) (hill : ill (t.core c) = none)
    (hread : (t.updCore c Core.begun).readData c sg .read (ea (t.core c).begun) n = (.ok bs, u)) :
    load c word reads gt sg n signed ill ea s = done ((u.setGLoad c gt (loadValue signed bs)).updCore c fun x => x.after 4) := by
  have hk : (t.updCore c Core.begun).Keeps u := .of hread (State.keeps_readData ..)
  have own : (t.updCore c Core.begun).core c = (t.core c).begun := by rw [State.core_updCore_self]
  obtain ⟨w, old, hkw, heq⟩ := u.setGLoad_eq c gt (loadValue signed bs)
  have hslot : ((u.setGLoad c gt (loadValue signed bs)).core c).slot = none := by
    rw [heq, State.core_updCore_self, Core.loadWrite_slot, hkw.slot, hk.slot, own]
    exact h.2.1
  have hdue : ((u.setGLoad c gt (loadValue signed bs)).core c).stepDue = false := by
    rw [heq, State.core_updCore_self, Core.loadWrite_stepDue, hkw.stepDue, hk.stepDue, own]
    exact h.2.2.2
  refine runInsn_done (h.1.words hw) h.2 (h.early rfl rfl hill) ?_ hslot hdue
  show (match (t.updCore c Core.begun).readData c sg .read (ea ((t.updCore c Core.begun).core c)) n with
    | (.wait, s) => Body.wait (s.issue c (s.loadOut c))
    | r => onRes r fun bs s => .next (s.setGLoad c gt (loadValue signed bs))) = _
  rw [own, hread]
  rfl

/-- The state it leaves differs in that register alone. -/
theorem load_keeps (h : s.Ready c i t) {o : Word} (hread : (t.updCore c Core.begun).readData c sg .read o n = (.ok bs, u)) (v : Word) :
    (State.settle ((u.setGLoad c gt v).updCore c fun x => x.after 4)).LoadKeeps s c gt := by
  have hst := h.1.keeps
  have hk : (t.updCore c Core.begun).Keeps u := .of hread (State.keeps_readData ..)
  obtain ⟨w, old, hkw, heq⟩ := u.setGLoad_eq c gt v
  have begun : (t.updCore c Core.begun).LoadKeeps s c gt := .updCore (hst.loadKeeps c gt) (hst.ip c) (Core.SameBut.refl _ _).of_begun
  have hip : (w.core c).ip = (s.core c).ip := by
    rw [hkw.ip, hk.ip, State.core_updCore_self]
    exact hst.ip c
  have read : w.LoadKeeps s c gt := (begun.keeps hk).keeps hkw
  have write := ((w.core c).sameBut_loadWrite gt v old).after (Core.loadWrite_ip ..) 4
  have final : (u.setGLoad c gt v).updCore c (fun x => x.after 4) = w.updCore c fun x => (x.loadWrite gt v old).after 4 := by
    simp [heq]
  rw [final]
  exact (read.updCore hip write).keeps (State.keeps_settle _)

end Load

/-! ### An access within one line of plain memory -/

section Line

variable {s : State} {c : CoreId} {sg : Sreg} {k : AKind} {o : Word} {n : Nat}

/-- A data access that the segment's type, ring and limit allow passes R99. -/
theorem segCheck_eq_none {g : SegReg} {ring : Nat} (sg : Nat) (hk : k ≠ .fetch) (hnull : g.null = false) (hallows : g.allows k = true)
    (hring : ring ≤ g.ring) (hlimit : o.toNat + n - 1 ≤ g.limit) : segCheck g sg k ring o n = none := by
  simp [segCheck, hnull, hallows, hk, Nat.not_lt.mpr hring, Nat.not_lt.mpr hlimit]

/-- With translation off, an access within one line has the linear address as its one part (R53, R123). -/
theorem State.dataAccess_line (hptb : bit (s.core c).ptb 0 = false)
    (hseg : segCheck ((s.core c).sgNow sg.toNat) sg.toNat k (s.core c).ring o n = none) (h0 : 0 < n)
    (hline : (((s.core c).sgNow sg.toNat).base + o.toNat) % 64 + n ≤ 64) (hpa : ((s.core c).sgNow sg.toNat).base + o.toNat + n ≤ 2 ^ 48) :
    s.dataAccess c sg k o n = (.ok [⟨((s.core c).sgNow sg.toNat).base + o.toNat, n⟩], s) := by
  have hlt : ((s.core c).sgNow sg.toNat).base + o.toNat < 2 ^ 48 := by omega
  simp only [State.dataAccess, State.checkAccess, hseg, lines_single h0 hline, State.xlateParts, State.xlateCore, hptb, Bool.not_false,
    if_true, if_pos hlt]

/-- Bytes outside the stream entries hold no working state of the Trowel (R288). -/
theorem State.workByte_eq_false {pa : Nat} (h : pa + n ≤ ksramBase ∨ ksramBase + 64 * s.fld 24 .STM_CFG 0 18 0 ≤ pa) :
    ∀ i < n, s.workByte (pa + i) = false := by
  intro i hi
  simp only [State.workByte, decide_eq_false_iff_not]
  generalize s.fld 24 .STM_CFG 0 18 0 = entries at h ⊢
  omega

/-- A load's part in ordinary memory that has not timed out meets no error before it is performed. -/
theorem State.routeFail_line {p : Piece} (hplain : (s.decodePA p.pa).plain = true) (htime : s.timedOut (reqOf c) p.pa = none) :
    s.routeFail c false [p] = none := by
  obtain ⟨ch, pc, h⟩ | ⟨d, h⟩ | h := Target.plain_cases hplain <;> simp [State.routeFail, State.loadFail, htime, h]

/-- A part in ordinary memory asks nothing of the host (R374). -/
theorem State.devAsk_line {p : Piece} (hplain : (s.decodePA p.pa).plain = true) (q : Req) (own : Own) (lim : Nat) :
    s.devAsk q own lim [p] = (true, s) := by
  obtain ⟨ch, pc, h⟩ | ⟨d, h⟩ | h := Target.plain_cases hplain <;> simp [State.devAsk, h]

/-- A load within one line of plain memory that the data cache does not hold gives the bytes of memory. -/
theorem State.loadBytes_plain {p : Piece} (hcheck : s.homeCheck (reqOf c) p.pa = none) (hplain : (s.decodePA p.pa).plain = true)
    (hbusy : s.homeBusy (reqOf c) (s.decodePA p.pa) = false) (hrsp : s.rspDown (reqOf c) p.pa = false)
    (hpoison : s.anyPoison p.pa p.n = false) (htime : s.timedOut (reqOf c) p.pa = none) (hmiss : (s.core c).line (p.pa / 64) = none)
    (hwork : ∀ i < p.n, s.workByte (p.pa + i) = false) : ∃ u, s.loadBytes c false [p] = (.ok (s.bytes p.pa p.n), u) :=
  ⟨_, State.loadBytes_line (State.routeFail_line hplain htime) (State.devAsk_line hplain ..) hplain hmiss
    (State.plainRead_reached (State.atHome_reached hcheck hplain hbusy) hrsp hpoison hwork)⟩

end Line

/-! ### The obligation -/

/-- Instruction mk loads n bytes at a displacement, sign- or zero-extended, under a load shadow, and leaves the rest alone. -/
def LoadsM (mk : CoreId → Greg → Greg → Sreg → BitVec 11 → Instr) (n : Nat) (signed : Bool) : Prop :=
  ∀ (s t u : State) (c : CoreId) (gt ga : Greg) (sg : Sreg) (disp : BitVec 11) (bs : List Byte), s.Ready c (mk c gt ga sg disp) t →
    (t.updCore c Core.begun).readData c sg .read ((t.core c).gread ga + disp.signExtend 64) n = (.ok bs, u) →
    let w := State.settle ((u.setGLoad c gt (loadValue signed bs)).updCore c fun x => x.after 4)
    exec (mk c gt ga sg disp) s = .next w ∧ w.LoadKeeps s c gt

theorem loadsM {mk : CoreId → Greg → Greg → Sreg → BitVec 11 → Instr} {op n : Nat} {signed : Bool}
    (hx : ∀ c gt ga sg disp s, exec (mk c gt ga sg disp) s = loadM c op gt ga sg disp n signed s)
    (hw : ∀ c gt ga sg disp, insnWords (mk c gt ga sg disp) = some (wordM op gt ga sg disp, 0)) : LoadsM mk n signed := by
  intro s t u c gt ga sg disp bs h hread w
  refine ⟨?_, load_keeps h hread _⟩
  rw [hx]
  exact load_ready h (hw ..) rfl hread

/-- Settles O8: the rows of format M and LDX load in the shared shape; a plain read is a load of one line (`State.loadBytes_plain`). -/
theorem loadsComplete : Obligations.LoadsComplete := by
  unfold Obligations.LoadsComplete
  refine ⟨⟨fun p hp => (?_ : LoadsM p.1 p.2.1 p.2.2), ?_⟩, ?_⟩
  · revert p
    simp only [List.forall_mem_cons, List.not_mem_nil, false_imp_iff, implies_true, and_true]
    exact ⟨
      loadsM (fun _ _ _ _ _ _ => rfl) (fun _ _ _ _ _ => rfl),
      loadsM (fun _ _ _ _ _ _ => rfl) (fun _ _ _ _ _ => rfl),
      loadsM (fun _ _ _ _ _ _ => rfl) (fun _ _ _ _ _ => rfl),
      loadsM (fun _ _ _ _ _ _ => rfl) (fun _ _ _ _ _ => rfl),
      loadsM (fun _ _ _ _ _ _ => rfl) (fun _ _ _ _ _ => rfl),
      loadsM (fun _ _ _ _ _ _ => rfl) (fun _ _ _ _ _ => rfl),
      loadsM (fun _ _ _ _ _ _ => rfl) (fun _ _ _ _ _ => rfl)⟩
  · intro s t u c gt ga gb sg ctl bs h hctl hread w
    refine ⟨?_, load_keeps h hread _⟩
    show execLdx c gt ga gb sg ctl s = done _
    exact load_ready h rfl (if_neg hctl) hread
  · intro s c sg o n x g pa hptb hnull hread hring hlimit h0 _ hline hpa hcheck hplain hbusy hrsp hpoison htime hmiss hvec hwork
    have access : s.dataAccess c sg .read o n = (.ok [⟨pa, n⟩], s) :=
      State.dataAccess_line hptb (segCheck_eq_none _ (by decide) hnull hread hring hlimit) h0 hline hpa
    obtain ⟨u, hload⟩ := State.loadBytes_plain (c := c) (p := ⟨pa, n⟩) hcheck hplain hbusy hrsp hpoison htime hmiss
      (State.workByte_eq_false hwork)
    have read : s.readData c sg .read o n = (.ok (s.bytes pa n), u) := by
      simp only [State.readData, access, hvec, hload, Bool.false_eq_true, if_false]
    exact ⟨u, read, .of read (s.keeps_readData ..)⟩

end Sys2Proof.Machine

/-! SUPPORT. Scalar stores: what performing a store leaves of cores and engines, and what a store to plain memory changes
(R52, R54, R55, R80, R82). -/

namespace Sys2Proof.Machine

open Sys2Proof

/-! ### Posts to host windows and the twin window leave memory and cores alone -/

/-- A fold whose every step changes caches and logs alone does so too. -/
theorem State.keeps_foldl {α : Type} {f : State → α → State} (hf : ∀ (t : State) (a : α), t.Keeps (f t a)) (l : List α) (s : State) :
    s.Keeps (l.foldl f s) := by
  induction l generalizing s with
  | nil => exact .refl s
  | cons a l ih => exact (hf s a).trans (ih _)

theorem State.keeps_postDwr (s : State) (own : Own) (pa host : Nat) (bs : List Byte) : s.Keeps (s.postDwr own pa host bs) := s.keeps_send ..

theorem State.keeps_hostPost (s : State) (own : Own) (q : Req) (lim pa : Nat) (bs : List Byte) : s.Keeps (s.hostPost own q lim pa bs).2 := by
  unfold State.hostPost
  split
  · exact s.keeps_errResponse ..
  · exact State.keeps_foldl (fun t _ => t.keeps_postDwr ..) _ s

theorem State.keeps_twin (s : State) (x : Twin) : s.Keeps { s with twin := x } := ⟨rfl, rfl, rfl, rfl, fun _ => rfl⟩

theorem State.keeps_drawBytes (s : State) (n : Nat) : s.Keeps (s.drawBytes n).2 := ⟨rfl, rfl, rfl, rfl, fun _ => rfl⟩

theorem State.keeps_authMsg1 (s : State) : s.Keeps s.authMsg1.2 :=
  ((s.keeps_drawBytes 96).trans (State.keeps_drawBytes _ 32)).trans (State.keeps_twin ..)

theorem State.keeps_sendAuth (s : State) (msg : Nat) (data : List Byte) : s.Keeps (s.sendAuth msg data) :=
  State.keeps_foldl (fun t _ => t.keeps_send ..) _ s

theorem State.keeps_rekeyDue (s : State) : s.Keeps s.rekeyDue := by
  unfold State.rekeyDue State.rekey
  split
  · split
    · exact (s.keeps_authMsg1.trans (State.keeps_twin ..)).trans (State.keeps_sendAuth ..)
    · exact .refl s
  · exact .refl s

theorem State.keeps_mirrorOut (s : State) (own : Own) (lsn off : Nat) (bs : List Byte) (ps : List Piece) :
    s.Keeps (s.mirrorOut own lsn off bs ps) := by
  induction ps generalizing s with
  | nil => exact .refl s
  | cons p ps ih => exact (((s.keeps_twin _).trans (State.keeps_send ..)).trans (State.keeps_rekeyDue _)).trans (ih _)

theorem State.keeps_twinPost (s : State) (own : Own) (q : Req) (lsn off : Nat) (bs : List Byte) : s.Keeps (s.twinPost own q lsn off bs).2 := by
  unfold State.twinPost
  dsimp only
  split
  · exact s.keeps_errResponse ..
  · split
    · exact .refl s
    · exact s.keeps_mirrorOut ..

/-! ### Cores and engines under a store -/

/-- State t has the cores of s but for caches and pending interrupts, and its engines. -/
structure State.KeepsCores (s t : State) : Prop where
  cores : ∀ e, (t.core e).arch = (s.core e).arch
  engines : t.engines = s.engines

theorem State.KeepsCores.refl (s : State) : s.KeepsCores s := ⟨fun _ => rfl, rfl⟩

theorem State.KeepsCores.trans {s t u : State} (h : s.KeepsCores t) (k : t.KeepsCores u) : s.KeepsCores u :=
  ⟨fun e => (k.cores e).trans (h.cores e), k.engines.trans h.engines⟩

theorem State.Keeps.keepsCores {s t : State} (h : s.Keeps t) : s.KeepsCores t := ⟨h.cores, h.engines⟩

theorem State.keepsCores_homeWrite (s : State) (pa : Nat) (bs : List Byte) (poisoned : Bool) : s.KeepsCores (s.homeWrite pa bs poisoned) := by
  obtain ⟨m, hm⟩ := s.homeWrite_eq pa bs poisoned
  rw [hm]
  exact ⟨fun _ => rfl, rfl⟩

theorem Core.arch_updLine (x : Core) (pa : Nat) (bs : List Byte) : (x.updLine pa bs).arch = x.arch := by
  unfold Core.updLine
  split <;> rfl

theorem State.keepsCores_storePart (s : State) (c : CoreId) (p : Piece) (bs : List Byte) : s.KeepsCores (s.storePart c p bs) := by
  have ht : s.KeepsCores (s.travel (dieOf c).val (s.decodePA p.pa).die) := (s.keeps_travel ..).keepsCores
  unfold State.storePart
  dsimp only
  split
  · exact ht.trans (State.keeps_hostPost ..).keepsCores
  · exact ht.trans (State.keeps_twinPost ..).keepsCores
  · exact ht
  · exact (ht.trans (State.keepsCores_homeWrite ..)).trans (State.keeps_setCore (Core.arch_updLine ..)).keepsCores

theorem State.keepsCores_storeKept (s : State) (c : CoreId) (hosts : List (Nat × Nat)) (ps : List Piece) (bs : List Byte) :
    s.KeepsCores (s.storeKept c hosts ps bs) := by
  induction ps generalizing s bs with
  | nil => exact .refl s
  | cons p ps ih =>
    unfold State.storeKept
    refine .trans ?_ (ih _ _)
    split
    · exact (s.keeps_postDwr ..).keepsCores
    · exact s.keepsCores_storePart ..

/-- Core y is core x but for caches, pending interrupts and its list of stores not yet acknowledged. -/
def Core.Posted (x y : Core) : Prop := y.arch = { x.arch with unacked := y.unacked }

section Posted

variable {x y : Core}

theorem Core.Posted.field {α : Type} (f : Core → α) (h : x.Posted y) : f y.arch = f { x.arch with unacked := y.unacked } := congrArg f h

theorem Core.Posted.lsh (h : x.Posted y) : y.lsh = x.lsh := h.field Core.lsh

theorem Core.Posted.slot (h : x.Posted y) : y.slot = x.slot := h.field Core.slot

theorem Core.Posted.stepDue (h : x.Posted y) : y.stepDue = x.stepDue := h.field Core.stepDue

theorem Core.Posted.ip (h : x.Posted y) : y.ip = x.ip := h.field Core.ip

theorem Core.Posted.sameBut (h : x.Posted y) : x.SameBut y [] := by
  have same : x.arch.SameBut { x.arch with unacked := y.unacked } [] := Core.SameBut.refl _ _
  exact same.congr rfl h

end Posted

section PostStore

variable (s : State) (c : CoreId) (code : Nat) (o : Word) (ps : List Piece) (bs : List Byte)

/-- A posted store leaves the engines, -/
theorem State.postStore_engines : (s.postStore c code o ps bs).engines = s.engines :=
  (s.keepsCores_storeKept c [] ps bs).engines

/-- the other cores, -/
theorem State.postStore_other {e : CoreId} (h : e ≠ c) : ((s.postStore c code o ps bs).core e).arch = (s.core e).arch := by
  unfold State.postStore State.postElem
  dsimp only
  rw [State.core_updCore_ne _ _ h, (s.keepsCores_storeKept c [] ps bs).cores]

/-- and its own core's registers. -/
theorem State.postStore_own : (s.core c).Posted ((s.postStore c code o ps bs).core c) := by
  unfold State.postStore State.postElem Core.Posted
  dsimp only
  rw [State.core_updCore_self, ← (s.keepsCores_storeKept c [] ps bs).cores c]
  rfl

end PostStore

/-! ### Plain memory under a store -/

theorem State.SameMap.decodePA {s t : State} (h : s.SameMap t) (pa : Nat) : t.decodePA pa = s.decodePA pa := by
  show State.decodePA { regs := t.regs } pa = State.decodePA { regs := s.regs } pa
  rw [h.regs]

/-- The part of a store in ordinary memory, performed: its bytes are there, and every other byte reads as before (R345). -/
theorem State.storePart_plain {s : State} {p : Piece} (c : CoreId) (bs : List Byte) (hplain : (s.decodePA p.pa).plain = true) :
    (s.storePart c p bs).bytes p.pa bs.length = bs ∧
      ∀ a, a < p.pa ∨ p.pa + bs.length ≤ a → (s.storePart c p bs).byte a = s.byte a := by
  have hk := s.keeps_travel (dieOf c).val (s.decodePA p.pa).die
  have map := s.sameMap_travel (dieOf c).val (s.decodePA p.pa).die
  obtain ⟨m, hm⟩ := (s.travel (dieOf c).val (s.decodePA p.pa).die).homeWrite_eq p.pa bs false
  have eq : s.storePart c p bs = (State.setBytes { s.travel (dieOf c).val (s.decodePA p.pa).die with poison := m } p.pa bs).updCore c
      fun x => x.updLine p.pa bs := by
    have target := map.decodePA p.pa
    rw [← hm]
    obtain ⟨ch, pc, h⟩ | ⟨d, h⟩ | h := Target.plain_cases hplain <;> rw [h] at target <;> simp only [State.storePart, h, target]
  rw [eq]
  exact ⟨State.bytes_setBytes .., fun a ha => (State.byte_setBytes_out _ _ _ _ ha).trans (hk.byte a)⟩

/-- A store of one part posted performs the part (R82). -/
theorem State.postStore_single {s : State} {p : Piece} (c : CoreId) (code : Nat) (o : Word) {bs : List Byte} (hn : p.n = bs.length) :
    ∃ k : ElemAcc, s.postStore c code o [p] bs = (s.storePart c p bs).updCore c fun x => { x with unacked := x.unacked ++ [k] } := by
  refine ⟨s.undoOf { idx := code, off := o, parts := [p] } bs, ?_⟩
  simp only [State.postStore, State.postElem, State.storeKept, List.find?_nil, hn, List.take_length]

section Line

variable {s : State} {c : CoreId} {p : Piece} {o : Word} {bs : List Byte}

/-- A store to one line of plain memory that nothing refuses or holds up is posted. -/
theorem State.storeBytes_plain (hcheck : s.homeCheck (reqOf c) p.pa = none) (hplain : (s.decodePA p.pa).plain = true)
    (hbusy : s.homeBusy (reqOf c) (s.decodePA p.pa) = false) (hskim : s.skimProtected p.pa p.n = false) (hheld : s.storeHeld c = false) :
    s.storeBytes c o [p] bs = (.ok (), s.postStore c 2 o [p] bs) := by
  obtain ⟨ch, pc, h⟩ | ⟨d, h⟩ | h := Target.plain_cases hplain <;> rw [h] at hbusy <;>
    simp [State.storeBytes, State.storeCheck, State.storeFail, State.partBusy, hcheck, h, hbusy, hskim, hheld]

end Line

/-! ### The obligation -/

section Store

variable {c : CoreId} {i : Instr} {word n : Nat} {reads : List Greg} {gt : Greg} {sg : Sreg} {ill : Core → Option Nat} {ea : Core → Word}
  {s t u : State}

/-- A scalar store whose access succeeds goes on. -/
theorem store_ready (h : s.Ready c i t) (hw : insnWords i = some (word, 0)) (hill : ill (t.core c) = none)
    (hwrite : (t.updCore c Core.begun).writeData c sg (ea (t.core c).begun) (toBytes n ((t.core c).gread gt).toNat) = (.ok (), u))
    (hslot : (u.core c).slot = none) (hdue : (u.core c).stepDue = false) :
    store c word reads gt sg n ill ea s = done (u.updCore c fun x => x.after 4) := by
  have own : (t.updCore c Core.begun).core c = (t.core c).begun := by rw [State.core_updCore_self]
  refine runInsn_done (h.1.words hw) h.2 (h.early rfl rfl hill) ?_ hslot hdue
  show onRes ((t.updCore c Core.begun).writeData c sg (ea ((t.updCore c Core.begun).core c))
    (toBytes n (((t.updCore c Core.begun).core c).gread gt).toNat)) (fun _ s => Body.next s) = _
  rw [own, Core.gread_begun, hwrite]
  rfl

end Store

/-- Instruction mk stores the low n bytes of gt at a displacement and goes on. -/
def StoresM (mk : CoreId → Greg → Greg → Sreg → BitVec 11 → Instr) (n : Nat) : Prop :=
  ∀ (s t u : State) (c : CoreId) (gt ga : Greg) (sg : Sreg) (disp : BitVec 11), s.Ready c (mk c gt ga sg disp) t →
    (t.updCore c Core.begun).writeData c sg ((t.core c).gread ga + disp.signExtend 64) (toBytes n ((t.core c).gread gt).toNat) = (.ok (), u) →
    (u.core c).slot = none → (u.core c).stepDue = false →
    exec (mk c gt ga sg disp) s = .next (State.settle (u.updCore c fun x => x.after 4))

theorem storesM {mk : CoreId → Greg → Greg → Sreg → BitVec 11 → Instr} {op n : Nat}
    (hx : ∀ c gt ga sg disp s, exec (mk c gt ga sg disp) s = storeM c op gt ga sg disp n s)
    (hw : ∀ c gt ga sg disp, insnWords (mk c gt ga sg disp) = some (wordM op gt ga sg disp, 0)) : StoresM mk n := by
  intro s t u c gt ga sg disp h hwrite hslot hdue
  rw [hx]
  exact store_ready h (hw ..) rfl hwrite hslot hdue

/-- Settles O9: the rows of format M and STX store in the shared shape; a store to one line of plain memory is posted
(`State.storeBytes_plain`), and a posted store changes its bytes alone. -/
theorem storesComplete : Obligations.StoresComplete := by
  unfold Obligations.StoresComplete
  refine ⟨⟨fun p hp => (?_ : StoresM p.1 p.2), ?_⟩, ?_⟩
  · revert p
    simp only [List.forall_mem_cons, List.not_mem_nil, false_imp_iff, implies_true, and_true]
    exact ⟨
      storesM (fun _ _ _ _ _ _ => rfl) (fun _ _ _ _ _ => rfl),
      storesM (fun _ _ _ _ _ _ => rfl) (fun _ _ _ _ _ => rfl),
      storesM (fun _ _ _ _ _ _ => rfl) (fun _ _ _ _ _ => rfl),
      storesM (fun _ _ _ _ _ _ => rfl) (fun _ _ _ _ _ => rfl)⟩
  · intro s t u c gt ga gb sg ctl h hctl hwrite hslot hdue
    show execStx c gt ga gb sg ctl s = done _
    exact store_ready h rfl (if_neg (by omega)) hwrite hslot hdue
  · intro s c sg o bs x g n pa hptb hnull hwritable hring hlimit h0 _ hline hpa hcheck hplain hbusy hskim hheld hvec
    have access : s.dataAccess c sg .write o n = (.ok [⟨pa, n⟩], s) :=
      State.dataAccess_line hptb (segCheck_eq_none _ (by decide) hnull hwritable hring hlimit) h0 hline hpa
    have posted : s.storeBytes c o [⟨pa, n⟩] bs = (.ok (), s.postStore c 2 o [⟨pa, n⟩] bs) :=
      State.storeBytes_plain hcheck hplain hbusy hskim hheld
    have own := s.postStore_own c 2 o [⟨pa, n⟩] bs
    obtain ⟨k, hpart⟩ := State.postStore_single (s := s) (p := ⟨pa, n⟩) c 2 o (bs := bs) rfl
    obtain ⟨hbytes, hrest⟩ := State.storePart_plain (p := ⟨pa, n⟩) c bs hplain
    refine ⟨s.postStore c 2 o [⟨pa, n⟩] bs, ?_, ?_, fun a ha => ?_, fun e he => s.postStore_other c 2 o _ bs he, own.sameBut, own.lsh,
      own.slot, own.stepDue, own.ip, s.postStore_engines c 2 o _ bs⟩
    · simp only [State.writeData]
      rw [access]
      simp only [hvec, posted, Bool.false_eq_true, if_false]
    · rw [hpart]
      exact hbytes
    · rw [hpart]
      exact hrest a ha

end Sys2Proof.Machine

/-! SUPPORT. Order: the acquiring load, the releasing store, fences, and atomics at their homes (R55, R57–R60, R92, R102, R107). -/

namespace Sys2Proof.Machine

open Sys2Proof

/-! ### Stores acknowledged (R82) -/

/-- What keeps an acknowledgement out is on the links and the edges, not at a core. -/
theorem State.ackOut_updCore (s : State) (c : CoreId) (f : Core → Core) : (s.updCore c f).ackOut = s.ackOut := rfl

theorem State.allAcked_dropCache (s : State) (c : CoreId) : (s.dropCache c).allAcked c = s.allAcked c := by
  simp only [State.allAcked, State.dropCache, State.core_updCore_self, State.ackOut_updCore]

/-- Once every store can have been acknowledged, none is left. -/
theorem State.acked_of_allAcked {s : State} {c : CoreId} (h : s.allAcked c = true) :
    s.acked c = s.updCore c fun x => { x with unacked := [], fenced := 0 } := by
  have out : ∀ e ∈ (s.core c).unacked, s.ackOut c e = false := by
    simpa [State.allAcked] using h
  have early : ((s.core c).unacked.take (s.core c).fenced).filter (s.ackOut c) = [] :=
    List.filter_eq_nil_iff.mpr fun e he => by simp [out e (List.mem_of_mem_take he)]
  have late : ((s.core c).unacked.drop (s.core c).fenced).filter (s.ackOut c) = [] :=
    List.filter_eq_nil_iff.mpr fun e he => by simp [out e (List.mem_of_mem_drop he)]
  simp [State.acked, early, late]

/-- A store fence set at the last store leaves those whose acknowledgement is out, all of them before it (R57). -/
theorem State.acked_fenced (s : State) (c : CoreId) :
    (s.updCore c fun x => { x with fenced := x.unacked.length }).acked c = s.updCore c fun x =>
      { x with unacked := x.unacked.filter (s.ackOut c), fenced := (x.unacked.filter (s.ackOut c)).length } := by
  simp only [State.acked, State.ackOut_updCore]
  simp

section AckedCore

variable (s : State) (c : CoreId)

theorem State.acked_slot : ((s.acked c).core c).slot = (s.core c).slot := by
  simp [State.acked]

theorem State.acked_stepDue : ((s.acked c).core c).stepDue = (s.core c).stepDue := by
  simp [State.acked]

end AckedCore

/-! ### Accesses at the home -/

theorem State.keeps_alignedAccess (s : State) (c : CoreId) (sg : Sreg) (k : AKind) (o : Word) (n : Nat) :
    s.Keeps (s.alignedAccess c sg k o n).2 := by
  have h := s.keeps_dataAccess c sg k o n
  unfold State.alignedAccess
  dsimp only
  split
  · exact .refl s
  · split
    · exact .refl s
    · split
      next e =>
        split
        · exact .of e h
        · exact .of e h
      next => exact h

theorem State.keeps_dropCache (s : State) (c : CoreId) : s.Keeps (s.dropCache c) := State.keeps_setCore rfl

/-- Lines dropped from a data cache change nothing else of a core. -/
theorem Core.arch_dropLines (x : Core) (ps : List Piece) : (ps.foldl (fun x p => x.dropLine p.pa) x).arch = x.arch := by
  induction ps generalizing x with
  | nil => rfl
  | cons p ps ih => exact ih (x.dropLine p.pa)

theorem State.keeps_homeLoad (s : State) (c : CoreId) (ps : List Piece) : s.Keeps (s.homeLoad c ps).2 :=
  State.Keeps.trans (State.keeps_setCore (Core.arch_dropLines ..)) (State.keeps_loadBytes ..)

theorem State.KeepsCores.slot {s t : State} (h : s.KeepsCores t) (c : CoreId) : (t.core c).slot = (s.core c).slot :=
  (congrArg Core.slot (h.cores c) : (t.core c).arch.slot = (s.core c).arch.slot)

theorem State.KeepsCores.stepDue {s t : State} (h : s.KeepsCores t) (c : CoreId) : (t.core c).stepDue = (s.core c).stepDue :=
  (congrArg Core.stepDue (h.cores c) : (t.core c).arch.stepDue = (s.core c).arch.stepDue)

theorem State.KeepsCores.of {α : Type} {s t : State} {r : α × State} {a : α} (e : r = (a, t)) (h : s.KeepsCores r.2) : s.KeepsCores t := by
  subst e; exact h

/-- An atomic changes memory, caches and logs, and nothing of a core. -/
theorem State.keepsCores_atomicAt (s : State) (c : CoreId) (p : Piece) (f : Nat → Nat) : s.KeepsCores (s.atomicAt c p f).2 := by
  have hd : s.Keeps (s.updCore c fun x => x.dropLine p.pa) := State.keeps_setCore rfl
  unfold State.atomicAt
  dsimp only
  split
  next e => exact (hd.trans (State.keeps_timedOut e)).keepsCores
  next =>
    have hh := hd.trans (State.keeps_atHome _ (reqOf c) p.pa)
    split
    next s1 e =>
      have h1 : s.Keeps s1 := .of e hh
      have read : s.KeepsCores (s1.asRead p.pa (s1.bytes p.pa p.n)).2 := (h1.trans (State.keeps_asRead ..)).keepsCores
      split
      · split
        · exact (h1.trans (State.keeps_rspLost ..)).keepsCores
        · exact h1.keepsCores
      · split
        · exact (h1.trans (State.keeps_refused ..)).keepsCores
        · split
          · exact (read.trans (State.keepsCores_homeWrite ..)).trans (State.keeps_rspLost ..).keepsCores
          · exact read.trans (State.keepsCores_homeWrite ..)
    next e => exact (State.Keeps.of e hh).keepsCores
    next e => exact (State.Keeps.of e hh).keepsCores
    next e => exact (State.Keeps.of e hh).keepsCores

/-! ### An atomic on plain memory -/

theorem length_toBytes (n v : Nat) : (toBytes n v).length = n := by
  induction n generalizing v with
  | zero => rfl
  | succ n ih => exact congrArg (· + 1) (ih (v / 256))

theorem State.Keeps.anyPoison {s t : State} (h : s.Keeps t) (pa n : Nat) : t.anyPoison pa n = s.anyPoison pa n := by
  have marks : t.poisonedAt = s.poisonedAt := by
    funext a
    simp only [State.poisonedAt, h.poison]
  rw [State.anyPoison, marks, State.anyPoison]

/-- An interrupt that reaches its core changes that core, and may take a free value. -/
theorem State.pendIrq_eq (s : State) (c : CoreId) (vec die : Nat) : ∃ k n, s.pendIrq c vec die = { s with cores := k, free := n } := by
  unfold State.pendIrq State.choose
  split
  · exact ⟨_, s.free, rfl⟩
  · exact ⟨_, _, rfl⟩

theorem State.arrive_eq (s : State) (src dst : Nat) :
    ∃ k n l, s.arrive src dst = { s with cores := k, free := n, flight := l } := by
  unfold State.arrive
  generalize s.flight.filter (fun f => f.die == src && f.core / 4 == dst) = fs
  induction fs generalizing s with
  | nil => exact ⟨s.cores, s.free, s.flight, rfl⟩
  | cons f fs ih =>
    rw [List.foldl_cons]
    dsimp only
    split
    next h =>
      obtain ⟨k, n, hp⟩ := State.pendIrq_eq { s with flight := s.flight.erase f } ⟨f.core, h⟩ f.vec f.die
      obtain ⟨k', n', l', hr⟩ := ih (State.pendIrq { s with flight := s.flight.erase f } ⟨f.core, h⟩ f.vec f.die)
      exact ⟨k', n', l', by rw [hr, hp]⟩
    next =>
      obtain ⟨k', n', l', hr⟩ := ih { s with flight := s.flight.erase f }
      exact ⟨k', n', l', hr⟩

/-- A request on its way lets interrupts arrive and counts packets, and changes nothing else. -/
theorem State.travel_eq (s : State) (src dst : Nat) :
    ∃ k n l m, s.travel src dst = { s with cores := k, free := n, flight := l, sent := m } := by
  unfold State.travel
  split
  · exact ⟨s.cores, s.free, s.flight, s.sent, rfl⟩
  · obtain ⟨k, n, l, h⟩ := s.arrive_eq src dst
    rw [h]
    exact ⟨k, n, l, _, rfl⟩

theorem State.skimProtected_reached (s : State) (q : Req) (pa a n : Nat) : (s.reached q pa).skimProtected a n = s.skimProtected a n := by
  obtain ⟨k, m, l, x, h⟩ := (s.endWait q pa).travel_eq q.die (s.decodePA pa).die
  rw [State.reached, h]
  rfl

theorem State.timedOut_setCore {s : State} {q : Req} {pa : Nat} (c : CoreId) (x : Core) (h : s.timedOut q pa = none) :
    (s.setCore c x).timedOut q pa = none := by
  unfold State.timedOut at h ⊢
  split at h
  · cases h
  next e => rw [State.setCore_waits, e]

/-- An atomic on plain memory that nothing refuses or holds up puts the new value in place of the old, and changes no other byte (R59, R345). -/
theorem State.atomicAt_plain {s : State} {c : CoreId} {p : Piece} (f : Nat → Nat) (hcheck : s.homeCheck (reqOf c) p.pa = none)
    (hplain : (s.decodePA p.pa).plain = true) (hbusy : s.homeBusy (reqOf c) (s.decodePA p.pa) = false)
    (hrsp : s.rspDown (reqOf c) p.pa = false) (hpoison : s.anyPoison p.pa p.n = false) (htime : s.timedOut (reqOf c) p.pa = none)
    (hskim : s.skimProtected p.pa p.n = false) (hwork : ∀ i < p.n, s.workByte (p.pa + i) = false) :
    ∃ u, s.atomicAt c p f = (.ok (fromBytes (s.bytes p.pa p.n)), u) ∧
      u.bytes p.pa p.n = toBytes p.n (f (fromBytes (s.bytes p.pa p.n))) ∧ ∀ a, a < p.pa ∨ p.pa + p.n ≤ a → u.byte a = s.byte a := by
  -- The core's copy of the line goes first; what decides where the access goes is not at a core.
  generalize hd : s.updCore c (fun x => x.dropLine p.pa) = d
  have hbytes : d.bytes p.pa p.n = s.bytes p.pa p.n := by rw [← hd]; rfl
  have hbyte (a : Nat) : d.byte a = s.byte a := by rw [← hd]; rfl
  have time : d.timedOut (reqOf c) p.pa = none := by rw [← hd]; exact State.timedOut_setCore _ _ htime
  have work : ∀ i < p.n, d.workByte (p.pa + i) = false := by rw [← hd]; exact hwork
  have home : d.atHome (reqOf c) p.pa = (.ok (), d.reached (reqOf c) p.pa) := by
    rw [← hd]; exact State.atHome_reached hcheck hplain hbusy
  have rsp : (d.reached (reqOf c) p.pa).rspDown (reqOf c) p.pa = false := by
    rw [(d.sameMap_reached ..).rspDown, ← hd]; exact hrsp
  have poison : (d.reached (reqOf c) p.pa).anyPoison p.pa p.n = false := by
    rw [(d.keeps_reached ..).anyPoison, ← hd]; exact hpoison
  have skim : (d.reached (reqOf c) p.pa).skimProtected p.pa p.n = false := by
    rw [State.skimProtected_reached, ← hd]; exact hskim
  have read := d.asRead_reached (reqOf c) work
  rw [hbytes] at read
  obtain ⟨m, hm⟩ := (d.reached (reqOf c) p.pa).homeWrite_eq p.pa (toBytes p.n (f (fromBytes (s.bytes p.pa p.n)))) false
  refine ⟨State.setBytes { d.reached (reqOf c) p.pa with poison := m } p.pa (toBytes p.n (f (fromBytes (s.bytes p.pa p.n)))), ?_, ?_,
    fun a ha => ?_⟩
  · rw [State.atomicAt, hd]
    simp [time, home, rsp, poison, skim, read, hm]
  · have run := State.bytes_setBytes { d.reached (reqOf c) p.pa with poison := m } p.pa (toBytes p.n (f (fromBytes (s.bytes p.pa p.n))))
    rwa [length_toBytes] at run
  · refine (State.byte_setBytes_out _ _ _ _ (by rwa [length_toBytes])).trans ?_
    exact ((d.keeps_reached (reqOf c) p.pa).byte a).trans (hbyte a)

end Sys2Proof.Machine

/-! SUPPORT. LD.ACQ, ST.REL, fences, ISYNC and atomics ready to run (R55, R57–R60, R92, R102). -/

namespace Sys2Proof.Machine

open Sys2Proof

/-! ### Acquire and release (R58) -/

section Ordering

variable {c : CoreId} {gt ga : Greg} {sg : Sreg} {ctl : BitVec 5} {ps : List Piece} {s t u v : State} {bs : List Byte}

/-- LD.ACQ writes gt with what it reads at the home, without a load shadow. -/
theorem ldAcq_ready (h : s.Ready c (.ldAcq c gt ga 0 sg ctl) t) (hctl : ctl.toNat % 8 = 0)
    (hacc : (t.updCore c Core.begun).alignedAccess c sg .read ((t.core c).gread ga) (if bit ctl 3 then 8 else 4) = (.ok ps, u))
    (hload : (u.dropCache c).homeLoad c ps = (.ok bs, v)) :
    exec (.ldAcq c gt ga 0 sg ctl) s = done (v.updCore c fun x => (x.gwrite gt (loadValue true bs)).after 4) := by
  have hk : (t.updCore c Core.begun).Keeps v :=
    ((State.Keeps.of hacc (State.keeps_alignedAccess ..)).trans (State.keeps_dropCache ..)).trans (.of hload (State.keeps_homeLoad ..))
  have hslot : ((v.setG c gt (loadValue true bs)).core c).slot = none := by
    rw [State.setG, State.core_updCore_self, Core.gwrite_slot, hk.slot, State.core_updCore_self]
    exact h.2.1
  have hdue : ((v.setG c gt (loadValue true bs)).core c).stepDue = false := by
    rw [State.setG, State.core_updCore_self, Core.gwrite_stepDue, hk.stepDue, State.core_updCore_self]
    exact h.2.2.2
  show execLdAcq c gt ga 0 sg ctl s = _
  unfold execLdAcq
  rw [runInsn_done (u := v.setG c gt (loadValue true bs)) (h.1.words rfl) h.2 (h.early rfl rfl (if_neg (by simp [hctl]))) ?_ hslot hdue]
  · simp
  · simp only [State.greg, State.core_updCore_self, Core.gread_begun, hacc, onRes, hload]

/-- ST.REL stores once every earlier store of its core has been acknowledged. -/
theorem stRel_ready (h : s.Ready c (.stRel c gt ga 0 sg ctl) t) (hctl : ctl.toNat % 8 = 0)
    (hacc : (t.updCore c Core.begun).alignedAccess c sg .write ((t.core c).gread ga) (if bit ctl 3 then 8 else 4) = (.ok ps, u))
    (hall : u.allAcked c = true)
    (hstore : (u.acked c).storeBytes c ((t.core c).gread ga) ps (toBytes (if bit ctl 3 then 8 else 4) ((u.core c).gread gt).toNat) = (.ok (), v))
    (hslot : (v.core c).slot = none) (hdue : (v.core c).stepDue = false) :
    exec (.stRel c gt ga 0 sg ctl) s = done (v.updCore c fun x => x.after 4) := by
  show execStRel c gt ga 0 sg ctl s = _
  unfold execStRel
  refine runInsn_done (h.1.words rfl) h.2 (h.early rfl rfl (if_neg (by simp [hctl]))) ?_ hslot hdue
  simp only [State.greg, State.core_updCore_self, Core.gread_begun, hacc, onRes, hall, hstore, Bool.not_true, Bool.false_eq_true, if_false]

end Ordering

/-! ### Fences (R57) -/

section Fence

variable {c : CoreId} {i : Instr} {fn : Nat} {f : State → Body} {s t : State}

/-- A fence that goes on, its work done on its own core. -/
theorem fence_next {g : Core → Core} (h : s.Ready c i t) (hw : insnWords i = some (wordA 0x21 0 0 0 fn, 0))
    (hb : f (t.updCore c Core.begun) = .next ((t.updCore c Core.begun).updCore c g)) (hslot : ∀ x, (g x).slot = x.slot)
    (hdue : ∀ x, (g x).stepDue = x.stepDue) : fence c fn 0 0 0 f s = done (t.updCore c fun x => (g x.begun).after 4) :=
  runInsn_upd (h.1.words hw) h.2 (h.early rfl rfl rfl) hb (hslot _) (hdue _)

/-- A fence that has to wait does nothing. -/
theorem fence_wait (h : s.Ready c i t) (hw : insnWords i = some (wordA 0x21 0 0 0 fn, 0))
    (hb : f (t.updCore c Core.begun) = .wait (t.updCore c Core.begun)) : fence c fn 0 0 0 f s = done (t.updCore c Core.undone) := by
  rw [fence, runInsn_wait (h.1.words hw) (h.early rfl rfl rfl) hb, State.undone_of_begun]

end Fence

section Fences

variable {c : CoreId} {s t : State}

/-- FENCE.LL drops the data cache. -/
theorem fenceLl_next (h : s.Ready c (.fenceLl c 0 0 0) t) :
    exec (.fenceLl c 0 0 0) s = done (t.updCore c fun x => Core.after { x.begun with dcache := [] } 4) := by
  show execFenceLl c 0 0 0 s = _
  exact fence_next (g := fun x => { x with dcache := [] }) h rfl rfl (fun _ => rfl) fun _ => rfl

/-- FENCE.SS does not wait, and holds later stores behind those whose acknowledgement is out. -/
theorem fenceSs_next (h : s.Ready c (.fenceSs c 0 0 0) t) : exec (.fenceSs c 0 0 0) s = done (t.updCore c fun x =>
    Core.after { x.begun with unacked := x.unacked.filter (t.ackOut c), fenced := (x.unacked.filter (t.ackOut c)).length } 4) := by
  have body := State.acked_fenced (t.updCore c Core.begun) c
  rw [State.ackOut_updCore] at body
  show execFenceSs c 0 0 0 s = _
  exact fence_next (g := fun x => { x with unacked := x.unacked.filter (t.ackOut c), fenced := (x.unacked.filter (t.ackOut c)).length })
    h rfl (congrArg Body.next body) (fun _ => rfl) fun _ => rfl

/-- FENCE.FULL and ISYNC go on once every earlier store has been acknowledged. -/
theorem fenceFull_next (h : s.Ready c (.fenceFull c 0 0 0) t) (hall : (t.updCore c Core.begun).allAcked c = true) :
    exec (.fenceFull c 0 0 0) s = done (t.updCore c fun x => Core.after { x.begun with dcache := [], unacked := [], fenced := 0 } 4) := by
  have dropped : ((t.updCore c Core.begun).dropCache c).allAcked c = true := (State.allAcked_dropCache ..).trans hall
  show execFenceFull c 0 0 0 s = _
  refine fence_next (g := fun x => { x with dcache := [], unacked := [], fenced := 0 }) h rfl ?_ (fun _ => rfl) fun _ => rfl
  rw [if_pos hall, State.acked_of_allAcked dropped, State.dropCache]
  simp

theorem isync_next (h : s.Ready c (.isync c 0 0 0) t) (hall : (t.updCore c Core.begun).allAcked c = true) :
    exec (.isync c 0 0 0) s =
      done (t.updCore c fun x => Core.after { x.begun with unacked := [], fenced := 0, descs := [], icache := [] } 4) := by
  show execIsync c 0 0 0 s = _
  refine fence_next (g := fun x => { x with unacked := [], fenced := 0, descs := [], icache := [] }) h rfl ?_ (fun _ => rfl) fun _ => rfl
  rw [if_pos hall, State.acked_of_allAcked hall]
  simp

/-- FENCE.ENG goes on once every earlier access and gang operation is over, too. -/
theorem fenceEng_next (h : s.Ready c (.fenceEng c 0 0 0) t) (hall : (t.updCore c Core.begun).allAcked c = true)
    (hquiet : (t.updCore c Core.begun).engQuiet c = true) :
    exec (.fenceEng c 0 0 0) s = done (t.updCore c fun x => Core.after { x.begun with unacked := [], fenced := 0 } 4) := by
  show execFenceEng c 0 0 0 s = _
  refine fence_next (g := fun x => { x with unacked := [], fenced := 0 }) h rfl ?_ (fun _ => rfl) fun _ => rfl
  rw [if_pos hquiet, State.acked_of_allAcked hall]

theorem fenceFull_wait (h : s.Ready c (.fenceFull c 0 0 0) t) (hout : ¬(t.updCore c Core.begun).allAcked c = true) :
    exec (.fenceFull c 0 0 0) s = done (t.updCore c Core.undone) := by
  show execFenceFull c 0 0 0 s = _
  exact fence_wait h rfl (if_neg hout)

theorem isync_wait (h : s.Ready c (.isync c 0 0 0) t) (hout : ¬(t.updCore c Core.begun).allAcked c = true) :
    exec (.isync c 0 0 0) s = done (t.updCore c Core.undone) := by
  show execIsync c 0 0 0 s = _
  exact fence_wait h rfl (if_neg hout)

theorem fenceEng_wait (h : s.Ready c (.fenceEng c 0 0 0) t) (hbusy : ¬(t.updCore c Core.begun).engQuiet c = true) :
    exec (.fenceEng c 0 0 0) s = done (t.updCore c Core.undone) := by
  show execFenceEng c 0 0 0 s = _
  exact fence_wait h rfl (if_neg hbusy)

/-- No core is quiet while a store is out. -/
theorem State.engQuiet_eq_false {s : State} {c : CoreId} (h : s.allAcked c = false) : s.engQuiet c = false := by
  simp [State.engQuiet, State.accessesDone, h]

/-- Settles O10: LD.ACQ and ST.REL as `ldAcq_ready` and `stRel_ready` say, and the fences as `fence_next` and `fence_wait` do. -/
theorem orderingInstructions : Obligations.OrderingInstructions := by
  unfold Obligations.OrderingInstructions
  constructor
  · intro s t u c gt ga sg ctl ps hctl n o
    exact ⟨fun v bs h hacc hload => ldAcq_ready h hctl hacc hload,
      fun v h hacc hall hstore hslot hdue => stRel_ready h hctl hacc hall hstore hslot hdue⟩
  · intro s t c b
    refine ⟨fenceLl_next, fenceSs_next, fun hall => ⟨fun h => fenceFull_next h hall, fun h => isync_next h hall,
      fun h hquiet => fenceEng_next h hall hquiet⟩, fun hout => ?_⟩
    have stuck : ¬ b.allAcked c = true := by simp [hout]
    have busy : ¬ b.engQuiet c = true := by simp [State.engQuiet_eq_false hout]
    simp only [List.forall_mem_cons, List.not_mem_nil, false_imp_iff, implies_true, and_true]
    exact ⟨fun h => fenceFull_wait h stuck, fun h => isync_wait h stuck, fun h => fenceEng_wait h busy⟩

end Fences

/-! ### Atomics (R59, R60) -/

/-- Instruction mk replaces the value at its home by f of gd's value, the old one and gb's, and writes the old one to gd. -/
def AtomicallyReplaces (mk : CoreId → Greg → Greg → Greg → Sreg → BitVec 2 → Bool → Instr)
    (f : (n : Nat) → BitVec n → BitVec n → BitVec n → BitVec n) : Prop :=
  ∀ (s t u v : State) (c : CoreId) (gd ga gb : Greg) (sg : Sreg) (ord : BitVec 2) (dw : Bool) (pc : Piece) (old : Nat),
    s.Ready c (mk c gd ga gb sg ord dw) t →
    let n := if dw then 8 else 4
    let x := t.core c
    (t.updCore c Core.begun).alignedAccess c sg .atomic (x.gread ga) n = (.ok [pc], u) →
    (ord.getLsbD 1 = true → u.allAcked c = true) →
    let u1 := if ord.getLsbD 0 then u.dropCache c else u
    let u2 := if ord.getLsbD 1 then u1.acked c else u1
    u2.atomicAt c pc (fun o => (f (8 * n) ((x.gread gd).setWidth (8 * n)) (BitVec.ofNat (8 * n) o) ((x.gread gb).setWidth (8 * n))).toNat)
      = (.ok old, v) →
    exec (mk c gd ga gb sg ord dw) s =
      .next (State.settle (v.updCore c fun y => (y.gwrite gd (loadValue true (toBytes n old))).after 4))

/-- The state in which an atomic reaches its home: an acquiring one with the data cache invalidated, a releasing one with its core's stores
acknowledged. -/
def State.ordered (s : State) (c : CoreId) (ord : BitVec 2) : State :=
  let s1 := if bit ord 0 then s.dropCache c else s
  if bit ord 1 then s1.acked c else s1

theorem State.ordered_slot (s : State) (c : CoreId) (ord : BitVec 2) : ((s.ordered c ord).core c).slot = (s.core c).slot := by
  have drop := (s.keeps_dropCache c).slot c
  unfold State.ordered
  cases bit ord 0 <;> cases bit ord 1 <;> simp [State.acked_slot, drop]

theorem State.ordered_stepDue (s : State) (c : CoreId) (ord : BitVec 2) : ((s.ordered c ord).core c).stepDue = (s.core c).stepDue := by
  have drop := (s.keeps_dropCache c).stepDue c
  unfold State.ordered
  cases bit ord 0 <;> cases bit ord 1 <;> simp [State.acked_stepDue, drop]

theorem atomicallyReplaces {mk : CoreId → Greg → Greg → Greg → Sreg → BitVec 2 → Bool → Instr}
    {f : (n : Nat) → BitVec n → BitVec n → BitVec n → BitVec n} {op code : Nat} {cas : Bool}
    (hx : ∀ c gd ga gb sg ord dw s, exec (mk c gd ga gb sg ord dw) s = atomic c op code gd ga gb sg ord dw cas f s)
    (hw : ∀ c gd ga gb sg ord dw, insnWords (mk c gd ga gb sg ord dw) = some (wordX op gd ga gb sg (ord.toNat * 8 + 4 * b2n dw + code), 0)) :
    AtomicallyReplaces mk f := by
  intro s t u v c gd ga gb sg ord dw pc old h n x hacc hord u1 u2 hat
  have hacc : (t.updCore c Core.begun).alignedAccess c sg .atomic ((t.core c).gread ga) (if dw then 8 else 4) = (.ok [pc], u) := hacc
  have hat : (u.ordered c ord).atomicAt c pc (fun o => (f (8 * if dw then 8 else 4) (((t.core c).gread gd).setWidth _)
      (BitVec.ofNat _ o) (((t.core c).gread gb).setWidth _)).toNat) = (.ok old, v) := hat
  have hu : (t.updCore c Core.begun).Keeps u := .of hacc (State.keeps_alignedAccess ..)
  have hv : (u.ordered c ord).KeepsCores v := .of hat (State.keepsCores_atomicAt ..)
  have hslot : ((v.setG c gd (loadValue true (toBytes n old))).core c).slot = none := by
    rw [State.setG, State.core_updCore_self, Core.gwrite_slot, hv.slot, u.ordered_slot, hu.slot, State.core_updCore_self]
    exact h.2.1
  have hdue : ((v.setG c gd (loadValue true (toBytes n old))).core c).stepDue = false := by
    rw [State.setG, State.core_updCore_self, Core.gwrite_stepDue, hv.stepDue, u.ordered_stepDue, hu.stepDue, State.core_updCore_self]
    exact h.2.2.2
  have held : (bit ord 1 && !u.allAcked c) = false := by
    cases e : bit ord 1
    · rfl
    · simp [hord e]
  rw [hx]
  unfold atomic
  rw [runInsn_done (u := v.setG c gd (loadValue true (toBytes n old))) (h.1.words (hw ..)) h.2 (h.early rfl rfl rfl) ?_ hslot hdue]
  · simp [done]
  · simp only [State.greg, State.core_updCore_self, Core.gread_begun, hacc, onRes, held, List.headD_cons, Bool.false_eq_true, if_false]
    simp only [State.ordered] at hat
    rw [hat]

/-- Settles O11: every atomic replaces in the shared shape (`atomicallyReplaces`); what it does at a plain home is `State.atomicAt_plain`. -/
theorem atomicsComplete : Obligations.AtomicsComplete := by
  unfold Obligations.AtomicsComplete
  refine ⟨fun p hp => (?_ : AtomicallyReplaces p.1 p.2), fun s c p f hcheck hplain hbusy hrsp hpoison htime hskim hwork =>
    State.atomicAt_plain f hcheck hplain hbusy hrsp hpoison htime hskim (State.workByte_eq_false hwork)⟩
  revert p
  simp only [List.forall_mem_cons, List.not_mem_nil, false_imp_iff, implies_true, and_true]
  simp only [← ite_slt, ← ite_ult]
  exact ⟨
    atomicallyReplaces (fun _ _ _ _ _ _ _ _ => rfl) (fun _ _ _ _ _ _ _ => rfl),
    atomicallyReplaces (fun _ _ _ _ _ _ _ _ => rfl) (fun _ _ _ _ _ _ _ => rfl),
    atomicallyReplaces (fun _ _ _ _ _ _ _ _ => rfl) (fun _ _ _ _ _ _ _ => rfl),
    atomicallyReplaces (fun _ _ _ _ _ _ _ _ => rfl) (fun _ _ _ _ _ _ _ => rfl),
    atomicallyReplaces (fun _ _ _ _ _ _ _ _ => rfl) (fun _ _ _ _ _ _ _ => rfl),
    atomicallyReplaces (fun _ _ _ _ _ _ _ _ => rfl) (fun _ _ _ _ _ _ _ => rfl),
    atomicallyReplaces (fun _ _ _ _ _ _ _ _ => rfl) (fun _ _ _ _ _ _ _ => rfl),
    atomicallyReplaces (fun _ _ _ _ _ _ _ _ => rfl) (fun _ _ _ _ _ _ _ => rfl),
    atomicallyReplaces (fun _ _ _ _ _ _ _ _ => rfl) (fun _ _ _ _ _ _ _ => rfl),
    atomicallyReplaces (fun _ _ _ _ _ _ _ _ => rfl) (fun _ _ _ _ _ _ _ => rfl)⟩

end Sys2Proof.Machine

/-! SUPPORT. Branches, jumps, calls and loops: the delay slot opened and closed, and the exceptions of transfers (R37–R39, R46). -/

namespace Sys2Proof.Machine

open Sys2Proof

/-! ### The slot opened (R37, R38) -/

/-- A control transfer outside a delay slot that ends no active loop opens its slot. -/
theorem xfer_opens {c : CoreId} {i : Instr} {word : Nat} {reads : List Greg} {noEnd : Bool} {body : State → Body} {s t : State} {a : XferAct}
    (h : s.Fetches c i t) (hw : insnWords i = some (word, 0)) (hslot : (t.core c).slot = none) (hend : (t.core c).notLoopEnd)
    (hb : body (t.updCore c Core.begun) = .xfer (t.updCore c Core.begun) a) :
    runInsn c { word, xfer := true, noEnd, reads } body s = done (t.updCore c fun y => y.begun.opened (t.core c) a reads) := by
  rw [runInsn_xfer (h.words hw) (Insn.early_eq_none (.inr hslot) rfl (.inr hend)) hb, State.core_updCore_self]
  simp only [State.updCore, State.setCore_setCore]
  rfl

/-- Branch mk goes to its displacement where its condition holds of its registers, and else past its slot. -/
def Branches (mk : CoreId → Greg → Greg → BitVec 14 → Instr) (taken : Word → Word → Bool) : Prop :=
  ∀ (s t : State) (c : CoreId) (ga gb : Greg) (disp : BitVec 14), s.Fetches c (mk c ga gb disp) t → (t.core c).slot = none →
    (t.core c).notLoopEnd → exec (mk c ga gb disp) s = .next (State.settle (t.updCore c fun y => y.begun.opened (t.core c)
      (.go (if taken ((t.core c).gread ga) ((t.core c).gread gb) then (t.core c).ip + (disp.signExtend 64 <<< 2) else (t.core c).ip + 8) none)
      [ga, gb]))

theorem branches {mk : CoreId → Greg → Greg → BitVec 14 → Instr} {taken : Word → Word → Bool} {op : Nat}
    (hx : ∀ c ga gb disp s, exec (mk c ga gb disp) s = branch c op ga gb disp taken s)
    (hw : ∀ c ga gb disp, insnWords (mk c ga gb disp) = some (wordB op ga gb disp, 0)) : Branches mk taken := by
  intro s t c ga gb disp h hslot hend
  rw [hx]
  refine xfer_opens h (hw ..) hslot hend ?_
  simp only [State.greg, State.core_updCore_self, Core.gread_begun]
  rfl

theorem bne_eq_decide (a b : Word) : (a != b) = decide (a ≠ b) := by
  by_cases h : a = b <;> simp [h]

theorem not_slt_eq_decide (a b : Word) : (!a.slt b) = decide (b.toInt ≤ a.toInt) := by
  rw [BitVec.slt, ← decide_not, decide_eq_decide, not_lt]

theorem not_ult_eq_decide (a b : Word) : (!a.ult b) = decide (b.toNat ≤ a.toNat) := by
  rw [BitVec.ult, ← decide_not, decide_eq_decide, not_lt]

/-! ### The slot closed (R38, R104, R105) -/

theorem Core.setSg_stepDue (x : Core) (n : Nat) (g : SegReg) : (x.setSg n g).stepDue = x.stepDue := rfl

/-- A transfer made leaves single step as it was. -/
theorem State.slotDone_stepDue (s : State) (c : CoreId) (a : XferAct) : ((s.slotDone c a).core c).stepDue = (s.core c).stepDue := by
  cases a with
  | go next link =>
    cases link with
    | none => simp only [State.slotDone, State.core_updCore_self]
    | some v => simp only [State.slotDone, State.core_updCore_self, Core.gwrite_stepDue]
  | callg parts record rec next cs ss ring =>
    have post := (s.postStore_own c 2 rec parts (bytesOf record)).stepDue
    simp only [State.slotDone, State.core_updCore_self, Core.setSg_stepDue, Core.gwrite_stepDue, post]
  | retg next g62 cs ss ring im =>
    simp only [State.slotDone, State.core_updCore_self, Core.setSg_stepDue, Core.gwrite_stepDue]

/-- An instruction in a delay slot retires, and the transfer is made, once nothing holds back a CALLG's record. -/
theorem runInsn_slot {c : CoreId} {i : Insn} {body : State → Body} {s t u : State} {sl : Slot} (h : s.FetchesWords c (i.word, i.word2) t)
    (hs : (t.core c).slot = some sl) (he : i.early (t.core c) = none) (hb : body (t.updCore c Core.begun) = .next u)
    (hsl : (u.core c).slot = some sl) (hdue : (u.core c).stepDue = false) (hheld : u.slotHeld c = false) :
    runInsn c i body s = done ((u.setCore c (u.core c).slotRetired).slotDone c sl.act) := by
  have retired : u.retire c i.size = (u.setCore c (u.core c).slotRetired).slotDone c sl.act := by
    simp only [State.retire, State.core_updCore_self, Core.ageShadows, hsl]
    simp only [State.updCore, State.core_setCore_self, State.setCore_setCore]
    rfl
  have quiet : (((u.setCore c (u.core c).slotRetired).slotDone c sl.act).core c).stepDue = false := by
    rw [State.slotDone_stepDue, State.core_setCore_self]
    exact hdue
  rw [runInsn_finish h he, hb, finish, hheld, retired, hs]
  simp only [Option.isNone_some, Bool.and_false, Bool.false_eq_true, if_false, State.stepTrap_off _ _ quiet, orWait]

/-- What the obligation says of a transfer made: where execution goes on, and what a CALLG or RETG leaves in the core. -/
theorem State.slotDone_eq (u : State) (c : CoreId) (y : Core) (a : XferAct) :
    (u.setCore c y).slotDone c a = match a with
      | .go next none => u.setCore c { y with ip := next }
      | .go next (some v) => u.setCore c { y.gwrite 63 v with ip := next }
      | .callg parts record rec next cs ss ring => ((u.setCore c y).postStore c 2 rec parts (bytesOf record)).updCore c fun z =>
          let z := ((z.setSg 7 ss).gwrite 62 rec).setSg 0 cs
          { z with status := setBits z.status 1 0 ring, ip := next, msh := none }
      | .retg next g62 cs ss ring im => u.setCore c
          (let z := ((y.setSg 0 cs).setSg 7 ss).gwrite 62 g62
           { z with status := setBits (setBits z.status 1 0 ring) 2 2 (b2n im), ip := next, msh := none }) := by
  cases a with
  | go next link => cases link <;> simp [State.slotDone]
  | callg parts record rec next cs ss ring => rfl
  | retg next g62 cs ss ring im => simp [State.slotDone]

/-- A write of a general register touches the registers and their shadows alone. -/
theorem Core.gwrite_eq (x : Core) (g : Greg) (v : Word) : ∃ gpr lsh, x.gwrite g v = { x with gpr := gpr, lsh := lsh } := by
  unfold Core.gwrite
  split
  · exact ⟨x.gpr, x.lsh, rfl⟩
  · exact ⟨_, _, rfl⟩

/-- Nor does it change what a CALLG's record waits for (R82, R104, R169). -/
theorem State.slotHeld_gwrite (t : State) (c : CoreId) (g : Greg) (v : Word) :
    ((t.updCore c Core.begun).setG c g v).slotHeld c = t.slotHeld c := by
  obtain ⟨gpr, lsh, h⟩ := (t.core c).begun.gwrite_eq g v
  simp only [State.slotHeld, State.vecHolds, State.vqHolds, State.tqHolds, State.storeHeld, State.setG, State.core_updCore_self,
    State.ackOut_updCore, h]
  rfl

/-! ### Exceptions of transfers (R39) -/

/-- Instruction i of a core is a control transfer: in a delay slot it raises 0x01 with its word in INFO. -/
def FaultsInSlot (c : CoreId) (i : Instr) (reads : List Greg) (word : Nat) : Prop :=
  ∀ s t u : State, (t.core c).slot.isSome = true → s.Fetches c i t → t.except c reads ⟨0x01, word, 0⟩ = some u → exec i s = .next u.settle

/-- The exception of a control transfer in a delay slot comes in the state that its fetch left. -/
theorem transfer_early {c : CoreId} {i : Instr} {k : Insn} {body : State → Body} {s t u : State} (h : s.Fetches c i t)
    (hw : insnWords i = some (k.word, k.word2)) (hxfer : k.xfer = true) (hslot : (t.core c).slot.isSome = true)
    (hu : t.except c k.reads ⟨0x01, k.word, 0⟩ = some u) : runInsn c k body s = done u :=
  runInsn_early (h.words hw) (Insn.early_xfer hxfer hslot) hu

section Transfers

variable (c : CoreId) (g gd ga gb : Greg) (code : BitVec 12)

theorem branch_faultsInSlot {i : Instr} {op : Nat} {disp : BitVec 14} {taken : Word → Word → Bool}
    (hx : ∀ s, exec i s = branch c op ga gb disp taken s) (hw : insnWords i = some (wordB op ga gb disp, 0)) :
    FaultsInSlot c i [ga, gb] (wordB op ga gb disp) := by
  intro s t u hslot h hu
  rw [hx, branch]
  exact transfer_early h hw rfl hslot hu

theorem jump_faultsInSlot {i : Instr} {op : Nat} {disp : BitVec 26} {link : Bool} (hx : ∀ s, exec i s = jump c op disp link s)
    (hw : insnWords i = some (wordJ op disp, 0)) : FaultsInSlot c i [] (wordJ op disp) := by
  intro s t u hslot h hu
  rw [hx, jump]
  exact transfer_early h hw rfl hslot hu

theorem jumpReg_faultsInSlot {i : Instr} {fn : Nat} {link : Bool} (hx : ∀ s, exec i s = jumpReg c gd ga gb fn link s)
    (hw : insnWords i = some (wordA 0x2A gd ga gb fn, 0)) : FaultsInSlot c i [ga] (wordA 0x2A gd ga gb fn) := by
  intro s t u hslot h hu
  rw [hx, jumpReg]
  exact transfer_early h hw rfl hslot hu

theorem loop_faultsInSlot (n : BitVec 2) (disp : BitVec 18) : FaultsInSlot c (.loop c n ga disp) [ga] (wordL 0x2B n ga disp) := by
  intro s t u hslot h hu
  show execLoop c n ga disp s = done u
  rw [execLoop]
  exact transfer_early h rfl rfl hslot hu

theorem callg_faultsInSlot : FaultsInSlot c (.callg c g code) [62] (wordS g code 0x04) := by
  intro s t u hslot h hu
  show execCallg c g code s = done u
  rw [execCallg]
  exact transfer_early h rfl rfl hslot hu

theorem retg_faultsInSlot : FaultsInSlot c (.retg c g code) [62] (wordS g code 0x05) := by
  intro s t u hslot h hu
  show execRetg c g code s = done u
  rw [execRetg]
  exact transfer_early h rfl rfl hslot hu

theorem retx_faultsInSlot : FaultsInSlot c (.retx c g code) [62] (wordS g code 0x06) := by
  intro s t u hslot h hu
  show execRetx c g code s = done u
  rw [execRetx]
  exact transfer_early h rfl rfl hslot hu

theorem wfi_faultsInSlot : FaultsInSlot c (.wfi c g code) [] (wordS g code 0x08) := by
  intro s t u hslot h hu
  show execWfi c g code s = done u
  rw [execWfi]
  exact transfer_early h rfl rfl hslot hu

end Transfers

/-! ### The obligations -/

/-- The general clause of O12: what an instruction in a delay slot comes to, for each transfer. -/
theorem slotClause {o : Out} {u : State} {c : CoreId} {y : Core} {a : XferAct} : o = done ((u.setCore c y).slotDone c a) →
    match a with
    | .go next none => o = .next (State.settle (u.setCore c { y with ip := next }))
    | .go next (some v) => o = .next (State.settle (u.setCore c { y.gwrite 63 v with ip := next }))
    | .callg parts record rec next cs ss ring =>
      o = .next (State.settle (((u.setCore c y).postStore c 2 rec parts (bytesOf record)).updCore c fun z =>
        let z := ((z.setSg 7 ss).gwrite 62 rec).setSg 0 cs
        { z with status := setBits z.status 1 0 ring, ip := next, msh := none }))
    | .retg next g62 cs ss ring im => o = .next (State.settle (u.setCore c
        (let z := ((y.setSg 0 cs).setSg 7 ss).gwrite 62 g62
         { z with status := setBits (setBits z.status 1 0 ring) 2 2 (b2n im), ip := next, msh := none }))) := by
  rintro rfl
  cases a with
  | go next link => cases link <;> exact congrArg done (State.slotDone_eq ..)
  | callg parts record rec next cs ss ring => exact congrArg done (State.slotDone_eq ..)
  | retg next g62 cs ss ring im => exact congrArg done (State.slotDone_eq ..)

/-- ADDI in a delay slot (R35, R38). -/
theorem addi_slot {s t : State} {c : CoreId} {gd ga : Greg} {imm : BitVec 14} {sl : Slot} (h : s.Fetches c (.addi c gd ga imm) t)
    (hs : (t.core c).slot = some sl) (hdue : (t.core c).stepDue = false) (hend : (t.core c).notLoopEnd) (hheld : t.slotHeld c = false) :
    exec (.addi c gd ga imm) s =
      done ((t.setCore c ((t.core c).begun.gwrite gd ((t.core c).gread ga + imm.signExtend 64)).slotRetired).slotDone c sl.act) := by
  generalize hv : (t.core c).gread ga + imm.signExtend 64 = v
  have written : ((t.updCore c Core.begun).setG c gd v).core c = (t.core c).begun.gwrite gd v := by
    simp only [State.setG, State.core_updCore_self]
  have ran := runInsn_slot (i := { word := wordI 0x01 gd ga imm, reads := [ga] })
    (body := fun s => .next (s.setG c gd (s.greg c ga + sx imm))) (u := (t.updCore c Core.begun).setG c gd v) (h.words rfl) hs
    (Insn.early_eq_none (.inl rfl) rfl (.inr hend)) (by simp only [State.greg, State.core_updCore_self, Core.gread_begun, sx, hv])
    (by rw [written, Core.gwrite_slot]; exact hs) (by rw [written, Core.gwrite_stepDue]; exact hdue)
    (by rw [State.slotHeld_gwrite]; exact hheld)
  rw [written] at ran
  simp only [State.setG, State.updCore, State.setCore_setCore] at ran
  exact ran

/-- Settles O12: the table of branches and the four jumps in the shared shape of a transfer that opens its slot; an instruction in the slot
retires, and the transfer is made. -/
theorem transfersAndSlots : Obligations.TransfersAndSlots := by
  unfold Obligations.TransfersAndSlots
  refine ⟨fun s t c => ⟨fun p hp => ?_, fun disp => ⟨fun h hslot hend => ?_, fun h hslot hend => ?_⟩,
    fun gd ga gb => ⟨fun h hslot hend => ?_, fun h hslot hend => ?_⟩⟩, ?_, ?_⟩
  · have table : Branches p.1 p.2 := by
      revert p
      simp only [List.forall_mem_cons, List.not_mem_nil, false_imp_iff, implies_true, and_true]
      simp only [← not_slt_eq_decide, ← not_ult_eq_decide, ← bne_eq_decide]
      exact ⟨
        branches (fun _ _ _ _ _ => rfl) (fun _ _ _ _ => rfl),
        branches (fun _ _ _ _ _ => rfl) (fun _ _ _ _ => rfl),
        branches (fun _ _ _ _ _ => rfl) (fun _ _ _ _ => rfl),
        branches (fun _ _ _ _ _ => rfl) (fun _ _ _ _ => rfl),
        branches (fun _ _ _ _ _ => rfl) (fun _ _ _ _ => rfl),
        branches (fun _ _ _ _ _ => rfl) (fun _ _ _ _ => rfl)⟩
    exact fun ga gb disp => table s t c ga gb disp
  · show execJ c disp s = done _
    rw [execJ, jump]
    refine xfer_opens h rfl hslot hend ?_
    rw [State.core_updCore_self]
    rfl
  · show execCall c disp s = done _
    rw [execCall, jump]
    refine xfer_opens h rfl hslot hend ?_
    rw [State.core_updCore_self]
    rfl
  · show execJr c gd ga gb s = done _
    rw [execJr, jumpReg]
    refine xfer_opens h rfl hslot hend ?_
    simp only [State.greg, State.core_updCore_self, Core.gread_begun]
    rfl
  · show execCallr c gd ga gb s = done _
    rw [execCallr, jumpReg]
    refine xfer_opens h rfl hslot hend ?_
    simp only [State.greg, State.core_updCore_self, Core.gread_begun]
    rfl
  · intro s t u c i body sl h hs he hb hsl hdue hheld
    exact slotClause (runInsn_slot h hs he hb hsl hdue hheld)
  · intro s t c gd ga imm sl h hs _ hdue hend hheld
    exact slotClause (addi_slot h hs hdue hend hheld)

/-- Settles O13: each exception comes before the instruction's own work, but for BRK's, which is its work. -/
theorem exceptionsTaken : Obligations.ExceptionsTaken := by
  unfold Obligations.ExceptionsTaken
  refine ⟨fun s t u c g gd ga gb d14 d26 n d18 code hslot => ?_, fun s t u c g creg h => ⟨fun r hr hring hu => ?_, fun hr hu => ?_⟩,
    fun s t u c g code h hend hu => ?_⟩
  · intro p hp
    suffices row : FaultsInSlot c p.1 p.2.1 p.2.2 from row s t u hslot
    clear hslot
    revert p
    simp only [List.forall_mem_cons, List.not_mem_nil, false_imp_iff, implies_true, and_true]
    exact ⟨
      branch_faultsInSlot c ga gb (fun s => show execBeq c ga gb d14 s = _ from rfl) rfl,
      branch_faultsInSlot c ga gb (fun s => show execBne c ga gb d14 s = _ from rfl) rfl,
      branch_faultsInSlot c ga gb (fun s => show execBlt c ga gb d14 s = _ from rfl) rfl,
      branch_faultsInSlot c ga gb (fun s => show execBge c ga gb d14 s = _ from rfl) rfl,
      branch_faultsInSlot c ga gb (fun s => show execBltu c ga gb d14 s = _ from rfl) rfl,
      branch_faultsInSlot c ga gb (fun s => show execBgeu c ga gb d14 s = _ from rfl) rfl,
      jump_faultsInSlot c (fun s => show execJ c d26 s = _ from rfl) rfl,
      jump_faultsInSlot c (fun s => show execCall c d26 s = _ from rfl) rfl,
      jumpReg_faultsInSlot c gd ga gb (fun s => show execJr c gd ga gb s = _ from rfl) rfl,
      jumpReg_faultsInSlot c gd ga gb (fun s => show execCallr c gd ga gb s = _ from rfl) rfl,
      loop_faultsInSlot c ga n d18,
      callg_faultsInSlot c g code,
      retg_faultsInSlot c g code,
      retx_faultsInSlot c g code,
      wfi_faultsInSlot c g code⟩
  · show movcWrite c g creg s = done _
    rw [movcWrite]
    refine runInsn_early (h.words rfl) (Insn.early_illegal (.inl rfl) ?_) hu
    simp only [hr, hring, if_true]
  · show movcWrite c g creg s = done _
    rw [movcWrite]
    refine runInsn_early (h.words rfl) (Insn.early_illegal (.inl rfl) ?_) hu
    simp only [hr]
  · show execBrk c g code s = done _
    refine runInsn_exc (h.words rfl) (Insn.early_eq_none (.inl rfl) rfl (hend.imp_left fun hs => ⟨rfl, rfl, hs⟩)) rfl ?_
    rw [State.undone_of_begun]
    exact hu

/-- Settles O14: the good form sets up its level and goes on at the body or after it; each bad form raises 0x01 before its own work. -/
theorem loopSetsLevel : Obligations.LoopSetsLevel := by
  unfold Obligations.LoopSetsLevel
  refine ⟨fun s t c n gc disp h hend hn hdisp => ?_, fun s t u c n gc disp h hbad hu => ?_⟩
  · show execLoop c n gc disp s = done _
    have good : ¬(n = 3 ∨ disp = 0) := not_or.mpr ⟨hn, hdisp⟩
    refine (runInsn_jump (h.1.words rfl) h.2 (Insn.early_eq_none (.inr h.2.1) (if_neg good) (.inr hend)) rfl ?_).trans ?_
    · rw [State.core_updCore_self, State.core_setCore_self]
      exact h.2.2.2
    · simp only [State.core_setCore_self, State.greg, State.updCore, State.setCore_setCore, Core.gread_begun]
      rfl
  · show execLoop c n gc disp s = done _
    refine runInsn_early (h.words rfl) ?_ hu
    by_cases hslot : (t.core c).slot.isSome = true
    · exact Insn.early_xfer rfl hslot
    · exact Insn.early_illegal (.inr (by simpa using hslot)) (if_pos (hbad.resolve_left hslot))

end Sys2Proof.Machine

/-! SUPPORT. Control and segment registers, WFI and the events that reach a core (R62, R63, R97, R111, R112). -/

namespace Sys2Proof.Machine

open Sys2Proof

/-! ### What choosing an event reads (R102, R112) -/

theorem State.keeps_descriptor (s : State) (c : CoreId) (t i pa n : Nat) : s.Keeps (s.descriptor c t i pa n).2 := by
  unfold State.descriptor
  extract_lets hit use
  have huse : s.Keeps use.2 := by
    unfold use
    split
    · exact s.keeps_freeBool
    · exact .refl s
  obtain ⟨b, s1⟩ := use
  have h1 : s.Keeps s1 := huse
  clear_value hit
  split
  next e => exact .of e huse
  next s2 _ e =>
    cases e
    split
    · exact h1
    · have hw := s1.keeps_readWords (reqOf c) pa n
      split
      next e => exact (h1.trans (.of e hw)).trans (State.keeps_setCore rfl)
      next e => exact (h1.trans (.of e hw)).trans (State.keeps_poisonUsed ..)
      next => exact h1.trans hw

theorem State.keeps_chooseEvent (s : State) (c : CoreId) (ring : Nat) (l : List Event) : s.Keeps (s.chooseEvent c ring l).2 := by
  induction l generalizing s with
  | nil => exact .refl s
  | cons e es ih =>
    have h := s.keeps_descriptor c 0 e.entry.vec (bits (s.core c).hdtb 47 13 * 2 ^ 13 + 32 * e.entry.vec) 4
    unfold State.chooseEvent
    split
    next e => exact .of e h
    next s1 e =>
      have h1 : s.Keeps s1 := .of e h
      split
      · exact h1
      · exact h1.trans (ih s1)
    next e => exact .of e h

theorem State.keeps_mchkNow (s : State) (c : CoreId) : s.Keeps (s.mchkNow c).2 := by
  unfold State.mchkNow
  dsimp only
  split
  · have h := s.keeps_chooseEvent c (s.core c).ring ((s.core c).events.filter fun e => e.entry.vec == 0x0F)
    split
    next e => exact .of e h
    next e => exact .of e h
  · exact .refl s

/-! ### Writes of control registers (R63) -/

/-- A write of a control register leaves the delay slot and single step alone. -/
theorem Core.writeCreg_frame (x : Core) (n : Nat) (v : Word) : (x.writeCreg n v).slot = x.slot ∧ (x.writeCreg n v).stepDue = x.stepDue := by
  have vtype : (x.writeVtype v).slot = x.slot ∧ (x.writeVtype v).stepDue = x.stepDue := by
    unfold Core.writeVtype
    split <;> exact ⟨rfl, rfl⟩
  unfold Core.writeCreg
  split
  case h_13 => exact vtype
  case h_15 => split <;> [skip; split] <;> exact ⟨rfl, rfl⟩
  all_goals exact ⟨rfl, rfl⟩

/-- A write of a tile's configuration leaves them alone too. -/
theorem State.writeTcfg_frame (s : State) (c : CoreId) (n : Nat) (v : Word) :
    ((s.writeTcfg c n v).core c).slot = (s.core c).slot ∧ ((s.writeTcfg c n v).core c).stepDue = (s.core c).stepDue := by
  have own : (s.writeTcfg c n v).core c = (s.updCore c fun x => { x with tcfg := put (fun _ => 0) x.tcfg n (tcfgWritten n v) }).core c := rfl
  rw [own, State.core_updCore_self]
  exact ⟨rfl, rfl⟩

/-- Instruction i of a core writes control register n with the value of g, once nothing it waits for is left. -/
def WritesCreg (s t : State) (c : CoreId) (g : Greg) (i : Instr) (n : Nat) : Prop :=
  s.Ready c i t → (t.core c).begun.cregWaits n true = false → exec i s = .next (State.settle
    (if 0x020 ≤ n ∧ n < 0x028 then
      let k := (t.updCore c Core.begun).mchkNow c
      if k.1 then k.2.updCore c fun x => { x with msh := (t.core c).msh, oldMode := none }
      else (k.2.writeTcfg c (n - 0x020) ((t.core c).gread g)).updCore c fun x => x.after 4
    else t.updCore c fun x => (x.begun.writeCreg n (x.gread g)).after 4))

/-- A row of the MOVC.W group writes its register where the ring may. -/
theorem writesCreg {s t : State} {c : CoreId} {g : Greg} {creg : BitVec 12} {i : Instr} {r : Nat × Nat}
    (hr : cregRings (isSystem c) creg.toNat = some r) (hring : (t.core c).ring ≤ r.2) (hx : ∀ s, exec i s = movcWrite c g creg s)
    (hw : insnWords i = some (wordS g creg 0x01, 0)) : WritesCreg s t c g i creg.toNat := by
  intro h hwait
  rw [hx, movcWrite]
  have here : (t.updCore c Core.begun).core c = (t.core c).begun := State.core_updCore_self ..
  by_cases htile : 0x020 ≤ creg.toNat ∧ creg.toNat < 0x028
  · rw [if_pos htile]
    have kept : (t.updCore c Core.begun).Keeps ((t.updCore c Core.begun).mchkNow c).2 := State.keeps_mchkNow ..
    by_cases hk : ((t.updCore c Core.begun).mchkNow c).1 = true
    · simp only [if_pos hk]
      refine runInsn_wait (h.1.words hw) (h.early rfl rfl ?_) ?_
      · simp only [hr, Nat.not_lt.mpr hring, if_false]
      · simp only [here, hwait, htile, hk, Bool.false_eq_true, and_self, if_true, if_false]
    · simp only [if_neg hk]
      obtain ⟨slot, stepDue⟩ := ((t.updCore c Core.begun).mchkNow c).2.writeTcfg_frame c (creg.toNat - 0x020) ((t.core c).gread g)
      refine runInsn_done (h.1.words hw) h.2 (h.early rfl rfl ?_) ?_ ?_ ?_
      · simp only [hr, Nat.not_lt.mpr hring, if_false]
      · simp only [here, hwait, htile, hk, Bool.false_eq_true, and_self, if_true, if_false, Core.gread_begun]
      · rw [slot, kept.slot, here]
        exact h.2.1
      · rw [stepDue, kept.stepDue, here]
        exact h.2.2.2
  · simp only [if_neg htile]
    obtain ⟨slot, stepDue⟩ := (t.core c).begun.writeCreg_frame creg.toNat ((t.core c).gread g)
    refine runInsn_upd (f := fun x => x.writeCreg creg.toNat ((t.core c).gread g)) (h.1.words hw) h.2 (h.early rfl rfl ?_) ?_ slot stepDue
    · simp only [hr, Nat.not_lt.mpr hring, if_false]
    · simp only [here, hwait, Bool.false_eq_true, if_false, Core.gread_begun]

/-! ### Events (R62, R111) -/

/-- An interrupt whose vector is not pending becomes pending after the others (R111). -/
theorem State.pendIrq_new {s : State} {c : CoreId} {vec : Nat} (die : Nat) (h : ((s.core c).irq.find? fun p => p.vec == vec) = none) :
    s.pendIrq c vec die = s.updCore c fun x => { x with irq := x.irq ++ [({ vec, die } : IrqPend)] } := by
  unfold State.pendIrq
  rw [h]

/-- WFI at a ring that may wait passes the checks before its own work (R62). -/
theorem wfi_early {s t : State} {c : CoreId} {i : Instr} {k : Insn} (h : s.Ready c i t) (hring : (t.core c).ring ≤ 1) (hsize : k.size = 4)
    (hno : k.noEnd = false) (hill : k.illegal (t.core c) = if 1 < (t.core c).ring then some 0x02 else none) : k.early (t.core c) = none :=
  h.early hsize hno (hill.trans (if_neg (Nat.not_lt.mpr hring)))

/-! ### The obligations -/

/-- Settles O15: MOVC.R and MOVSG.R write one general register, the rows of MOVC.W are one move into the control register they name, and
MOVSG sets the segment register its checks have loaded. -/
theorem controlAndSegmentMoves : Obligations.ControlAndSegmentMoves := by
  unfold Obligations.ControlAndSegmentMoves
  refine ⟨fun s t c g creg r hr => ⟨fun h hring hwait => ?_, fun hring => ?_⟩, fun s t c g code =>
    ⟨fun u sg h hload hslot hdue => ?_, fun h => ?_⟩⟩
  · show execMovcR c g creg s = done _
    rw [execMovcR]
    refine runInsn_gwrite (fun x => x.begun.readCreg creg.toNat) (h.1.words rfl) h.2 (h.early rfl rfl ?_) ?_
    · simp only [hr, Nat.not_lt.mpr hring, if_false]
    · simp only [State.core_updCore_self, hwait, Bool.false_eq_true, if_false]
  · exact ⟨
      writesCreg hr hring (fun s => show execMovcW c g creg s = _ from rfl) rfl,
      writesCreg hr hring (fun s => show execTableBaseWrite c g creg s = _ from rfl) rfl,
      writesCreg hr hring (fun s => show execLoopRegWrite c g creg s = _ from rfl) rfl,
      writesCreg hr hring (fun s => show execTcfgWrite c g creg s = _ from rfl) rfl,
      fun e => writesCreg (creg := 0x000) (i := .statusWrite c g) (e ▸ hr) hring (fun s => show execStatusWrite c g s = _ from rfl) rfl,
      fun e => writesCreg (creg := 0x013) (i := .ptbWrite c g) (e ▸ hr) hring (fun s => show execPtbWrite c g s = _ from rfl) rfl,
      fun e => writesCreg (creg := 0x030) (i := .vlWrite c g) (e ▸ hr) hring (fun s => show execVlWrite c g s = _ from rfl) rfl,
      fun e => writesCreg (creg := 0x031) (i := .vtypeWrite c g) (e ▸ hr) hring (fun s => show execVtypeWrite c g s = _ from rfl) rfl,
      fun e => writesCreg (creg := 0x032) (i := .fpflagsWrite c g) (e ▸ hr) hring (fun s => show execFpflagsWrite c g s = _ from rfl) rfl⟩
  · show execMovsg c g code s = done _
    rw [execMovsg]
    refine (runInsn_done (h.1.words rfl) h.2 (h.early rfl rfl rfl) (u := u.updCore c fun x =>
      { x.setSg (bits code 10 8) sg with msh := if bits code 10 8 = 0 then some { sg0 := x.sgOf 0, im := x.im } else none }) ?_ ?_ ?_).trans ?_
    · simp only [State.core_updCore_self, Core.gread_begun]
      rw [show (t.core c).begun.ring = (t.core c).ring from rfl, hload]
    · rw [State.core_updCore_self]
      exact hslot
    · rw [State.core_updCore_self]
      exact hdue
    · simp only [State.updCore, State.core_setCore_self, State.setCore_setCore]
  · show execMovsgR c g code s = done _
    rw [execMovsgR]
    refine runInsn_gwrite (fun x => (x.sgOf (bits code 10 8)).sel.setWidth 64) (h.1.words rfl) h.2 (h.early rfl rfl rfl) ?_
    rw [State.core_updCore_self]
    rfl

/-- Settles O18: WFI goes on or waits by whether an event is pending; a delivery appends to the core's interrupts; and an acceptance at a
boundary enters the handler of the event chosen. -/
theorem interruptsArrive : Obligations.InterruptsArrive := by
  unfold Obligations.InterruptsArrive
  refine ⟨fun s t c g code h hring => ⟨fun hev => ?_, fun hev => ?_⟩, fun s c vec die hflight hstop hdown hbusy hirq => ?_, ?_⟩
  · show execWfi c g code s = done _
    rw [execWfi]
    refine runInsn_upd (f := id) (h.1.words rfl) h.2 (wfi_early h hring rfl rfl rfl) ?_ rfl rfl
    rw [State.core_updCore_self, if_pos (show (t.core c).begun.eventPending = true from hev)]
    simp
  · show execWfi c g code s = done _
    rw [execWfi]
    refine (runInsn_wait (h.1.words rfl) (wfi_early h hring rfl rfl rfl) (u := (t.updCore c Core.begun).updCore c fun x => { x with wfi := true })
      ?_).trans ?_
    · rw [State.core_updCore_self, if_neg (by rw [show (t.core c).begun.eventPending = false from hev]; exact Bool.false_ne_true)]
    · simp only [State.updCore, State.core_setCore_self, State.setCore_setCore]
      rfl
  · show execInterruptDelivery c vec die s = done _
    have pend := State.pendIrq_new (s := { s with flight := s.flight.erase { core := c.val, vec := vec.toNat, die := die.val } }) die.val hirq
    simp only [execInterruptDelivery, hflight, hstop, hdown, hbusy, pend, ne_eq, not_true_eq_false, Bool.false_eq_true, if_false]
  · intro s t u c e ws hruns hwfi hset him hent hiss hpass hbound hch hu
    show execEventAccept c s = done _
    have awake : s.wake c = some s := by simp only [State.wake, hwfi, Bool.false_and, Bool.false_eq_true, if_false]
    have context : (s.core c).eventContext = some (s.core c, { epc := (s.core c).ip, shadow := (s.core c).lsh.head? }) := by
      simp only [Core.eventContext, hpass, hbound, if_true]
    simp only [execEventAccept, hruns, awake, hset, him, hent, hiss, context, hch, hpass, Bool.not_true, Bool.or_self, Bool.false_eq_true,
      if_false, hu, Option.map_some, orWait]

end Sys2Proof.Machine

/-! SUPPORT. Gates, handler entry and RETX: the slot of CALLG and RETG opened, the frame of a handler in memory, the mode of a core in its
handler (R103–R105, R113, R114, R116–R118, R121). -/

namespace Sys2Proof.Machine

open Sys2Proof

/-! ### Fields of a status word -/

/-- A field of a word, bit by bit. -/
theorem testBit_bits (w : Word) (hi lo i : Nat) : (bits w hi lo).testBit i = (decide (i < hi + 1 - lo) && bit w (lo + i)) := by
  rw [bits, Nat.testBit_mod_two_pow, Nat.testBit_shiftRight]
  rfl

/-- A field that has been replaced by a field of its width. -/
theorem bits_setBits_self (w d : Word) {hi lo hi' lo' : Nat} (h : lo ≤ hi) (hw : hi < 64) (hwidth : hi' + 1 - lo' = hi + 1 - lo) :
    bits (setBits w hi lo (bits d hi' lo')) hi lo = bits d hi' lo' := by
  refine Nat.eq_of_testBit_eq fun i => ?_
  by_cases hi : i < hi + 1 - lo
  · rw [testBit_bits, bit_setBits _ _ h (by omega), if_pos (by omega), Nat.add_sub_cancel_left, decide_eq_true hi, Bool.true_and]
  · rw [testBit_bits, testBit_bits, hwidth, decide_eq_false hi, Bool.false_and, Bool.false_and]

/-- A field below the one that has been replaced. -/
theorem bits_setBits_below (w : Word) {hi lo hi' lo' : Nat} (v : Nat) (h : lo ≤ hi) (hw : hi < 64) (hbelow : hi' < lo) :
    bits (setBits w hi lo v) hi' lo' = bits w hi' lo' := by
  refine Nat.eq_of_testBit_eq fun i => ?_
  rw [testBit_bits, testBit_bits]
  by_cases hi : i < hi' + 1 - lo'
  · rw [bit_setBits _ _ h (by omega), if_neg (by omega)]
  · rw [decide_eq_false hi, Bool.false_and, Bool.false_and]

/-- STATUS in a handler (R113): the descriptor's ring and IM, LP and SS 0. -/
def handlerStatus (w d2 : Word) : Word := setBits (setBits (setBits w 1 0 (bits d2 33 32)) 2 2 (b2n (bit d2 38))) 4 3 0

theorem handlerStatus_ring (w d2 : Word) : bits (handlerStatus w d2) 1 0 = bits d2 33 32 := by
  rw [handlerStatus, bits_setBits_below _ _ (by decide) (by decide) (by decide), bits_setBits_below _ _ (by decide) (by decide) (by decide),
    bits_setBits_self _ _ (by decide) (by decide) (by decide)]

theorem handlerStatus_im (w d2 : Word) : bit (handlerStatus w d2) 2 = bit d2 38 := by
  rw [handlerStatus, bit_setBits _ _ (by decide) (by decide), if_neg (by decide), bit_setBits _ _ (by decide) (by decide), if_pos (by decide)]
  cases bit d2 38 <;> rfl

/-- LP and SS, bits 3 and 4. -/
theorem handlerStatus_lp_ss (w d2 : Word) {b : Nat} (h : 3 ≤ b ∧ b ≤ 4) : bit (handlerStatus w d2) b = false := by
  rw [handlerStatus, bit_setBits _ _ (by decide) (by omega), if_pos h, Nat.zero_testBit]

/-! ### The slot of a gate's transfer opened (R103–R105) -/

section Gates

variable {c : CoreId} {g : Greg} {code : BitVec 12} {s t u v w : State} {cs ss : SegReg}

/-- A control transfer outside a delay slot that ends no active loop, whose own work has left state u, opens its slot there. -/
theorem xfer_opens_after {i : Instr} {word : Nat} {reads : List Greg} {noEnd : Bool} {body : State → Body} {a : XferAct}
    (h : s.Fetches c i t) (hw : insnWords i = some (word, 0)) (hslot : (t.core c).slot = none) (hend : (t.core c).notLoopEnd)
    (hb : body (t.updCore c Core.begun) = .xfer u a) :
    runInsn c { word, xfer := true, noEnd, reads } body s = done (u.updCore c fun y => y.opened (t.core c) a reads) :=
  runInsn_xfer (h.words hw) (Insn.early_eq_none (.inr hslot) rfl (.inr hend)) hb

/-- RETG whose record is read, returns no further in, and names segments that load (R105). -/
theorem retg_opens {ws : List Word} (h : s.Fetches c (.retg c g code) t) (hslot : (t.core c).slot = none) (hend : (t.core c).notLoopEnd)
    (hread : (t.updCore c Core.begun).readStack c ((t.core c).gread 62) 4 = (some (.ok ws), u))
    (hring : (t.core c).ring ≤ bits (ws.getD 3 0) 1 0)
    (hcs : u.segLoad c 0 (BitVec.ofNat 64 (bits (ws.getD 2 0) 15 0)) (bits (ws.getD 3 0) 1 0) = (.ok cs, v))
    (hss : v.segLoad c 7 (BitVec.ofNat 64 (bits (ws.getD 2 0) 31 16)) (bits (ws.getD 3 0) 1 0) = (.ok ss, w)) :
    exec (.retg c g code) s = done (w.updCore c fun y => y.opened (t.core c)
      (.retg (ws.getD 0 0 &&& ~~~(3 : Word)) (ws.getD 1 0) cs ss (bits (ws.getD 3 0) 1 0) (bit (ws.getD 3 0) 2)) [62]) := by
  show execRetg c g code s = _
  have ring : ¬ bits (ws.getD 3 0) 1 0 < (t.core c).begun.ring := Nat.not_lt.mpr hring
  rw [execRetg]
  refine xfer_opens_after h rfl hslot hend ?_
  simp only [State.core_updCore_self, Core.gread_begun, hread, ring, hcs, hss, if_false]

/-- CALLG through a gate that is there, that the ring may use and that leads no further out, whose segments load and whose record can be
stored (R103, R104): on the gate's stack where the ring changes. -/
theorem callg_opens {d0 d1 d2 d3 rec_ : Word} {ps : List Piece} {r : State} (h : s.Fetches c (.callg c g code) t)
    (hslot : (t.core c).slot = none) (hend : (t.core c).notLoopEnd) (hcode : code.toNat < min (bits (t.core c).gtb 12 0) 4096)
    (hgate : (t.updCore c Core.begun).descriptor c 1 code.toNat (bits (t.core c).gtb 47 17 * 2 ^ 17 + 32 * code.toNat) 4
      = (.ok [d0, d1, d2, d3], u))
    (hpresent : bit d2 36 = true) (huse : (t.core c).ring ≤ bits d2 35 34) (hin : bits d2 33 32 ≤ (t.core c).ring)
    (hcs : u.segLoad c 0 (BitVec.ofNat 64 (bits d2 15 0)) (bits d2 33 32) = (.ok cs, v))
    (hss : (if bits d2 33 32 < (t.core c).ring then v.segLoad c 7 (BitVec.ofNat 64 (bits d2 31 16)) (bits d2 33 32)
      else (.ok ((t.core c).sgOf 7), v)) = (.ok ss, w))
    (hrec : rec_ = ((if bits d2 33 32 < (t.core c).ring then BitVec.ofNat 64 (bits d1 51 0) else (t.core c).gread 62) - 32) &&& ~~~(0x1F : Word))
    (hstore : w.storable c ss 7 (bits d2 33 32) rec_ 32 = (some (.ok ps), r)) :
    exec (.callg c g code) s = done (r.updCore c fun y => y.opened (t.core c)
      (.callg ps [(t.core c).ip + 8, (t.core c).gread 62,
        BitVec.ofNat 64 (((t.core c).sgOf 0).sel.toNat + 2 ^ 16 * ((t.core c).sgOf 7).sel.toNat),
        BitVec.ofNat 64 ((t.core c).ring + 4 * b2n (t.core c).im)] rec_ (d0 &&& 0xFFFFFFFFFFFFC) cs ss (bits d2 33 32)) [62]) := by
  show execCallg c g code s = _
  have entry : ¬ min (bits (t.core c).gtb 12 0) 4096 ≤ code.toNat := Nat.not_le.mpr hcode
  have use : ¬ bits d2 35 34 < (t.core c).ring := Nat.not_lt.mpr huse
  have inward : ¬ (t.core c).ring < bits d2 33 32 := Nat.not_lt.mpr hin
  have begun : ∀ x : Core, x.begun.gtb = x.gtb ∧ x.begun.ring = x.ring ∧ x.begun.sgOf = x.sgOf ∧ x.begun.ip = x.ip ∧ x.begun.im = x.im :=
    fun _ => ⟨rfl, rfl, rfl, rfl, rfl⟩
  subst hrec
  rw [execCallg]
  refine xfer_opens_after h rfl hslot hend ?_
  simp only [State.core_updCore_self, Core.gread_begun, begun, entry, hgate, hpresent, use, inward, hcs, decide_eq_true_eq, hss, hstore,
    Bool.not_true, Bool.false_eq_true, if_false]

end Gates

/-! ### RETX (R116–R118) -/

/-- A return through a frame leaves single step as it was. -/
theorem Core.returned_stepDue (x : Core) (ws : List Word) (cs ss : SegReg) (old : Option SegReg) :
    (x.returned ws cs ss old).stepDue = x.stepDue := by
  show (((x.setSg 0 cs).setSg 7 ss).gwrite 62 (ws.getD 5 0)).stepDue = x.stepDue
  rw [Core.gwrite_stepDue, Core.setSg_stepDue, Core.setSg_stepDue]

/-- No chain is made where the frame's IM is 1 or the handler table is not set (R118). -/
theorem State.tryChain_none {s : State} {c : CoreId} (f : Word) {ws : List Word} (h : bit (ws.getD 1 0) 2 = true ∨ (s.core c).hdtbSet = false) :
    s.tryChain c f ws = (some none, s) := by
  have off : (bit (ws.getD 1 0) 2 || !(s.core c).hdtbSet) = true := by
    obtain h | h := h <;> simp only [h, Bool.true_or, Bool.not_false, Bool.or_true]
  rw [State.tryChain, if_pos off]

section Retx

variable {c : CoreId} {g : Greg} {code : BitVec 12} {s t u v v' w z k : State} {ws : List Word} {cs old ss : SegReg}

/-- RETX whose frame is read, returns no further in, and names segments that load: it leaves the state of the chain of R118, or else the
one in which the core has returned through its frame. -/
theorem retx_leaves (h : s.Ready c (.retx c g code) t) (hend : (t.core c).notLoopEnd)
    (hread : (t.updCore c Core.begun).readStack c ((t.core c).gread 62) 8 = (some (.ok ws), u))
    (hring : (t.core c).ring ≤ bits (ws.getD 1 0) 1 0)
    (hcs : u.segLoad c 0 (BitVec.ofNat 64 (bits (ws.getD 6 0) 15 0)) (bits (ws.getD 1 0) 1 0) = (.ok cs, v))
    (hold : (if bit (ws.getD 1 0) 5 then v.segLoad c 0 (BitVec.ofNat 64 (bits (ws.getD 6 0) 47 32)) (bits (ws.getD 1 0) 1 0)
      else (.ok cs, v)) = (.ok old, v'))
    (hss : v'.segLoad c 7 (BitVec.ofNat 64 (bits (ws.getD 6 0) 31 16)) (bits (ws.getD 1 0) 1 0) = (.ok ss, w))
    (hchain : w.tryChain c ((t.core c).gread 62) ws = (some (some z), k) ∨
      w.tryChain c ((t.core c).gread 62) ws = (some none, k) ∧
        z = k.updCore c fun x => x.returned ws cs ss (if bit (ws.getD 1 0) 5 then some old else none))
    (hdue : (z.core c).stepDue = false) : exec (.retx c g code) s = done (z.updCore c Core.ended) := by
  obtain ⟨hslot, hss0, -⟩ := h.2
  have ring : ¬ bits (ws.getD 1 0) 1 0 < (t.core c).begun.ring := Nat.not_lt.mpr hring
  have passed : Insn.early { word := wordS g code 0x06, xfer := true, noEnd := true, reads := [62] } (t.core c) = none :=
    Insn.early_eq_none (.inr hslot) rfl (.inr hend)
  show execRetx c g code s = _
  rw [State.updCore_eq] at hread
  rw [execRetx]
  refine runInsn_whole (h.1.words rfl) hss0 passed ?_ hdue
  obtain hchain | ⟨hchain, rfl⟩ := hchain <;>
    simp only [State.core_setCore_self, Core.gread_begun, hread, ring, hcs, hold, hss, hchain, if_false]

end Retx

/-! ### The frame of a handler in memory (R80, R114) -/

theorem length_bytesOf (ws : List Word) : (bytesOf ws).length = 8 * ws.length := by
  induction ws with
  | nil => rfl
  | cons w ws ih =>
    rw [bytesOf, List.flatMap_cons, List.length_append, length_toBytes, ← bytesOf, ih, List.length_cons]
    omega

/-- A run of bytes none of which has changed. -/
theorem State.bytes_congr {s t : State} {pa n : Nat} (h : ∀ a, pa ≤ a → a < pa + n → t.byte a = s.byte a) : t.bytes pa n = s.bytes pa n := by
  induction n generalizing pa with
  | zero => rfl
  | succ n ih =>
    have first : t.byte pa = s.byte pa := h pa (le_refl _) (by omega)
    have rest : t.bytes (pa + 1) n = s.bytes (pa + 1) n := ih fun a h1 h2 => h a (by omega) (by omega)
    exact congrArg₂ List.cons first rest

/-- A part stored in ordinary memory leaves where addresses lie. -/
theorem State.sameMap_storePart {s : State} {p : Piece} (c : CoreId) (bs : List Byte) (hplain : (s.decodePA p.pa).plain = true) :
    s.SameMap (s.storePart c p bs) := by
  have travel := s.sameMap_travel (dieOf c).val (s.decodePA p.pa).die
  obtain ⟨m, hm⟩ := (s.travel (dieOf c).val (s.decodePA p.pa).die).homeWrite_eq p.pa bs false
  have write : s.SameMap (((s.travel (dieOf c).val (s.decodePA p.pa).die).homeWrite p.pa bs false).updCore c fun x => x.updLine p.pa bs) := by
    rw [hm]
    exact travel.trans ⟨rfl, rfl⟩
  have target := travel.decodePA p.pa
  obtain ⟨ch, pc, h⟩ | ⟨d, h⟩ | h := Target.plain_cases hplain <;> rw [h] at target write <;>
    simpa only [State.storePart, h, target] using write

/-- Parts in ordinary memory, disjoint, stored in turn: they hold the bytes, and every other byte reads as before. -/
theorem State.storeKept_plain (c : CoreId) (ps : List Piece) {s : State} {bs : List Byte}
    (hplain : ∀ p ∈ ps, (s.decodePA p.pa).plain = true) (hsum : (ps.map (·.n)).sum = bs.length)
    (hapart : ps.Pairwise fun p q => p.overlaps q = false) :
    ps.flatMap (fun p => (s.storeKept c [] ps bs).bytes p.pa p.n) = bs ∧
      ∀ a, (∀ p ∈ ps, a < p.pa ∨ p.pa + p.n ≤ a) → (s.storeKept c [] ps bs).byte a = s.byte a := by
  induction ps generalizing s bs with
  | nil => exact ⟨(List.eq_nil_of_length_eq_zero hsum.symm).symm, fun _ _ => rfl⟩
  | cons p ps ih =>
    rw [List.map_cons, List.sum_cons] at hsum
    obtain ⟨hp, hps⟩ := List.forall_mem_cons.mp hplain
    obtain ⟨hfirst, hrest⟩ := List.pairwise_cons.mp hapart
    have hlen : (bs.take p.n).length = p.n := by rw [List.length_take]; omega
    have map := State.sameMap_storePart c (bs.take p.n) hp
    obtain ⟨stored, others⟩ := State.storePart_plain c (bs.take p.n) hp
    rw [hlen] at stored others
    obtain ⟨later, kept⟩ := ih (s := s.storePart c p (bs.take p.n)) (bs := bs.drop p.n)
      (fun q hq => by rw [map.decodePA]; exact hps q hq) (by rw [List.length_drop]; omega) hrest
    have step : s.storeKept c [] (p :: ps) bs = (s.storePart c p (bs.take p.n)).storeKept c [] ps (bs.drop p.n) := rfl
    have held : ((s.storePart c p (bs.take p.n)).storeKept c [] ps (bs.drop p.n)).bytes p.pa p.n = bs.take p.n := by
      refine (State.bytes_congr fun a h1 h2 => kept a fun q hq => ?_).trans stored
      have apart := hfirst q hq
      simp only [Piece.overlaps, Bool.and_eq_false_iff, decide_eq_false_iff_not] at apart
      omega
    rw [step]
    refine ⟨?_, fun a ha => ?_⟩
    · rw [List.flatMap_cons, held, later, List.take_append_drop]
    · obtain ⟨hpa, hpsa⟩ := List.forall_mem_cons.mp ha
      exact (kept a hpsa).trans (others a hpa)

/-! ### The core in its handler (R113, R121) -/

section Enter

variable (s : State) (c : CoreId) (k : Ctx) (e : Entry) (d0 d2 : Word) (cs ss : SegReg) (f : Word) (parts : List Piece)

/-- A frame stored in ordinary memory lies in its parts, and every other byte reads as before (R114). -/
theorem State.enterAt_memory (hplain : parts.all (fun p => (s.decodePA p.pa).plain) = true) (hsum : (parts.map (·.n)).sum = 64)
    (hapart : parts.Pairwise fun p q => p.overlaps q = false) :
    parts.flatMap (fun p => (s.enterAt c k e d0 d2 cs ss f parts).bytes p.pa p.n) = bytesOf ((s.core c).frame k e) ∧
      ∀ a, (∀ p ∈ parts, a < p.pa ∨ p.pa + p.n ≤ a) → (s.enterAt c k e d0 d2 cs ss f parts).byte a = s.byte a :=
  State.storeKept_plain c parts (List.all_eq_true.mp hplain) (hsum.trans (length_bytesOf ((s.core c).frame k e)).symm) hapart

/-- A write of a general register of a core without load shadows. -/
theorem Core.gwrite_of_lsh_nil {x : Core} (h : x.lsh = []) (g : Greg) (v : Word) : ∃ gpr, x.gwrite g v = { x with gpr := gpr } := by
  unfold Core.gwrite
  split
  · exact ⟨x.gpr, rfl⟩
  · exact ⟨_, by rw [h, List.filter_nil, ← h]⟩

/-- A core in its handler: the frame at f and its copies, the descriptor's mode and offset, nothing left of what was interrupted. -/
structure Core.InHandler (y : Core) (fr : List Word) (d0 d2 : Word) (cs ss : SegReg) (f : Word) : Prop where
  copies : y.epc = fr.getD 0 0 ∧ y.estatus = fr.getD 1 0 ∧ y.exinfo = fr.getD 2 0 ∧ y.eaddr = fr.getD 3 0
  g62 : y.raw 62 = f
  ip : y.ip = d0 &&& 0xFFFFFFFFFFFFC
  sgs : y.sgOf 0 = cs ∧ y.sgOf 7 = ss
  status : ∃ w, y.status = handlerStatus w d2
  interrupted : y.lsh = [] ∧ y.slot = none ∧ y.msh = none

theorem State.enterAt_core : ((s.enterAt c k e d0 d2 cs ss f parts).core c).InHandler ((s.core c).frame k e) d0 d2 cs ss f := by
  unfold State.enterAt
  dsimp only
  rw [State.core_updCore_self]
  generalize (s.postStore c 2 f parts (bytesOf ((s.core c).frame k e))).core c = x
  generalize hz : Core.setSg (Core.setSg _ 0 cs) 7 ss = z
  have raw := z.raw_gwrite_self 62 f
  obtain ⟨gpr, hy⟩ := Core.gwrite_of_lsh_nil (x := z) (by rw [← hz]; rfl) 62 f
  generalize z.gwrite 62 f = y at raw hy
  subst hy hz
  exact ⟨⟨rfl, rfl, rfl, rfl⟩, raw, rfl, ⟨(look_put_ne _ _ _ _ (by decide)).trans (look_put_self ..), look_put_self ..⟩, ⟨x.status, rfl⟩,
    rfl, rfl, rfl⟩

end Enter

/-! ### The obligations -/

/-- Settles O16: the checks of R105 and of R103 and R104 passed one by one, each transfer opens its slot in the state they leave. -/
theorem gatesOpenSlot : Obligations.GatesOpenSlot := by
  unfold Obligations.GatesOpenSlot
  refine ⟨?_, ?_⟩
  · intro s t c g code ws cs ss h hslot hend x ring u v w hread hring hcs hss
    exact retg_opens h hslot hend (Prod.ext hread rfl) hring (Prod.ext hcs rfl) (Prod.ext hss rfl)
  · intro s t c g code d0 d1 d2 d3 cs ss ps h hslot hend x ring d u v rec_ w hcode hgate hpresent huse hin hcs hss hstore
    exact callg_opens h hslot hend hcode (Prod.ext hgate rfl) hpresent huse hin (Prod.ext hcs rfl) (Prod.ext hss rfl) rfl
      (Prod.ext hstore rfl)

/-- Settles O17: RETX leaves the state of its chain or the one in which the core has returned through the frame; a handler entered has stored
its frame in the parts given (`State.enterAt_memory`) and set the core's mode (`State.enterAt_core`). -/
theorem handlersEnteredAndLeft : Obligations.HandlersEnteredAndLeft := by
  unfold Obligations.HandlersEnteredAndLeft
  refine ⟨?_, ?_⟩
  · intro s t c g code ws cs old ss h hend x es w6 ring r u v w k hread hring hcs hold hss
    have leaves {z : State} := retx_leaves (z := z) (k := k.2) h hend (Prod.ext hread rfl) hring (Prod.ext hcs rfl) (Prod.ext hold rfl)
      (Prod.ext hss rfl)
    refine ⟨fun hk hdue => ?_, fun z hk hdue => leaves (.inl (Prod.ext hk rfl)) hdue, fun hno hset => State.tryChain_none _ ?_⟩
    · refine (leaves (.inr ⟨Prod.ext hk rfl, rfl⟩) ?_).trans ?_
      · rw [State.core_updCore_self, Core.returned_stepDue]
        exact hdue
      · simp only [State.updCore, State.core_setCore_self, State.setCore_setCore]
        rfl
    · exact hno.imp_right fun hx => hset.trans hx
  · intro s c k e d0 d2 cs ss f parts x fr y
    obtain ⟨⟨epc, estatus, exinfo, eaddr⟩, g62, ip, ⟨sg0, sg7⟩, ⟨st, status⟩, lsh, slot, msh⟩ := s.enterAt_core c k e d0 d2 cs ss f parts
    refine ⟨rfl, rfl, rfl, rfl, rfl, rfl, rfl, rfl, rfl, s.enterAt_memory c k e d0 d2 cs ss f parts, epc, estatus, exinfo, eaddr, g62, ip, sg0,
      sg7, ?_, ?_, ?_, ?_, lsh, slot, msh⟩
    · exact (congrArg (bits · 1 0) status).trans (handlerStatus_ring ..)
    · exact (congrArg (bit · 2) status).trans (handlerStatus_im ..)
    · exact (congrArg (bit · 3) status).trans (handlerStatus_lp_ss _ _ (by decide))
    · exact (congrArg (bit · 4) status).trans (handlerStatus_lp_ss _ _ (by decide))

end Sys2Proof.Machine

/-! SUPPORT. The vector unit's instructions at their core: retirement into the unit, scalar results, configuration, checked memory
instructions (R146–R155, R162–R165). -/

namespace Sys2Proof.Machine

open Sys2Proof

/-! ### Before an instruction's own work -/

section Frame

variable {c : CoreId} {i : Instr} {op fn : Nat} {v : VOp} {f : VFields} {s t u : State}

/-- A vector instruction of legal fields, where no loop level ends, meets no exception before its own work (R48, R153). -/
theorem State.Ready.vec_early (h : s.Ready c i t) (hend : (t.core c).notLoopEnd) (hlegal : vLegal v f (t.core c) = true) :
    (vecInsn op fn v f).early (t.core c) = none :=
  Insn.early_eq_none (.inr h.2.1) (if_pos hlegal) (.inr hend)

/-- A task whose core's VL is not 0 has elements. -/
theorem len_vtask_ne_zero {x : Core} (h : x.vl ≠ 0) : (x.vtask v f).len ≠ 0 :=
  fun h0 => h (BitVec.eq_of_toNat_eq h0)

/-! ### The arithmetic pipe (R148, R150) -/

/-- With VL = 0 an instruction of the arithmetic pipe does nothing (R148). -/
theorem vArith_of_vl_zero (h : s.Ready c i t) (hw : insnWords i = some (wordV op fn f, wordV2 f)) (hend : (t.core c).notLoopEnd)
    (hlegal : vLegal v f (t.core c) = true) (hvl : (t.core c).vl = 0) :
    vArith c op fn v f s = done (t.updCore c fun x => x.begun.after 8) := by
  have len : ((t.core c).begun.vtask v f).len = 0 := congrArg BitVec.toNat hvl
  have hslot : ((t.updCore c Core.begun).core c).slot = none := by
    rw [State.core_updCore_self]
    exact h.2.1
  have hdue : ((t.updCore c Core.begun).core c).stepDue = false := by
    rw [State.core_updCore_self]
    exact h.2.2.2
  refine (runInsn_done (h.1.words hw) h.2 (h.vec_early hend hlegal) ?_ hslot hdue).trans ?_
  · simp only [State.core_updCore_self, len, if_true]
  · simp only [State.updCore_eq, State.core_setCore_self, State.setCore_setCore]
    rfl

/-- With no trap enabled it retires into a unit that has room (R150, R151). -/
theorem vArith_retires (h : s.Ready c i t) (hw : insnWords i = some (wordV op fn f, wordV2 f)) (hend : (t.core c).notLoopEnd)
    (hlegal : vLegal v f (t.core c) = true) (hvl : (t.core c).vl ≠ 0) (htraps : v.fp = true → fpTraps (t.core c).fpflags = 0)
    (hroom : (t.core c).vq.length < 16) :
    vArith c op fn v f s = done (t.updCore c fun x => Core.after { x.begun with vq := x.vq ++ [x.vtask v f] } 8) := by
  have len : ((t.core c).begun.vtask v f).len ≠ 0 := len_vtask_ne_zero hvl
  have untrapped : (v.fp && fpTraps ((t.core c).begun.vtask v f).fpflags != 0) = false := by
    show (v.fp && fpTraps (t.core c).fpflags != 0) = false
    cases hfp : v.fp
    · rfl
    · simp [htraps hfp]
  have room : ¬ 16 ≤ (t.core c).begun.vq.length := Nat.not_le.mpr hroom
  refine runInsn_upd (f := fun x => { x with vq := x.vq ++ [x.vtask v f] }) (h.1.words hw) h.2 (h.vec_early hend hlegal) ?_ rfl rfl
  simp only [len, untrapped, vecRetire, room, Bool.false_eq_true, if_false, State.updCore_eq, State.core_setCore_self]

/-! ### Scalar results (R151, R162, R163) -/

/-- With the unit empty an instruction that answers a scalar writes it to g[VD]. -/
theorem vScalar_writes (h : s.Ready c i t) (hw : insnWords i = some (wordV op fn f, wordV2 f)) (hend : (t.core c).notLoopEnd)
    (hlegal : vLegal v f (t.core c) = true) (hvl : (t.core c).vl ≠ 0) (hvq : (t.core c).vq = []) :
    vScalar c op fn v f s = done (t.updCore c fun x => (x.begun.gwrite f.vd ((x.vtask v f).scalar x)).after 8) := by
  have len : ((t.core c).begun.vtask v f).len ≠ 0 := len_vtask_ne_zero hvl
  have empty : (!(t.core c).begun.vq.isEmpty) = false := by
    show (!(t.core c).vq.isEmpty) = false
    rw [hvq]
    rfl
  refine runInsn_gwrite (fun x => (x.vtask v f).scalar x) (h.1.words hw) h.2 (h.vec_early hend hlegal) ?_
  simp only [State.core_updCore_self, len, empty, Bool.false_eq_true, if_false]
  rfl

/-! ### Checked loads and stores (R150, R164, R165) -/

/-- The word of a task's free bits: VSTM alone takes one (R164). -/
def VTask.xbFree (k : VTask) (u : State) : Nat × State := if k.op = .stm then u.freeNat else (k.xb.toNat, u)

theorem VTask.core_xbFree (k : VTask) (u : State) (c : CoreId) : (k.xbFree u).2.core c = u.core c := by
  unfold VTask.xbFree
  split <;> rfl

/-- A checked task that nothing holds back enters an empty unit. -/
theorem vecMemRetire_next {k : VTask} (hhold : u.tqHolds c (k.acc.flatMap (·.parts)) k.op.stores = false) (huq : (u.core c).vq = []) :
    vecMemRetire c k id u = .next ((k.xbFree u).2.updCore c fun x =>
      { x with vq := [{ k with xb := BitVec.ofNat 64 (k.xbFree u).1, ep := u.epochCur }] }) := by
  have room : ¬ 16 ≤ ([] : List VTask).length := by decide
  have free : (if k.op = .stm then u.freeNat else (k.xb.toNat, u)) = k.xbFree u := rfl
  simp only [vecMemRetire, vecRetire, hhold, huq, room, free, decide_false, Bool.or_self, Bool.false_eq_true, if_false, State.updCore_eq,
    State.core_setCore_self, State.setCore_setCore, VTask.core_xbFree, id, List.nil_append]

/-- A vector load or store whose every element has passed its checks retires with them. -/
theorem vMem_retires {w : State} {l : List ElemAcc} (h : s.Ready c i t) (hw : insnWords i = some (wordV op fn f, wordV2 f))
    (hend : (t.core c).notLoopEnd) (hlegal : vLegal v f (t.core c) = true) (hvl : (t.core c).vl ≠ 0) (hvq : (t.core c).vq = [])
    (hchecks : (t.updCore c Core.begun).elemChecks c (reqOf c) f.sg.toNat v.stores
      (((t.core c).vtask v f).offs (t.core c) ((t.core c).eaV f)) = (.all l, u, w))
    (hhold : u.tqHolds c (l.flatMap (·.parts)) v.stores = false) (huq : (u.core c).vq = []) (hslot : (u.core c).slot = none)
    (hdue : (u.core c).stepDue = false) :
    let k := (t.core c).vtask v f
    vMem c op fn v f s = done ((k.xbFree u).2.updCore c fun x => Core.after { x with
      vq := [{ k with acc := l, xb := BitVec.ofNat 64 (k.xbFree u).1, ep := u.epochCur }] } 8) := by
  intro k
  have len : decide (((t.core c).begun.vtask v f).len = 0) = false := decide_eq_false (len_vtask_ne_zero hvl)
  have empty : (!(t.core c).begun.vq.isEmpty) = false := by
    show (!(t.core c).vq.isEmpty) = false
    rw [hvq]
    rfl
  have checks : (t.updCore c Core.begun).elemChecks c (reqOf c) f.sg.toNat v.stores
      (((t.core c).begun.vtask v f).offs (t.core c).begun ((t.core c).begun.eaV f)) = (.all l, u, w) := hchecks
  refine (runInsn_done (u := (k.xbFree u).2.updCore c fun x => { x with
      vq := [{ k with acc := l, xb := BitVec.ofNat 64 (k.xbFree u).1, ep := u.epochCur }] })
    (h.1.words hw) h.2 (h.vec_early hend hlegal) ?_ ?_ ?_).trans ?_
  · simp only [State.core_updCore_self, len, empty, checks, Bool.false_and, Bool.and_false, Bool.false_eq_true, if_false]
    exact vecMemRetire_next (k := { k with acc := l }) hhold huq
  · rw [State.core_updCore_self, VTask.core_xbFree]
    exact hslot
  · rw [State.core_updCore_self, VTask.core_xbFree]
    exact hdue
  · simp only [State.updCore_eq, State.core_setCore_self, State.setCore_setCore]
    rfl

end Frame

/-! ### Configuration (R146, R147, R155) -/

/-- VTYPE after VCFG with an image (R146): ILL alone for a reserved one. -/
def cfgVtype (image : Word) : Word := if vtypeReserved image then 2 ^ 63 else image &&& 0x3F

/-- VL after VCFG with an image (R147, R155). -/
def Core.cfgVl (x : Core) (f : VFields) (image : Word) : Word :=
  if vtypeReserved image then 0
  else if f.ga = 0 then BitVec.ofNat 64 (vlMax (image &&& 0x3F))
  else BitVec.ofNat 64 (min (x.gread f.ga).toNat (vlMax (image &&& 0x3F)))

/-- VCFG sets VTYPE and VL and writes VL to g[VD]. -/
theorem Core.configure_eq (x : Core) (f : VFields) (image : Word) :
    x.configure f image =
      ({ x with vtype := cfgVtype image, vl := x.cfgVl f image } : Core).gwrite f.vd (x.cfgVl f image) := by
  have mask : maskBits 5 0 = 0x3F := rfl
  by_cases hres : vtypeReserved image = true
  · have ill : (setBit 0 63 true : Word) = 2 ^ 63 := BitVec.eq_of_toNat_eq (by simp [setBit, setBits, b2n])
    simp only [Core.configure, Core.writeVtype, cfgVtype, Core.cfgVl, hres, if_true, ill]
  · simp only [Core.configure, Core.writeVtype, cfgVtype, Core.cfgVl, hres, mask, if_false, Bool.false_eq_true]

/-- What VCFG and VCFGR leave of a core (R155): VTYPE, VL and g[VD] are set, the other registers are kept. -/
def Core.Configured (x y : Core) (f : VFields) (image : Word) : Prop :=
  y.vtype = cfgVtype image ∧ y.vl = x.cfgVl f image ∧ y.raw f.vd = (if f.vd = 0 then 0 else y.vl) ∧ (∀ g, g ≠ f.vd → y.raw g = x.raw g) ∧
    y.vreg = x.vreg ∧ y.mreg = x.mreg

/-- Caches and pending interrupts are no part of it. -/
theorem Core.Configured.congr {x y z : Core} {f : VFields} {image : Word} (h : x.Configured y f image) (hz : z.arch = y.arch) :
    x.Configured z f image := by
  have arch : x.Configured y.arch f image := h
  rw [← hz] at arch
  exact arch

/-- A core that has been configured and has gone on. -/
theorem Core.configured_after (x : Core) (f : VFields) (image : Word) (n : Nat) :
    x.Configured ((x.begun.configure f image).after n) f image := by
  rw [Core.configure_eq]
  obtain ⟨hraw, -, -, hvreg, hmreg, -, hvl, hvtype, -⟩ :=
    (Core.sameBut_gwrite { x.begun with vtype := cfgVtype image, vl := x.cfgVl f image } f.vd (x.cfgVl f image)).after (Core.gwrite_ip ..) n
  refine ⟨hvtype, hvl, ?_, fun g hg => hraw g (by simpa using hg), hvreg, hmreg⟩
  rw [Core.raw_after, Core.raw_gwrite_self]
  exact if_congr Iff.rfl rfl hvl.symm

/-- An instruction whose own work configures its core. -/
theorem runInsn_configures {c : CoreId} {i : Instr} {k : Insn} {f : VFields} {s t : State} (image : Core → Word)
    (h : s.Ready c i t) (hw : insnWords i = some (k.word, k.word2)) (he : k.early (t.core c) = none)
    (himage : image (t.core c).begun = image (t.core c)) :
    ∃ u, runInsn c k (fun s => .next (s.updCore c fun x => x.configure f (image x))) s = .next u ∧
      (t.core c).Configured (u.core c) f (image (t.core c)) ∧ ∀ a, u.byte a = t.byte a := by
  have slot (x : Core) : (x.configure f (image x)).slot = x.slot := by rw [Core.configure_eq, Core.gwrite_slot]
  have due (x : Core) : (x.configure f (image x)).stepDue = x.stepDue := by rw [Core.configure_eq, Core.gwrite_stepDue]
  refine ⟨_, runInsn_upd (f := fun x => x.configure f (image x)) (h.1.words hw) h.2 he rfl (slot _) (due _), ?_, fun a => ?_⟩
  · refine Core.Configured.congr ?_ ((State.keeps_settle _).cores c)
    rw [State.core_updCore_self, himage]
    exact Core.configured_after ..
  · exact (State.keeps_settle _).byte a

/-! ### The obligations -/

/-- Settles O19: every row is an instruction of the arithmetic pipe, which retires into the unit, or does nothing with VL = 0. -/
theorem vectorArithmeticRetires : Obligations.VectorArithmeticRetires := by
  have claim {mk : CoreId → VFields → Instr} {v : VOp} {op fn : Nat} (hx : ∀ c f s, exec (mk c f) s = vArith c op fn v f s)
      (hw : ∀ c f, insnWords (mk c f) = some (wordV op fn f, wordV2 f)) (s t : State) (c : CoreId) (f : VFields) (h : s.Ready c (mk c f) t)
      (hend : (t.core c).notLoopEnd) (hlegal : vLegal v f (t.core c) = true) :
      ((t.core c).vl = 0 → exec (mk c f) s = .next (State.settle (t.updCore c fun x => x.begun.after 8))) ∧
      ((t.core c).vl ≠ 0 → (v.fp = true → fpTraps (t.core c).fpflags = 0) → (t.core c).vq.length < 16 →
        exec (mk c f) s = .next (State.settle (t.updCore c fun x => Core.after { x.begun with vq := x.vq ++ [x.vtask v f] } 8))) := by
    rw [hx]
    exact ⟨vArith_of_vl_zero h (hw c f) hend hlegal, vArith_retires h (hw c f) hend hlegal⟩
  unfold Obligations.VectorArithmeticRetires
  simp only [List.forall_mem_cons, List.not_mem_nil, false_imp_iff, implies_true, and_true]
  and_intros <;> exact claim (fun _ _ _ => rfl) (fun _ _ => rfl)

/-- MPOPC counts the bits set below VL (R162). -/
theorem scalar_mpopc (x : Core) (f : VFields) :
    (x.vtask .mpopc f).scalar x = BitVec.ofNat 64 ((List.range x.vl.toNat).countP fun i => x.mbit f.va.toNat i) := by
  rw [List.countP_eq_length_filter]
  rfl

/-- MFIRST finds the lowest bit set below VL, or answers all ones (R162). -/
theorem scalar_mfirst (x : Core) (f : VFields) :
    (x.vtask .mfirst f).scalar x = match (List.range x.vl.toNat).find? fun i => x.mbit f.va.toNat i with
      | some i => BitVec.ofNat 64 i
      | none => BitVec.allOnes 64 := by
  rw [← List.head?_filter]
  show (match (List.range x.vl.toNat).filter fun i => x.mbit f.va.toNat i with
    | i :: _ => BitVec.ofNat 64 i
    | [] => BitVec.allOnes 64) = _
  cases (List.range x.vl.toNat).filter fun i => x.mbit f.va.toNat i <;> rfl

/-- Settles O21: the four scalar rows write `VTask.scalar`; VCFG and VCFGR differ in their image alone (`runInsn_configures`). -/
theorem vectorScalarsAndConfiguration : Obligations.VectorScalarsAndConfiguration := by
  have claim {mk : CoreId → VFields → Instr} {v : VOp} {op fn : Nat} {r : Core → VFields → Word}
      (hr : ∀ x f, (x.vtask v f).scalar x = r x f) (hx : ∀ c f s, exec (mk c f) s = vScalar c op fn v f s)
      (hw : ∀ c f, insnWords (mk c f) = some (wordV op fn f, wordV2 f)) (s t : State) (c : CoreId) (f : VFields) (h : s.Ready c (mk c f) t)
      (hend : (t.core c).notLoopEnd) (hlegal : vLegal v f (t.core c) = true) (hvl : (t.core c).vl ≠ 0) (hvq : (t.core c).vq = []) :
      exec (mk c f) s = .next (State.settle (t.updCore c fun x => (x.begun.gwrite f.vd (r x f)).after 8)) := by
    simp only [hx, ← hr]
    exact vScalar_writes h (hw c f) hend hlegal hvl hvq
  unfold Obligations.VectorScalarsAndConfiguration
  refine ⟨?_, ?_⟩
  · simp only [List.forall_mem_cons, List.not_mem_nil, false_imp_iff, implies_true, and_true]
    exact ⟨claim (fun _ _ => rfl) (fun _ _ _ => rfl) (fun _ _ => rfl), claim (fun _ _ => rfl) (fun _ _ _ => rfl) (fun _ _ => rfl),
      claim scalar_mpopc (fun _ _ _ => rfl) (fun _ _ => rfl), claim scalar_mfirst (fun _ _ _ => rfl) (fun _ _ => rfl)⟩
  · intro s t c f hend hform hva hvb hme hmkr hz hsg done_
    have legal : cfgOk f = true := by simp [cfgOk, noMask, hform, hva, hvb, hme, hmkr, hz, hsg]
    have conf {i : Instr} {k : Insn} (image : Core → Word)
        (hx : exec i s = runInsn c k (fun s => .next (s.updCore c fun x => x.configure f (image x))) s)
        (hw : insnWords i = some (k.word, k.word2)) (hxfer : k.xfer = false) (hill : k.illegal (t.core c) = none)
        (himage : image (t.core c).begun = image (t.core c)) : done_ i (image (t.core c)) := by
      intro h
      obtain ⟨u, hu, ⟨hvt, hvl, hvd, hraw, hvreg, hmreg⟩, hbyte⟩ :=
        runInsn_configures image h hw (Insn.early_eq_none (.inl hxfer) hill (.inr hend)) himage
      exact ⟨u, hx.trans hu, hvt, hvl, hvd, hraw, hvreg, hmreg, hbyte⟩
    exact ⟨fun hgb => conf (fun _ => zx f.imm) rfl rfl rfl (by simp [legal, hgb]) rfl,
      fun himm => conf (fun x => x.gread f.gb &&& 0xFFF) rfl rfl rfl (by simp [legal, himm]) rfl⟩

/-- Settles O22: every row is a checked memory instruction, which retires with its elements. -/
theorem vectorMemoryRetires : Obligations.VectorMemoryRetires := by
  unfold Obligations.VectorMemoryRetires
  have claim {mk : CoreId → VFields → Instr} {vop : VOp} {op fn : Nat} (hx : ∀ c f s, exec (mk c f) s = vMem c op fn vop f s)
      (hw : ∀ c f, insnWords (mk c f) = some (wordV op fn f, wordV2 f)) (s t u v : State) (c : CoreId) (f : VFields) (l : List ElemAcc)
      (h : s.Ready c (mk c f) t) (hend : (t.core c).notLoopEnd) (hlegal : vLegal vop f (t.core c) = true) (hvl : (t.core c).vl ≠ 0)
      (hvq : (t.core c).vq = []) :=
    fun hchecks hhold huq hslot hdue => (hx c f s).trans
      (vMem_retires (u := u) (w := v) (l := l) h (hw c f) hend hlegal hvl hvq hchecks hhold huq hslot hdue)
  simp only [List.forall_mem_cons, List.not_mem_nil, false_imp_iff, implies_true, and_true]
  and_intros <;> exact claim (fun _ _ _ => rfl) (fun _ _ => rfl)

end Sys2Proof.Machine

/-! SUPPORT. The vector and mask registers: what an element or a mask bit reads as after a write (R144, R145). -/

namespace Sys2Proof.Machine

open Sys2Proof

/-! ### Bytes and numbers -/

theorem fromBytes_toBytes (n v : Nat) : fromBytes (toBytes n v) = v % 256 ^ n := by
  induction n generalizing v with
  | zero => simp [toBytes, fromBytes, Nat.mod_one]
  | succ n ih =>
    have low : (BitVec.ofNat 8 v).toNat = v % 256 := BitVec.toNat_ofNat ..
    rw [toBytes, fromBytes, ih, low, Nat.pow_succ', Nat.mod_mul]

theorem fromBytes_lt (bs : List Byte) : fromBytes bs < 256 ^ bs.length := by
  induction bs with
  | nil => simp [fromBytes]
  | cons b bs ih =>
    have := b.isLt
    rw [fromBytes, List.length_cons, Nat.pow_succ]
    omega

/-- A run reads alike from stores that agree on its keys. -/
theorem lookRun_congr {α : Type} {d : Nat → α} {m m' : Sparse α} {k n : Nat} (h : ∀ a, k ≤ a → a < k + n → look d m' a = look d m a) :
    lookRun d m' k n = lookRun d m k n := by
  induction n generalizing k with
  | zero => rfl
  | succ n ih => rw [lookRun, lookRun, h k (Nat.le_refl k) (by omega), ih fun a hl hu => h a (by omega) (by omega)]

/-! ### Elements (R144) -/

/-- The widths an element may have: a nibble, or whole bytes. -/
def ElemWidth (w : Nat) : Prop := w = 4 ∨ ∃ m, w = 8 * m

theorem elemWidth_of_sew {w : Nat} (h : w = 4 ∨ w = 8 ∨ w = 16 ∨ w = 32 ∨ w = 64) : ElemWidth w := by
  obtain h | h | h | h | h := h
  · exact .inl h
  · exact .inr ⟨1, h⟩
  · exact .inr ⟨2, h⟩
  · exact .inr ⟨4, h⟩
  · exact .inr ⟨8, h⟩

/-- A byte of the vector file. -/
def Core.vbyte (x : Core) (a : Nat) : Byte := look (fun _ => 0) x.vreg a

theorem Core.vbytes_one (x : Core) (v i : Nat) : x.vbytes v i 1 = [x.vbyte (2048 * v + i)] := rfl

theorem Core.velem_nibble (x : Core) (v i : Nat) :
    x.velem 4 v i = (x.vbyte (2048 * v + i / 2)).toNat / 16 ^ (i % 2) % 16 := by
  rw [Core.velem, if_pos rfl, Core.vbytes_one, Nat.shiftRight_eq_div_pow, Nat.pow_mul]
  rfl

theorem Core.velem_bytes (x : Core) (m v i : Nat) : x.velem (8 * m) v i = fromBytes (x.vbytes v (m * i) m) := by
  rw [Core.velem, if_neg (by omega), Nat.mul_div_cancel_left m (by decide)]

/-- A nibble written: the byte keeps its other half. -/
theorem Core.setVelem_nibble (x : Core) (v i n : Nat) :
    x.setVelem 4 v i n = { x with vreg := put (fun _ => 0) x.vreg (2048 * v + i / 2) (BitVec.ofNat 8
      ((if i % 2 = 0 then (x.vbyte (2048 * v + i / 2)).toNat / 16 * 16 else (x.vbyte (2048 * v + i / 2)).toNat % 16)
        + n % 16 * 16 ^ (i % 2))) } := rfl

theorem Core.setVelem_bytes (x : Core) (m v i n : Nat) : x.setVelem (8 * m) v i n = x.setVbytes v (m * i) (toBytes m n) := by
  rw [Core.setVelem, if_neg (by omega), Nat.mul_div_cancel_left m (by decide)]

/-- An element is a number of its width. -/
theorem Core.velem_lt {w : Nat} (hw : ElemWidth w) (x : Core) (v i : Nat) : x.velem w v i < 2 ^ w := by
  obtain rfl | ⟨m, rfl⟩ := hw
  · rw [Core.velem_nibble]
    exact Nat.mod_lt _ (by decide)
  · have h := fromBytes_lt (x.vbytes v (m * i) m)
    rw [Core.vbytes, length_lookRun] at h
    rw [Core.velem_bytes, Nat.pow_mul]
    exact h

/-- An element written touches no byte but its own. -/
theorem Core.vbyte_setVelem_out {w : Nat} (hw : ElemWidth w) (x : Core) (v i n : Nat) {a : Nat}
    (h : a < 2048 * v + w * i / 8 ∨ 2048 * v + (w * (i + 1) + 7) / 8 ≤ a) : (x.setVelem w v i n).vbyte a = x.vbyte a := by
  obtain rfl | ⟨m, rfl⟩ := hw
  · rw [Core.setVelem_nibble]
    rw [Core.vbyte, look_put_ne _ _ _ _ (by omega), Core.vbyte]
  · rw [Core.setVelem_bytes]
    refine look_putRun_out _ _ _ _ _ ?_
    rw [length_toBytes]
    rw [Nat.mul_assoc, Nat.mul_assoc, Nat.mul_div_cancel_left _ (by decide), Nat.mul_add_one] at h
    omega

/-- Of the two nibbles of a byte, the one written reads as what was written, the other as before. -/
theorem nibble_put (b n : Nat) {r q : Nat} (hr : r < 2) (hq : q < 2) :
    ((if r = 0 then b / 16 * 16 else b % 16) + n % 16 * 16 ^ r) % 2 ^ 8 / 16 ^ q % 16 = if q = r then n % 16 else b / 16 ^ q % 16 := by
  interval_cases r <;> interval_cases q <;> simp <;> omega

/-- An element reads as the low bits of what was written; the other elements of the group keep their value (R144). -/
theorem Core.velem_setVelem {w : Nat} (hw : ElemWidth w) (x : Core) (v i n j : Nat) :
    (x.setVelem w v i n).velem w v j = if j = i then n % 2 ^ w else x.velem w v j := by
  obtain rfl | ⟨m, rfl⟩ := hw
  · rw [Core.velem_nibble, Core.velem_nibble, Core.setVelem_nibble, Core.vbyte, look_put]
    by_cases hbyte : j / 2 = i / 2
    · rw [if_pos (by omega), hbyte, BitVec.toNat_ofNat,
        nibble_put _ _ (Nat.mod_lt i (by decide)) (Nat.mod_lt j (by decide))]
      exact if_congr (by omega) rfl rfl
    · rw [if_neg (by omega), if_neg (by rintro rfl; exact hbyte rfl)]
      rfl
  · rw [Core.velem_bytes, Core.velem_bytes, Core.setVelem_bytes]
    split
    next hji =>
      subst hji
      have run := lookRun_putRun (fun _ => (0 : Byte)) (toBytes m n) x.vreg (2048 * v + m * j)
      rw [length_toBytes] at run
      show fromBytes (lookRun _ (putRun _ _ _ _) _ m) = _
      rw [run, fromBytes_toBytes, Nat.pow_mul]
    next hji =>
      refine congrArg fromBytes (lookRun_congr fun a hl hu => look_putRun_out _ _ _ _ _ ?_)
      rw [length_toBytes]
      obtain hlt | hlt := Nat.lt_or_gt_of_ne hji
      · have := Nat.mul_le_mul_left m (Nat.succ_le_of_lt hlt)
        rw [Nat.mul_succ] at this
        omega
      · have := Nat.mul_le_mul_left m (Nat.succ_le_of_lt hlt)
        rw [Nat.mul_succ] at this
        omega

/-- An element written changes the vector file alone. -/
theorem Core.setVelem_vreg (x : Core) (w v i n : Nat) : ∃ m, x.setVelem w v i n = { x with vreg := m } := by
  unfold Core.setVelem
  split
  · exact ⟨_, rfl⟩
  · exact ⟨_, rfl⟩

/-! ### Mask bits (R145) -/

/-- A mask bit reads as it was written; the other bits of its register keep their value. -/
theorem Core.mbit_setMbit (x : Core) (m i j : Nat) (b : Bool) : (x.setMbit m i b).mbit m j = if j = i then b else x.mbit m j := by
  rw [Core.mbit, Core.setMbit, look_put]
  exact if_congr (by omega) rfl rfl

/-- The bits of other mask registers keep their value. -/
theorem Core.mbit_setMbit_ne (x : Core) {m i k j : Nat} (b : Bool) (hi : i < 32768) (hj : j < 32768) (h : k ≠ m) :
    (x.setMbit m i b).mbit k j = x.mbit k j := by
  rw [Core.mbit, Core.setMbit, look_put_ne _ _ _ _ (by omega), Core.mbit]

end Sys2Proof.Machine

/-! SUPPORT. A completed task of the arithmetic pipe: which arm of `VTask.arith` an operation takes, what it writes, what it leaves alone
(R144, R149, R151). -/

namespace Sys2Proof.Machine

open Sys2Proof

/-! ### Writes in ascending order -/

section Folds

variable {σ α : Type} {n : Nat}

/-- What every write keeps, the writes of the numbers below n keep. -/
theorem foldl_range_keeps {P : σ → Prop} {step : σ → Nat → σ} {x : σ} (h : P x) (hstep : ∀ y, ∀ i < n, P y → P (step y i)) :
    P ((List.range n).foldl step x) := by
  induction n with
  | zero => exact h
  | succ n ih =>
    rw [List.range_succ, List.foldl_append]
    exact hstep _ n (Nat.lt_succ_self n) (ih fun y i hi => hstep y i (Nat.lt_succ_of_lt hi))

/-- Where the write of i changes the place i alone, each place below n is written once, from what stood there. -/
theorem get_foldl_range {get : σ → Nat → α} {step : σ → Nat → σ} {new : Nat → α → α}
    (hstep : ∀ y i j, get (step y i) j = if j = i then new i (get y i) else get y j) (n : Nat) (x : σ) (j : Nat) :
    get ((List.range n).foldl step x) j = if j < n then new j (get x j) else get x j := by
  induction n generalizing j with
  | zero => rfl
  | succ n ih =>
    rw [List.range_succ, List.foldl_append, List.foldl_cons, List.foldl_nil, hstep, ih, ih]
    obtain h | rfl | h := Nat.lt_trichotomy j n
    · rw [if_neg h.ne, if_pos h, if_pos (Nat.lt_succ_of_lt h)]
    · rw [if_pos rfl, if_neg (Nat.lt_irrefl j), if_pos (Nat.lt_succ_self j)]
    · rw [if_neg h.ne', if_neg (by omega), if_neg (by omega)]

end Folds

section Write

variable {k : VTask} {x0 x : Core} {n : Nat} {skip : Nat → Bool} {set : Core → Nat → Nat → Core} {val : Nat → Nat}

/-- What writing any place below n keeps, a task's writes keep. -/
theorem VTask.write_keeps {P : Core → Prop} (h : P x) (hset : ∀ y, ∀ i < n, ∀ v, P y → P (set y i v)) :
    P (k.write x0 n skip set val x) := by
  refine foldl_range_keeps h fun y i hi hy => ?_
  split_ifs
  · exact hy
  · exact hset y i hi _ hy
  · exact hset y i hi _ hy
  · exact hy

/-- A place of a task's writes (R149): the value when active, else 0 with Z; a place skipped and the tail keep what they hold. -/
theorem VTask.get_write {α : Type} {get : Core → Nat → α} {dec : Nat → α}
    (hset : ∀ y i v j, get (set y i v) j = if j = i then dec v else get y j) (j : Nat) :
    get (k.write x0 n skip set val x) j =
      if j < n ∧ skip j = false then if k.active x0 j then dec (val j) else if k.f.z then dec 0 else get x j else get x j := by
  have step := get_foldl_range (get := get) (new := fun i old =>
    if skip i then old else if k.active x0 i then dec (val i) else if k.f.z then dec 0 else old) (step := fun x i =>
    if skip i then x else if k.active x0 i then set x i (val i) else if k.f.z then set x i 0 else x) (fun y i j => by
      by_cases hji : j = i
      · subst hji
        rw [if_pos rfl]
        split_ifs <;> simp [hset]
      · rw [if_neg hji]
        split_ifs <;> simp [hset, hji]) n x j
  refine step.trans ?_
  by_cases hj : j < n <;> cases hs : skip j <;> simp [hj]

end Write

/-! ### The arms of `VTask.arith` -/

/-- The mask operations (R162). -/
def VOp.maskOps : List VOp := [.mand, .mor, .mxor, .mandn, .mnot, .mset]

/-- The operations that write a mask: the compares and the mask operations (R162). -/
def VOp.toMask (op : VOp) : Bool := op.compares || op ∈ VOp.maskOps

/-- The operations that write their group element by element and skip none (R156–R161, R163). -/
def VOp.elementwise (op : VOp) : Bool :=
  !(op.toMask || op.reduces || op == .merge || op == .put || op == .slideup)

/-- A core with the flags of a task accrued (R192). -/
def VTask.accrued (k : VTask) (x : Core) : Core := { x with fpflags := fpAccrue x.fpflags (k.flags x) }

/-- The shift of the slides (R163). -/
def VTask.shift (k : VTask) : Nat := if k.f.form = 1 then k.xb.toNat else k.f.imm.toNat

section Arms

variable (k : VTask) (x : Core)

theorem VTask.arith_maskOp (h : k.op ∈ VOp.maskOps) :
    k.arith x = (List.range k.len).foldl (fun y i => y.setMbit k.f.vd.toNat i (k.maskBit x i)) (k.accrued x) := by
  simp only [VOp.maskOps, List.mem_cons, List.not_mem_nil, or_false] at h
  unfold VTask.arith
  obtain h | h | h | h | h | h := h <;> rw [h] <;> rfl

theorem VTask.arith_merge (h : k.op = .merge) :
    k.arith x = (List.range k.len).foldl (fun y i => y.setVelem k.sew k.f.vd.toNat i
      (if x.mbit k.f.mkr.toNat i then k.b x i else k.a x i)) (k.accrued x) := by
  unfold VTask.arith
  rw [h]
  rfl

theorem VTask.arith_put (h : k.op = .put) :
    k.arith x =
      if k.len ≤ k.xb.toNat then k.accrued x
      else if k.active x k.xb.toNat then (k.accrued x).setVelem k.sew k.f.vd.toNat k.xb.toNat k.xa.toNat
      else if k.f.z then (k.accrued x).setVelem k.sew k.f.vd.toNat k.xb.toNat 0
      else k.accrued x := by
  unfold VTask.arith
  rw [h]
  rfl

theorem VTask.arith_slideup (h : k.op = .slideup) :
    k.arith x = k.write x (k.elems x).n (fun i => decide (i < k.shift)) (fun y i v => y.setVelem (k.elems x).w k.f.vd.toNat i v)
      (fun i => ((k.elems x).val i).1) (k.accrued x) := by
  unfold VTask.arith
  rw [h]
  rfl

theorem VTask.arith_default (h : k.op ∉ VOp.maskOps) (hm : k.op ≠ .merge) (hp : k.op ≠ .put) (hs : k.op ≠ .slideup) :
    k.arith x =
      if k.op.reduces then (k.accrued x).setVelem k.sew k.f.vd.toNat 0 (k.reduce x).1
      else if k.op.compares then
        k.write x (k.elems x).n (fun _ => false) (fun y i v => y.setMbit k.f.vd.toNat i (v == 1)) (fun i => ((k.elems x).val i).1)
          (k.accrued x)
      else k.write x (k.elems x).n (fun _ => false) (fun y i v => y.setVelem (k.elems x).w k.f.vd.toNat i v)
        (fun i => ((k.elems x).val i).1) (k.accrued x) := by
  simp only [VOp.maskOps, List.mem_cons, List.not_mem_nil, or_false, not_or] at h
  obtain ⟨hand, hor, hxor, handn, hnot, hset⟩ := h
  unfold VTask.arith
  split
  iterate 9 next => contradiction
  · rfl

/-- Reductions and compares are none of the operations with an arm of their own. -/
theorem VOp.default_of_reduces_or_compares {op : VOp} (h : op.reduces = true ∨ op.compares = true) :
    op ∉ VOp.maskOps ∧ op ≠ .merge ∧ op ≠ .put ∧ op ≠ .slideup := by
  revert h
  cases op <;> decide

theorem VOp.reduces_of_compares {op : VOp} (h : op.compares = true) : op.reduces = false := by
  revert h
  cases op <;> decide

theorem VTask.arith_reduces (h : k.op.reduces = true) : k.arith x = (k.accrued x).setVelem k.sew k.f.vd.toNat 0 (k.reduce x).1 := by
  obtain ⟨hmask, hm, hp, hs⟩ := VOp.default_of_reduces_or_compares (.inl h)
  rw [k.arith_default x hmask hm hp hs, if_pos h]

theorem VTask.arith_compares (h : k.op.compares = true) :
    k.arith x = k.write x (k.elems x).n (fun _ => false) (fun y i v => y.setMbit k.f.vd.toNat i (v == 1)) (fun i => ((k.elems x).val i).1)
      (k.accrued x) := by
  obtain ⟨hmask, hm, hp, hs⟩ := VOp.default_of_reduces_or_compares (.inr h)
  rw [k.arith_default x hmask hm hp hs, if_neg (by simp [VOp.reduces_of_compares h]), if_pos h]

theorem VTask.arith_elementwise (h : k.op.elementwise = true) :
    k.arith x = k.write x (k.elems x).n (fun _ => false) (fun y i v => y.setVelem (k.elems x).w k.f.vd.toNat i v)
      (fun i => ((k.elems x).val i).1) (k.accrued x) := by
  simp only [VOp.elementwise, VOp.toMask, Bool.not_eq_true', Bool.or_eq_false_iff, decide_eq_false_iff_not, beq_eq_false_iff_ne] at h
  obtain ⟨⟨⟨⟨⟨hc, hmask⟩, hr⟩, hm⟩, hp⟩, hs⟩ := h
  simp only [k.arith_default x hmask hm hp hs, hr, hc, Bool.false_eq_true, if_false]

/-! ### The elements a task writes -/

/-- The integer operations of a group (R156). -/
def VOp.ints : List VOp := [.add, .sub, .rsub, .and, .or, .xor, .sll, .srl, .sra, .min, .max, .minu, .maxu, .mul, .mulh, .mulhu, .macc, .sadd,
  .saddu, .ssub, .ssubu, .mv]

/-- The operations whose elements are as many as VL and as wide as SEW, and no other's results than R156's. -/
def VOp.plain : List VOp :=
  VOp.ints ++ [.merge, .put, .redsum, .redmax, .redmin, .redmaxu, .redminu, .fredsum, .fredmax, .fredmin]

theorem VTask.elems_plain (h : k.op ∈ VOp.plain) :
    k.elems x = ⟨k.len, k.sew, fun i => (vIntRes k.op k.sew (x.velem k.sew k.f.vd.toNat i) (k.a x i) (k.b x i), 0)⟩ := by
  have all : ∀ op ∈ VOp.plain, VTask.elems { k with op } x =
      ⟨k.len, k.sew, fun i => (vIntRes op k.sew (x.velem k.sew k.f.vd.toNat i) (k.a x i) (k.b x i), 0)⟩ := by
    simp only [VOp.plain, VOp.ints, List.cons_append, List.nil_append, List.forall_mem_cons, List.not_mem_nil, false_imp_iff, implies_true,
      and_true]
    and_intros <;> rfl
  exact all k.op h

theorem VOp.plain_of_reduces {op : VOp} (h : op.reduces = true) : op ∈ VOp.plain := by
  revert h
  cases op <;> decide

/-- A compare has VL bits. -/
theorem VTask.elems_n_compares (h : k.op.compares = true) : (k.elems x).n = k.len := by
  unfold VTask.elems
  split <;> simp_all [VOp.compares]

/-- The elements of a task that writes its group are as wide as SEW, twice as wide, or lanes of 32 bits. -/
theorem VTask.elems_w (h : k.op.compares = false) : (k.elems x).w = k.sew ∨ (k.elems x).w = 2 * k.sew ∨ (k.elems x).w = 32 := by
  unfold VTask.elems
  split <;> simp_all [VOp.compares]

theorem VTask.elemWidth_elems (hsew : ElemWidth k.sew) (h : k.op.compares = false) : ElemWidth (k.elems x).w := by
  obtain hw | hw | hw := k.elems_w x h <;> rw [hw]
  · exact hsew
  · obtain h4 | ⟨m, hm⟩ := hsew
    · exact .inr ⟨1, by omega⟩
    · exact .inr ⟨2 * m, by omega⟩
  · exact .inr ⟨4, rfl⟩

/-! ### What a task leaves alone -/

/-- What the accrued flags leave true and every write of the task keeps is true once it has completed: a mask is written below VL, a group
below the task's count of elements, or in element 0. -/
theorem VTask.arith_keeps {P : Core → Prop} (h : P (k.accrued x))
    (hbit : k.op.toMask = true → ∀ y, ∀ i < k.len, ∀ b, P y → P (y.setMbit k.f.vd.toNat i b))
    (helem : k.op.toMask = false → ∀ y, ∀ i < max 1 (k.elems x).n, ∀ v, P y → P (y.setVelem (k.elems x).w k.f.vd.toNat i v)) :
    P (k.arith x) := by
  by_cases hc : k.op.compares = true
  · rw [k.arith_compares x hc, k.elems_n_compares x hc]
    exact VTask.write_keeps h fun y i hi v hy => hbit (by simp [VOp.toMask, hc]) y i hi _ hy
  by_cases hmask : k.op ∈ VOp.maskOps
  · rw [k.arith_maskOp x hmask]
    exact foldl_range_keeps h fun y i hi hy => hbit (by simp [VOp.toMask, hmask]) y i hi _ hy
  have elem := helem (by simp [VOp.toMask, hc, hmask])
  have below {i : Nat} (hi : i < (k.elems x).n) : i < max 1 (k.elems x).n := lt_max_of_lt_right hi
  have plain (hp : k.op ∈ VOp.plain) : ∀ y, ∀ i, (i < k.len ∨ i = 0) → ∀ v, P y → P (y.setVelem k.sew k.f.vd.toNat i v) := by
    simp only [k.elems_plain x hp] at elem
    exact fun y i hi => elem y i (by omega)
  by_cases hr : k.op.reduces = true
  · rw [k.arith_reduces x hr]
    exact plain (VOp.plain_of_reduces hr) _ 0 (.inr rfl) _ h
  by_cases hm : k.op = .merge
  · rw [k.arith_merge x hm]
    exact foldl_range_keeps h fun y i hi hy => plain (by rw [hm]; decide) y i (.inl hi) _ hy
  by_cases hp : k.op = .put
  · rw [k.arith_put x hp]
    have put := plain (by rw [hp]; decide)
    split_ifs with hlen
    · exact h
    · exact put _ _ (.inl (Nat.lt_of_not_le hlen)) _ h
    · exact put _ _ (.inl (Nat.lt_of_not_le hlen)) _ h
    · exact h
  by_cases hs : k.op = .slideup
  · rw [k.arith_slideup x hs]
    exact VTask.write_keeps h fun y i hi v hy => elem y i (below hi) v hy
  · rw [k.arith_elementwise x (by simp [VOp.elementwise, VOp.toMask, hc, hmask, hr, hm, hp, hs])]
    exact VTask.write_keeps h fun y i hi v hy => elem y i (below hi) v hy

/-- A completed task changes vector registers, mask registers and FPFLAGS alone (R151, R192). -/
theorem VTask.arith_eq : k.arith x =
    { x with vreg := (k.arith x).vreg, mreg := (k.arith x).mreg, fpflags := fpAccrue x.fpflags (k.flags x) } := by
  have others := k.arith_keeps x (P := fun y => ∃ v m, y = { k.accrued x with vreg := v, mreg := m }) ⟨x.vreg, x.mreg, rfl⟩
    (by rintro - y i - b ⟨v, m, rfl⟩; exact ⟨_, _, rfl⟩)
    (by
      rintro - y i - n ⟨v, m, rfl⟩
      obtain ⟨v', h⟩ := Core.setVelem_vreg { k.accrued x with vreg := v, mreg := m } (k.elems x).w k.f.vd.toNat i n
      exact ⟨v', m, h⟩)
  obtain ⟨v, m, h⟩ := others
  rw [h]
  rfl

/-- A task that writes a mask changes bits of its own register below VL alone (R145, R162). -/
theorem VTask.arith_mask_frame (h : k.op.toMask = true) (hlen : k.len ≤ 32768) :
    (k.arith x).vreg = x.vreg ∧ ∀ j i, j ≠ k.f.vd.toNat ∨ k.len ≤ i → i < 32768 → (k.arith x).mbit j i = x.mbit j i := by
  refine k.arith_keeps x (P := fun y => y.vreg = x.vreg ∧ ∀ j i, j ≠ k.f.vd.toNat ∨ k.len ≤ i → i < 32768 → y.mbit j i = x.mbit j i)
    ⟨rfl, fun _ _ _ _ => rfl⟩ ?_ (fun h' => by simp [h] at h')
  rintro - y e he b ⟨hv, hm⟩
  refine ⟨hv, fun j i hji hi => Eq.trans ?_ (hm j i hji hi)⟩
  by_cases hj : j = k.f.vd.toNat
  · subst hj
    rw [Core.mbit_setMbit, if_neg (by omega)]
  · exact Core.mbit_setMbit_ne _ _ (by omega) hi hj

/-- A task that writes a group changes bytes of its elements alone, or of element 0 (R144, R149). -/
theorem VTask.arith_group_frame (hsew : ElemWidth k.sew) (h : k.op.toMask = false) :
    (k.arith x).mreg = x.mreg ∧ ∀ a, a < 2048 * k.f.vd.toNat ∨ 2048 * k.f.vd.toNat + ((k.elems x).w * max 1 (k.elems x).n + 7) / 8 ≤ a →
      (k.arith x).vbyte a = x.vbyte a := by
  have hw : ElemWidth (k.elems x).w := k.elemWidth_elems x hsew (by simp [VOp.toMask] at h; exact h.1)
  refine k.arith_keeps x (P := fun y => y.mreg = x.mreg ∧ ∀ a, a < 2048 * k.f.vd.toNat ∨
    2048 * k.f.vd.toNat + ((k.elems x).w * max 1 (k.elems x).n + 7) / 8 ≤ a → y.vbyte a = x.vbyte a)
    ⟨rfl, fun _ _ => rfl⟩ (fun h' => by simp [h] at h') ?_
  rintro - y i hi n ⟨hm, hv⟩
  refine ⟨?_, fun a ha => Eq.trans (Core.vbyte_setVelem_out hw _ _ _ _ ?_) (hv a ha)⟩
  · obtain ⟨v, hset⟩ := y.setVelem_vreg (k.elems x).w k.f.vd.toNat i n
    rw [hset]
    exact hm
  · have upto : (k.elems x).w * (i + 1) ≤ (k.elems x).w * max 1 (k.elems x).n := Nat.mul_le_mul_left _ hi
    omega

end Arms

end Sys2Proof.Machine

/-! SUPPORT. The integer results of R156's table: two's complement at every width, wrapping and saturation, reductions (R156, R163). -/

namespace Sys2Proof.Machine

open Sys2Proof

/-! ### Two's complement at a width -/

section Signed

variable {w : Nat}

theorem sintOf_eq_toInt (hw : 0 < w) (a : Nat) : sintOf w a = (BitVec.ofNat w a).toInt := by
  have msb : (BitVec.ofNat w a).msb = a.testBit (w - 1) := by
    rw [BitVec.msb_eq_getLsbD_last, BitVec.getLsbD_ofNat, decide_eq_true (by omega), Bool.true_and]
  rw [sintOf, BitVec.toInt_eq_msb_cond, msb, BitVec.toNat_ofNat]
  push_cast
  rfl

theorem sintOf_bounds (hw : 0 < w) (a : Nat) : -2 ^ (w - 1) ≤ sintOf w a ∧ sintOf w a < 2 ^ (w - 1) := by
  rw [sintOf_eq_toInt hw]
  exact ⟨BitVec.le_toInt _, BitVec.toInt_lt⟩

theorem wrapN_eq (v : Int) : wrapN w v = (BitVec.ofInt w v).toNat := by
  rw [wrapN, BitVec.toNat_ofInt]
  push_cast
  rfl

theorem wrapN_lt (v : Int) : wrapN w v < 2 ^ w := by
  rw [wrapN_eq]
  exact BitVec.isLt _

/-- A result within w bits is not changed by wrapping. -/
theorem sintOf_wrapN (hw : 0 < w) {v : Int} (hl : -2 ^ (w - 1) ≤ v) (hu : v < 2 ^ (w - 1)) : sintOf w (wrapN w v) = v := by
  rw [sintOf_eq_toInt hw, wrapN_eq, BitVec.ofNat_toNat, BitVec.setWidth_eq, BitVec.toInt_ofInt_eq_self hw hl hu]

/-- The power of two of a width is twice that of its sign bit. -/
theorem two_pow_width (hw : 0 < w) : (2 : Int) ^ w = 2 * 2 ^ (w - 1) := by
  rw [← pow_succ', Nat.sub_add_cancel hw]

theorem satS_eq_clamp (v : Int) : satS w v = max (-2 ^ (w - 1)) (min v (2 ^ (w - 1) - 1)) := by
  have : (0 : Int) < 2 ^ (w - 1) := by positivity
  unfold satS
  split_ifs <;> omega

/-- A saturated result keeps its value (R156). -/
theorem sintOf_wrapN_satS (hw : 0 < w) (v : Int) : sintOf w (wrapN w (satS w v)) = max (-2 ^ (w - 1)) (min v (2 ^ (w - 1) - 1)) := by
  have : (0 : Int) < 2 ^ (w - 1) := by positivity
  rw [sintOf_wrapN hw, satS_eq_clamp] <;> rw [satS_eq_clamp] <;> omega

/-- A number divided by a power of two stays within w bits. -/
theorem sintOf_wrapN_shift (hw : 0 < w) (a n : Nat) : sintOf w (wrapN w (sintOf w a / 2 ^ n)) = sintOf w a / 2 ^ n := by
  obtain ⟨hl, hu⟩ := sintOf_bounds hw a
  have hn : (1 : Int) ≤ 2 ^ n := one_le_pow₀ (by decide)
  have hp : (0 : Int) < 2 ^ (w - 1) := by positivity
  refine sintOf_wrapN hw ((Int.le_ediv_iff_mul_le (by omega)).mpr ?_) ((Int.ediv_lt_iff_lt_mul (by omega)).mpr ?_)
  · nlinarith
  · nlinarith

/-- So does the high half of a product. -/
theorem sintOf_wrapN_mulh (hw : 0 < w) (a b : Nat) :
    sintOf w (wrapN w (sintOf w a * sintOf w b / 2 ^ w)) = sintOf w a * sintOf w b / 2 ^ w := by
  obtain ⟨hal, hau⟩ := sintOf_bounds hw a
  obtain ⟨hbl, hbu⟩ := sintOf_bounds hw b
  have hp : (0 : Int) < 2 ^ (w - 1) := by positivity
  have prod : |sintOf w a * sintOf w b| ≤ 2 ^ (w - 1) * 2 ^ (w - 1) := by
    rw [abs_mul]
    exact mul_le_mul (abs_le.mpr ⟨hal, hau.le⟩) (abs_le.mpr ⟨hbl, hbu.le⟩) (abs_nonneg _) hp.le
  obtain ⟨hl, hu⟩ := abs_le.mp prod
  rw [two_pow_width hw]
  refine sintOf_wrapN hw ((Int.le_ediv_iff_mul_le (by omega)).mpr ?_) ((Int.ediv_lt_iff_lt_mul (by omega)).mpr ?_)
  · nlinarith
  · nlinarith

theorem sintOf_min (a b : Nat) : sintOf w (vIntRes .min w 0 a b) = min (sintOf w a) (sintOf w b) := by
  simp only [vIntRes]
  split_ifs <;> omega

theorem sintOf_max (a b : Nat) : sintOf w (vIntRes .max w 0 a b) = max (sintOf w a) (sintOf w b) := by
  simp only [vIntRes]
  split_ifs <;> omega

end Signed

/-! ### The table (R156) -/

/-- Every integer result is a number of its width. -/
theorem vIntRes_lt {op : VOp} {w d a b : Nat} (hop : op ∈ VOp.ints) (ha : a < 2 ^ w) (hb : b < 2 ^ w) : vIntRes op w d a b < 2 ^ w := by
  have rem (n : Nat) : n % 2 ^ w < 2 ^ w := Nat.mod_lt _ (by positivity)
  have pick {p : Prop} [Decidable p] {m n : Nat} (hm : m < 2 ^ w) (hn : n < 2 ^ w) : (if p then m else n) < 2 ^ w := by
    split <;> assumption
  have high : a * b / 2 ^ w < 2 ^ w := Nat.div_lt_of_lt_mul (Nat.mul_lt_mul'' ha hb)
  revert op
  simp only [VOp.ints, List.forall_mem_cons, List.not_mem_nil, false_imp_iff, implies_true, and_true, vIntRes]
  exact ⟨rem _, wrapN_lt _, wrapN_lt _, Nat.and_lt_two_pow _ hb, Nat.or_lt_two_pow ha hb, Nat.xor_lt_two_pow ha hb, rem _,
    (Nat.div_le_self _ _).trans_lt ha, wrapN_lt _, pick ha hb, pick hb ha, (Nat.min_le_left _ _).trans_lt ha, max_lt ha hb, rem _,
    wrapN_lt _, high, rem _, wrapN_lt _, (Nat.min_le_left _ _).trans_lt (Nat.sub_lt (by positivity) (by decide)), wrapN_lt _,
    (Nat.sub_le _ _).trans_lt ha, hb⟩

/-- A difference wrapped, in natural numbers. -/
theorem wrapN_sub {w a b : Nat} (hb : b < 2 ^ w) : wrapN w (a - b) = (a + 2 ^ w - b) % 2 ^ w := by
  have cast : ((a + 2 ^ w - b : Nat) : Int) = (a - b : Int) + 2 ^ w := by
    rw [Nat.cast_sub (by omega)]
    push_cast
    ring
  have wrapped : (((a + 2 ^ w - b) % 2 ^ w : Nat) : Int) = (a - b : Int) % 2 ^ w := by
    push_cast [cast]
    rw [Int.add_emod_right]
  rw [wrapN, ← wrapped, Int.toNat_natCast]

/-! ### Reductions (R163) -/

/-- A sum wrapped at every step is the sum wrapped once. -/
theorem foldl_add_mod (w : Nat) (l : List Nat) (x : Nat) : l.foldl (fun a v => (a + v) % 2 ^ w) x % 2 ^ w = (x + l.sum) % 2 ^ w := by
  induction l generalizing x with
  | nil => rfl
  | cons v l ih => rw [List.foldl_cons, ih, List.sum_cons, Nat.mod_add_mod, Nat.add_assoc]

theorem sintOf_foldl_max (w : Nat) (l : List Nat) (x : Nat) :
    sintOf w (l.foldl (vIntRes .max w 0) x) = (l.map (sintOf w)).foldl max (sintOf w x) := by
  rw [List.foldl_map]
  exact (List.foldl_hom (sintOf w) fun a b => (sintOf_max a b).symm).symm

theorem sintOf_foldl_min (w : Nat) (l : List Nat) (x : Nat) :
    sintOf w (l.foldl (vIntRes .min w 0) x) = (l.map (sintOf w)).foldl min (sintOf w x) := by
  rw [List.foldl_map]
  exact (List.foldl_hom (sintOf w) fun a b => (sintOf_min a b).symm).symm

end Sys2Proof.Machine

/-! SUPPORT. VECTOR_COMPLETE, and what each completed task writes (R144, R149, R151, R156–R163, R192). -/

namespace Sys2Proof.Machine

open Sys2Proof

/-! ### VECTOR_COMPLETE (R151) -/

/-- The operations that load vector or mask registers. -/
def VOp.loadOps : List VOp := [.ld, .lds, .ldx, .ldff, .ldm, .ldr, .ldmr]

/-- The operations that store them. -/
def VOp.storeOps : List VOp := [.st, .sts, .stx, .stm, .str, .stmr]

section Complete

variable {s : State} {c : CoreId} {k : VTask} {rest : List VTask}

/-- An arithmetic task has its effect: the other arms of VECTOR_COMPLETE are those of loads, stores and tile moves. -/
theorem vectorComplete_arith (hs : s.stopped = false) (hvq : (s.core c).vq = k :: rest) (hq : k.q = none)
    (hop : k.op ∉ VOp.loadOps ++ VOp.storeOps ++ [.tvmov, .vtmov]) :
    execVectorComplete c s = done (State.slotGoesOn (s.updCore c fun x => k.arith { x with vq := rest }) c) := by
  simp only [VOp.loadOps, VOp.storeOps, List.cons_append, List.nil_append, List.mem_cons, List.not_mem_nil, or_false, not_or] at hop
  have own : (k.op == .tvmov || k.op == .vtmov || k.q.isSome) = false := by simp [hop, hq]
  simp only [execVectorComplete, hs, hvq, own, Bool.false_eq_true, if_false]
  split <;> simp_all

/-- A load whose every element is answered is placed. -/
theorem vectorComplete_load (hs : s.stopped = false) (hvq : (s.core c).vq = k :: rest) (hq : k.q = none) (hop : k.op ∈ VOp.loadOps)
    {k2 : VTask} {u : State} (hloads : s.vecLoads c k k.acc = (k2, u)) (hacc : k2.acc = []) :
    execVectorComplete c s =
      done (((u.updCore c fun x => k.zeroInactive { x with vq := rest }).lateError c 3 k2.late).slotGoesOn c) := by
  simp only [VOp.loadOps, List.mem_cons, List.not_mem_nil, or_false] at hop
  unfold execVectorComplete
  obtain h | h | h | h | h | h | h := hop <;> simp [hs, hvq, hq, h, hloads, hacc]

/-- A store whose homes are free is performed. -/
theorem vectorComplete_store (hs : s.stopped = false) (hvq : (s.core c).vq = k :: rest) (hq : k.q = none) (hop : k.op ∈ VOp.storeOps)
    (hready : s.storesReady (reqOf c) k.acc = true) :
    execVectorComplete c s = done (((s.vecStores c k).updCore c fun x => { x with vq := rest }).slotGoesOn c) := by
  simp only [VOp.storeOps, List.mem_cons, List.not_mem_nil, or_false] at hop
  unfold execVectorComplete
  obtain h | h | h | h | h | h := hop <;> simp [hs, hvq, hq, h, hready]

end Complete

/-! ### Operations by what they write -/

theorem VOp.elementwise_of_int {op : VOp} (h : op ∈ VOp.ints) : op.elementwise = true := by
  revert op
  decide

/-- The operations whose elements or lanes the mask, Z and the tail govern (R149). -/
def VOp.governed : List VOp := [.fadd, .fsub, .fmul, .fdiv, .fsqrt, .fma, .fnma, .fmin, .fmax, .fabs, .fneg, .fcvtI, .fcvtF, .fcvtW, .fcvtN,
  .fwmul, .fwma, .wmul, .wmulu, .wmulsu, .wmacc, .wmaccu, .wmaccsu, .dot4, .dot4u, .dot4su, .fdot4, .dot2, .dot2u, .fdot2, .slideup, .slidedn,
  .perm]

theorem VOp.elementwise_of_governed {op : VOp} (h : op ∈ VOp.governed) : op.elementwise = true ∨ op = .slideup := by
  revert op
  decide

/-- The compares of integers. -/
def VOp.intCompares : List VOp := [.cmpeq, .cmpne, .cmplt, .cmpltu, .cmple, .cmpleu, .cmpgt, .cmpgtu]

/-- The compares of floating-point numbers. -/
def VOp.fpCompares : List VOp := [.fcmpeq, .fcmplt, .fcmple, .fcmpun]

theorem VOp.compares_of_mem {op : VOp} (h : op ∈ VOp.intCompares ++ VOp.fpCompares) : op.compares = true := by
  revert op
  decide

/-- The reductions, by name. -/
theorem VOp.reduces_of_mem {op : VOp} (h : op ∈ ([.redsum, .redmax, .redmin, .redmaxu, .redminu, .fredsum, .fredmax, .fredmin] : List VOp)) :
    op.reduces = true := by
  revert op
  decide

theorem VOp.mem_masks {op : VOp} : op ∈ VOp.intCompares ++ VOp.fpCompares ++ VOp.maskOps ↔ op.toMask = true := by
  cases op <;> decide

section Results

variable (k : VTask) (x : Core)

/-- The element i of a task that writes its group element by element (R149). -/
theorem VTask.velem_arith (hsew : ElemWidth k.sew) (h : k.op.elementwise = true ∨ k.op = .slideup) (i : Nat) :
    (k.arith x).velem (k.elems x).w k.f.vd.toNat i =
      if i < (k.elems x).n ∧ ¬ (k.op = .slideup ∧ i < k.shift) then
        if k.active x i then ((k.elems x).val i).1 % 2 ^ (k.elems x).w
        else if k.f.z then 0 else x.velem (k.elems x).w k.f.vd.toNat i
      else x.velem (k.elems x).w k.f.vd.toNat i := by
  have hw : ElemWidth (k.elems x).w := k.elemWidth_elems x hsew (by
    obtain h | h := h
    · revert h
      cases k.op <;> decide
    · rw [h]
      rfl)
  have write {skip : Nat → Bool} := VTask.get_write (k := k) (x0 := x) (x := k.accrued x) (n := (k.elems x).n) (skip := skip)
    (set := fun y i v => y.setVelem (k.elems x).w k.f.vd.toNat i v) (val := fun i => ((k.elems x).val i).1)
    (get := fun y i => y.velem (k.elems x).w k.f.vd.toNat i) (dec := fun v => v % 2 ^ (k.elems x).w)
    (fun y i v j => y.velem_setVelem hw _ i v j) i
  obtain h | h := h
  · have hs : k.op ≠ .slideup := fun e => by simp [e, VOp.elementwise] at h
    rw [k.arith_elementwise x h]
    refine write.trans ?_
    simp only [hs, false_and, not_false_iff, and_true, Nat.zero_mod]
    rfl
  · rw [k.arith_slideup x h]
    refine write.trans ?_
    simp only [h, true_and, decide_eq_false_iff_not, Nat.zero_mod]
    rfl

/-- Bit i of a compare, by its element's number (R149, R162). -/
theorem VTask.mbit_arith_compares (h : k.op.compares = true) {i : Nat} (hi : i < k.len) :
    (k.arith x).mbit k.f.vd.toNat i =
      if k.active x i then ((k.elems x).val i).1 == 1 else if k.f.z then false else x.mbit k.f.vd.toNat i := by
  have write := VTask.get_write (k := k) (x0 := x) (x := k.accrued x) (n := (k.elems x).n) (skip := fun _ => false)
    (set := fun y i v => y.setMbit k.f.vd.toNat i (v == 1)) (val := fun i => ((k.elems x).val i).1)
    (get := fun y i => y.mbit k.f.vd.toNat i) (dec := fun v => v == 1)
    (fun y i v j => y.mbit_setMbit _ i j (v == 1)) i
  rw [k.arith_compares x h]
  refine write.trans ((if_pos ⟨?_, rfl⟩).trans rfl)
  rwa [k.elems_n_compares x h]

/-- A truth value as a number is 1 when it is true. -/
theorem b2n_beq_one (b : Bool) : (b2n b == 1) = b := by cases b <;> rfl

theorem VTask.val_intCompares (h : k.op ∈ VOp.intCompares) (i : Nat) :
    (((k.elems x).val i).1 == 1) = vCmpRes k.op k.sew (k.a x i) (k.b x i) := by
  simp only [VOp.intCompares, List.mem_cons, List.not_mem_nil, or_false] at h
  unfold VTask.elems
  obtain h | h | h | h | h | h | h | h := h <;> rw [h] <;> exact b2n_beq_one _

theorem VTask.val_fpCompares (h : k.op ∈ VOp.fpCompares) (i : Nat) :
    (((k.elems x).val i).1 == 1) = (vFcmpRes k.op k.fmt (k.a x i) (k.b x i)).1 := by
  simp only [VOp.fpCompares, List.mem_cons, List.not_mem_nil, or_false] at h
  unfold VTask.elems
  obtain h | h | h | h := h <;> rw [h] <;> exact b2n_beq_one _

/-- Bit i of a mask operation (R162). -/
theorem VTask.mbit_arith_maskOp (h : k.op ∈ VOp.maskOps) {i : Nat} (hi : i < k.len) :
    (k.arith x).mbit k.f.vd.toNat i = k.maskBit x i := by
  rw [k.arith_maskOp x h]
  exact (get_foldl_range (get := fun y i => Core.mbit y k.f.vd.toNat i) (new := fun i _ => k.maskBit x i)
    (fun y i j => by
      rw [Core.mbit_setMbit]) _ _ i).trans (if_pos hi)

/-- Operands are numbers of the task's width. -/
theorem VTask.a_lt (hsew : ElemWidth k.sew) (i : Nat) : k.a x i < 2 ^ k.sew := Core.velem_lt hsew ..

theorem VTask.b_lt (hsew : ElemWidth k.sew) (i : Nat) : k.b x i < 2 ^ k.sew := by
  unfold VTask.b
  split
  · exact Core.velem_lt hsew ..
  · exact Nat.mod_lt _ (by positivity)
  · exact Nat.mod_lt _ (by positivity)

/-- Element i of VMERGE (R156): it chooses by its mask. -/
theorem VTask.velem_arith_merge (hsew : ElemWidth k.sew) (h : k.op = .merge) (i : Nat) :
    (k.arith x).velem k.sew k.f.vd.toNat i =
      if i < k.len then (if x.mbit k.f.mkr.toNat i then k.b x i else k.a x i) else x.velem k.sew k.f.vd.toNat i := by
  have chosen (i : Nat) : (if x.mbit k.f.mkr.toNat i then k.b x i else k.a x i) < 2 ^ k.sew := by
    split
    · exact k.b_lt x hsew i
    · exact k.a_lt x hsew i
  rw [k.arith_merge x h]
  exact get_foldl_range (get := fun y i => Core.velem y k.sew k.f.vd.toNat i)
    (new := fun i _ => if x.mbit k.f.mkr.toNat i then k.b x i else k.a x i)
    (fun y i j => by rw [Core.velem_setVelem hsew, Nat.mod_eq_of_lt (chosen i)]) _ _ i

/-- Element i after VPUT (R163). -/
theorem VTask.velem_arith_put (hsew : ElemWidth k.sew) (h : k.op = .put) (i : Nat) :
    (k.arith x).velem k.sew k.f.vd.toNat i =
      if i = k.xb.toNat ∧ i < k.len then
        (if k.active x i then k.xa.toNat % 2 ^ k.sew else if k.f.z then 0 else x.velem k.sew k.f.vd.toNat i)
      else x.velem k.sew k.f.vd.toNat i := by
  have old : (k.accrued x).velem k.sew k.f.vd.toNat i = x.velem k.sew k.f.vd.toNat i := rfl
  have write (n : Nat) : ((k.accrued x).setVelem k.sew k.f.vd.toNat k.xb.toNat n).velem k.sew k.f.vd.toNat i =
      if i = k.xb.toNat then n % 2 ^ k.sew else x.velem k.sew k.f.vd.toNat i := Core.velem_setVelem hsew ..
  rw [k.arith_put x h]
  by_cases hlen : k.len ≤ k.xb.toNat
  · rw [if_pos hlen, if_neg (by omega), old]
  · simp only [if_neg hlen, apply_ite (fun y : Core => y.velem k.sew k.f.vd.toNat i), write, old]
    by_cases hi : i = k.xb.toNat
    · simp only [hi, if_true, Nat.zero_mod, true_and, Nat.lt_of_not_le hlen]
    · simp only [hi, if_false, false_and, ite_self]

/-- Element i after a reduction (R163): element 0 alone is written. -/
theorem VTask.velem_arith_reduces (hsew : ElemWidth k.sew) (h : k.op.reduces = true) (i : Nat) :
    (k.arith x).velem k.sew k.f.vd.toNat i = if i = 0 then (k.reduce x).1 % 2 ^ k.sew else x.velem k.sew k.f.vd.toNat i := by
  rw [k.arith_reduces x h, Core.velem_setVelem hsew]
  rfl

/-! ### Reductions (R163) -/

/-- The active elements of a task. -/
def VTask.actives : List Nat := (List.range k.len).filter (k.active x)

theorem VTask.reduce_redsum (h : k.op = .redsum) :
    (k.reduce x).1 % 2 ^ k.sew = (k.b x 0 + ((k.actives x).map (k.a x)).sum) % 2 ^ k.sew := by
  rw [← foldl_add_mod, VTask.reduce, h]
  rfl

theorem VTask.reduce_redmaxu (h : k.op = .redmaxu) : (k.reduce x).1 = ((k.actives x).map (k.a x)).foldl max (k.b x 0) := by
  rw [VTask.reduce, h]
  rfl

theorem VTask.reduce_redminu (h : k.op = .redminu) : (k.reduce x).1 = ((k.actives x).map (k.a x)).foldl min (k.b x 0) := by
  rw [VTask.reduce, h]
  rfl

theorem VTask.reduce_redmax (h : k.op = .redmax) :
    sintOf k.sew (k.reduce x).1 = ((k.actives x).map fun i => sintOf k.sew (k.a x i)).foldl max (sintOf k.sew (k.b x 0)) := by
  have fold : (k.reduce x).1 = ((k.actives x).map (k.a x)).foldl (vIntRes .max k.sew 0) (k.b x 0) := by
    rw [VTask.reduce, h]
    rfl
  rw [fold, sintOf_foldl_max, List.map_map]
  rfl

theorem VTask.reduce_redmin (h : k.op = .redmin) :
    sintOf k.sew (k.reduce x).1 = ((k.actives x).map fun i => sintOf k.sew (k.a x i)).foldl min (sintOf k.sew (k.b x 0)) := by
  have fold : (k.reduce x).1 = ((k.actives x).map (k.a x)).foldl (vIntRes .min k.sew 0) (k.b x 0) := by
    rw [VTask.reduce, h]
    rfl
  rw [fold, sintOf_foldl_min, List.map_map]
  rfl

/-! ### Integer tasks (R156) -/

/-- Element i after an integer task: the result of R156 on the old elements, under the mask, Z and the tail (R149). -/
theorem VTask.velem_arith_int (hsew : ElemWidth k.sew) (h : k.op ∈ VOp.ints) (i : Nat) :
    (k.arith x).velem k.sew k.f.vd.toNat i =
      if i < k.len then
        if k.active x i then vIntRes k.op k.sew (x.velem k.sew k.f.vd.toNat i) (k.a x i) (k.b x i)
        else if k.f.z then 0 else x.velem k.sew k.f.vd.toNat i
      else x.velem k.sew k.f.vd.toNat i := by
  have hs : k.op ≠ .slideup := by
    intro e
    rw [e] at h
    revert h
    decide
  have elem := k.velem_arith x hsew (.inl (VOp.elementwise_of_int h)) i
  simp only [k.elems_plain x (List.mem_append_left _ h), hs, false_and, not_false_iff, and_true,
    Nat.mod_eq_of_lt (vIntRes_lt h (k.a_lt x hsew i) (k.b_lt x hsew i))] at elem
  exact elem

end Results

/-! ### The obligation -/

/-- Settles O20: VECTOR_COMPLETE by the kind of its task; the effect of a task by the arm of `VTask.arith` its operation takes, from what
each writes (`VTask.velem_arith` and the lemmas beside it) and what every task leaves alone (`VTask.arith_keeps`). -/
theorem vectorCompletes : Obligations.VectorCompletes := by
  unfold Obligations.VectorCompletes
  refine ⟨?_, ⟨?_, ?_⟩, ?_⟩
  · intro s c k rest hs hvq hq
    exact ⟨fun hop => vectorComplete_arith hs hvq hq hop, fun hop k2 u hloads hacc => vectorComplete_load hs hvq hq hop hloads hacc,
      fun hop hready => vectorComplete_store hs hvq hq hop hready⟩
  · intro k x hop hsew i
    have elem := k.velem_arith_int x (elemWidth_of_sew (.inr hsew)) hop i
    exact ⟨fun hi => elem.trans (if_neg (Nat.not_lt.mpr hi)), fun hi ha => elem.trans ((if_pos hi).trans (if_pos ha)),
      fun hi ha => elem.trans ((if_pos hi).trans (if_neg (by simp [ha])))⟩
  · intro w d a b hw hd ha hb
    refine ⟨fun op hop => vIntRes_lt hop ha hb, rfl, wrapN_sub hb, wrapN_sub ha, rfl, rfl, rfl, ?_, ?_, sintOf_wrapN_shift hw .., sintOf_min ..,
      sintOf_max .., rfl, rfl, rfl, sintOf_wrapN_mulh hw .., rfl, rfl, sintOf_wrapN_satS hw _, rfl, sintOf_wrapN_satS hw _, rfl, rfl⟩
    · show a * 2 ^ (b % w) % 2 ^ w = _
      rw [Nat.shiftLeft_eq]
    · show a / 2 ^ (b % w) = _
      rw [Nat.shiftRight_eq_div_pow]
  · intro k x hsew hlen r y w vd shift m sat masks reds act
    have hw := elemWidth_of_sew hsew
    refine ⟨k.arith_eq x, fun h => ?_, fun h => ?_, fun h i => ?_, fun i hi => ⟨fun h => ?_, fun h => ?_⟩, fun i hi => ?_,
      fun i => ⟨fun h => ?_, k.velem_arith_put x hw (i := i), fun h => k.velem_arith_reduces x hw (VOp.reduces_of_mem h) i⟩,
      k.reduce_redsum x, k.reduce_redmaxu x, k.reduce_redminu x, k.reduce_redmax x, k.reduce_redmin x, fun i => ?_⟩
    · obtain ⟨hv, hm⟩ := k.arith_mask_frame x (VOp.mem_masks.mp h) hlen
      exact ⟨hv, fun j i hji hi _ _ => hm j i hji hi⟩
    · obtain ⟨hm, hv⟩ := k.arith_group_frame x hw (Bool.eq_false_iff.mpr fun hmask => h (VOp.mem_masks.mpr hmask))
      refine ⟨hm, fun j hj => ?_⟩
      rw [Core.vbytes_one, Core.vbytes_one, Nat.mul_zero, Nat.zero_add]
      exact congrArg (fun b => [b]) (hv j hj)
    · have elem := k.velem_arith x hw (VOp.elementwise_of_governed h) i
      have written : (i < (k.elems x).n ∧ ¬ (k.op = .slideup ∧ i < k.shift)) ↔
          ¬ ((k.elems x).n ≤ i ∨ (k.op = .slideup ∧ i < k.shift)) := by rw [not_or, Nat.not_le]
      exact ⟨fun hkept => elem.trans (if_neg fun hw => written.mp hw hkept),
        fun hkept ha => elem.trans ((if_pos (written.mpr hkept)).trans (if_pos ha)),
        fun hkept ha => elem.trans ((if_pos (written.mpr hkept)).trans (if_neg (by simp [ha])))⟩
    · rw [← k.val_intCompares x h]
      exact k.mbit_arith_compares x (VOp.compares_of_mem (List.mem_append_left _ h)) hi
    · rw [← k.val_fpCompares x h]
      exact k.mbit_arith_compares x (VOp.compares_of_mem (List.mem_append_right _ h)) hi
    · have bit (h : k.op ∈ VOp.maskOps) := k.mbit_arith_maskOp x h hi
      refine ⟨fun h => ?_, fun h => ?_, fun h => ?_, fun h => ?_, fun h => ?_, fun h => ?_⟩ <;>
        exact (bit (by rw [h]; decide)).trans (by rw [VTask.maskBit, h])
    · exact k.velem_arith_merge x hw h i
    · intro a b d
      and_intros <;> intro h <;> simp only [r, VTask.elems, vFpRes, vWideRes, h] <;> rfl

end Sys2Proof.Machine

/-! SUPPORT. Amax histories: the update of an entry and the saved image (R198). -/

namespace Sys2Proof.Machine

open Sys2Proof

/-! ### Numbers of k bytes each, one after another -/

theorem length_flatMap_toBytes (k : Nat) (l : List Nat) : (l.flatMap (toBytes k)).length = k * l.length := by
  simp [List.length_flatMap, length_toBytes, Nat.mul_comm]

theorem drop_toBytes_append (k v : Nat) (bs : List Byte) : (toBytes k v ++ bs).drop k = bs :=
  List.drop_left' (length_toBytes k v)

theorem fromBytes_take_toBytes_append (k v : Nat) (bs : List Byte) : fromBytes ((toBytes k v ++ bs).take k) = v % 256 ^ k := by
  rw [List.take_left' (length_toBytes k v), fromBytes_toBytes]

/-- Number j of a list stands at byte k * j, whatever follows the list. -/
theorem fromBytes_flatMap_toBytes (k : Nat) (bs : List Byte) {l : List Nat} {j : Nat} (hj : j < l.length) :
    fromBytes (((l.flatMap (toBytes k) ++ bs).drop (k * j)).take k) = l.getD j 0 % 256 ^ k := by
  induction l generalizing j with
  | nil => cases hj
  | cons v l ih =>
    rw [List.flatMap_cons, List.append_assoc]
    cases j with
    | zero => rw [Nat.mul_zero, List.drop_zero, fromBytes_take_toBytes_append, List.getD_cons_zero]
    | succ j =>
      rw [Nat.mul_succ, Nat.add_comm, ← List.drop_drop, drop_toBytes_append, ih (Nat.lt_of_succ_lt_succ hj), List.getD_cons_succ]

theorem natsOf_flatMap_toBytes (k : Nat) (l : List Nat) (bs : List Byte) :
    natsOf k l.length (l.flatMap (toBytes k) ++ bs) = l.map (· % 256 ^ k) := by
  induction l with
  | nil => rfl
  | cons v l ih =>
    rw [List.length_cons, natsOf, List.flatMap_cons, List.append_assoc, fromBytes_take_toBytes_append, drop_toBytes_append, ih,
      List.map_cons]

theorem setAt_eq_set {α : Type} (l : List α) (n : Nat) (b : α) : setAt l n b = l.set n b := by
  induction l generalizing n with
  | nil => rfl
  | cons a l ih =>
    cases n with
    | zero => rfl
    | succ n => rw [setAt, ih, List.set_cons_succ]

/-! ### The history -/

/-- R198's entries before any update read 0. -/
theorem Hist.getD_default (j : Nat) : ({} : Hist).vals.getD j 0 = 0 := by
  show (List.replicate 16 0).getD j 0 = 0
  rcases Nat.lt_or_ge j 16 with hj | hj
  · rw [List.getD_replicate _ hj]
  · rw [List.getD_eq_default _ _ (by rwa [List.length_replicate])]

namespace Hist

variable {h : Hist}

/-- An update writes the entry after HEAD. -/
theorem getD_push_same (v : Nat) (hlen : h.vals.length = 16) : (h.push v).vals.getD ((h.head + 1) % 16) 0 = v := by
  have hin : (h.head + 1) % 16 < h.vals.length := by omega
  rw [push, setAt_eq_set, List.getD_eq_getElem?_getD, List.getElem?_set_self hin, Option.getD_some]

/-- An update leaves the other entries alone. -/
theorem getD_push_other (v : Nat) {j : Nat} (hj : j ≠ (h.head + 1) % 16) : (h.push v).vals.getD j 0 = h.vals.getD j 0 := by
  rw [push, setAt_eq_set, List.getD_eq_getElem?_getD, List.getElem?_set_ne hj.symm, ← List.getD_eq_getElem?_getD]

/-- The image: the entries, then the word of HEAD and COUNT, then zeros. -/
theorem image_eq (h : Hist) :
    h.image = h.vals.flatMap (toBytes 4) ++ (toBytes 4 (h.head + 16 * h.count) ++ List.replicate 12 0) :=
  List.append_assoc ..

section Image

variable (hlen : h.vals.length = 16)
include hlen

theorem length_entries : (h.vals.flatMap (toBytes 4)).length = 0x40 := by
  rw [length_flatMap_toBytes, hlen]

theorem length_image : h.image.length = 80 := by
  rw [image_eq, List.length_append, List.length_append, length_entries hlen, length_toBytes, List.length_replicate]

theorem image_drop_entries : h.image.drop 0x40 = toBytes 4 (h.head + 16 * h.count) ++ List.replicate 12 0 := by
  rw [image_eq, List.drop_left' (length_entries hlen)]

theorem image_drop_headWord : h.image.drop 0x44 = List.replicate 12 0 := by
  rw [← List.drop_drop (i := 4) (j := 0x40), image_drop_entries hlen, drop_toBytes_append]

theorem image_entry {j : Nat} (hj : j < 16) : fromBytes ((h.image.drop (4 * j)).take 4) = h.vals.getD j 0 % 2 ^ 32 := by
  rw [image_eq]
  exact fromBytes_flatMap_toBytes 4 _ (hlen ▸ hj)

/-- The word of HEAD and COUNT is a word of 32 bits for a HEAD and a COUNT that R198 allows. -/
theorem image_headWord (hhead : h.head < 16) (hcount : h.count ≤ 16) :
    fromBytes ((h.image.drop 0x40).take 4) = h.head + 16 * h.count := by
  rw [image_drop_entries hlen, fromBytes_take_toBytes_append, Nat.mod_eq_of_lt (by omega)]

theorem natsOf_image (hfp : ∀ w ∈ h.vals, w < 2 ^ 32) : natsOf 4 16 h.image = h.vals := by
  rw [image_eq, ← hlen, natsOf_flatMap_toBytes]
  exact (List.map_congr_left fun w hw => Nat.mod_eq_of_lt (hfp w hw)).trans (List.map_id _)

theorem histOf_image (hhead : h.head < 16) (hcount : h.count ≤ 16) (hfp : ∀ w ∈ h.vals, w < 2 ^ 32) : histOf h.image = h := by
  have low : (h.head + 16 * h.count) % 16 = h.head := by omega
  have high : (h.head + 16 * h.count) / 16 % 32 = h.count := by omega
  rw [histOf, image_headWord hlen hhead hcount, natsOf_image hlen hfp, low, high]

end Image

end Hist

/-! ### The obligation -/

/-- Settles O32: an update by what `List.set` does to one entry, the image by where each number stands in a list of 4-byte numbers
(`fromBytes_flatMap_toBytes`), the way back by reading HEAD and COUNT out of their word (`Hist.histOf_image`). -/
theorem historyRoundTrip : Obligations.HistoryRoundTrip := by
  unfold Obligations.HistoryRoundTrip
  refine ⟨Hist.getD_default, rfl, fun h v hlen hhead hcount => ⟨rfl, rfl, Hist.getD_push_same v hlen,
    fun j _ hj => Hist.getD_push_other v hj, fun j hj => Hist.image_entry hlen hj, Hist.image_headWord hlen hhead hcount,
    Hist.image_drop_headWord hlen, Hist.length_image hlen, Hist.histOf_image hlen hhead hcount⟩⟩

end Sys2Proof.Machine

/-! SUPPORT. The tile instructions at their core: what passes its checks retires into the tile queue (R171, R172, R220–R222, R226). -/

namespace Sys2Proof.Machine

open Sys2Proof

/-! ### The tile queue (R226) -/

/-- MXE_STAT is a register: keeping it in step changes no core. -/
@[simp] theorem State.core_mxeSync (s : State) (d : Nat) (c : CoreId) : (s.mxeSync d).core c = s.core c := rfl

/-- A tile instruction stands at the end of its core's queue, under the epoch of its retirement. -/
def State.enqueued (s : State) (c : CoreId) (k : TTask) : State :=
  State.mxeSync (s.updCore c fun y => { y with tq := y.tq ++ [{ k with ep := s.epochCur }] }) (dieOf c).val

theorem State.core_enqueued (s : State) (c : CoreId) (k : TTask) :
    (s.enqueued c k).core c = { s.core c with tq := (s.core c).tq ++ [{ k with ep := s.epochCur }] } := by
  rw [State.enqueued, State.core_mxeSync, State.core_updCore_self]

/-- The instruction enters the queue in the same event in which its core begins it. -/
theorem State.enqueued_begun (s : State) (c : CoreId) (k : TTask) : (s.updCore c Core.begun).enqueued c k =
    State.mxeSync (s.updCore c fun y => { y.begun with tq := y.tq ++ [{ k with ep := s.epochCur }] }) (dieOf c).val := by
  simp only [State.enqueued, State.updCore_eq, State.core_setCore_self, State.setCore_setCore]
  rfl

/-- An instruction on tile n as its core's TCFGn shapes it (R209, R226). -/
def Core.tileTask (x : Core) (op : TOp) (n : Nat) : TTask := { op, tile := n, rows := tcfgRows (x.tcfgOf n), rb := tcfgRb (x.tcfgOf n) }

/-- A queue that has room, on an engine not asked to go idle, takes the instruction. -/
theorem tileRetire_next {s : State} {c : CoreId} (k : TTask) (hroom : (s.core c).tq.length < 16)
    (hidle : s.asked (dieOf c).val 4 = false) : tileRetire c k s = .next (s.enqueued c k) :=
  if_neg (by simp [hidle, hroom])

section Retire

variable {c : CoreId} {i : Instr} {op fn n : Nat} {f : TFields} {reads : List Greg} {ok : Bool} {body : State → Body} {s t u v : State}

/-- A tile instruction of legal fields at a core with an engine, where no loop level ends, meets no exception before its own work (R48, R217). -/
theorem tileInsn_early {x : Core} (hend : x.notLoopEnd) (hsys : isSystem c = false) (h0 : f.rsv0 = 0) (h1 : f.rsv1 = false)
    (hok : ok = true) : (tileInsn c op fn f reads ok).early x = none := by
  refine Insn.early_eq_none (.inl rfl) ?_ (.inr hend)
  simp [tileInsn, hsys, h0, h1, hok]

/-- A tile instruction whose own work is to retire into the queue. -/
theorem tileInsn_retires {k : TTask} (h : s.Ready c i t) (hw : insnWords i = some (wordT op fn f, wordT2 f)) (hend : (t.core c).notLoopEnd)
    (hsys : isSystem c = false) (h0 : f.rsv0 = 0) (h1 : f.rsv1 = false) (hok : ok = true)
    (hb : body (t.updCore c Core.begun) = tileRetire c k u) (hroom : (u.core c).tq.length < 16) (hidle : u.asked (dieOf c).val 4 = false)
    (hslot : (u.core c).slot = none) (hdue : (u.core c).stepDue = false) :
    runInsn c (tileInsn c op fn f reads ok) body s = done ((u.enqueued c k).updCore c fun y => y.after 8) := by
  refine runInsn_done (h.1.words hw) h.2 (tileInsn_early hend hsys h0 h1 hok) (hb.trans (tileRetire_next k hroom hidle)) ?_ ?_
  · rw [State.core_enqueued]
    exact hslot
  · rw [State.core_enqueued]
    exact hdue

/-- The core as its instruction's work begins has the tile queue, slot and single-step mark it had. -/
theorem State.Unhindered.begun (h : t.Unhindered c) :
    ((t.updCore c Core.begun).core c).slot = none ∧ ((t.updCore c Core.begun).core c).stepDue = false := by
  rw [State.core_updCore_self]
  exact ⟨h.1, h.2.2⟩

/-- A tile with rows is configured (R209). -/
theorem Core.configured_of_rows {x : Core} (h : tcfgRows (x.tcfgOf n) ≠ 0) : x.configured n = true := bne_iff_ne.mpr h

/-- TPULL and TPUSH: every row has passed its checks, and no vector access holds them back (R56, R220). -/
theorem tileMem_retires {top : TOp} {l : List ElemAcc} (h : s.Ready c i t) (hw : insnWords i = some (wordT 0x39 fn f, wordT2 f))
    (hend : (t.core c).notLoopEnd) (hsys : isSystem c = false) (h0 : f.rsv0 = 0) (h1 : f.rsv1 = false)
    (hok : (ok && f.tb == 0 && noAddFin f) = true) (hrows : tcfgRows ((t.core c).tcfgOf n) ≠ 0)
    (hchecks : (t.updCore c Core.begun).elemChecks c (reqOf c) f.sg.toNat (top == .tpush) (tileOffs ((t.core c).gread f.ga + sx f.imm)
      ((t.core c).gread f.gb) (tcfgRows ((t.core c).tcfgOf n)) (tcfgRb ((t.core c).tcfgOf n))) = (.all l, u, v))
    (hhold : u.vqHolds c (l.flatMap (·.parts)) (top == .tpush) = false) (hroom : (u.core c).tq.length < 16)
    (hidle : u.asked (dieOf c).val 4 = false) (hslot : (u.core c).slot = none) (hdue : (u.core c).stepDue = false) :
    tileMem c fn top n ok f s = done ((u.enqueued c { (t.core c).tileTask top n with acc := l }).updCore c fun y => y.after 8) := by
  refine tileInsn_retires h hw hend hsys h0 h1 hok ?_ hroom hidle hslot hdue
  have conf : (t.core c).begun.configured n = true := Core.configured_of_rows hrows
  have checks : (t.updCore c Core.begun).elemChecks c (reqOf c) f.sg.toNat (top == .tpush) (tileOffs ((t.core c).begun.gread f.ga + sx f.imm)
      ((t.core c).begun.gread f.gb) (tcfgRows ((t.core c).begun.tcfgOf n)) (tcfgRb ((t.core c).begun.tcfgOf n))) = (.all l, u, v) := hchecks
  simp only [State.core_updCore_self, conf, checks, hhold, Bool.not_true, Bool.false_eq_true, if_false]
  rfl

/-- TWIPE of a configured tile (R221). -/
theorem execTwipe_retires (h : s.Ready c (.twipe c f) t) (hend : (t.core c).notLoopEnd) (hsys : isSystem c = false) (h0 : f.rsv0 = 0)
    (h1 : f.rsv1 = false)
    (hok : (f.ta == 0 && f.tb == 0 && noAddFin f && f.ga == 0 && f.gb == 0 && f.sg == 0 && f.imm == 0) = true)
    (hrows : tcfgRows ((t.core c).tcfgOf f.td.toNat) ≠ 0) (hroom : (t.core c).tq.length < 16) (hidle : t.asked (dieOf c).val 4 = false) :
    execTwipe c f s = done (((t.updCore c Core.begun).enqueued c ((t.core c).tileTask .twipe f.td.toNat)).updCore c
      fun y => y.after 8) := by
  refine tileInsn_retires h rfl hend hsys h0 h1 hok ?_ (by rw [State.core_updCore_self]; exact hroom) hidle h.2.begun.1 h.2.begun.2
  have conf : (t.core c).begun.configured f.td.toNat = true := Core.configured_of_rows hrows
  simp only [State.core_updCore_self, conf, Bool.not_true, Bool.false_eq_true, if_false]
  rfl

/-- ACC.ST and ACC.LD: the tile's rows are one or two accumulator rows each, and the group has them (R222, R224, R225). -/
theorem tileAcc_retires {top : TOp} {opnd base : Nat} (h : s.Ready c i t) (hw : insnWords i = some (wordT 0x3A fn f, wordT2 f))
    (hend : (t.core c).notLoopEnd) (hsys : isSystem c = false) (h0 : f.rsv0 = 0) (h1 : f.rsv1 = false)
    (hok : (ok && f.tb == 0 && !f.add && f.gb == 0 && f.sg == 0) = true) (hrows : tcfgRows ((t.core c).tcfgOf n) ≠ 0)
    (hrb : tcfgRb ((t.core c).tcfgOf n) = 1024 ∨ tcfgRb ((t.core c).tcfgOf n) = 2048)
    (hgroup : (t.updCore c Core.begun).groupCheck c ((t.core c).amOff f)
      (tcfgRb ((t.core c).tcfgOf n) / 1024 * tcfgRows ((t.core c).tcfgOf n)) = .ok base)
    (hroom : (t.core c).tq.length < 16) (hidle : t.asked (dieOf c).val 4 = false) :
    tileAcc c fn top n opnd ok f s = done (((t.updCore c Core.begun).enqueued c
      { (t.core c).tileTask top n with
        row0 := base + (t.core c).amOff f, fin := f.fin, base, group := bits (t.core c).accg 5 0 }).updCore c fun y => y.after 8) := by
  refine tileInsn_retires h hw hend hsys h0 h1 hok ?_ (by rw [State.core_updCore_self]; exact hroom) hidle h.2.begun.1 h.2.begun.2
  have conf : (t.core c).begun.configured n = true := Core.configured_of_rows hrows
  have shape : ¬(tcfgRb ((t.core c).begun.tcfgOf n) ≠ 1024 ∧ tcfgRb ((t.core c).begun.tcfgOf n) ≠ 2048) :=
    fun hne => hrb.elim hne.1 hne.2
  have group : (t.updCore c Core.begun).groupCheck c ((t.core c).begun.amOff f)
      (tcfgRb ((t.core c).begun.tcfgOf n) / 1024 * tcfgRows ((t.core c).begun.tcfgOf n)) = .ok base := hgroup
  simp only [State.core_updCore_self, conf, shape, group, Bool.not_true, Bool.false_eq_true, if_false]
  rfl

/-- TVMOV and VTMOV: the tile is configured and has the rows the move covers; the move stands at the end of both queues (R151, R171, R172). -/
theorem tileMove_retires {vop : VOp} {top : TOp} {g : VFields} (h : s.Ready c i t) (hw : insnWords i = some (wordV 0x36 fn g, wordV2 g))
    (hend : (t.core c).notLoopEnd) (hsys : isSystem c = false) (hlegal : vLegal vop g (t.core c) = true) (hvl : (t.core c).vl ≠ 0)
    (hvq : (t.core c).vq.length < 16) (hroom : (t.core c).tq.length < 16) (hidle : t.asked (dieOf c).val 4 = false)
    (hrows : tcfgRows ((t.core c).tcfgOf n) ≠ 0)
    (hfits : ((t.core c).gread g.gb).toNat + ((t.core c).vl.toNat * sewBits (t.core c).vtype / 8 + tcfgRb ((t.core c).tcfgOf n) - 1)
      / max 1 (tcfgRb ((t.core c).tcfgOf n)) ≤ tcfgRows ((t.core c).tcfgOf n)) :
    tileMove c fn vop top n g s = done (State.updCore (State.mxeSync (t.updCore c fun y => { y.begun with
      tq := y.tq ++ [{ (t.core c).tileTask top n with row0 := ((t.core c).gread g.gb).toNat, ep := t.epochCur }] }) (dieOf c).val) c
      fun y => Core.after { y with vq := y.vq ++ [(t.core c).vtask vop g] } 8) := by
  have entered := t.enqueued_begun c { (t.core c).tileTask top n with row0 := ((t.core c).gread g.gb).toNat }
  rw [← entered]
  have len : ((t.core c).begun.vtask vop g).len ≠ 0 := len_vtask_ne_zero hvl
  have conf : (t.core c).begun.configured n = true := Core.configured_of_rows hrows
  have fits : ¬tcfgRows ((t.core c).begun.tcfgOf n) < ((t.core c).begun.vtask vop g).xb.toNat +
      (((t.core c).begun.vtask vop g).moveBytes + tcfgRb ((t.core c).begun.tcfgOf n) - 1) / max 1 (tcfgRb ((t.core c).begun.tcfgOf n)) :=
    Nat.not_lt.mpr hfits
  have room : ¬16 ≤ (t.core c).begun.vq.length := Nat.not_le.mpr hvq
  have retire (k : TTask) : tileRetire c k (t.updCore c Core.begun) = .next ((t.updCore c Core.begun).enqueued c k) :=
    tileRetire_next k (by rw [State.core_updCore_self]; exact hroom) hidle
  have early : ({ vecInsn 0x36 fn vop g with illegal := fun x => if isSystem c || !vLegal vop g x then some 0x01 else none } : Insn).early
      (t.core c) = none :=
    Insn.early_eq_none (.inl rfl) (by simp [hsys, hlegal]) (.inr hend)
  refine (runInsn_done (u := State.updCore ((t.updCore c Core.begun).enqueued c
      { (t.core c).tileTask top n with row0 := ((t.core c).gread g.gb).toNat }) c fun y => { y with vq := y.vq ++ [(t.core c).vtask vop g] })
    (h.1.words hw) h.2 early ?_ ?_ ?_).trans ?_
  · simp only [State.core_updCore_self, len, conf, fits, room, retire, vecRetire, State.core_enqueued, Bool.not_true, Bool.false_eq_true, if_false]
    rfl
  · rw [State.core_updCore_self, State.core_enqueued]
    exact h.2.begun.1
  · rw [State.core_updCore_self, State.core_enqueued]
    exact h.2.begun.2
  · simp only [State.updCore_eq, State.core_setCore_self, State.setCore_setCore]
    rfl

end Retire

/-! ### The obligation -/

/-- Settles O23: every row passes the checks of its shape and retires into the queue (`tileMem_retires`, `execTwipe_retires`,
`tileAcc_retires`, `tileMove_retires`). -/
theorem tileInstructionsRetire : Obligations.TileInstructionsRetire := by
  unfold Obligations.TileInstructionsRetire
  refine ⟨?_, ?_⟩
  · intro s t c f hend hsys h0 h1 x b retired rows rb ea
    refine ⟨?_, ?_⟩
    · intro u v l htb hadd hfin hroom hidle hslot hdue
      refine ⟨?_, ?_⟩
      · intro hta hrows hchecks hhold h
        exact tileMem_retires h rfl hend hsys h0 h1 (by simp [hta, htb, hadd, hfin, noAddFin]) hrows hchecks hhold hroom hidle hslot hdue
      · intro htd hrows hchecks hhold h
        exact tileMem_retires h rfl hend hsys h0 h1 (by simp [htd, htb, hadd, hfin, noAddFin]) hrows hchecks hhold hroom hidle hslot hdue
    · intro hroom hidle htb hadd hgb hsg
      refine ⟨?_, fun base => ⟨?_, ?_⟩⟩
      · intro hta hfin hga himm hrows h
        exact execTwipe_retires h hend hsys h0 h1 (by simp [hta, htb, hadd, hfin, hga, hgb, hsg, himm, noAddFin]) hrows hroom hidle
      · intro hta hfin hrows hrb hgroup h
        rw [← hfin]
        exact tileAcc_retires h rfl hend hsys h0 h1 (by simp [hta, htb, hadd, hfin, hgb, hsg]) hrows hrb hgroup hroom hidle
      · intro htd hrows hrb hgroup h
        exact tileAcc_retires h rfl hend hsys h0 h1 (by simp [htd, htb, hadd, hgb, hsg]) hrows hrb hgroup hroom hidle
  · simp only [List.forall_mem_cons, List.not_mem_nil, false_imp_iff, implies_true, and_true]
    exact ⟨fun s t c f h hend hsys => tileMove_retires h rfl hend hsys, fun s t c f h hend hsys => tileMove_retires h rfl hend hsys⟩

end Sys2Proof.Machine

/-! SUPPORT. The tile queues at work: the head that a die's memory path serves is performed (R171, R172, R220–R222, R226, R229). -/

namespace Sys2Proof.Machine

open Sys2Proof

/-! ### What reading an engine's memories leaves of the cores (R211, R233) -/

theorem State.keeps_corrected (s : State) (die unit n : Nat) : s.Keeps (s.corrected die unit n) := by
  unfold State.corrected
  dsimp only
  split
  · exact (s.keeps_setFld ..).trans (State.keeps_logErr ..)
  · exact s.keeps_setFld ..

theorem State.keeps_logSomewhere (s : State) (die cls sev unit : Nat) (q : Req) (poison : Bool) (info : Nat) :
    s.Keeps (s.logSomewhere die cls sev unit q poison info) :=
  s.keeps_freeNat.trans (State.keeps_logErr ..)

/-- Errors found in an engine's memories are counted and logged, and change nothing of the cores. -/
theorem State.keeps_eccLog (s : State) (d : Nat) (kinds : List Nat) : s.Keeps (s.eccLog d kinds) := by
  refine State.keeps_foldl (fun t k => ?_) kinds s
  split
  · exact (t.keeps_setRegW ..).trans (State.keeps_corrected ..)
  · exact t.keeps_logSomewhere ..

theorem State.arch_eccTile (s : State) (d a n : Nat) (c : CoreId) : ((s.eccTile d a n).core c).arch = (s.core c).arch := by
  unfold State.eccTile
  dsimp only
  split
  · rfl
  · exact (State.keeps_eccLog ..).cores c

theorem State.arch_eccAm (s : State) (d r w : Nat) (c : CoreId) : ((s.eccAm d r w).core c).arch = (s.core c).arch := by
  unfold State.eccAm
  dsimp only
  split
  · rfl
  · exact (State.keeps_eccLog ..).cores c

/-- A tile file without ECC errors is read as it is. -/
theorem State.eccTile_clean {s : State} {d : Nat} (h : (s.engine d).tdmg = []) (a n : Nat) : s.eccTile d a n = s := by
  simp [State.eccTile, h, damageIn]

/-! ### The queue that is served (R229) -/

/-- With no instruction begun the rotation alone decides. -/
theorem State.tileServed_rotation {s : State} {d : Nat} (h : (s.engine d).tileRun = none) :
    s.tileServed d = nextCore d (s.engine d).lastTile fun e => (s.core e).tileReady := by
  have begun : ((coresOf d).find? fun c => (s.engine d).tileRun == some (coreK c).val && !(s.core c).tq.isEmpty) = none := by
    simp [h]
  rw [State.tileServed, begun]

section Served

variable {s u : State} {d : CDie} {c : CoreId} {k : TTask} {ks : List TTask}

/-- The head of the served queue is performed. -/
theorem execTileQueueOp_head (hs : s.stopped = false) (hserved : s.tileServed d.val = some c) (htq : (s.core c).tq = k :: ks) :
    execTileQueueOp d (coreK c) s = done (s.runTile c k) := by
  simp [execTileQueueOp, hserved, hs, htq]

/-- The queue without its head. -/
theorem State.popTile_tail (htq : (u.core c).tq = k :: ks) : u.popTile c = u.updCore c fun x => { x with tq := ks } := by
  simp only [State.popTile, State.updCore_eq, htq, List.drop_succ_cons, List.drop_zero]

/-- A queued instruction has been served: the rotation goes on after its core, and a slot that waited for it goes on (R229). -/
def State.tileDone (u : State) (d : CDie) (c : CoreId) : State :=
  (State.mxeSync (u.updEngine d.val fun x => { x with lastTile := (coreK c).val, tileRun := none }) d.val).slotGoesOn c

theorem State.runTile_twipe (hd : (dieOf c).val = d.val) (htq : (s.core c).tq = k :: ks) (hop : k.op = .twipe) :
    let slot := tileSlot (coreK c).val k.tile
    s.runTile c k = ((s.updCore c fun x => { x with tq := ks }).updEngine d.val fun x =>
      x.setTile slot k.rb (131072 * slot) (List.replicate (k.rows * k.rb) 0) false).tileDone d c := by
  simp only [State.runTile, hop, hd, State.popTile_tail htq]
  rfl

theorem State.runTile_accSt (hd : (dieOf c).val = d.val) (htq : (s.core c).tq = k :: ks) (hop : k.op = .accSt)
    (howes : s.passOwes d.val k.row0 k.amCount = false) :
    s.runTile c k = (((s.eccAm d.val k.row0 k.amCount).updCore c fun x => { x with tq := ks }).updEngine d.val fun x =>
      accToTile x (tileSlot (coreK c).val k.tile) k).tileDone d c := by
  have htq' : ((s.eccAm d.val k.row0 k.amCount).core c).tq = k :: ks := (congrArg Core.tq (s.arch_eccAm ..)).trans htq
  simp only [State.runTile, hop, hd, howes, State.popTile_tail htq', Bool.false_eq_true, if_false]
  rfl

theorem State.runTile_accLd (hd : (dieOf c).val = d.val) (htq : (s.core c).tq = k :: ks) (hop : k.op = .accLd)
    (howes : s.passOwes d.val k.row0 k.amCount = false) :
    let slot := tileSlot (coreK c).val k.tile
    let u := ((s.eccTile d.val (131072 * slot) (k.rows * k.rb)).updCore c fun x => { x with tq := ks }).updEngine d.val fun x => tileToAcc x slot k
    let q := k.rb / 1024
    s.runTile c k = State.tileDone (if k.fin then u.holdEntries d.val
      (entriesOf k.row0 k.base k.rows q k.group (if q = 2 then 2 else 0) 1 (coreK c).val 0 k.rows) else u) d c := by
  intro slot
  have htq' : ((s.eccTile d.val (131072 * slot) (k.rows * k.rb)).core c).tq = k :: ks := (congrArg Core.tq (s.arch_eccTile ..)).trans htq
  simp only [State.runTile, hop, hd, howes, slot, State.popTile_tail htq', Bool.false_eq_true, if_false]
  rfl

/-- TPULL: the rows whose data have come are placed; the instruction is served with the last, and else stays at the head (R220). -/
theorem State.runTile_tpull {k2 : TTask} (hd : (dieOf c).val = d.val) (hop : k.op = .tpull) (hrows : s.pullRows c k k.acc = (k2, u)) :
    s.runTile c k = if k2.acc = [] then State.tileDone ((u.updCore c fun x => { x with tq := x.tq.drop 1 }).lateError c 4 k2.late) d c
      else State.updEngine (u.updCore c fun x => { x with tq := k2 :: x.tq.drop 1 }) d.val fun x => { x with tileRun := some (coreK c).val } := by
  simp only [State.runTile, hop, hd, hrows, List.isEmpty_iff]
  rfl

theorem State.runTile_tpush {lost : Option (Word × Bool)} (hd : (dieOf c).val = d.val) (hop : k.op = .tpush)
    (hready : s.storesReady (engReq d.val) k.acc = true)
    (hrows : (s.eccTile d.val (131072 * tileSlot (coreK c).val k.tile) (k.rows * k.rb)).pushRows c k = (lost, u)) :
    s.runTile c k = State.tileDone ((u.updCore c fun x => { x with tq := x.tq.drop 1 }).lateError c 4 lost) d c := by
  simp only [State.runTile, hop, hd, hready, hrows, Bool.not_true, Bool.false_eq_true, if_false]
  rfl

theorem State.runTile_move {v : VTask} {vs : List VTask} (hd : (dieOf c).val = d.val) (hop : k.op = .tvmov ∨ k.op = .vtmov)
    (hvq : (s.core c).vq = v :: vs) : s.runTile c k = (s.moveTile c k v).tileDone d c := by
  rcases hop with hop | hop <;> simp only [State.runTile, hop, hd, hvq] <;> rfl

/-! ### Rows read and written (R220) -/

/-- A row whose data have come clean replaces its bytes of the tile. -/
theorem State.pullRows_row {e : ElemAcc} {bs : List Byte} (hd : (dieOf c).val = d.val) (es : List ElemAcc)
    (hrow : s.homeElem (.tile c.val) (engReq d.val) 4 e = (some (bs, none), u)) :
    s.pullRows c k (e :: es) = (u.updEngine d.val fun x =>
      x.setTile (tileSlot (coreK c).val k.tile) k.rb (tileAt (tileSlot (coreK c).val k.tile) k.rb e.idx) bs false).pullRows c k es := by
  simp only [State.pullRows, hd, hrow]
  split
  next hbad => cases hbad
  next => rfl

/-- A row of a TPUSH that is written whole waits for its acknowledgement, and none is lost. -/
theorem State.pushRows_row {e : ElemAcc} (hd : (dieOf c).val = d.val) (hacc : k.acc = [e])
    (hrow : s.pushParts c ((s.engine d.val).tilePoison (tileAt (tileSlot (coreK c).val k.tile) k.rb e.idx) k.rb) e.hosts e.parts
      ((s.engine d.val).tileBytes (tileAt (tileSlot (coreK c).val k.tile) k.rb e.idx) k.rb) = (false, u)) :
    s.pushRows c k = (none, u.updCore c fun y => { y with unacked := y.unacked ++ [s.undoOf { e with idx := tpushIdx k.tile }
      ((s.engine d.val).tileBytes (tileAt (tileSlot (coreK c).val k.tile) k.rb e.idx) k.rb)] }) := by
  simp only [State.pushRows, hacc, List.foldl_cons, List.foldl_nil, hd, hrow, Bool.false_eq_true, if_false]

/-! ### Moves between vectors and tiles (R171, R172) -/

/-- VTMOV: the vector group's bytes become the tile's. -/
theorem State.moveTile_vtmov {v : VTask} {vs : List VTask} (hd : (dieOf c).val = d.val) (htq : (s.core c).tq = k :: ks)
    (hvq : (s.core c).vq = v :: vs) (hop : k.op = .vtmov) :
    s.moveTile c k v = (s.updCore c fun x => { x with tq := ks, vq := vs }).updEngine d.val fun e =>
      e.setTile (tileSlot (coreK c).val k.tile) k.rb (tileAt (tileSlot (coreK c).val k.tile) k.rb k.row0)
        ((s.core c).vbytes v.f.va.toNat 0 v.moveBytes) false := by
  have hne : ¬ k.op = .tvmov := by simp [hop]
  simp only [State.moveTile, hne, if_false, hd, State.updCore_eq, State.core_setCore_self, htq, hvq, List.drop_succ_cons, List.drop_zero]
  rfl

/-- A tile file without a mark holds no poisoned word. -/
theorem Engine.tilePoison_clean {x : Engine} (h : x.tpoison = []) (a n : Nat) : x.tilePoison a n = false := by
  simp [Engine.tilePoison, h, look]

/-- A list cut into its runs of b is whole again. -/
theorem flatMap_runs {α : Type} (b : Nat) (l : List α) {n : Nat} (h : l.length = n * b) :
    ((List.range n).flatMap fun i => (l.drop (i * b)).take b) = l := by
  have whole (m : Nat) (hm : m * b ≤ l.length) : ((List.range m).flatMap fun i => (l.drop (i * b)).take b) = l.take (m * b) := by
    induction m with
    | zero => simp
    | succ m ih =>
      have hle : m * b ≤ l.length := le_trans (Nat.mul_le_mul_right b m.le_succ) hm
      rw [List.range_succ, List.flatMap_append, ih hle, List.flatMap_singleton, Nat.succ_mul, List.take_add]
  rw [whole n h.ge, ← h, List.take_length]

/-- A move covers whole elements, or whole bytes of 4-bit ones (R171). -/
theorem VTask.moveBytes_runs {v : VTask} (hsew : v.sew = 4 ∨ v.sew = 8 ∨ v.sew = 16 ∨ v.sew = 32 ∨ v.sew = 64) :
    v.moveBytes = v.moveBytes / max 1 (v.sew / 8) * max 1 (v.sew / 8) := by
  unfold VTask.moveBytes
  rcases hsew with h | h | h | h | h <;>
    simp only [h, Nat.reduceDiv, Nat.max_def, Nat.reduceLeDiff, if_true, if_false] <;> omega

/-- TVMOV reads a tile without poison as its bytes. -/
theorem moveRead_clean {x : Engine} {v : VTask} (h : x.tpoison = []) (slot : Nat) (k : TTask)
    (hsew : v.sew = 4 ∨ v.sew = 8 ∨ v.sew = 16 ∨ v.sew = 32 ∨ v.sew = 64) :
    moveRead x slot k v = (x.tileBytes (tileAt slot k.rb k.row0) v.moveBytes, false) := by
  have runs := flatMap_runs (max 1 (v.sew / 8)) (x.tileBytes (tileAt slot k.rb k.row0) v.moveBytes)
    ((length_lookRun ..).trans (VTask.moveBytes_runs hsew))
  simp [moveRead, Engine.tilePoison_clean h, runs]

/-- TVMOV: the tile's bytes become the vector group's. -/
theorem State.moveTile_tvmov {v : VTask} {vs : List VTask} (hd : (dieOf c).val = d.val) (htq : (s.core c).tq = k :: ks)
    (hvq : (s.core c).vq = v :: vs) (hop : k.op = .tvmov) (hdmg : (s.engine d.val).tdmg = []) (hpois : (s.engine d.val).tpoison = [])
    (hsew : v.sew = 4 ∨ v.sew = 8 ∨ v.sew = 16 ∨ v.sew = 32 ∨ v.sew = 64) :
    s.moveTile c k v = (s.updCore c fun x => { x with tq := ks, vq := vs }).updCore c fun x => x.setVbytes v.f.vd.toNat 0
      ((s.engine d.val).tileBytes (tileAt (tileSlot (coreK c).val k.tile) k.rb k.row0) v.moveBytes) := by
  have popped : (s.updCore c fun x => { x with tq := x.tq.drop 1, vq := x.vq.drop 1 }) = s.updCore c fun x => { x with tq := ks, vq := vs } := by
    simp only [State.updCore_eq, htq, hvq, List.drop_succ_cons, List.drop_zero]
  have clean := State.eccTile_clean (s := s.updCore c fun x => { x with tq := ks, vq := vs }) (d := d.val) hdmg
  have read := moveRead_clean (x := (s.updCore c fun x => { x with tq := ks, vq := vs }).engine d.val) hpois
    (tileSlot (coreK c).val k.tile) k hsew
  simp only [State.moveTile, hop, if_true, hd, popped, clean, read, Bool.false_eq_true, if_false]
  rfl

end Served

/-! ### The obligation -/

/-- Settles O24: TILE_QUEUE_OP performs the head of the queue it serves (`execTileQueueOp_head`), and each operation is one arm of
`State.runTile`. -/
theorem tileQueueRuns : Obligations.TileQueueRuns := by
  unfold Obligations.TileQueueRuns
  refine ⟨?_, ?_⟩
  · intro s d c k ks hs hd
    refine ⟨State.tileServed_rotation, ?_⟩
    intro hserved htq slot ran served
    have head {u : State} (h : s.runTile c k = u) : exec (.tileQueueOp d (coreK c)) s = .next u.settle :=
      (execTileQueueOp_head hs hserved htq).trans (congrArg done h)
    refine ⟨fun hop => head (State.runTile_twipe hd htq hop), fun hop howes => head (State.runTile_accSt hd htq hop howes),
      fun hop howes => head (State.runTile_accLd hd htq hop howes), ?_, ?_, ?_, ?_⟩
    · intro hop k2 u hrows
      have run := State.runTile_tpull hd hop hrows
      exact ⟨fun hdone => head (run.trans (if_pos hdone)), fun hleft => head (run.trans (if_neg hleft))⟩
    · exact fun hop hready lost u hrows => head (State.runTile_tpush hd hop hready hrows)
    · exact fun e es bs u hrow => State.pullRows_row hd es hrow
    · exact fun e u hacc hrow => State.pushRows_row hd hacc hrow
  · intro s d c k v ks vs hs hd hserved htq hvq slot a n served popped
    have head {u : State} (h : s.runTile c k = u) : exec (.tileQueueOp d (coreK c)) s = .next u.settle :=
      (execTileQueueOp_head hs hserved htq).trans (congrArg done h)
    have move {u : State} (hop : k.op = .tvmov ∨ k.op = .vtmov) (h : s.moveTile c k v = u) : served u :=
      head ((State.runTile_move hd hop hvq).trans (congrArg (State.tileDone · d c) h))
    exact ⟨fun hop => move (.inr hop) (State.moveTile_vtmov hd htq hvq hop),
      fun hop hdmg hpois hsew => move (.inl hop) (State.moveTile_tvmov hd htq hvq hop hdmg hpois hsew)⟩

end Sys2Proof.Machine

/-! SUPPORT. Passes at the array: the rows that enter it, the pass that starts next, B blocks loaded into the latch banks (R202–R206,
R227–R229, R240, R269). -/

namespace Sys2Proof.Machine

open Sys2Proof

/-! ### Memories without ECC errors (R211, R233) -/

/-- Accumulator memory without ECC errors is read as it is. -/
theorem State.eccAm_clean {s : State} {d : Nat} (h : (s.engine d).admg = []) (r w : Nat) : s.eccAm d r w = s := by
  simp [State.eccAm, h, damageIn]

/-- So are tile rows. -/
theorem State.readRows_clean {s : State} {c : CoreId} (h : (s.engine (dieOf c).val).tdmg = []) (n r k : Nat) : s.readRows c n r k = s :=
  State.eccTile_clean h ..

/-- So are the latch banks. -/
theorem State.readBanks_clean {s : State} {d : Nat} (h0 : (s.engine d).bdmg0 = 0) (h1 : (s.engine d).bdmg1 = 0) (ts : List Bank) :
    s.readBanks d ts = s := by
  have bank (i : Bool) : s.eccBank d i = s := by cases i <;> simp [State.eccBank, h0, h1]
  refine List.foldl_fixed' (fun i => ?_) _
  split
  · rw [bank, ite_self]
  · rfl

/-! ### PASS_STREAM (R202–R206, R229) -/

section Stream

variable {s u : State} {d : CDie} {c : CoreId} {p : Pass}

/-- One row enters the array from memories without ECC errors: its output's accumulator rows, the pass's next row, the entries handed over, and
the counters. -/
theorem State.streamRows_one (hd : (dieOf c).val = d.val) (hnext : p.next < p.m) (ht : (s.engine d.val).tdmg = [])
    (ha : (s.engine d.val).admg = []) (h0 : (s.engine d.val).bdmg0 = 0) (h1 : (s.engine d.val).bdmg1 = 0) :
    let x := s.core c
    let ea := tcfgEtype (x.tcfgOf p.ta)
    let acc := accFormat ea p.pair
    let am := p.am + p.w * p.next
    let a := s.passA c p p.next
    let b := s.passB c p
    let o := rowOut ea (tcfgEtype (x.tcfgOf p.tb)) p.kp acc p.pair p.add a b ((s.engine d.val).amRows am (accW acc))
    let u := State.updCore (s.updEngine d.val fun e => e.setAm am (accW acc) o.1 (a.poison || b.poison || (p.add && e.amPoisoned am (accW acc))))
      c fun z => { z with pass := some { p with next := p.next + 1 } }
    let v := if p.fin then u.holdEntries d.val (entriesOf p.am p.base p.m p.w p.group acc 0 (coreK c).val p.next (p.next + 1)) else u
    s.streamRows c p 1 = State.mxeSync (State.orReg (v.countReg d.val .MXE_ROWS (coreK c).val 1) d.val .MXE_FPF (coreK c).val
      (o.2.setWidth 64)) d.val := by
  have rows (n r k : Nat) : s.readRows c n r k = s := State.readRows_clean (hd ▸ ht) n r k
  have noFlags (w : FFlags) : (0 : FFlags) ||| w = w := BitVec.zero_or
  have one : min 1 (p.m - p.next) = 1 := by omega
  simp only [State.streamRows, hd, rows, one, State.eccAm_clean ha, State.readBanks_clean h0 h1, ite_self, List.range_one, List.foldl_cons,
    List.foldl_nil, Nat.add_zero, Engine.arrayRow, noFlags]
  rfl

/-- The pass that streams takes its next rows. -/
theorem execPassStream_streaming (hs : s.stopped = false) (hp : (s.core c).pass = some p) (hrun : s.streamingCore d.val = some c)
    (rows task : Nat) : execPassStream d (coreK c) rows task s = done (s.streamRows c p rows) := by
  simp [execPassStream, hs, hp, hrun]

/-- At a boundary without gang work the next pass of a core starts. -/
theorem execPassStream_starts (hs : s.stopped = false) (hp : (s.core c).pass = some p) (hrun : s.streamingCore d.val = none)
    (hheld : s.passHeld d.val = false) (hgang : s.gangWork d.val = []) (hnext : s.nextPass d.val = some c) (rows task : Nat) :
    execPassStream d (coreK c) rows task s = done (s.startPass c p rows) := by
  simp [execPassStream, hs, hp, hrun, hheld, hgang, hnext]

/-- Of the passes ready with B latched the next in rotation starts next. -/
theorem State.nextPass_latched (h : nextCore d.val (s.engine d.val).lastPass s.passLatched = some c) : s.nextPass d.val = some c := by
  rw [State.nextPass, h]

/-- With none latched the pass of the next B load does, when it is ready. -/
theorem State.nextPass_load (h : nextCore d.val (s.engine d.val).lastPass s.passLatched = none) (hload : s.nextLoad d.val = some c)
    (hready : (s.core c).passReady = true) : s.nextPass d.val = some c := by
  rw [State.nextPass, h, hload]
  exact if_pos hready

/-- A pass whose banks hold its B starts from them (R228). -/
theorem State.startPass_reuse (hd : (dieOf c).val = d.val) (hbanks : (s.passTags c p).all (s.engine d.val).hasBank = true) (rows : Nat) :
    s.startPass c p rows = ((s.reuseBanks d.val (s.passTags c p)).updEngine d.val fun e =>
      { e with lastPass := (coreK c).val, gangOn := false }).streamRows c { p with streaming := true, latched := s.passTags c p } rows := by
  simp only [State.startPass, hd, hbanks, if_true]

/-- A pass whose B is not latched starts from the banks its load fills (R228). -/
theorem State.startPass_load (hd : (dieOf c).val = d.val) (hbanks : (s.passTags c p).all (s.engine d.val).hasBank = false)
    (hlatch : s.latch c (s.passTags c p) = some u) (rows : Nat) :
    s.startPass c p rows = (u.updEngine d.val fun e =>
      { e with lastPass := (coreK c).val, gangOn := false }).streamRows c { p with streaming := true, latched := s.passTags c p } rows := by
  simp only [State.startPass, hd, hbanks, hlatch, Bool.false_eq_true, if_false]

/-! ### B_LOAD (R227, R228) -/

/-- One tag that no bank holds is latched by its load into a bank that is free. -/
theorem State.latch_loads {t : Bank} {i : Bool} (hd : (dieOf c).val = d.val) (hp : (s.core c).pass = some p)
    (hu : u = s.updCore c fun z => { z with pass := some { p with latched := [t] } }) (hbank : (s.engine d.val).hasBank t = false)
    (hfree : u.freeBank d.val = some i) : s.latch c [t] = some ((u.readB c t).2.loadBank d.val i t (u.readB c t).1) := by
  have mark : (s.updCore c fun x => { x with pass := x.pass.map fun p => { p with latched := [t] } }) = u := by
    simp only [hu, State.updCore_eq, hp, Option.map_some]
  have bank : (u.engine d.val).hasBank t = false := by rw [hu]; exact hbank
  simp only [State.latch, mark, State.latchAhead, List.foldl_cons, List.foldl_nil, Option.bind_some, State.latchTag, hd, bank, hfree,
    Bool.false_eq_true, if_false, Option.map_some]

/-- The first checked pass that has no B block latched has it loaded. -/
theorem execBLoad_latches (hd : (dieOf c).val = d.val) (hs : s.stopped = false) (hrun : s.running c = true) (hload : s.nextLoad d.val = some c)
    (hp : (s.core c).pass = some p) (hlatch : s.latch c (s.passTags c p) = some u) : execBLoad c s = done (u.mxeSync d.val) := by
  simp [execBLoad, hd, hs, hrun, hload, hp, hlatch]

end Stream

/-! ### The obligation -/

/-- Settles O26: a row by `State.streamRows_one`, a start by which pass `State.nextPass` names and whether its banks hold its B
(`State.startPass_reuse`, `State.startPass_load`), a B load by `State.latch_loads`. -/
theorem passStreams : Obligations.PassStreams := by
  unfold Obligations.PassStreams
  intro s d c p hs hd hp x y ea eb acc am a b o ts starts
  refine ⟨?_, ?_, ?_⟩
  · intro hrun hnext ht ha h0 h1
    exact (execPassStream_streaming hs hp hrun 1 0).trans (congrArg done (State.streamRows_one hd hnext ht ha h0 h1))
  · intro hrun hheld hgang
    have start {u : State} (hnext : s.nextPass d.val = some c) (h : ∀ rows, s.startPass c p rows = State.streamRows
        (u.updEngine d.val fun e => { e with lastPass := (coreK c).val, gangOn := false }) c { p with streaming := true, latched := ts } rows) :
        starts u := fun rows task => (execPassStream_starts hs hp hrun hheld hgang hnext rows task).trans (congrArg done (h rows))
    exact ⟨fun hnext hbanks => start (State.nextPass_latched hnext) (State.startPass_reuse hd hbanks),
      fun hnone hload hready hbanks u hlatch => start (State.nextPass_load hnone hload hready) (State.startPass_load hd hbanks hlatch)⟩
  · intro hrun hload hpair hbank tag u i hfree
    have tags : s.passTags c p = [tag] := by simp [State.passTags, hpair, tag]
    exact execBLoad_latches hd hs hrun hload hp (by rw [tags]; exact State.latch_loads hd hp rfl hbank hfree)

end Sys2Proof.Machine

/-! SUPPORT. TMMA up to its checks, and the mode shadow of a core that waits in its pass (R76, R97, R218, R227). -/

namespace Sys2Proof.Machine

open Sys2Proof

/-! ### The mode shadow of a checked pass (R76, R227) -/

section Checked

variable {s t u : State} {c : CoreId} {f : TFields} {base : Nat}

theorem State.Keeps.msh (h : s.Keeps t) (c : CoreId) : (t.core c).msh = (s.core c).msh :=
  (congrArg Core.msh (h.cores c) : (t.core c).arch.msh = (s.core c).arch.msh)

/-- A core that waits at an instruction keeps the mode shadow the instruction runs under: it is the retirement that ends it (R76). -/
theorem runInsn_wait_msh {k : Insn} {body : State → Body} (h : s.FetchesWords c (k.word, k.word2) t) (he : k.early (t.core c) = none)
    (hb : body (t.updCore c Core.begun) = .wait u) : ∃ v, runInsn c k body s = .next v ∧ (v.core c).msh = (t.core c).msh := by
  refine ⟨State.settle (u.updCore c fun y => { y with msh := (t.core c).msh, oldMode := none }), runInsn_wait h he hb, ?_⟩
  rw [(State.keeps_settle _).msh, State.core_updCore_self]

/-- A pass whose shape and group pass their checks makes its core wait (R218, R227). -/
theorem passBody_waits (hshape : (s.core c).tmmaCheck f.ta.toNat f.tb.toNat = none)
    (hgroup : groupCheckOf (coreK c) (bits (s.core c).accg 5 0) (s.groupSeen c false f.ta.toNat f.tb.toNat).1 ((s.core c).amOff f)
      (accW (accFormat (tcfgEtype ((s.core c).tcfgOf f.ta.toNat)) false) * tcfgRows ((s.core c).tcfgOf f.ta.toNat)) = .ok base) :
    ∃ u, passBody c false f s = .wait u := by
  simp only [passBody, hshape, hgroup, Bool.false_eq_true, if_false]
  exact ⟨_, rfl⟩

/-- TMMA checked in a mode shadow leaves its core in that shadow. -/
theorem execTmma_msh {ag : Word} (h : s.Fetches c (.tmma c f) t) (hend : (t.core c).notLoopEnd) (hsys : isSystem c = false) (h0 : f.rsv0 = 0)
    (h1 : f.rsv1 = false) (hok : (f.td == 0 && f.gb == 0 && f.sg == 0) = true) (hshape : (t.core c).tmmaCheck f.ta.toNat f.tb.toNat = none)
    (hseen : (t.updCore c Core.begun).groupSeen c false f.ta.toNat f.tb.toNat = (ag, u))
    (hgroup : groupCheckOf (coreK c) (bits (t.core c).accg 5 0) ag ((t.core c).amOff f)
      (accW (accFormat (tcfgEtype ((t.core c).tcfgOf f.ta.toNat)) false) * tcfgRows ((t.core c).tcfgOf f.ta.toNat)) = .ok base) :
    ∃ v, exec (.tmma c f) s = .next v ∧ (v.core c).msh = (t.core c).msh := by
  have begun : (t.updCore c Core.begun).core c = (t.core c).begun := State.core_updCore_self ..
  obtain ⟨w, hw⟩ := passBody_waits (s := t.updCore c Core.begun) (c := c) (f := f) (by rw [begun]; exact hshape)
    (by rw [begun, hseen]; exact hgroup)
  exact runInsn_wait_msh (h.words rfl) (tileInsn_early hend hsys h0 h1 hok) hw

end Checked

/-! ### A word of code whose line is not kept (R67) -/

/-- With translation off an access within one line that passes its segment check is one piece, and leaves no trace (R86, R99). -/
theorem State.checkAccess_line {s : State} {c : CoreId} {g : SegReg} {sg ring n : Nat} {k : AKind} {o : Word}
    (hseg : segCheck g sg k ring o n = none) (hptb : bit (s.core c).ptb 0 = false) (h0 : 0 < n)
    (hline : (g.base + o.toNat) % 64 + n ≤ 64) (h48 : g.base + o.toNat < 2 ^ 48) :
    s.checkAccess c g sg k ring o n = (.ok [⟨g.base + o.toNat, n⟩], s) := by
  simp only [State.checkAccess, hseg, lines_single h0 hline, State.xlateParts, State.xlateCore, hptb, h48, Bool.not_false, if_true]

/-- A word of ordinary memory at core c's own die can be read there and leaves no trace, and its line, which has poison, is not kept. -/
def State.codeHere (s : State) (c : CoreId) (a : Nat) : Bool :=
  let q := reqOf c
  let t := s.decodePA a
  decide (s.homeCheck q a = none) && t.plain && !s.homeBusy q t && decide (q.die = t.die) && s.waits.isEmpty && !s.rspDown q a &&
    !s.anyPoison a 4 && ((List.range 4).all fun i => !s.workByte (a + i)) && ((s.core c).codeLine (a / 64)).isNone &&
    s.anyPoison (a - a % 64) 64

/-- Such a word is fetched with one free choice, whether to keep the line. -/
theorem State.codeParts_here {s : State} {c : CoreId} {a : Nat} (h : s.codeHere c a = true) :
    (s.decodePA a).plain = true ∧ s.codeParts c [⟨a, 4⟩] = (.ok (s.bytes a 4), { s with free := s.free + 1 }) := by
  simp only [State.codeHere, Bool.and_eq_true, decide_eq_true_eq, Bool.not_eq_true', List.isEmpty_iff, List.all_eq_true, List.mem_range,
    Option.isNone_iff_eq_none] at h
  obtain ⟨⟨⟨⟨⟨⟨⟨⟨⟨hcheck, hplain⟩, hbusy⟩, hdie⟩, hwaits⟩, hrsp⟩, hclean⟩, hwork⟩, hline⟩, hpoison⟩ := h
  have reached : s.reached (reqOf c) a = s := by
    simp only [State.reached, State.endWait, hwaits, List.filter_nil, State.travel, hdie, if_true]
    rw [← hwaits]
  have read := State.plainRead_reached (State.atHome_reached hcheck hplain hbusy) hrsp hclean hwork
  rw [reached] at read
  have unkept : ({ s with free := s.free + 1 } : State).fillCode c a = { s with free := s.free + 1 } := if_pos hpoison
  refine ⟨hplain, ?_⟩
  simp only [State.codeParts, State.codeRead, hline, State.missCode, read, State.freeBool, unkept, ite_self, List.append_nil]

/-- It is fetched through the code segment of the mode shadow (R97). -/
theorem State.fetchWord_shadowed {s : State} {c : CoreId} {m : ModeShadow} {o : Word} {a : Nat} (hmsh : (s.core c).msh = some m)
    (hcheck : s.checkAccess c m.sg0 0 .fetch (s.core c).ring o 4 = (.ok [⟨a, 4⟩], s)) (hcode : s.codeHere c a = true) :
    s.fetchWord c o = (.ok (fromBytes (s.bytes a 4)), { s with free := s.free + 1 }) := by
  obtain ⟨hplain, hparts⟩ := State.codeParts_here hcode
  obtain ⟨ch, pc, h⟩ | ⟨d, h⟩ | h := Target.plain_cases hplain <;>
    simp [State.fetchWord, hmsh, hcheck, h, hparts]

/-! ### A TMMA in a mode shadow -/

/-- Core 0 of C-die 0. -/
def firstCore : CoreId := ⟨0, by decide⟩

/-- Core 0 runs at a TMMA of tile 0 by itself (256 rows of 256 BF16 elements) that stands at the first byte of HBM, in the mode shadow of a write
of STATUS.IM (R63), with the flat code segment. Group 0 has rows 0–1023 and belongs to core 0. The second sector of the instruction's line is
poisoned. -/
def shadowedTmma : State :=
  { regs := (((State.reset.setFld 0 .RST_RUN 0 0 0 1).setReg 24 .HBM_CAP 0 4096).setReg 0 .MXE_AG 0 0x8000000104000000).regs
    cores := [(0, { tcfg := [(0, 0x302000100)], msh := some { sg0 := .flat 0 } })]
    mem := [(3, 0xE0)]
    poison := [(32, true)]
    rst := { asserted := [], rails := true, pwrEn := true } }

/-- The states of its fetch: a free choice is made for each word. -/
def shadowedTmmaDrawn (n : Nat) : State := { shadowedTmma with free := n }

/-- A word of the instruction, fetched through the mode shadow's flat segment. -/
theorem fetchWord_shadowedTmma {n a w : Nat} {o : Word} (hseg : segCheck (.flat 0) 0 .fetch 0 o 4 = none) (hline : a % 64 + 4 ≤ 64)
    (h48 : a < 2 ^ 48) (ho : o.toNat = a) (hcode : (shadowedTmmaDrawn n).codeHere firstCore a = true)
    (hword : fromBytes ((shadowedTmmaDrawn n).bytes a 4) = w) :
    (shadowedTmmaDrawn n).fetchWord firstCore o = (.ok w, shadowedTmmaDrawn (n + 1)) := by
  have core : (shadowedTmmaDrawn n).core firstCore = { tcfg := [(0, 0x302000100)], msh := some { sg0 := .flat 0 } } := rfl
  have base : (SegReg.flat 0).base + o.toNat = a := by rw [ho]; exact Nat.zero_add a
  have access := State.checkAccess_line (s := shadowedTmmaDrawn n) (c := firstCore) hseg (by rw [core]; decide) (by decide) (base ▸ hline)
    (base ▸ h48)
  rw [base] at access
  have word := State.fetchWord_shadowed (congrArg Core.msh core) (by rw [core]; exact access) hcode
  rw [word, hword]
  simp only [shadowedTmmaDrawn]

theorem fetch_shadowedTmma : (shadowedTmmaDrawn 0).fetch firstCore = (.ok (0xE0000000, 0), shadowedTmmaDrawn 2) := by
  have ip (n : Nat) : ((shadowedTmmaDrawn n).core firstCore).ip = 0 := rfl
  have first := fetchWord_shadowedTmma (n := 0) (o := 0) (by decide +kernel) (by decide) (by decide) rfl (by decide +kernel)
    (show _ = 0xE0000000 by decide +kernel)
  have second := fetchWord_shadowedTmma (n := 1) (o := 4) (by decide +kernel) (by decide) (by decide) rfl (by decide +kernel)
    (show _ = 0 by decide +kernel)
  have long : isLong 0xE0000000 = true := by decide
  simp only [State.fetch, ip, first, long, if_true, zero_add, second]

theorem fetches_shadowedTmma : (shadowedTmmaDrawn 0).Fetches firstCore (.tmma firstCore {}) (shadowedTmmaDrawn 2) :=
  ⟨_, rfl, by decide +kernel, rfl, rfl, by decide, fetch_shadowedTmma⟩

/-- Refutes O25: a TMMA fetched in a mode shadow (`shadowedTmma`) leaves its core in that shadow while the pass is in progress (`execTmma_msh`): R76
ends the shadow with the instruction. The core of the statement's next state has none. -/
theorem not_passesCheckedAndRetired : ¬ Obligations.PassesCheckedAndRetired := by
  unfold Obligations.PassesCheckedAndRetired
  intro h
  obtain ⟨hchecked, -⟩ := h
  have hend : ((shadowedTmmaDrawn 2).core firstCore).notLoopEnd := rfl
  have hshape : ((shadowedTmmaDrawn 2).core firstCore).tmmaCheck 0 0 = none := by decide +kernel
  have hgroup : groupCheckOf (coreK firstCore) 0 ((shadowedTmmaDrawn 2).reg 0 .MXE_AG 0) 0 256 = .ok 0 := by
    have ag : (shadowedTmmaDrawn 2).reg 0 .MXE_AG 0 = 0x8000000104000000 := by decide +kernel
    rw [ag]
    rfl
  obtain ⟨htmma, -, hseen⟩ := hchecked (shadowedTmmaDrawn 0) (shadowedTmmaDrawn 2) firstCore {} 0 hend rfl rfl rfl rfl rfl rfl
  have stated := htmma hshape fetches_shadowedTmma _ _ (hseen rfl false) hgroup
  obtain ⟨v, hv, hmsh⟩ := execTmma_msh fetches_shadowedTmma hend rfl rfl rfl rfl hshape (hseen rfl false) hgroup
  rw [Host.Outcome.next.inj (hv.symm.trans stated), (State.keeps_settle _).msh, State.core_updCore_self] at hmsh
  have shadow : (((shadowedTmmaDrawn 2).updCore firstCore Core.begun).core firstCore).msh = some { sg0 := .flat 0 } := hmsh
  rw [State.core_updCore_self] at shadow
  cases shadow

end Sys2Proof.Machine

/-! SUPPORT. What log entries, interrupts and ERR_HEALTH leave of the gangs: their queues and running operations, the Trowel's windows, GNG_STAT
(R267, R468, R470). -/

namespace Sys2Proof.Machine

open Sys2Proof

/-! ### GNG_STAT beside the other registers (R26, R267) -/

/-- A register of another block, or of a C-die, is no GNG_STAT of the K-die. -/
theorem regKey_ne_stat {d : Nat} {r : RegName} {i w : Nat} (hb : (regInfo r).blk ≠ 0x0D ∨ d ≠ 24)
    (ho : (regInfo r).off + (regInfo r).stride * i + 8 * w < 0x10000) (g : Gang) : regKey 24 .GNG_STAT g.val 0 ≠ regKey d r i w := by
  have hbase : dieBase d = 0 ∧ d = 24 ∨ 0x1000000 ≤ dieBase d := by
    unfold dieBase
    split
    · exact .inl ⟨rfl, ‹d = 24›⟩
    · exact .inr (by omega)
  have hstat : regKey 24 .GNG_STAT g.val 0 = 0xD0048 + 64 * g.val := by simp [regKey, regInfo, dieBase]
  have hg := g.isLt
  rw [hstat, regKey]
  generalize (regInfo r).stride * i = x at *
  omega

theorem State.stat_setRegW (s : State) {d : Nat} {r : RegName} {i w : Nat} (v : Word) (hb : (regInfo r).blk ≠ 0x0D ∨ d ≠ 24)
    (ho : (regInfo r).off + (regInfo r).stride * i + 8 * w < 0x10000) (g : Gang) :
    (s.setRegW d r i w v).reg 24 .GNG_STAT g.val = s.reg 24 .GNG_STAT g.val :=
  s.regW_setRegW_ne v (regKey_ne_stat hb ho g)

/-! ### The relation -/

/-- State t has of s the gangs, the Trowel, and what GNG_STAT shows of each gang. -/
structure State.KeepsGangs (s t : State) : Prop where
  gangs : t.gangs = s.gangs
  trowel : t.trowel = s.trowel
  stat : ∀ g : Gang, t.reg 24 .GNG_STAT g.val = s.reg 24 .GNG_STAT g.val

theorem State.KeepsGangs.refl (s : State) : s.KeepsGangs s := ⟨rfl, rfl, fun _ => rfl⟩

theorem State.KeepsGangs.trans {s t u : State} (h : s.KeepsGangs t) (k : t.KeepsGangs u) : s.KeepsGangs u :=
  ⟨k.gangs.trans h.gangs, k.trowel.trans h.trowel, fun g => (k.stat g).trans (h.stat g)⟩

theorem State.KeepsGangs.of {α : Type} {s t : State} {r : α × State} {a : α} (e : r = (a, t)) (h : s.KeepsGangs r.2) : s.KeepsGangs t := by
  subst e; exact h

theorem State.KeepsGangs.gang {s t : State} (h : s.KeepsGangs t) (g : Nat) : t.gang g = s.gang g :=
  congrArg (fun m : Sparse GangSt => look (fun _ => ({} : GangSt)) m g) h.gangs

theorem State.KeepsGangs.fld {s t : State} (h : s.KeepsGangs t) (g : Gang) (hi lo : Nat) :
    t.fld 24 .GNG_STAT g.val hi lo = s.fld 24 .GNG_STAT g.val hi lo := congrArg (bits · hi lo) (h.stat g)

theorem State.KeepsGangs.blockRows {s t : State} (h : s.KeepsGangs t) : t.blockRows = s.blockRows := by
  funext d b
  simp only [State.blockRows, State.blockMember, State.window, h.trowel]

/-- A fold whose every step leaves the gangs as they were does so too. -/
theorem State.keepsGangs_foldl {α : Type} {f : State → α → State} (l : List α) (hf : ∀ (t : State), ∀ a ∈ l, t.KeepsGangs (f t a))
    (s : State) : s.KeepsGangs (l.foldl f s) := by
  induction l generalizing s with
  | nil => exact .refl s
  | cons a l ih => exact (hf s a (List.mem_cons_self ..)).trans (ih (fun t b hb => hf t b (List.mem_cons_of_mem _ hb)) _)

theorem State.keepsGangs_setRegW (s : State) {d : Nat} {r : RegName} {i w : Nat} (v : Word) (hb : (regInfo r).blk ≠ 0x0D ∨ d ≠ 24)
    (ho : (regInfo r).off + (regInfo r).stride * i + 8 * w < 0x10000) : s.KeepsGangs (s.setRegW d r i w v) :=
  ⟨rfl, rfl, s.stat_setRegW v hb ho⟩

/-! ### Interrupts, log entries, ERR_HEALTH -/

theorem State.keepsGangs_sendIrq (s : State) (route die : Nat) : s.KeepsGangs (s.sendIrq route die) := by
  unfold State.sendIrq
  dsimp only
  split <;> exact ⟨rfl, rfl, fun _ => rfl⟩

theorem State.keepsGangs_mcLog (s : State) (kind sev die p0 p1 p2 : Nat) : s.KeepsGangs (s.mcLog kind sev die p0 p1 p2) := by
  unfold State.mcLog
  dsimp only
  split
  · exact .trans (t := { s with mclog := { s.mclog with dropped := s.mclog.dropped + 1 } }) ⟨rfl, rfl, fun _ => rfl⟩
      (State.keepsGangs_setRegW (r := .MC_STAT) (i := 0) (w := 0) _ _ (by decide) (by decide))
  · exact ⟨rfl, rfl, fun _ => rfl⟩

theorem State.keepsGangs_setReplace (s : State) : s.KeepsGangs s.setReplace := by
  unfold State.setReplace
  split
  · exact .refl s
  · exact (s.keepsGangs_setRegW _ (.inl (by decide)) (by decide)).trans (State.keepsGangs_mcLog ..)

theorem State.keepsGangs_settle (s : State) : s.KeepsGangs s.settle := by
  unfold State.settle
  dsimp only
  split
  · exact s.keepsGangs_setReplace.trans (State.keepsGangs_setRegW _ _ (.inl (by decide)) (by decide))
  · exact State.keepsGangs_setRegW _ _ (.inl (by decide)) (by decide)

theorem State.keepsGangs_choose (s : State) (l : List Nat) : s.KeepsGangs (s.choose l).2 := by
  unfold State.choose
  split <;> exact ⟨rfl, rfl, fun _ => rfl⟩

theorem State.keepsGangs_freeNat (s : State) : s.KeepsGangs s.freeNat.2 := ⟨rfl, rfl, fun _ => rfl⟩

theorem State.keepsGangs_countUe (s : State) (die cls : Nat) {unit : Nat} (h : unit < 16) : s.KeepsGangs (s.countUe die cls unit) := by
  unfold State.countUe
  split
  · exact s.keepsGangs_setRegW _ (.inl (by decide)) (by simp only [regInfo]; omega)
  · exact .refl s

/-- The count of its unit, the entry, the MC's, the interrupt and REPLACE: the steps of a log entry in turn (R468). -/
theorem State.keepsGangs_logErr (s : State) (die cls sev : Nat) {unit : Nat} (q : Req) (addr : Option Nat) (poison : Bool) (info : Nat)
    (hu : unit < 16) : s.KeepsGangs (s.logErr die cls sev unit q addr poison info) := by
  unfold State.logErr
  extract_lets s1 dw0 a order s2 s3 s4
  have counted : s.KeepsGangs s1 := s.keepsGangs_countUe die cls hu
  have logged : s1.KeepsGangs s2 := by
    have chosen := s1.keepsGangs_choose ((List.range 64).filter fun i => !order.contains i)
    unfold s2
    split
    next h => exact (chosen.of h).trans (State.keepsGangs_setRegW _ _ (.inl (by decide)) (by decide))
    next i u h =>
      have hi : i < 64 := by simpa using (List.mem_filter.mp (State.mem_of_choose h)).1
      have entry (v : State) (w : Nat) (x : Word) (hw : w < 4) : v.KeepsGangs (v.setRegW die .ERR_LOG i w x) :=
        v.keepsGangs_setRegW x (.inl (by decide)) (by simp only [regInfo]; omega)
      have order (v : State) (m : Sparse (List Nat)) : v.KeepsGangs { v with errOrder := m } := ⟨rfl, rfl, fun _ => rfl⟩
      refine .trans ?_ (State.keepsGangs_setRegW _ _ (.inl (by decide)) (by decide))
      refine .trans ?_ (order _ _)
      exact ((((chosen.of h).trans (entry _ 0 _ (by omega))).trans (entry _ 1 _ (by omega))).trans (entry _ 2 _ (by omega))).trans
        (entry _ 3 _ (by omega))
  have reported : s2.KeepsGangs s3 := State.keepsGangs_mcLog ..
  have sent : s3.KeepsGangs s4 := by
    unfold s4
    split
    · exact State.keepsGangs_sendIrq ..
    · exact .refl s3
  have all := ((counted.trans logged).trans reported).trans sent
  split
  · exact all.trans (State.keepsGangs_setReplace _)
  · exact all

theorem State.keepsGangs_logSomewhere (s : State) (die cls sev : Nat) {unit : Nat} (q : Req) (poison : Bool) (info : Nat) (hu : unit < 16) :
    s.KeepsGangs (s.logSomewhere die cls sev unit q poison info) :=
  s.keepsGangs_freeNat.trans (State.keepsGangs_logErr _ _ _ _ _ _ _ _ hu)

/-! ### Errors in an engine's memories (R211, R233) -/

theorem State.keepsGangs_corrected (s : State) (die n : Nat) : s.KeepsGangs (s.corrected die 4 n) := by
  unfold State.corrected
  dsimp only
  have counted (v : Word) : s.KeepsGangs (s.setRegW die .ERR_CNT 4 0 v) := s.keepsGangs_setRegW v (.inl (by decide)) (by decide)
  split
  · exact (counted _).trans (State.keepsGangs_logErr _ _ _ _ _ _ _ _ (by decide))
  · exact counted _

theorem State.keepsGangs_eccLog (s : State) (d : Nat) (kinds : List Nat) : s.KeepsGangs (s.eccLog d kinds) := by
  refine State.keepsGangs_foldl kinds (fun t k _ => ?_) s
  split
  · exact (t.keepsGangs_setRegW _ (.inl (by decide)) (by decide)).trans (State.keepsGangs_corrected ..)
  · exact t.keepsGangs_logSomewhere d 0x02 1 ⟨d, 4⟩ true 0 (by decide)

theorem State.keepsGangs_updEngine (s : State) (d : Nat) (f : Engine → Engine) : s.KeepsGangs (s.updEngine d f) := ⟨rfl, rfl, fun _ => rfl⟩

theorem State.keepsGangs_eccAm (s : State) (d r w : Nat) : s.KeepsGangs (s.eccAm d r w) := by
  unfold State.eccAm
  dsimp only
  split
  · exact .refl s
  · exact (s.keepsGangs_updEngine ..).trans (State.keepsGangs_eccLog ..)

end Sys2Proof.Machine

/-! SUPPORT. Gangs that narrow and take members back in: the active members and the generation in GNG_STAT (R263–R265). -/

namespace Sys2Proof.Machine

open Sys2Proof

/-! ### Fields that have been replaced -/

theorem bits_setBits_same (w : Word) {hi lo : Nat} (v : Nat) (h : lo ≤ hi) (hw : hi < 64) :
    bits (setBits w hi lo v) hi lo = v % 2 ^ (hi + 1 - lo) := by
  refine Nat.eq_of_testBit_eq fun i => ?_
  rw [testBit_bits, Nat.testBit_mod_two_pow]
  by_cases hi : i < hi + 1 - lo
  · rw [bit_setBits _ _ h (by omega), if_pos (by omega), Nat.add_sub_cancel_left]
  · rw [decide_eq_false hi, Bool.false_and, Bool.false_and]

/-- A field above the one that has been replaced. -/
theorem bits_setBits_above (w : Word) {hi lo hi' lo' : Nat} (v : Nat) (h : lo ≤ hi) (hw : hi' < 64) (habove : hi < lo') :
    bits (setBits w hi lo v) hi' lo' = bits w hi' lo' := by
  refine Nat.eq_of_testBit_eq fun i => ?_
  rw [testBit_bits, testBit_bits]
  by_cases hi : i < hi' + 1 - lo'
  · rw [bit_setBits _ _ h (by omega), if_neg (by omega)]
  · rw [decide_eq_false hi, Bool.false_and, Bool.false_and]

@[simp] theorem State.reg_setFld_self (s : State) (d : Nat) (r : RegName) (i hi lo v : Nat) :
    (s.setFld d r i hi lo v).reg d r i = setBits (s.reg d r i) hi lo v :=
  s.regW_setRegW_self ..

theorem State.gang_setFld (s : State) (d : Nat) (r : RegName) (i hi lo v g : Nat) : (s.setFld d r i hi lo v).gang g = s.gang g := rfl

/-! ### A gang whose state changes (R267) -/

@[simp] theorem State.gang_updGang_self (s : State) (g : Nat) (f : GangSt → GangSt) : (s.updGang g f).gang g = f (s.gang g) :=
  look_put_self ..

/-- QDEPTH and BUSY follow the gang's state; the fields of GNG_STAT below them stay. -/
theorem State.fld_updGang_stat (s : State) (g : Nat) (f : GangSt → GangSt) {hi lo : Nat} (h : hi < 32) :
    (s.updGang g f).fld 24 .GNG_STAT g hi lo = s.fld 24 .GNG_STAT g hi lo := by
  unfold State.updGang
  dsimp only
  rw [State.fld, State.reg_setFld_self, bits_setBits_below _ _ (by decide) (by decide) (by omega), State.reg_setFld_self,
    bits_setBits_below _ _ (by decide) (by decide) h]
  rfl

theorem State.fld_updGang_cfg (s : State) (g : Nat) (f : GangSt → GangSt) (hi lo : Nat) :
    (s.updGang g f).fld 24 .GNG_CFG g hi lo = s.fld 24 .GNG_CFG g hi lo := by
  have key : regKey 24 .GNG_CFG g 0 ≠ regKey 24 .GNG_STAT g 0 := by simp [regKey, regInfo]
  exact congrArg (bits · hi lo) ((State.regW_setRegW_ne _ _ key).trans (State.regW_setRegW_ne _ _ key))

/-- A bit of the active members (R267). -/
theorem State.flag_stat (s : State) (g : Nat) {e : Nat} (he : e < 24) :
    s.flag 24 .GNG_STAT g e = (s.fld 24 .GNG_STAT g 23 0).testBit e := by
  rw [State.fld, testBit_bits, decide_eq_true he, Bool.true_and, Nat.zero_add]
  rfl

/-! ### The gang re-formed (R264, R265) -/

/-- The active members replaced, and the generation counted. -/
def State.reformed (s : State) (g active : Nat) : State :=
  let s := s.setFld 24 .GNG_STAT g 23 0 active
  s.setFld 24 .GNG_STAT g 31 24 (s.fld 24 .GNG_STAT g 31 24 + 1)

theorem State.gang_reformed (s : State) (g active : Nat) : (s.reformed g active).gang g = s.gang g :=
  (State.gang_setFld ..).trans (State.gang_setFld ..)

theorem State.active_reformed (s : State) (g : Nat) {active : Nat} (h : active < 2 ^ 24) :
    (s.reformed g active).fld 24 .GNG_STAT g 23 0 = active := by
  simp only [State.reformed, State.fld, State.reg_setFld_self]
  rw [bits_setBits_below _ _ (by decide) (by decide) (by decide), bits_setBits_same _ _ (by decide) (by decide)]
  exact Nat.mod_eq_of_lt h

theorem State.form_reformed (s : State) (g active : Nat) :
    (s.reformed g active).fld 24 .GNG_STAT g 31 24 = (s.fld 24 .GNG_STAT g 31 24 + 1) % 256 := by
  simp only [State.reformed, State.fld, State.reg_setFld_self]
  rw [bits_setBits_same _ _ (by decide) (by decide), bits_setBits_above _ _ (by decide) (by decide) (by decide)]
  simp only [Nat.reduceAdd, Nat.reduceSub, Nat.reducePow]

/-- The event of a gang stands in GNG_EVENT, beside GNG_STAT, and in the MC's log. -/
theorem State.keepsGangs_gangEvent (s : State) (g : Gang) (n die : Nat) : s.KeepsGangs (s.gangEvent g.val n die) := by
  have key (a : Gang) : regKey 24 .GNG_STAT a.val 0 ≠ regKey 24 .GNG_EVENT g.val 0 := by simp only [regKey, regInfo]; omega
  exact .trans (t := s.setReg 24 .GNG_EVENT g.val _) ⟨rfl, rfl, fun a => s.regW_setRegW_ne _ (key a)⟩ (State.keepsGangs_mcLog ..)

theorem State.keepsGangs_setAg (s : State) (d : Nat) {i : Nat} (v : Word) (h : i < 16) : s.KeepsGangs (s.setReg d .MXE_AG (48 + i) v) :=
  s.keepsGangs_setRegW v (.inl (by decide)) (by simp only [regInfo]; omega)

section Membership

variable {s : State} {g : Gang} {d : Nat} {rest : List Nat}

theorem State.active_lt (s : State) (g : Nat) : s.fld 24 .GNG_STAT g 23 0 < 2 ^ 24 := Nat.mod_lt _ (by decide)

/-- GANG_NARROW takes the die out (R264): beyond the active members and the generation, only its descriptors and the event are written. -/
theorem execGangNarrow_leaves (hs : s.stopped = false) (hrun : (s.gang g.val).run = none) (hnarrow : (s.gang g.val).narrow = d :: rest)
    (hin : (s.fld 24 .GNG_STAT g.val 23 0).testBit d = true) (hlead : s.fld 24 .GNG_CFG g.val 30 24 / 4 ≠ d)
    (hfloor : s.fld 24 .GNG_CFG g.val 36 32 < popN 24 (s.fld 24 .GNG_STAT g.val 23 0)) :
    ∃ u, ((s.updGang g.val fun x => { x with narrow := rest }).reformed g.val (s.fld 24 .GNG_STAT g.val 23 0 - 2 ^ d)).KeepsGangs u ∧
      execGangNarrow g s = done u := by
  refine ⟨State.gangEvent ((List.range 16).foldl (fun s i => s.setFld d .MXE_AG (48 + i) 63 63 0) _) g.val 1 d,
    (State.keepsGangs_foldl _ (fun t i hi => t.keepsGangs_setAg d _ (List.mem_range.mp hi)) _).trans (State.keepsGangs_gangEvent ..), ?_⟩
  have stays : ¬(s.fld 24 .GNG_CFG g.val 30 24 / 4 = d ∨ popN 24 (s.fld 24 .GNG_STAT g.val 23 0) ≤ s.fld 24 .GNG_CFG g.val 36 32) := by omega
  simp only [execGangNarrow, hnarrow, hs, hrun, State.fld_updGang_stat _ _ _ (show 23 < 32 by decide), State.fld_updGang_cfg, hin, stays,
    Option.isSome_none, Bool.or_self, Bool.not_true, Bool.false_eq_true, if_false]
  rfl

/-- GANG_READMISSION takes the die back in (R265): beyond the active members and the generation, only its descriptors, histories and RUN, and the
event, are written. -/
theorem execGangReadmission_joins (hs : s.stopped = false) (hrun : (s.gang g.val).run = none) (hreadmit : (s.gang g.val).readmit = d :: rest)
    (hd : d < 24) :
    ∃ u, ((s.updGang g.val fun x => { x with readmit := rest }).reformed g.val (s.fld 24 .GNG_STAT g.val 23 0 ||| 2 ^ d)).KeepsGangs u ∧
      execGangReadmission g s = done u := by
  have exec : ∃ f : State → Nat → State, (∀ t : State, ∀ i ∈ List.range 16, t.KeepsGangs (f t i)) ∧ execGangReadmission g s =
      done (((List.range 16).foldl f ((s.updGang g.val fun x => { x with readmit := rest }).reformed g.val
        (s.fld 24 .GNG_STAT g.val 23 0 ||| 2 ^ d))).setFld d .GNG_LAG 0 35 32 0 |>.gangEvent g.val 3 d) := by
    simp only [execGangReadmission, hreadmit, hs, hrun, State.fld_updGang_stat _ _ _ (show 23 < 32 by decide), Option.isSome_none, Bool.or_self,
      Bool.false_eq_true, if_false]
    refine ⟨_, ?_, rfl⟩
    intro t i hi
    split
    · exact (t.keepsGangs_setAg d _ (List.mem_range.mp hi)).trans (State.keepsGangs_updEngine ..)
    · exact .refl t
  obtain ⟨f, hf, hexec⟩ := exec
  exact ⟨_, ((State.keepsGangs_foldl _ hf _).trans (State.keepsGangs_setRegW _ _ (.inr (by omega)) (by decide))).trans
    (State.keepsGangs_gangEvent ..), hexec⟩

/-- A die of the gang that is out is queued (R265). -/
theorem State.wrGngReadmit_queues (u : State) (g : Nat) {v : Word} (hgo : bit v 5 = true) (hd : bits v 4 0 < 24)
    (hmember : u.flag 24 .GNG_CFG g (bits v 4 0) = true) (hout : u.flag 24 .GNG_STAT g (bits v 4 0) = false)
    (hnew : (u.gang g).readmit.contains (bits v 4 0) = false) :
    u.wrGngReadmit g v = u.updGang g fun x => { x with readmit := x.readmit ++ [bits v 4 0] } :=
  if_pos (by simp only [hgo, hd, hmember, hout, hnew, decide_true, Bool.not_false, Bool.and_self])

end Membership

/-! ### The obligation -/

/-- Settles O30: the queued die by `State.wrGngReadmit_queues`; a boundary re-forms the gang (`State.reformed`), and what else it writes leaves the
gang's state and GNG_STAT alone (`execGangNarrow_leaves`, `execGangReadmission_joins`). -/
theorem gangMembershipChanges : Obligations.GangMembershipChanges := by
  unfold Obligations.GangMembershipChanges
  intro s g rest d hs
  refine ⟨?_, ?_, ?_⟩
  · intro q v u hu hgo hd hmember hout hnew
    exact (regCmd_arrives _ hu).trans (congrArg done (u.wrGngReadmit_queues g.val hgo hd hmember hout hnew))
  · intro hrun hnarrow hd hin hlead hfloor
    obtain ⟨u, hkeep, hexec⟩ := execGangNarrow_leaves hs hrun hnarrow hin hlead hfloor
    have keep := hkeep.trans u.keepsGangs_settle
    refine ⟨u.settle, hexec, ?_, ?_, ?_⟩
    · rw [keep.gang, State.gang_reformed, State.gang_updGang_self]
    · rw [keep.fld, State.active_reformed _ _ ((Nat.sub_le ..).trans_lt (s.active_lt g.val))]
    · rw [keep.fld, State.form_reformed, State.fld_updGang_stat _ _ _ (by decide)]
  · intro hrun hreadmit hd
    obtain ⟨u, hkeep, hexec⟩ := execGangReadmission_joins hs hrun hreadmit hd
    have keep := hkeep.trans u.keepsGangs_settle
    have active : u.settle.fld 24 .GNG_STAT g.val 23 0 = s.fld 24 .GNG_STAT g.val 23 0 ||| 2 ^ d := by
      rw [keep.fld, State.active_reformed _ _ (Nat.or_lt_two_pow (s.active_lt g.val) (Nat.pow_lt_pow_right (by decide) hd))]
    refine ⟨u.settle, hexec, ?_, ?_, ?_, fun e he hne => ?_⟩
    · rw [keep.gang, State.gang_reformed, State.gang_updGang_self]
    · rw [State.flag_stat _ _ hd, active, Nat.testBit_or, Nat.testBit_two_pow_self, Bool.or_true]
    · rw [keep.fld, State.form_reformed, State.fld_updGang_stat _ _ _ (by decide)]
    · rw [State.flag_stat _ _ he, active, Nat.testBit_or, Nat.testBit_two_pow_of_ne (Ne.symm hne), Bool.or_false, ← State.flag_stat _ _ he]

end Sys2Proof.Machine

/-! SUPPORT. The gang instructions at their leader core: what passes its checks is accepted into the gang's queue (R245–R249, R255, R257). -/

namespace Sys2Proof.Machine

open Sys2Proof

/-- An entry accepted into a gang's queue, with the accepted state of its groups (R243, R248). -/
def State.gangAccepted (s : State) (g : Nat) (e : GangEntry) (acc : List (Nat × Nat) → List (Nat × Nat)) : State :=
  (s.gangPut g e).updGang g fun x => { x with accepted := acc x.accepted }

/-- The gang control's state is no part of a core. -/
theorem State.core_updGang (s : State) (g : Nat) (f : GangSt → GangSt) (c : CoreId) : (s.updGang g f).core c = s.core c := by
  have gangs (m : Sparse GangSt) : ({ s with gangs := m } : State).core c = s.core c := rfl
  exact (State.core_setRegW ..).trans ((State.core_setRegW ..).trans (gangs _))

theorem State.core_gangAccepted (s : State) (g : Nat) (e : GangEntry) (acc : List (Nat × Nat) → List (Nat × Nat)) (c : CoreId) :
    (s.gangAccepted g e acc).core c = s.core c :=
  (State.core_updGang ..).trans (State.core_updGang ..)

/-- A queue with room takes the entry. -/
theorem gangRetire_next {s : State} {g : Nat} (e : GangEntry) (acc : List (Nat × Nat) → List (Nat × Nat)) (h : s.gangRoom g = true) :
    gangRetire g e acc s = .next (s.gangAccepted g e acc) :=
  if_pos h

section Accepted

variable {c : CoreId} {i : Instr} {fn g : Nat} {f : TFields} {reads : List Greg} {ok : Bool} {body : State → Body} {s t u v : State}

/-- A gang instruction whose own work is to be accepted. -/
theorem gangInsn_accepted {e : GangEntry} {acc : List (Nat × Nat) → List (Nat × Nat)} (h : s.Ready c i t)
    (hw : insnWords i = some (wordT 0x3B fn f, wordT2 f)) (hend : (t.core c).notLoopEnd) (hsys : isSystem c = false) (h0 : f.rsv0 = 0)
    (h1 : f.rsv1 = false) (hok : ok = true) (hb : body (t.updCore c Core.begun) = gangRetire g e acc u) (hroom : u.gangRoom g = true)
    (hslot : (u.core c).slot = none) (hdue : (u.core c).stepDue = false) :
    runInsn c (tileInsn c 0x3B fn f reads ok) body s = done ((u.gangAccepted g e acc).updCore c fun x => x.after 8) :=
  runInsn_done (h.1.words hw) h.2 (tileInsn_early hend hsys h0 h1 hok) (hb.trans (gangRetire_next e acc hroom))
    (by rw [State.core_gangAccepted, hslot]) (by rw [State.core_gangAccepted, hdue])

/-- GMM: the descriptor has been read and passes its checks and the gang's, and every earlier access of the leader has been performed
(R246–R249). -/
theorem execGmm_accepted {ps : List Piece} {bs : List Byte} (h : s.Ready c (.gmm c f) t) (hend : (t.core c).notLoopEnd)
    (hsys : isSystem c = false) (h0 : f.rsv0 = 0) (h1 : f.rsv1 = false)
    (hok : (f.ta == 0 && f.tb == 0 && f.td == 0 && noAddFin f && f.gb == 0) = true) {d : Gmm}
    (hd : d = gmmOf (words64 16 bs) (t.core c).ptb (t.core c).ring (.core c))
    (haccess : (t.updCore c Core.begun).elemCheck c (reqOf c) f.sg.toNat false ((t.core c).gread f.ga + sx f.imm) 128 = (.ok ps, u))
    (hread : u.readNow c ((t.core c).gread f.ga + sx f.imm) ps = (.ok bs, v)) (hcheck : d.check (gmmRsv (words64 16 bs)) = none)
    (hled : v.ledBy c = some g) (hgang : v.gmmGangCheck g d = none) (hperformed : v.accessesDone c = true)
    (hroom : (v.acked c).gangRoom g = true) (hslot : (v.core c).slot = none) (hdue : (v.core c).stepDue = false) :
    execGmm c f s = done (((v.acked c).gangAccepted g (.gmm d) id).updCore c fun x => x.after 8) := by
  refine gangInsn_accepted h rfl hend hsys h0 h1 hok ?_ hroom ((State.acked_slot v c).trans hslot) ((State.acked_stepDue v c).trans hdue)
  have offset : (t.core c).begun.gread f.ga = (t.core c).gread f.ga := Core.gread_begun ..
  have desc : gmmOf (words64 16 bs) (t.core c).begun.ptb (t.core c).begun.ring (.core c) = d := hd.symm
  simp only [State.core_updCore_self, offset, haccess, onRes, hread, desc, hcheck, hled, hgang, hperformed, if_true]

/-- GACC.OPEN: the group is not open in the accepted state, and the gang's region has a free range for it (R248, R255). -/
theorem execGaccOpen_accepted {base : Nat} (h : s.Ready c (.gaccOpen c f) t) (hend : (t.core c).notLoopEnd) (hsys : isSystem c = false)
    (h0 : f.rsv0 = 0) (h1 : f.rsv1 = false)
    (hok : (f.ta == 0 && f.tb == 0 && f.td == 0 && noAddFin f && f.gb == 0 && f.sg == 0 && decide (f.imm.toNat < 16)) = true)
    (hled : t.ledBy c = some g) (hroom : t.gangRoom g = true) (hclosed : t.acceptedRows g f.imm.toNat = none)
    (hsome : ((t.core c).gread f.ga).toNat ≠ 0) (hsize : ((t.core c).gread f.ga).toNat ≤ t.fld 24 .GNG_GLOBAL 0 39 24)
    (hfree : freeRange (t.fld 24 .GNG_GLOBAL 0 23 8) (t.fld 24 .GNG_GLOBAL 0 39 24) ((t.core c).gread f.ga).toNat
      ((t.acceptedRanges g).map (·.2)) = some base) :
    execGaccOpen c f s = done (((t.updCore c Core.begun).gangAccepted g (.openG f.imm.toNat ((t.core c).gread f.ga).toNat)
      fun l => l ++ [(f.imm.toNat, ((t.core c).gread f.ga).toNat)]).updCore c fun x => x.after 8) := by
  refine gangInsn_accepted h rfl hend hsys h0 h1 hok ?_ hroom h.2.begun.1 h.2.begun.2
  have opens : ((t.acceptedRows g f.imm.toNat).isSome || ((t.core c).gread f.ga).toNat == 0 ||
      decide (t.fld 24 .GNG_GLOBAL 0 39 24 < ((t.core c).gread f.ga).toNat)) = false := by simp [hclosed, hsome, hsize]
  have rows : (t.updCore c Core.begun).greg c f.ga = (t.core c).gread f.ga := by
    rw [State.greg, State.core_updCore_self, Core.gread_begun]
  have led : (t.updCore c Core.begun).ledBy c = some g := hled
  have accepted : (t.updCore c Core.begun).acceptedRows g f.imm.toNat = t.acceptedRows g f.imm.toNat := rfl
  have ranges : (t.updCore c Core.begun).acceptedRanges g = t.acceptedRanges g := rfl
  have fields (hi lo : Nat) : (t.updCore c Core.begun).fld 24 .GNG_GLOBAL 0 hi lo = t.fld 24 .GNG_GLOBAL 0 hi lo := rfl
  simp only [led, rows, accepted, ranges, fields, opens, hfree, Option.isNone_some, Bool.false_eq_true, if_false]

/-- GACC.CLOSE: the group is open in the accepted state (R248, R257). -/
theorem execGaccClose_accepted (h : s.Ready c (.gaccClose c f) t) (hend : (t.core c).notLoopEnd) (hsys : isSystem c = false)
    (h0 : f.rsv0 = 0) (h1 : f.rsv1 = false)
    (hok : (f.ta == 0 && f.tb == 0 && f.td == 0 && noAddFin f && f.ga == 0 && f.gb == 0 && f.sg == 0 && decide (f.imm.toNat < 16)) = true)
    (hled : t.ledBy c = some g) (hroom : t.gangRoom g = true) (hopen : (t.acceptedRows g f.imm.toNat).isSome = true) :
    execGaccClose c f s = done (((t.updCore c Core.begun).gangAccepted g (.closeG f.imm.toNat)
      fun l => l.filter fun e => e.1 != f.imm.toNat).updCore c fun x => x.after 8) := by
  refine gangInsn_accepted h rfl hend hsys h0 h1 hok ?_ hroom h.2.begun.1 h.2.begun.2
  have led : (t.updCore c Core.begun).ledBy c = some g := hled
  have opened : ((t.updCore c Core.begun).acceptedRows g f.imm.toNat).isNone = false := by
    rw [Option.isNone_eq_false_iff]
    exact hopen
  simp only [led, opened, Bool.false_eq_true, if_false]

end Accepted

/-! ### The obligation -/

/-- Settles O28: each of the three passes its checks and is accepted (`execGmm_accepted`, `execGaccOpen_accepted`, `execGaccClose_accepted`). -/
theorem gangInstructionsAccepted : Obligations.GangInstructionsAccepted := by
  unfold Obligations.GangInstructionsAccepted
  intro s t c f g hend hsys h0 h1 hta htb htd hadd hfin hgb accepted
  refine ⟨?_, ?_⟩
  · intro u v ps bs h d haccess hread hcheck hled hgang hperformed hroom hslot hdue
    exact execGmm_accepted h hend hsys h0 h1 (by simp [hta, htb, htd, hadd, hfin, hgb, noAddFin]) rfl haccess hread hcheck hled hgang hperformed
      hroom hslot hdue
  · intro hsg himm hled hroom
    refine ⟨?_, ?_⟩
    · intro base h rows hclosed hsome hsize hfree
      exact execGaccOpen_accepted h hend hsys h0 h1 (by simp [hta, htb, htd, hadd, hfin, hgb, hsg, himm, noAddFin]) hled hroom hclosed hsome hsize
        hfree
    · intro h hga hopen
      exact execGaccClose_accepted h hend hsys h0 h1 (by simp [hta, htb, htd, hadd, hfin, hga, hgb, hsg, himm, noAddFin]) hled hroom hopen

end Sys2Proof.Machine

/-! SUPPORT. The gang control: the head of a queue started, running sums, completion and failure (R251–R260). -/

namespace Sys2Proof.Machine

open Sys2Proof

/-! ### The head of a gang's queue (R243, R255–R258) -/

section Start

variable {s : State} {g : Gang} {rest : List GangEntry}

/-- A gang with nothing running that has re-formed serves the head of its queue (R243). -/
def State.GangIdle (s : State) (g : Nat) : Prop :=
  s.stopped = false ∧ (s.gang g).run = none ∧ (s.gang g).narrow = [] ∧ (s.gang g).readmit = []

theorem State.GangIdle.serves (h : s.GangIdle g.val) :
    (s.stopped || (s.gang g.val).run.isSome || !(s.gang g.val).narrow.isEmpty || !(s.gang g.val).readmit.isEmpty) = false := by
  obtain ⟨hs, hrun, hnarrow, hreadmit⟩ := h
  simp [hs, hrun, hnarrow, hreadmit]

/-- A change of a gang's state depends on that state alone. -/
theorem State.updGang_congr {f h : GangSt → GangSt} {k : Nat} (e : f (s.gang k) = h (s.gang k)) : s.updGang k f = s.updGang k h := by
  simp only [State.updGang, e]

theorem State.updGang_pop {e : GangEntry} {k : Nat} (hq : (s.gang k).queue = e :: rest) :
    (s.updGang k fun x => { x with queue := x.queue.drop 1 }) = s.updGang k fun x => { x with queue := rest } :=
  State.updGang_congr (by simp only [hq, List.drop_one, List.tail_cons])

/-- GACC.OPEN at the head takes the range that is free (R255). -/
theorem execGangOpStart_open {i rows base : Nat} (hidle : s.GangIdle g.val) (hq : (s.gang g.val).queue = .openG i rows :: rest) {t : State}
    (ht : t = s.updGang g.val fun x => { x with queue := rest })
    (hfree : freeRange (t.fld 24 .GNG_GLOBAL 0 23 8) (t.fld 24 .GNG_GLOBAL 0 39 24) rows (t.heldRanges g.val i) = some base) :
    execGangOpStart g s = done (((t.setReg 24 .GNG_GRP (16 * g.val + i) (BitVec.ofNat 64 (base + 2 ^ 16 * rows + 2 ^ 63))).gangAg g.val i
      fun _ => groupAg base rows).countReg 24 .GNG_OPS g.val 1) := by
  simp only [execGangOpStart, hidle.serves, hq, Bool.false_eq_true, if_false, State.updGang_pop hq, ← ht, State.openGroup, hfree]

/-- GACC.CLOSE at the head (R257). -/
theorem execGangOpStart_close {i : Nat} (hidle : s.GangIdle g.val) (hq : (s.gang g.val).queue = .closeG i :: rest) :
    execGangOpStart g s = done (((s.updGang g.val fun x => { x with queue := rest }).closeGroup g.val i).countReg 24 .GNG_OPS g.val 1) := by
  simp only [execGangOpStart, hidle.serves, hq, Bool.false_eq_true, if_false, State.updGang_pop hq]

/-- A GMM at the head (R258). -/
theorem execGangOpStart_gmm {d : Gmm} (hidle : s.GangIdle g.val) (hq : (s.gang g.val).queue = .gmm d :: rest) :
    execGangOpStart g s = done (s.startGmm g.val d) := by
  simp only [execGangOpStart, hidle.serves, hq, Bool.false_eq_true, if_false]

theorem State.gangs_foldl_setReg (l : List Nat) (r : RegName) (i : Nat) (v : Word) (s : State) :
    (l.foldl (fun u e => u.setReg e r i v) s).gangs = s.gangs := by
  induction l generalizing s with
  | nil => rfl
  | cons e l ih => exact (ih _).trans (State.setRegW_gangs ..)

/-- A GMM of a gang tags its group with the generation and its chain length, and its members' progress is 0 (R256, R268). -/
def State.gmmTagged (s : State) (k : Nat) (d : Gmm) : State :=
  let t := (setBitsOf 24 (s.fld 24 .GNG_STAT k 23 0)).foldl (fun u e => u.setReg e .GNG_PROG 0 0) (s.setReg 24 .GNG_GRP (16 * k + d.grp)
    (setBits (setBits (setBits (s.grpReg k d.grp) 39 32 (s.fld 24 .GNG_STAT k 31 24)) 44 40 d.l) 45 45 1))
  { t with free := t.free + 1 }

theorem State.gang_gmmTagged (s : State) (k : Nat) (d : Gmm) : (s.gmmTagged k d).gang k = s.gang k :=
  congrArg (fun m : Sparse GangSt => look (fun _ => ({} : GangSt)) m k) ((State.gangs_foldl_setReg ..).trans (State.setRegW_gangs ..))

/-- A GMM as it begins to run: the generation and the active members recorded, every task still to do (R251, R258). -/
def State.gmmRun (s : State) (k : Nat) (d : Gmm) : GangRun :=
  let active := s.fld 24 .GNG_STAT k 23 0
  { d, form := s.fld 24 .GNG_STAT k 31 24, active, tstart := BitVec.ofNat 64 s.time, pick := s.free, tasks := tasksOf d active }

/-- The state in which a GMM runs, its window with it, and the rest of the queue behind it (R258, R323). -/
def State.gmmStarted (s : State) (k : Nat) (d : Gmm) (rest : List GangEntry) : State :=
  let t := (s.gmmTagged k d).updGang k fun x => { x with queue := rest, run := some (s.gmmRun k d) }
  let u := match d.src with | .window w => t.setWindow w { t.window w with state := .running } | _ => t
  (setBitsOf 24 (s.fld 24 .GNG_STAT k 23 0)).foldl (fun u e => u.mxeSync e) u

/-- A GMM whose group is open with room, and tagged as it is when it adds to it, starts (R252, R256, R258). -/
theorem State.startGmm_starts {k : Nat} {d : Gmm} (hq : (s.gang k).queue = .gmm d :: rest) (hopen : bit (s.grpReg k d.grp) 63 = true)
    (hroom : d.off + d.need (d.bm * d.bn) (max 1 (popN 24 (s.fld 24 .GNG_STAT k 23 0))) ≤ bits (s.grpReg k d.grp) 31 16)
    (htag : d.add = true → bit (s.grpReg k d.grp) 45 = true ∧ bits (s.grpReg k d.grp) 39 32 = s.fld 24 .GNG_STAT k 31 24 ∧
      bits (s.grpReg k d.grp) 44 40 = d.l) : s.startGmm k d = s.gmmStarted k d rest := by
  have fits : (!bit (s.grpReg k d.grp) 63 || decide (bits (s.grpReg k d.grp) 31 16 <
      d.off + d.need (d.bm * d.bn) (max 1 (popN 24 (s.fld 24 .GNG_STAT k 23 0))))) = false := by
    simp [hopen, hroom]
  have tagged : (d.add && !(bit (s.grpReg k d.grp) 45 && bits (s.grpReg k d.grp) 39 32 == s.fld 24 .GNG_STAT k 31 24 &&
      bits (s.grpReg k d.grp) 44 40 == d.l)) = false := by
    cases hadd : d.add with
    | false => rfl
    | true =>
      obtain ⟨hvalid, hform, hl⟩ := htag hadd
      simp [hvalid, hform, hl]
  have queue : ((s.gmmTagged k d).updGang k fun x => { x with queue := rest, run := some (s.gmmRun k d) }) =
      (s.gmmTagged k d).updGang k fun x => { x with queue := x.queue.drop 1, run := some (s.gmmRun k d) } :=
    State.updGang_congr (by simp only [State.gang_gmmTagged, hq, List.drop_one, List.tail_cons])
  unfold State.startGmm State.gmmStarted
  dsimp only
  rw [fits, tagged, if_neg Bool.false_ne_true, if_neg Bool.false_ne_true, queue]
  rfl

end Start

/-! ### Running sums (R254) -/

section Sum

variable {s : State} {g b p : Nat} {r : GangRun} {t u : GangTask}

/-- The state in which the rows of both tasks have been read: the sum has been sent, ECC errors in the rows have been found (R211, R254). -/
def State.sumRead (s : State) (g : Nat) (r : GangRun) (b p : Nat) (t u : GangTask) : State :=
  let rows := accW r.d.acc * s.blockRows r.d b
  ((s.packet u.die t.die false).eccAm u.die (s.taskRow g r b (p - 1)) rows).eccAm t.die (s.taskRow g r b p) rows

/-- The state once task t has taken in the running sum of task u (R254): its rows, the flags, the poison, the count of its task. -/
def State.summed (s : State) (g : Nat) (r : GangRun) (b p : Nat) (t u : GangTask) : State :=
  let v := s.sumRead g r b p t u
  let o := (v.engine t.die).addRows r.d.acc (s.taskRow g r b p) (s.taskRow g r b (p - 1)) (s.blockRows r.d b) (v.engine u.die)
  let r' := { r with
    flags := r.flags ||| o.2.1, poison := r.poison || o.2.2, tasks := setAt r.tasks (b * r.d.l + p) { t with summed := true } }
  let w := State.orReg (State.updGang (v.updEngine t.die fun _ => o.1) g fun x => { x with run := some r' }) t.die .GNG_FPF 0 (zx o.2.1)
  State.taskDone (if o.2.2 then w.blockPoisoned r.d b else w) g r' (b * r.d.l + p) { t with summed := true }

theorem execRunningSum_runs {k : Gang} (hs : s.stopped = false) (b p : Nat) :
    execRunningSum k b p s = done (s.runningSum k.val b p) := by
  simp only [execRunningSum, hs, Bool.false_eq_true, if_false]

/-- The packet of a running sum changes nothing of the groups and the windows. -/
theorem State.taskRow_packet (s : State) (i j : Nat) (rsp : Bool) : (s.packet i j rsp).taskRow = s.taskRow := rfl

theorem State.keepsGangs_packet (s : State) (i j : Nat) (rsp : Bool) : s.KeepsGangs (s.packet i j rsp) := ⟨rfl, rfl, fun _ => rfl⟩

/-- A task whose passes are done takes in the sum of a finished predecessor over a path that is up. -/
theorem State.runningSum_adds (hrun : (s.gang g).run = some r) (hfailed : r.failed = false) (hp : 0 < p) (hl : p < r.d.l)
    (ht : r.tasks[b * r.d.l + p]? = some t) (hu : r.tasks[b * r.d.l + p - 1]? = some u) (hsummed : t.summed = false)
    (hdone : (r.d.segment p).2 ≤ t.done) (hfinished : u.finished r.d = true) (hdead : s.blockDead r.d b = false)
    (hdown : s.downOn u.die t.die false = none) (hbusy : s.pathBusy u.die t.die = false) : s.runningSum g b p = s.summed g r b p t u := by
  have first := s.keepsGangs_packet u.die t.die false
  have read (k n : Nat) := first.trans (State.keepsGangs_eccAm (s.packet u.die t.die false) u.die k n)
  have both (k a n m : Nat) := (read k n).trans (State.keepsGangs_eccAm _ t.die a m)
  have guard : (r.failed || decide (p = 0) || decide (r.d.l ≤ p) || t.summed || decide (t.done < (r.d.segment p).2) || !u.finished r.d ||
      s.blockDead r.d b) = false := by
    simp [hfailed, hsummed, hfinished, hdead, hdone, hl, Nat.pos_iff_ne_zero.mp hp]
  unfold State.runningSum State.summed State.sumRead
  simp only [hrun, ht, hu, guard, hdown, hbusy, Bool.false_eq_true, if_false, State.taskRow_packet, first.blockRows,
    (both _ _ _ _).blockRows]

end Sum

/-! ### The engine after a running sum (R214, R254) -/

theorem State.keeps_updGang (s : State) (g : Nat) (f : GangSt → GangSt) : s.Keeps (s.updGang g f) := by
  have gangs (m : Sparse GangSt) : s.Keeps { s with gangs := m } := ⟨rfl, rfl, rfl, rfl, fun _ => rfl⟩
  exact (gangs _).trans ((State.keeps_setFld ..).trans (State.keeps_setFld ..))

theorem State.keeps_setWindow (s : State) (w : Nat) (x : Window) : s.Keeps (s.setWindow w x) := by
  unfold State.setWindow
  extract_lets src s1 w0 w1 s2
  have replaced : s.Keeps s1 := s.keeps_trowel _
  have shown : s1.Keeps s2 := by
    unfold s2
    split
    · exact State.keeps_foldl (fun t _ => t.keeps_setRegW ..) _ _
    · exact (((s1.keeps_setRegW ..).trans (State.keeps_setRegW ..)).trans (State.keeps_setRegW ..)).trans (State.keeps_setRegW ..)
  exact (replaced.trans shown).trans (State.keeps_trwSync _)

theorem State.keeps_blockPoisoned (s : State) (d : Gmm) (b : Nat) : s.Keeps (s.blockPoisoned d b) := by
  unfold State.blockPoisoned
  split
  · exact s.keeps_setWindow ..
  · exact .refl s

/-- A finished task of an operation without FIN posts nothing: it is only counted (R258, R268). -/
theorem State.keeps_taskDone (s : State) {r : GangRun} (hfin : r.d.fin = false) (g i : Nat) (t : GangTask) : s.Keeps (s.taskDone g r i t) := by
  unfold State.taskDone
  simp only [hfin, Bool.false_and, Bool.false_eq_true, if_false]
  exact s.keeps_setFld ..

theorem State.Keeps.engine {s t : State} (h : s.Keeps t) (d : Nat) : t.engine d = s.engine d :=
  congrArg (fun m : Sparse Engine => look (fun _ => ({} : Engine)) m d) h.engines

theorem State.engine_updEngine_self (s : State) (d : Nat) (f : Engine → Engine) : (s.updEngine d f).engine d = f (s.engine d) :=
  look_put_self ..

/-- The engine of a task that has taken in a sum of an operation without FIN holds the rows that were added. -/
theorem State.engine_summed (s : State) (g : Nat) {r : GangRun} (b p : Nat) (t u : GangTask) (hfin : r.d.fin = false) :
    (s.summed g r b p t u).engine t.die = (((s.sumRead g r b p t u).engine t.die).addRows r.d.acc (s.taskRow g r b p)
      (s.taskRow g r b (p - 1)) (s.blockRows r.d b) ((s.sumRead g r b p t u).engine u.die)).1 := by
  unfold State.summed
  extract_lets v o r' w
  have marked : w.Keeps (if o.2.2 then w.blockPoisoned r.d b else w) := by
    split
    · exact w.keeps_blockPoisoned ..
    · exact .refl w
  have ran : (v.updEngine t.die fun _ => o.1).Keeps w := (State.keeps_updGang _ _ _).trans (State.keeps_setRegW _ _ _ _ _ _)
  have counted := State.keeps_taskDone (if o.2.2 then w.blockPoisoned r.d b else w) (r := r') hfin g (b * r.d.l + p) { t with summed := true }
  rw [((ran.trans marked).trans counted).engine, State.engine_updEngine_self]

/-- Rows without ECC errors are read as they are. -/
theorem State.sumRead_clean {s : State} {t u : GangTask} (ht : (s.engine t.die).admg = []) (hu : (s.engine u.die).admg = []) (g : Nat)
    (r : GangRun) (b p : Nat) : s.sumRead g r b p t u = s.packet u.die t.die false := by
  have clean (e : Nat) (h : (s.engine e).admg = []) (k n : Nat) : (s.packet u.die t.die false).eccAm e k n = s.packet u.die t.die false :=
    State.eccAm_clean (s := s.packet u.die t.die false) h k n
  rw [State.sumRead, clean _ hu, clean _ ht]

/-- One row of FP32 sums (R254). -/
theorem Engine.addRows_one (x y : Engine) (a k : Nat) : (x.addRows 0 a k 1 y).1 = x.setAm a 1 (sumRows 0 (x.amRows a 1) (y.amRows k 1)).1
    (y.amPoisoned k 1 || x.amPoisoned a 1) := rfl

/-! ### Completion and failure (R258–R260) -/

section Close

variable {s u : State} {g : Gang} {k : Nat} {r : GangRun} {after : State → State}

/-- A record that has been written and performed ends the operation. -/
theorem State.gangClose_recorded (h : r.recorded = true) (hposted : s.postedBy (.gang k) = false) : s.gangClose k r after = s.gangEnd k r.d := by
  simp only [State.gangClose, h, State.gangSettle, hposted, Bool.false_eq_true, if_true, if_false]

/-- So does one that is written and performed now. -/
theorem State.gangClose_writes (h : r.recorded = false) (hwritten : s.gangRecord k r.d r.status r = (true, u))
    (hposted : ((after u).updGang k fun x => { x with run := some { r with recorded := true } }).postedBy (.gang k) = false) :
    s.gangClose k r after = ((after u).updGang k fun x => { x with run := some { r with recorded := true } }).gangEnd k r.d := by
  simp only [State.gangClose, h, hwritten, State.gangSettle, hposted, Bool.false_eq_true, if_false]

/-- GANG_OP_COMPLETE of a core's or a stream's operation closes it with STATUS 1 (R258 step 5, R259). -/
theorem execGangOpComplete_record (hs : s.stopped = false) (hrun : (s.gang g.val).run = some r) (hfailed : r.failed = false)
    (hfinished : s.gangFinished r = true) (hsrc : ∀ w, r.d.src ≠ .window w) (busy : List Nat) :
    execGangOpComplete g busy s = done (s.gangClose g.val { r with status := 1 } fun u => u.stragglers g.val r.active busy) := by
  -- `hsrc` rules the arm of a window out.
  simp only [execGangOpComplete, hrun, hs, hfailed, hfinished, Bool.not_true, Bool.or_self, Bool.false_eq_true, if_false]

/-- A window's operation is reported to the Trowel: the window drains (R323). -/
theorem execGangOpComplete_window {w : Nat} (hs : s.stopped = false) (hrun : (s.gang g.val).run = some r) (hfailed : r.failed = false)
    (hfinished : s.gangFinished r = true) (hsrc : r.d.src = .window w) (busy : List Nat) :
    execGangOpComplete g busy s = done ((((s.setWindow w { s.window w with
      state := .draining, flags := Nat.lor (s.window w).flags r.flags.toNat, form := r.form }).stragglers g.val r.active busy).dropPref
        fun v _ => v == w).gangEnd g.val r.d) := by
  simp only [execGangOpComplete, hrun, hs, hfailed, hfinished, hsrc, Bool.not_true, Bool.or_self, Bool.false_eq_true, if_false]

/-- GANG_OP_FAIL of a core's or a stream's operation closes it with the STATUS it failed with (R260). -/
theorem execGangOpFail_record (hs : s.stopped = false) (hrun : (s.gang g.val).run = some r) (hfailed : r.failed = true)
    (hsrc : ∀ w, r.d.src ≠ .window w) : execGangOpFail g s = done (s.gangClose g.val r id) := by
  -- `hsrc` rules the arm of a window out.
  simp only [execGangOpFail, hrun, hs, hfailed, Bool.not_true, Bool.or_self, Bool.false_eq_true, if_false]

/-- A window's failed operation fails its window (R331). -/
theorem execGangOpFail_window {w : Nat} (hs : s.stopped = false) (hrun : (s.gang g.val).run = some r) (hfailed : r.failed = true)
    (hsrc : r.d.src = .window w) : execGangOpFail g s = done ((s.failWindow w).gangEnd g.val r.d) := by
  simp only [execGangOpFail, hrun, hs, hfailed, hsrc, Bool.not_true, Bool.or_self, Bool.false_eq_true, if_false]

end Close

/-! ### The obligation -/

/-- Settles O29: each entry at the head starts by its kind, a running sum is `State.summed`, a record written and performed ends its operation
(`State.gangClose_writes`), and an operation of a window ends with its window. -/
theorem gangOperations : Obligations.GangOperations := by
  unfold Obligations.GangOperations
  refine ⟨?_, ?_⟩
  · intro s g hs
    refine ⟨?_, ?_⟩
    · intro rest hrun hnarrow hreadmit
      have hidle : s.GangIdle g.val := ⟨hs, hrun, hnarrow, hreadmit⟩
      refine ⟨?_, ?_, ?_⟩
      · intro i rows base hq s1 hfree
        exact execGangOpStart_open hidle hq rfl hfree
      · intro i hq
        exact execGangOpStart_close hidle hq
      · intro d hq form active grp hopen hroom htag
        exact (execGangOpStart_gmm hidle hq).trans (congrArg done (State.startGmm_starts hq hopen hroom htag))
    · intro r hrun
      refine ⟨?_, ?_⟩
      · intro b p t u hfailed hp hl ht hu hsummed hdone hfinished hdead hdown hbusy
        have adds := State.runningSum_adds hrun hfailed hp hl ht hu hsummed hdone hfinished hdead hdown hbusy
        exact (execRunningSum_runs hs b p).trans (congrArg done adds)
      · intro closes
        have close {i : Instr} {q : GangRun} {after : State → State} (hd : q.d = r.d) (hrec : q.recorded = r.recorded)
            (h : exec i s = done (s.gangClose g.val q after)) : closes i q after := by
          refine ⟨?_, ?_⟩
          · intro hr hposted
            rw [h, State.gangClose_recorded (hrec.trans hr) hposted]
            exact congrArg (fun e => done (s.gangEnd g.val e)) hd
          · intro hr u hwritten v hposted
            rw [← hd] at hwritten
            rw [h, State.gangClose_writes (hrec.trans hr) hwritten hposted]
            exact congrArg (fun e => done (v.gangEnd g.val e)) hd
        refine ⟨fun busy hfailed hfinished => ⟨fun hsrc => ?_, fun w hsrc => ?_⟩, fun hfailed => ⟨fun hsrc => ?_, fun w hsrc => ?_⟩⟩
        · exact close rfl rfl (execGangOpComplete_record hs hrun hfailed hfinished hsrc busy)
        · exact execGangOpComplete_window hs hrun hfailed hfinished hsrc busy
        · exact close rfl rfl (execGangOpFail_record hs hrun hfailed hsrc)
        · exact execGangOpFail_window hs hrun hfailed hsrc
  · intro s g p r t u hrun hfailed hl hp ht hu hsummed hdone hfinished hdead hdown hbusy hrows hacc hfin hcleant hcleanu a c o
    subst hp
    have adds : s.runningSum g 0 1 = s.summed g r 0 1 t u :=
      State.runningSum_adds hrun hfailed Nat.one_pos (by omega) (by rw [Nat.zero_mul]; exact ht) (by rw [Nat.zero_mul]; exact hu) hsummed hdone
        hfinished hdead hdown hbusy
    rw [adds, State.engine_summed s g 0 1 t u hfin, State.sumRead_clean hcleant hcleanu, hrows, hacc]
    exact Engine.addRows_one ..

end Sys2Proof.Machine

/-! SUPPORT. The finished-tile queue: its entries' registers beside the others, entries posted, freed and discarded (R269–R272, R280, R281). -/

namespace Sys2Proof.Machine

open Sys2Proof

/-! ### The entries' registers (R26, R287) -/

/-- A register that lies before FTQ_ENT in its die's part of control space is no doubleword of an entry. -/
theorem regKey_ne_entry {d e j d' i w : Nat} {r : RegName} (he : e < 64) (hj : j < 4)
    (h : (regInfo r).blk * 0x10000 + (regInfo r).off + (regInfo r).stride * i + 8 * w < 0x150800) :
    regKey d .FTQ_ENT e j ≠ regKey d' r i w := by
  obtain ⟨k, hk⟩ := dieBase_mul d
  obtain ⟨k', hk'⟩ := dieBase_mul d'
  have entry : regKey d .FTQ_ENT e j = 0x1000000 * k + 0x150800 + 32 * e + 8 * j := by simp [regKey, regInfo, hk, Nat.add_assoc]
  rw [entry, regKey, hk']
  generalize (regInfo r).stride * i = x at *
  omega

/-- Another doubleword of the entry. -/
theorem State.ftqW_setEntry_ne (s : State) (d e : Nat) {j k : Nat} (v : Word) (h : j ≠ k) :
    (s.setRegW d .FTQ_ENT e k v).ftqW d e j = s.ftqW d e j :=
  s.regW_setRegW_ne v (by simp only [regKey]; omega)

theorem State.ftqW_setEntry_self (s : State) (d e j : Nat) (v : Word) : (s.setRegW d .FTQ_ENT e j v).ftqW d e j = v :=
  s.regW_setRegW_self ..

/-- State t has of s what `State.Keeps` says, the engines among it, and the entries of every finished-tile queue. -/
structure State.KeepsEntries (s t : State) : Prop where
  keeps : s.Keeps t
  entries : ∀ d, ∀ e < 64, ∀ j < 4, t.ftqW d e j = s.ftqW d e j

theorem State.KeepsEntries.refl (s : State) : s.KeepsEntries s := ⟨.refl s, fun _ _ _ _ _ => rfl⟩

theorem State.KeepsEntries.trans {s t u : State} (h : s.KeepsEntries t) (k : t.KeepsEntries u) : s.KeepsEntries u :=
  ⟨h.keeps.trans k.keeps, fun d e he j hj => (k.entries d e he j hj).trans (h.entries d e he j hj)⟩

theorem State.keepsEntries_setRegW (s : State) {d : Nat} {r : RegName} {i w : Nat} (v : Word)
    (h : (regInfo r).blk * 0x10000 + (regInfo r).off + (regInfo r).stride * i + 8 * w < 0x150800) : s.KeepsEntries (s.setRegW d r i w v) :=
  ⟨s.keeps_setRegW .., fun _ _ he _ hj => s.regW_setRegW_ne v (regKey_ne_entry he hj h)⟩

theorem State.keepsEntries_mcLog (s : State) (kind sev die p0 p1 p2 : Nat) : s.KeepsEntries (s.mcLog kind sev die p0 p1 p2) := by
  refine ⟨s.keeps_mcLog .., ?_⟩
  unfold State.mcLog
  dsimp only
  split
  · exact (State.keepsEntries_setRegW (r := .MC_STAT) (i := 0) (w := 0) _ _ (by decide)).entries
  · exact fun _ _ _ _ _ => rfl

theorem State.keepsEntries_setReplace (s : State) : s.KeepsEntries s.setReplace := by
  unfold State.setReplace
  split
  · exact .refl s
  · exact (s.keepsEntries_setRegW _ (by decide)).trans (State.keepsEntries_mcLog ..)

theorem State.keepsEntries_settle (s : State) : s.KeepsEntries s.settle := by
  unfold State.settle
  dsimp only
  split
  · exact s.keepsEntries_setReplace.trans (State.keepsEntries_setRegW _ _ (by decide))
  · exact State.keepsEntries_setRegW _ _ (by decide)

theorem State.keepsEntries_ftqSync (s : State) (d : Nat) : s.KeepsEntries (s.ftqSync d) :=
  (s.keepsEntries_setRegW _ (by decide)).trans (State.keepsEntries_setRegW _ _ (by decide))

theorem State.keepsEntries_setWindow (s : State) {w : Nat} (x : Window) (h : w < 1024) : s.KeepsEntries (s.setWindow w x) := by
  refine ⟨s.keeps_setWindow .., ?_⟩
  unfold State.setWindow
  extract_lets src s1 w0 w1 s2
  have win (t : State) (v : Word) {j : Nat} (hj : j < 4) : t.KeepsEntries (t.setRegW 24 .TRW_WIN w j v) :=
    t.keepsEntries_setRegW v (by simp only [regInfo]; omega)
  have shown : s1.KeepsEntries s2 := by
    unfold s2
    split
    · exact (((win _ _ (by decide)).trans (win _ _ (by decide))).trans (win _ _ (by decide))).trans (win _ _ (by decide))
    · exact (((win _ _ (by decide)).trans (win _ _ (by decide))).trans (win _ _ (by decide))).trans (win _ _ (by decide))
  exact (shown.trans (s2.keepsEntries_setRegW (r := .TRW_STAT) (i := 0) (w := 0) _ (by decide))).entries

/-! ### Entries posted (R269–R271) -/

/-- A pick from a list that is not empty picks something. -/
theorem State.choose_some (s : State) {l : List Nat} (h : l ≠ []) : ∃ i u, s.choose l = (some i, u) := by
  unfold State.choose
  split
  · exact absurd rfl h
  · exact ⟨_, _, rfl⟩
  · exact ⟨_, _, rfl⟩

/-- A queue of fewer than 64 leaves an entry that is not in use. -/
theorem freeEntries_ne_nil {l : List Nat} (h : l.length < 64) : ((List.range 64).filter fun e => !l.contains e) ≠ [] := by
  intro hnone
  have used : List.range 64 ⊆ l := by
    intro e he
    have := List.filter_eq_nil_iff.mp hnone e he
    simpa using this
  have := (List.nodup_range.subperm used).length_le
  rw [List.length_range] at this
  omega

/-- The window an entry is of is one of the Trowel's (R326). -/
theorem State.entryWindow_lt {s : State} {d e w : Nat} (h : s.entryWindow d e = some w) : w < 1024 := by
  unfold State.entryWindow State.keyWindow at h
  dsimp only at h
  split at h
  · cases h
    exact Nat.mod_lt _ (by decide)
  · cases h

/-- The four doublewords of an entry written, its valid bit set (R270). -/
def State.entryWritten (s : State) (d e : Nat) (ws : List Word) (poison : Bool) : State :=
  let s := s.setRegW d .FTQ_ENT e 0 (setBit (setBit (ws.getD 0 0) 38 poison) 63 true)
  let s := s.setRegW d .FTQ_ENT e 1 (ws.getD 1 0)
  let s := s.setRegW d .FTQ_ENT e 2 (ws.getD 2 0)
  s.setRegW d .FTQ_ENT e 3 (BitVec.ofNat 64 s.time)

/-- A written entry at the end of the queue, with those that still wait (R269, R271). -/
def State.entryQueued (s : State) (d e : Nat) (ws : List Word) (rest : List (List Word)) : State :=
  s.updEngine d fun x => { x with ftq := x.ftq ++ [e], held := rest, wkey := put (fun _ => 0) x.wkey e (ws.getD 3 0).toNat }

theorem State.ftqW_entryWritten (s : State) (d e : Nat) (ws : List Word) (poison : Bool) :
    (s.entryWritten d e ws poison).ftqW d e 0 = setBit (setBit (ws.getD 0 0) 38 poison) 63 true ∧
      (s.entryWritten d e ws poison).ftqW d e 1 = ws.getD 1 0 ∧ (s.entryWritten d e ws poison).ftqW d e 2 = ws.getD 2 0 := by
  unfold State.entryWritten
  refine ⟨?_, ?_, ?_⟩
  · rw [State.ftqW_setEntry_ne _ _ _ _ (by decide), State.ftqW_setEntry_ne _ _ _ _ (by decide), State.ftqW_setEntry_ne _ _ _ _ (by decide),
      State.ftqW_setEntry_self]
  · rw [State.ftqW_setEntry_ne _ _ _ _ (by decide), State.ftqW_setEntry_ne _ _ _ _ (by decide), State.ftqW_setEntry_self]
  · rw [State.ftqW_setEntry_ne _ _ _ _ (by decide), State.ftqW_setEntry_self]

/-- The count of posted entries is a register of its own (R287). -/
theorem State.keepsEntries_countPosted (s : State) (d : Nat) : s.KeepsEntries (s.countReg d .FTQ_POSTED 0 1) :=
  s.keepsEntries_setRegW _ (by decide)

theorem State.keeps_entryWritten (s : State) (d e : Nat) (ws : List Word) (poison : Bool) : s.Keeps (s.entryWritten d e ws poison) :=
  (((s.keeps_setRegW ..).trans (State.keeps_setRegW ..)).trans (State.keeps_setRegW ..)).trans (State.keeps_setRegW ..)

theorem State.byte_updEngine (s : State) (d : Nat) (f : Engine → Engine) (a : Nat) : (s.updEngine d f).byte a = s.byte a := rfl

theorem State.ftqW_updEngine (s : State) (d : Nat) (f : Engine → Engine) (d' e j : Nat) :
    (s.updEngine d f).ftqW d' e j = s.ftqW d' e j := rfl

theorem State.engine_entryQueued (s : State) (d e : Nat) (ws : List Word) (rest : List (List Word)) (poison : Bool) :
    (((s.entryWritten d e ws poison).entryQueued d e ws rest).engine d).ftq = (s.engine d).ftq ++ [e] ∧
      (((s.entryWritten d e ws poison).entryQueued d e ws rest).engine d).held = rest := by
  rw [State.entryQueued, State.engine_updEngine_self, (s.keeps_entryWritten d e ws poison).engine]
  exact ⟨rfl, rfl⟩

section Post

variable {s : State} {d : Nat} {ws : List Word} {rest : List (List Word)}

/-- With room the oldest waiting entry is written to one not in use and queued; the count, FTQ_STAT, FTQ_PEEK and the entry's window follow. -/
theorem State.ftqPost_room (hheld : (s.engine d).held = ws :: rest) (hroom : (s.engine d).ftq.length < 64) :
    ∃ e u poison, e < 64 ∧ e ∉ (s.engine d).ftq ∧ s.Keeps u ∧
      ((u.entryWritten d e ws poison).entryQueued d e ws rest).KeepsEntries (s.ftqPost d) := by
  obtain ⟨e, u, hpick⟩ := s.choose_some (freeEntries_ne_nil hroom)
  have free := List.mem_filter.mp (State.mem_of_choose hpick)
  refine ⟨e, u, (s.engine d).amPoisoned (bits (ws.getD 0 0) 15 0) (bits (ws.getD 0 0) 24 16 * entryW (ws.getD 0 0)),
    List.mem_range.mp free.1, by simpa using free.2, .of hpick (s.keeps_choose _), ?_⟩
  simp only [State.ftqPost, hheld, Nat.not_le.mpr hroom, if_false, hpick]
  have counted (v : State) : v.KeepsEntries ((v.countReg d .FTQ_POSTED 0 1).ftqSync d) :=
    (v.keepsEntries_countPosted d).trans (State.keepsEntries_ftqSync _ d)
  split
  next w hw => exact (counted _).trans (State.keepsEntries_setWindow _ _ (State.entryWindow_lt hw))
  next => exact counted _

theorem State.ftqPost_full (hheld : (s.engine d).held = ws :: rest) (hfull : 64 ≤ (s.engine d).ftq.length) : s.ftqPost d = s.ftqSync d := by
  simp only [State.ftqPost, hheld, hfull, if_true]

end Post

theorem execFtqPost_posts {s : State} (hs : s.stopped = false) (d : CDie) : execFtqPost d s = done (s.ftqPost d.val) := by
  simp only [execFtqPost, hs, Bool.false_eq_true, if_false]

/-- The valid bit of a posted entry's first doubleword, and the fields below its poison mark, which are as given (R270). -/
theorem bit_posted (w : Word) (poison : Bool) :
    bit (setBit (setBit w 38 poison) 63 true) 63 = true ∧ ∀ i < 38, bit (setBit (setBit w 38 poison) 63 true) i = bit w i := by
  refine ⟨?_, fun i hi => ?_⟩
  · rw [setBit, bit_setBits _ _ le_rfl (by decide), if_pos (by decide)]
    rfl
  · rw [setBit, setBit, bit_setBits _ _ le_rfl (by omega), if_neg (by omega), bit_setBits _ _ le_rfl (by omega), if_neg (by omega)]

/-- Settles O27: with room the entry is written and queued (`State.ftqPost_room`), and nothing after that changes the engine or the entry; a full
queue is only shown again in FTQ_STAT and FTQ_PEEK. -/
theorem finishedTilePosted : Obligations.FinishedTilePosted := by
  unfold Obligations.FinishedTilePosted
  intro s d ws rest hs hheld
  refine ⟨fun hroom => ?_, fun hfull => ?_⟩
  · obtain ⟨e, u, poison, he, hfree, hpick, hpost⟩ := State.ftqPost_room hheld hroom
    have keep := hpost.trans (State.keepsEntries_settle _)
    obtain ⟨h0, h1, h2⟩ := u.ftqW_entryWritten d.val e ws poison
    obtain ⟨hftq, hrest⟩ := u.engine_entryQueued d.val e ws rest poison
    have entry (j : Nat) (hj : j < 4) := (keep.entries d.val e he j hj).trans (State.ftqW_updEngine ..)
    have word0 := (entry 0 (by decide)).trans h0
    obtain ⟨hvalid, hfields⟩ := bit_posted (ws.getD 0 0) poison
    refine ⟨_, e, execFtqPost_posts hs d, he, hfree, ?_, ?_, ?_, ?_, (entry 1 (by decide)).trans h1, (entry 2 (by decide)).trans h2,
      fun a => ?_⟩
    · rw [keep.keeps.engine, hftq, hpick.engine]
    · rw [keep.keeps.engine, hrest]
    · rw [word0, hvalid]
    · intro i hi
      rw [word0, hfields i hi]
    · rw [keep.keeps.byte, State.entryQueued, State.byte_updEngine, (u.keeps_entryWritten ..).byte, hpick.byte]
  · have keep := (s.keepsEntries_ftqSync d.val).trans (State.keepsEntries_settle _)
    refine ⟨_, (execFtqPost_posts hs d).trans (congrArg done (State.ftqPost_full hheld hfull)), ?_, ?_⟩
    · rw [keep.keeps.engine]
    · rw [keep.keeps.engine, hheld]

end Sys2Proof.Machine

/-! SUPPORT. Quarters that run, entries freed and discarded (R279–R282). -/

namespace Sys2Proof.Machine

open Sys2Proof

/-! ### GLAZE_QUARTER_RUN (R279, R282) -/

/-- The quarter at the head, once nothing holds it back, is done when none of its outputs is refused. -/
theorem execGlazeQuarterRun_done {s u w : State} {c : CoreId} {k : Quarter} {v : VTask} {rest : List VTask} {m : QData} {fl : FFlags} {geo : QGeo}
    (hs : s.stopped = false) (hvq : (s.core c).vq = v :: rest) (hq : v.q = some k) (hgeo : geo = s.quarterGeo (dieOf c).val k.entry k.q)
    (hbusy : s.quarterBusy c geo k = false) (howes : s.passOwes (dieOf c).val geo.am (accW geo.afmt * geo.rows) = false)
    (hdata : s.quarterData c geo k = (.ok m, u)) (hrows : u.quarterRows c geo k m = ((none, w), fl)) :
    execGlazeQuarterRun c s = done (((w.updCore c fun x => { x with vq := x.vq.drop 1 }).quarterDone c k fl).slotGoesOn c) := by
  subst hgeo
  simp only [execGlazeQuarterRun, hs, hvq, hq, hbusy, howes, hdata, hrows, Bool.or_self, Bool.false_eq_true, if_false]

/-! ### What frees and discards leave of memory and of the queues (R272, R281, R328) -/

/-- State t has of s the memory and the order of the entries in every finished-tile queue. -/
structure State.KeepsQueues (s t : State) : Prop where
  byte : ∀ a, t.byte a = s.byte a
  ftq : ∀ d, (t.engine d).ftq = (s.engine d).ftq

theorem State.Keeps.keepsQueues {s t : State} (h : s.Keeps t) : s.KeepsQueues t := ⟨h.byte, fun d => congrArg (·.ftq) (h.engine d)⟩

theorem State.KeepsQueues.refl (s : State) : s.KeepsQueues s := ⟨fun _ => rfl, fun _ => rfl⟩

theorem State.KeepsQueues.trans {s t u : State} (h : s.KeepsQueues t) (k : t.KeepsQueues u) : s.KeepsQueues u :=
  ⟨fun a => (k.byte a).trans (h.byte a), fun d => (k.ftq d).trans (h.ftq d)⟩

/-- A fold whose every step leaves the queues as they were does so too. -/
theorem State.keepsQueues_foldl {α : Type} {f : State → α → State} (hf : ∀ (t : State) (a : α), t.KeepsQueues (f t a)) (l : List α)
    (s : State) : s.KeepsQueues (l.foldl f s) := by
  induction l generalizing s with
  | nil => exact .refl s
  | cons a l ih => exact (hf s a).trans (ih _)

/-- An engine whose own queue stays. -/
theorem State.keepsQueues_updEngine (s : State) (d : Nat) {f : Engine → Engine} (hf : ∀ x, (f x).ftq = x.ftq) :
    s.KeepsQueues (s.updEngine d f) := by
  refine ⟨s.byte_updEngine d f, fun d' => ?_⟩
  simp only [State.engine, State.updEngine, look_put]
  split
  next h => subst h; exact hf _
  next => rfl

theorem State.keeps_gangSync (s : State) (d : Nat) : s.Keeps (s.gangSync d) := by
  unfold State.gangSync
  split
  · exact s.keeps_setRegW ..
  · exact .refl s

/-- A slice that fails drops entries that wait, none that is posted (R328). -/
theorem State.keepsQueues_sliceFails (s : State) (w m fcode code : Nat) : s.KeepsQueues (s.sliceFails w m fcode code) := by
  unfold State.sliceFails
  extract_lets x y u
  split
  · exact .refl s
  · refine .trans (s.keeps_setWindow _ _).keepsQueues (State.keepsQueues_foldl (fun t d => ?_) _ _)
    refine .trans ?_ (State.keeps_gangSync _ d).keepsQueues
    split
    · exact .refl t
    · exact (t.keepsQueues_updEngine d (fun _ => by rfl)).trans (State.keepsEntries_ftqSync _ d).keeps.keepsQueues

theorem State.keepsQueues_entryReported (s : State) (win : Option Nat) (m : Nat) (discarded : Bool) :
    s.KeepsQueues (s.entryReported win m discarded) := by
  unfold State.entryReported
  split
  next w =>
    extract_lets x u
    have counted : s.KeepsQueues u := (s.keeps_setWindow _ _).keepsQueues
    split
    · exact counted.trans (State.keepsQueues_sliceFails ..)
    · exact counted
  next => exact .refl s

/-- An entry cleared and taken out of its queue (R272). -/
def State.entryCleared (s : State) (d e : Nat) : State :=
  ([0, 1, 2, 3].foldl (fun s j => s.setRegW d .FTQ_ENT e j 0) s).updEngine d fun x => { x with
    ftq := x.ftq.filter (· != e), disc := x.disc.filter (· != e), wkey := put (fun _ => 0) x.wkey e 0
    counter := put (fun _ => {}) x.counter e {} }

/-- The queue loses that entry alone; memory stays. -/
theorem State.entryCleared_spec (s : State) (d e : Nat) :
    ((s.entryCleared d e).engine d).ftq = (s.engine d).ftq.filter (· != e) ∧ ∀ a, (s.entryCleared d e).byte a = s.byte a := by
  have zeroed : s.Keeps ([0, 1, 2, 3].foldl (fun s j => s.setRegW d .FTQ_ENT e j 0) s) := State.keeps_foldl (fun t _ => t.keeps_setRegW ..) _ s
  refine ⟨?_, fun a => ?_⟩
  · rw [State.entryCleared, State.engine_updEngine_self, zeroed.engine]
  · rw [State.entryCleared, State.byte_updEngine, zeroed.byte]

/-- After the entry is cleared, its free is counted, shown and reported. -/
theorem State.ftqFree_cleared (s : State) (d e : Nat) (discarded : Bool) : (s.entryCleared d e).KeepsQueues (s.ftqFree d e discarded) := by
  unfold State.ftqFree
  extract_lets win m u v
  have counted : v.Keeps (v.countReg d (if discarded then .FTQ_DISCARDED else .FTQ_FREED) 0 1) := v.keeps_setRegW ..
  exact (counted.trans (State.keepsEntries_ftqSync _ d).keeps).keepsQueues.trans (State.keepsQueues_entryReported ..)

/-- Freeing an entry takes it alone out of its queue and leaves memory as it was. -/
theorem State.ftqFree_spec (s : State) (d e : Nat) (discarded : Bool) :
    e ∉ ((s.ftqFree d e discarded).engine d).ftq ∧
      (∀ x, x ≠ e → (x ∈ ((s.ftqFree d e discarded).engine d).ftq ↔ x ∈ (s.engine d).ftq)) ∧
      ∀ a, (s.ftqFree d e discarded).byte a = s.byte a := by
  have freed := s.ftqFree_cleared d e discarded
  obtain ⟨hftq, hbyte⟩ := s.entryCleared_spec d e
  rw [freed.ftq, hftq]
  exact ⟨by simp, fun x hx => by simp [hx], fun a => (freed.byte a).trans (hbyte a)⟩

/-- ENTRY_DONE of an entry that has been discarded, or whose quarters named no counter, frees it at once (R280, R281). -/
theorem execEntryDone_frees {s : State} {d : CDie} {e : BitVec 6} (hs : s.stopped = false) (hin : e.toNat ∈ (s.engine d.val).ftq)
    (hdone : bits (s.ftqW d.val e.toNat 0) 46 43 = 15) (hposted : s.outputsPosted d.val e.toNat = false)
    (hcounter : e.toNat ∈ (s.engine d.val).disc ∨ (look (fun _ => {}) (s.engine d.val).counter e.toNat).parts = []) :
    execEntryDone d e s = done (s.ftqFree d.val e.toNat ((s.engine d.val).disc.contains e.toNat)) := by
  unfold execEntryDone
  dsimp only
  rw [if_neg (by simp [hs, hin, hdone, hposted])]
  cases hdisc : (s.engine d.val).disc.contains e.toNat with
  | true => rw [if_pos rfl]
  | false =>
    have none : (look (fun _ => {}) (s.engine d.val).counter e.toNat).parts = [] := by
      refine hcounter.resolve_left fun hmem => ?_
      simp [hmem] at hdisc
    rw [if_neg (by decide), if_pos (by rw [none]; rfl)]

/-! ### DISCARD (R281) -/

/-- The marks of an entry's done quarters as DISCARD leaves them: those done, and those never claimed (R281). -/
def State.discardMarks (s : State) (d e : Nat) : Nat := Nat.lor (bits (s.ftqW d e 0) 46 43) (15 - bits (s.ftqW d e 0) 42 39)

theorem State.discardMarks_lt (s : State) (d e : Nat) : s.discardMarks d e < 16 :=
  Nat.or_lt_two_pow (n := 4) (Nat.mod_lt _ (by decide)) (by omega)

/-- An entry that has been discarded: its unclaimed quarters marked done, and the entry remembered (R281). -/
def State.entryDiscarded (s : State) (d e : Nat) : State :=
  (s.setRegW d .FTQ_ENT e 0 (setBits (s.ftqW d e 0) 46 43 (s.discardMarks d e))).updEngine d fun x =>
    { x with disc := if x.disc.contains e then x.disc else e :: x.disc }

theorem State.keepsQueues_entryDiscarded (s : State) (d e : Nat) : s.KeepsQueues (s.entryDiscarded d e) :=
  (s.keeps_setRegW ..).keepsQueues.trans (State.keepsQueues_updEngine _ _ fun _ => by rfl)

theorem State.marks_entryDiscarded (s : State) (d e : Nat) : bits ((s.entryDiscarded d e).ftqW d e 0) 46 43 = s.discardMarks d e := by
  rw [State.entryDiscarded, State.ftqW_updEngine, State.ftqW_setEntry_self, bits_setBits_same _ _ (by decide) (by decide)]
  exact Nat.mod_eq_of_lt (s.discardMarks_lt d e)

/-- DISCARD of an entry that keeps a quarter claimed and not done leaves it in the queue (R281). -/
theorem State.wrFtqCmd_discards {u : State} {d : Nat} {v : Word} (hop : bits v 9 8 = 1) (hin : bits v 5 0 ∈ (u.engine d).ftq)
    (hopen : bits (u.ftqW d (bits v 5 0) 0) 46 43 ≠ 15) (hclaimed : u.discardMarks d (bits v 5 0) ≠ 15) :
    u.wrFtqCmd d v = (u.entryDiscarded d (bits v 5 0)).ftqSync d := by
  unfold State.wrFtqCmd
  dsimp only
  rw [if_neg (by simp [hop, hin, hopen])]
  exact if_neg hclaimed

/-- Settles O33: a quarter that nothing holds back runs (`execGlazeQuarterRun_done`), ENTRY_DONE frees the entry (`State.ftqFree_spec`), and DISCARD
replaces the marks of its quarters (`State.wrFtqCmd_discards`). -/
theorem quartersRun : Obligations.QuartersRun := by
  unfold Obligations.QuartersRun
  intro s d hs
  refine ⟨?_, ?_, ?_⟩
  · intro c k v rest m u w fl hvq hq geo hbusy howes hdata hrows
    exact execGlazeQuarterRun_done hs hvq hq rfl hbusy howes hdata hrows
  · intro e hin hdone hposted hcounter
    obtain ⟨hout, hothers, hbyte⟩ := s.ftqFree_spec d.val e.toNat ((s.engine d.val).disc.contains e.toNat)
    have settled := State.keeps_settle (s.ftqFree d.val e.toNat ((s.engine d.val).disc.contains e.toNat))
    refine ⟨_, execEntryDone_frees hs hin hdone hposted hcounter, ?_, ?_, ?_⟩
    · rw [settled.engine]
      exact hout
    · rw [settled.engine]
      exact hothers
    · exact fun a => (settled.byte a).trans (hbyte a)
  · intro q v u hu hop hin hopen hclaimed
    have shown := ((u.entryDiscarded d.val (bits v 5 0)).keepsEntries_ftqSync d.val).trans (State.keepsEntries_settle _)
    refine ⟨_, (regCmd_arrives _ hu).trans (congrArg done (State.wrFtqCmd_discards hop hin hopen hclaimed)), ?_, ?_⟩
    · rw [shown.keeps.engine]
      exact (u.keepsQueues_entryDiscarded ..).ftq d.val
    · rw [shown.entries d.val (bits v 5 0) (Nat.mod_lt _ (by decide)) 0 (by decide)]
      exact u.marks_entryDiscarded ..

end Sys2Proof.Machine

/-! SUPPORT. The Glaze instructions: programs loaded, quarters claimed, amax histories taken, stored and loaded (R273, R278, R279, R283,
R284). -/

namespace Sys2Proof.Machine

open Sys2Proof

/-! ### The frame (R278) -/

/-- A core that an instruction's work has changed, and that goes on: one change. -/
theorem State.updCore_updCore (s : State) (c : CoreId) (f g : Core → Core) : (s.updCore c f).updCore c g = s.updCore c fun x => g (f x) := by
  simp only [State.updCore_eq, State.core_setCore_self, State.setCore_setCore]

theorem State.greg_begun (t : State) (c : CoreId) (g : Greg) : (t.updCore c Core.begun).greg c g = (t.core c).gread g := by
  rw [State.greg, State.core_updCore_self, Core.gread_begun]

/-- A fold whose steps leave a core alone leaves it alone. -/
theorem State.core_foldl {α : Type} {f : State → α → State} {c : CoreId} (hf : ∀ t a, (f t a).core c = t.core c) (l : List α) (s : State) :
    (l.foldl f s).core c = s.core c := by
  induction l generalizing s with
  | nil => rfl
  | cons a l ih => exact (ih _).trans (hf s a)

/-- The vector unit's queue is none of what beginning an instruction changes. -/
theorem State.vq_begun (t : State) (c e : CoreId) : ((t.updCore c Core.begun).core e).vq = (t.core e).vq := by
  by_cases h : e = c
  · subst h
    rw [State.core_updCore_self]
    rfl
  · rw [State.core_updCore_ne _ _ h]

theorem State.quarterOf_begun (t : State) (c : CoreId) (d i : Nat) : (t.updCore c Core.begun).quarterOf d i = t.quarterOf d i := by
  unfold State.quarterOf
  simp only [State.vq_begun]
  rfl

/-- A value pushed into a group's history on a die, the running amax starting afresh (R283). -/
def State.histPushed (s : State) (i v e : Nat) : State :=
  (s.updEngine e fun x => x.setHist i ((x.histOf i).push v)).setReg e .GLZ_AMR i 0

theorem State.core_histPushed (s : State) (i v e : Nat) (c : CoreId) : (s.histPushed i v e).core c = s.core c := rfl

/-- A group's history on a die replaced (R284). -/
def State.histLoaded (s : State) (i : Nat) (h : Hist) (e : Nat) : State := s.updEngine e fun x => x.setHist i h

theorem State.core_histLoaded (s : State) (i : Nat) (h : Hist) (e : Nat) (c : CoreId) : (s.histLoaded i h e).core c = s.core c := rfl

/-- The greatest running amax of a group on some dies (R283). -/
def State.amaxOver (s : State) (i : Nat) (ds : List Nat) : Nat :=
  ds.foldl (fun a e => (fMaxMin .fp32 true a (s.fld e .GLZ_AMR i 31 0)).1) 0

/-- A local group's history is its own die's, while the core may drain the group (R283, R285). -/
theorem State.histDies_local {t : State} {c : CoreId} {i : Nat} (hi : i < 48) (hopen : bit (t.reg (dieOf c).val .MXE_AG i) 63 = true)
    (hmay : bit (t.reg (dieOf c).val .MXE_AG i) (32 + (coreK c).val) = true) : t.histDies c i = some [(dieOf c).val] := by
  unfold State.histDies
  simp only [hopen, hmay, hi, Bool.not_true, Bool.or_self, Bool.false_eq_true, if_false, if_true]

section Glaze

variable {c : CoreId} {f : GFields} {s t : State} (hend : (t.core c).notLoopEnd) (hsys : isSystem c = false) (h0 : f.rsv0 = 0)
  (h1 : f.rsv1 = false) (hgb : f.gb = 0)

include hend hsys h0 h1 hgb

/-- A Glaze instruction of legal fields at a core with an engine, where no loop level ends, meets no exception before its own work (R48, R278). -/
theorem glzInsn_early {fn : Nat} {reads : List Greg} {ok : Bool} (hok : ok = true) : (glzInsn c fn f reads ok).early (t.core c) = none := by
  refine Insn.early_eq_none (.inl rfl) ?_ (.inr hend)
  simp [glzInsn, hsys, h0, h1, hgb, hok]

/-- A Glaze instruction that has its effect goes on after its two words. -/
theorem glzInsn_done {i : Instr} {fn : Nat} {reads : List Greg} {ok : Bool} {body : State → Body} {u : State} (h : s.Ready c i t)
    (hw : insnWords i = some (wordG fn f, wordG2 f)) (hok : ok = true) (hb : body (t.updCore c Core.begun) = .next u)
    (hslot : (u.core c).slot = none) (hdue : (u.core c).stepDue = false) :
    runInsn c (glzInsn c fn f reads ok) body s = done (u.updCore c fun x => x.after 8) :=
  runInsn_done (h.1.words hw) h.2 (glzInsn_early hend hsys h0 h1 hgb hok) hb hslot hdue

/-! ### Programs (R273) -/

/-- GLZ.LD: the header gives the length, and no operation read is bad. -/
theorem execGlzLd_loads {u v : State} {h : Word} {ops : List Word} (hr : s.Ready c (.glzLd c f) t) (hgd : f.gd = 0)
    (hhead : (t.updCore c Core.begun).readImageAt c f.sg.toNat ((t.core c).gread f.ga + sx f.imm) 1 = (.ok [h], u)) (hsome : bits h 6 0 ≠ 0)
    (hlen : bits h 6 0 ≤ 64)
    (hops : u.readImageAt c f.sg.toNat ((t.core c).gread f.ga + sx f.imm + 8) (bits h 6 0) = (.ok ops, v)) (hgood : gFirstBad ops = none)
    (hslot : (v.core c).slot = none) (hdue : (v.core c).stepDue = false) :
    execGlzLd c f s = done (v.updCore c fun x => Core.after { x with glz := put (fun _ => []) x.glz f.slot.toNat (h :: ops) } 8) := by
  unfold execGlzLd
  refine (glzInsn_done hend hsys h0 h1 hgb (u := v.updCore c fun x => { x with glz := put (fun _ => []) x.glz f.slot.toNat (h :: ops) }) hr rfl
    (by simp [hgd]) ?_ ?_ ?_).trans (congrArg done (State.updCore_updCore ..))
  · have offset : (t.updCore c Core.begun).greg c f.ga = (t.core c).gread f.ga := by
      rw [State.greg, State.core_updCore_self, Core.gread_begun]
    have legal : ¬(bits h 6 0 = 0 ∨ 64 < bits h 6 0) := by omega
    simp only [State.greg_begun, hhead, onRes, List.getD_cons_zero, legal, if_false, hops, hgood, List.singleton_append]
  · rw [State.core_updCore_self]
    exact hslot
  · rw [State.core_updCore_self]
    exact hdue

/-! ### Quarters claimed (R272, R279) -/

/-- GLZ.DRAIN with nothing to drain. -/
theorem execGlzDrain_none (hr : s.Ready c (.glzDrain c f) t) (hok : (f.slot == 0 && f.ga == 0 && f.sg == 0 && f.imm == 0) = true)
    (hnone : t.nextQuarter c = none) :
    execGlzDrain c f s = done (t.updCore c fun x => (x.begun.gwrite f.gd 0).after 8) := by
  unfold execGlzDrain
  refine runInsn_gwrite (fun _ => 0) (hr.1.words rfl) hr.2 (glzInsn_early hend hsys h0 h1 hgb hok) ?_
  have next : (t.updCore c Core.begun).nextQuarter c = none := hnone
  simp only [next]

/-- GLZ.DRAIN: the next quarter's group is bound to a loaded program, its descriptor and every range pass their checks, and nothing that
earlier instructions still owe holds it back. -/
theorem execGlzDrain_claims {e q : Nat} {geo : QGeo} {bind : Word} {prog desc : List Word} {u v w : State} {l tr : List (Nat × Piece)}
    {bs : List Byte} (hr : s.Ready c (.glzDrain c f) t) (hok : (f.slot == 0 && f.ga == 0 && f.sg == 0 && f.imm == 0) = true)
    (hgeo : geo = t.quarterGeo (dieOf c).val e q) (hbind : bind = t.reg (dieOf c).val .GLZ_BIND geo.grp)
    (hprog : prog = (t.core c).slotOf (bits bind 3 0)) (hdesc : desc = words64 24 bs) (hnext : t.nextQuarter c = some (e, q))
    (hbound : bit bind 63 = true) (hloaded : prog ≠ [])
    (haddr : (t.updCore c Core.begun).linChecks c none [(false, false, bits bind 51 6 * 64, 192)] = (.ok l, u))
    (hread : u.readNow c (BitVec.ofNat 64 (bits bind 51 6 * 64)) (l.map (·.2)) = (.ok bs, v)) (hcheck : descCheck desc (prog.drop 1) = none)
    (hranges : v.linChecks c (v.entryWindow (dieOf c).val e) (quarterRanges desc (prog.drop 1) geo) = (.ok tr, w))
    (hroom : (w.core c).vq.length < 16) (htiles : w.tqHolds c (tr.map (·.2)) true = false)
    (hrows : (w.core c).amOwed geo.am (accW geo.afmt * geo.rows) = false)
    (hslot : ((w.claimQuarter c f.gd e q geo (prog.drop 1) desc tr).core c).slot = none)
    (hdue : ((w.claimQuarter c f.gd e q geo (prog.drop 1) desc tr).core c).stepDue = false) :
    execGlzDrain c f s = done ((w.claimQuarter c f.gd e q geo (prog.drop 1) desc tr).updCore c fun x => x.after 8) := by
  unfold execGlzDrain
  refine glzInsn_done hend hsys h0 h1 hgb hr rfl hok ?_ hslot hdue
  have next : (t.updCore c Core.begun).nextQuarter c = some (e, q) := hnext
  have geom : (t.updCore c Core.begun).quarterGeo (dieOf c).val e q = geo := hgeo.symm
  have bound : (t.updCore c Core.begun).reg (dieOf c).val .GLZ_BIND geo.grp = bind := hbind.symm
  have loaded : ((t.updCore c Core.begun).core c).slotOf (bits bind 3 0) = prog := by
    rw [State.core_updCore_self, hprog]
    rfl
  have programmed : (!bit bind 63 || prog.isEmpty) = false := by simp [hbound, hloaded]
  have free : (decide (16 ≤ (w.core c).vq.length) || w.tqHolds c (tr.map (·.2)) true
      || (w.core c).amOwed geo.am (accW geo.afmt * geo.rows)) = false := by simp [Nat.not_le.mpr hroom, htiles, hrows]
  simp only [next, geom, bound, loaded, programmed, haddr, onRes, hread, ← hdesc, hcheck, hranges, free, Bool.false_eq_true, if_false]

/-! ### Histories (R198, R283, R284) -/

/-- GLZ.STAT: on the dies it acts on, with no quarter of the group running on any, the greatest running amax goes to their histories. -/
theorem execGlzStat_pushes {ds : List Nat} (hr : s.Ready c (.glzStat c f) t) (hok : (f.slot == 0 && f.gd == 0 && f.ga == 0 && f.sg == 0) = true)
    (hdies : t.histDies c (f.imm.toNat % 64) = some ds) (hidle : ∀ e ∈ ds, t.quarterOf e (f.imm.toNat % 64) = false) :
    execGlzStat c f s = done ((ds.foldl (fun u e => u.histPushed (f.imm.toNat % 64) (t.amaxOver (f.imm.toNat % 64) ds) e)
      (t.updCore c Core.begun)).updCore c fun x => x.after 8) := by
  have cores := State.core_foldl (c := c) (fun u e => u.core_histPushed (f.imm.toNat % 64) (t.amaxOver (f.imm.toNat % 64) ds) e c) ds
    (t.updCore c Core.begun)
  unfold execGlzStat
  refine glzInsn_done hend hsys h0 h1 hgb hr rfl hok ?_ (by rw [cores]; exact hr.2.begun.1) (by rw [cores]; exact hr.2.begun.2)
  have dies : (t.updCore c Core.begun).histDies c (f.imm.toNat % 64) = some ds := hdies
  have quiet : (ds.any fun e => (t.updCore c Core.begun).quarterOf e (f.imm.toNat % 64)) = false := by
    simpa only [State.quarterOf_begun, List.any_eq_false, Bool.not_eq_true] using hidle
  simp only [dies, quiet, Bool.false_eq_true, if_false]
  rfl

/-- GLZ.STAT of a local group that the core may drain. -/
theorem execGlzStat_local (hr : s.Ready c (.glzStat c f) t) (hok : (f.slot == 0 && f.gd == 0 && f.ga == 0 && f.sg == 0) = true)
    (hi : f.imm.toNat % 64 < 48) (hopen : bit (t.reg (dieOf c).val .MXE_AG (f.imm.toNat % 64)) 63 = true)
    (hmay : bit (t.reg (dieOf c).val .MXE_AG (f.imm.toNat % 64)) (32 + (coreK c).val) = true)
    (hidle : t.quarterOf (dieOf c).val (f.imm.toNat % 64) = false) :
    execGlzStat c f s = done (((t.updCore c Core.begun).histPushed (f.imm.toNat % 64)
      (fMaxMin .fp32 true 0 (t.fld (dieOf c).val .GLZ_AMR (f.imm.toNat % 64) 31 0)).1 (dieOf c).val).updCore c fun x => x.after 8) := by
  have pushes := execGlzStat_pushes hend hsys h0 h1 hgb hr hok (State.histDies_local hi hopen hmay) (by simpa using hidle)
  simpa only [State.amaxOver, List.foldl_cons, List.foldl_nil] using pushes

/-- GLZ.HST: the image's ten doublewords pass their checks, and nothing holds the stores back. -/
theorem execGlzHst_stores {u v : State} {l : List ElemAcc} (hr : s.Ready c (.glzHst c f) t) (hok : (f.slot == 0 && f.gd == 0) = true)
    (hchecks : (t.updCore c Core.begun).elemChecks c (reqOf c) f.sg.toNat true (histOffs ((t.core c).gread f.ga)) = (.all l, u, v))
    (hdies : (u.histDies c (f.imm.toNat % 64)).isSome = true) (hhold : u.vecHolds c (l.flatMap (·.parts)) true = false)
    (hready : u.storesReady (reqOf c) l = true) (hheld : u.storeHeld c = false) {w : State}
    (hw : w = u.storeImage c l ((u.engine (dieOf c).val).histOf (f.imm.toNat % 64)).image) (hslot : (w.core c).slot = none)
    (hdue : (w.core c).stepDue = false) : execGlzHst c f s = done (w.updCore c fun x => x.after 8) := by
  unfold execGlzHst
  refine glzInsn_done hend hsys h0 h1 hgb hr rfl hok ?_ hslot hdue
  obtain ⟨ds, hds⟩ := Option.isSome_iff_exists.mp hdies
  simp only [State.greg_begun, hchecks, hds, hhold, hready, hheld, Bool.not_true, Bool.or_self, Bool.false_eq_true, if_false, hw]

/-- GLZ.HLD: the image goes to the history of every die the group is on. -/
theorem execGlzHld_loads {u : State} {ws : List Word} {ds : List Nat} (hr : s.Ready c (.glzHld c f) t) (hok : (f.slot == 0 && f.gd == 0) = true)
    (hread : (t.updCore c Core.begun).readImageAt c f.sg.toNat ((t.core c).gread f.ga) 10 = (.ok ws, u))
    (hdies : u.histDies c (f.imm.toNat % 64) = some ds) (hslot : (u.core c).slot = none) (hdue : (u.core c).stepDue = false) :
    execGlzHld c f s = done ((ds.foldl (fun w e => w.histLoaded (f.imm.toNat % 64) (histOf (bytesOf ws)) e) u).updCore c fun x => x.after 8) := by
  have cores := State.core_foldl (c := c) (fun w e => w.core_histLoaded (f.imm.toNat % 64) (histOf (bytesOf ws)) e c) ds u
  unfold execGlzHld
  refine glzInsn_done hend hsys h0 h1 hgb hr rfl hok ?_ (by rw [cores, hslot]) (by rw [cores, hdue])
  simp only [State.greg_begun, hread, onRes, hdies]
  rfl

end Glaze

/-! ### The obligation -/

/-- Settles O31: each instruction passes its checks and has its effect (`execGlzLd_loads`, `execGlzDrain_none`, `execGlzDrain_claims`,
`execGlzStat_pushes`, `execGlzHst_stores`, `execGlzHld_loads`); a local group's GLZ.STAT is the case of the core's own die. -/
theorem glazeInstructions : Obligations.GlazeInstructions := by
  unfold Obligations.GlazeInstructions
  intro s t c f hend hsys h0 h1 hgb o d i
  refine ⟨?_, ?_, ?_⟩
  · intro u v h ops hr hgd hhead hsome hlen hops hgood hslot hdue
    exact execGlzLd_loads hend hsys h0 h1 hgb hr hgd hhead hsome hlen hops hgood hslot hdue
  · intro hr hslot0 hga hsg himm
    have hok : (f.slot == 0 && f.ga == 0 && f.sg == 0 && f.imm == 0) = true := by simp [hslot0, hga, hsg, himm]
    refine ⟨execGlzDrain_none hend hsys h0 h1 hgb hr hok, ?_⟩
    intro e q u v w l tr bs geo bind prog hnext hbound hloaded haddr hread hcheck hranges hroom htiles hrows hslot hdue
    exact execGlzDrain_claims hend hsys h0 h1 hgb hr hok rfl rfl rfl rfl hnext hbound hloaded haddr hread hcheck hranges hroom htiles hrows hslot hdue
  · intro hslot0 hgd
    have hok : (f.slot == 0 && f.gd == 0) = true := by simp [hslot0, hgd]
    refine ⟨?_, ?_, ?_⟩
    · intro hr hga hsg
      have hok : (f.slot == 0 && f.gd == 0 && f.ga == 0 && f.sg == 0) = true := by simp [hslot0, hgd, hga, hsg]
      refine ⟨?_, ?_⟩
      · intro hi hopen hmay hidle
        exact execGlzStat_local hend hsys h0 h1 hgb hr hok hi hopen hmay hidle
      · intro ds hdies hidle v
        exact execGlzStat_pushes hend hsys h0 h1 hgb hr hok hdies hidle
    · intro u v l hr hchecks hdies hhold hready hheld w hslot hdue
      exact execGlzHst_stores hend hsys h0 h1 hgb hr hok hchecks hdies hhold hready hheld rfl hslot hdue
    · intro u ws ds hr hread hdies hslot hdue
      exact execGlzHld_loads hend hsys h0 h1 hgb hr hok hread hdies hslot hdue

end Sys2Proof.Machine

/-! SUPPORT. The stream table and the Trowel: what a stream's entry reads as after a write, and what packets, interrupts and log entries leave of
both (R288–R290). -/

namespace Sys2Proof.Machine

open Sys2Proof

/-! ### Doublewords of memory (R30) -/

@[simp] theorem State.mem64_setMem64_self (s : State) (pa : Nat) (v : Word) : (s.setMem64 pa v).mem64 pa = v := by
  have written : (s.setMem64 pa v).bytes pa 8 = toBytes 8 v.toNat := by
    have h := s.bytes_setBytes pa (toBytes 8 v.toNat)
    rwa [length_toBytes] at h
  rw [State.mem64, written, fromBytes_toBytes, show 256 ^ 8 = 2 ^ 64 by decide, Nat.mod_eq_of_lt v.isLt, BitVec.ofNat_toNat,
    BitVec.setWidth_eq]

theorem State.byte_setMem64_out (s : State) {pa a : Nat} (v : Word) (h : a < pa ∨ pa + 8 ≤ a) : (s.setMem64 pa v).byte a = s.byte a :=
  s.byte_setBytes_out pa a _ (by rwa [length_toBytes])

theorem State.mem64_congr {s t : State} {pa : Nat} (h : ∀ a, pa ≤ a → a < pa + 8 → t.byte a = s.byte a) : t.mem64 pa = s.mem64 pa := by
  rw [State.mem64, State.bytes_congr h, State.mem64]

theorem State.mem64_setMem64_ne (s : State) {pa pa' : Nat} (v : Word) (h : pa' + 8 ≤ pa ∨ pa + 8 ≤ pa') :
    (s.setMem64 pa v).mem64 pa' = s.mem64 pa' :=
  State.mem64_congr fun _ _ _ => s.byte_setMem64_out v (by omega)

/-! ### A stream's entry (R288) -/

@[simp] theorem State.strW_setStrF_self (s : State) (st j hi lo v : Nat) :
    (s.setStrF st j hi lo v).strW st j = setBits (s.strW st j) hi lo v := s.mem64_setMem64_self ..

theorem State.strW_setStrF_ne (s : State) (st : Nat) {j k : Nat} (hi lo v : Nat) (h : j ≠ k) :
    (s.setStrF st k hi lo v).strW st j = s.strW st j := s.mem64_setMem64_ne _ (by omega)

theorem State.byte_setStrF_out (s : State) (st : Nat) {j a : Nat} (hi lo v : Nat) (hj : j < 8) (h : a < strAddr st ∨ strAddr st + 64 ≤ a) :
    (s.setStrF st j hi lo v).byte a = s.byte a := s.byte_setMem64_out _ (by omega)

theorem State.trowel_setStrF (s : State) (st j hi lo v : Nat) : (s.setStrF st j hi lo v).trowel = s.trowel := rfl

/-! ### What the Trowel holds after an update -/

@[simp] theorem State.trowel_sendIrq (s : State) (route die : Nat) : (s.sendIrq route die).trowel = s.trowel :=
  (s.keepsGangs_sendIrq route die).trowel

@[simp] theorem State.trowel_wqnSync (s : State) (d : Nat) : (s.wqnSync d).trowel = s.trowel := by simp [State.wqnSync]

@[simp] theorem State.trowel_settle (s : State) : s.settle.trowel = s.trowel := s.keepsGangs_settle.trowel

theorem State.trowel_send (s : State) (l : LinkId) (p : Pkt) : (s.send l p).trowel = s.trowel := by
  unfold State.send State.updLink State.setLink
  split
  · rfl
  · rfl

theorem State.trowel_trwSync (s : State) : s.trwSync.trowel = s.trowel := by
  unfold State.trwSync
  exact State.setRegW_trowel ..

theorem State.runOf_congr {s t : State} (h : t.trowel.runs = s.trowel.runs) (st : Nat) : t.runOf st = s.runOf st :=
  congrArg (fun l : List StreamRun => l.find? fun r : StreamRun => r.s == st) h

theorem State.queued_congr {s t : State} (h : t.trowel.wq = s.trowel.wq) (d : Nat) : t.queued d = s.queued d :=
  congrArg (fun m => look (fun _ => []) m d) h

/-- A stream's started command is the one last put there. -/
@[simp] theorem State.runOf_setRun (s : State) (r : StreamRun) : (s.setRun r).runOf r.s = some r := by
  simp [State.runOf, State.setRun, State.trwSync]

theorem State.queued_setRun (s : State) (r : StreamRun) (d : Nat) : (s.setRun r).queued d = s.queued d :=
  State.queued_congr (by simp [State.setRun, State.trwSync]) d

/-! ### What leaves the stream table alone -/

/-- State t has of s the memory, the enabled streams and their started commands. -/
structure State.KeepsStreams (s t : State) : Prop where
  byte : ∀ a, t.byte a = s.byte a
  enabled : t.trowel.enabled = s.trowel.enabled
  runs : t.trowel.runs = s.trowel.runs

theorem State.KeepsStreams.refl (s : State) : s.KeepsStreams s := ⟨fun _ => rfl, rfl, rfl⟩

theorem State.KeepsStreams.trans {s t u : State} (h : s.KeepsStreams t) (k : t.KeepsStreams u) : s.KeepsStreams u :=
  ⟨fun a => (k.byte a).trans (h.byte a), k.enabled.trans h.enabled, k.runs.trans h.runs⟩

theorem State.KeepsStreams.strW {s t : State} (h : s.KeepsStreams t) (st j : Nat) : t.strW st j = s.strW st j :=
  State.mem64_congr fun a _ _ => h.byte a

theorem State.KeepsStreams.strF {s t : State} (h : s.KeepsStreams t) (st j hi lo : Nat) : t.strF st j hi lo = s.strF st j hi lo :=
  congrArg (bits · hi lo) (h.strW st j)

theorem State.KeepsStreams.strState {s t : State} (h : s.KeepsStreams t) (st : Nat) : t.strState st = s.strState st := by
  rw [State.strState, State.strState, h.enabled, h.strF]

theorem State.KeepsStreams.strUsed {s t : State} (h : s.KeepsStreams t) (st : Nat) : t.strUsed st = s.strUsed st := by
  rw [State.strUsed, State.strUsed, h.strF, h.strF]

theorem State.KeepsStreams.runOf {s t : State} (h : s.KeepsStreams t) (st : Nat) : t.runOf st = s.runOf st :=
  State.runOf_congr h.runs st

theorem State.keepsStreams_send (s : State) (l : LinkId) (p : Pkt) : s.KeepsStreams (s.send l p) :=
  ⟨(s.keeps_send l p).byte, by rw [State.trowel_send], by rw [State.trowel_send]⟩

theorem State.keepsStreams_credit (s : State) (m : Sparse Nat) : s.KeepsStreams { s with trowel := { s.trowel with credit := m } } :=
  ⟨fun _ => rfl, rfl, rfl⟩

theorem State.keepsStreams_noteCredit (s : State) (st : Nat) : s.KeepsStreams (s.noteCredit st) := s.keepsStreams_credit _

theorem State.keepsStreams_sendScpl (s : State) (stream : Nat) (conly : Bool) (seq ctag credit expseq time : Nat) :
    s.KeepsStreams (s.sendScpl stream conly seq ctag credit expseq time) := s.keepsStreams_send ..

theorem State.keepsStreams_sendCreditOnly (s : State) (st : Nat) : s.KeepsStreams (s.sendCreditOnly st) :=
  (s.keepsStreams_sendScpl ..).trans (State.keepsStreams_noteCredit ..)

end Sys2Proof.Machine

/-! SUPPORT. STM_CMD's ENABLE of a stream that still holds a translation (R289, R302). -/

namespace Sys2Proof.Machine

open Sys2Proof

/-! ### The host at the K-die's own registers (R15, R27) -/

/-- A host over an ACTIVE link reaches the K-die's registers without a route, where nothing confines it. -/
theorem State.regAccess_host {s : State} {r : RegName} (hup : s.srcUp .host = true) (hmay : s.hostMay 24 (regInfo r).blk = true)
    (hdown : s.downOn 24 24 false = none) (hback : s.downOn 24 24 true = none) (hfree : s.pathBusy 24 24 = false) (i : Nat) :
    s.regAccess .host 24 r i = (true, s) := by
  have source : srcMay .host (regInfo r).blk = true := rfl
  simp [State.regAccess, State.answered, State.travel, srcReq, hup, hmay, source, hdown, hback, hfree]

/-! ### ENABLE -/

/-- The stream as ENABLE leaves it before the credit is noted: translations given to its commands are forgotten with it. -/
def State.enabledStream (s : State) (n : Nat) : State :=
  let u := ((s.dropDone n none).setStrW n 2 0).setStrF n 3 35 32 1
  { u with trowel := { u.trowel with enabled := (n :: u.trowel.enabled).mergeSort (· ≤ ·) } }

theorem State.strEnable_accepts {s : State} {n : Nat} (hn : n < s.fld 24 .STM_CFG 0 18 0) (hstate : s.strState n = 0)
    (hlow : 4 ≤ s.strF n 0 52 48) (hhigh : s.strF n 0 52 48 ≤ 20) (halign : s.strF n 0 5 0 = 0) :
    s.strEnable n = ((s.enabledStream n).noteCredit n).cmdRes 1 := by
  have ok : ¬(s.strF n 0 52 48 < 4 ∨ 20 < s.strF n 0 52 48 ∨ s.strF n 0 5 0 ≠ 0) := by omega
  unfold State.strEnable
  rw [if_neg (by omega), if_neg (by simp [hstate])]
  exact if_neg ok

/-- No translation is left of a stream that ENABLE accepts. -/
theorem State.preDone_strEnable {s : State} {n : Nat} (hn : n < s.fld 24 .STM_CFG 0 18 0) (hstate : s.strState n = 0)
    (hlow : 4 ≤ s.strF n 0 52 48) (hhigh : s.strF n 0 52 48 ≤ 20) (halign : s.strF n 0 5 0 = 0) :
    (s.strEnable n).trowel.preDone = s.trowel.preDone.filter fun p => !(p.s == n) := by
  rw [State.strEnable_accepts hn hstate hlow hhigh halign, State.cmdRes, State.setReg, State.setRegW_trowel]
  simp only [State.noteCredit, State.enabledStream, State.setStrF, State.setStrW, State.setMem64, State.setBytes, State.dropDone,
    Option.isNone_none, Bool.true_or, Bool.and_true]

/-- Log entries and interrupts leave the Trowel as it is, so that commands with one outcome leave one Trowel. -/
theorem trowel_of_done {u v : State} (h : done u = .next v.settle) : u.trowel = v.trowel := by
  rw [← u.trowel_settle, Host.Outcome.next.inj h, v.trowel_settle]

theorem execEnable_arrives {b s : State} {q : Src} (sid : StreamId) (h : b.regAccess q 24 .STM_CMD 0 = (true, s)) :
    exec (.enable q sid) b = done (s.strEnable sid.toNat) :=
  regCmd_arrives (fun s => s.strEnable sid.toNat) h

/-- Stream 0 is disabled, with a ring of 16 commands; the translation that its LAUNCH at HEAD was given before it was disabled is still held. -/
def heldTranslation : State :=
  { regs := ((State.reset.setFld 24 .AGD_LSTAT 0 3 0 5).setFld 24 .STM_CFG 0 18 0 4).regs
    mem := [(ksramBase + 6, 4)]
    rst := { asserted := [], rails := true, pwrEn := true }
    trowel := { preDone := [{ s := 0 }] } }

theorem regAccess_heldTranslation : heldTranslation.regAccess .host 24 .STM_CMD 0 = (true, heldTranslation) :=
  State.regAccess_host (by decide +kernel) (by decide +kernel) (by decide +kernel) (by decide +kernel) (by decide +kernel) 0

/-- Refutes O34: ENABLE forgets the translations given to the stream's commands (`State.strEnable_accepts`, R333), while the next state that its
clause states takes the Trowel of before the access, which holds them still. Stream 0 of `heldTranslation` holds one. -/
theorem not_streamOperations : ¬ Obligations.StreamOperations := by
  unfold Obligations.StreamOperations
  intro h
  obtain ⟨hcommands, -⟩ := h
  have hn : 0 < heldTranslation.fld 24 .STM_CFG 0 18 0 := by decide +kernel
  have hstate : heldTranslation.strState 0 = 0 := rfl
  have rlog : heldTranslation.strF 0 0 52 48 = 4 := by decide +kernel
  have halign : heldTranslation.strF 0 0 5 0 = 0 := by decide +kernel
  have hlow : 4 ≤ heldTranslation.strF 0 0 52 48 := rlog.ge
  have hhigh : heldTranslation.strF 0 0 52 48 ≤ 20 := by omega
  obtain ⟨henable, -⟩ := hcommands heldTranslation heldTranslation .host 0 regAccess_heldTranslation hn
  have stated := henable hstate hlow hhigh halign
  have performed := execEnable_arrives 0 regAccess_heldTranslation
  have trowels := trowel_of_done (performed.symm.trans stated)
  have kept := congrArg Trowel.preDone trowels
  change (heldTranslation.strEnable 0).trowel.preDone = heldTranslation.trowel.preDone at kept
  rw [State.preDone_strEnable hn hstate hlow hhigh halign] at kept
  exact absurd kept (by decide)

end Sys2Proof.Machine

/-! SUPPORT. Submission and the start of commands: what becomes of a CMD packet, and of the command at HEAD (R291–R293, R296–R298, R301). -/

namespace Sys2Proof.Machine

open Sys2Proof

/-! ### Commands of a packet (R291) -/

theorem length_groups8 {ws : List Word} {k f : Nat} (h : ws.length = 8 * k) (hf : k ≤ f) : (groups8 f ws).length = k := by
  induction f generalizing ws k with
  | zero =>
    obtain rfl : k = 0 := by omega
    rfl
  | succ f ih =>
    unfold groups8
    cases k with
    | zero =>
      rw [List.length_eq_zero_iff.mp h]
      rfl
    | succ k =>
      have more : ws.isEmpty = false := by
        cases ws with
        | nil => simp at h
        | cons w ws => rfl
      rw [more, if_neg Bool.false_ne_true, List.length_cons, ih (k := k) (by rw [List.length_drop]; omega) (by omega)]

section Append

variable {s u : State} {st seq : Nat} {cs : List (List Word)}

/-- How far the packet's first command lies beyond the one expected next (R291). -/
def State.ahead (s : State) (st seq : Nat) : Int := (BitVec.ofNat 32 seq - BitVec.ofNat 32 (s.strExp st)).toInt

theorem State.appendCmds_misdirected (h : s.fld 24 .STM_CFG 0 18 0 ≤ st ∨ s.strState st = 0) :
    s.appendCmds st seq cs = s.rejectCmd st 3 seq :=
  if_pos (by simpa using h)

variable (hid : st < s.fld 24 .STM_CFG 0 18 0)
include hid

theorem State.appendCmds_cancelling (hstate : s.strState st = 8) : s.appendCmds st seq cs = s.rejectCmd st 4 seq := by
  simp [State.appendCmds, hstate, Nat.not_le.mpr hid]

variable (hon : s.strState st ≠ 0) (hgo : s.strState st ≠ 8)
include hon hgo

/-- A packet for an enabled stream that is not cancelling: the order and the number of its new commands decide. -/
theorem State.appendCmds_enabled : s.appendCmds st seq cs = (if 0 < s.ahead st seq then s.rejectCmd st 1 seq
    else if cs.length - min (s.ahead st seq).natAbs cs.length = 0 then s.sendCreditOnly st
    else if s.strCredit st < cs.length - min (s.ahead st seq).natAbs cs.length then s.rejectCmd st 2 seq
    else match s.writeSlots st (s.strF st 2 63 32) (cs.drop (min (s.ahead st seq).natAbs cs.length)) with
      | (.ok _, u) =>
        let m := cs.length - min (s.ahead st seq).natAbs cs.length
        let v := (u.setStrF st 2 63 32 (s.strF st 2 63 32 + m)).setStrF st 3 31 0 (u.strExp st + m)
        ((if v.strState st = 1 then v.setStrState st 2 else v).countReg 24 .STM_APPENDED 0 m).preAdd st (s.strF st 2 63 32)
          (cs.drop (min (s.ahead st seq).natAbs cs.length))
      | (.wait, u) => u
      | (_, u) => u.rejectCmd st 5 seq) := by
  have here : ¬ (decide (s.fld 24 .STM_CFG 0 18 0 ≤ st) || s.strState st == 0) = true := by simp [Nat.not_le.mpr hid, hon]
  unfold State.appendCmds
  dsimp only
  rw [if_neg here, if_neg hgo]
  rfl

theorem State.appendCmds_outOfOrder (h : 0 < s.ahead st seq) : s.appendCmds st seq cs = s.rejectCmd st 1 seq := by
  rw [State.appendCmds_enabled hid hon hgo, if_pos h]

variable (hseq : s.ahead st seq ≤ 0)
include hseq

theorem State.appendCmds_duplicates (h : cs.length ≤ (s.ahead st seq).natAbs) : s.appendCmds st seq cs = s.sendCreditOnly st := by
  rw [State.appendCmds_enabled hid hon hgo, if_neg (Int.not_lt.mpr hseq), Nat.min_eq_right h, if_pos (Nat.sub_self _)]

variable (hnew : (s.ahead st seq).natAbs < cs.length)
include hnew

/-- The packet holds commands not yet appended: EXPSEQ's are skipped, and the rest needs credit. -/
theorem State.appendCmds_tooLong (h : s.strCredit st < cs.length - (s.ahead st seq).natAbs) :
    s.appendCmds st seq cs = s.rejectCmd st 2 seq := by
  rw [State.appendCmds_enabled hid hon hgo, if_neg (Int.not_lt.mpr hseq), Nat.min_eq_left hnew.le, if_neg (by omega), if_pos h]

variable (hcredit : cs.length - (s.ahead st seq).natAbs ≤ s.strCredit st)
include hcredit

theorem State.appendCmds_appends (hwrite : s.writeSlots st (s.strF st 2 63 32) (cs.drop (s.ahead st seq).natAbs) = (.ok (), u)) :
    let m := cs.length - (s.ahead st seq).natAbs
    let v := (u.setStrF st 2 63 32 (s.strF st 2 63 32 + m)).setStrF st 3 31 0 (u.strExp st + m)
    s.appendCmds st seq cs = ((if v.strState st = 1 then v.setStrState st 2 else v).countReg 24 .STM_APPENDED 0 m).preAdd st
      (s.strF st 2 63 32) (cs.drop (s.ahead st seq).natAbs) := by
  intro m v
  rw [State.appendCmds_enabled hid hon hgo, if_neg (Int.not_lt.mpr hseq), Nat.min_eq_left hnew.le, if_neg (by omega),
    if_neg (Nat.not_lt.mpr hcredit), hwrite]

theorem State.appendCmds_slotLost {code : Nat}
    (hwrite : s.writeSlots st (s.strF st 2 63 32) (cs.drop (s.ahead st seq).natAbs) = (.err code, u)) :
    s.appendCmds st seq cs = u.rejectCmd st 5 seq := by
  rw [State.appendCmds_enabled hid hon hgo, if_neg (Int.not_lt.mpr hseq), Nat.min_eq_left hnew.le, if_neg (by omega),
    if_neg (Nat.not_lt.mpr hcredit), hwrite]

end Append

/-- A packet of one to eight commands, its slots not held up and room for an answer there, is processed as one unit (R291, R380). -/
theorem execCmd_appends {s : State} {sid : StreamId} {seq : BitVec 32} {ws : List Word} {k : Nat} (hs : s.stopped = false)
    (hlink : (s.link .agd).state = 5) (h1 : 1 ≤ k) (h8 : k ≤ 8) (hlen : ws.length = 8 * k) (hroom : s.evtRoom = true)
    (hbusy : s.slotsBusy sid.toNat (s.newCmds sid.toNat seq.toNat (groups8 8 ws)) = false) :
    execCmd sid seq ws s = done ((s.owe .agd 0 (1 + 4 * k)).appendCmds sid.toNat seq.toNat (groups8 8 ws)) := by
  have count : (groups8 8 ws).length = k := length_groups8 hlen h8
  have whole : ¬ (ws.length = 0 ∨ 64 < ws.length ∨ ws.length % 8 ≠ 0) := by omega
  simp only [execCmd, hs, hlink, whole, hbusy, hroom, count, Bool.and_false, Bool.not_true, Bool.false_and, Bool.false_or, bne_self_eq_false,
    Bool.false_eq_true, if_false]

/-! ### The start of a command (R296, R298, R301) -/

section Start

variable {s t u : State} {n : Nat} {bs : List Byte}

/-- The stream whose command has been read from its slot is RUNNING, and the last started of its priority (R298). -/
def State.startNoted (s t : State) (n : Nat) : State :=
  State.setStrState ({ t with trowel := { t.trowel with
    lastStart := (s.strF n 0 55 53, n) :: t.trowel.lastStart.filter fun e => e.1 != s.strF n 0 55 53
    starts := t.trowel.starts + 1 } }) n 5

/-- Its command as it has started. -/
def State.startedRun (u : State) (n : Nat) (bs : List Byte) : StreamRun :=
  { s := n, cmd := words64 8 bs, run := .begun, gen := u.strF n 5 31 0, ord := u.trowel.starts }

variable (hs : s.stopped = false) (hnext : s.nextStream = some n)
  (hread : s.devRead kReq (.unit 24 11) 64 (s.strSlot n (s.strF n 2 31 0)) 64 = (.ok bs, t))
include hs hnext hread

theorem execCommandStart_starts : execCommandStart s = done (if cmdMalformed (words64 8 bs) then
      (s.startNoted t n).faultStream ((s.startNoted t n).startedRun n bs) 0x01 0
    else if (s.startNoted t n).cmdBadSync (words64 8 bs) then (s.startNoted t n).faultStream ((s.startNoted t n).startedRun n bs) 0x02 0
    else (s.startNoted t n).setRun ((s.startNoted t n).startedRun n bs)) := by
  unfold execCommandStart
  rw [if_neg (by rw [hs]; decide), hnext]
  refine congrArg done ?_
  unfold State.startCmd
  dsimp only
  rw [hread]
  rfl

theorem execCommandStart_malformed (h : cmdMalformed (words64 8 bs) = true) :
    execCommandStart s = done ((s.startNoted t n).faultStream ((s.startNoted t n).startedRun n bs) 0x01 0) := by
  rw [execCommandStart_starts hs hnext hread, if_pos h]

theorem execCommandStart_badSync (h : cmdMalformed (words64 8 bs) = false) (hsync : (s.startNoted t n).cmdBadSync (words64 8 bs) = true) :
    execCommandStart s = done ((s.startNoted t n).faultStream ((s.startNoted t n).startedRun n bs) 0x02 0) := by
  rw [execCommandStart_starts hs hnext hread, if_neg (by rw [h]; decide), if_pos hsync]

theorem execCommandStart_runs (h : cmdMalformed (words64 8 bs) = false) (hsync : (s.startNoted t n).cmdBadSync (words64 8 bs) = false) :
    execCommandStart s = done ((s.startNoted t n).setRun ((s.startNoted t n).startedRun n bs)) := by
  rw [execCommandStart_starts hs hnext hread, if_neg (by rw [h]; decide), if_neg (by rw [hsync]; decide)]

end Start

/-- Settles O35: a packet is appended or answered as its stream, its order and its length decide (`State.appendCmds_enabled`), and the command that
starts is checked (`execCommandStart_starts`). -/
theorem commandsAppendedAndStarted : Obligations.CommandsAppendedAndStarted := by
  unfold Obligations.CommandsAppendedAndStarted
  refine ⟨?_, ?_⟩
  · intro s sid seq ws k hs hlink h1 h8 hlen hroom n cs hbusy o out d
    have count : cs.length = k := length_groups8 hlen h8
    have ahead : o.ahead n seq.toNat = d := by
      show (BitVec.ofNat 32 seq.toNat - _).toInt = _
      rw [BitVec.ofNat_toNat, BitVec.setWidth_eq]
    have answers {u : State} (h : o.appendCmds n seq.toNat cs = u) : execCmd sid seq ws s = done u :=
      (execCmd_appends hs hlink h1 h8 hlen hroom hbusy).trans (congrArg done h)
    clear_value cs d
    subst ahead count
    refine ⟨fun h => answers (State.appendCmds_misdirected h), fun hid h => answers (State.appendCmds_cancelling hid h),
      fun hid hon hgo => ⟨?_, ?_, ?_⟩⟩
    · exact fun h => answers (State.appendCmds_outOfOrder hid hon hgo h)
    · exact fun hseq h => answers (State.appendCmds_duplicates hid hon hgo hseq h)
    · refine fun hseq hnew => ⟨fun h => answers (State.appendCmds_tooLong hid hon hgo hseq hnew h),
        fun hcredit u => ⟨fun hwrite => ?_, fun code hwrite => ?_⟩⟩
      · exact answers (State.appendCmds_appends hid hon hgo hseq hnew hcredit hwrite)
      · exact answers (State.appendCmds_slotLost hid hon hgo hseq hnew hcredit hwrite)
  · intro s t n bs hs hnext hread ws u r
    exact ⟨execCommandStart_malformed hs hnext hread, execCommandStart_badSync hs hnext hread, execCommandStart_runs hs hnext hread⟩

end Sys2Proof.Machine

/-! SUPPORT. Stream commands that have started: what each does, and a COPY or a FILL block by block (R296, R297, R300, R301, R303, R307, R313,
R317, R333). -/

namespace Sys2Proof.Machine

open Sys2Proof

section Started

variable {s t u : State} {sid : StreamId} {r : StreamRun}

/-- The effect of a started command is performed at once. -/
theorem onBegun_performs (hs : s.stopped = false) (hr : s.runOf sid.toNat = some r) (hb : r.run = .begun) {opc : Nat} (ho : r.opc = opc)
    (f : State → StreamRun → State) : onBegun sid opc s f = done (f s r) := by
  simp [onBegun, hs, hr, hb, ho]

/-! ### WAIT, COPY and FILL at their start (R296, R297, R307) -/

theorem State.waitStart_satisfied (hp : s.anyPoison (synAddr (bits (r.dw 1) 15 0)) 32 = false)
    (h : (r.dw 2).toNat ≤ (s.synValue (bits (r.dw 1) 15 0)).toNat) : s.waitStart r = s.finish r := by
  simp [State.waitStart, hp, h]

theorem State.waitStart_waits (hp : s.anyPoison (synAddr (bits (r.dw 1) 15 0)) 32 = false)
    (h : (s.synValue (bits (r.dw 1) 15 0)).toNat < (r.dw 2).toNat) :
    s.waitStart r = (((s.setRun { r with run := .waiting (if r.dw 3 = 0 then none else some (s.time + (r.dw 3).toNat)) }).setStrState
      r.s 3).countWaiters (bits (r.dw 1) 15 0)).armTimers := by
  simp [State.waitStart, hp, Nat.not_le.mpr h]

theorem State.copyStart_takes (hover : r.opc = 3 → copyOverlaps r = false) (hroom : s.copies < 8) :
    s.copyStart r = s.setRun { r with run := .copying 0 } := by
  have clear : (r.opc = 3 && copyOverlaps r) = false := by
    by_cases h : r.opc = 3
    · simp [h, hover h]
    · simp [h]
  simp [State.copyStart, clear, Nat.not_le.mpr hroom]

theorem State.copyStart_overlaps (ho : r.opc = 3) (hover : copyOverlaps r = true) : s.copyStart r = s.faultStream r 0x01 0 := by
  simp [State.copyStart, ho, hover]

/-! ### LAUNCH and GLAUNCH at their start (R246, R247, R313, R317, R333) -/

/-- A work item that finds room on its die is queued there by its stream's priority, and its stream's command is that item. -/
theorem State.queueItem_queues (hrows : bits (r.dw 1) 60 48 = 0) (hdie : bits (r.dw 7) 21 17 < 24 ∨ bits (r.dw 7) 21 17 = 0x1F)
    (hroom : s.fld 24 .TRW_WQN (s.itemDie (bits (r.dw 7) 21 17)) 12 0 < 5120) :
    (s.queueItem r).runOf r.s = some { r with run := .item (s.itemDie (bits (r.dw 7) 21 17)) false } ∧
      (s.queueItem r).queued (s.itemDie (bits (r.dw 7) 21 17))
        = s.insertItem r.s (s.queued (s.itemDie (bits (r.dw 7) 21 17))) := by
  unfold State.queueItem
  dsimp only
  rw [if_neg (by omega), if_neg (by omega), if_neg (by omega)]
  generalize s.itemDie (bits (r.dw 7) 21 17) = d
  generalize hput : ({ s with trowel := { s.trowel with
    wq := put (fun _ => []) s.trowel.wq d (s.insertItem r.s (s.queued d)) } } : State) = v
  have listed : v.queued d = s.insertItem r.s (s.queued d) := by subst hput; exact look_put_self ..
  generalize hw : (v.setRun { r with run := .item d false }).wqnSync d = w
  have run : w.runOf r.s = some { r with run := .item d false } := by
    subst hw
    exact (State.runOf_congr (by rw [State.trowel_wqnSync]) _).trans (State.runOf_setRun v { r with run := .item d false })
  have queue : w.queued d = s.insertItem r.s (s.queued d) := by
    subst hw
    exact (State.queued_congr (by rw [State.trowel_wqnSync]) d).trans ((v.queued_setRun _ d).trans listed)
  split
  · exact ⟨(State.runOf_congr (by rw [State.trowel_sendIrq]) _).trans run, (State.queued_congr (by rw [State.trowel_sendIrq]) _).trans queue⟩
  · exact ⟨run, queue⟩

/-- A LAUNCH whose image is read and names a kernel image: a work item for KIND 0. -/
theorem State.launchStart_item {img : List Word} (hkih : bits (r.dw 0) 63 32 < s.fld 24 .TRW_KIT_CNT 0 16 0)
    (himg : s.readImage (bits (r.dw 0) 63 32) = (.ok img, t)) (hkind : imgKind img = 0) : s.launchStart r = t.queueItem r := by
  simp [State.launchStart, Nat.not_le.mpr hkih, himg, hkind]

/-- A member of a window for KIND 1, where the LAUNCH is compatible with its image. -/
theorem State.launchStart_member {img : List Word} (hkih : bits (r.dw 0) 63 32 < s.fld 24 .TRW_KIT_CNT 0 16 0)
    (himg : s.readImage (bits (r.dw 0) 63 32) = (.ok img, t)) (hkind : imgKind img = 1) (hbad : t.launchBad r img = false) :
    s.launchStart r = t.launchOn r img := by
  simp [State.launchStart, Nat.not_le.mpr hkih, himg, hkind, hbad]

theorem State.launchOn_waits {img : List Word} (hpre : (s.trowel.pre.any fun p => p.s == r.s && p.n == s.strF r.s 2 31 0) = true) :
    s.launchOn r img = s := if_pos hpre

theorem State.launchOn_translated {img : List Word} (hpre : (s.trowel.pre.any fun p => p.s == r.s && p.n == s.strF r.s 2 31 0) = false)
    (htag : (s.preTag r.s).isSome = true) : s.launchOn r img = s.coalesce r img := by
  simp only [State.launchOn, hpre, htag, Bool.false_eq_true, if_false, if_true]

theorem State.launchOn_translates {img : List Word} (hpre : (s.trowel.pre.any fun p => p.s == r.s && p.n == s.strF r.s 2 31 0) = false)
    (htag : s.preTag r.s = none)
    (hpages : s.pagesOver (s.strCtx r.s 0 64) (prePages r.cmd (imageRows img).1 (imageRows img).2) = (.ok (), u)) :
    s.launchOn r img = (u.preKeep r.s (s.strF r.s 2 31 0) u.epochCur).coalesce r img := by
  simp only [State.launchOn, hpre, htag, hpages, Option.isSome_none, Bool.false_eq_true, if_false]

theorem State.launchOn_aborted {img : List Word} (hpre : (s.trowel.pre.any fun p => p.s == r.s && p.n == s.strF r.s 2 31 0) = false)
    (htag : s.preTag r.s = none)
    (hpages : s.pagesOver (s.strCtx r.s 0 64) (prePages r.cmd (imageRows img).1 (imageRows img).2) = (.aborted, u)) :
    s.launchOn r img = u.faultStream r 0x03 0 := by
  simp only [State.launchOn, hpre, htag, hpages, Option.isSome_none, Bool.false_eq_true, if_false]

/-- A GLAUNCH whose descriptor passes its checks goes to the end of its gang's queue. -/
theorem State.glaunchStart_queues {ws : List Word} {d : Gmm}
    (hread : s.devWordsLin (s.strCtx r.s 0 64) (bits (r.dw 1) 51 0) 16 = (.ok ws, t))
    (hd : gmmOf ws (t.strW r.s 1) (t.strF r.s 0 57 56) (.stream r.s) = d) (hcheck : d.check (gmmRsv ws) = none)
    (hv : t.gangV (bits (r.dw 0) 33 32) = true) (hgang : t.gmmGangCheck (bits (r.dw 0) 33 32) d = none)
    (hroom : t.gangRoom (bits (r.dw 0) 33 32) = true) :
    s.glaunchStart r = (t.setRun { r with run := .glaunch (bits (r.dw 0) 33 32) true }).gangPut (bits (r.dw 0) 33 32) (.gmm d) := by
  simp [State.glaunchStart, hread, hd, hcheck, hv, hgang, hroom]

/-! ### A COPY or a FILL goes on (R296, R297, R303) -/

variable {off f : Nat}

theorem copyStops_eq_false (h : bits (r.dw 3) 39 0 ≤ off ∨ copyDst r off % 4096 ≠ 0) : copyStops r off = false := by
  simp only [copyStops, decide_eq_false_iff_not]
  omega

/-- After the last block, with nothing it has posted outstanding, it ends. -/
theorem State.copyOn_ends (hend : bits (r.dw 3) 39 0 ≤ off) (hposted : s.postedBy (.stream r.s) = false) :
    s.copyOn r (f + 1) off = s.finish r := by
  simp [State.copyOn, copyStops_eq_false (.inl hend), hend, hposted]

/-- In a stream that is cancelled it ends at a 4 KiB boundary of its destination. -/
theorem State.copyOn_stops (hstate : s.strState r.s = 8) (halign : copyDst r off % 4096 = 0) (hleft : off < bits (r.dw 3) 39 0) :
    s.copyOn r (f + 1) off = s.dropRun r.s := by
  simp [State.copyOn, copyStops, hstate, halign, hleft]

/-- A block is read and written, and the next one follows. -/
theorem State.copyOn_block {k : Nat} {bs : List Byte} (hleft : off < bits (r.dw 3) 39 0)
    (hgo : s.strState r.s ≠ 8 ∨ copyDst r off % 4096 ≠ 0)
    (hk : min (bits (r.dw 3) 39 0 - off) (4096 - (copyDst r 0 + off) % 4096) = k)
    (hdata : (if r.opc = 3 then s.devReadLin (s.strCtx r.s 1 4096) ((bits (r.dw 1) 51 0 + off) % 2 ^ 52) k
      else (.ok (fillBytes (r.dw 2) off k), s)) = (.ok bs, t))
    (hwrite : t.devWriteLin (s.strCtx r.s 1 4096) ((copyDst r 0 + off) % 2 ^ 52) bs false = (.ok (), u)) :
    s.copyOn r (f + 1) off = u.copyOn r f (off + k) := by
  have runs : ¬ (s.strState r.s = 8 ∧ copyStops r off = true) := by
    rintro ⟨hstate, hstops⟩
    rw [copyStops_eq_false (.inr (hgo.resolve_left (not_not_intro hstate)))] at hstops
    cases hstops
  simp only [State.copyOn, runs, if_false, Nat.not_le.mpr hleft, hk, hdata, hwrite]

theorem execCopyFillComplete_copying (hs : s.stopped = false) (hr : s.runOf sid.toNat = some r) (hrun : r.run = .copying off) :
    execCopyFillComplete sid s = done (s.copyOn r (bits (r.dw 3) 39 0 / 4096 + 3) off) := by
  simp [execCopyFillComplete, hs, hr, hrun]

section Begun

variable (hs : s.stopped = false) (hr : s.runOf sid.toNat = some r) (hb : r.run = .begun)
include hs hr hb

/-! ### The commands themselves (R297) -/

theorem execNop_performs (ho : r.opc = 0x00) : execNop sid s = done (s.finish r) := onBegun_performs hs hr hb ho _

theorem execSignal_updates (ho : r.opc = 0x06) (hp : s.anyPoison (synAddr (bits (r.dw 1) 15 0)) 32 = false) :
    execSignal sid s = done ((s.synUpdate (bits (r.dw 1) 15 0) (bit (r.dw 1) 16) (r.dw 2)).finish r) :=
  (onBegun_performs hs hr hb ho _).trans (congrArg done (if_neg (by rw [hp]; decide)))

theorem execSignal_poisoned (ho : r.opc = 0x06) (hp : s.anyPoison (synAddr (bits (r.dw 1) 15 0)) 32 = true) :
    execSignal sid s = done ((s.poisonUsed 24 11 kReq (synAddr (bits (r.dw 1) 15 0)) 6).faultStream r 0x04 0) :=
  (onBegun_performs hs hr hb ho _).trans (congrArg done (if_pos hp))

theorem execWait_starts (ho : r.opc = 0x05) : execWait sid s = done (s.waitStart r) := onBegun_performs hs hr hb ho _

theorem execTimed_waits (ho : r.opc = 0x07) :
    execTimed sid s = done (((s.setRun { r with run := .timed (r.dw 1).toNat }).setStrState r.s 4).armTimers) :=
  onBegun_performs hs hr hb ho _

/-- With room in staging, a MARK's entry holds its six doublewords. -/
theorem execMark_stages (ho : r.opc = 0x08) (hroom : s.stagingRoom ≠ 0)
    (hu : s.stage (bits (r.dw 1) 15 0) 0 r.s (s.strSeq r.s) (bytesOf [r.dw 2, r.dw 3, r.dw 4, r.dw 5, r.dw 6, r.dw 7]) = u) :
    execMark sid s = done (State.finish ({ u with trowel := { u.trowel with
      lastMark := put (fun _ => 0) u.trowel.lastMark r.s (u.fld 24 .TWN_STN_HEAD 0 63 0) } }) r) := by
  subst hu
  exact (onBegun_performs hs hr hb ho _).trans (congrArg done (if_neg hroom))

theorem execFence_met (ho : r.opc = 0x0A) (hmet : s.fenceMet r.s = true) : execFence sid s = done (s.finish r) :=
  (onBegun_performs hs hr hb ho _).trans (congrArg done (if_pos hmet))

theorem execCopy_starts (ho : r.opc = 0x03) : execCopy sid s = done (s.copyStart r) := onBegun_performs hs hr hb ho _

theorem execFill_starts (ho : r.opc = 0x04) : execFill sid s = done (s.copyStart r) := onBegun_performs hs hr hb ho _

theorem execLaunch_starts (ho : r.opc = 0x01) : execLaunch sid s = done (s.launchStart r) := onBegun_performs hs hr hb ho _

theorem execGlaunch_starts (ho : r.opc = 0x02) : execGlaunch sid s = done (s.glaunchStart r) := onBegun_performs hs hr hb ho _

end Begun

end Started

/-- Settles O36: each started command is the effect its kind has at the start (`onBegun_performs` and the lemmas on each start), and a COPY or a
FILL goes on by its blocks (`State.copyOn_block`) to its end (`State.copyOn_ends`) or to where a cancel stops it (`State.copyOn_stops`). -/
theorem startedCommands : Obligations.StartedCommands := by
  unfold Obligations.StartedCommands
  refine ⟨?_, ?_⟩
  · intro s sid r hs hr hb out i
    refine ⟨execNop_performs hs hr hb, fun ho => ⟨execSignal_updates hs hr hb ho, execSignal_poisoned hs hr hb ho⟩,
      fun ho hp => ⟨fun h => ?_, fun h => ?_⟩, execTimed_waits hs hr hb, fun ho hroom => execMark_stages hs hr hb ho hroom rfl,
      execFence_met hs hr hb, fun ho hover hroom => ?_, fun ho hover => ?_, fun ho hroom => ?_, fun ho hkih t img himg => ?_,
      fun ho t ws hread hcheck hv hgang hroom => ?_⟩
    · exact (execWait_starts hs hr hb ho).trans (congrArg done (State.waitStart_satisfied hp h))
    · exact (execWait_starts hs hr hb ho).trans (congrArg done (State.waitStart_waits hp h))
    · exact (execCopy_starts hs hr hb ho).trans (congrArg done (State.copyStart_takes (fun _ => hover) hroom))
    · exact (execCopy_starts hs hr hb ho).trans (congrArg done (State.copyStart_overlaps ho hover))
    · exact (execFill_starts hs hr hb ho).trans
        (congrArg done (State.copyStart_takes (fun h => absurd (h.symm.trans ho) (by decide)) hroom))
    · have launches {v : State} (h : s.launchStart r = v) : execLaunch sid s = done v :=
        (execLaunch_starts hs hr hb ho).trans (congrArg done h)
      refine ⟨fun hkind hrows hdie hroom => ?_, fun hkind hbad => ⟨fun hpre => ?_, fun hpre => ⟨fun htag => ?_,
        fun htag u => ⟨fun hpages => ?_, fun hpages => ?_⟩⟩⟩⟩
      · obtain ⟨hrun, hqueue⟩ := State.queueItem_queues hrows hdie hroom
        refine ⟨_, launches (State.launchStart_item hkih himg hkind), ?_, ?_⟩
        · exact (State.runOf_congr (congrArg Trowel.runs (State.trowel_settle _)) _).trans hrun
        · exact (State.queued_congr (congrArg Trowel.wq (State.trowel_settle _)) _).trans hqueue
      · exact launches ((State.launchStart_member hkih himg hkind hbad).trans (State.launchOn_waits hpre))
      · exact launches ((State.launchStart_member hkih himg hkind hbad).trans (State.launchOn_translated hpre htag))
      · exact launches ((State.launchStart_member hkih himg hkind hbad).trans (State.launchOn_translates hpre htag hpages))
      · exact launches ((State.launchStart_member hkih himg hkind hbad).trans (State.launchOn_aborted hpre htag hpages))
    · exact (execGlaunch_starts hs hr hb ho).trans (congrArg done (State.glaunchStart_queues hread rfl hcheck hv hgang hroom))
  · intro s t u sid r off bs hs hr hrun hopc n dst k
    have goes {v : State} (h : s.copyOn r (n / 4096 + 3) off = v) : execCopyFillComplete sid s = done v :=
      (execCopyFillComplete_copying hs hr hrun).trans (congrArg done h)
    refine ⟨fun hend hposted => goes (State.copyOn_ends hend hposted), fun hstate halign hleft => goes (State.copyOn_stops hstate halign hleft),
      fun hleft hgo hdata hwrite => ?_⟩
    have block (f : Nat) : s.copyOn r (f + 1) off = u.copyOn r f (off + k) := State.copyOn_block hleft hgo rfl hdata hwrite
    exact ⟨fun hend hposted => goes ((block _).trans (State.copyOn_ends hend hposted)), goes (block _)⟩

end Sys2Proof.Machine

/-! SUPPORT. Retirement: HEAD as it advances, GEN and the stream's state (R293, R297, R299, R380). -/

namespace Sys2Proof.Machine

open Sys2Proof

/-! ### Retirement (R293, R297, R299) -/

theorem State.keeps_dropRun (s : State) (st : Nat) : s.Keeps (s.dropRun st) := by
  unfold State.dropRun
  exact (s.keeps_trowel _).trans (State.keeps_trwSync _)

theorem State.keeps_dropDone (s : State) (st : Nat) (n : Option Nat) : s.Keeps (s.dropDone st n) := by
  unfold State.dropDone
  exact s.keeps_trowel _

theorem State.enabled_dropRun (s : State) (st : Nat) : (s.dropRun st).trowel.enabled = s.trowel.enabled := by
  rw [State.dropRun, State.trowel_trwSync]

theorem State.runOf_dropRun (s : State) (st : Nat) : (s.dropRun st).runOf st = none := by
  simp [State.runOf, State.dropRun, State.trowel_trwSync]

theorem State.strState_of_enabled {s : State} {st : Nat} (h : s.trowel.enabled.contains st = true) : s.strState st = s.strF st 3 35 32 :=
  if_pos h

/-- HEAD counts the command at HEAD, which is no longer started; the stream's state follows from what is left in its ring. -/
theorem State.advance_spec {s : State} {st : Nat} (henabled : s.trowel.enabled.contains st = true) (hstate : s.strState st ≠ 8) :
    (s.advance st).runOf st = none ∧ (s.advance st).strF st 2 31 0 = (s.strF st 2 31 0 + 1) % 2 ^ 32 ∧
      (s.advance st).strF st 2 63 32 = s.strF st 2 63 32 ∧ (s.advance st).strW st 5 = s.strW st 5 ∧
      (s.advance st).strState st = (if (s.advance st).strUsed st = 0 then 1 else 2) ∧
      ∀ a, (a < strAddr st ∨ strAddr st + 64 ≤ a) → (s.advance st).byte a = s.byte a := by
  generalize hu : (s.dropRun st).dropDone st (some (s.strF st 2 31 0)) = u
  generalize hv : u.setStrF st 2 31 0 (u.strF st 2 31 0 + 1) = v
  generalize hw : v.setStrState st (if v.strUsed st = 0 then 1 else 2) = w
  have byte : ∀ a, u.byte a = s.byte a := by
    subst hu
    exact ((s.keeps_dropRun st).trans (State.keeps_dropDone ..)).byte
  have entry (j : Nat) : u.strW st j = s.strW st j := State.mem64_congr fun a _ _ => byte a
  have same : v.trowel = u.trowel := by rw [← hv, State.trowel_setStrF]
  have runs : u.runOf st = none := by
    rw [← hu]
    exact (State.runOf_congr (by unfold State.dropDone; rfl) st).trans (s.runOf_dropRun st)
  have enabled : v.trowel.enabled = s.trowel.enabled := by
    rw [same, ← hu, ← s.enabled_dropRun st]
    unfold State.dropDone
    rfl
  have head : v.strW st 2 = setBits (s.strW st 2) 31 0 (s.strF st 2 31 0 + 1) := by
    rw [← hv, State.strW_setStrF_self, State.strF, entry, State.strF]
  have state : v.strState st ≠ 8 := by
    rw [State.strState, enabled, if_pos henabled, State.strF, ← hv, State.strW_setStrF_ne _ _ _ _ _ (by decide), entry]
    rwa [State.strState_of_enabled henabled] at hstate
  have advanced : s.advance st = w := by
    subst hw
    simp only [State.advance, hu, hv]
    exact if_neg state
  have trowel : w.trowel = v.trowel := by rw [← hw, State.setStrState, State.trowel_setStrF]
  have kept (j : Nat) (h : j ≠ 3) : w.strW st j = v.strW st j := by
    rw [← hw, State.setStrState, State.strW_setStrF_ne _ _ _ _ _ h]
  have used : w.strUsed st = v.strUsed st := by simp only [State.strUsed, State.strF, kept 2 (by decide)]
  rw [advanced]
  refine ⟨?_, ?_, ?_, ?_, ?_, fun a ha => ?_⟩
  · exact (State.runOf_congr (by rw [trowel, same]) st).trans runs
  · rw [State.strF, kept 2 (by decide), head, bits_setBits_same _ _ (by decide) (by decide)]
  · rw [State.strF, kept 2 (by decide), head, bits_setBits_above _ _ (by decide) (by decide) (by decide)]
    rfl
  · rw [kept 5 (by decide), ← hv, State.strW_setStrF_ne _ _ _ _ _ (by decide), entry]
  · have shown : w.trowel.enabled.contains st = true := by rw [trowel, enabled, henabled]
    rw [State.strState_of_enabled shown, used, State.strF, ← hw, State.setStrState, State.strW_setStrF_self,
      bits_setBits_same _ _ (by decide) (by decide)]
    split
    · rfl
    · rfl
  · rw [← hw, State.setStrState, State.byte_setStrF_out _ _ _ _ _ (by decide) ha, ← hv, State.byte_setStrF_out _ _ _ _ _ (by decide) ha, byte]

/-- GEN as the retirement of a command leaves it, counted by a LAUNCH or a GLAUNCH (R299). -/
def State.genCounted (s : State) (st : Nat) (gen : Bool) : State := if gen then s.setStrF st 5 31 0 (s.strF st 5 31 0 + 1) else s

theorem State.genCounted_spec (s : State) (st : Nat) (gen : Bool) :
    (s.genCounted st gen).trowel = s.trowel ∧ (∀ j, j ≠ 5 → (s.genCounted st gen).strW st j = s.strW st j) ∧
      (s.genCounted st gen).strF st 5 31 0 = (if gen then (s.strF st 5 31 0 + 1) % 2 ^ 32 else s.strF st 5 31 0) ∧
      ∀ a, (a < strAddr st ∨ strAddr st + 64 ≤ a) → (s.genCounted st gen).byte a = s.byte a := by
  cases gen with
  | false => exact ⟨rfl, fun _ _ => rfl, rfl, fun _ _ => rfl⟩
  | true =>
    refine ⟨rfl, fun j hj => State.strW_setStrF_ne _ _ _ _ _ hj, ?_, fun a ha => State.byte_setStrF_out _ _ _ _ _ (by decide) ha⟩
    have counted := bits_setBits_same (s.strW st 5) (s.strF st 5 31 0 + 1) (hi := 31) (lo := 0) (by decide) (by decide)
    exact (congrArg (bits · 31 0) (s.strW_setStrF_self ..)).trans counted

/-- A command whose packet, if it needs one, finds room retires now: the packet changes nothing in the stream table. -/
theorem State.retireBase_advances {s : State} {r : StreamRun} (gen : Bool) (h : s.evtRoom = true ∨ (r.ntf = false ∧
    s.strCredit r.s + 1 - look (fun _ => 0) s.trowel.credit r.s < max 1 (s.fld 24 .STM_CFG 0 47 32))) :
    ((s.genCounted r.s gen).advance r.s).KeepsStreams (s.retireBase r gen) := by
  unfold State.retireBase
  extract_lets st last grown waiting seq counted u
  have room : ((r.ntf || grown) && !s.evtRoom) = false := by
    rcases h with h | ⟨hntf, hgrown⟩
    · simp [h]
    · simp [hntf, show grown = false from decide_eq_false (Nat.not_le.mpr hgrown)]
  rw [if_neg (by rw [room]; decide)]
  show u.KeepsStreams _
  split
  · exact (u.keepsStreams_sendScpl ..).trans (State.keepsStreams_noteCredit ..)
  · split
    · exact u.keepsStreams_sendCreditOnly st
    · exact .refl u

/-- Settles O37: a command that needs no packet or finds room for it retires by `State.advance_spec`, GEN counted first. -/
theorem retirementAdvances : Obligations.RetirementAdvances := by
  unfold Obligations.RetirementAdvances
  intro s r henabled hstate hroom gen
  have kept := State.retireBase_advances gen hroom
  obtain ⟨htrowel, hentry, hgen, hout⟩ := s.genCounted_spec r.s gen
  have state : (s.genCounted r.s gen).strState r.s ≠ 8 := by
    rw [State.strState, htrowel, State.strF, hentry 3 (by decide)]
    exact hstate
  obtain ⟨hrun, hhead, htail, hword, hnow, hbyte⟩ := State.advance_spec (htrowel ▸ henabled) state
  have ring (hi lo : Nat) : (s.genCounted r.s gen).strF r.s 2 hi lo = s.strF r.s 2 hi lo := congrArg (bits · hi lo) (hentry 2 (by decide))
  refine ⟨(kept.runOf _).trans hrun, ?_, ?_, ?_, ?_, fun a ha => (kept.byte a).trans ((hbyte a ha).trans (hout a ha))⟩
  · rw [kept.strF, hhead, ring]
  · rw [kept.strF, htail, ring]
  · rw [kept.strF, ← hgen]
    exact congrArg (bits · 31 0) hword
  · rw [kept.strState, kept.strUsed, hnow]

end Sys2Proof.Machine

/-! SUPPORT. Sync objects: what an update changes where nothing waits for the object (R304–R307, R337). -/

namespace Sys2Proof.Machine

open Sys2Proof

/-! ### The crossing (R306) -/

/-- What the crossing of a threshold sends: an interrupt, and an event packet where the object asks for one (R306). -/
def State.crossed (s : State) (i : Nat) (ctl new : Word) : State :=
  let s := s.sendIrq (bits ctl 15 0) 24
  if bit ctl 16 then s.sendSevt 4 0 0 i 0 0 0 new.toNat else s

theorem State.snap_sendIrq (s : State) (route die : Nat) : (s.sendIrq route die).snap = s.snap := by
  unfold State.sendIrq
  dsimp only
  split
  · rfl
  · rfl

theorem State.snap_send (s : State) (l : LinkId) (p : Pkt) : (s.send l p).snap = s.snap := by
  unfold State.send State.updLink State.setLink
  split
  · rfl
  · rfl

/-- An event packet is sent or, with no room for it, dropped. -/
theorem State.sendSevt_cases (s : State) (kind code xcode b seq expseq credit value : Nat) :
    s.sendSevt kind code xcode b seq expseq credit value = s ∨ ∃ p, s.sendSevt kind code xcode b seq expseq credit value = s.send .agd p := by
  unfold State.sendSevt
  split
  · exact .inl rfl
  · exact .inr ⟨_, rfl⟩

/-- The crossing changes no byte of memory, nothing of the Trowel, and not the snapshot. -/
theorem State.crossed_spec (s : State) (i : Nat) (ctl new : Word) :
    (∀ a, (s.crossed i ctl new).byte a = s.byte a) ∧ (s.crossed i ctl new).trowel = s.trowel ∧ (s.crossed i ctl new).snap = s.snap := by
  have irq := (s.keeps_sendIrq (bits ctl 15 0) 24).byte
  have trowel := s.trowel_sendIrq (bits ctl 15 0) 24
  have snap := s.snap_sendIrq (bits ctl 15 0) 24
  unfold State.crossed
  dsimp only
  generalize s.sendIrq (bits ctl 15 0) 24 = u at *
  split
  · obtain h | ⟨p, h⟩ := u.sendSevt_cases 4 0 0 i 0 0 0 new.toNat
    · rw [h]
      exact ⟨irq, trowel, snap⟩
    · rw [h]
      exact ⟨fun a => ((u.keeps_send .agd p).byte a).trans (irq a), (u.trowel_send .agd p).trans trowel, (u.snap_send .agd p).trans snap⟩
  · exact ⟨irq, trowel, snap⟩

/-! ### An update (R305, R307, R408) -/

theorem State.releaseWaiters_none {s : State} (i : Nat) (h : ∀ r ∈ s.trowel.runs, ∀ d, r.run ≠ .waiting d) : s.releaseWaiters i = s := by
  unfold State.releaseWaiters
  extract_lets v ready
  have none : ready = [] := by
    refine List.filter_eq_nil_iff.mpr fun r hr => ?_
    split
    next d hd => exact absurd hd (h r hr d)
    next => exact Bool.false_ne_true
  rw [if_pos (by rw [none]; rfl)]

theorem State.testGate_none {s : State} (i : Nat) (h : s.snap = none) : s.testGate i = s := by
  rw [State.testGate, h]

/-- With nothing waiting and no snapshot, an update writes VALUE and changes no other byte. -/
theorem State.synUpdate_spec {s : State} {i : Nat} (set : Bool) (v : Word) (hp : s.anyPoison (synAddr i) 32 = false)
    (hw : ∀ r ∈ s.trowel.runs, ∀ d, r.run ≠ .waiting d) (hsnap : s.snap = none) :
    (s.synUpdate i set v).synValue i = (if set then v else s.synValue i + v) ∧
      ∀ a, (a < synAddr i ∨ synAddr i + 8 ≤ a) → (s.synUpdate i set v).byte a = s.byte a := by
  generalize hnew : (if set then v else s.synValue i + v) = new
  generalize hu : s.setMem64 (synAddr i) new = u
  have written : u.synValue i = new := hu ▸ s.mem64_setMem64_self ..
  have outside : ∀ a, (a < synAddr i ∨ synAddr i + 8 ≤ a) → u.byte a = s.byte a := fun a ha => hu ▸ s.byte_setMem64_out new ha
  have trowel : u.trowel = s.trowel := hu ▸ rfl
  have snap : u.snap = s.snap := hu ▸ rfl
  generalize hc : (if (s.synValue i).toNat < (s.mem64 (synAddr i + 8)).toNat ∧ (s.mem64 (synAddr i + 8)).toNat ≤ new.toNat then
    u.crossed i (s.mem64 (synAddr i + 16)) new else u) = c
  have crossed : (∀ a, c.byte a = u.byte a) ∧ c.trowel = u.trowel ∧ c.snap = u.snap := by
    subst hc
    split
    · exact u.crossed_spec i _ new
    · exact ⟨fun _ => rfl, rfl, rfl⟩
  obtain ⟨hbyte, htrowel, hgate⟩ := crossed
  have quiet : s.synUpdate i set v = (c.releaseWaiters i).testGate i := by
    unfold State.synUpdate
    rw [if_neg (by rw [hp]; decide)]
    dsimp only
    rw [hnew, hu]
    exact congrArg (fun x : State => (x.releaseWaiters i).testGate i) hc
  rw [quiet, State.releaseWaiters_none i (by rwa [htrowel, trowel]), State.testGate_none i (by rw [hgate, snap, hsnap])]
  exact ⟨(State.mem64_congr fun a _ _ => hbyte a).trans written, fun a ha => (hbyte a).trans (outside a ha)⟩

/-- Settles O38: SYN_OP updates its object, and the update writes VALUE alone (`State.synUpdate_spec`). -/
theorem syncUpdates : Obligations.SyncUpdates := by
  unfold Obligations.SyncUpdates
  intro b s q v hb i
  have takes (h : i < s.fld 24 .SYN_CFG 0 16 0) : execSynOp q v b = done (s.synUpdate i (bit v 16) (BitVec.ofNat 64 (bits v 63 32))) :=
    (regCmd_arrives _ hb).trans (congrArg done (if_neg (Nat.not_le.mpr h)))
  refine ⟨fun h => (regCmd_arrives _ hb).trans (congrArg done (if_pos h)), takes, fun h hp hw hsnap => ?_⟩
  obtain ⟨hvalue, hout⟩ := State.synUpdate_spec (bit v 16) (BitVec.ofNat 64 (bits v 63 32)) hp hw hsnap
  have settled := (State.keeps_settle (s.synUpdate i (bit v 16) (BitVec.ofNat 64 (bits v 63 32)))).byte
  exact ⟨_, takes h, (State.mem64_congr fun a _ _ => settled a).trans hvalue, fun a ha => (settled a).trans (hout a ha)⟩

end Sys2Proof.Machine

/-! SUPPORT. Timed triggers: firing, rearming and writes of their registers, and the expired entries of their lists (R308–R312). -/

namespace Sys2Proof.Machine

open Sys2Proof

/-! ### The triggers' registers (R26, R337) -/

/-- Registers of two blocks of a die lie at different offsets of control space. -/
theorem regKey_ne_of_blk {d i w i' w' : Nat} {r r' : RegName} (hblk : (regInfo r).blk ≠ (regInfo r').blk)
    (ho : (regInfo r).off + (regInfo r).stride * i + 8 * w < 0x10000) (ho' : (regInfo r').off + (regInfo r').stride * i' + 8 * w' < 0x10000) :
    regKey d r i w ≠ regKey d r' i' w' := by
  simp only [regKey]
  generalize (regInfo r).stride * i = x at *
  generalize (regInfo r').stride * i' = x' at *
  omega

/-- Recomputing ERR_HEALTH changes no register of another block than its own and the MC's (R470, R498). -/
theorem State.reg_settle (s : State) {r : RegName} {i : Nat} (herr : (regInfo r).blk ≠ 0x04) (hmc : (regInfo r).blk ≠ 0x06)
    (ho : (regInfo r).off + (regInfo r).stride * i < 0x10000) : s.settle.reg 24 r i = s.reg 24 r i := by
  have health (t : State) (v : Word) : (t.setRegW 24 .ERR_HEALTH 0 0 v).regW 24 r i 0 = t.regW 24 r i 0 :=
    t.regW_setRegW_ne v (regKey_ne_of_blk herr (by omega) (by decide))
  have entry (t : State) (kind sev die p0 p1 p2 : Nat) : (t.mcLog kind sev die p0 p1 p2).regW 24 r i 0 = t.regW 24 r i 0 := by
    unfold State.mcLog
    dsimp only
    split
    · exact State.regW_setRegW_ne _ _ (regKey_ne_of_blk (r' := .MC_STAT) (i' := 0) (w' := 0) hmc (by omega) (by decide))
    · rfl
  have replace : s.setReplace.regW 24 r i 0 = s.regW 24 r i 0 := by
    unfold State.setReplace
    split
    · rfl
    · exact (entry ..).trans (health ..)
  unfold State.settle
  dsimp only
  split
  · exact (health ..).trans replace
  · exact health ..

/-- TT_CTL of a trigger beside its TT_CMP. -/
theorem State.ctl_setCmp (s : State) (k : Nat) (v : Word) : (s.setReg 24 .TT_CMP k v).reg 24 .TT_CTL k = s.reg 24 .TT_CTL k :=
  s.regW_setRegW_ne v (by simp [regKey, regInfo])

theorem State.cmp_setCtl (s : State) (k hi lo v : Nat) : (s.setFld 24 .TT_CTL k hi lo v).reg 24 .TT_CMP k = s.reg 24 .TT_CMP k :=
  s.regW_setRegW_ne _ (by simp [regKey, regInfo])

/-! ### Firing (R309) -/

section Fire

variable {s : State} {k : Nat} (hirq : bit (s.reg 24 .TT_CTL k) 2 = false) (hsyn : bit (s.reg 24 .TT_CTL k) 3 = false)
include hirq hsyn

/-- A trigger without an action and with PER 0 fires once. -/
theorem State.fireTrigger_once (hper : s.fld 24 .TT_PER k 63 0 = 0) :
    s.fireTrigger k = (s.setFld 24 .TT_CTL k 1 1 1).setFld 24 .TT_CTL k 0 0 0 := by
  simp only [State.fireTrigger, hirq, hsyn, hper, Bool.false_and, Bool.false_eq_true, if_false, if_true]

/-- One with a period moves CMP on by the periods that have passed, and counts those missed. -/
theorem State.fireTrigger_again {n : Nat} (hper : s.fld 24 .TT_PER k 63 0 ≠ 0)
    (hn : periodSteps (s.fld 24 .TT_CMP k 63 0) (s.fld 24 .TT_PER k 63 0) s.time = n) :
    s.fireTrigger k = ((s.setFld 24 .TT_CTL k 1 1 1).setReg 24 .TT_CMP k
      (s.reg 24 .TT_CMP k + BitVec.ofNat 64 (n * s.fld 24 .TT_PER k 63 0))).satFld 24 .TT_CTL k 55 48 (n - 1) := by
  have cmp := s.cmp_setCtl k 1 1 1
  simp only [State.fireTrigger, hirq, hsyn, hper, Bool.false_and, Bool.false_eq_true, if_false]
  rw [show (s.setFld 24 .TT_CTL k 1 1 1).time = s.time from rfl, State.fld, cmp, ← State.fld, hn]

/-- TT_CTL after the firing of a trigger with a period: STAT set and MISSED counted up to 255. -/
theorem State.ctl_fireTrigger_again {n : Nat} (hper : s.fld 24 .TT_PER k 63 0 ≠ 0)
    (hn : periodSteps (s.fld 24 .TT_CMP k 63 0) (s.fld 24 .TT_PER k 63 0) s.time = n) :
    (s.fireTrigger k).reg 24 .TT_CTL k = setBits (setBits (s.reg 24 .TT_CTL k) 1 1 1) 55 48 (min 255 (s.fld 24 .TT_CTL k 55 48 + (n - 1))) := by
  rw [State.fireTrigger_again hirq hsyn hper hn, State.satFld, State.reg_setFld_self, State.ctl_setCmp, State.reg_setFld_self, State.fld,
    State.ctl_setCmp, State.reg_setFld_self, bits_setBits_above _ _ (by decide) (by decide) (by decide)]
  rfl

/-- Whatever its period, STAT is set. -/
theorem State.stat_fireTrigger : (s.fireTrigger k).flag 24 .TT_CTL k 1 = true := by
  by_cases hper : s.fld 24 .TT_PER k 63 0 = 0
  · rw [State.fireTrigger_once hirq hsyn hper, State.flag_setFld_bit _ _ _ _ _ _ (by decide), if_neg (by decide),
      State.flag_setFld_bit _ _ _ _ _ _ (by decide), if_pos rfl]
    decide
  · rw [State.flag, State.ctl_fireTrigger_again hirq hsyn hper rfl, bit_setBits _ _ (by decide) (by decide), if_neg (by decide),
      bit_setBits _ _ (by decide) (by decide), if_pos (by decide)]
    decide

/-- With PER 0 the trigger is disarmed and CMP stays. -/
theorem State.fireTrigger_disarms (hper : s.fld 24 .TT_PER k 63 0 = 0) :
    (s.fireTrigger k).flag 24 .TT_CTL k 0 = false ∧ (s.fireTrigger k).reg 24 .TT_CMP k = s.reg 24 .TT_CMP k := by
  rw [State.fireTrigger_once hirq hsyn hper]
  refine ⟨?_, (State.cmp_setCtl ..).trans (State.cmp_setCtl ..)⟩
  rw [State.flag_setFld_bit _ _ _ _ _ _ (by decide), if_pos rfl]
  decide

/-- With a period it stays armed, CMP passes the present, and MISSED grows by the periods missed. -/
theorem State.fireTrigger_rearms (hper : s.fld 24 .TT_PER k 63 0 ≠ 0) (hdue : s.fld 24 .TT_CMP k 63 0 ≤ s.time) :
    (s.fireTrigger k).flag 24 .TT_CTL k 0 = s.flag 24 .TT_CTL k 0 ∧
      (s.fireTrigger k).reg 24 .TT_CMP k = s.reg 24 .TT_CMP k
        + BitVec.ofNat 64 (((s.time - s.fld 24 .TT_CMP k 63 0) / s.fld 24 .TT_PER k 63 0 + 1) * s.fld 24 .TT_PER k 63 0) ∧
      (s.fireTrigger k).fld 24 .TT_CTL k 55 48
        = min 255 (s.fld 24 .TT_CTL k 55 48 + (s.time - s.fld 24 .TT_CMP k 63 0) / s.fld 24 .TT_PER k 63 0) := by
  have steps : periodSteps (s.fld 24 .TT_CMP k 63 0) (s.fld 24 .TT_PER k 63 0) s.time
      = (s.time - s.fld 24 .TT_CMP k 63 0) / s.fld 24 .TT_PER k 63 0 + 1 := if_neg (Nat.not_lt.mpr hdue)
  have ctl := State.ctl_fireTrigger_again hirq hsyn hper steps
  refine ⟨?_, ?_, ?_⟩
  · rw [State.flag, ctl, bit_setBits _ _ (by decide) (by decide), if_neg (by decide), bit_setBits _ _ (by decide) (by decide),
      if_neg (by decide), State.flag]
  · rw [State.fireTrigger_again hirq hsyn hper steps, State.satFld, State.cmp_setCtl]
    exact State.regW_setRegW_self ..
  · rw [State.fld, ctl, bits_setBits_same _ _ (by decide) (by decide), Nat.add_sub_cancel]
    exact Nat.mod_eq_of_lt (by omega)

end Fire

/-! ### The due trigger of the lowest number (R308, R311, R312) -/

/-- What a trigger of the device's own does once it has fired (R311, R312, R399, R408, R450). -/
def State.ownWork (u : State) (n : Nat) : State :=
  match n with
  | 240 | 241 | 245 => { u with trowel := { u.trowel with draining := u.trowel.draining ++ [n] } }
  | 242 => u.heartbeat
  | 243 => u.snapFire
  | 244 => if u.supply.warn then u.warnOff else u
  | _ => u

theorem State.ownWork_software (u : State) {n : Nat} (h : n < 240 ∨ 245 < n) : u.ownWork n = u := by
  unfold State.ownWork
  split
  next => omega
  next => omega
  next => omega
  next => omega
  next => omega
  next => omega
  next => rfl

theorem State.ownWork_heartbeat (u : State) : u.ownWork 242 = u.heartbeat := rfl
theorem State.ownWork_snapFire (u : State) : u.ownWork 243 = u.snapFire := rfl
theorem State.ownWork_supply (u : State) : u.ownWork 244 = if u.supply.warn then u.warnOff else u := rfl
theorem State.ownWork_drains (u : State) {n : Nat} (h : n = 240 ∨ n = 241 ∨ n = 245) :
    u.ownWork n = { u with trowel := { u.trowel with draining := u.trowel.draining ++ [n] } } := by
  rcases h with rfl | rfl | rfl <;> rfl

theorem execTriggerFire_due {s : State} {n : TrigId} (hs : s.stopped = false) (hdue : s.triggerDue n.toNat = true)
    (hlow : ∀ i < n.toNat, s.triggerDue i = false) : execTriggerFire n s = done ((s.fireTrigger n.toNat).ownWork n.toNat) := by
  have first : ((List.range n.toNat).any fun i => s.triggerDue i) = false :=
    List.any_eq_false.mpr fun i hi => by rw [hlow i (List.mem_range.mp hi)]; exact Bool.false_ne_true
  unfold execTriggerFire
  rw [if_neg (by simp [hs, hdue, first])]
  dsimp only
  generalize s.fireTrigger n.toNat = u
  generalize n.toNat = k
  split
  next => rfl
  next => rfl
  next => rfl
  next => rfl
  next => rfl
  next => rfl
  next h240 h241 h245 h242 h243 h244 =>
    simp only [imp_false] at h240 h241 h242 h243 h244 h245
    exact congrArg done (u.ownWork_software (by omega)).symm

/-! ### Writes (R310, R311, R337) -/

/-- The bits of a software trigger's TT_CTL that take a write: EN, the actions, ROUTE and SYNC (R337). -/
def ctlMask : Word := maskBits 0 0 ||| maskBits 3 2 ||| maskBits 47 16

theorem bit_ctlMask : bit ctlMask 0 = true ∧ bit ctlMask 1 = false ∧ ∀ i < 32, bit ctlMask (16 + i) = true := by decide

theorem bit_statMask {i : Nat} (h : i < 64) : bit (maskBits 1 1) i = decide (i = 1) := by
  revert i
  decide

theorem State.ctl_wrTtCtl (s : State) (n : Nat) (v : Word) : (s.wrTtCtl n v (BitVec.allOnes 64)).reg 24 .TT_CTL n =
    ((s.reg 24 .TT_CTL n &&& ~~~(if n < 240 then ctlMask else 0)) ||| (v &&& (if n < 240 then ctlMask else 0))) &&& ~~~(v &&& maskBits 1 1) := by
  refine (State.regW_setRegW_self ..).trans ?_
  simp only [BitVec.and_allOnes, ctlMask]

/-- A bit of TT_CTL after a write of every bit: the writable ones take the value, and STAT clears where 1 is written. -/
theorem State.bit_wrTtCtl (s : State) (n : Nat) (v : Word) {i : Nat} (hi : i < 64) :
    bit ((s.wrTtCtl n v (BitVec.allOnes 64)).reg 24 .TT_CTL n) i
      = ((if n < 240 ∧ bit ctlMask i = true then bit v i else bit (s.reg 24 .TT_CTL n) i) && !(bit v i && decide (i = 1))) := by
  rw [State.ctl_wrTtCtl, ← bit_statMask hi]
  simp only [bit, BitVec.getLsbD_and, BitVec.getLsbD_or, BitVec.getLsbD_not, hi, decide_true, Bool.true_and]
  by_cases hn : n < 240
  · simp only [hn, if_true, true_and]
    cases ctlMask.getLsbD i
    · simp
    · simp
  · simp only [hn, if_false, false_and, BitVec.ofNat_eq_ofNat, BitVec.getLsbD_zero]
    simp

theorem State.stat_wrTtCtl (s : State) (n : Nat) (v : Word) :
    (s.wrTtCtl n v (BitVec.allOnes 64)).flag 24 .TT_CTL n 1 = (s.flag 24 .TT_CTL n 1 && !bit v 1) := by
  rw [State.flag, State.bit_wrTtCtl _ _ _ (by decide), if_neg (by simp [bit_ctlMask])]
  simp [State.flag]

theorem State.enable_wrTtCtl (s : State) {n : Nat} (v : Word) (h : n < 240) :
    (s.wrTtCtl n v (BitVec.allOnes 64)).flag 24 .TT_CTL n 0 = bit v 0 := by
  rw [State.flag, State.bit_wrTtCtl _ _ _ (by decide), if_pos ⟨h, bit_ctlMask.1⟩]
  simp

theorem State.fields_wrTtCtl (s : State) {n : Nat} (v : Word) (h : n < 240) :
    (s.wrTtCtl n v (BitVec.allOnes 64)).fld 24 .TT_CTL n 47 16 = bits v 47 16 := by
  refine Nat.eq_of_testBit_eq fun i => ?_
  rw [State.fld, testBit_bits, testBit_bits]
  by_cases hi : i < 47 + 1 - 16
  · rw [State.bit_wrTtCtl _ _ _ (by omega), if_pos ⟨h, bit_ctlMask.2.2 i hi⟩,
      decide_eq_false (show ¬ 16 + i = 1 by omega), Bool.and_false, Bool.not_false, Bool.and_true]
  · rw [decide_eq_false hi, Bool.false_and, Bool.false_and]

/-- A write to a trigger of the device's own clears STAT alone. -/
theorem State.ctl_wrTtCtl_own (s : State) {n : Nat} (v : Word) (h : 240 ≤ n) :
    (s.wrTtCtl n v (BitVec.allOnes 64)).reg 24 .TT_CTL n = s.reg 24 .TT_CTL n &&& ~~~(v &&& 2) := by
  rw [State.ctl_wrTtCtl, if_neg (Nat.not_lt.mpr h), show maskBits 1 1 = 2 by decide]
  simp only [BitVec.ofNat_eq_ofNat, BitVec.not_zero, BitVec.and_allOnes, BitVec.and_zero, BitVec.or_zero]

/-! ### Expired entries (R312) -/

theorem onExpiry_handles {n x : Nat} {l : State → List (Nat × Nat)} {s u : State} {f : State → Nat → State} (hs : s.stopped = false)
    (hdrain : s.trowel.draining.contains n = true) (hfirst : s.firstExpired (l s) = some x) (hf : f s x = u) :
    onExpiry n l s f = done (u.afterExpiry n l) := by
  subst hf
  unfold onExpiry
  rw [if_neg (by rw [hs, hdrain]; decide), hfirst]

section Expiry

variable {s : State} {n : Nat} {r : StreamRun} (hs : s.stopped = false)
include hs

theorem execTimedExpiry_retires (hdrain : s.trowel.draining.contains 241 = true) (hfirst : s.firstExpired s.timedList = some n)
    (hr : s.runOf n = some r) : execTimedExpiry s = done ((s.finish r).afterExpiry 241 State.timedList) :=
  onExpiry_handles hs hdrain hfirst (by rw [hr])

theorem execWaitTimeout_faults (hdrain : s.trowel.draining.contains 245 = true) (hfirst : s.firstExpired s.waitList = some n)
    (hr : s.runOf n = some r) :
    execWaitTimeout s = done (((s.faultStream r 0x05 0).countWaiters (bits (r.dw 1) 15 0)).afterExpiry 245 State.waitList) :=
  onExpiry_handles hs hdrain hfirst (by rw [hr])

theorem execWindowDeadline_closes (hdrain : s.trowel.draining.contains 240 = true) (hfirst : s.firstExpired s.deadlineList = some n) :
    execWindowDeadline s = done ((s.closeWindow n 5).afterExpiry 240 State.deadlineList) :=
  onExpiry_handles hs hdrain hfirst rfl

end Expiry

/-- The least number of the entries of a list, and of one found before. -/
def leastOf (o : Option Nat) (e : Nat × Nat) : Option Nat :=
  match o with
  | none => some e.2
  | some x => some (min x e.2)

theorem foldl_leastOf {l : List (Nat × Nat)} {o : Option Nat} {m : Nat} (h : l.foldl leastOf o = some m) :
    (o = some m ∨ ∃ e ∈ l, e.2 = m) ∧ (∀ x, o = some x → m ≤ x) ∧ ∀ e ∈ l, m ≤ e.2 := by
  induction l generalizing o with
  | nil =>
    cases (h : o = some m)
    exact ⟨.inl rfl, fun x hx => (Option.some.inj hx).le, by simp⟩
  | cons e l ih =>
    obtain ⟨hfound, hbefore, hrest⟩ := ih h
    cases o with
    | none =>
      have le : m ≤ e.2 := hbefore _ rfl
      refine ⟨.inr ?_, by simp, fun e' he' => ?_⟩
      · rcases hfound with hfound | ⟨e', he', hm⟩
        · exact ⟨e, List.mem_cons_self .., Option.some.inj hfound⟩
        · exact ⟨e', List.mem_cons_of_mem _ he', hm⟩
      · rcases List.mem_cons.mp he' with rfl | he'
        · exact le
        · exact hrest e' he'
    | some x =>
      have le : m ≤ min x e.2 := hbefore _ rfl
      refine ⟨?_, fun y hy => Option.some.inj hy ▸ le.trans (min_le_left ..), fun e' he' => ?_⟩
      · rcases hfound with hfound | ⟨e', he', hm⟩
        · rcases min_choice x e.2 with hx | hx
          · exact .inl (hx ▸ hfound)
          · exact .inr ⟨e, List.mem_cons_self .., hx.symm.trans (Option.some.inj hfound)⟩
        · exact .inr ⟨e', List.mem_cons_of_mem _ he', hm⟩
      · rcases List.mem_cons.mp he' with rfl | he'
        · exact le.trans (min_le_right ..)
        · exact hrest e' he'

/-- What is handled first is an expired entry, the lowest of those. -/
theorem State.firstExpired_spec {s : State} {l : List (Nat × Nat)} {n : Nat} (h : s.firstExpired l = some n) :
    (∃ e ∈ l, e.2 = n ∧ e.1 ≤ s.time) ∧ ∀ e ∈ l, e.1 ≤ s.time → n ≤ e.2 := by
  obtain ⟨hfound, -, hleast⟩ := foldl_leastOf (o := none) (l := l.filter fun e => decide (e.1 ≤ s.time)) h
  obtain ⟨e, he, hn⟩ := hfound.resolve_left (by simp)
  obtain ⟨hin, htime⟩ := List.mem_filter.mp he
  exact ⟨⟨e, hin, hn, of_decide_eq_true htime⟩, fun e he htime => hleast e (List.mem_filter.mpr ⟨he, decide_eq_true htime⟩)⟩

/-- Settles O39: the due trigger fires and does its own work (`execTriggerFire_due`, with `State.stat_fireTrigger`, `State.fireTrigger_disarms` and
`State.fireTrigger_rearms` for its registers), its registers take their writes (`State.bit_wrTtCtl`), and the first expired entry is handled. -/
theorem triggersFire : Obligations.TriggersFire := by
  unfold Obligations.TriggersFire
  refine ⟨fun s n => ⟨fun hs hdue hlow => ?_, fun k hk hirq hsyn => ?_, fun b q v => ⟨fun hb => ?_, fun hb => ?_⟩⟩, fun s n r hs => ?_⟩
  · have fires := execTriggerFire_due hs hdue hlow
    have own {u : State} (h : (s.fireTrigger n.toNat).ownWork n.toNat = u) : execTriggerFire n s = done u :=
      fires.trans (congrArg done h)
    clear fires
    generalize s.fireTrigger n.toNat = u at *
    refine ⟨fun h => own (u.ownWork_software h), ?_, ?_, ?_, ?_⟩
    · rintro rfl
      exact own u.ownWork_heartbeat
    · rintro rfl
      exact own u.ownWork_snapFire
    · rintro (rfl | rfl | rfl)
      · exact own (u.ownWork_drains (.inl rfl))
      · exact own (u.ownWork_drains (.inr (.inl rfl)))
      · exact own (u.ownWork_drains (.inr (.inr rfl)))
    · rintro rfl
      exact own u.ownWork_supply
  · exact ⟨State.stat_fireTrigger hirq hsyn, State.fireTrigger_disarms hirq hsyn, State.fireTrigger_rearms hirq hsyn⟩
  · exact regCmd_arrives _ hb
  · have ctl : (s.wrTtCtl n.toNat v (BitVec.allOnes 64)).settle.reg 24 .TT_CTL n.toNat
        = (s.wrTtCtl n.toNat v (BitVec.allOnes 64)).reg 24 .TT_CTL n.toNat :=
      State.reg_settle _ (by decide) (by decide) (by have := n.isLt; simp only [regInfo]; omega)
    refine ⟨_, regCmd_arrives _ hb, ?_, fun h => ⟨?_, ?_⟩, fun h => ?_⟩
    · exact (congrArg (bit · 1) ctl).trans (s.stat_wrTtCtl ..)
    · exact (congrArg (bit · 0) ctl).trans (s.enable_wrTtCtl v h)
    · exact (congrArg (bits · 47 16) ctl).trans (s.fields_wrTtCtl v h)
    · exact ctl.trans (s.ctl_wrTtCtl_own v h)
  · refine ⟨fun hdrain hfirst hr => ?_, fun hdrain hfirst hr => ?_, fun hdrain hfirst => ?_, fun l h => State.firstExpired_spec h⟩
    · exact execTimedExpiry_retires hs hdrain hfirst hr
    · exact execWaitTimeout_faults hs hdrain hfirst hr
    · exact execWindowDeadline_closes hs hdrain hfirst

end Sys2Proof.Machine

/-! SUPPORT. The Trowel's windows, and its registers: items, windows and members (R313–R315, R319, R327, R338). -/

namespace Sys2Proof.Machine

open Sys2Proof

/-! ### Windows (R338) -/

theorem State.trowel_foldl_setRegW (s : State) (w : Nat) (l : List Nat) :
    (l.foldl (fun s j => s.setRegW 24 .TRW_WIN w j 0) s).trowel = s.trowel := by
  induction l generalizing s with
  | nil => rfl
  | cons j l ih => exact (ih _).trans (State.setRegW_trowel ..)

/-- A window replaced changes nothing else of the Trowel. -/
theorem State.trowel_setWindow (s : State) (w : Nat) (x : Window) :
    (s.setWindow w x).trowel = { s.trowel with windows := put (fun _ => {}) s.trowel.windows w x } := by
  unfold State.setWindow
  rw [State.trowel_trwSync]
  dsimp only
  split
  · exact State.trowel_foldl_setRegW ..
  · simp only [State.setRegW_trowel]

theorem State.window_congr {s t : State} (h : t.trowel.windows = s.trowel.windows) (w : Nat) : t.window w = s.window w :=
  congrArg (fun m => look (fun _ => ({} : Window)) m w) h

@[simp] theorem State.window_setWindow_self (s : State) (w : Nat) (x : Window) : (s.setWindow w x).window w = x := by
  rw [State.window, State.trowel_setWindow]
  exact look_put_self ..

theorem State.window_setWindow_ne (s : State) {v w : Nat} (x : Window) (h : v ≠ w) : (s.setWindow w x).window v = s.window v := by
  rw [State.window, State.trowel_setWindow]
  exact look_put_ne (fun _ => {}) (fun _ => {}) s.trowel.windows x h

/-! ### TRW_WQ and TRW_WDONE (R314, R315) -/

section Items

variable {s : State} {d st slot : Nat} {l : List (Nat × Nat)} {r : StreamRun} {v : Word}

/-- A read of TRW_WQ takes the oldest item, whose command runs. -/
theorem State.rdWq_takes (hq : s.queued d = (st, slot) :: l) (hr : s.runOf st = some r) :
    (s.rdWq d).2.queued d = l ∧ (s.rdWq d).2.runOf r.s = some { r with run := .item d true } := by
  generalize hu : ({ s with trowel := { s.trowel with wq := put (fun _ => []) s.trowel.wq d l } } : State) = u
  have left : u.queued d = l := by
    subst hu
    exact look_put_self ..
  have same : u.runOf st = some r := by
    subst hu
    exact hr
  have taken : (s.rdWq d).2 = (u.setRun { r with run := .item d true }).wqnSync d := by
    simp only [State.rdWq, hq, hu, same]
  rw [taken]
  refine ⟨?_, ?_⟩
  · rw [State.queued_congr (congrArg Trowel.wq (State.trowel_wqnSync ..)), State.queued_setRun, left]
  · exact (State.runOf_congr (congrArg Trowel.runs (State.trowel_wqnSync ..)) _).trans (u.runOf_setRun { r with run := .item d true })

theorem State.rdWq_empty (hq : s.queued d = []) : (s.rdWq d).2 = s := by rw [State.rdWq, hq]

theorem State.wrWdone_running (hr : s.runOf (bits v 17 0) = some r) (hrun : r.run = .item d true) :
    s.wrWdone v = (if bit v 18 then s.faultStream r 0x09 (bits v 26 19) else s.finish r).wqnSync d := by
  rw [State.wrWdone, hr]
  simp only [hrun]

theorem State.wrWdone_none (hr : s.runOf (bits v 17 0) = none) : s.wrWdone v = s.setFld 24 .TRW_STAT 0 26 26 1 := by
  rw [State.wrWdone, hr]

end Items

/-! ### TRW_MFAULT (R327) -/

theorem State.wrMfault_fails {s : State} {v : Word} (hstate : (s.window (bits v 9 0)).state = .draining)
    (hm : bits v 21 10 < (s.window (bits v 9 0)).members.length) :
    (((s.wrMfault v).window (bits v 9 0)).members.getD (bits v 21 10) {}).failed = some (0x07, bits v 29 22) := by
  have taken : ¬ ((s.window (bits v 9 0)).state != .draining || decide ((s.window (bits v 9 0)).members.length ≤ bits v 21 10)) = true := by
    simp [hstate, hm]
  unfold State.wrMfault
  dsimp only
  rw [if_neg taken, State.window_setWindow_self]
  dsimp only
  rw [setAt_eq_set, List.getD_eq_getElem?_getD, List.getElem?_set_self hm, Option.getD_some]

theorem State.wrMfault_refused {s : State} {v : Word} (hstate : (s.window (bits v 9 0)).state ≠ .draining) :
    s.wrMfault v = s.setFld 24 .TRW_STAT 0 27 27 1 :=
  if_pos (by simp [hstate])

section Arrives

variable {b s : State} {q : Src} (v : Word)

theorem execTrwWq_arrives {d : CDie} (h : b.regAccess q 24 .TRW_WQ d.val = (true, s)) : execTrwWq q d b = done (s.rdWq d.val).2 :=
  regCmd_arrives _ h

theorem execTrwWdone_arrives (h : b.regAccess q 24 .TRW_WDONE 0 = (true, s)) : execTrwWdone q v b = done (s.wrWdone v) :=
  regCmd_arrives _ h

theorem execTrwFlush_arrives (h : b.regAccess q 24 .TRW_FLUSH 0 = (true, s)) : execTrwFlush q v b = done (s.wrFlush v) :=
  regCmd_arrives _ h

theorem execTrwMfault_arrives (h : b.regAccess q 24 .TRW_MFAULT 0 = (true, s)) : execTrwMfault q v b = done (s.wrMfault v) :=
  regCmd_arrives _ h

end Arrives

/-- Settles O40: each register's access is its effect on items (`State.rdWq_takes`, `State.wrWdone_running`), windows and members
(`State.wrMfault_fails`), which the recomputation of ERR_HEALTH leaves as they are. -/
theorem trowelRegisters : Obligations.TrowelRegisters := by
  unfold Obligations.TrowelRegisters
  intro b s q v
  refine ⟨fun d st slot l r hb hq hr => ?_, fun d hb hq => ?_, fun hb r d hr hrun => ?_, fun hb hr => ?_, execTrwFlush_arrives v,
    fun hb hstate hm => ?_, fun hb hstate => ?_⟩
  · obtain ⟨hleft, hrun⟩ := State.rdWq_takes hq hr
    refine ⟨_, execTrwWq_arrives hb, ?_, ?_⟩
    · exact (State.queued_congr (congrArg Trowel.wq (State.trowel_settle _)) _).trans hleft
    · exact (State.runOf_congr (congrArg Trowel.runs (State.trowel_settle _)) _).trans hrun
  · exact (execTrwWq_arrives hb).trans (congrArg done (State.rdWq_empty hq))
  · exact (execTrwWdone_arrives v hb).trans (congrArg done (State.wrWdone_running hr hrun))
  · exact (execTrwWdone_arrives v hb).trans (congrArg done (State.wrWdone_none hr))
  · refine ⟨_, execTrwMfault_arrives v hb, ?_⟩
    rw [State.window_congr (congrArg Trowel.windows (State.trowel_settle _))]
    exact State.wrMfault_fails hstate hm
  · exact (execTrwMfault_arrives v hb).trans (congrArg done (State.wrMfault_refused hstate))

end Sys2Proof.Machine

/-! SUPPORT. Windows that open, close, are dispatched and scattered (R318–R322, R325, R326, R329, R330). -/

namespace Sys2Proof.Machine

open Sys2Proof

/-! ### A window closes (R319–R321) -/

/-- Triggers are registers: arming one changes nothing of the Trowel (R311). -/
theorem State.trowel_armTimer (s : State) (n : Nat) (times : List Nat) : (s.armTimer n times).trowel = s.trowel := by
  unfold State.armTimer
  split
  · rfl
  · split
    · exact State.setRegW_trowel ..
    · exact (State.setRegW_trowel ..).trans (State.setRegW_trowel ..)

theorem State.trowel_armTimers (s : State) : s.armTimers.trowel = s.trowel := by
  unfold State.armTimers
  rw [State.trowel_armTimer, State.trowel_armTimer, State.trowel_armTimer]

/-- A window as its close leaves it: the serial number gives its slot and its group (R321). -/
def Window.closedAs (x : Window) (cause serial order : Nat) : Window :=
  { x with
    state := .closed, close := cause, serial, slot := serial % max 1 (imgNslot x.image), group := imgGroup x.image serial, closedAt := order }

/-- The close takes the image's next serial number and the next place in the close order, and replaces that window alone. -/
theorem State.trowel_closeWindow (s : State) (w cause : Nat) :
    (s.closeWindow w cause).trowel = { s.trowel with
      serials := put (fun _ => 0) s.trowel.serials (s.window w).kih (s.nextSerial (s.window w).kih + 1)
      closeOrder := s.trowel.closeOrder + 1
      windows := put (fun _ => {}) s.trowel.windows w
        ((s.window w).closedAs cause (s.nextSerial (s.window w).kih) (s.trowel.closeOrder + 1)) } := by
  unfold State.closeWindow
  rw [State.trowel_armTimers, State.trowel_setWindow]
  rfl

theorem State.windows_closeWindow (s : State) (w cause : Nat) : (s.closeWindow w cause).trowel.windows = put (fun _ => {}) s.trowel.windows w
    ((s.window w).closedAs cause (s.nextSerial (s.window w).kih) (s.trowel.closeOrder + 1)) := by
  rw [State.trowel_closeWindow]

theorem State.serials_closeWindow (s : State) (w cause : Nat) : (s.closeWindow w cause).trowel.serials =
    put (fun _ => 0) s.trowel.serials (s.window w).kih (s.nextSerial (s.window w).kih + 1) := by
  rw [State.trowel_closeWindow]

theorem State.window_closeWindow_self (s : State) (w cause : Nat) :
    (s.closeWindow w cause).window w = (s.window w).closedAs cause (s.nextSerial (s.window w).kih) (s.trowel.closeOrder + 1) := by
  rw [State.window, State.windows_closeWindow]
  exact look_put_self ..

theorem State.window_closeWindow_ne (s : State) {v w : Nat} (cause : Nat) (h : v ≠ w) : (s.closeWindow w cause).window v = s.window v := by
  rw [State.window, State.windows_closeWindow]
  exact look_put_ne (fun _ => {}) (fun _ => {}) s.trowel.windows _ h

theorem State.nextSerial_closeWindow_self (s : State) (w cause : Nat) :
    (s.closeWindow w cause).nextSerial (s.window w).kih = s.nextSerial (s.window w).kih + 1 := by
  rw [State.nextSerial, State.serials_closeWindow]
  exact look_put_self ..

theorem State.nextSerial_closeWindow_ne (s : State) (w cause : Nat) {k : Nat} (h : k ≠ (s.window w).kih) :
    (s.closeWindow w cause).nextSerial k = s.nextSerial k := by
  rw [State.nextSerial, State.serials_closeWindow]
  exact look_put_ne (fun _ => 0) (fun _ => 0) s.trowel.serials _ h

/-! ### A waiting LAUNCH opens or joins one (R317–R319) -/

section Open

variable {s t : State} {r : StreamRun} {img : List Word} {w : Nat}

/-- The window that a LAUNCH opens (R317, R318, R324). -/
def State.newWindow (s : State) (r : StreamRun) (img : List Word) : Window :=
  { state := .openW, kih := bits (r.dw 0) 63 32, ckey := bits (r.dw 1) 31 0, shape := bits (r.dw 1) 47 32
    deadline := BitVec.ofNat 64 (s.time + (if bits (img.getD 0 0) 63 32 = 0 then s.fld 24 .TRW_DEFDL 0 31 0 else bits (img.getD 0 0) 63 32))
    opened := BitVec.ofNat 64 s.time, gang := imgGang img, image := img
    ptb := s.strW r.s 1, ring := s.strF r.s 0 57 56, ckeyOwn := !bit (r.dw 0) 10, tag := s.epochCur }

theorem State.coalesce_opens (hheld : (if bit (r.dw 0) 10 then s.openWindowOf r else none) = none)
    (hfree : ((List.range 1024).find? fun w => decide ((s.window w).state = .free)) = some w) (hslot : s.slotRoom = true) :
    s.coalesce r img = ((s.setWindow w (s.newWindow r img)).joinWindow r w).armTimers := by
  unfold State.coalesce
  dsimp only
  rw [hheld]
  unfold State.openWindow
  rw [hfree]
  exact if_pos hslot

theorem State.coalesce_joins (hheld : (if bit (r.dw 0) 10 then s.openWindowOf r else none) = some w)
    (hcap : s.overCapacity (bits (r.dw 0) 63 32) img (rowBlocks (s.window w).members + (bits (r.dw 1) 60 48 + 255) / 256) = false) :
    s.coalesce r img = s.joinWindow r w := by
  unfold State.coalesce
  dsimp only
  rw [hheld]
  exact if_neg (by rw [hcap]; decide)

theorem execWindowOpenDeferred_coalesces {rest : List StreamRun} (hs : s.stopped = false)
    (hruns : ((s.trowel.runs.filter fun r => r.run == .wantsWindow).mergeSort fun a b => decide (a.s ≤ b.s)) = r :: rest)
    (himg : s.readImage (bits (r.dw 0) 63 32) = (.ok img, t)) : execWindowOpenDeferred s = done (t.coalesce r img) := by
  unfold execWindowOpenDeferred
  rw [if_neg (by rw [hs]; decide)]
  dsimp only
  rw [hruns]
  dsimp only
  rw [himg]

end Open

/-! ### Dispatch (R322, R325, R403) -/

section Dispatch

variable {s t u v y : State} {g : Gang} {w : Nat} {x : Window} {rest : List (Nat × Window)} {img : List Word}

/-- A window marked with the steps of its dispatch that are done. -/
def State.atStep (a : State) (w n : Nat) : State := a.setWindow w { a.window w with step := n }

/-- The last step: the window's record in the Stencil log, and its operation at the end of the gang's queue. -/
def State.windowQueued (a : State) (w : Nat) : State :=
  let z := a.window w
  State.gangPut (State.setWindow (a.windowRecord z) w { z with state := .queued, tstart := BitVec.ofNat 64 (a.windowRecord z).time }) z.gang
    (.gmm (imgGmm z.image (256 * rowBlocks z.members) z.group z.ptb z.ring w))

/-- Nothing holds the last step back: the writes before it are performed, and the queue and staging have room. -/
structure State.WindowMayQueue (a : State) (w : Nat) : Prop where
  posted : a.postedBy (.window w) = false
  gang : a.gangRoom (a.window w).gang = true
  staging : 1 + ((a.window w).members.length + 5) / 6 ≤ a.stagingRoom

theorem State.WindowMayQueue.recordRoom {a : State} (h : a.WindowMayQueue w) : a.recordRoom (a.window w) = true := decide_eq_true h.staging

theorem State.dispatchWindow_queues (hstep : x.step = 3) (h : s.WindowMayQueue w) : s.dispatchWindow w x = s.windowQueued w := by
  unfold State.dispatchWindow
  simp only [hstep, h.posted, h.gang, h.recordRoom, Bool.not_true, Bool.or_self, Bool.false_eq_true, if_false, State.windowQueued]

/-- From the first step on: translations, seed table and Glaze descriptor, and, where nothing holds it back, the queue. -/
theorem State.dispatchWindow_all {gd : Nat} (hstep : x.step = 0) (hxlate : s.dispatch1 w x = (some true, u))
    (hroom : (u.atStep w 1).recordRoom ((u.atStep w 1).window w) = true)
    (hseed : (if bits (x.image.getD 14 0) 51 0 = 0 then (.ok (), u.atStep w 1) else (u.atStep w 1).devWriteLin (winCtx w x)
      ((bits (x.image.getD 14 0) 51 0 + 0x10000 * x.slot) % 2 ^ 52) (seedTable ((u.atStep w 1).window w)) false) = (.ok (), v))
    (hgd : bits (x.image.getD 7 0) 51 0 + (if x.group = imgGrp x.image then 0 else 0xC0) = gd)
    (hglaze : (v.atStep w 2).writeDws (winCtx w x) ((glazeWrites x).map fun e => (gd + e.1, e.2)) = (.ok (), y))
    (h : (y.atStep w 3).WindowMayQueue w) : s.dispatchWindow w x = (y.atStep w 3).windowQueued w := by
  have last : ∀ a : State, a = y.atStep w 3 →
      (if a.postedBy (.window w) || !a.gangRoom (a.window w).gang || !a.recordRoom (a.window w) then a else a.windowQueued w)
        = (y.atStep w 3).windowQueued w := by
    rintro a rfl
    exact if_neg (by rw [h.posted, h.gang, h.recordRoom]; decide)
  unfold State.dispatchWindow
  simp only [hstep, hxlate]
  rw [show u.setWindow w { u.window w with step := 1 } = u.atStep w 1 from rfl, hroom]
  simp only [Bool.not_true, Bool.false_eq_true, if_false, hseed]
  rw [show v.setWindow w { v.window w with step := 2 } = v.atStep w 2 from rfl]
  simp only [hgd, hglaze]
  exact last _ rfl

theorem execWindowDispatch_goesOn (hs : s.stopped = false) (hthm : s.flag 24 .THM_STAT 0 1 = false)
    (hclosed : s.closedWindows g.val = (w, x) :: rest) (hstep : x.step ≠ 0) : execWindowDispatch g s = done (s.dispatchWindow w x) := by
  simp only [execWindowDispatch, hs, hthm, hclosed, hstep, ne_eq, not_false_eq_true, decide_false, Bool.false_and, Bool.or_self, Bool.false_eq_true,
    if_false, if_true]

theorem execWindowDispatch_begins (hs : s.stopped = false) (hthm : s.flag 24 .THM_STAT 0 1 = false)
    (hclosed : s.closedWindows g.val = (w, x) :: rest) (hstep : x.step = 0) (hgates : s.gatesPass x = true)
    (himg : s.readImage x.kih = (.ok img, t)) :
    execWindowDispatch g s = done ((t.setWindow w { x with image := img }).dispatchWindow w { x with image := img }) := by
  simp only [execWindowDispatch, hs, hthm, hclosed, hstep, hgates, himg, Bool.or_self, Bool.not_true, Bool.and_false, Bool.false_eq_true, if_false,
    ne_eq, not_true_eq_false]

end Dispatch

/-! ### Scatter (R326, R329, R330) -/

section Scatter

variable {s t : State} {w : Nat} {x : Window}

/-- How a member ends once its record has been performed: its slice's fault, its cancel, or its command's good end (R303, R328, R330). -/
def State.memberEnds (t : State) (y : Member) : State :=
  match t.runOf y.s with
  | none => t
  | some run => match y.failed with
    | some (fcode, code) => t.faultStream run fcode (if fcode = 0x09 then code else 0)
    | none => if y.cancelled then t.dropRun y.s else t.finish run

/-- The next member's record is written, and with nothing posted for it outstanding it ends; after the last the window is free. -/
theorem State.scatterOne_ends {y : Member} (hy : x.members.getD x.next {} = y)
    (hrecord : (if y.crec = 0 ∨ x.recDone then (.ok (), s) else
      s.devWriteLin { q := kReq, eng := 0, own := .stream y.s, ptb := y.ptb, ring := y.ring } y.crec
        (memberRecord x x.next (if y.cancelled then 5 else if y.failed.isSome then 2 else 1) s.time) false) = (.ok (), t))
    (hposted : t.postedBy (.stream y.s) = false) :
    s.scatterOne w x = (if x.members.length ≤ x.next + 1 then (t.memberEnds y).freeWindow w
      else (t.memberEnds y).setWindow w { x with next := x.next + 1, recDone := false }) := by
  unfold State.scatterOne
  dsimp only
  rw [hy, hrecord]
  dsimp only
  rw [if_neg (by rw [hposted]; decide)]
  rfl

theorem execScatterMember_scatters {w : WinId} (hs : s.stopped = false)
    (h : ((s.window w.toNat).state = .draining ∧ (s.window w.toNat).posted = 0) ∨ (s.window w.toNat).state = .scatter) :
    execScatterMember w s = done ((s.setWindow w.toNat { s.window w.toNat with state := .scatter }).scatterOne w.toNat
      { s.window w.toNat with state := .scatter }) := by
  unfold execScatterMember
  rw [if_neg (by rw [hs]; decide)]
  generalize s.window w.toNat = x at *
  have drained : (if x.state = .draining ∧ x.posted = 0 then { x with state := .scatter } else x) = { x with state := .scatter } := by
    rcases h with h | h
    · exact if_pos h
    · obtain ⟨⟩ := x
      cases h
      exact if_neg (by simp)
  dsimp only
  rw [drained]
  exact if_pos rfl

end Scatter

/-- Settles O41: a close replaces its window (`State.trowel_closeWindow`), a waiting LAUNCH opens or joins one (`State.coalesce_opens`,
`State.coalesce_joins`), a closed window is dispatched up to its gang's queue (`State.dispatchWindow_all`), and a drained one is scattered member
by member (`State.scatterOne_ends`). -/
theorem windowsClose : Obligations.WindowsClose := by
  unfold Obligations.WindowsClose
  refine ⟨?_, fun s t hs => ⟨fun r rest img w hruns himg => ?_, fun g w x rest hthm hclosed => ?_, fun w h => ?_⟩⟩
  · intro s w cause x t y
    have self : y = x.closedAs cause (s.nextSerial x.kih) (s.trowel.closeOrder + 1) := s.window_closeWindow_self w cause
    rw [self]
    exact ⟨rfl, rfl, rfl, s.nextSerial_closeWindow_self w cause, rfl, rfl, rfl, rfl, fun k hk => s.nextSerial_closeWindow_ne w cause hk,
      fun v hv => s.window_closeWindow_ne cause hv⟩
  · intro held dl x
    have coalesces := execWindowOpenDeferred_coalesces hs hruns himg
    exact ⟨fun hheld hfree hslot => coalesces.trans (congrArg done (State.coalesce_opens hheld hfree hslot)),
      fun hheld hcap => coalesces.trans (congrArg done (State.coalesce_joins hheld hcap))⟩
  · intro queued
    refine ⟨fun hstep hposted hgang hstaging => ?_, fun img u v y hstep hgates himg => ?_⟩
    · exact (execWindowDispatch_goesOn hs hthm hclosed (by rw [hstep]; decide)).trans
        (congrArg done (State.dispatchWindow_queues hstep ⟨hposted, hgang, hstaging⟩))
    · intro x ctx wrec gd at_ hxlate hroom hseed hglaze hposted hgang hstaging
      exact (execWindowDispatch_begins hs hthm hclosed hstep hgates himg).trans
        (congrArg done (State.dispatchWindow_all hstep hxlate hroom hseed rfl hglaze ⟨hposted, hgang, hstaging⟩))
  · intro x u y status hrecord hposted o
    exact (execScatterMember_scatters hs h).trans (congrArg done (State.scatterOne_ends rfl hrecord hposted))

end Sys2Proof.Machine

/-! SUPPORT. The registers of a block beside log entries and ERR_HEALTH (R26, R468, R470). -/

namespace Sys2Proof.Machine

open Sys2Proof

theorem regInfo_blk_lt (r : RegName) : (regInfo r).blk < 0x100 := by cases r <;> decide

/-- Registers of two blocks lie at different offsets of control space, whichever their dies. -/
theorem regKey_ne_of_blk_any (d d' : Nat) {i w i' w' : Nat} {r r' : RegName} (hblk : (regInfo r).blk ≠ (regInfo r').blk)
    (ho : (regInfo r).off + (regInfo r).stride * i + 8 * w < 0x10000) (ho' : (regInfo r').off + (regInfo r').stride * i' + 8 * w' < 0x10000) :
    regKey d r i w ≠ regKey d' r' i' w' := by
  obtain ⟨k, hk⟩ := dieBase_mul d
  obtain ⟨k', hk'⟩ := dieBase_mul d'
  have hlt := regInfo_blk_lt r
  have hlt' := regInfo_blk_lt r'
  simp only [regKey, hk, hk']
  generalize (regInfo r).stride * i = x at *
  generalize (regInfo r').stride * i' = x' at *
  omega

/-- State t shows in every register of a block, of every die, what s shows. -/
structure State.KeepsBlk (b : Nat) (s t : State) : Prop where
  reg : ∀ (d : Nat) (r : RegName) (i : Nat), (regInfo r).blk = b → (regInfo r).off + (regInfo r).stride * i < 0x10000 →
    t.reg d r i = s.reg d r i

section KeepsBlk

variable {b : Nat}

theorem State.KeepsBlk.refl (s : State) : s.KeepsBlk b s := ⟨fun _ _ _ _ _ => rfl⟩

theorem State.KeepsBlk.trans {s t u : State} (h : s.KeepsBlk b t) (k : t.KeepsBlk b u) : s.KeepsBlk b u :=
  ⟨fun d r i hb ho => (k.reg d r i hb ho).trans (h.reg d r i hb ho)⟩

theorem State.KeepsBlk.of {α : Type} {s t : State} {r : α × State} {a : α} (e : r = (a, t)) (h : s.KeepsBlk b r.2) : s.KeepsBlk b t := by
  subst e; exact h

/-- States with the same registers show the same. -/
theorem State.KeepsBlk.of_regs {s t : State} (h : t.regs = s.regs) : s.KeepsBlk b t :=
  ⟨fun d r i _ _ => by rw [State.reg, State.reg, State.regW, State.regW, h]⟩

theorem State.keepsBlk_foldl {α : Type} {f : State → α → State} (hf : ∀ (t : State) (a : α), t.KeepsBlk b (f t a)) (l : List α) (s : State) :
    s.KeepsBlk b (l.foldl f s) := by
  induction l generalizing s with
  | nil => exact .refl s
  | cons a l ih => exact (hf s a).trans (ih _)

theorem State.keepsBlk_setRegW (s : State) {d : Nat} {r : RegName} {i w : Nat} (v : Word) (hb : (regInfo r).blk ≠ b)
    (ho : (regInfo r).off + (regInfo r).stride * i + 8 * w < 0x10000) : s.KeepsBlk b (s.setRegW d r i w v) :=
  ⟨fun e r' _ hb' ho' => s.regW_setRegW_ne v (regKey_ne_of_blk_any e d (r := r') (fun h => hb (h.symm.trans hb')) (by omega) ho)⟩

theorem State.keepsBlk_sendIrq (s : State) (route die : Nat) : s.KeepsBlk b (s.sendIrq route die) := by
  unfold State.sendIrq
  dsimp only
  split
  · exact .of_regs rfl
  · exact .refl s

theorem State.keepsBlk_choose (s : State) (l : List Nat) : s.KeepsBlk b (s.choose l).2 := by
  unfold State.choose
  split <;> exact .of_regs rfl

variable (herr : b ≠ 0x04) (hmc : b ≠ 0x06)
include hmc

theorem State.keepsBlk_mcLog (s : State) (kind sev die p0 p1 p2 : Nat) : s.KeepsBlk b (s.mcLog kind sev die p0 p1 p2) := by
  unfold State.mcLog
  dsimp only
  split
  · exact State.KeepsBlk.trans (t := { s with mclog := { s.mclog with dropped := s.mclog.dropped + 1 } }) (.of_regs rfl)
      (State.keepsBlk_setRegW (r := .MC_STAT) (i := 0) (w := 0) _ _ hmc.symm (by decide))
  · exact .of_regs rfl

include herr

theorem State.keepsBlk_setReplace (s : State) : s.KeepsBlk b s.setReplace := by
  unfold State.setReplace
  split
  · exact .refl s
  · exact (s.keepsBlk_setRegW (r := .ERR_HEALTH) _ herr.symm (by decide)).trans (State.keepsBlk_mcLog hmc ..)

theorem State.keepsBlk_settle (s : State) : s.KeepsBlk b s.settle := by
  unfold State.settle
  dsimp only
  split
  · exact (s.keepsBlk_setReplace herr hmc).trans (State.keepsBlk_setRegW _ _ herr.symm (by decide))
  · exact State.keepsBlk_setRegW _ _ herr.symm (by decide)

/-- The steps of a log entry in turn: the count of its unit, the entry, the MC's, the interrupt and REPLACE (R468). -/
theorem State.keepsBlk_logErr (s : State) (die cls sev : Nat) {unit : Nat} (q : Req) (addr : Option Nat) (poison : Bool) (info : Nat)
    (hu : unit < 16) : s.KeepsBlk b (s.logErr die cls sev unit q addr poison info) := by
  unfold State.logErr
  extract_lets s1 dw0 a order s2 s3 s4
  have counted : s.KeepsBlk b s1 := by
    unfold s1
    split
    · exact s.keepsBlk_setRegW _ herr.symm (by simp only [regInfo]; omega)
    · exact .refl s
  have logged : s1.KeepsBlk b s2 := by
    have chosen := s1.keepsBlk_choose (b := b) ((List.range 64).filter fun i => !order.contains i)
    unfold s2
    split
    next h => exact (chosen.of h).trans (State.keepsBlk_setRegW _ _ herr.symm (by decide))
    next i u h =>
      have hi : i < 64 := by simpa using (List.mem_filter.mp (State.mem_of_choose h)).1
      have entry (v : State) (w : Nat) (x : Word) (hw : w < 4) : v.KeepsBlk b (v.setRegW die .ERR_LOG i w x) :=
        v.keepsBlk_setRegW x herr.symm (by simp only [regInfo]; omega)
      have order (v : State) (m : Sparse (List Nat)) : v.KeepsBlk b { v with errOrder := m } := .of_regs rfl
      refine .trans ?_ (State.keepsBlk_setRegW _ _ herr.symm (by decide))
      refine .trans ?_ (order _ _)
      exact ((((chosen.of h).trans (entry _ 0 _ (by omega))).trans (entry _ 1 _ (by omega))).trans (entry _ 2 _ (by omega))).trans
        (entry _ 3 _ (by omega))
  have reported : s2.KeepsBlk b s3 := State.keepsBlk_mcLog hmc ..
  have sent : s3.KeepsBlk b s4 := by
    unfold s4
    split
    · exact State.keepsBlk_sendIrq ..
    · exact .refl s3
  have all := ((counted.trans logged).trans reported).trans sent
  split
  · exact all.trans (State.keepsBlk_setReplace herr hmc _)
  · exact all

end KeepsBlk

end Sys2Proof.Machine

/-! SUPPORT. The HBM controllers and the tile stores: sectors read and written, counts and temperatures read out, fences and margin tests
(R344–R346, R350, R353–R358). -/

namespace Sys2Proof.Machine

open Sys2Proof

theorem bits_lt (w : Word) (hi lo : Nat) : bits w hi lo < 2 ^ (hi + 1 - lo) := Nat.mod_lt _ (by positivity)

/-! ### Sectors (R344–R346, R463) -/

section Sectors

variable {s : State} {pa : BitVec 48} {ch pc : Nat}

/-- The command's finding, as a number and as it stands in the command. -/
theorem ite_bad_toNat {α : Type} (bad : BitVec 2) (x y z : α) : (if bad.toNat = 1 then x else if bad.toNat = 2 then y else z) =
    if bad = 1 then x else if bad = 2 then y else z := by
  have one : (bad.toNat = 1) = (bad = 1) := propext ⟨fun h => BitVec.eq_of_toNat_eq h, fun h => congrArg BitVec.toNat h⟩
  have two : (bad.toNat = 2) = (bad = 2) := propext ⟨fun h => BitVec.eq_of_toNat_eq h, fun h => congrArg BitVec.toNat h⟩
  exact ite_congr one (fun _ => rfl) fun _ => ite_congr two (fun _ => rfl) fun _ => rfl

@[simp] theorem State.chErr_corrected (s : State) (ch n : Nat) :
    s.chErr ch false n = s.satFld (stackDie (ch / 16)) .HBM_CHERR (ch % 16) 31 0 n := by
  simp only [State.chErr, Bool.false_eq_true, if_false]

@[simp] theorem State.chErr_uncorrectable (s : State) (ch n : Nat) :
    s.chErr ch true n = s.satFld (stackDie (ch / 16)) .HBM_CHERR (ch % 16) 47 32 n := by
  simp only [State.chErr, if_true]

theorem State.sectorFound_eq (s : State) (q : Req) (ch pc a : Nat) (bad : BitVec 2) : s.sectorFound q ch pc a bad.toNat =
    if s.poisonedAt a = true then s
    else if bad = 1 then State.corrected (s.satFld (stackDie (ch / 16)) .HBM_CHERR (ch % 16) 31 0 1) (stackDie (ch / 16)) 5 1
    else if bad = 2 then State.logErr ((s.setPoison a true).satFld (stackDie (ch / 16)) .HBM_CHERR (ch % 16) 47 32 1) (stackDie (ch / 16)) 0x02 1 5 q
      (some a) true (ch + 2 ^ 8 * pc)
    else s := by
  unfold State.sectorFound
  dsimp only
  rw [State.chErr_corrected, State.chErr_uncorrectable, ite_bad_toNat]

/-- What the controller finds changes no byte of memory. -/
theorem State.mem_sectorFound (s : State) (q : Req) (ch pc a bad : Nat) : (s.sectorFound q ch pc a bad).mem = s.mem := by
  unfold State.sectorFound
  dsimp only
  split
  · rfl
  · split
    · rw [State.chErr_corrected, (State.keeps_corrected ..).1, (State.keeps_satFld ..).1]
    · split
      · rw [State.chErr_uncorrectable, (State.keeps_logErr ..).1, (State.keeps_satFld ..).1, State.setPoison_mem]
      · rfl

theorem execPatrolScrub_serves (bad : BitVec 2) (h : s.patrolServes pa.toNat = some (ch, pc))
    (hon : s.flag (stackDie (ch / 16)) .HBM_SCRUB 0 32 = true) (hwarn : s.supply.warn = false) :
    execPatrolScrub pa bad s = done (s.sectorFound ⟨stackDie (ch / 16), 5⟩ ch pc (unitBase pa.toNat) bad.toNat) := by
  unfold execPatrolScrub
  rw [h]
  dsimp only
  rw [if_pos (by rw [hon, hwarn]; decide)]

theorem execHbmRead_serves (rd : Die) (ru : BitVec 4) (bad : BitVec 2) (h : s.hbmServes pa.toNat = some (ch, pc)) :
    execHbmRead rd ru pa bad s = done (s.sectorFound ⟨rd.val, ru.toNat⟩ ch pc (unitBase pa.toNat) bad.toNat) := by
  unfold execHbmRead
  rw [h]

/-- A write within a sector: a partial one is merged with what the read of the sector finds (R345). -/
theorem execHbmWrite_serves (rd : Die) (ru : BitVec 4) {data : List Byte} (poisoned : Bool) (bad : BitVec 2)
    (h : s.hbmServes pa.toNat = some (ch, pc)) (hlen : pa.toNat % 32 + data.length ≤ 32) :
    ∃ u : State, u.mem = s.mem ∧ execHbmWrite rd ru pa data poisoned bad s = done (u.homeWrite pa.toNat data poisoned) := by
  unfold execHbmWrite
  dsimp only
  rw [h]
  dsimp only
  rw [if_pos hlen]
  refine ⟨_, ?_, rfl⟩
  split
  · exact State.mem_sectorFound ..
  · rfl

/-- What a controller serves lies in the HBM range (R21). -/
theorem State.lt_hbmEnd_of_serves {pa : Nat} {r : Nat × Nat} (h : s.hbmServes pa = some r) : pa < hbmEnd := by
  by_contra hpa
  have other : ∀ ch pc, s.decodePA pa ≠ .hbm ch pc := by
    intro ch pc
    unfold State.decodePA
    rw [if_neg hpa]
    split_ifs <;> simp
  unfold State.hbmServes at h
  split at h
  next ch pc hd => exact other ch pc hd
  next => cases h

theorem State.bytes_homeWrite (s : State) (pa : Nat) (bs : List Byte) (poisoned : Bool) : (s.homeWrite pa bs poisoned).bytes pa bs.length = bs :=
  State.bytes_setBytes ..

theorem State.byte_homeWrite_out (s : State) {pa a : Nat} {bs : List Byte} (poisoned : Bool) (h : a < pa ∨ pa + bs.length ≤ a) :
    (s.homeWrite pa bs poisoned).byte a = s.byte a := by
  obtain ⟨m, hm⟩ := s.homeWrite_eq pa bs poisoned
  rw [hm]
  exact State.byte_setBytes_out _ _ _ _ h

/-- A sector written whole takes the mark of the data (R345, R463). -/
theorem State.poisonedAt_homeWrite_sector (s : State) {pa : Nat} {bs : List Byte} (poisoned : Bool) (hpa : pa < hbmEnd) (halign : pa % 32 = 0)
    (hlen : bs.length = 32) : (s.homeWrite pa bs poisoned).poisonedAt (unitBase pa) = poisoned := by
  have size : unitSize pa = 32 := if_pos hpa
  have base : unitBase pa = pa := by rw [unitBase, size, halign, Nat.sub_zero]
  have units : unitsOf pa 32 = [pa] := by
    have one : (pa + 31) / 32 + 1 - pa / 32 = 1 := by omega
    have first : 32 * (pa / 32) = pa := by omega
    simp [unitsOf, size, one, first]
  have written (t : State) : (t.setBytes pa bs).poisonedAt pa = t.poisonedAt pa := rfl
  unfold State.homeWrite
  dsimp only
  rw [base, hlen, units, written]
  simp only [List.foldl_cons, List.foldl_nil, size, le_refl, decide_true, Bool.and_self, Bool.not_true, Bool.false_and, Bool.or_false]
  split
  next h => exact (eq_of_beq h).symm
  next => exact look_put_self ..

/-- The write's bytes are in memory, no other byte changes, and a whole sector takes the data's mark: a read that merges, and the recomputation of
ERR_HEALTH, change no byte and no mark after it. -/
theorem execHbmWrite_writes (rd : Die) (ru : BitVec 4) {data : List Byte} (poisoned : Bool) (bad : BitVec 2)
    (h : s.hbmServes pa.toNat = some (ch, pc)) (hlen : pa.toNat % 32 + data.length ≤ 32) :
    ∃ t, execHbmWrite rd ru pa data poisoned bad s = .next t ∧ t.bytes pa.toNat data.length = data ∧
      (∀ a, a < pa.toNat ∨ pa.toNat + data.length ≤ a → t.byte a = s.byte a) ∧
      (data.length = 32 → t.poisonedAt (unitBase pa.toNat) = poisoned) := by
  obtain ⟨u, hmem, hu⟩ := execHbmWrite_serves rd ru poisoned bad h hlen
  have settled := State.keeps_settle (u.homeWrite pa.toNat data poisoned)
  refine ⟨_, hu, ?_, fun a ha => ?_, fun hwhole => ?_⟩
  · exact (State.bytes_congr fun a _ _ => settled.byte a).trans (u.bytes_homeWrite ..)
  · rw [settled.byte, State.byte_homeWrite_out u poisoned ha, State.byte, hmem, State.byte]
  · rw [State.poisonedAt, settled.poison]
    exact u.poisonedAt_homeWrite_sector poisoned (State.lt_hbmEnd_of_serves h) (by omega) hwhole

end Sectors

/-! ### Counts and temperatures read out (R339, R350, R358) -/

section Readouts

variable {s : State} {st : Stack}

theorem mem_enumFrom_lt {α : Type} {n : Nat} {l : List α} {e : Nat × α} (h : e ∈ enumFrom n l) : e.1 < n + l.length := by
  induction l generalizing n with
  | nil => cases h
  | cons a l ih =>
    rw [List.length_cons]
    rcases List.mem_cons.mp h with rfl | h
    · exact Nat.lt_add_of_pos_right (Nat.succ_pos _)
    · have := ih h
      omega

theorem State.chErr_stack (s : State) (st n : Nat) {k : Nat} (hk : k < 16) :
    s.chErr (16 * st + k) false n = s.satFld (stackDie st) .HBM_CHERR k 31 0 n := by
  have stack : (16 * st + k) / 16 = st := by omega
  have channel : (16 * st + k) % 16 = k := by omega
  rw [State.chErr_corrected, stack, channel]

theorem execEcsReadout_counts (counts : List Nat) (hs : s.stopped = false) (hup : s.flag (stackDie st.val) .HBM_STAT 0 0 = true) :
    execEcsReadout st counts s =
      done ((enumFrom 0 (counts.take 16)).foldl (fun s e => s.satFld (stackDie st.val) .HBM_CHERR e.1 31 0 e.2) s) := by
  unfold execEcsReadout
  rw [if_neg (by rw [hs, hup]; decide)]
  refine congrArg done (List.foldl_ext _ _ _ fun t e he => t.chErr_stack _ _ ?_)
  have := mem_enumFrom_lt he
  rw [List.length_take] at this
  omega

/-- State t shows temperature word w of a die's stack, and whether the stack has tripped. -/
structure State.Shows (t : State) (d : Nat) (w : Word) (tripped : Bool) : Prop where
  temp : t.reg d .HBM_TEMP 0 = w
  trip : t.flag d .HBM_STAT 0 1 = tripped

theorem State.Shows.congr {t u : State} {d : Nat} {w : Word} {tripped : Bool} (h : t.Shows d w tripped) (k : t.KeepsBlk 0x17 u) :
    u.Shows d w tripped :=
  ⟨(k.reg d .HBM_TEMP 0 rfl (by decide)).trans h.temp, (congrArg (bit · 1) (k.reg d .HBM_STAT 0 rfl (by decide))).trans h.trip⟩

/-- HBM_TEMP beside HBM_STAT of the same die (R358). -/
theorem State.temp_setStat (s : State) (d hi lo v : Nat) : (s.setFld d .HBM_STAT 0 hi lo v).reg d .HBM_TEMP 0 = s.reg d .HBM_TEMP 0 :=
  s.regW_setRegW_ne _ (by simp [regKey, regInfo])

theorem State.stat_setTemp (s : State) (d hi lo v : Nat) : (s.setFld d .HBM_TEMP 0 hi lo v).reg d .HBM_STAT 0 = s.reg d .HBM_STAT 0 :=
  s.regW_setRegW_ne _ (by simp [regKey, regInfo])

/-- The throttle step is no trip (R350). -/
theorem State.Shows.stackStep {t : State} {st : Nat} {w : Word} {tripped : Bool} (h : t.Shows (stackDie st) w tripped) :
    (t.stackStep st).Shows (stackDie st) w tripped := by
  refine ⟨(t.temp_setStat ..).trans h.temp, ?_⟩
  rw [State.stackStep, State.flag_setFld_self _ _ _ _ _ (by decide) (by decide)]
  exact h.trip

theorem State.Shows.stackTrip {t : State} {st : Nat} {w : Word} {tripped : Bool} (h : t.Shows (stackDie st) w tripped) :
    (t.stackTrip st).Shows (stackDie st) w true := by
  have marked : (t.setFld (stackDie st) .HBM_STAT 0 1 1 1).Shows (stackDie st) w true :=
    ⟨(t.temp_setStat ..).trans h.temp, State.flag_setFld_bit _ _ _ _ _ _ (by decide)⟩
  have logged := State.keepsBlk_logErr (b := 0x17) (by decide) (by decide) (t.setFld (stackDie st) .HBM_STAT 0 1 1 1) (stackDie st) 0x0D 2
    (unit := 5) ⟨stackDie st, 5⟩ none false st (by decide)
  have event (u : State) (hi lo v : Nat) : u.KeepsBlk 0x17 (u.setFld 24 .THM_EVT 0 hi lo v) :=
    u.keepsBlk_setRegW _ (by decide) (by decide)
  exact marked.congr (((logged.trans (event ..)).trans (event ..)).trans (State.keepsBlk_sendIrq ..))

/-- HBM_TEMP after a readout: the temperature, and the highest yet. -/
def tempWord (w : Word) (temp : BitVec 8) : Word := setBits (setBits w 7 0 temp.toNat) 15 8 (max temp.toNat (bits w 15 8))

theorem bits_tempWord_now (w : Word) (temp : BitVec 8) : bits (tempWord w temp) 7 0 = temp.toNat := by
  rw [tempWord, bits_setBits_below _ _ (by decide) (by decide) (by decide), bits_setBits_same _ _ (by decide) (by decide)]
  exact Nat.mod_eq_of_lt temp.isLt

theorem bits_tempWord_max (w : Word) (temp : BitVec 8) : bits (tempWord w temp) 15 8 = max temp.toNat (bits w 15 8) := by
  rw [tempWord, bits_setBits_same _ _ (by decide) (by decide)]
  exact Nat.mod_eq_of_lt (max_lt temp.isLt (bits_lt w 15 8))

/-- The reading known, and written to HBM_TEMP (R350, R455). -/
def State.readTemp (s : State) (st t : Nat) : State :=
  let s := { s with supply := { s.supply with heat := put (fun _ => 0) s.supply.heat st t } }
  (s.setFld (stackDie st) .HBM_TEMP 0 7 0 t).setFld (stackDie st) .HBM_TEMP 0 15 8 (max t (s.fld (stackDie st) .HBM_TEMP 0 15 8))

theorem State.shows_readTemp (s : State) (st : Nat) (temp : BitVec 8) : (s.readTemp st temp.toNat).Shows (stackDie st)
    (tempWord (s.reg (stackDie st) .HBM_TEMP 0) temp) (s.flag (stackDie st) .HBM_STAT 0 1) := by
  refine ⟨?_, congrArg (bit · 1) ((State.stat_setTemp ..).trans (State.stat_setTemp ..))⟩
  rw [State.readTemp, State.reg_setFld_self, State.reg_setFld_self]
  rfl

/-- The throttle step that a reading gives a stack (R350). -/
def State.throttled (s : State) (st t : Nat) : State :=
  State.stackStep { s with supply := { s.supply with
    hTemp := put (fun _ => 0) s.supply.hTemp st (tempStep (look (fun _ => 0) s.supply.hTemp st) t) } } st

theorem State.Shows.throttled {s : State} {st : Nat} {w : Word} {tripped : Bool} (h : s.Shows (stackDie st) w tripped) (t : Nat) :
    (s.throttled st t).Shows (stackDie st) w tripped :=
  State.Shows.stackStep (t := { s with supply := _ }) ⟨h.temp, h.trip⟩

/-- A readout of a running stack: one that has tripped shows it, another is throttled, and trips at 100 °C. -/
theorem execStackTempReadout_reads (temp : BitVec 8) (hs : s.stopped = false) (hup : s.flag (stackDie st.val) .HBM_STAT 0 0 = true) :
    execStackTempReadout st temp s = done (if (s.readTemp st.val temp.toNat).flag (stackDie st.val) .HBM_STAT 0 1 = true then
      s.readTemp st.val temp.toNat
    else if 100 ≤ temp.toNat then ((s.readTemp st.val temp.toNat).throttled st.val temp.toNat).stackTrip st.val
    else (s.readTemp st.val temp.toNat).throttled st.val temp.toNat) := by
  have goes : ¬ (s.stopped || !s.flag (stackDie st.val) .HBM_STAT 0 0) = true := by rw [hs, hup]; decide
  exact congrArg done (if_neg goes)

/-- What it shows then: its temperatures, and whether it has tripped. -/
theorem execStackTempReadout_shows (temp : BitVec 8) (hs : s.stopped = false) (hup : s.flag (stackDie st.val) .HBM_STAT 0 0 = true) :
    ∃ t : State, execStackTempReadout st temp s = done t ∧ t.Shows (stackDie st.val) (tempWord (s.reg (stackDie st.val) .HBM_TEMP 0) temp)
      (s.flag (stackDie st.val) .HBM_STAT 0 1 || decide (100 ≤ temp.toNat)) := by
  refine ⟨_, execStackTempReadout_reads temp hs hup, ?_⟩
  have read := s.shows_readTemp st.val temp
  have throttled := read.throttled temp.toNat
  rw [read.trip]
  cases hflag : s.flag (stackDie st.val) .HBM_STAT 0 1
  case true =>
    rw [if_pos rfl, Bool.true_or, ← hflag]
    exact read
  case false =>
    rw [if_neg (by decide), Bool.false_or]
    by_cases hot : 100 ≤ temp.toNat
    · rw [if_pos hot, decide_eq_true hot]
      exact throttled.stackTrip
    · rw [if_neg hot, decide_eq_false hot, ← hflag]
      exact throttled

end Readouts

/-! ### Fences (R353) -/

/-- The fences asked for are added; each new one's log entry leaves the register alone. -/
theorem State.pend_wrPmapPend (s : State) {j : Nat} (v : Word) (hj : j < 4) :
    (s.wrPmapPend j v).reg 24 .PMAP_PEND j = s.reg 24 .PMAP_PEND j ||| v := by
  have logged (l : List Nat) (t : State) : t.KeepsBlk 0x0E (l.foldl (fun s i =>
      s.logErr (stackDie ((64 * j + i) / 16)) 0x0C 2 5 ⟨stackDie ((64 * j + i) / 16), 5⟩ none false (64 * j + i)) t) :=
    State.keepsBlk_foldl (fun u _ => u.keepsBlk_logErr (by decide) (by decide) _ _ _ _ _ _ _ (by decide)) l t
  exact ((logged _ _).reg 24 .PMAP_PEND j rfl (by simp only [regInfo]; omega)).trans (s.regW_setRegW_self ..)

/-! ### Tile stores (R357) -/

theorem execTileStorePatrol_finds {s : State} {d : CDie} {line : BitVec 25} (bad : BitVec 2) (hs : s.stopped = false) (hfill : d.val ∉ s.tileFill)
    (hline : 64 * line.toNat < 0x7C000000) (hpoison : s.poisonedAt (tileBase + 0x80000000 * d.val + 64 * line.toNat) = false) :
    execTileStorePatrol d line bad s = done (if bad = 1 then s.corrected d.val 6 1
      else if bad = 2 then (s.setPoison (tileBase + 0x80000000 * d.val + 64 * line.toNat) true).logErr d.val 0x02 1 6 ⟨d.val, 6⟩
        (some (tileBase + 0x80000000 * d.val + 64 * line.toNat)) true 0
      else s) := by
  unfold execTileStorePatrol
  dsimp only
  rw [if_neg (by simp [hs, hfill, hline, hpoison])]

/-! ### Retraining (R354) -/

theorem execHbmRetrainDone_waiting {s : State} {st : Stack} (h : st.val ∈ s.hbmWait) : execHbmRetrainDone st s =
    done ((({ s with hbmWait := s.hbmWait.filter (· != st.val) }).setFld (stackDie st.val) .HBM_STAT 0 0 0 1).setFld (stackDie st.val)
      .HBM_STAT 0 5 5 (b2n s.supply.warn)) := by
  unfold execHbmRetrainDone
  rw [if_pos (List.contains_iff_mem.mpr h)]

/-! ### Margin tests (R355) -/

section Margin

variable {s : State} {d : Nat} {v : Word}

/-- HBM_MRG after a write of every bit: RUN, bit 17, is not kept. -/
def mrgWord (old v : Word) : Word := (old &&& ~~~0x1FFFF) ||| (v &&& 0x1FFFF)

theorem plainWrite_hbmMrg (old v : Word) : plainWrite (regInfo .HBM_MRG) old v (BitVec.allOnes 64) = mrgWord old v := by
  simp only [plainWrite, regInfo, mrgWord, BitVec.ofNat_eq_ofNat, BitVec.and_allOnes, BitVec.and_zero, BitVec.not_zero, BitVec.or_zero]

/-- A field of HBM_MRG below RUN takes what was written. -/
theorem bits_mrgWord (old v : Word) {hi lo : Nat} (h : hi < 17) : bits (mrgWord old v) hi lo = bits v hi lo := by
  have mask : ∀ i < 17, (0x1FFFF : Word).getLsbD i = true := by decide
  refine Nat.eq_of_testBit_eq fun i => ?_
  rw [testBit_bits, testBit_bits]
  by_cases hi : i < hi + 1 - lo
  · have hb := mask (lo + i) (by omega)
    simp only [bit, mrgWord, BitVec.getLsbD_or, BitVec.getLsbD_and, BitVec.getLsbD_not, hb, Bool.not_true, Bool.and_false, Bool.false_or,
      Bool.and_true]
  · rw [decide_eq_false hi, Bool.false_and, Bool.false_and]

theorem State.wrHbmMrg_locked (m : Word) (h : s.flag 24 .SEC_DBG 0 1 = false) : s.wrHbmMrg d v m = s := if_pos (by rw [h]; rfl)

/-- Without RUN, an unlocked write sets the fields. -/
theorem State.wrHbmMrg_sets (hopen : s.flag 24 .SEC_DBG 0 1 = true) (hrun : bit v 17 = false) :
    s.wrHbmMrg d v (BitVec.allOnes 64) = s.setReg d .HBM_MRG 0 (mrgWord (s.reg d .HBM_MRG 0) v) := by
  unfold State.wrHbmMrg
  simp only [hopen, BitVec.and_allOnes, hrun, plainWrite_hbmMrg, Bool.not_true, Bool.false_and, Bool.false_eq_true, if_false, Bool.not_false, if_true]

/-- With RUN while a test runs, a write sets nothing. -/
theorem State.wrHbmMrg_running (hopen : s.flag 24 .SEC_DBG 0 1 = true) (hrun : bit v 17 = true) (hbusy : s.flag d .HBM_MRG_RES 0 33 = true) :
    s.wrHbmMrg d v (BitVec.allOnes 64) = s := by
  unfold State.wrHbmMrg
  simp only [hopen, BitVec.and_allOnes, hrun, hbusy, Bool.not_true, Bool.and_self, Bool.false_eq_true, if_false, if_true]

/-- RUN with a reference in range starts a test on the pseudo-channel that the register then names. -/
theorem State.wrHbmMrg_starts (hopen : s.flag 24 .SEC_DBG 0 1 = true) (hrun : bit v 17 = true) (hidle : s.flag d .HBM_MRG_RES 0 33 = false)
    (hwarn : s.supply.warn = false) (hlow : -10 ≤ (BitVec.ofNat 5 (bits v 16 12)).toInt) (hhigh : (BitVec.ofNat 5 (bits v 16 12)).toInt ≤ 10) :
    s.wrHbmMrg d v (BitVec.allOnes 64) = { ((s.setReg d .HBM_MRG 0 (mrgWord (s.reg d .HBM_MRG 0) v)).setFld d .HBM_MRG_RES 0 34 32 2) with
      supply := { s.supply with margin := put (fun _ => 0) s.supply.margin d (bits v 4 0) } } := by
  have fields {hi lo : Nat} (h : hi < 17) : (s.setReg d .HBM_MRG 0 (mrgWord (s.reg d .HBM_MRG 0) v)).fld d .HBM_MRG 0 hi lo = bits v hi lo := by
    rw [State.fld, show State.reg (s.setReg d .HBM_MRG 0 _) d .HBM_MRG 0 = _ from s.regW_setRegW_self .., bits_mrgWord _ _ h]
  have supply : (s.setReg d .HBM_MRG 0 (mrgWord (s.reg d .HBM_MRG 0) v)).supply = s.supply := rfl
  have inRange : ¬ ((BitVec.ofNat 5 (bits v 16 12)).toInt < -10 ∨ 10 < (BitVec.ofNat 5 (bits v 16 12)).toInt) := by omega
  unfold State.wrHbmMrg
  simp only [hopen, BitVec.and_allOnes, hrun, hidle, plainWrite_hbmMrg, fields (show 16 < 17 by decide), fields (show 4 < 17 by decide), supply, hwarn,
    inRange, Bool.not_true, Bool.and_false, Bool.false_eq_true, if_false]

theorem execHbmMrgRun_arrives {b : State} {q : Src} {st : Stack} (v : Word) (h : b.regAccess q (stackDie st.val) .HBM_MRG 0 = (true, s)) :
    execHbmMrgRun q st v b = done (s.wrHbmMrg (stackDie st.val) v (BitVec.allOnes 64)) := regCmd_arrives _ h

/-- A running test ends with its errors, DONE set and RUN clear. -/
theorem execMarginTestDone_ends {st : Stack} (errs : BitVec 32) (hs : s.stopped = false)
    (hrun : s.flag (stackDie st.val) .HBM_MRG_RES 0 33 = true) : ∃ u : State, execMarginTestDone st errs s =
      done ((u.setFld (stackDie st.val) .HBM_MRG_RES 0 31 0 errs.toNat).setFld (stackDie st.val) .HBM_MRG_RES 0 33 32 1) := by
  unfold execMarginTestDone
  dsimp only
  rw [if_neg (by rw [hs, hrun]; decide)]
  exact ⟨_, rfl⟩

theorem State.res_ended (s : State) (d n : Nat) : ((s.setFld d .HBM_MRG_RES 0 31 0 n).setFld d .HBM_MRG_RES 0 33 32 1).reg d .HBM_MRG_RES 0 =
    setBits (setBits (s.reg d .HBM_MRG_RES 0) 31 0 n) 33 32 1 := by
  rw [State.reg_setFld_self, State.reg_setFld_self]

end Margin

/-- Settles O43: what a controller finds is `State.sectorFound_eq`, its write is `execHbmWrite_writes`, a readout is
`execStackTempReadout_shows`, a margin test is `State.wrHbmMrg_starts` and `execMarginTestDone_ends`; neither log entries nor ERR_HEALTH touch the
registers of the stacks or of the Patch map (`State.KeepsBlk`). -/
theorem hbmCommands : Obligations.HbmCommands := by
  unfold Obligations.HbmCommands
  intro s hs out found
  have settled (b : Nat) (herr : b ≠ 0x04) (hmc : b ≠ 0x06) (t : State) : t.KeepsBlk b t.settle := t.keepsBlk_settle herr hmc
  refine ⟨fun pa ch pc h hon hwarn bad => ?_, fun pa ch pc h => ⟨fun rd ru bad => ?_, fun rd ru data poisoned bad _ hlen =>
      execHbmWrite_writes rd ru poisoned bad h hlen⟩, fun st counts hup => execEcsReadout_counts counts hs hup, fun st temp hup => ?_,
    fun q j v u hu => ?_, fun d line bad hfill hline hpoison => execTileStorePatrol_finds bad hs hfill hline hpoison, fun d => rfl,
    fun st h => execHbmRetrainDone_waiting h, fun q st v errs => ⟨fun b hb hlock => ?_, fun b hb hopen => ⟨fun hrun => ?_,
      fun hrun hbusy => ?_, fun hrun hidle hwarn hlow hhigh => ?_⟩, fun hrun => ?_⟩⟩
  · exact (execPatrolScrub_serves bad h hon hwarn).trans (congrArg done (State.sectorFound_eq ..))
  · exact (execHbmRead_serves rd ru bad h).trans (congrArg done (State.sectorFound_eq ..))
  · obtain ⟨t, ht, hshows⟩ := execStackTempReadout_shows temp hs hup
    have shown := hshows.congr (settled 0x17 (by decide) (by decide) t)
    exact ⟨_, ht, (congrArg (bits · 7 0) shown.temp).trans (bits_tempWord_now ..), (congrArg (bits · 15 8) shown.temp).trans (bits_tempWord_max ..),
      shown.trip⟩
  · exact ⟨_, regCmd_arrives _ hu, ((settled 0x0E (by decide) (by decide) _).reg 24 .PMAP_PEND j.toNat rfl (by simp only [regInfo]; omega)).trans
      (u.pend_wrPmapPend v j.isLt)⟩
  · exact (execHbmMrgRun_arrives v hb).trans (congrArg done (State.wrHbmMrg_locked _ hlock))
  · exact (execHbmMrgRun_arrives v hb).trans (congrArg done (State.wrHbmMrg_sets hopen hrun))
  · exact (execHbmMrgRun_arrives v hb).trans (congrArg done (State.wrHbmMrg_running hopen hrun hbusy))
  · exact (execHbmMrgRun_arrives v hb).trans (congrArg done (State.wrHbmMrg_starts hopen hrun hidle hwarn hlow hhigh))
  · obtain ⟨u, hu⟩ := execMarginTestDone_ends errs hs hrun
    have shown := ((settled 0x17 (by decide) (by decide) _).reg (stackDie st.val) .HBM_MRG_RES 0 rfl (by decide)).trans
      (u.res_ended (stackDie st.val) errs.toNat)
    refine ⟨_, hu, ?_, ?_, ?_⟩
    · rw [State.fld, shown, bits_setBits_below _ _ (by decide) (by decide) (by decide), bits_setBits_same _ _ (by decide) (by decide)]
      exact Nat.mod_eq_of_lt errs.isLt
    · rw [State.flag, shown, bit_setBits _ _ (by decide) (by decide)]
      rfl
    · rw [State.flag, shown, bit_setBits _ _ (by decide) (by decide)]
      rfl

end Sys2Proof.Machine

/-! SUPPORT. A link's record under an update, and the flits that a link receives, replays and acknowledges, with the credit it returns
(R362, R366, R367, R370). -/

namespace Sys2Proof.Machine

open Sys2Proof

/-! ### A link's record -/

@[simp] theorem State.link_setLink_self (s : State) (l : LinkId) (k : Link) : (s.setLink l k).link l = k := by
  cases l <;> simp [State.setLink, State.link]

theorem State.link_updLink_self (s : State) (l : LinkId) (f : Link → Link) : (s.updLink l f).link l = f (s.link l) := s.link_setLink_self ..

/-- States with the same links hold the same record of each. -/
theorem State.link_congr {s t : State} (h : t.links = s.links) (l : LinkId) : t.link l = s.link l :=
  congrArg (fun m => look (fun _ => ({} : Link)) m (linkIdx l)) h

/-! ### A codeword received (R362, R366, R367) -/

section Received

variable {s : State} {l : LinkId} (ha : (s.link l).state = 5)

/-- A good codeword: a corrected one is counted on the Agdoa link, the run of bad ones ends, and its ACK is taken. -/
def State.goodCodeword (s : State) (l : LinkId) (fixed : Bool) (ack : Option (BitVec 9)) : State :=
  State.setLink (if l = .agd ∧ fixed = true then s.countReg 24 .AGD_FECC 0 1 else s) l
    (match ack with | some a => Link.ackTo { s.link l with badRun := 0 } a.toNat | none => { s.link l with badRun := 0 })

/-- The count of an uncorrectable codeword, which the Agdoa link alone keeps. -/
def State.badCodeword (s : State) (l : LinkId) : State := if l = .agd then s.countReg 24 .AGD_FECU 0 1 else s

@[simp] theorem State.link_badCodeword (s : State) (l : LinkId) : (s.badCodeword l).link l = s.link l := by
  cases l <;> rfl

include ha

/-- Of a good codeword a flit that comes next is accepted, with what R372 discards of it. -/
theorem execFlitReceive_good (fixed seqd : Bool) (fseq : BitVec 9) (ack : Option (BitVec 9)) (odd : List OddPkt) :
    execFlitReceive l false fixed seqd fseq ack odd s = done (
      let u := s.goodCodeword l fixed ack
      if seqd && (u.link l).rx % 512 == fseq.toNat then
        odd.foldl (fun v p => v.discardOdd l p) (u.setLink l (Link.pump { u.link l with rx := (u.link l).rx + 1, skipping := false }))
      else u) := by
  unfold execFlitReceive
  dsimp only
  rw [if_neg (by simp [ha]), if_neg Bool.false_ne_true]
  cases l with
  | agd => cases fixed <;> rfl
  | twn => rfl
  | hwk => rfl

/-- The sixteenth uncorrectable codeword in a row puts the link in RECOVERY (R365); any other is discarded, with a NAK when it starts an episode. -/
theorem execFlitReceive_bad (fixed seqd : Bool) (fseq : BitVec 9) (ack : Option (BitVec 9)) (odd : List OddPkt) :
    execFlitReceive l true fixed seqd fseq ack odd s = done (
      let e := s.badCodeword l
      if 16 ≤ (s.link l).badRun + 1 then e.recoverLink l
      else
        let u := e.setLink l { s.link l with badRun := (s.link l).badRun + 1, skipping := true }
        if (s.link l).skipping then u else u.send l { type := 0x01, a := 1, b := (s.link l).rx % 512, data := List.replicate 16 0 }) := by
  unfold execFlitReceive
  dsimp only
  rw [if_neg (by simp [ha]), if_pos rfl]
  cases l <;> rfl

end Received

/-! ### Replays (R367) -/

/-- Consecutive replays that begin at flit n, this one included. -/
def Link.replaysAt (k : Link) (n : Nat) : Nat := if k.replays ≠ 0 ∧ k.replayAt = n then k.replays + 1 else 1

/-- A link that replays from flit n: the control word is again that of its last flit. -/
def Link.replaying (k : Link) (n : Nat) : Link := { k with replayAt := n, replays := k.replaysAt n, fcw := k.fcwOf (some (k.tx - 1)) }

theorem State.replayFrom_recovers {s : State} {l : LinkId} {n : Nat} (h : 8 ≤ (s.link l).replaysAt n) : s.replayFrom l n = s.recoverLink l :=
  if_pos h

theorem State.replayFrom_replays {s : State} {l : LinkId} {n : Nat} (h : (s.link l).replaysAt n < 8) (hl : l ≠ .agd) :
    s.replayFrom l n = s.setLink l ((s.link l).replaying n) := by
  refine (if_neg (Nat.not_le.mpr h)).trans ?_
  cases l with
  | agd => exact absurd rfl hl
  | twn => rfl
  | hwk => rfl

/-- On the Agdoa link a replay is counted, and a replayed TSREQ spoils its exchange (R386). -/
theorem State.replayFrom_agd {s : State} {n : Nat} (h : (s.link .agd).replaysAt n < 8) :
    let u := s.setLink .agd ((s.link .agd).replaying n)
    s.replayFrom .agd n = State.countReg (if (s.link .agd).sent.any fun e => e.2.type == 0x50 && decide (n ≤ e.1) then
      { u with sync := { u.sync with spoilt := true } } else u) 24 .AGD_REPLAY 0 1 := by
  refine (if_neg (Nat.not_le.mpr h)).trans ?_
  rfl

section Active

variable {s : State} {l : LinkId} (ha : (s.link l).state = 5)

include ha

/-- A NAK replays from the flit it names, if that has been sent. -/
theorem execNak_replays {seq : BitVec 9}
    (h : (s.link l).acked + (seq.toNat + 512 - (s.link l).acked % 512) % 512 < (s.link l).tx) :
    execNak l seq s = done (s.replayFrom l ((s.link l).acked + (seq.toNat + 512 - (s.link l).acked % 512) % 512)) :=
  congrArg done (if_pos ⟨ha, h⟩)

theorem execAckTimeoutReplay_replays (h : (s.link l).acked < (s.link l).tx) :
    execAckTimeoutReplay l s = done (s.replayFrom l (s.link l).acked) :=
  congrArg done (if_pos ⟨ha, h⟩)

/-! ### Credit (R370) -/

theorem execLctl_adds (req rsp evt mgt : BitVec 16) {a b c d : Nat} (h : (s.link l).credit = [a, b, c, d]) :
    execLctl l req rsp evt mgt s = done (s.setLink l (Link.pump { s.link l with
      credit := [a + req.toNat, b + rsp.toNat, c + evt.toNat, d + mgt.toNat] })) := by
  refine congrArg done ((if_pos ha).trans ?_)
  rw [State.updLink, h]
  rfl

theorem execCreditReturnSend_returns (h : (s.link l).owed.any (· != 0) = true) :
    execCreditReturnSend l s = done (State.send (s.setLink l { s.link l with owed := [0, 0, 0, 0] }) l
      { type := 0x01, a := 2, data := (((s.link l).owed.take 4).flatMap fun n => toBytes 2 n) ++ List.replicate 8 0 }) :=
  congrArg done (if_pos ⟨ha, h⟩)

end Active

/-- Settles O46: each command of an ACTIVE link is its one effect on the link's record; a replay is counted from where the last one began. -/
theorem flitsAndCredit : Obligations.FlitsAndCredit := by
  intro s l ha k out
  refine ⟨fun fixed seqd fseq ack odd => ⟨fun hseqd hnext => ?_, fun hother => ?_, fun hrun => ?_, fun hrun => ?_⟩,
    fun seq h => execNak_replays ha h, fun h => execAckTimeoutReplay_replays ha h,
    fun n => ⟨fun h => State.replayFrom_recovers h, fun h => ⟨fun hl => State.replayFrom_replays h hl, fun hl => ?_⟩⟩,
    fun req rsp evt mgt a b c d h => execLctl_adds ha req rsp evt mgt h, fun h => execCreditReturnSend_returns ha h⟩
  · have taken : (seqd && ((s.goodCodeword l fixed ack).link l).rx % 512 == fseq.toNat) = true := by
      rw [hseqd, Bool.true_and]
      exact beq_iff_eq.mpr hnext
    exact (execFlitReceive_good ha fixed seqd fseq ack odd).trans (congrArg done (if_pos taken))
  · have passed : ¬ (seqd && ((s.goodCodeword l fixed ack).link l).rx % 512 == fseq.toNat) = true := by
      rw [Bool.and_eq_true, beq_iff_eq]
      rintro ⟨hseqd, hnext⟩
      exact hother.elim (fun h => absurd (h.symm.trans hseqd) (by decide)) (fun h => h hnext)
    exact (execFlitReceive_good ha fixed seqd fseq ack odd).trans (congrArg done (if_neg passed))
  · exact (execFlitReceive_bad ha fixed seqd fseq ack odd).trans (congrArg done (if_neg (Nat.not_le.mpr (Nat.succ_lt_succ hrun))))
  · exact (execFlitReceive_bad ha fixed seqd fseq ack odd).trans (congrArg done (if_pos (Nat.succ_le_succ hrun)))
  · subst hl
    exact State.replayFrom_agd h

end Sys2Proof.Machine

/-! SUPPORT. Fabric time: exchanges with the adapter, the discipline they and the TIME_PPS edges apply, and what ends or holds it (R385–R391). -/

namespace Sys2Proof.Machine

open Sys2Proof

/-! ### What the discipline leaves of an exchange's report (R388, R389) -/

theorem State.stat_setFreq (s : State) (hi lo v : Nat) : (s.setFld 24 .AGD_TFREQ 0 hi lo v).reg 24 .AGD_TSTAT 0 = s.reg 24 .AGD_TSTAT 0 :=
  s.regW_setRegW_ne _ (by decide)

theorem State.flag_setFreq (s : State) (hi lo v b : Nat) : (s.setFld 24 .AGD_TFREQ 0 hi lo v).flag 24 .AGD_TSTAT 0 b = s.flag 24 .AGD_TSTAT 0 b := by
  rw [State.flag, State.stat_setFreq, State.flag]

theorem State.report_setFreq (s : State) (hi lo v : Nat) : (s.setFld 24 .AGD_TFREQ 0 hi lo v).reg 24 .AGD_TOFS 0 = s.reg 24 .AGD_TOFS 0 :=
  s.regW_setRegW_ne _ (by decide)

theorem State.report_setStat (s : State) (hi lo v : Nat) : (s.setFld 24 .AGD_TSTAT 0 hi lo v).reg 24 .AGD_TOFS 0 = s.reg 24 .AGD_TOFS 0 :=
  s.regW_setRegW_ne _ (by decide)

/-- State t has of s the outstanding exchange, t1 of the last accepted one, the report in AGD_TOFS, and HOLD; where fabric time is valid in s it
is so in t. -/
structure State.KeepsReport (s t : State) : Prop where
  out : t.sync.out = s.sync.out
  lastT1 : t.sync.lastT1 = s.sync.lastT1
  report : t.reg 24 .AGD_TOFS 0 = s.reg 24 .AGD_TOFS 0
  hold : t.flag 24 .AGD_TSTAT 0 1 = s.flag 24 .AGD_TSTAT 0 1
  valid : s.flag 24 .AGD_TSTAT 0 0 = true → t.flag 24 .AGD_TSTAT 0 0 = true

theorem State.KeepsReport.refl (s : State) : s.KeepsReport s := ⟨rfl, rfl, rfl, rfl, id⟩

theorem State.KeepsReport.trans {s t u : State} (h : s.KeepsReport t) (k : t.KeepsReport u) : s.KeepsReport u :=
  ⟨k.out.trans h.out, k.lastT1.trans h.lastT1, k.report.trans h.report, k.hold.trans h.hold, fun hv => k.valid (h.valid hv)⟩

/-- States with the same registers and the same exchanges. -/
theorem State.KeepsReport.of_regs {s t : State} (hregs : t.regs = s.regs) (hout : t.sync.out = s.sync.out) (hlast : t.sync.lastT1 = s.sync.lastT1) :
    s.KeepsReport t := by
  have same (r : RegName) : t.reg 24 r 0 = s.reg 24 r 0 := by rw [State.reg, State.reg, State.regW, State.regW, hregs]
  exact ⟨hout, hlast, same _, congrArg (bit · 1) (same _), (congrArg (bit · 0) (same _)).trans⟩

theorem State.keepsReport_stepTime (s : State) (h : Nat) : s.KeepsReport (s.stepTime h) := by
  unfold State.stepTime
  exact .of_regs rfl rfl rfl

theorem State.keepsReport_setFreq (s : State) (hi lo v : Nat) : s.KeepsReport (s.setFld 24 .AGD_TFREQ 0 hi lo v) :=
  ⟨rfl, rfl, s.report_setFreq hi lo v, s.flag_setFreq hi lo v 1, (s.flag_setFreq hi lo v 0).trans⟩

/-- Fields of AGD_TSTAT above VALID and HOLD. -/
theorem State.keepsReport_setStat (s : State) {hi lo : Nat} (v : Nat) (h : lo ≤ hi) (habove : 1 < lo) :
    s.KeepsReport (s.setFld 24 .AGD_TSTAT 0 hi lo v) := by
  have below {b : Nat} (hb : b < 2) : (s.setFld 24 .AGD_TSTAT 0 hi lo v).flag 24 .AGD_TSTAT 0 b = s.flag 24 .AGD_TSTAT 0 b := by
    rw [State.flag_setFld_self _ _ _ _ _ h (by omega), if_neg (by omega)]
  exact ⟨rfl, rfl, s.report_setStat hi lo v, below (by decide), (below (by decide)).trans⟩

theorem State.keepsReport_setValid (s : State) : s.KeepsReport (s.setFld 24 .AGD_TSTAT 0 0 0 1) :=
  ⟨rfl, rfl, s.report_setStat 0 0 1, s.flag_setFld_bit 24 .AGD_TSTAT 0 0 1 (b := 1) (by decide),
    fun _ => s.flag_setFld_bit 24 .AGD_TSTAT 0 0 1 (b := 0) (by decide)⟩

theorem State.keepsReport_ratio (s : State) (n d : Int) : s.KeepsReport (s.ratio n d).2 := by
  unfold State.ratio
  dsimp only
  split
  · exact .refl s
  · exact .of_regs rfl rfl rfl

/-- SLEW and its end stand beside the exchange. -/
theorem State.keepsReport_slew (s : State) (slew : Int) (slewEnd : Nat) :
    s.KeepsReport { s with sync := { s.sync with slew, slewEnd } } := .of_regs rfl rfl rfl

theorem State.keepsReport_steer (s : State) (theta t : Int) : s.KeepsReport (s.steer theta t) := by
  unfold State.steer
  extract_lets a b freq u
  split
  · exact .refl s
  · have quotients : s.KeepsReport b.2 := (s.keepsReport_ratio _ _).trans (State.keepsReport_ratio ..)
    exact (quotients.trans (State.keepsReport_setFreq ..)).trans (State.keepsReport_slew ..)

/-- Fabric time at its first discipline: stepped forward where it is behind, valid, FREQ and SLEW 0 (R389). -/
def State.firstSet (s : State) (theta : Int) : State :=
  let u := if 0 < theta then s.stepTime theta.toNat else s
  let v := (u.setFld 24 .AGD_TSTAT 0 0 0 1).setFld 24 .AGD_TFREQ 0 31 0 0
  { v with sync := { v.sync with slew := 0 } }

theorem State.discipline_first {s : State} (theta t : Int) (full : Bool) (h : s.flag 24 .AGD_TSTAT 0 0 = false) :
    s.discipline theta t full = s.firstSet theta := if_pos (by rw [h]; rfl)

theorem State.keepsReport_firstSet (s : State) (theta : Int) : s.KeepsReport (s.firstSet theta) := by
  unfold State.firstSet
  extract_lets u v
  have stepped : s.KeepsReport u := by
    unfold u
    split
    · exact s.keepsReport_stepTime _
    · exact .refl s
  exact ((stepped.trans (State.keepsReport_setValid _)).trans (State.keepsReport_setFreq ..)).trans (v.keepsReport_slew 0 v.sync.slewEnd)

theorem State.reg_withSync (s : State) (x : TimeSync) (d : Nat) (r : RegName) (i : Nat) :
    ({ s with sync := x } : State).reg d r i = s.reg d r i := rfl

theorem State.valid_firstSet (s : State) (theta : Int) : (s.firstSet theta).flag 24 .AGD_TSTAT 0 0 = true := by
  rw [State.firstSet, State.flag, State.reg_withSync, State.stat_setFreq]
  exact State.flag_setFld_bit _ 24 .AGD_TSTAT 0 0 1 (b := 0) (by decide)

theorem State.freq_firstSet (s : State) (theta : Int) : (s.firstSet theta).fld 24 .AGD_TFREQ 0 31 0 = 0 := by
  rw [State.firstSet, State.fld, State.reg_withSync, State.reg_setFld_self, bits_setBits_same _ _ (by decide) (by decide)]
  rfl

/-- Time that is not behind is not stepped. -/
theorem State.time_firstSet (s : State) {theta : Int} (h : theta ≤ 0) : (s.firstSet theta).time = s.time := by
  unfold State.firstSet
  rw [if_neg (Int.not_lt.mpr h)]
  rfl

/-- The branches of R389 in turn. -/
theorem State.keepsReport_discipline (s : State) (theta t : Int) (full : Bool) : s.KeepsReport (s.discipline theta t full) := by
  unfold State.discipline
  extract_lets step u v
  split
  · exact s.keepsReport_firstSet theta
  split
  · exact (s.keepsReport_stepTime _).trans (State.keepsReport_setStat _ _ (by decide) (by decide))
  split
  · exact .refl s
  · refine .trans ?_ (State.keepsReport_steer ..)
    split
    · exact s.keepsReport_setStat _ (by decide) (by decide)
    · exact .refl s

/-- Once disciplined, fabric time is valid. -/
theorem State.valid_discipline (s : State) (theta t : Int) (full : Bool) : (s.discipline theta t full).flag 24 .AGD_TSTAT 0 0 = true := by
  cases h : s.flag 24 .AGD_TSTAT 0 0 with
  | false => rw [State.discipline_first theta t full h, State.valid_firstSet]
  | true => exact (s.keepsReport_discipline theta t full).valid h

/-! ### Exchanges (R386–R388, R390) -/

/-- An accepted exchange's report and end, before it acts on fabric time. -/
def State.reported (s : State) (t1 : Nat) (d theta : Int) : State :=
  let u := (s.setReg 24 .AGD_TOFS 0 (BitVec.ofInt 32 d ++ BitVec.ofInt 32 (theta.tdiv 2))).setFld 24 .AGD_TSTAT 0 1 1 0
  { u with sync := { u.sync with out := none, lastT1 := some t1, accAt := u.time, stepped := 0 } }

theorem State.acceptExchange_eq (s : State) (t1 : Nat) (d theta : Int) :
    ∃ t full, s.acceptExchange t1 d theta = (s.reported t1 d theta).discipline theta t full := ⟨_, _, rfl⟩

theorem State.report_reported (s : State) (t1 : Nat) (d theta : Int) :
    (s.reported t1 d theta).reg 24 .AGD_TOFS 0 = (BitVec.ofInt 32 d ++ BitVec.ofInt 32 (theta.tdiv 2) : BitVec 64) := by
  rw [State.reported, State.reg_withSync, State.report_setStat]
  exact s.regW_setRegW_self ..

theorem State.hold_reported (s : State) (t1 : Nat) (d theta : Int) : (s.reported t1 d theta).flag 24 .AGD_TSTAT 0 1 = false :=
  State.flag_setFld_bit _ 24 .AGD_TSTAT 0 1 0 (b := 1) (by decide)

/-- An exchange starts when TSYNC is enabled, the link ACTIVE, none outstanding, the interval over, and TSREQ can go at once (R386). -/
theorem execTimeExchangeStart_starts {s : State} (hsync : s.flag 24 .AGD_TCFG 0 1 = true) (ha : (s.link .agd).state = 5)
    (hout : s.sync.out = none) (hint : s.sync.lastStart + s.tsyncInt ≤ s.time)
    (hfits : (s.link .agd).fits { type := 0x50, a := s.sync.id, b := s.time } = true) (hwait : ∀ p ∈ (s.link .agd).wait, pktClass p.type ≠ 3) :
    execTimeExchangeStart s = done (State.send { s with sync := { s.sync with
      out := some (s.sync.id, s.time), id := (s.sync.id + 1) % 65536, lastStart := s.time, spoilt := false } } .agd
      { type := 0x50, a := s.sync.id, b := s.time }) := by
  have none_waits : ((s.link .agd).wait.any fun w => pktClass w.type == 3) = false := by simpa using hwait
  refine congrArg done (if_pos ?_)
  simp [hsync, ha, hout, hint, hfits, none_waits]

/-- The least of a list and a bound lies below c when one of them does. -/
theorem foldl_min_lt (l : List Int) (a c : Int) : l.foldl min a < c ↔ a < c ∨ ∃ x ∈ l, x < c := by
  induction l generalizing a with
  | nil => simp
  | cons b l ih => simp [ih, or_assoc]

/-- A delay is more than 40 ns over the least of the last 16, its own among them, when one of the 15 before it shows that (R387). -/
theorem least_exceeded (d : Int) (l : List Int) :
    ((d :: l).take 16).foldl min d + 40 < d ↔ ∃ x ∈ l.take 15, x + 40 < d := by
  rw [List.take_succ_cons, ← lt_sub_iff_add_lt, foldl_min_lt]
  simp [lt_sub_iff_add_lt]

section Response

variable {s : State} (ha : (s.link .agd).state = 5) {oid t1 : Nat} (hout : s.sync.out = some (oid, t1))

/-- An exchange's delay and offset at the time of its TSRSP (R388). -/
def State.exchangeDelay (s : State) (t1 : Nat) (t2 t3 : Word) : Int := ((s.time : Int) - t1) - ((t3.toNat : Int) - t2.toNat)

def State.exchangeOffset (s : State) (t1 : Nat) (t2 t3 : Word) : Int :=
  ((t2.toNat : Int) - t1) - ((s.time : Int) - t3.toNat) + (BitVec.ofNat 16 ((s.owe .agd 3 2).fld 24 .AGD_TASYM 0 15 0)).toInt

/-- The state with a delay among the last 16. -/
def State.noteDelay (s : State) (d : Int) : State := { s with sync := { s.sync with delays := (d :: s.sync.delays).take 16 } }

include ha hout

/-- The checks of R387 in turn. -/
theorem execTsrsp_outstanding (id : BitVec 16) (t2 t3 : Word) :
    execTsrsp id t2 t3 s = done (
      let o := s.owe .agd 3 2
      let d := s.exchangeDelay t1 t2 t3
      if oid ≠ id.toNat ∨ t1 + 100000 < s.time ∨ s.sync.spoilt = true then o.rejectExchange
      else if d < 0 ∨ (o.fld 24 .AGD_TCFG 0 47 32 : Int) < d then o.rejectExchange
      else if ((d :: s.sync.delays).take 16).foldl min d + 40 < d then (o.noteDelay d).rejectExchange
      else (o.noteDelay d).acceptExchange t1 d (s.exchangeOffset t1 t2 t3)) := by
  have owed : (s.owe .agd 3 2).sync.out = some (oid, t1) := hout
  unfold execTsrsp
  rw [if_neg (by simp [ha])]
  dsimp only
  rw [owed]
  rfl

/-- A TSRSP of another exchange, late, after a step or a replay, or with a delay out of bounds rejects the exchange. -/
theorem execTsrsp_rejects {id : BitVec 16} {t2 t3 : Word}
    (h : oid ≠ id.toNat ∨ t1 + 100000 < s.time ∨ s.sync.spoilt = true ∨ s.exchangeDelay t1 t2 t3 < 0
      ∨ ((s.owe .agd 3 2).fld 24 .AGD_TCFG 0 47 32 : Int) < s.exchangeDelay t1 t2 t3) :
    execTsrsp id t2 t3 s = done (s.owe .agd 3 2).rejectExchange := by
  refine (execTsrsp_outstanding ha hout id t2 t3).trans (congrArg done ?_)
  dsimp only
  by_cases hin : oid ≠ id.toNat ∨ t1 + 100000 < s.time ∨ s.sync.spoilt = true
  · exact if_pos hin
  · rw [if_neg hin, if_pos]
    obtain h | h | h | h := h
    · exact absurd (.inl h) hin
    · exact absurd (.inr (.inl h)) hin
    · exact absurd (.inr (.inr h)) hin
    · exact h

/-- The delay of a TSRSP in time joins the last 16, whose least decides. -/
theorem execTsrsp_inTime {id : BitVec 16} {t2 t3 : Word} (hid : oid = id.toNat) (htime : s.time ≤ t1 + 100000) (hclean : s.sync.spoilt = false)
    (h0 : 0 ≤ s.exchangeDelay t1 t2 t3) (hmax : s.exchangeDelay t1 t2 t3 ≤ ((s.owe .agd 3 2).fld 24 .AGD_TCFG 0 47 32 : Int)) :
    execTsrsp id t2 t3 s = done (
    let d := s.exchangeDelay t1 t2 t3
    let o := (s.owe .agd 3 2).noteDelay d
    if ∃ x ∈ s.sync.delays.take 15, x + 40 < d then o.rejectExchange else o.acceptExchange t1 d (s.exchangeOffset t1 t2 t3)) := by
  refine (execTsrsp_outstanding ha hout id t2 t3).trans (congrArg done ?_)
  dsimp only
  rw [if_neg (by simp [hid, hclean, htime]), if_neg (by omega)]
  simp only [least_exceeded]

end Response

/-- An exchange without a TSRSP for 100 µs is rejected (R387). -/
theorem execTimeExchangeTimeout_rejects {s : State} {e : Nat × Nat} (hout : s.sync.out = some e) (h : e.2 + 100000 < s.time) :
    execTimeExchangeTimeout s = done s.rejectExchange := by
  unfold execTimeExchangeTimeout
  rw [hout]
  exact congrArg done (if_pos h)

theorem execHoldTimeout_holds {s : State} (hrun : s.timeRuns = true) (h : s.sync.accAt + 16 * s.tsyncInt ≤ s.time) :
    execHoldTimeout s = done (s.setFld 24 .AGD_TSTAT 0 1 1 1) :=
  congrArg done (if_pos (by rw [hrun, decide_eq_true h]; rfl))

/-! ### TIME_PPS (R391) -/

/-- Fabric time past AGD_PPSOFS, in half nanoseconds. -/
def State.ppsTime (s : State) : Int :=
  2 * (s.time : Int) + (s.frac : Int) / 2 ^ 31 - 2 * ((s.fld 24 .AGD_PPSOFS 0 29 0 % 1000000000 : Nat) : Int)

/-- ε of an edge now: how far it lies from the nearest second. -/
def State.edgeOffset (s : State) : Int := (s.ppsTime + 1000000000) % 2000000000 - 1000000000

/-- The second an edge now lies nearest to. -/
def State.edgeSecond (s : State) : Int := (s.ppsTime + 1000000000).fdiv 2000000000

/-- An edge is not used soon after a used one or after a step, or too far from its second. -/
def State.EdgeUnused (s : State) : Prop :=
  (∃ t, s.sync.ppsAt = some t ∧ s.time < t + 500000000) ∨ (∃ t, s.sync.stepAt = some t ∧ s.time < t + 1000) ∨
    2000 * s.fld 24 .AGD_TCFG 0 63 48 < s.edgeOffset.natAbs

/-- A used edge as it is recorded, before it disciplines fabric time. -/
def State.edgeUsed (s : State) : State :=
  { s.setFld 24 .AGD_TSTAT 0 3 3 1 with
    sync := { s.sync with ppsEps := s.edgeOffset, ppsAt := some s.time, ppsMiss := 0, ppsSec := some s.edgeSecond } }

/-- Is fabric time within a span after a moment, if there has been one? -/
theorem within_span_iff (o : Option Nat) (now span : Nat) :
    (match o with | some t => decide (now < t + span) | none => false) = true ↔ ∃ t, o = some t ∧ now < t + span := by
  cases o <;> simp

section Edge

variable {s : State} (hrun : s.timeRuns = true) (hpin : s.pinHeld 11 = false) (hsrc : s.flag 24 .AGD_TCFG 0 0 = true)

include hrun hpin hsrc

theorem execTimePpsEdge_eq [Decidable s.EdgeUnused] : execTimePpsEdge s = done (if s.EdgeUnused then s.ppsUnused s.edgeSecond
    else s.edgeUsed.discipline (-s.edgeOffset) (2000000000 - s.sync.ppsEps + s.edgeOffset) true) := by
  unfold execTimePpsEdge
  rw [if_neg (by simp [hrun, hpin, hsrc])]
  extract_lets sec e q eps n soon stepped t u v
  have unused : (soon || stepped || decide (2000 * (s.fld 24 .AGD_TCFG 0 63 48 : Int) < eps.natAbs)) = true ↔ s.EdgeUnused := by
    rw [Bool.or_eq_true, Bool.or_eq_true, decide_eq_true_iff, or_assoc]
    refine or_congr (within_span_iff ..) (or_congr (within_span_iff ..) ?_)
    exact_mod_cast Iff.rfl
  by_cases h : s.EdgeUnused
  · rw [if_pos h, if_pos (unused.mpr h)]
    rfl
  · rw [if_neg h, if_neg (mt unused.mp h)]
    rfl

end Edge

/-- Three edges missed, or none for three seconds and the window (R391). -/
theorem execPpsLost_lost {s : State} (hrun : s.timeRuns = true) (hsrc : s.flag 24 .AGD_TCFG 0 0 = true)
    (h : 3 ≤ s.sync.ppsMiss ∨ s.sync.ppsAt.getD 0 + 3000000000 + 1000 * s.fld 24 .AGD_TCFG 0 63 48 < s.time) :
    execPpsLost s = done { (s.setFld 24 .AGD_TSTAT 0 4 4 1).setFld 24 .AGD_TSTAT 0 3 3 0 with
      sync := { s.sync with ppsMiss := max 3 s.sync.ppsMiss } } := by
  refine congrArg done (if_pos ?_)
  rw [hrun, hsrc, Bool.true_and, Bool.true_and, Bool.or_eq_true, decide_eq_true_iff, decide_eq_true_iff]
  exact h

/-- Settles O48: each command is its own effect under its conditions; what an accepted exchange reports, no branch of the discipline changes
(`State.keepsReport_discipline`). -/
theorem timeSync : Obligations.TimeSync := by
  classical
  intro s out k
  refine ⟨execTimeExchangeStart_starts, fun id t2 t3 oid t1 ha hout => ⟨fun h => execTsrsp_rejects ha hout h,
      fun hid htime hclean h0 hmax hleast => ?_, fun hid htime hclean h0 hmax hover => ?_⟩,
    fun t1 d theta => ?_, fun theta span full hfirst => ?_, fun e hout h => execTimeExchangeTimeout_rejects hout h,
    fun h => congrArg done (if_pos h), execHoldTimeout_holds, fun hrun hpin hsrc => ⟨fun hskip => ?_, fun hskip => ?_⟩, execPpsLost_lost⟩
  · exact (execTsrsp_inTime ha hout hid htime hclean h0 hmax).trans (congrArg done (if_neg fun ⟨x, hx, hlt⟩ => Int.not_lt.mpr (hleast x hx) hlt))
  · exact (execTsrsp_inTime ha hout hid htime hclean h0 hmax).trans (congrArg done (if_pos hover))
  · obtain ⟨t, full, h⟩ := s.acceptExchange_eq t1 d theta
    have kept := (s.reported t1 d theta).keepsReport_discipline theta t full
    rw [h]
    exact ⟨kept.report.trans (s.report_reported t1 d theta), kept.hold.trans (s.hold_reported t1 d theta), State.valid_discipline ..,
      kept.out, kept.lastT1⟩
  · rw [State.discipline_first theta span full hfirst]
    exact ⟨s.valid_firstSet theta, s.freq_firstSet theta, rfl, s.time_firstSet⟩
  · exact (execTimePpsEdge_eq hrun hpin hsrc).trans (congrArg done (if_pos hskip))
  · exact (execTimePpsEdge_eq hrun hpin hsrc).trans (congrArg done (if_neg hskip))

end Sys2Proof.Machine

/-! SUPPORT. The links' states: what training, PARAM, RECOVERY and a fall to DETECT leave in a link's record, and what the log entries, the
session and the cartridge that go with them leave of it (R363–R365, R369, R393, R415). -/

namespace Sys2Proof.Machine

open Sys2Proof

/-! ### All that a log entry changes (R468, R470, R498) -/

/-- State s with the registers, the interrupts on their way, the logs and the counter of free values of t. -/
def State.withLogs (s t : State) : State :=
  { s with regs := t.regs, free := t.free, flight := t.flight, errOrder := t.errOrder, mclog := t.mclog }

/-- State t differs from s in those alone. -/
def State.LogsOnly (s t : State) : Prop := t = s.withLogs t

theorem State.LogsOnly.refl (s : State) : s.LogsOnly s := rfl

theorem State.LogsOnly.trans {s t u : State} (h : s.LogsOnly t) (k : t.LogsOnly u) : s.LogsOnly u :=
  Eq.trans (b := t.withLogs u) k (congrArg (a₂ := s.withLogs t) (State.withLogs · u) h)

theorem State.LogsOnly.of {α : Type} {s t : State} {r : α × State} {a : α} (e : r = (a, t)) (h : s.LogsOnly r.2) : s.LogsOnly t := by
  subst e; exact h

theorem State.logsOnly_foldl {α : Type} {f : State → α → State} (hf : ∀ (t : State) (a : α), t.LogsOnly (f t a)) (l : List α) (s : State) :
    s.LogsOnly (l.foldl f s) := by
  induction l generalizing s with
  | nil => exact .refl s
  | cons a l ih => exact (hf s a).trans (ih _)

theorem State.logsOnly_setRegW (s : State) (d : Nat) (r : RegName) (i w : Nat) (v : Word) : s.LogsOnly (s.setRegW d r i w v) := rfl

theorem State.logsOnly_setFld (s : State) (d : Nat) (r : RegName) (i hi lo v : Nat) : s.LogsOnly (s.setFld d r i hi lo v) :=
  s.logsOnly_setRegW ..

theorem State.logsOnly_sendIrq (s : State) (route die : Nat) : s.LogsOnly (s.sendIrq route die) := by
  unfold State.sendIrq
  dsimp only
  split <;> rfl

theorem State.logsOnly_choose (s : State) (l : List Nat) : s.LogsOnly (s.choose l).2 := by
  unfold State.choose
  split <;> rfl

theorem State.logsOnly_mcLog (s : State) (kind sev die p0 p1 p2 : Nat) : s.LogsOnly (s.mcLog kind sev die p0 p1 p2) := by
  unfold State.mcLog
  dsimp only
  split <;> rfl

theorem State.logsOnly_setReplace (s : State) : s.LogsOnly s.setReplace := by
  unfold State.setReplace
  split
  · exact .refl s
  · exact (s.logsOnly_setRegW ..).trans (State.logsOnly_mcLog ..)

theorem State.logsOnly_settle (s : State) : s.LogsOnly s.settle := by
  unfold State.settle
  dsimp only
  split
  · exact s.logsOnly_setReplace.trans (State.logsOnly_setRegW ..)
  · exact s.logsOnly_setRegW ..

theorem State.logsOnly_errOrder (s : State) (x : Sparse (List Nat)) : s.LogsOnly { s with errOrder := x } := rfl

/-- The steps of a log entry in turn: the count of its unit, the entry, the MC's, the interrupt and REPLACE. -/
theorem State.logsOnly_logErr (s : State) (die cls sev unit : Nat) (q : Req) (addr : Option Nat) (poison : Bool) (info : Nat) :
    s.LogsOnly (s.logErr die cls sev unit q addr poison info) := by
  unfold State.logErr
  extract_lets s1 dw0 a order s2 s3 s4
  have counted : s.LogsOnly s1 := by
    unfold s1
    split
    · exact s.logsOnly_setRegW ..
    · exact .refl s
  have logged : s1.LogsOnly s2 := by
    have chosen := s1.logsOnly_choose ((List.range 64).filter fun i => !order.contains i)
    unfold s2
    split
    next h => exact (chosen.of h).trans (State.logsOnly_setRegW ..)
    next i u h =>
      have written (v : State) (w : Nat) (x : Word) : v.LogsOnly (v.setRegW die .ERR_LOG i w x) := v.logsOnly_setRegW ..
      refine .trans (.trans ?_ (State.logsOnly_errOrder _ _)) (State.logsOnly_setRegW ..)
      exact ((((chosen.of h).trans (written _ 0 _)).trans (written _ 1 _)).trans (written _ 2 _)).trans (written _ 3 _)
  have reported : s2.LogsOnly s3 := State.logsOnly_mcLog ..
  have sent : s3.LogsOnly s4 := by
    unfold s4
    split
    · exact State.logsOnly_sendIrq ..
    · exact .refl s3
  have all := ((counted.trans logged).trans reported).trans sent
  split
  · exact all.trans (State.logsOnly_setReplace _)
  · exact all

theorem State.logsOnly_errResponse (s : State) (gen code unit : Nat) (q : Req) (pa : Nat) : s.LogsOnly (s.errResponse gen code unit q pa) := by
  unfold State.errResponse
  exact s.logsOnly_logErr ..

/-! ### What leaves the links alone -/

/-- State t has of s the links, the twin session, and the snapshot. -/
structure State.KeepsLinks (s t : State) : Prop where
  links : t.links = s.links
  twin : t.twin = s.twin
  snap : t.snap = s.snap

theorem State.KeepsLinks.refl (s : State) : s.KeepsLinks s := ⟨rfl, rfl, rfl⟩

theorem State.KeepsLinks.trans {s t u : State} (h : s.KeepsLinks t) (k : t.KeepsLinks u) : s.KeepsLinks u :=
  ⟨k.links.trans h.links, k.twin.trans h.twin, k.snap.trans h.snap⟩

theorem State.KeepsLinks.link {s t : State} (h : s.KeepsLinks t) (l : LinkId) : t.link l = s.link l := State.link_congr h.links l

theorem State.LogsOnly.keepsLinks {s t : State} (h : s.LogsOnly t) : s.KeepsLinks t :=
  ⟨congrArg (a₂ := s.withLogs t) State.links h, congrArg (a₂ := s.withLogs t) State.twin h, congrArg (a₂ := s.withLogs t) State.snap h⟩

theorem State.link_settle (s : State) (l : LinkId) : s.settle.link l = s.link l := s.logsOnly_settle.keepsLinks.link l

theorem State.logsOnly_logLink (s : State) (l : LinkId) (width : Nat) : s.LogsOnly (s.logLink l width) := by
  unfold State.logLink
  exact s.logsOnly_logErr ..

theorem State.logsOnly_countRecov (s : State) (l : LinkId) (retrain : Bool) : s.LogsOnly (s.countRecov l retrain) := by
  unfold State.countRecov
  split
  · split <;> exact s.logsOnly_setFld ..
  · exact .refl s

/-- The device reads that fail are logged. -/
theorem State.keepsLinks_failDrds (s : State) : s.KeepsLinks s.failDrds := by
  unfold State.failDrds
  dsimp only
  refine .trans ?_ (State.logsOnly_foldl (fun t _ => t.logsOnly_errResponse ..) _ _).keepsLinks
  exact ⟨rfl, rfl, rfl⟩

/-- The requests to the cartridge that fail are logged. -/
theorem State.keepsLinks_hawkDown (s : State) : s.KeepsLinks s.hawkDown := by
  unfold State.hawkDown
  dsimp only
  refine .trans ?_ (State.logsOnly_foldl (fun t _ => t.logsOnly_errResponse ..) _ _).keepsLinks
  exact ⟨rfl, rfl, rfl⟩

theorem State.keepsLinks_hawkInserted (s : State) : s.KeepsLinks s.hawkInserted := by
  unfold State.hawkInserted
  split
  · exact ⟨rfl, rfl, rfl⟩
  · exact .refl s

theorem State.keepsLinks_stage (s : State) (kind ncont stream seq : Nat) (payload : List Byte) :
    s.KeepsLinks (s.stage kind ncont stream seq payload) := by
  unfold State.stage
  extract_lets lsn w0 w1 bs
  obtain ⟨m, h⟩ := s.homeWrite_eq (stagingBase + 64 * (lsn % 1048576)) bs false
  rw [h]
  refine .trans ?_ (State.logsOnly_setRegW ..).keepsLinks
  exact ⟨rfl, rfl, rfl⟩

theorem State.keepsLinks_stageRecord (s : State) (kind : Nat) (first : List Byte) :
    s.KeepsLinks (s.stageRecord kind first []) := by
  unfold State.stageRecord
  split
  · exact ⟨rfl, rfl, rfl⟩
  · exact s.keepsLinks_stage ..

/-- A tier that does not run has no end (R411). -/
theorem State.endTier_idle {s : State} (t status : Nat) (h : s.snap = none) : s.endTier t status = s :=
  if_neg (by simp [State.tierRuns, h])

/-! ### Packets that go, and the state of their link (R369) -/

theorem Link.state_pumpOver (k : Link) (blocked : List Nat) (ps : List Pkt) : (k.pumpOver blocked ps).1.state = k.state := by
  induction ps generalizing k blocked with
  | nil => rfl
  | cons p ps ih =>
    unfold Link.pumpOver
    dsimp only
    split
    · exact (ih _ _).trans rfl
    · exact ih _ _

@[simp] theorem Link.state_pump (k : Link) : k.pump.state = k.state := by
  unfold Link.pump
  dsimp only
  split
  · split <;> exact k.state_pumpOver [] k.wait
  · rfl

/-- With nothing waiting, an idle flit alone goes. -/
theorem Link.pump_idle {k : Link} (ha : k.state = 5) (hw : k.wait = []) : k.pump = k.idle := by
  cases k
  subst ha hw
  exact (if_pos rfl).trans (if_pos rfl)

theorem State.state_send (s : State) (l : LinkId) (p : Pkt) : ((s.send l p).link l).state = (s.link l).state := by
  rw [State.send, State.link_updLink_self, Link.state_pump]

/-! ### RECOVERY (R365) -/

theorem State.state_recoverLink (s : State) (l : LinkId) : ((s.recoverLink l).link l).state = 6 := by
  unfold State.recoverLink
  rw [((State.logsOnly_countRecov ..).trans (State.logsOnly_logLink ..)).keepsLinks.link, State.link_updLink_self]

/-! ### A link retrained (R363, R365) -/

@[simp] theorem State.setLink_twin (s : State) (l : LinkId) (k : Link) : (s.setLink l k).twin = s.twin := by cases l <;> rfl

@[simp] theorem State.setLink_snap (s : State) (l : LinkId) (k : Link) : (s.setLink l k).snap = s.snap := by cases l <;> rfl

/-- The link itself after a retrain; what else the retrain does follows. -/
def State.detrained (s : State) (l : LinkId) (n : Nat) : State := (s.dropDwrs (s.link l).unsent).updLink l fun k => k.retrained n

theorem State.keepsLinks_retrainLink (s : State) (l : LinkId) (n : Nat) : (s.detrained l n).KeepsLinks (s.retrainLink l n) := by
  unfold State.retrainLink
  extract_lets old s1 s2 s3 sync s4
  have failed : (s.detrained l n).KeepsLinks s4 := by
    unfold s4
    split
    · split
      · exact (State.keepsLinks_failDrds _).trans ⟨rfl, rfl, rfl⟩
      · exact .refl _
    · exact .refl _
  split
  · exact failed.trans (State.logsOnly_countRecov ..).keepsLinks
  · exact failed

theorem State.link_retrainLink (s : State) (l : LinkId) (n : Nat) : (s.retrainLink l n).link l = (s.link l).retrained n :=
  ((s.keepsLinks_retrainLink l n).link l).trans (State.link_updLink_self ..)

theorem State.twin_retrainLink (s : State) (l : LinkId) (n : Nat) : (s.retrainLink l n).twin = s.twin :=
  (s.keepsLinks_retrainLink l n).twin.trans (State.setLink_twin ..)

theorem State.snap_retrainLink (s : State) (l : LinkId) (n : Nat) : (s.retrainLink l n).snap = s.snap :=
  (s.keepsLinks_retrainLink l n).snap.trans (State.setLink_snap ..)

/-! ### A twin session that ends with its link (R393, R397, R401) -/

/-- The twin link without its session: what is protected waits no more, and its keys are erased. -/
def Link.unkeyed (k : Link) : Link := { k with wait := k.wait.filter fun p => !protectedType p.type, key := [], count := 0 }

theorem State.endSession_eq {s : State} (hm : s.twin.mirw = []) : ∃ x, s.endSession = { s.updLink .twn Link.unkeyed with twin := x } := by
  unfold State.endSession
  simp only [hm, List.foldl_nil]
  exact ⟨_, rfl⟩

/-- With no mirror write outstanding, the end of a session leaves the link's state and the snapshot. -/
theorem State.endSession_spec {s : State} (hm : s.twin.mirw = []) :
    (s.endSession.link .twn).state = (s.link .twn).state ∧ s.endSession.snap = s.snap := by
  obtain ⟨x, h⟩ := State.endSession_eq hm
  rw [h]
  exact ⟨(congrArg Link.state (s.link_updLink_self .twn Link.unkeyed)).trans rfl, State.setLink_snap ..⟩

/-- After the session's end, the steps of R401 are registers, a record and log entries. -/
theorem State.keepsLinks_partnerLost {s : State} (h : s.endSession.snap = none) : s.endSession.KeepsLinks s.partnerLost := by
  unfold State.partnerLost
  extract_lets serial dur s1 s2 s3 s4 s5 s6
  have lost : s1.KeepsLinks s2 := ((s1.logsOnly_setFld 24 .TWN_STAT 0 2 0 4).trans (State.logsOnly_setFld _ 24 .TWN_STAT 0 13 13 1)).keepsLinks
  have tier : s3 = s2 := State.endTier_idle 0 2 (lost.snap.trans h)
  have staged : s2.KeepsLinks s4 := by
    unfold s4
    rw [tier]
    exact s2.keepsLinks_stageRecord ..
  have told : s4.LogsOnly s6 := (State.logsOnly_sendIrq ..).trans (State.logsOnly_mcLog ..)
  exact (lost.trans staged).trans (told.trans (State.logsOnly_logErr ..)).keepsLinks

theorem State.state_twinDown {s : State} (present : Bool) (hm : s.twin.mirw = []) (hs : s.snap = none) :
    ((s.twinDown present).link .twn).state = (s.link .twn).state := by
  unfold State.twinDown
  extract_lets st twin s1 s2
  obtain ⟨hstate, hsnap⟩ := State.endSession_spec (s := s1) hm
  have ended : s1.endSession.KeepsLinks s2 := by
    unfold s2
    split
    · exact State.keepsLinks_partnerLost (hsnap.trans hs)
    · exact .refl _
  split
  · exact (congrArg Link.state (ended.link .twn)).trans hstate
  · exact (congrArg Link.state ((ended.trans (State.logsOnly_setFld ..).keepsLinks).link .twn)).trans hstate

/-! ### A fall to DETECT or DISABLED (R363, R393, R418) -/

/-- The state a link falls to: DISABLED where AGD_LCTL.DIS or the absence of a partner holds it there, else DETECT. -/
def State.fallState (s : State) (l : LinkId) : Nat :=
  if (l = .agd ∧ s.flag 24 .AGD_LCTL 0 3 = true) ∨ (l = .twn ∧ s.twinHere = false) then 0 else 1

theorem State.linkToDetect_agd (s : State) : s.linkToDetect .agd = s.retrainLink .agd (s.fallState .agd) := by
  simp [State.linkToDetect, State.fallState]

theorem State.linkToDetect_twn (s : State) :
    s.linkToDetect .twn = State.twinDown (s.retrainLink .twn (s.fallState .twn)) (s.retrainLink .twn (s.fallState .twn)).twinHere := by
  simp [State.linkToDetect, State.fallState]

theorem State.keepsLinks_linkToDetect_hwk {s : State} (h : s.snap = none) :
    (s.retrainLink .hwk (s.fallState .hwk)).KeepsLinks (s.linkToDetect .hwk) := by
  unfold State.linkToDetect
  extract_lets old u v
  have hu : u = s.retrainLink .hwk (s.fallState .hwk) := by simp [u, State.fallState]
  have absent : u.KeepsLinks v := by
    unfold v
    split
    · exact (State.logsOnly_setFld ..).keepsLinks
    · exact .refl _
  rw [← hu]
  dsimp only
  split
  · have down := absent.trans v.keepsLinks_hawkDown
    rw [State.endTier_idle 1 2 (down.snap.trans (by rw [hu, State.snap_retrainLink, h]))]
    exact down
  · exact absent

theorem State.state_linkToDetect {s : State} (l : LinkId) (hm : s.twin.mirw = []) (hs : s.snap = none) :
    ((s.linkToDetect l).link l).state = s.fallState l := by
  cases l with
  | agd => rw [State.linkToDetect_agd, State.link_retrainLink]; rfl
  | twn =>
    rw [State.linkToDetect_twn, State.state_twinDown _ (by rw [State.twin_retrainLink, hm]) (by rw [State.snap_retrainLink, hs]),
      State.link_retrainLink]
    rfl
  | hwk => rw [(State.keepsLinks_linkToDetect_hwk hs).link, State.link_retrainLink]; rfl

/-! ### Commands of a link's state (R363–R365, R369) -/

section States

variable {s : State} {l : LinkId}

/-- A group of 8 lanes that a mask holds whole. -/
theorem laneGroup_of {m : BitVec 32} {g : Nat} (hg : 8 * g < linkLanes l) (h : m.toNat / 2 ^ (8 * g) % 256 = 255) : laneGroup l m = true := by
  have lanes : 8 ∣ linkLanes l := by cases l <;> decide
  exact List.any_eq_true.mpr ⟨g, List.mem_range.mpr (by omega), beq_iff_eq.mpr h⟩

/-- Signal on a group of lanes: DETECT to TRAIN, and nothing else of the link. -/
theorem execLinkSignalDetect_trains {lanes : BitVec 32} (hs : s.stopped = false) (h1 : (s.link l).state = 1) (hl : laneGroup l lanes = true) :
    ∃ u, execLinkSignalDetect l lanes s = done u ∧ u.link l = { s.link l with state := 2 } := by
  have trained := s.link_updLink_self l fun k => { k with state := 2 }
  unfold execLinkSignalDetect
  rw [if_pos (by rw [hs, h1, hl]; rfl)]
  cases l with
  | agd => exact ⟨_, rfl, trained⟩
  | twn => exact ⟨_, rfl, trained⟩
  | hwk => exact ⟨_, rfl, ((State.keepsLinks_hawkInserted _).link .hwk).trans trained⟩

theorem execLinkTrainDone_aligns {good : BitVec 32} (h2 : (s.link l).state = 2) :
    execLinkTrainDone l good s = done (s.setLink l { s.link l with state := 3, good := good.toNat % 2 ^ linkLanes l }) :=
  congrArg done (if_pos (beq_iff_eq.mpr h2))

/-- The least width that ALIGN may choose: AGD_LCTL's on the Agdoa link (R364). -/
def State.leastWidth (s : State) (l : LinkId) : Nat := if l = .agd then s.fld 24 .AGD_LCTL 0 2 1 else 0

/-- ALIGN ends: PARAM with the width chosen and the device's own buffers advertised, or DETECT (R364). -/
theorem execLinkAlignDone_eq (rev : Bool) (pol : BitVec 32) (h3 : (s.link l).state = 3) :
    execLinkAlignDone l rev pol s = done ((chooseWidth l (s.link l).good (s.leastWidth l)).elim (s.linkToDetect l) fun p =>
      s.setLink l { s.link l with
        state := 4, width := p.1, group := p.2, rev := rev, pol := pol.toNat % 2 ^ linkLanes l, adv := advertised l }) := by
  have elim {c : Option (Nat × Nat)} {b : State} {f : Nat → Nat → State} :
      (match c with | some (w, g) => f w g | none => b) = c.elim b fun p => f p.1 p.2 := by cases c <;> rfl
  unfold execLinkAlignDone
  dsimp only
  rw [if_neg (not_not.mpr h3)]
  cases l <;> exact congrArg done elim

/-- A link that becomes ACTIVE: the credits advertised, fresh sequence numbers, the packets that waited sent (R365, R369). -/
def Link.activated (k : Link) (adv : List Nat) (first : List Pkt) : Link :=
  Link.pump { k with
    state := 5, credit := adv, owed := [0, 0, 0, 0], tx := 0, acked := 0, rx := 0, skipping := false, badRun := 0
    replays := 0, relog := false, sent := [], wait := first ++ k.wait }

theorem State.link_activate (s : State) (l : LinkId) (adv : List Nat) (first : List Pkt) :
    (s.activate l adv first).link l = (s.link l).activated adv first := by
  have active := s.link_updLink_self l fun k => k.activated adv first
  unfold State.activate
  dsimp only
  split
  · exact ((State.logsOnly_logLink ..).keepsLinks.link l).trans active
  · exact active

theorem Link.state_activated (k : Link) (adv : List Nat) (first : List Pkt) : (k.activated adv first).state = 5 := Link.state_pump _

theorem Link.credit_activated {k : Link} (adv : List Nat) (h : k.wait = []) : (k.activated adv []).credit = adv := by
  unfold Link.activated
  refine (congrArg Link.credit (Link.pump_idle ?_ ?_)).trans ?_
  exacts [rfl, h, rfl]

/-- Pairing that begins on the twin link leaves it ACTIVE (R401). -/
theorem State.state_twinActive (s : State) : (s.twinActive.link .twn).state = (s.link .twn).state := by
  unfold State.twinActive
  split
  · rfl
  extract_lets st u
  have paired : u.link .twn = s.link .twn := by
    unfold u
    split
    · rfl
    · rfl
  split
  · unfold State.sendHello
    split
    · rw [paired]
    · rw [State.state_send, paired]
  · exact congrArg Link.state paired

/-- PARAM with enough credit advertised: ACTIVE (R369). -/
theorem execLinkParamDone_active {req rsp evt mgt : BitVec 16} (h4 : (s.link l).state = 4)
    (hok : creditsOk l req.toNat rsp.toNat evt.toNat mgt.toNat = true) :
    ∃ u, execLinkParamDone l req rsp evt mgt s = done u ∧ (u.link l).state = 5 ∧
      (l = .hwk → (s.link l).wait = [] → (u.link l).credit = [req.toNat, rsp.toNat, evt.toNat, mgt.toNat]) := by
  have active (t : State) (adv : List Nat) (first : List Pkt) : ((t.activate l adv first).link l).state = 5 := by
    rw [State.link_activate, Link.state_activated]
  unfold execLinkParamDone
  extract_lets sizes seen
  rw [if_neg (not_not.mpr h4), if_neg (by simp [hok])]
  cases l with
  | agd => exact ⟨_, rfl, active .., fun h => absurd h (by decide)⟩
  | twn => exact ⟨_, rfl, (State.state_twinActive _).trans (active ..), fun h => absurd h (by decide)⟩
  | hwk =>
    have verified (t : State) :
        t.KeepsLinks (if t.fld 24 .HWK_STAT 0 2 0 = 1 then t.setFld 24 .HWK_STAT 0 2 0 2 else t) := by
      split
      · exact (t.logsOnly_setFld ..).keepsLinks
      · exact .refl t
    refine ⟨_, rfl, ?_, fun _ hw => ?_⟩
    · exact (congrArg Link.state ((verified _).link .hwk)).trans (active ..)
    · rw [(verified _).link, State.link_activate, Link.credit_activated _ hw]

/-- A shortfall of credit is logged (log entry 23). -/
theorem execLinkParamDone_short {req rsp evt mgt : BitVec 16} (h4 : (s.link l).state = 4)
    (hshort : creditsOk l req.toNat rsp.toNat evt.toNat mgt.toNat = false) :
    execLinkParamDone l req rsp evt mgt s = done (State.logErr
      (if l = .agd then s.setReg 24 .AGD_CRED 0 (mgt ++ evt ++ rsp ++ req) else s) 24 0x11 1 (linkUnit l) ⟨24, linkUnit l⟩ none false 0) := by
  unfold execLinkParamDone
  extract_lets sizes seen
  rw [if_neg (not_not.mpr h4), if_pos (by simp [hshort])]
  cases l <;> rfl

theorem execLinkStateTimeout_falls (h : (s.link l).state ∈ [2, 3, 4, 6]) : execLinkStateTimeout l s = done (s.linkToDetect l) :=
  congrArg done (if_pos h)

theorem execLinkRetrain_falls (h : (s.link l).state = 5 ∨ (s.link l).state = 6) : execLinkRetrain l s = done (s.linkToDetect l) :=
  congrArg done (if_pos h)

theorem execLinkRecovery_recovers (h5 : (s.link l).state = 5) : execLinkRecovery l s = done (s.recoverLink l) := congrArg done (if_pos h5)

/-! ### The end of RECOVERY (R365, R367) -/

/-- Packets that go leave the count of consecutive replays. -/
theorem Link.replays_pumpOver (k : Link) (blocked : List Nat) (ps : List Pkt) :
    (k.pumpOver blocked ps).1.replays = k.replays := by
  induction ps generalizing k blocked with
  | nil => rfl
  | cons p ps ih =>
    unfold Link.pumpOver
    dsimp only
    split
    · exact ih (k.transmit p) _
    · exact ih _ _

theorem Link.replays_pump (k : Link) : k.pump.replays = k.replays := by
  unfold Link.pump
  dsimp only
  split
  · split <;> exact k.replays_pumpOver [] k.wait
  · rfl

/-- Fewer than seven replays in a row leave room for another (R367). -/
theorem Link.replaysAt_lt {k : Link} (n : Nat) (h : k.replays < 7) : k.replaysAt n < 8 := by
  unfold Link.replaysAt
  split <;> omega

/-- A replay leaves the state of its link. -/
theorem State.state_replayFrom {n : Nat} (h : (s.link l).replaysAt n < 8) : ((s.replayFrom l n).link l).state = (s.link l).state := by
  have replaying : ((s.setLink l ((s.link l).replaying n)).link l).state = (s.link l).state := by
    rw [State.link_setLink_self]
    rfl
  cases l with
  | agd =>
    rw [State.replayFrom_agd h]
    refine (congrArg Link.state (State.link_congr (State.setRegW_links ..) .agd)).trans ?_
    split
    · exact replaying
    · exact replaying
  | twn => rw [State.replayFrom_replays h (by decide), replaying]
  | hwk => rw [State.replayFrom_replays h (by decide), replaying]

/-- RECOVERY that regains lock: ACTIVE, with a replay of what is not acknowledged. -/
theorem execLinkRecoveryDone_active (h6 : (s.link l).state = 6) (h7 : (s.link l).replays < 7) :
    ∃ u, execLinkRecoveryDone l s = done u ∧ (u.link l).state = 5 := by
  have active := s.link_updLink_self l fun k => Link.pump { k with state := 5 }
  have state : ((s.updLink l fun k => Link.pump { k with state := 5 }).link l).state = 5 := by rw [active, Link.state_pump]
  have room : ((s.updLink l fun k => Link.pump { k with state := 5 }).link l).replays < 7 := by rwa [active, Link.replays_pump]
  unfold execLinkRecoveryDone
  dsimp only
  rw [if_neg (not_not.mpr h6)]
  refine ⟨_, rfl, ?_⟩
  split
  · rw [State.link_updLink_self]
    exact (State.state_replayFrom (Link.replaysAt_lt _ room)).trans state
  · exact state

end States

/-! ### AGD_LCTL (R363, R365, R392) -/

/-- AGD_LCTL after a write of every bit: RETRAIN reads 0. -/
def lctlWord (old v : Word) : Word := setBit (plainWrite (regInfo .AGD_LCTL) old v (BitVec.allOnes 64)) 0 false

theorem bit_lctlWord_retrain (old v : Word) : bit (lctlWord old v) 0 = false := by
  rw [lctlWord, setBit, bit_setBits _ _ (by decide) (by decide)]
  rfl

/-- DIS takes what was written. -/
theorem bit_lctlWord_dis (old v : Word) : bit (lctlWord old v) 3 = bit v 3 := by
  rw [lctlWord, setBit, bit_setBits _ _ (by decide) (by decide), if_neg (by decide)]
  simp [bit, plainWrite, regInfo]

/-- A retrain changes registers of the Agdoa block beside AGD_LCTL, and those that log entries change. -/
theorem State.lctl_retrainLink (s : State) (n : Nat) : (s.retrainLink .agd n).reg 24 .AGD_LCTL 0 = s.reg 24 .AGD_LCTL 0 := by
  have link (t : State) (k : Link) : (t.setLink .agd k).reg 24 .AGD_LCTL 0 = t.reg 24 .AGD_LCTL 0 :=
    (State.regW_setRegW_ne _ _ (by decide)).trans (State.regW_setRegW_ne _ _ (by decide))
  have reads (t : State) : t.KeepsBlk 0x10 t.failDrds := by
    unfold State.failDrds
    dsimp only
    refine .trans ?_ (State.keepsBlk_foldl (fun u d => ?_) _ _)
    · exact .of_regs rfl
    · exact u.keepsBlk_logErr (by decide) (by decide) _ _ _ _ _ _ _ (by decide)
  have count (t : State) : (t.countRecov .agd true).reg 24 .AGD_LCTL 0 = t.reg 24 .AGD_LCTL 0 := State.regW_setRegW_ne _ _ (by decide)
  unfold State.retrainLink
  extract_lets old s1 s2 s3 sync s4
  have retrained : s2.reg 24 .AGD_LCTL 0 = s.reg 24 .AGD_LCTL 0 := link s1 _
  have failed : s4.reg 24 .AGD_LCTL 0 = s.reg 24 .AGD_LCTL 0 := by
    unfold s4
    split
    · exact ((reads s2).reg 24 .AGD_LCTL 0 rfl (by decide)).trans retrained
    · exact retrained
  split
  · exact (count s4).trans failed
  · exact failed

section Lctl

variable {s : State} {v : Word}

/-- The state with AGD_LCTL written, before the link follows. -/
def State.lctlWritten (s : State) (v : Word) : State := s.setReg 24 .AGD_LCTL 0 (lctlWord (s.reg 24 .AGD_LCTL 0) v)

theorem State.flag_lctlWritten (b : Nat) : (s.lctlWritten v).flag 24 .AGD_LCTL 0 b = bit (lctlWord (s.reg 24 .AGD_LCTL 0) v) b :=
  congrArg (bit · b) (s.regW_setRegW_self ..)

theorem State.dis_lctlWritten : (s.lctlWritten v).flag 24 .AGD_LCTL 0 3 = bit v 3 := by rw [State.flag_lctlWritten, bit_lctlWord_dis]

/-- The link after a write: DISABLED by DIS, DETECT where DIS goes or RETRAIN asks for it, else as it was. -/
theorem State.wrAgdLctl_eq : s.wrAgdLctl v (BitVec.allOnes 64) =
    if bit v 3 = true then (if (s.link .agd).state = 0 then s.lctlWritten v else (s.lctlWritten v).retrainLink .agd 0)
    else if s.flag 24 .AGD_LCTL 0 3 = true then
      (if (s.link .agd).state = 0 then (s.lctlWritten v).updLink .agd fun k => { k with state := 1 } else s.lctlWritten v)
    else if (bit v 0 && (s.link .agd).state != 0) = true then (s.lctlWritten v).retrainLink .agd 1
    else s.lctlWritten v := by
  have whole : bit (v &&& BitVec.allOnes 64) 0 = bit v 0 := by rw [BitVec.and_allOnes]
  rw [← State.dis_lctlWritten (s := s), ← whole]
  rfl

theorem State.state_disabled (h : bit v 3 = true) : ((s.wrAgdLctl v (BitVec.allOnes 64)).link .agd).state = 0 := by
  rw [State.wrAgdLctl_eq, if_pos h]
  split
  · assumption
  · rw [State.link_retrainLink]
    rfl

theorem State.state_enabled (h : bit v 3 = false) (hold : s.flag 24 .AGD_LCTL 0 3 = true) (h0 : (s.link .agd).state = 0) :
    ((s.wrAgdLctl v (BitVec.allOnes 64)).link .agd).state = 1 := by
  rw [State.wrAgdLctl_eq, if_neg (by simp [h]), if_pos hold, if_pos h0, State.link_updLink_self]

theorem State.wrAgdLctl_retrains (h : bit v 3 = false) (hold : s.flag 24 .AGD_LCTL 0 3 = false) (hre : bit v 0 = true)
    (h0 : (s.link .agd).state ≠ 0) : s.wrAgdLctl v (BitVec.allOnes 64) = (s.lctlWritten v).retrainLink .agd 1 := by
  rw [State.wrAgdLctl_eq, if_neg (by simp [h]), if_neg (by simp [hold]), if_pos (by simp [hre, h0])]

/-- A retrain written to AGD_LCTL: DETECT, and RETRAIN reads 0. -/
theorem State.retrain_written (h : bit v 3 = false) (hold : s.flag 24 .AGD_LCTL 0 3 = false) (hre : bit v 0 = true)
    (h0 : (s.link .agd).state ≠ 0) : ((s.wrAgdLctl v (BitVec.allOnes 64)).link .agd).state = 1 ∧
      (s.wrAgdLctl v (BitVec.allOnes 64)).flag 24 .AGD_LCTL 0 0 = false := by
  rw [State.wrAgdLctl_retrains h hold hre h0]
  refine ⟨by rw [State.link_retrainLink]; rfl, ?_⟩
  rw [State.flag, State.lctl_retrainLink]
  exact (State.flag_lctlWritten 0).trans (bit_lctlWord_retrain ..)

end Lctl

/-! ### The obligation -/

/-- A command that ends in a state shows of its link what that state shows. -/
theorem shows_of_done {o : Out} {u : State} {l : LinkId} {n : Nat} (ho : o = done u) (hu : (u.link l).state = n) :
    ∃ t, o = .next t ∧ (t.link l).state = n := ⟨u.settle, ho, by rw [State.link_settle, hu]⟩

/-- Settles O45: each command of a link's state leaves the state R363 gives; what falls with a link (reads, a session without mirror writes, a
cartridge) and what is logged leaves the link's record alone. -/
theorem linkStates : Obligations.LinkStates := by
  intro s l hs k out falls
  have fall {i : Instr} (h : exec i s = done (s.linkToDetect l)) : falls i :=
    ⟨h, fun hm hsnap => shows_of_done h (State.state_linkToDetect l hm hsnap)⟩
  refine ⟨fun lanes h1 ⟨g, hg, hlanes⟩ => ?_, fun good h2 => execLinkTrainDone_aligns h2,
    fun rev pol h3 => ⟨fun w g hw => ?_, fun hw => fall ?_⟩,
    fun req rsp evt mgt h4 => ⟨fun hok => ?_, fun hshort => execLinkParamDone_short h4 hshort⟩,
    fun h => fall (execLinkStateTimeout_falls h), fun h5 => shows_of_done (execLinkRecovery_recovers h5) (s.state_recoverLink l),
    fun h6 h7 => ?_, fun h => fall (execLinkRetrain_falls h),
    fun b q hb => ⟨fun hdis h0 => ?_, fun v => ⟨fun hv => ?_, fun hv hdis h0 => ?_⟩⟩⟩
  · obtain ⟨u, hu, hlink⟩ := execLinkSignalDetect_trains hs h1 (laneGroup_of hg hlanes)
    exact ⟨u.settle, hu, (u.link_settle l).trans hlink⟩
  · exact (execLinkAlignDone_eq rev pol h3).trans (by rw [show chooseWidth l (s.link l).good (s.leastWidth l) = _ from hw]; rfl)
  · exact (execLinkAlignDone_eq rev pol h3).trans (by rw [show chooseWidth l (s.link l).good (s.leastWidth l) = _ from hw]; rfl)
  · obtain ⟨u, hu, hstate, hcredit⟩ := execLinkParamDone_active h4 hok
    refine ⟨u.settle, hu, ?_, fun hl hw => ?_⟩
    · rw [State.link_settle, hstate]
    · rw [State.link_settle, hcredit hl hw]
  · obtain ⟨u, hu, hstate⟩ := execLinkRecoveryDone_active h6 h7
    exact shows_of_done hu hstate
  · have hv : bit (s.reg 24 .AGD_LCTL 0 ||| 1) 3 = false := by simpa [bit, State.flag] using hdis
    obtain ⟨hstate, hflag⟩ := State.retrain_written hv hdis (by simp [bit]) h0
    refine ⟨_, regCmd_arrives _ hb, by rw [State.link_settle, hstate], ?_⟩
    rw [State.flag, State.reg_settle _ (by decide) (by decide) (by decide)]
    exact hflag
  · exact shows_of_done (regCmd_arrives _ hb) (State.state_disabled hv)
  · exact shows_of_done (regCmd_arrives _ hb) (State.state_enabled hv hdis h0)

end Sys2Proof.Machine

/-! SUPPORT. A step of the module, and ERR_HEALTH kept in step with its inputs (R470–R472). -/

namespace Sys2Proof.Machine

open Sys2Proof

/-! ### Steps (log entries 1, 8, 9) -/

theorem step_cons {s : State} {i : Instr} {rest : List Instr} (h : s.pending = i :: rest) : step s = exec i (s.withPending rest) := by
  unfold step
  rw [h]

theorem step_nil {s : State} (h : s.pending = []) : step s = done s.tick := by
  unfold step
  rw [h]

/-- Every step ends with ERR_HEALTH recomputed. -/
theorem ends_step (s : State) : Ends (step s) := by
  cases h : s.pending with
  | nil => exact step_nil h ▸ ends_done _
  | cons i rest => exact step_cons h ▸ ends_exec i _

/-! ### ERR_HEALTH (R470–R472) -/

/-- Registers of dies that lie at another offset of the same die than ERR_HEALTH. -/
theorem State.reg_setHealth (s : State) (v : Word) {d : Nat} {r : RegName} {i : Nat}
    (ho : (regInfo r).off + (regInfo r).stride * i < 0x10000)
    (h : (regInfo r).blk ≠ 0x04 ∨ (regInfo r).off + (regInfo r).stride * i ≠ 0x200) :
    (s.setReg 24 .ERR_HEALTH 0 v).reg d r i = s.reg d r i := by
  refine s.regW_setRegW_ne v fun hk => ?_
  have hlt := regInfo_blk_lt r
  obtain ⟨k, hk'⟩ := dieBase_mul d
  simp only [regKey, hk', regInfo] at *
  generalize (regInfo r).stride * i = x at *
  simp [dieBase] at hk
  omega

/-- ERR_HEALTH is none of its own inputs. -/
theorem State.healthWord_setHealth (s : State) (v : Word) (b : Bool) : (s.setReg 24 .ERR_HEALTH 0 v).healthWord b = s.healthWord b := by
  have four : List.range 4 = [0, 1, 2, 3] := rfl
  have edges : (s.setReg 24 .ERR_HEALTH 0 v).edges = s.edges := rfl
  simp (disch := decide) only [edges, State.healthWord, State.degraded, State.chOut, State.edgesDown, State.narrowed, State.stoppedDies, State.cartCalled,
    State.edge, State.fld, State.flag, four, List.map_cons, List.map_nil, State.reg_setHealth]

/-- REPLACE is bit 1. -/
theorem State.bit_healthWord (s : State) (b : Bool) : bit (s.healthWord b) 1 = b := by
  unfold State.healthWord bit
  rw [BitVec.getLsbD_ofNat, Nat.testBit_eq_decide_div_mod_eq]
  have hcalled : b2n s.cartCalled < 2 := by cases s.cartCalled <;> decide
  have hdegraded : b2n s.degraded < 2 := by cases s.degraded <;> decide
  generalize b2n s.cartCalled = called at *
  generalize b2n s.degraded = degraded at *
  cases b <;> simp [b2n] <;> omega

theorem State.healthInStep_settle (s : State) : s.settle.HealthInStep := by
  have recomputed (t : State) : (t.setReg 24 .ERR_HEALTH 0 (t.healthWord (t.flag 24 .ERR_HEALTH 0 1))).HealthInStep := by
    have word : (t.setReg 24 .ERR_HEALTH 0 (t.healthWord (t.flag 24 .ERR_HEALTH 0 1))).reg 24 .ERR_HEALTH 0 =
      t.healthWord (t.flag 24 .ERR_HEALTH 0 1) := t.regW_setRegW_self ..
    have kept : (t.setReg 24 .ERR_HEALTH 0 (t.healthWord (t.flag 24 .ERR_HEALTH 0 1))).flag 24 .ERR_HEALTH 0 1 = t.flag 24 .ERR_HEALTH 0 1 :=
      (congrArg (bit · 1) word).trans (t.bit_healthWord _)
    rw [State.HealthInStep, kept, State.healthWord_setHealth, word]
  exact recomputed _

/-- Settles O1: a command in front of the queue is executed on the state with the queue's rest (`step_cons`). -/
theorem stepRunsFront : Obligations.StepRunsFront := fun _ _ _ => step_cons

/-- Settles O2: every command and every idle nanosecond ends with ERR_HEALTH recomputed (`ends_step`), and recomputed it reads as its inputs
give it (`State.healthInStep_settle`). -/
theorem stepKeepsHealth : Obligations.StepKeepsHealth := by
  intro s
  obtain ⟨t, h⟩ := ends_step s
  exact ⟨t.settle, h, t.healthInStep_settle⟩

/-- Settles O3: with every register at its reset value, each input gives 0. -/
theorem resetHealth : Obligations.ResetHealth := by
  unfold Obligations.ResetHealth State.HealthInStep
  decide

end Sys2Proof.Machine

/-! SUPPORT. A token offered over the TAP (R488, R489). -/

namespace Sys2Proof.Machine

open Sys2Proof

/-- The module with no reset asserted and debug tokens locked out (R489). -/
def lockedOut : State := State.setFld { State.reset with rst := { asserted := [] } } 24 .SEC_DBG 0 8 8 1

theorem lockout_lockedOut : lockedOut.flag 24 .SEC_DBG 0 8 = true :=
  (State.flag_setFld_bit _ 24 .SEC_DBG 0 8 1 (by decide)).trans (by simp)

theorem State.LogsOnly.tap {s t : State} (h : s.LogsOnly t) : t.tap = s.tap := congrArg (a₂ := s.withLogs t) State.tap h

/-- A token shifted in leaves the TAP in Run-Test/Idle with TRST_N high (R488, R517). -/
theorem execToken_lockout_jtag {s : State} {data : List Byte} (h : s.stopped = false) (hlen : data.length = tokenLen)
    (hlock : s.flag 24 .SEC_DBG 0 8 = true) (htok : s.sec.tok = none) :
    exec (.token true data) s = done (s.tapToken.setFld 24 .SEC_DBG 0 10 9 2) := by
  have checked : ¬ (s.stopped || data.length != tokenLen) = true := by simp [h, hlen]
  have refused : s.tapToken.token data = s.tapToken.setFld 24 .SEC_DBG 0 10 9 2 := if_pos hlock
  have unasked : ¬ s.sec.tok.isSome = true := by simp [htok]
  exact congrArg done ((if_neg checked).trans ((if_neg unasked).trans refused))

/-- Refutes O57: a token refused for LOCKOUT changes more than SEC_DBG.LAST when it comes over the TAP, whose state shifting it in moves. In
`lockedOut` a submission of 3,437 zero bytes leaves TRST_N high, where the statement's state has it low. -/
theorem not_securityCommands : ¬ Obligations.SecurityCommands := by
  intro h
  obtain ⟨-, -, -, -, -, -, token⟩ := h lockedOut
  have hlen : (List.replicate tokenLen (0 : Byte)).length = tokenLen := List.length_replicate
  have refused := (token true (List.replicate tokenLen 0) rfl hlen).2.1 lockout_lockedOut rfl
  rw [execToken_lockout_jtag rfl hlen lockout_lockedOut rfl] at refused
  have same : (lockedOut.tapToken.setFld 24 .SEC_DBG 0 10 9 2).settle = (lockedOut.setFld 24 .SEC_DBG 0 10 9 2).settle :=
    Host.Outcome.next.inj refused
  have tap := congrArg State.tap same
  rw [(State.logsOnly_settle _).tap, (State.logsOnly_settle _).tap] at tap
  exact absurd (congrArg Tap.trst tap) (by decide)

end Sys2Proof.Machine

/-! SUPPORT. What the MC's message commands come to (R500–R506). -/

namespace Sys2Proof.Machine

open Sys2Proof

/-! ### Requests that reach the MC (R500, R506) -/

/-- A request that the recovery responder serves too, or with the MC itself up, is served. -/
theorem mcCmd_serves {b : Bind} {recov : Bool} {s : State} {f : State → State} (h : s.mcReach b = true)
    (hr : recov = true ∨ s.mcRecov = false) : mcCmd b recov s f = done (f s) := by
  have served : ¬ (s.mcRecov && !recov) = true := by rcases hr with hr | hr <;> simp [hr]
  exact congrArg done ((if_neg (by simp [h])).trans (if_neg served))

/-- The recovery responder refuses another request (R506). -/
theorem mcCmd_unsupported {b : Bind} {s : State} {f : State → State} (h : s.mcReach b = true) (hr : s.mcRecov = true) :
    mcCmd b false s f = done (s.answer b .unsupportedPldmCmd []) :=
  congrArg done ((if_neg (by simp [h])).trans (if_pos (by simp [hr])))

/-- The agent of the update in progress is served (R504). -/
theorem updCmd_serves {b : Bind} {s : State} {u : FwUpd} {f : State → FwUpd → State} (h : s.mcReach b = true) (hu : s.mc.upd = some u)
    (ha : u.agent = b) : updCmd b s f = done (f s u) := by
  refine (mcCmd_serves h (.inl rfl)).trans (congrArg done ?_)
  simp [hu, ha]

/-- Without an update there is none to act on (R504). -/
theorem updCmd_idle {b : Bind} {s : State} {f : State → FwUpd → State} (h : s.mcReach b = true) (hu : s.mc.upd = none) :
    updCmd b s f = done (s.answer b .notInUpdateMode []) := by
  refine (mcCmd_serves h (.inl rfl)).trans (congrArg done ?_)
  simp [hu]

/-! ### Events (R502) -/

/-- With no receiver nothing is sent. -/
theorem State.evPump_idle {s : State} (h : s.mc.receiver = none) : s.evPump = s := by simp [State.evPump, h]

theorem State.receiver_answer (s : State) (b : Bind) (code : RCode) (vals : List Nat) :
    (s.answer b code vals).mc.receiver = s.mc.receiver := by
  cases b <;> rfl

/-! ### UPDATECOMPONENT (R504) -/

theorem exec_updatecomponent (b : Bind) (comp : BitVec 16) (stamp size : BitVec 32) (s : State) :
    exec (.updatecomponent b comp stamp size) s = execUpdatecomponent b comp stamp size s := rfl

section
variable {b : Bind} {s : State} {u : FwUpd} (h : s.mcReach b = true) (hu : s.mc.upd = some u) (ha : u.agent = b)
include h hu ha

/-- A firmware image that fits is accepted: its target is erased and the first piece asked for. -/
theorem execUpdatecomponent_firmware {stamp size : BitVec 32} (hstrand : s.wouldStrand (s.updateTarget true (s.fld 24 .SEC_FWSEL 0 1 0)) = false)
    (hstamp : s.stampOk true stamp.toNat = true) (hmin : 0x50 ≤ size.toNat)
    (hmax : size.toNat ≤ (copyBase true (s.updateTarget true (s.fld 24 .SEC_FWSEL 0 1 0))).2) :
    exec (.updatecomponent b 2 stamp size) s =
      let t := s.updateTarget true (s.fld 24 .SEC_FWSEL 0 1 0)
      done (State.mcSend (State.answer (State.setUpd (s.norErase (copyBase true t).1 (copyBase true t).2) (some { u with
        comp := 2, target := t, size := size.toNat, next := 0, head := [], result := 0 })) b .success [1]) b [5, 0, min u.piece size.toNat]) := by
  rw [exec_updatecomponent, execUpdatecomponent, updCmd_serves h hu ha]
  have hmin := Nat.not_lt.mpr hmin
  have hmax := Nat.not_lt.mpr hmax
  simp [State.hasComp, hstrand, hstamp, hmin, hmax]

/-- A Render image that fits, with the MC up and no update in progress, is accepted and its update reported in progress. -/
theorem execUpdatecomponent_render {stamp size : BitVec 32} (hrecov : s.mcRecov = false) (hstop : s.stopped = false) (hphase : s.phase = 0)
    (hupd : s.flag 24 .RND_UPDSTAT 0 0 = false) (hstamp : s.stampOk false stamp.toNat = true) (hmin : 0x50 ≤ size.toNat)
    (hmax : size.toNat ≤ (copyBase false (s.updateTarget false (s.fld 24 .RND_STATUS 0 1 0))).2) :
    exec (.updatecomponent b 1 stamp size) s =
      let t := s.updateTarget false (s.fld 24 .RND_STATUS 0 1 0)
      done (State.mcSend (State.answer (State.setUpd
        ((s.norErase (copyBase false t).1 (copyBase false t).2).setFld 24 .RND_UPDSTAT 0 5 0 1) (some { u with
        comp := 1, target := t, size := size.toNat, next := 0, head := [], result := 0 })) b .success [1]) b [5, 0, min u.piece size.toNat]) := by
  rw [exec_updatecomponent, execUpdatecomponent, updCmd_serves h hu ha]
  have hmin := Nat.not_lt.mpr hmin
  have hmax := Nat.not_lt.mpr hmax
  simp [State.hasComp, hrecov, hstop, hphase, hupd, hstamp, hmin, hmax]

/-- A component that is not one of those served. -/
theorem execUpdatecomponent_unknown {comp : BitVec 16} {stamp size : BitVec 32} (hc : s.hasComp comp.toNat = false) :
    exec (.updatecomponent b comp stamp size) s = done (s.answer b .invalidData []) := by
  rw [exec_updatecomponent, execUpdatecomponent, updCmd_serves h hu ha]
  exact congrArg done (if_pos (by simp [hc]))

/-- A Render update while the module is in reset or loading options, or another one runs, must wait. -/
theorem execUpdatecomponent_notReady {stamp size : BitVec 32} (hrecov : s.mcRecov = false)
    (hbusy : s.stopped = true ∨ s.phase ≠ 0 ∨ s.flag 24 .RND_UPDSTAT 0 0 = true) :
    exec (.updatecomponent b 1 stamp size) s = done (s.answer b .notReady []) := by
  rw [exec_updatecomponent, execUpdatecomponent, updCmd_serves h hu ha]
  refine congrArg done ((if_neg (by simp [State.hasComp, hrecov])).trans (if_pos ?_))
  simpa [or_assoc] using hbusy

/-- A firmware copy whose loss would leave a selection without one is not overwritten. -/
theorem execUpdatecomponent_strands {stamp size : BitVec 32}
    (hstrand : s.wouldStrand (s.updateTarget true (s.fld 24 .SEC_FWSEL 0 1 0)) = true) :
    exec (.updatecomponent b 2 stamp size) s = done (s.answer b .unableToInitiateUpdate []) := by
  rw [exec_updatecomponent, execUpdatecomponent, updCmd_serves h hu ha]
  simp [State.hasComp, hstrand]

end

/-- Settles O59: a request that reaches the MC is served as its function says (`mcCmd_serves`, `updCmd_serves`), and by the recovery responder
only where R506 lets it (`mcCmd_unsupported`). -/
theorem managementMessages : Obligations.ManagementMessages := by
  intro s b h ans
  have served {f : State → State} : mcCmd b true s f = done (f s) := mcCmd_serves h (.inl rfl)
  refine ⟨fun eid => show execSetEndpointId b eid s = _ from served, show execGetEndpointId b s = _ from served,
    show execGetEndpointUuid b s = _ from served, show execGetMctpVersionSupport b s = _ from served,
    show execGetMessageTypeSupport b s = _ from served, fun tid => show execSettid b tid s = _ from served,
    show execGettid b s = _ from served, show execGetpldmtypes b s = _ from served,
    fun ty => ⟨fun hty => ?types, fun hty => ?noTypes⟩, fun hr id size hd on eid => ?responder, fun hr => ?monitoring,
    show execQuerydeviceidentifiers b s = _ from served, ⟨_, show execGetfirmwareparameters b s = _ from served, ?_, ?_⟩,
    fun piece => ⟨fun hu => ?_, fun u hu => ?_⟩,
    fun comp stamp hu => ⟨show execPasscomponenttable b comp stamp s = _ from updCmd_idle h hu, show execCancelupdate b s = _ from updCmd_idle h hu⟩,
    fun u hu ha => ?update, show execGetstatus b s = _ from served⟩
  case types =>
    have listed : s.pldmTypes.contains ty.toNat = true := by simpa using hty
    exact ⟨show execGetpldmversion b ty s = _ from served.trans (congrArg done (if_pos listed)),
      show execGetpldmcommands b ty s = _ from served.trans (congrArg done (if_pos listed))⟩
  case noTypes =>
    have unlisted : ¬ s.pldmTypes.contains ty.toNat = true := by simpa using hty
    exact ⟨show execGetpldmversion b ty s = _ from served.trans (congrArg done (if_neg unlisted)),
      show execGetpldmcommands b ty s = _ from served.trans (congrArg done (if_neg unlisted))⟩
  case responder =>
    have refused {f : State → State} : mcCmd b false s f = done (s.answer b .unsupportedPldmCmd []) := mcCmd_unsupported h hr
    exact ⟨show execGetsensorreading b id s = _ from refused, show execGetpdrrepositoryinfo b s = _ from refused,
      show execGetpdr b hd s = _ from refused, show execSeteventreceiver b on eid s = _ from refused,
      show execGeteventreceiver b s = _ from refused, show execEventmessagebuffersize b size s = _ from refused⟩
  case monitoring =>
    have served {f : State → State} : mcCmd b false s f = done (f s) := mcCmd_serves h (.inr hr)
    refine ⟨fun id => ⟨fun hid => ?_, fun hid => ?_⟩, show execGetpdrrepositoryinfo b s = _ from served, show execGetpdr b 0 s = _ from served,
      fun hd id h0 hid => ?_, fun hd h0 hid => ?_, fun eid => ⟨show execSeteventreceiver b true eid s = _ from served, ?_⟩,
      show execGeteventreceiver b s = _ from served, fun size => show execEventmessagebuffersize b size s = _ from served⟩
    · exact show execGetsensorreading b id s = _ from served.trans (congrArg done (if_pos (by simpa using hid)))
    · refine show execGetsensorreading b id s = _ from served.trans ((congrArg done (if_neg (by simpa using hid))).trans ?_)
      cases look (fun _ => none) s.mc.sensors id.toNat <;> rfl
    · have h0 : hd.toNat ≠ 0 := fun e => h0 (BitVec.eq_of_toNat_eq e)
      refine show execGetpdr b hd s = _ from served.trans (congrArg done ((if_neg h0).trans ?_))
      rw [hid]
    · have h0 : hd.toNat ≠ 0 := fun e => h0 (BitVec.eq_of_toNat_eq e)
      refine show execGetpdr b hd s = _ from served.trans (congrArg done ((if_neg h0).trans ?_))
      rw [hid]
    · exact show execSeteventreceiver b false eid s = _ from served.trans (congrArg done (State.evPump_idle (State.receiver_answer ..)))
  case update =>
    have served {f : State → FwUpd → State} : updCmd b s f = done (f s u) := updCmd_serves h hu ha
    refine ⟨fun comp stamp => show execPasscomponenttable b comp stamp s = _ from served,
      fun stamp size => execUpdatecomponent_firmware h hu ha,
      fun stamp size => execUpdatecomponent_render h hu ha, fun comp stamp size => ⟨execUpdatecomponent_unknown h hu ha, fun hc hr hbusy => ?_,
      fun hc hstrand => ?_⟩, show execActivatefirmware b true s = _ from served, show execActivatefirmware b false s = _ from served,
      show execCancelupdatecomponent b s = _ from served, show execCancelupdate b s = _ from served⟩
    · exact hc ▸ execUpdatecomponent_notReady h hu ha hr hbusy
    · exact hc ▸ execUpdatecomponent_strands h hu ha hstrand
  · intro hr
    simp [hr]
  · intro hr
    simp [hr]
  · exact show execRequestupdate b piece s = _ from served.trans (congrArg done (if_neg (by simp [hu])))
  · exact show execRequestupdate b piece s = _ from served.trans (congrArg done (if_pos (by simp [hu])))

end Sys2Proof.Machine

/-! SUPPORT. Fields of registers: what a replaced field, a plain write and a recomputed ERR_HEALTH leave (R4, R470, R498). -/

namespace Sys2Proof.Machine

open Sys2Proof

/-! ### Replaced fields -/

theorem State.fld_setFld_same (s : State) (d : Nat) (r : RegName) (i : Nat) {hi lo : Nat} (v : Nat) (h : lo ≤ hi) (hw : hi < 64) :
    (s.setFld d r i hi lo v).fld d r i hi lo = v % 2 ^ (hi + 1 - lo) := by
  rw [State.fld, State.reg_setFld_self, bits_setBits_same _ _ h hw]

/-- A field above or below the one replaced. -/
theorem State.fld_setFld_disjoint (s : State) (d : Nat) (r : RegName) (i : Nat) {hi lo hi' lo' : Nat} (v : Nat) (h : lo ≤ hi) (hw : hi < 64)
    (hw' : hi' < 64) (hd : hi' < lo ∨ hi < lo') : (s.setFld d r i hi lo v).fld d r i hi' lo' = s.fld d r i hi' lo' := by
  rw [State.fld, State.reg_setFld_self, State.fld]
  rcases hd with hd | hd
  · exact bits_setBits_below _ _ h hw hd
  · exact bits_setBits_above _ _ h hw' hd

theorem State.reg_setFld_ne (s : State) {d d' : Nat} {r r' : RegName} {i i' : Nat} (hi lo v : Nat) (h : regKey d' r' i' 0 ≠ regKey d r i 0) :
    (s.setFld d r i hi lo v).reg d' r' i' = s.reg d' r' i' :=
  s.regW_setRegW_ne _ h

/-! ### Plain writes (R4) -/

/-- A plain write changes the writable bits, of a register without bits that a write of 1 clears. -/
theorem getLsbD_plainWrite {k : RegInfo} (hc : k.w1c = 0) (old v : Word) {i : Nat} (hi : (BitVec.ofNat 64 k.rw).getLsbD i = true) :
    (plainWrite k old v (BitVec.allOnes 64)).getLsbD i = v.getLsbD i := by
  simp only [plainWrite, hc, BitVec.and_allOnes, BitVec.and_zero, BitVec.not_zero, BitVec.getLsbD_or, BitVec.getLsbD_and, BitVec.getLsbD_not, hi,
    Bool.not_true, Bool.and_false, Bool.false_or, Bool.and_true, Bool.or_eq_left_iff_imp, Bool.and_eq_true, and_imp]
  exact fun h _ => h

theorem bits_plainWrite {k : RegInfo} (hc : k.w1c = 0) (old v : Word) {hi lo : Nat}
    (hrw : ∀ i < hi + 1 - lo, (BitVec.ofNat 64 k.rw).getLsbD (lo + i) = true) :
    bits (plainWrite k old v (BitVec.allOnes 64)) hi lo = bits v hi lo := by
  refine Nat.eq_of_testBit_eq fun i => ?_
  rw [testBit_bits, testBit_bits]
  by_cases h : i < hi + 1 - lo
  · rw [bit, bit, getLsbD_plainWrite hc old v (hrw i h)]
  · rw [decide_eq_false h, Bool.false_and, Bool.false_and]

/-! ### The MC's entries and ERR_HEALTH (R470, R498) -/

/-- A log entry changes no register but MC_STAT. -/
theorem State.regW_mcLog (s : State) (kind sev die p0 p1 p2 : Nat) {d i w : Nat} {r : RegName} (h : regKey d r i w ≠ regKey 24 .MC_STAT 0 0) :
    (s.mcLog kind sev die p0 p1 p2).regW d r i w = s.regW d r i w := by
  unfold State.mcLog
  dsimp only
  split
  · exact State.regW_setRegW_ne _ _ h
  · rfl

/-- An entry dropped is counted in MC_STAT's upper half. -/
theorem State.fld_mcLog_mcStat (s : State) (kind sev die p0 p1 p2 : Nat) {hi lo : Nat} (h : hi < 16) :
    (s.mcLog kind sev die p0 p1 p2).fld 24 .MC_STAT 0 hi lo = s.fld 24 .MC_STAT 0 hi lo := by
  unfold State.mcLog
  dsimp only
  split
  · exact State.fld_setFld_disjoint _ 24 .MC_STAT 0 _ (by decide) (by decide) (by omega) (.inl h)
  · rfl

theorem State.regW_setReplace (s : State) {d i w : Nat} {r : RegName} (hh : regKey d r i w ≠ regKey 24 .ERR_HEALTH 0 0)
    (hm : regKey d r i w ≠ regKey 24 .MC_STAT 0 0) : s.setReplace.regW d r i w = s.regW d r i w := by
  unfold State.setReplace
  split
  · rfl
  · exact (State.regW_mcLog _ _ _ _ _ _ _ hm).trans (State.regW_setRegW_ne _ _ hh)

/-- Recomputing ERR_HEALTH changes no register but it and MC_STAT. -/
theorem State.regW_settle (s : State) {d i w : Nat} {r : RegName} (hh : regKey d r i w ≠ regKey 24 .ERR_HEALTH 0 0)
    (hm : regKey d r i w ≠ regKey 24 .MC_STAT 0 0) : s.settle.regW d r i w = s.regW d r i w := by
  unfold State.settle
  dsimp only
  refine (State.regW_setRegW_ne _ _ hh).trans ?_
  split
  · exact s.regW_setReplace hh hm
  · rfl

theorem State.fld_settle_mcStat (s : State) {hi lo : Nat} (h : hi < 16) : s.settle.fld 24 .MC_STAT 0 hi lo = s.fld 24 .MC_STAT 0 hi lo := by
  have key : regKey 24 .MC_STAT 0 0 ≠ regKey 24 .ERR_HEALTH 0 0 := by decide
  have replace : s.setReplace.fld 24 .MC_STAT 0 hi lo = s.fld 24 .MC_STAT 0 hi lo := by
    unfold State.setReplace
    split
    · rfl
    · exact (State.fld_mcLog_mcStat _ _ _ _ _ _ _ h).trans (congrArg (bits · hi lo) (State.regW_setRegW_ne _ _ key))
  unfold State.settle
  dsimp only
  refine (congrArg (bits · hi lo) (State.regW_setRegW_ne _ _ key)).trans ?_
  split
  · exact replace
  · rfl

/-! ### What else a log entry leaves -/

theorem State.LogsOnly.mc {s t : State} (h : s.LogsOnly t) : t.mc = s.mc := congrArg (a₂ := s.withLogs t) State.mc h
theorem State.LogsOnly.rst {s t : State} (h : s.LogsOnly t) : t.rst = s.rst := congrArg (a₂ := s.withLogs t) State.rst h
theorem State.LogsOnly.cores {s t : State} (h : s.LogsOnly t) : t.cores = s.cores := congrArg (a₂ := s.withLogs t) State.cores h
theorem State.LogsOnly.supply {s t : State} (h : s.LogsOnly t) : t.supply = s.supply := congrArg (a₂ := s.withLogs t) State.supply h
theorem State.LogsOnly.hawk {s t : State} (h : s.LogsOnly t) : t.hawk = s.hawk := congrArg (a₂ := s.withLogs t) State.hawk h
theorem State.LogsOnly.mem {s t : State} (h : s.LogsOnly t) : t.mem = s.mem := congrArg (a₂ := s.withLogs t) State.mem h

theorem State.LogsOnly.core {s t : State} (h : s.LogsOnly t) (c : CoreId) : t.core c = s.core c := by rw [State.core, State.core, h.cores]

end Sys2Proof.Machine

/-! SUPPORT. The management controller: its firmware, sensors, watchdog, log, events, updates and mailbox (R481, R492–R499, R502, R504, R507). -/

namespace Sys2Proof.Machine

open Sys2Proof

/-! ### The selection of its firmware (R481) -/

/-- An extension of a measurement register changes it alone. -/
theorem State.regW_extend (s : State) (i : Nat) (bs : List Byte) {d j w : Nat} {r : RegName}
    (h : ∀ k < 6, regKey d r j w ≠ regKey 24 .SEC_MR i k) : (s.extend i bs).regW d r j w = s.regW d r j w := by
  unfold State.extend
  extract_lets hash
  clear_value hash
  exact List.foldlRecOn (motive := fun t : State => t.regW d r j w = s.regW d r j w) (List.range 6) _ rfl fun t ht k hk =>
    (t.regW_setRegW_ne _ (h k (List.mem_range.mp hk))).trans ht

/-! ### Sensors (R493) -/

/-- What a sample reads is the same: the resets asserted, and every register of another block than the Agdoa link's and the MC's. -/
structure State.SameSensed (s t : State) : Prop where
  rst : t.rst = s.rst
  reg : ∀ (d : Nat) (r : RegName) (i : Nat), (regInfo r).blk ≠ 0x06 → (regInfo r).blk ≠ 0x10 →
    (regInfo r).off + (regInfo r).stride * i < 0x10000 → t.reg d r i = s.reg d r i

/-- Neither what a sample reads nor the samples taken change. -/
structure State.SampleSame (s t : State) : Prop extends s.SameSensed t where
  sensors : t.mc.sensors = s.mc.sensors

theorem State.SameSensed.trans {s t u : State} (h : s.SameSensed t) (k : t.SameSensed u) : s.SameSensed u :=
  ⟨k.rst.trans h.rst, fun d r i hm ha ho => (k.reg d r i hm ha ho).trans (h.reg d r i hm ha ho)⟩

theorem State.SameSensed.of_regs {s t : State} (hregs : t.regs = s.regs) (hrst : t.rst = s.rst) : s.SameSensed t :=
  ⟨hrst, fun d r i _ _ _ => by rw [State.reg, State.reg, State.regW, State.regW, hregs]⟩

theorem State.SampleSame.of_regs {s t : State} (hregs : t.regs = s.regs) (hrst : t.rst = s.rst) (hsens : t.mc.sensors = s.mc.sensors) :
    s.SampleSame t := ⟨.of_regs hregs hrst, hsens⟩

theorem State.SampleSame.refl (s : State) : s.SampleSame s := .of_regs rfl rfl rfl

theorem State.SampleSame.trans {s t u : State} (h : s.SampleSame t) (k : t.SampleSame u) : s.SampleSame u :=
  ⟨h.toSameSensed.trans k.toSameSensed, k.sensors.trans h.sensors⟩

theorem State.sampleSame_foldl {α : Type} {f : State → α → State} (hf : ∀ (t : State) (a : α), t.SampleSame (f t a)) (l : List α) (s : State) :
    s.SampleSame (l.foldl f s) := by
  induction l generalizing s with
  | nil => exact .refl s
  | cons a l ih => exact (hf s a).trans (ih _)

theorem State.sampleSame_mcLog (s : State) (kind sev die p0 p1 p2 : Nat) : s.SampleSame (s.mcLog kind sev die p0 p1 p2) :=
  ⟨⟨(s.logsOnly_mcLog ..).rst, fun d _ _ hm _ ho => s.regW_mcLog _ _ _ _ _ _ (regKey_ne_of_blk_any d 24 hm (by omega) (by decide))⟩,
    congrArg Mc.sensors (s.logsOnly_mcLog ..).mc⟩

theorem State.sampleSame_mcSend (s : State) (b : Bind) (vals : List Nat) : s.SampleSame (s.mcSend b vals) := by
  cases b
  case smb => exact .refl s
  case agd =>
    refine ⟨⟨rfl, fun d r i _ ha ho => ?_⟩, rfl⟩
    exact (State.regW_setRegW_ne _ _ (regKey_ne_of_blk_any d 24 ha (by omega) (by decide))).trans
      (State.regW_setRegW_ne _ _ (regKey_ne_of_blk_any d 24 ha (by omega) (by decide)))

theorem State.sampleSame_evPump (s : State) : s.SampleSame s.evPump := by
  unfold State.evPump
  split
  · split
    · exact .refl s
    · refine .trans ?_ (State.sampleSame_mcSend ..)
      exact .of_regs rfl rfl rfl
  · exact .refl s

theorem State.sampleSame_evQueue (s : State) (e : List Nat) : s.SampleSame (s.evQueue e) := by
  unfold State.evQueue
  split
  · exact .refl s
  · split
    · refine .trans ?_ (State.sampleSame_evPump _)
      exact .of_regs rfl rfl rfl
    · refine .trans ?_ (State.sampleSame_evPump _)
      exact .of_regs rfl rfl rfl

theorem State.sampleSame_crossing (s : State) (id v : Nat) (t : Nat × Nat × Nat) : s.SampleSame (s.crossing id v t) := by
  unfold State.crossing
  extract_lets upper was pass back rising crossed m s1 s2
  split
  · have changed : s.SampleSame s1 := .of_regs rfl rfl rfl
    exact (changed.trans (s1.sampleSame_mcLog ..)).trans (s2.sampleSame_evQueue _)
  · exact .refl s

theorem State.SameSensed.sampleOf {s t : State} (h : s.SameSensed t) (given : List Sample) (id : Nat) : t.sampleOf given id = s.sampleOf given id := by
  have stopped : t.stopped = s.stopped := by rw [State.stopped, State.stopped, h.rst]
  have sens (d i : Nat) (hi : i < 8) : t.reg d .THM_SENS i = s.reg d .THM_SENS i :=
    h.reg d .THM_SENS i (by decide) (by decide) (by simp only [regInfo]; omega)
  have temp (d : Nat) : t.reg d .HBM_TEMP 0 = s.reg d .HBM_TEMP 0 := h.reg d .HBM_TEMP 0 (by decide) (by decide) (by decide)
  have stat (d : Nat) : t.reg d .HBM_STAT 0 = s.reg d .HBM_STAT 0 := h.reg d .HBM_STAT 0 (by decide) (by decide) (by decide)
  have vin : t.reg 24 .PWR_VIN 0 = s.reg 24 .PWR_VIN 0 := h.reg 24 .PWR_VIN 0 (by decide) (by decide) (by decide)
  have est (d : Nat) : t.reg d .PWR_EST 0 = s.reg d .PWR_EST 0 := h.reg d .PWR_EST 0 (by decide) (by decide) (by decide)
  have eighth : t.reg ((id - 1) / 8) .THM_SENS ((id - 1) % 8) = s.reg ((id - 1) / 8) .THM_SENS ((id - 1) % 8) := sens _ _ (Nat.mod_lt _ (by decide))
  simp only [State.sampleOf, State.fld, State.flag, stopped, temp, stat, vin, est, eighth]
  by_cases h1 : id < 0x00C1
  · simp only [h1, if_true]
  · by_cases h2 : id ≤ 0x00C6
    · simp only [h1, h2, if_true, if_false, sens 24 (id - 0x00C1) (by omega)]
    · simp only [h1, h2, if_false]
      rfl

/-- A sensor sampled and its thresholds looked at. -/
def State.sampleOne (samples : List Sample) (s : State) (id : Nat) : State :=
  let v := s.sampleOf samples id
  let s := { s with mc := { s.mc with sensors := put (fun _ => none) s.mc.sensors id v } }
  match v with
  | some v => (s.thresholds id).foldl (fun s t => s.crossing id v t) s
  | none => s

theorem execSensorSample_samples {s : State} (samples : List Sample) (halive : s.mcAlive = true) (hrecov : s.mcRecov = false) :
    execSensorSample samples s = done (sensorIds.foldl (State.sampleOne samples) s) :=
  congrArg done (if_neg (by simp [halive, hrecov]))

/-- A sensor sampled holds its sample; what the others read stays. -/
theorem State.sampleOne_spec (samples : List Sample) (s : State) (id : Nat) :
    s.SameSensed (s.sampleOne samples id) ∧
      (s.sampleOne samples id).mc.sensors = put (fun _ => none) s.mc.sensors id (s.sampleOf samples id) := by
  unfold State.sampleOne
  extract_lets v m t
  have sampled : s.SameSensed t := .of_regs rfl rfl
  have sensors : t.mc.sensors = put (fun _ => none) s.mc.sensors id (s.sampleOf samples id) := rfl
  clear_value t v
  cases v with
  | some w =>
    have crossed := State.sampleSame_foldl (fun u => u.sampleSame_crossing id w) (t.thresholds id) t
    exact ⟨sampled.trans crossed.toSameSensed, crossed.sensors.trans sensors⟩
  | none => exact ⟨sampled, sensors⟩

/-- After the round every sensor sampled holds its sample, as every other one that held it before. -/
theorem sensors_sampled (samples : List Sample) (s : State) (l : List Nat) (t : State) (h : s.SameSensed t) (id : Nat)
    (hid : id ∈ l ∨ look (fun _ => none) t.mc.sensors id = s.sampleOf samples id) :
    look (fun _ => none) (l.foldl (State.sampleOne samples) t).mc.sensors id = s.sampleOf samples id := by
  induction l generalizing t with
  | nil => exact hid.resolve_left List.not_mem_nil
  | cons a l ih =>
    obtain ⟨same, sensors⟩ := t.sampleOne_spec samples a
    refine ih _ (h.trans same) ?_
    by_cases ha : id = a
    · exact .inr (by rw [sensors, ha, look_put_self, h.sampleOf])
    · rw [sensors, look_put_ne _ _ _ _ ha]
      exact hid.imp_left fun hm => (List.mem_cons.mp hm).resolve_left ha

/-! ### The watchdog (R494) -/

/-- MC_WDCFG written with EN from 0 to 1 starts the count. -/
theorem State.wrWdcfg_starts {s : State} {v : Word} (hoff : s.flag 24 .MC_WDCFG 0 0 = false) (hon : bit v 0 = true) :
    s.wrWdcfg v (BitVec.allOnes 64) =
      let w := s.setReg 24 .MC_WDCFG 0 (plainWrite (regInfo .MC_WDCFG) (s.reg 24 .MC_WDCFG 0) v (BitVec.allOnes 64))
      { w with mc := { w.mc with wd := some w.mctime, prewarned := false } } := by
  have en : bit (plainWrite (regInfo .MC_WDCFG) (s.reg 24 .MC_WDCFG 0) v (BitVec.allOnes 64)) 0 = true :=
    (getLsbD_plainWrite rfl _ v (by decide)).trans hon
  refine if_pos ?_
  rw [hoff, Bool.not_false, Bool.and_true]
  exact (congrArg (bit · 0) (State.regW_setRegW_self ..)).trans en

/-- What the watchdog's count and the period come from. -/
theorem execWatchdogPrewarning_warns {s : State} {t : Nat} {c : CoreId} (hwd : s.mc.wd = some t) (hfirst : s.mc.prewarned = false)
    (hhalf : t + s.wdPeriod / 2 ≤ s.mctime) (hcore : s.fld 24 .MC_WDCFG 0 38 32 = c.val) :
    execWatchdogPrewarning s =
      done ((State.mcLog { s with mc := { s.mc with prewarned := true } } 0x0005 0 24 1 0 0).updCore c fun x => { x with prewarn := true }) := by
  have named (u : State) (h : u.regW 24 .MC_WDCFG 0 0 = s.regW 24 .MC_WDCFG 0 0) : coreNo (u.fld 24 .MC_WDCFG 0 38 32) = some c := by
    rw [State.fld, State.reg, h]
    exact (congrArg coreNo hcore).trans (dif_pos c.isLt)
  have logged := State.regW_mcLog { s with mc := { s.mc with prewarned := true } } 0x0005 0 24 1 0 0
    (show regKey 24 .MC_WDCFG 0 0 ≠ regKey 24 .MC_STAT 0 0 by decide)
  unfold execWatchdogPrewarning
  rw [hwd]
  dsimp only
  rw [if_neg (by simp [hfirst, hhalf]), named _ logged]

/-- At the full period the warm source asserts. -/
theorem execWatchdogExpiry_asserts {s : State} {t : Nat} (hwd : s.mc.wd = some t) (hfull : t + s.wdPeriod ≤ s.mctime) :
    execWatchdogExpiry s = done ((State.mcLog { s with mc := { s.mc with wd := none } } 0x0005 0 24 2 0 0).assertSource 7 1) := by
  unfold execWatchdogExpiry
  rw [hwd]
  exact congrArg done (if_neg (by omega))

/-! ### The event log (R497, R499) -/

theorem McLog.look_program (l : McLog) (e : McEntry) (whole : Bool) :
    look (fun _ => none) (l.program e whole).flash (l.next % 65536) = some { seq := l.next, e := e, torn := !whole } := by
  exact look_put_self (fun _ => none) _ (l.next % 65536) (some _)

theorem execLogEntryWrite_programs {s : State} {e : McEntry} {l : List McEntry} (whole : Bool) (hcold : s.coldNow = false)
    (hup : s.fld 24 .MC_STAT 0 1 0 ≠ 0) (hq : s.mclog.queue = e :: l) :
    execLogEntryWrite whole s =
      let t := State.logProgram { s with mclog := { s.mclog with queue := l } } e whole
      done (if s.mclog.dropped = 0 then t
        else State.mcLog { t with mclog := { t.mclog with dropped := 0 } } 0x000D 0 24 s.mclog.dropped (s.mclog.next + 1 + l.length) 0) := by
  have kept : (State.logProgram { s with mclog := { s.mclog with queue := l } } e whole).mclog.dropped = s.mclog.dropped := by
    cases whole <;> rfl
  have next : (State.logProgram { s with mclog := { s.mclog with queue := l } } e whole).mclog.next = s.mclog.next + 1 := by
    cases whole <;> rfl
  unfold execLogEntryWrite
  rw [if_neg (by simp [hcold, hup]), hq]
  dsimp only
  rw [kept, next]

/-! ### Updates (R504) -/

theorem execFirmwareDataReceived_programs {s : State} {u : FwUpd} {data : List Byte} (hu : s.mc.upd = some u) (halive : s.mcAlive = true)
    (ht : u.target ≠ 0) (hmore : u.next ≠ u.size) (hlen : data.length = min u.piece (u.size - u.next)) :
    execFirmwareDataReceived data s =
      let t := State.setUpd (s.norWrite ((copyBase (u.comp == 2) u.target).1 + max 0x50 u.next) (data.drop (0x50 - u.next)))
        (some { u with next := u.next + data.length, head := u.head ++ data.take (0x50 - u.next) })
      done (if u.next + data.length < u.size then t.mcSend u.agent [5, u.next + data.length, min u.piece (u.size - (u.next + data.length))]
        else t.mcSend u.agent [6, 0]) := by
  unfold execFirmwareDataReceived
  rw [hu]
  exact congrArg done (if_neg (by simp [halive, ht, hmore, hlen]))

/-- The first check that fails gives the reason: the image's own, its length, its SEQ, its read-back. -/
theorem execUpdateVerify_checks {s : State} {u : FwUpd} (good : Bool) (hu : s.mc.upd = some u) (halive : s.mcAlive = true)
    (ht : u.target ≠ 0) (hend : u.next = u.size) :
    execUpdateVerify good s =
      let fw := u.comp == 2
      let base := (copyBase fw u.target).1
      let rd := listRd (u.head ++ s.norBytes (base + 0x50) (u.size - 0x50))
      let r := if s.fullReason fw false rd = 0 ∧ fw = true then s.fullReason true true rd else s.fullReason fw false rd
      done (if r ≠ 0 then s.updFinish u r (hdrSeq rd)
        else if hdrLen rd ≠ u.size then s.updFinish u 2 (hdrSeq rd)
        else if s.seqAbove fw (hdrSeq rd) = false then s.updFinish u 10 (hdrSeq rd)
        else if good = true then (s.norWrite base u.head).updFinish u 0 (hdrSeq rd) else s.updFinish u 11 (hdrSeq rd)) := by
  unfold execUpdateVerify
  rw [hu]
  dsimp only
  rw [if_neg (by simp [halive, ht, hend])]
  generalize (if s.fullReason (u.comp == 2) false _ = 0 ∧ (u.comp == 2) = true then _ else _) = r
  by_cases hr : r = 0
  · subst hr
    by_cases hl : hdrLen (listRd (u.head ++ s.norBytes ((copyBase (u.comp == 2) u.target).1 + 0x50) (u.size - 0x50))) = u.size
    · cases s.seqAbove (u.comp == 2) (hdrSeq (listRd (u.head ++ s.norBytes ((copyBase (u.comp == 2) u.target).1 + 0x50) (u.size - 0x50)))) <;>
        cases good <;> simp [hl]
    · simp [hl]
  · simp [hr]

/-! ### The mailbox (R507) -/

/-- A field of a word built from a number. -/
theorem bits_ofNat {n hi lo : Nat} (h : n < 2 ^ 64) : bits (BitVec.ofNat 64 n) hi lo = n / 2 ^ lo % 2 ^ (hi + 1 - lo) := by
  rw [bits, BitVec.toNat_ofNat, Nat.mod_eq_of_lt h, Nat.shiftRight_eq_div_pow]

/-- A command that the mailbox takes, with its GO. -/
theorem mailbox_runs {b s : State} {q : Src} {n : Nat} (h : b.regAccess q 24 .MC_CMD 0 = (true, s)) (hq : mcCmdOk q = true)
    (hidle : s.flag 24 .MC_CMDSTAT 0 2 = false) (halive : s.mcAlive = true) (hrecov : s.mcRecov = false) (hgo : n / 2 ^ 4 % 2 = 1) (hn : n < 2 ^ 64) :
    mailbox q (BitVec.ofNat 64 n) b = done (match n % 2 ^ 4 with
      | 1 => if 1 ≤ n / 2 ^ 16 % 2 ^ 16 ∧ n / 2 ^ 16 % 2 ^ 16 ≤ 4096 then s.mcRun 1 (n / 2 ^ 16 % 2 ^ 16) else s.mcRes 2 0
      | 2 => if n / 2 ^ 8 % 2 ^ 8 = 1 ∨ 0xF0 ≤ n / 2 ^ 8 % 2 ^ 8 then s.mcRes 2 0 else s.assertSource 4 (n / 2 ^ 8 % 2 ^ 8)
      | 3 => s.mcRun 3 0
      | _ => s.mcRes 2 0) := by
  have go : bit (BitVec.ofNat 64 n) 4 = true := by
    rw [bit, BitVec.getLsbD_ofNat, Nat.testBit_eq_decide_div_mod_eq, hgo]
    rfl
  refine (regCmd_arrives _ h).trans (congrArg done ((if_pos hq).trans ?_))
  unfold State.wrMcCmd
  rw [if_neg (by simp [go, hidle, halive]), if_neg (by simp [hrecov])]
  simp only [bits_ofNat hn, Nat.pow_zero, Nat.div_one, Nat.reduceAdd, Nat.reduceSub] <;> rfl

/-- A command whose records are all written ends with their number. -/
theorem State.mcRun_writes {s t u : State} {op count n : Nat} (ht : t = if op = 3 then { s with free := s.free + 0x500 } else s)
    (h : t.mcWrite (t.fld 24 .MC_ADDR 0 47 6 * 64) (s.mcRecords op count) 0 = ((.ok (), n), u)) : s.mcRun op count = u.mcRes 1 n := by
  unfold State.mcRun
  dsimp only
  rw [← ht, h]

/-! ### The MC's registers -/

theorem State.flag_settle (s : State) {r : RegName} {i b : Nat} (hh : regKey 24 r i 0 ≠ regKey 24 .ERR_HEALTH 0 0)
    (hm : regKey 24 r i 0 ≠ regKey 24 .MC_STAT 0 0) : s.settle.flag 24 r i b = s.flag 24 r i b := congrArg (bit · b) (s.regW_settle hh hm)

theorem State.fld_settle (s : State) {r : RegName} {i hi lo : Nat} (hh : regKey 24 r i 0 ≠ regKey 24 .ERR_HEALTH 0 0)
    (hm : regKey 24 r i 0 ≠ regKey 24 .MC_STAT 0 0) : s.settle.fld 24 r i hi lo = s.fld 24 r i hi lo := congrArg (bits · hi lo) (s.regW_settle hh hm)

theorem State.slot_selectCopy_lt (s : State) (fw mc : Bool) : (s.selectCopy fw mc).slot < 4 := by
  unfold State.selectCopy
  extract_lets ra rb ha hb first body b a
  clear_value a b
  split
  · split
    · exact (by decide : 2 < 4)
    · split
      · exact (by decide : 1 < 4)
      · exact (by decide : 0 < 4)
  · split
    · exact (by decide : 1 < 4)
    · split
      · exact (by decide : 2 < 4)
      · exact (by decide : 0 < 4)

/-- The newest entry of the scanned log is reported (R497, R507). -/
def State.logScanned (s : State) : State := if s.mclog.next = 0 then s else s.setReg 24 .MC_LOGHEAD 0 (BitVec.ofNat 64 (s.mclog.next - 1))

theorem State.regW_logScanned (s : State) {d i w : Nat} {r : RegName} (h : regKey d r i w ≠ regKey 24 .MC_LOGHEAD 0 0) :
    s.logScanned.regW d r i w = s.regW d r i w := by
  unfold State.logScanned
  split
  · rfl
  · exact State.regW_setRegW_ne _ _ h

theorem State.copyRd_logScanned (s : State) (fw : Bool) (c : Nat) : s.logScanned.copyRd fw c = s.copyRd fw c := by
  unfold State.logScanned
  split <;> rfl

/-- A firmware copy in use: its numbers reported, the MC's code loaded (R481). -/
def State.mcLoaded (s : State) (c : Nat) : State :=
  let rd := s.copyRd true c
  let s := (s.setFld 24 .SEC_FWSEL 0 3 2 c).setReg 24 .SEC_MCSEQ 0 (BitVec.ofNat 64 (hdrSeq rd))
  let code := (((directory true rd).filter fun e => e.type == 2).take 1).flatMap fun e => rd e.off e.len
  { s with sec := { s.sec with mver := hdrMver rd }, mc := { s.mc with sram := code } }

theorem execMcFirmwareSelection_selects {s : State} (hcold : s.coldNow = false) (hdown : s.fld 24 .MC_STAT 0 1 0 = 0) (hid : s.sec.idEd ≠ []) :
    execMcFirmwareSelection s =
      let c := (s.selectCopy true true).slot
      done (if c = 0 then s.logScanned.setFld 24 .MC_STAT 0 1 1 1
        else ((s.logScanned.mcLoaded c).extend 3 (sha3_384 (signedBytes (s.logScanned.copyRd true c)))).setFld 24 .MC_STAT 0 0 0 1) :=
  congrArg done (if_neg (by simp [hcold, hdown, hid]))

theorem State.regs_mcLoaded (s : State) (c : Nat) : (s.mcLoaded c).regs =
    ((s.setFld 24 .SEC_FWSEL 0 3 2 c).setReg 24 .SEC_MCSEQ 0 (BitVec.ofNat 64 (hdrSeq (s.copyRd true c)))).regs := by
  unfold State.mcLoaded
  extract_lets rd t code m
  with_reducible rfl

theorem State.regW_of_regs {s t : State} (h : t.regs = s.regs) (d : Nat) (r : RegName) (i w : Nat) : t.regW d r i w = s.regW d r i w := by
  rw [State.regW, State.regW, h]

/-- The registers of a copy loaded: the copy's number in SEC_FWSEL, its SEQ in SEC_MCSEQ. -/
theorem State.regW_mcLoaded (s : State) (c : Nat) {d i w : Nat} {r : RegName} (hsel : regKey d r i w ≠ regKey 24 .SEC_FWSEL 0 0)
    (hseq : regKey d r i w ≠ regKey 24 .SEC_MCSEQ 0 0) : (s.mcLoaded c).regW d r i w = s.regW d r i w := by
  rw [State.regW_of_regs (s.regs_mcLoaded c), State.setReg_eq, State.regW_setRegW_ne _ _ hseq]
  exact s.regW_setRegW_ne _ hsel

theorem State.mcseq_mcLoaded (s : State) (c : Nat) : (s.mcLoaded c).reg 24 .SEC_MCSEQ 0 = BitVec.ofNat 64 (hdrSeq (s.copyRd true c)) := by
  rw [State.reg, State.regW_of_regs (s.regs_mcLoaded c), State.setReg_eq, State.regW_setRegW_self]

theorem State.fwsel_mcLoaded (s : State) {c : Nat} (hc : c < 4) : (s.mcLoaded c).fld 24 .SEC_FWSEL 0 3 2 = c := by
  have sel := State.fld_setFld_same s 24 .SEC_FWSEL 0 (hi := 3) (lo := 2) c (by decide) (by decide)
  rw [State.fld, State.reg, State.regW_of_regs (s.regs_mcLoaded c), State.setReg_eq, State.regW_setRegW_ne _ _ (by decide)]
  exact sel.trans (Nat.mod_eq_of_lt hc)

/-- A field of two bits. -/
theorem bits_two (w : Word) : bits w 1 0 = b2n (bit w 0) + 2 * b2n (bit w 1) := by
  simp only [bits, bit, BitVec.getLsbD, Nat.testBit_eq_decide_div_mod_eq, b2n, decide_eq_true_eq, Nat.shiftRight_zero]
  split <;> split <;> omega

/-- MC_STAT with one of its two lowest bits set, which were 0. -/
theorem bits_two_set {w : Word} (h : bits w 1 0 = 0) : bits (setBits w 1 1 1) 1 0 = 2 ∧ bits (setBits w 0 0 1) 1 0 = 1 := by
  rw [bits_two] at h
  have h0 : bit w 0 = false := by cases hb : bit w 0 <;> simp [hb, b2n] at h ⊢
  have h1 : bit w 1 = false := by cases hb : bit w 1 <;> simp [hb, b2n] at h ⊢
  constructor <;> rw [bits_two, bit_setBits _ _ le_rfl (by decide), bit_setBits _ _ le_rfl (by decide)] <;> simp [h0, h1, b2n]

/-- MC_STAT names the recovery responder when no copy passes, and otherwise the MC. -/
theorem execMcFirmwareSelection_spec {s : State} (hcold : s.coldNow = false) (hdown : s.fld 24 .MC_STAT 0 1 0 = 0) (hid : s.sec.idEd ≠ []) :
    let c := (s.selectCopy true true).slot
    ∃ u : State, execMcFirmwareSelection s = done u ∧ u.fld 24 .MC_STAT 0 1 0 = (if c = 0 then 2 else 1) ∧
      u.fld 24 .SEC_FWSEL 0 3 2 = (if c = 0 then s.fld 24 .SEC_FWSEL 0 3 2 else c) ∧
      u.reg 24 .SEC_MCSEQ 0 = (if c = 0 then s.reg 24 .SEC_MCSEQ 0 else BitVec.ofNat 64 (hdrSeq (s.copyRd true c))) := by
  intro c
  have selects := execMcFirmwareSelection_selects hcold hdown hid
  have hc : c < 4 := s.slot_selectCopy_lt true true
  have stat : s.logScanned.reg 24 .MC_STAT 0 = s.reg 24 .MC_STAT 0 := s.regW_logScanned (by decide)
  by_cases hslot : c = 0
  · refine ⟨_, selects.trans (congrArg done (if_pos hslot)), ?_, ?_, ?_⟩
    · rw [if_pos hslot]
      rw [State.fld, State.reg_setFld_self, stat]
      exact (bits_two_set hdown).1
    · rw [if_pos hslot, State.fld, State.reg_setFld_ne _ _ _ _ (by decide)]
      exact congrArg (bits · 3 2) (s.regW_logScanned (by decide))
    · rw [if_pos hslot, State.reg_setFld_ne _ _ _ _ (by decide)]
      exact s.regW_logScanned (by decide)
  · refine ⟨_, selects.trans (congrArg done (if_neg hslot)), ?_, ?_, ?_⟩
    · rw [if_neg hslot]
      rw [State.fld, State.reg_setFld_self, State.reg, State.regW_extend _ _ _ (by decide), State.regW_mcLoaded _ _ (by decide) (by decide)]
      rw [← State.reg, stat]
      exact (bits_two_set hdown).2
    · rw [if_neg hslot, State.fld, State.reg_setFld_ne _ _ _ _ (by decide), State.reg, State.regW_extend _ _ _ (by decide)]
      exact s.logScanned.fwsel_mcLoaded hc
    · rw [if_neg hslot, State.reg_setFld_ne _ _ _ _ (by decide), State.reg, State.regW_extend _ _ _ (by decide)]
      exact (s.logScanned.mcseq_mcLoaded c).trans (by rw [s.copyRd_logScanned])

/-- Settles O60: each of the MC's commands does what its lemma above says; a sample round leaves in each sensor the sample of the state it began
with (`sensors_sampled`), since the entries and events of a crossing touch nothing that a sample reads. -/
theorem managementController : Obligations.ManagementController := by
  intro s out
  refine ⟨fun hcold hdown hid => ?firmware, fun samples halive hrecov => ?sensors, fun b q v hb hoff hon => ?wdcfg,
    fun b c v hb hsys hkey hen => ?kick, fun b v hb => ?hostKick, fun b c v hb hbad => ?badKick, fun t hwd => ⟨fun c hfirst hhalf hcore => ?prewarning, ?expiry⟩,
    ?hang, fun e l whole hcold hup hq => ?log, fun halive hsent => ?events, fun u hu halive ht => ⟨?data, ?verify⟩,
    fun b q hb hq hidle halive hrecov => ⟨?logread, ?cold, ?readings⟩, ?wrote, ?wroteReadings, fun b q hb => ?nextf⟩
  case firmware =>
    obtain ⟨u, hu, hstat, hsel, hseq⟩ := execMcFirmwareSelection_spec hcold hdown hid
    exact ⟨u.settle, hu, (u.fld_settle_mcStat (by decide)).trans hstat, (u.fld_settle (by decide) (by decide)).trans hsel,
      (u.regW_settle (by decide) (by decide)).trans hseq⟩
  case sensors =>
    refine ⟨_, execSensorSample_samples samples halive hrecov, fun id hid => ?_⟩
    rw [(State.logsOnly_settle _).mc]
    exact sensors_sampled samples s sensorIds s (.of_regs rfl rfl) id (.inl hid)
  case wdcfg =>
    refine ⟨_, (regCmd_arrives _ hb).trans (congrArg done (State.wrWdcfg_starts hoff hon)), ?_, ?_, ?_, ?_⟩
    · rw [State.flag_settle _ (by decide) (by decide)]
      exact (congrArg (bit · 0) (State.regW_setRegW_self ..)).trans ((getLsbD_plainWrite rfl _ v (by decide)).trans hon)
    · rw [State.fld_settle _ (by decide) (by decide)]
      exact (congrArg (bits · 31 16) (State.regW_setRegW_self ..)).trans (bits_plainWrite rfl _ v (by decide))
    · rw [(State.logsOnly_settle _).mc]
      rfl
    · rw [(State.logsOnly_settle _).mc]
  case kick =>
    have ok : kickOk (.core c) v = true := by simp [kickOk, srcSystem, hsys, hkey]
    refine ⟨fun h => ?_, fun h => ?_⟩
    · exact (regCmd_arrives _ hb).trans (congrArg done ((if_pos ok).trans (if_pos (by simp [hen, hkey, h]))))
    · exact (regCmd_arrives _ hb).trans (congrArg done ((if_pos ok).trans (if_neg (by simp [h]))))
  case hostKick => exact (regCmd_arrives _ hb).trans (congrArg done (if_neg (by simp [kickOk, srcSystem])))
  case badKick =>
    refine (regCmd_arrives _ hb).trans (congrArg done (if_neg ?_))
    rcases hbad with h | h <;> simp [kickOk, srcSystem, h]
  case prewarning =>
    refine ⟨_, execWatchdogPrewarning_warns hwd hfirst hhalf hcore, ?_, ?_⟩
    · rw [(State.logsOnly_settle _).core]
      exact congrArg Core.prewarn (State.core_setCore_self ..)
    · rw [(State.logsOnly_settle _).mc]
      exact congrArg Mc.prewarned (State.logsOnly_mcLog ..).mc
  case expiry => exact execWatchdogExpiry_asserts hwd
  case hang => exact fun hcold hup => congrArg done (if_neg (by simp [hcold, hup]))
  case log =>
    have programs := execLogEntryWrite_programs whole hcold hup hq
    refine ⟨fun h => programs.trans (congrArg done (if_pos h)), fun h => programs.trans (congrArg done (if_neg h)), ?_, ?_, ?_, fun hw => ?_⟩
    · cases whole <;> rfl
    · cases whole <;> rfl
    · cases whole <;> exact McLog.look_program ..
    · subst hw
      exact State.regW_setRegW_self ..
  case events => exact ⟨congrArg done (if_pos (by simp [halive, hsent])), congrArg done (if_pos (by simp [halive, hsent]))⟩
  case data => exact fun data => execFirmwareDataReceived_programs hu halive ht
  case verify => exact fun hend good => execUpdateVerify_checks good hu halive ht hend
  case logread =>
    intro count hmin hmax
    have hlt := count.isLt
    have field : (1 + 16 + 2 ^ 16 * count.toNat) / 2 ^ 16 % 2 ^ 16 = count.toNat := by omega
    refine (mailbox_runs hb hq hidle halive hrecov (by omega) (by omega)).trans (congrArg done ?_)
    rw [field, show (1 + 16 + 2 ^ 16 * count.toNat) % 2 ^ 4 = 1 by omega]
    exact if_pos ⟨hmin, hmax⟩
  case cold =>
    intro reason h1 hF0
    have hlt := reason.isLt
    have hne : reason.toNat ≠ 1 := fun e => h1 (BitVec.eq_of_toNat_eq e)
    have field : (2 + 16 + 2 ^ 8 * reason.toNat) / 2 ^ 8 % 2 ^ 8 = reason.toNat := by omega
    refine (mailbox_runs hb hq hidle halive hrecov (by omega) (by omega)).trans (congrArg done ?_)
    rw [field, show (2 + 16 + 2 ^ 8 * reason.toNat) % 2 ^ 4 = 2 by omega]
    exact if_neg (by omega)
  case readings => exact mailbox_runs hb hq hidle halive hrecov (by decide) (by decide)
  case wrote => exact fun count n u => State.mcRun_writes (if_neg (by decide)).symm
  case wroteReadings => exact fun n u => State.mcRun_writes (if_pos rfl).symm
  case nextf =>
    refine ⟨fun h => (regCmd_arrives _ hb).trans ?_, fun n l h => (regCmd_arrives _ hb).trans ?_⟩
    · rw [State.rdNextf, h] <;> rfl
    · rw [State.rdNextf, h] <;> rfl

end Sys2Proof.Machine

/-! SUPPORT. The phases of option loading and the updates of the Render image (R432, R434, R438, R441, R443, R473). -/

namespace Sys2Proof.Machine

open Sys2Proof

/-! ### Registers at their reset values -/

theorem State.reg_resetReg_self (s : State) (d : Nat) (r : RegName) (hcount : 0 < (regInfo r).count) (hdw : 0 < (regInfo r).dw) :
    (s.resetReg d r).reg d r 0 = regReset r d 0 := by
  unfold State.resetReg State.reg State.regW
  dsimp only
  rw [look_dropKeys, if_pos (by simp [hcount, hdw])]

/-- A register outside the range of another keeps its value when that one goes back to its reset value. -/
theorem State.regW_resetReg_ne (s : State) {d e i w : Nat} {r q : RegName}
    (h : ¬ (regKey d r 0 0 ≤ regKey e q i w ∧ (regKey e q i w - regKey d r 0 0) / (regInfo r).stride < (regInfo r).count ∧
      (regKey e q i w - regKey d r 0 0) % (regInfo r).stride / 8 < (regInfo r).dw)) : (s.resetReg d r).regW e q i w = s.regW e q i w := by
  unfold State.resetReg State.regW
  dsimp only
  rw [look_dropKeys, if_neg (by simpa [and_assoc] using h)]

/-- A change of a link's record changes no register but the Agdoa link's two. -/
theorem State.regW_updLink (s : State) (l : LinkId) (f : Link → Link) {d i w : Nat} {r : RegName} (hs : regKey d r i w ≠ regKey 24 .AGD_LSTAT 0 0)
    (hl : regKey d r i w ≠ regKey 24 .AGD_LANES 0 0) : (s.updLink l f).regW d r i w = s.regW d r i w := by
  unfold State.updLink State.setLink
  cases l
  case agd => exact (State.regW_setRegW_ne _ _ hl).trans (State.regW_setRegW_ne _ _ hs)
  all_goals rfl

theorem State.regW_setFld_ne (s : State) {d e i j w : Nat} {r q : RegName} (hi lo v : Nat) (h : regKey e q j w ≠ regKey d r i 0) :
    (s.setFld d r i hi lo v).regW e q j w = s.regW e q j w := s.regW_setRegW_ne _ h

/-! ### Phase 1 (R432, R434, R473) -/

theorem keyGeneration_lt {ed ml : List Byte} {g : Nat} (h : keyGeneration ed ml = some g) : g < 4 :=
  List.mem_range.mp (List.mem_of_find?_eq_some h)

theorem State.fuses_setRegW (s : State) (d : Nat) (r : RegName) (i w : Nat) (v : Word) : (s.setRegW d r i w v).fuses = s.fuses := rfl

theorem State.fuses_foldl_arbShadow (l : List Nat) (s : State) : (l.foldl State.arbShadow s).fuses = s.fuses := by
  induction l generalizing s with
  | nil => rfl
  | cons c l ih => exact ih (s.arbShadow c)

theorem State.keys_loadFuses (s : State) : s.loadFuses.fld 24 .SEC_STAT 0 2 0 =
    match keyGeneration s.fuses.keyhEd s.fuses.keyhMl with | some g => g + 4 | none => 0 := by
  have key {g : Nat} (h : keyGeneration s.fuses.keyhEd s.fuses.keyhMl = some g) : (g + 4) % 2 ^ (2 + 1 - 0) = g + 4 :=
    Nat.mod_eq_of_lt (by have := keyGeneration_lt h; omega)
  unfold State.loadFuses
  extract_lets u v
  have fuses : v.fuses = u.fuses := State.fuses_foldl_arbShadow (List.range 4) u
  rw [fuses, show u.fuses = s.fuses from (State.fuses_setRegW ..).trans (State.fuses_setRegW ..)]
  cases h : keyGeneration s.fuses.keyhEd s.fuses.keyhMl with
  | some g => exact (v.fld_setFld_same 24 .SEC_STAT 0 _ (by decide) (by decide)).trans (key h)
  | none => exact v.fld_setFld_same 24 .SEC_STAT 0 _ (by decide) (by decide)

/-- What option loading begins with: no copy selected. -/
theorem State.status_startPhase2 (s : State) : s.startPhase2.reg 24 .RND_STATUS 0 = 0 := by
  unfold State.startPhase2 State.resetRegs
  simp only [List.foldl_cons, List.foldl_nil]
  rw [State.reg, State.regW_resetReg_ne _ (by decide), State.regW_resetReg_ne _ (by decide), State.regW_resetReg_ne _ (by decide)]
  exact (s.reg_resetReg_self 24 .RND_STATUS (by decide) (by decide)).trans (by decide)

theorem State.regW_startPhase2 (s : State) {d i w : Nat} {r : RegName} (h : regKey d r i w < 0x10000 ∨ 0x10020 ≤ regKey d r i w) :
    s.startPhase2.regW d r i w = s.regW d r i w := by
  unfold State.startPhase2 State.resetRegs
  simp only [List.foldl_cons, List.foldl_nil]
  generalize hk : regKey d r i w = k at h
  have out (q : RegName) (hq : q ∈ [RegName.RND_STATUS, .RND_SEQ, .RND_SEQA, .RND_SEQB]) : ¬ (regKey 24 q 0 0 ≤ regKey d r i w ∧
      (regKey d r i w - regKey 24 q 0 0) / (regInfo q).stride < (regInfo q).count ∧
      (regKey d r i w - regKey 24 q 0 0) % (regInfo q).stride / 8 < (regInfo q).dw) := by
    simp only [List.mem_cons, List.not_mem_nil, or_false] at hq
    rw [hk]
    rcases hq with rfl | rfl | rfl | rfl <;> simp [regKey, regInfo, dieBase] <;> omega
  rw [State.regW_resetReg_ne _ (out _ (by decide)), State.regW_resetReg_ne _ (out _ (by decide)), State.regW_resetReg_ne _ (out _ (by decide)),
    State.regW_resetReg_ne _ (out _ (by decide))]

/-! ### Phases 2 and 3 (R438, R432) -/

theorem State.phase_settle (s : State) : s.settle.phase = s.phase := s.fld_settle (by decide) (by decide)

theorem State.phase_loadingEnds (s : State) : s.loadingEnds.phase = 0 := by
  rw [State.loadingEnds, State.phase, State.fld, State.reg, State.regW_mcLog _ _ _ _ _ _ _ (by decide)]
  exact State.fld_setFld_same s 24 .RST_STAT 0 0 (by decide) (by decide)

theorem State.rst_loadingEnds (s : State) : s.loadingEnds.rst = s.rst := by
  rw [State.loadingEnds, (State.logsOnly_mcLog ..).rst]
  rfl

/-- The end of option loading changes RST_STAT alone of what phase 2 reports. -/
theorem State.reg_loadingEnds (s : State) {r : RegName} (hs : regKey 24 r 0 0 ≠ regKey 24 .RST_STAT 0 0)
    (hm : regKey 24 r 0 0 ≠ regKey 24 .MC_STAT 0 0) : s.loadingEnds.reg 24 r 0 = s.reg 24 r 0 := by
  rw [State.loadingEnds, State.reg, State.regW_mcLog _ _ _ _ _ _ _ hm]
  exact s.reg_setFld_ne _ _ _ hs

/-- What RND_STATUS reports of a selection. -/
def Choice.status (c : Choice) : Word := BitVec.ofNat 64 (c.slot + 2 ^ 2 * b2n (c.slot == 0) + 2 ^ 4 * c.a + 2 ^ 8 * c.b)

theorem Choice.noimg_status {c : Choice} (h : c.slot < 4) : bit c.status 2 = decide (c.slot = 0) := by
  rw [bit, Choice.status, BitVec.getLsbD_ofNat, Nat.testBit_eq_decide_div_mod_eq]
  by_cases h0 : c.slot = 0
  · simp [h0, b2n]
    omega
  · simp [h0, b2n]
    omega

theorem Choice.slot_status {c : Choice} (h : c.slot < 4) : bits c.status 1 0 = c.slot := by
  rw [bits, Choice.status, BitVec.toNat_ofNat]
  omega

/-- The state in which phase 2 has reported its selection. -/
def State.selected (s : State) (c : Choice) : State :=
  ((s.setReg 24 .RND_SEQA 0 (BitVec.ofNat 64 (hdrSeq (s.copyRd false 1)))).setReg 24 .RND_SEQB 0
    (BitVec.ofNat 64 (hdrSeq (s.copyRd false 2)))).setReg 24 .RND_STATUS 0 c.status

theorem State.status_selected (s : State) (c : Choice) : (s.selected c).reg 24 .RND_STATUS 0 = c.status := State.regW_setRegW_self ..

theorem State.regW_selected (s : State) (c : Choice) {d i w : Nat} {r : RegName} (ha : regKey d r i w ≠ regKey 24 .RND_SEQA 0 0)
    (hb : regKey d r i w ≠ regKey 24 .RND_SEQB 0 0) (hs : regKey d r i w ≠ regKey 24 .RND_STATUS 0 0) :
    (s.selected c).regW d r i w = s.regW d r i w :=
  ((State.regW_setRegW_ne _ _ hs).trans (State.regW_setRegW_ne _ _ hb)).trans (State.regW_setRegW_ne _ _ ha)

theorem State.nor_setRegW (s : State) (d : Nat) (r : RegName) (i w : Nat) (v : Word) : (s.setRegW d r i w v).nor = s.nor := rfl

theorem State.copyRd_selected (s : State) (c : Choice) (fw : Bool) (n : Nat) : (s.selected c).copyRd fw n = s.copyRd fw n := by
  have nor : (s.selected c).nor = s.nor := ((State.nor_setRegW ..).trans (State.nor_setRegW ..)).trans (State.nor_setRegW ..)
  unfold State.copyRd State.norBytes
  rw [nor]

/-- A copy selected is the one phase 3 applies. -/
def State.imageSelected (s : State) (c : Nat) : State :=
  let rd := s.copyRd false c
  let s := s.setReg 24 .RND_SEQ 0 (BitVec.ofNat 64 (hdrSeq rd))
  { s with sec := { s.sec with rver := hdrVer rd } }

theorem State.regs_imageSelected (s : State) (c : Nat) :
    (s.imageSelected c).regs = (s.setReg 24 .RND_SEQ 0 (BitVec.ofNat 64 (hdrSeq (s.copyRd false c)))).regs := by
  unfold State.imageSelected
  extract_lets rd t x
  with_reducible rfl

theorem execOptionPhase2End_selects {s : State} (hs : s.stopped = false) (h2 : s.phase = 2) :
    execOptionPhase2End s =
      let c := s.selectCopy false false
      let t := s.selected c
      done (if c.slot = 0 then t.loadingEnds
        else ((t.imageSelected c.slot).extend 1 (sha3_384 (signedBytes (t.copyRd false c.slot)))).setFld 24 .RST_STAT 0 1 0 3) :=
  congrArg done (if_neg (by simp [hs, h2]))

/-- Phase 2 ends with its report, and with phase 3 or, without an image, with option loading over. -/
theorem execOptionPhase2End_spec {s : State} (hs : s.stopped = false) (h2 : s.phase = 2) :
    let c := s.selectCopy false false
    ∃ t : State, execOptionPhase2End s = done t ∧ t.phase = (if c.slot = 0 then 0 else 3) ∧ t.reg 24 .RND_STATUS 0 = c.status ∧
      t.reg 24 .RND_SEQ 0 = (if c.slot = 0 then s.reg 24 .RND_SEQ 0 else BitVec.ofNat 64 (hdrSeq (s.copyRd false c.slot))) := by
  intro c
  have selects := execOptionPhase2End_selects hs h2
  have seq : (s.selected c).regW 24 .RND_SEQ 0 0 = s.regW 24 .RND_SEQ 0 0 := s.regW_selected c (by decide) (by decide) (by decide)
  by_cases hslot : c.slot = 0
  · refine ⟨_, selects.trans (congrArg done (if_pos hslot)), ?_, ?_, ?_⟩
    · rw [if_pos hslot, State.phase_loadingEnds]
    · exact (State.reg_loadingEnds _ (by decide) (by decide)).trans (s.status_selected c)
    · rw [if_pos hslot]
      exact (State.reg_loadingEnds _ (by decide) (by decide)).trans seq
  · refine ⟨_, selects.trans (congrArg done (if_neg hslot)), ?_, ?_, ?_⟩
    · rw [if_neg hslot]
      exact State.fld_setFld_same _ 24 .RST_STAT 0 3 (by decide) (by decide)
    · rw [State.reg_setFld_ne _ _ _ _ (by decide), State.reg, State.regW_extend _ _ _ (by decide), State.regW_of_regs (State.regs_imageSelected ..),
        State.setReg_eq, State.regW_setRegW_ne _ _ (by decide)]
      exact s.status_selected c
    · rw [if_neg hslot, State.reg_setFld_ne _ _ _ _ (by decide), State.reg, State.regW_extend _ _ _ (by decide),
        State.regW_of_regs (State.regs_imageSelected ..), State.setReg_eq, State.regW_setRegW_self, State.copyRd_selected]

/-! ### Updates (R441) -/

theorem execRenderUpdateDone_ends {s : State} {u : Upd} (good : Bool) (hs : s.stopped = false) (hu : s.upd = some u) (ht : u.target ≠ 0) :
    execRenderUpdateDone good s = done (if good then
      let v := (s.updResult 0 u.target).norWrite (copyBase false u.target).1 u.image
      { v with mc := { v.mc with pendSeq := setAt v.mc.pendSeq 0 (some (hdrSeq (listRd u.image))) } }
      else s.updResult 11 u.target) := by
  unfold execRenderUpdateDone
  rw [if_neg (by simp [hs])]
  simp only [hu, if_neg ht]

/-- Settles O56: each phase's end is followed through the registers it reports in (`State.keys_loadFuses`, `execOptionPhase2End_spec`,
`State.phase_loadingEnds`), an update through its command. -/
theorem optionLoading : Obligations.OptionLoading := by
  intro s hs out
  refine ⟨fun h1 => ?_, fun h2 => ?_, fun h3 failed => ?_, fun b q hb => ⟨fun hbusy => ?_, fun hphase hidle => ?_⟩,
    fun u hu ht => ⟨execRenderUpdateDone_ends true hs hu ht, execRenderUpdateDone_ends false hs hu ht⟩⟩
  · refine ⟨_, congrArg done (if_neg (by simp [hs, h1])), ?_, ?_, ?_, ?_⟩
    · rw [State.phase_settle, State.phase, State.fld, State.reg, State.regW_updLink _ _ _ (by decide) (by decide)]
      exact State.fld_setFld_same _ 24 .RST_STAT 0 2 (by decide) (by decide)
    · rw [State.link_settle, State.link_updLink_self]
    · rw [State.reg_settle _ (by decide) (by decide) (by decide), State.reg, State.regW_updLink _ _ _ (by decide) (by decide)]
      exact (State.reg_setFld_ne _ _ _ _ (by decide)).trans (State.status_startPhase2 _)
    · rw [State.fld, State.reg_settle _ (by decide) (by decide) (by decide), State.reg, State.regW_updLink _ _ _ (by decide) (by decide)]
      have eng (u : State) : (if Config.eng then u.setFld 24 .SEC_DBG 0 2 0 7 else u).reg 24 .SEC_STAT 0 = u.reg 24 .SEC_STAT 0 := by
        split
        · exact State.reg_setFld_ne _ _ _ _ (by decide)
        · rfl
      rw [State.regW_setFld_ne _ _ _ _ (by decide), State.regW_startPhase2 _ (by decide), State.regW_extend _ _ _ (by decide), ← State.reg, eng]
      refine (State.fld_setFld_disjoint _ 24 .SEC_STAT 0 _ (by decide) (by decide) (by decide) (.inl (by decide))).trans ?_
      exact s.keys_loadFuses
  · obtain ⟨t, ht, hphase, hstatus, hseq⟩ := execOptionPhase2End_spec hs h2
    have hc := s.slot_selectCopy_lt false false
    have status : t.settle.reg 24 .RND_STATUS 0 = _ := (t.reg_settle (by decide) (by decide) (by decide)).trans hstatus
    exact ⟨t.settle, ht, t.phase_settle.trans hphase, (congrArg (bit · 2) status).trans (Choice.noimg_status hc),
      (congrArg (bits · 1 0) status).trans (Choice.slot_status hc), (t.reg_settle (by decide) (by decide) (by decide)).trans hseq⟩
  · refine ⟨_, congrArg done (if_neg (by simp [hs, h3])), ?_, ?_, ?_⟩
    · rw [State.phase_settle]
      exact State.phase_loadingEnds _
    · rw [(State.logsOnly_settle _).rst, State.rst_loadingEnds]
    · rw [(State.logsOnly_settle _).rst, State.rst_loadingEnds]
  · exact (regCmd_arrives _ hb).trans (congrArg done ((if_neg (by decide)).trans (if_pos hbusy)))
  · refine (regCmd_arrives _ hb).trans (congrArg done ((if_neg (by decide)).trans (if_neg ?_)))
    simp [hphase, hidle]

end Sys2Proof.Machine

/-! SUPPORT. Requested resets and the start of cores (R422, R426–R430). -/

namespace Sys2Proof.Machine

open Sys2Proof

/-! ### Requests (R426, R428, R429) -/

/-- A request taken: it waits, BUSY is set on each die it covers, and its blocks are asked to go idle. -/
def State.takeRequest (s : State) (r : ResetReq) : State :=
  State.hawkAsked (r.dies.foldl (fun u d => State.setFld u d .RST_STAT 0 2 2 1) { s with rst := { s.rst with reqs := s.rst.reqs ++ [r] } })

theorem State.request_taken {s : State} {d : Nat} {ok : Bool} {r : ResetReq} (hphase : s.phase = 0) (hok : ok = true)
    (hidle : ∀ e ∈ r.dies, s.dieBusy e = false) : s.request d ok r = s.takeRequest { r with since := s.mctime } :=
  if_neg (by simpa [hphase, hok] using hidle)

theorem State.request_refused {s : State} {d : Nat} {ok : Bool} {r : ResetReq}
    (h : s.phase ≠ 0 ∨ ok = false ∨ ∃ e ∈ r.dies, s.dieBusy e = true) : s.request d ok r = s.setFld d .RST_STAT 0 4 4 1 :=
  if_pos (by simpa using h)

/-- GANGGO asks for the reset of its gang's dies alone. -/
theorem execGanggo_requests {b s : State} {q : Src} (v : Word) (h : b.regAccess q 24 .RST_CTL 0 = (true, s)) :
    execGanggo q v b = done (s.request 24 (s.gangV (bits v 2 1)) ⟨2, setBitsOf 24 (s.fld 24 .GNG_CFG (bits v 2 1) 23 0), bits v 2 1, 0⟩) := by
  have bitAt (i : Nat) : bit ((v ||| 8) &&& 0xE) i = ((v.getLsbD i || (8 : Word).getLsbD i) && (0xE : Word).getLsbD i) := by
    simp only [bit, BitVec.getLsbD_and, BitVec.getLsbD_or]
  have gang : bits ((v ||| 8) &&& 0xE) 2 1 = bits v 2 1 := by
    have masked : ∀ i < 2, (8 : Word).getLsbD (1 + i) = false ∧ (0xE : Word).getLsbD (1 + i) = true := by decide
    refine Nat.eq_of_testBit_eq fun i => ?_
    rw [testBit_bits, testBit_bits]
    by_cases hi : i < 2 + 1 - 1
    · rw [bitAt, (masked i hi).1, (masked i hi).2, Bool.or_false, Bool.and_true, bit]
    · rw [decide_eq_false hi, Bool.false_and, Bool.false_and]
  have warm : ¬ bit ((v ||| 8) &&& 0xE) 0 = true := by
    rw [bitAt]
    simp
  have go : bit ((v ||| 8) &&& 0xE) 3 = true := by
    rw [bitAt]
    simp
  have cdie : ¬ bit ((v ||| 8) &&& 0xE) 9 = true := by
    rw [bitAt]
    simp
  refine (regCmd_arrives _ h).trans (congrArg done ?_)
  unfold State.wrRstCtl
  rw [if_neg warm, gang, if_neg cdie, if_pos go]

/-- CDIEGO asks for the reset of its die alone. -/
theorem execCdiego_requests {b s : State} {q : Src} (v : Word) (h : b.regAccess q 24 .RST_CTL 0 = (true, s)) :
    execCdiego q v b = done (s.request 24 (decide (bits v 8 4 < 24)) ⟨1, [bits v 8 4], bits v 8 4, 0⟩) := by
  have bitAt (i : Nat) : bit ((v ||| 0x200) &&& 0x3F0) i = ((v.getLsbD i || (0x200 : Word).getLsbD i) && (0x3F0 : Word).getLsbD i) := by
    simp only [bit, BitVec.getLsbD_and, BitVec.getLsbD_or]
  have die : bits ((v ||| 0x200) &&& 0x3F0) 8 4 = bits v 8 4 := by
    have masked : ∀ i < 5, (0x200 : Word).getLsbD (4 + i) = false ∧ (0x3F0 : Word).getLsbD (4 + i) = true := by decide
    refine Nat.eq_of_testBit_eq fun i => ?_
    rw [testBit_bits, testBit_bits]
    by_cases hi : i < 8 + 1 - 4
    · rw [bitAt, (masked i hi).1, (masked i hi).2, Bool.or_false, Bool.and_true, bit]
    · rw [decide_eq_false hi, Bool.false_and, Bool.false_and]
  have warm : ¬ bit ((v ||| 0x200) &&& 0x3F0) 0 = true := by
    rw [bitAt]
    simp
  have gang : ¬ bit ((v ||| 0x200) &&& 0x3F0) 3 = true := by
    rw [bitAt]
    simp
  have go : bit ((v ||| 0x200) &&& 0x3F0) 9 = true := by
    rw [bitAt]
    simp
  refine (regCmd_arrives _ h).trans (congrArg done ?_)
  unfold State.wrRstCtl
  dsimp only
  rw [if_neg warm, if_neg gang, if_pos go, die]

theorem execRstBlk_requests {b s : State} {q : Src} {d : Die} {v : Word} (h : b.regAccess q d.val .RST_BLK 0 = (true, s)) (hgo : bit v 4 = true) :
    execRstBlk q d v b = done (s.request d.val (blockDefined d.val (bits v 3 0)) ⟨0, [d.val], bits v 3 0, 0⟩) :=
  (regCmd_arrives _ h).trans (congrArg done (if_pos hgo))

/-! ### Their resets (R426) -/

/-- The oldest request of a die is made by the reset of its level. -/
theorem execResetIdleReached_made {s : State} {d : Die} {idle : Bool} {r : ResetReq} (hr : (s.rst.reqs.find? fun r => r.dies.contains d.val) = some r)
    (hs : s.stopped = false) (hidle : idle = true → s.requestIdle r = true) (hover : idle = false → s.idleOver r = true) :
    execResetIdleReached d idle s =
      let u := { s with rst := { s.rst with reqs := s.rst.reqs.erase r } }
      let t := match r.level with
        | 0 => State.blockReset u d.val r.what idle
        | 1 => (State.cdieReset u r.what).setReg r.what .RST_CAUSE 0 0x1A
        | _ => State.gangReset u r.what
      done ((t.logCauses r).resetDone r idle) := by
  unfold execResetIdleReached
  rw [hr]
  refine congrArg done (if_neg ?_)
  cases idle <;> simp [hs, hidle, hover]

/-! ### Cores that start (R430) -/

/-- One bit of a write of RST_RUN. -/
def State.runBit (d : Nat) (v : Word) (s : State) (k : Nat) : State :=
  if bit v k then (if h : 4 * d + k < 100 then s.startCore ⟨4 * d + k, h⟩ else s) else s

theorem execRstRun_runs {b s : State} {q : Src} {d : Die} {v : Word} (h : b.regAccess q d.val .RST_RUN 0 = (true, s)) :
    execRstRun q d v b = done ((List.range 4).foldl (State.runBit d.val v) s) := regCmd_arrives _ h

theorem State.startCore_running {s : State} {c : CoreId} (h : s.flag (dieOf c).val .RST_RUN 0 (coreK c).val = true) : s.startCore c = s := if_pos h

theorem State.startCore_halted {s : State} {c : CoreId} (h : s.flag (dieOf c).val .RST_RUN 0 (coreK c).val = false) :
    s.startCore c = (s.updCore c fun x => { x with ip := s.reg (dieOf c).val .RST_START (coreK c).val &&& 0xFFFFFFFFFFFFC }).setFld
      (dieOf c).val .RST_RUN 0 (coreK c).val (coreK c).val 1 := if_neg (by simp [h])

theorem State.core_startCore_ne (s : State) {c e : CoreId} (h : e ≠ c) : (s.startCore c).core e = s.core e := by
  unfold State.startCore
  dsimp only
  split
  · rfl
  · exact s.core_setCore_ne _ h

/-- Its bit is no other core's of its die. -/
theorem State.run_startCore_ne (s : State) {c e : CoreId} (h : e ≠ c) (hd : dieOf e = dieOf c) :
    (s.startCore c).flag (dieOf e).val .RST_RUN 0 (coreK e).val = s.flag (dieOf e).val .RST_RUN 0 (coreK e).val := by
  have hk : (coreK e).val ≠ (coreK c).val := fun hk => h (Fin.ext (by have := Fin.val_eq_of_eq hd; simp only [dieOf, coreK] at *; omega))
  unfold State.startCore
  dsimp only
  split
  · rfl
  · rw [hd, State.flag_setFld_bit _ _ _ _ _ _ (by have := (coreK e).isLt; omega), if_neg hk]
    rfl

theorem State.start_startCore (s : State) (c : CoreId) (d k : Nat) (hk : k < 4) : (s.startCore c).reg d .RST_START k = s.reg d .RST_START k := by
  unfold State.startCore
  dsimp only
  split
  · rfl
  · refine (State.regW_setRegW_ne _ _ ?_).trans rfl
    obtain ⟨m, hm⟩ := dieBase_mul d
    obtain ⟨n, hn⟩ := dieBase_mul (dieOf c).val
    simp only [regKey, regInfo, hm, hn]
    omega

/-- A bit written starts its core; any other write leaves a core as it was. -/
theorem State.runBit_eq (s : State) (v : Word) {d : Die} {c : CoreId} (hc : dieOf c = d) :
    State.runBit d.val v s (coreK c).val = if bit v (coreK c).val then s.startCore c else s := by
  have number : 4 * d.val + (coreK c).val = c.val := by
    subst hc
    simp only [dieOf, coreK]
    omega
  unfold State.runBit
  simp only [number, c.isLt, dite_true]

/-- Another bit of the write changes neither the core nor its bit. -/
theorem State.runBit_ne (s : State) (v : Word) {d : Die} {c : CoreId} (hc : dieOf c = d) {k : Nat} (hk : k < 4) (hne : k ≠ (coreK c).val) :
    (State.runBit d.val v s k).core c = s.core c ∧
      (State.runBit d.val v s k).flag d.val .RST_RUN 0 (coreK c).val = s.flag d.val .RST_RUN 0 (coreK c).val := by
  unfold State.runBit
  split
  · split
    next _ h =>
      subst hc
      have other : c ≠ ⟨4 * (dieOf c).val + k, h⟩ := fun e => hne (by rw [e]; simp only [coreK, dieOf]; omega)
      exact ⟨s.core_startCore_ne other, s.run_startCore_ne other (Fin.ext (by simp only [dieOf]; omega))⟩
    · exact ⟨rfl, rfl⟩
  · exact ⟨rfl, rfl⟩

theorem State.start_runBit (s : State) (d : Nat) (v : Word) (j k e : Nat) (hk : k < 4) :
    (State.runBit d v s j).reg e .RST_START k = s.reg e .RST_START k := by
  unfold State.runBit
  split
  · split
    · exact s.start_startCore _ e k hk
    · rfl
  · rfl

/-- A core that runs stays as it is. -/
theorem State.runBits_running (v : Word) {d : Die} {c : CoreId} (hc : dieOf c = d) (l : List Nat) (hl : ∀ k ∈ l, k < 4) (s : State)
    (hrun : s.flag d.val .RST_RUN 0 (coreK c).val = true) : (l.foldl (State.runBit d.val v) s).core c = s.core c ∧
      (l.foldl (State.runBit d.val v) s).flag d.val .RST_RUN 0 (coreK c).val = true := by
  induction l generalizing s with
  | nil => exact ⟨rfl, hrun⟩
  | cons k l ih =>
    have kept : (State.runBit d.val v s k).core c = s.core c ∧ (State.runBit d.val v s k).flag d.val .RST_RUN 0 (coreK c).val = true := by
      by_cases hk : k = (coreK c).val
      · rw [hk, s.runBit_eq v hc, State.startCore_running (by rw [hc]; exact hrun), ite_self]
        exact ⟨rfl, hrun⟩
      · obtain ⟨hcore, hflag⟩ := s.runBit_ne v hc (hl k List.mem_cons_self) hk
        exact ⟨hcore, hflag.trans hrun⟩
    obtain ⟨hcore, hflag⟩ := ih (fun j hj => hl j (List.mem_cons_of_mem k hj)) _ kept.2
    exact ⟨hcore.trans kept.1, hflag⟩

/-- A halted core that the write names starts at its RST_START. -/
theorem State.runBits_starts {v : Word} {d : Die} {c : CoreId} (hc : dieOf c = d) (hv : bit v (coreK c).val = true) (l : List Nat)
    (hl : ∀ k ∈ l, k < 4) (s : State) (hmem : (coreK c).val ∈ l) (hhalted : s.flag d.val .RST_RUN 0 (coreK c).val = false) :
    ((l.foldl (State.runBit d.val v) s).core c).ip = s.reg d.val .RST_START (coreK c).val &&& 0xFFFFFFFFFFFFC ∧
      (l.foldl (State.runBit d.val v) s).flag d.val .RST_RUN 0 (coreK c).val = true := by
  induction l generalizing s with
  | nil => exact absurd hmem List.not_mem_nil
  | cons k l ih =>
    have hl' : ∀ j ∈ l, j < 4 := fun j hj => hl j (List.mem_cons_of_mem k hj)
    by_cases hk : k = (coreK c).val
    · have started : State.runBit d.val v s k = (s.updCore c fun x => { x with ip := s.reg d.val .RST_START (coreK c).val &&& 0xFFFFFFFFFFFFC }).setFld
          d.val .RST_RUN 0 (coreK c).val (coreK c).val 1 := by
        rw [hk, s.runBit_eq v hc, if_pos hv, State.startCore_halted (by rw [hc]; exact hhalted), hc]
      have running : (State.runBit d.val v s k).flag d.val .RST_RUN 0 (coreK c).val = true := by
        rw [started, State.flag_setFld_bit _ _ _ _ _ _ (by have := (coreK c).isLt; omega), if_pos rfl]
        rfl
      obtain ⟨hcore, hflag⟩ := State.runBits_running v hc l hl' _ running
      refine ⟨?_, hflag⟩
      rw [List.foldl_cons, hcore, started]
      exact congrArg Core.ip (State.core_setCore_self ..)
    · obtain ⟨-, hflag⟩ := s.runBit_ne v hc (hl k List.mem_cons_self) hk
      have rest := ih hl' (State.runBit d.val v s k) ((List.mem_cons.mp hmem).resolve_left (Ne.symm hk)) (hflag.trans hhalted)
      rwa [s.start_runBit _ _ _ _ _ (coreK c).isLt] at rest

/-- A core that the write does not name stays as it is. -/
theorem State.runBits_others {v : Word} {d : Die} {c : CoreId} (h : dieOf c ≠ d ∨ bit v (coreK c).val = false) (l : List Nat)
    (hl : ∀ k ∈ l, k < 4) (s : State) : (l.foldl (State.runBit d.val v) s).core c = s.core c := by
  refine List.foldlRecOn (motive := fun t : State => t.core c = s.core c) l _ rfl fun t ht k hk => Eq.trans ?_ ht
  unfold State.runBit
  split
  next hv =>
    split
    next hlt =>
      refine t.core_startCore_ne fun e => ?_
      have := hl k hk
      rcases h with h | h
      · exact h (by rw [e]; exact Fin.ext (by simp only [dieOf]; omega))
      · have number : (coreK c).val = k := by rw [e]; simp only [coreK]; omega
        rw [number, hv] at h
        exact absurd h (by decide)
    · rfl
  · rfl

/-- Settles O55: a request is taken or refused by R426's conditions (`State.request_taken`, `State.request_refused`), its reset is the one of
its level, and each bit of RST_RUN starts its core alone (`State.runBits_starts`). -/
theorem resetRequests : Obligations.ResetRequests := by
  intro b s q v out take
  refine ⟨fun hb => ⟨regCmd_arrives _ hb, ⟨fun hphase hv hidle => ?_, fun h => ?_⟩, fun hphase hd hidle => ?_, fun h => ?_⟩,
    fun d hb hgo => ⟨fun hphase hok hidle => ?_, fun h => ?_⟩, fun d idle r hr hs hidle hover => ?made, fun d hb => ?run⟩
  · exact (execGanggo_requests v hb).trans (congrArg done (State.request_taken hphase hv hidle))
  · exact (execGanggo_requests v hb).trans (congrArg done (State.request_refused h))
  · exact (execCdiego_requests v hb).trans (congrArg done (State.request_taken hphase (by simpa using hd) (by simpa using hidle)))
  · exact (execCdiego_requests v hb).trans (congrArg done (State.request_refused (by simpa using h)))
  · exact (execRstBlk_requests hb hgo).trans (congrArg done (State.request_taken hphase hok (by simpa using hidle)))
  · exact (execRstBlk_requests hb hgo).trans (congrArg done (State.request_refused (by simpa using h)))
  case made =>
    have made := execResetIdleReached_made hr hs hidle hover
    refine ⟨fun h => made.trans ?_, fun h => made.trans ?_, fun h => made.trans ?_⟩ <;> simp only [h, State.logCauses] <;> rfl
  case run =>
    have four : ∀ k ∈ List.range 4, k < 4 := fun k => List.mem_range.mp
    refine ⟨_, execRstRun_runs hb, fun c hc hv hhalted => ?_, fun c hc => ?_⟩
    · obtain ⟨hip, hflag⟩ := State.runBits_starts hc hv (List.range 4) four s (List.mem_range.mpr (coreK c).isLt) hhalted
      refine ⟨?_, ?_⟩
      · rw [(State.logsOnly_settle _).core]
        exact hip
      · rw [State.flag, State.reg, State.regW_settle _ (regKey_ne_of_blk_any _ _ (by decide) (by decide) (by decide))
          (regKey_ne_of_blk_any _ _ (by decide) (by decide) (by decide))]
        exact hflag
    · rw [(State.logsOnly_settle _).core]
      exact State.runBits_others hc (List.range 4) four s

end Sys2Proof.Machine

/-! SUPPORT. Reset sources: the cause recorded, what a cold and a warm reset leave, and their release (R422–R425, R455, R513, R521–R524). -/

namespace Sys2Proof.Machine

open Sys2Proof

/-! ### The cause (R425) -/

theorem regKey_cause_inj {d e : Nat} (h : regKey d .RST_CAUSE 0 0 = regKey e .RST_CAUSE 0 0) : d = e :=
  dieBase_inj (by simp only [regKey, regInfo] at h; omega)

/-- The same cause written into each die of a list. -/
theorem State.cause_foldl (v : Word) (l : List Nat) (s : State) (d : Nat) (h : d ∈ l ∨ s.reg d .RST_CAUSE 0 = v) :
    (l.foldl (fun s d => s.setReg d .RST_CAUSE 0 v) s).reg d .RST_CAUSE 0 = v := by
  induction l generalizing s with
  | nil => exact h.resolve_left List.not_mem_nil
  | cons e l ih =>
    refine ih _ ?_
    by_cases hd : d = e
    · exact .inr (hd ▸ State.regW_setRegW_self ..)
    · refine h.imp (fun h => (List.mem_cons.mp h).resolve_left hd) fun h => ?_
      exact (State.regW_setRegW_ne _ _ fun hk => hd (regKey_cause_inj hk)).trans h

/-- Nothing but the causes to log and registers changes. -/
theorem State.logsOnly_recordCause (s : State) (src reason : Nat) :
    ∃ causes, State.LogsOnly { s with rst := { s.rst with causes := causes } } (s.recordCause src reason) := by
  unfold State.recordCause
  extract_lets r lvl v keeps t
  have fold (t : State) : t.LogsOnly ((List.range 25).foldl (fun s d => if keeps d then s else s.setReg d .RST_CAUSE 0 (BitVec.ofNat 64 v)) t) := by
    refine State.logsOnly_foldl (fun t d => ?_) _ t
    split
    · exact .refl t
    · exact t.logsOnly_setRegW ..
  refine ⟨t.rst.causes, State.LogsOnly.trans (t := t) ?_ (fold t)⟩
  clear fold
  simp only [t]
  split <;> rfl

section recordCause
variable (s : State) (src reason : Nat)

theorem State.asserted_recordCause : (s.recordCause src reason).rst.asserted = s.rst.asserted := by
  obtain ⟨causes, h⟩ := s.logsOnly_recordCause src reason
  rw [h.rst]

theorem State.mem_recordCause : (s.recordCause src reason).mem = s.mem := by
  obtain ⟨causes, h⟩ := s.logsOnly_recordCause src reason
  rw [h.mem]

theorem State.coldNow_recordCause : (s.recordCause src reason).coldNow = s.coldNow := by
  rw [State.coldNow, State.coldNow, s.asserted_recordCause]

/-- From operation the cause is recorded on every die. -/
theorem State.cause_recordCause (h : s.inReset = false) (hsrc : src < 16) :
    (s.recordCause src reason).fld 24 .RST_CAUSE 0 3 0 = src := by
  unfold State.recordCause
  extract_lets lvl v keeps r t
  have unkept (d : Nat) : keeps d = false := by simp only [keeps, h, Bool.false_and]
  simp only [unkept, Bool.false_eq_true, if_false]
  rw [State.fld, State.cause_foldl _ _ t 24 (.inl (by decide)), bits, BitVec.toNat_ofNat]
  simp only [v]
  omega

end recordCause

/-! ### A counter commit cut off (R477) -/

/-- A commit cut off changes the fuses and their shadow, which is no cause and none of memory, the reset controller and the MC. -/
structure State.FuseOnly (s t : State) : Prop where
  mem : t.mem = s.mem
  rst : t.rst = s.rst
  mc : t.mc = s.mc
  cause : t.reg 24 .RST_CAUSE 0 = s.reg 24 .RST_CAUSE 0

theorem State.FuseOnly.trans {s t u : State} (h : s.FuseOnly t) (k : t.FuseOnly u) : s.FuseOnly u :=
  ⟨k.mem.trans h.mem, k.rst.trans h.rst, k.mc.trans h.mc, k.cause.trans h.cause⟩

theorem State.fuseOnly_blowSteps (s : State) (c n : Nat) : s.FuseOnly (s.blowSteps c n) := by
  have shadow (t : State) : t.FuseOnly (t.arbShadow c) := ⟨rfl, rfl, rfl, t.reg_setFld_ne _ _ _ (by decide)⟩
  refine State.FuseOnly.trans ?_ (shadow _)
  exact List.foldlRecOn (motive := s.FuseOnly) (List.range n) _ ⟨rfl, rfl, rfl, rfl⟩ fun t ht _ _ => ht.trans ⟨rfl, rfl, rfl, rfl⟩

theorem State.fuseOnly_cutCommit (s : State) : s.FuseOnly s.cutCommit := by
  unfold State.cutCommit
  split
  · exact ⟨rfl, rfl, rfl, rfl⟩
  · refine State.FuseOnly.trans ?_ (State.fuseOnly_blowSteps ..)
    exact ⟨rfl, rfl, rfl, rfl⟩

/-! ### What is kept -/

theorem State.logsOnly_keep (old s : State) (l : List Kept) : s.LogsOnly (old.keep s l) := State.logsOnly_foldl (fun t _ => t.logsOnly_setRegW ..) l s

theorem State.logsOnly_newChallenge (s : State) : s.LogsOnly s.newChallenge := by
  unfold State.newChallenge
  refine State.logsOnly_foldl ?_ (List.range 4) s
  exact fun _ _ => rfl

/-- A list of kept registers that names the K-die's cause, all of it, and no other register at its place. -/
def keepsCause (l : List Kept) : Prop :=
  (∃ k ∈ l, regKey k.die k.name k.i k.w = regKey 24 .RST_CAUSE 0 0) ∧
    ∀ k ∈ l, regKey k.die k.name k.i k.w = regKey 24 .RST_CAUSE 0 0 → k.mask = BitVec.allOnes 64 ∧ regReset k.name k.die k.i = 0x41

theorem State.cause_keep (old : State) {l : List Kept} (h : keepsCause l) (s : State) :
    (old.keep s l).reg 24 .RST_CAUSE 0 = old.reg 24 .RST_CAUSE 0 := by
  have kept (l : List Kept) (hl : ∀ k ∈ l, regKey k.die k.name k.i k.w = regKey 24 .RST_CAUSE 0 0 →
      k.mask = BitVec.allOnes 64 ∧ regReset k.name k.die k.i = 0x41) (s : State)
      (hs : (∃ k ∈ l, regKey k.die k.name k.i k.w = regKey 24 .RST_CAUSE 0 0) ∨ s.reg 24 .RST_CAUSE 0 = old.reg 24 .RST_CAUSE 0) :
      (old.keep s l).reg 24 .RST_CAUSE 0 = old.reg 24 .RST_CAUSE 0 := by
    induction l generalizing s with
    | nil => exact hs.resolve_left (by simp)
    | cons k l ih =>
      refine ih (fun j hj => hl j (List.mem_cons_of_mem k hj)) _ ?_
      by_cases hk : regKey k.die k.name k.i k.w = regKey 24 .RST_CAUSE 0 0
      · obtain ⟨hmask, hreset⟩ := hl k List.mem_cons_self hk
        have default : regReset .RST_CAUSE 24 0 = 0x41 := by decide
        have word : old.regW k.die k.name k.i k.w = old.reg 24 .RST_CAUSE 0 := by
          rw [State.reg, State.regW, State.regW, hk, hreset, default]
        refine .inr ?_
        show look (fun _ => regReset .RST_CAUSE 24 0) (put (fun _ => regReset k.name k.die k.i) s.regs (regKey k.die k.name k.i k.w) _) _ = _
        rw [hk, hreset, default, look_put_self, hmask, BitVec.and_allOnes, BitVec.not_allOnes, BitVec.and_zero, BitVec.or_zero, word]
      · refine hs.imp (fun ⟨j, hj, hjk⟩ => ⟨j, (List.mem_cons.mp hj).resolve_left fun e => hk (e ▸ hjk), hjk⟩) fun hs => ?_
        exact (State.regW_setRegW_ne _ _ (Ne.symm hk)).trans hs
  exact kept l h.2 s (.inl h.1)

theorem keepsCause_coldKept : keepsCause coldKept := by
  unfold keepsCause
  decide

theorem keepsCause_warmKept : keepsCause warmKept := by
  unfold keepsCause
  decide +kernel

theorem State.mem_mcSend (s : State) (b : Bind) (vals : List Nat) : (s.mcSend b vals).mem = s.mem := by cases b <;> rfl

/-- A message changes no register but the Agdoa link's two. -/
theorem State.regW_mcSend (s : State) (b : Bind) (vals : List Nat) {d i w : Nat} {r : RegName} (hs : regKey d r i w ≠ regKey 24 .AGD_LSTAT 0 0)
    (hl : regKey d r i w ≠ regKey 24 .AGD_LANES 0 0) : (s.mcSend b vals).regW d r i w = s.regW d r i w := by
  cases b
  · rfl
  · unfold State.mcSend State.send
    exact State.regW_updLink _ _ _ hs hl

/-! ### What a reset leaves (R354, R422) -/

theorem State.cause_newChallenge (s : State) : s.newChallenge.reg 24 .RST_CAUSE 0 = s.reg 24 .RST_CAUSE 0 := by
  unfold State.newChallenge
  refine List.foldlRecOn (motive := fun t : State => t.reg 24 .RST_CAUSE 0 = s.reg 24 .RST_CAUSE 0) (List.range 4) _ rfl fun t ht i hi => ?_
  have hi := List.mem_range.mp hi
  exact (State.regW_setRegW_ne _ _ (regKey_ne_of_blk (by decide) (by decide) (by simp only [regInfo]; omega))).trans ht

/-- A cold reset empties memory; the cause and the sources asserted stay. -/
theorem State.coldContents_spec (s : State) : s.coldContents.mem = [] ∧ s.coldContents.rst.asserted = s.rst.asserted ∧
    s.coldContents.rst.pwrEn = s.rst.pwrEn ∧ s.coldContents.rst.rails = s.rst.rails ∧ s.coldContents.rst.railsSeen = s.rst.railsSeen ∧
    s.coldContents.rst.trip = s.rst.trip ∧ s.coldContents.reg 24 .RST_CAUSE 0 = s.reg 24 .RST_CAUSE 0 := by
  have cut := s.fuseOnly_cutCommit
  unfold State.coldContents
  extract_lets old r t
  have logs : t.LogsOnly (old.keep t coldKept).newChallenge := (old.logsOnly_keep t coldKept).trans (State.logsOnly_newChallenge _)
  rw [logs.mem, logs.rst, State.cause_newChallenge, State.cause_keep old keepsCause_coldKept, cut.cause, ← cut.rst]
  exact ⟨rfl, rfl, rfl, rfl, rfl, rfl, rfl⟩

/-- A warm reset keeps HBM and no other memory; the cause stays. -/
theorem State.warmContents_spec (s : State) : s.warmContents.mem = (s.mem.filter fun (c : Nat × Byte) => decide (c.1 < hbmEnd)) ∧
    s.warmContents.reg 24 .RST_CAUSE 0 = s.reg 24 .RST_CAUSE 0 := by
  have cut := s.fuseOnly_cutCommit
  unfold State.warmContents
  extract_lets old r t u
  have logs : t.LogsOnly u := (old.logsOnly_keep t warmKept).trans (State.logsOnly_newChallenge _)
  have mem : u.mem = s.mem.filter fun (c : Nat × Byte) => decide (c.1 < hbmEnd) := by
    rw [logs.mem, ← cut.mem]
  have cause : u.reg 24 .RST_CAUSE 0 = s.reg 24 .RST_CAUSE 0 :=
    (State.cause_newChallenge _).trans ((State.cause_keep old keepsCause_warmKept t).trans cut.cause)
  clear_value u
  split
  · split
    · refine ⟨?_, ?_⟩
      · rw [State.mem_mcSend, State.logUpdate, (State.logsOnly_mcLog ..).mem, mem]
      · rw [State.reg, State.regW_mcSend _ _ _ (by decide) (by decide), State.logUpdate, State.regW_mcLog _ _ _ _ _ _ _ (by decide)]
        exact cause
    · exact ⟨mem, cause⟩
  · exact ⟨mem, cause⟩

/-- Bytes of memory after all at or above a bound have gone. -/
theorem look_below (m : List (Nat × Byte)) (n a : Nat) : look memDefault (m.filter fun (c : Nat × Byte) => decide (c.1 < n)) a =
    if a < n then look memDefault m a else 0 := by
  have dropped : (m.filter fun (c : Nat × Byte) => decide (c.1 < n)) = dropKeys (fun k => decide (n ≤ k)) m :=
    List.filter_congr fun c _ => by simp [← decide_not]
  rw [dropped, look_dropKeys]
  by_cases h : a < n
  · rw [if_pos h, if_neg (by simp [h])]
  · rw [if_neg h, if_pos (by simpa using h)]
    rfl

/-! ### A source asserts (R422, R424) -/

section assertSource
variable {s : State} {src : Nat} (reason : Nat) (hnew : src ∉ s.rst.asserted)
include hnew

/-- A cold source that is asserted already makes the reset longer and nothing else. -/
theorem State.assertSource_extends (hcold : s.coldNow = true) : s.assertSource src reason =
    let t := s.recordCause src reason
    { t with rst := { t.rst with asserted := t.rst.asserted ++ [src] } } :=
  (if_neg (by simpa using hnew)).trans (if_pos (by rw [s.coldNow_recordCause, hcold]))

/-- A cold source empties memory; the pins and rails stay. -/
theorem State.assertSource_cold (hcold : s.coldNow = false) (hsrc : src ≤ 4) : ∃ (u : State) (rst : Reset), u.mem = [] ∧
    u.reg 24 .RST_CAUSE 0 = (s.recordCause src reason).reg 24 .RST_CAUSE 0 ∧ rst.asserted = s.rst.asserted ++ [src] ∧
    (rst.pwrEn = s.rst.pwrEn ∧ rst.rails = s.rst.rails ∧ rst.railsSeen = s.rst.railsSeen ∧ rst.trip = s.rst.trip) ∧
    s.assertSource src reason = { u with rst := rst } := by
  obtain ⟨causes, logs⟩ := s.logsOnly_recordCause src reason
  obtain ⟨hmem, hasserted, hpwr, hrails, hseen, htrip, hcause⟩ := State.coldContents_spec (s.recordCause src reason)
  rw [logs.rst] at hasserted hpwr hrails hseen htrip
  have level : srcLevel src = 4 := if_pos hsrc
  refine ⟨_, _, hmem, hcause, ?_, ?_,
    (if_neg (by simpa using hnew)).trans ((if_neg (by simp [s.coldNow_recordCause, hcold])).trans (if_pos level))⟩
  · exact congrArg (· ++ [src]) hasserted
  · exact ⟨hpwr, hrails, hseen, htrip⟩

/-- A warm source keeps HBM. -/
theorem State.assertSource_warm (hcold : s.coldNow = false) (hsrc : 4 < src) : ∃ (u : State) (rst : Reset),
    u.mem = (s.mem.filter fun (c : Nat × Byte) => decide (c.1 < hbmEnd)) ∧
    u.reg 24 .RST_CAUSE 0 = (s.recordCause src reason).reg 24 .RST_CAUSE 0 ∧ rst.asserted = s.rst.asserted ++ [src] ∧
    s.assertSource src reason = { u with rst := rst } := by
  have kept (b : Bool × State) (h : b.2.mem = s.mem ∧ b.2.reg 24 .RST_CAUSE 0 = (s.recordCause src reason).reg 24 .RST_CAUSE 0) :
      b.2.warmContents.mem = (s.mem.filter fun (c : Nat × Byte) => decide (c.1 < hbmEnd)) ∧
        b.2.warmContents.reg 24 .RST_CAUSE 0 = (s.recordCause src reason).reg 24 .RST_CAUSE 0 := by
    obtain ⟨hmem, hcause⟩ := b.2.warmContents_spec
    exact ⟨hmem.trans (by rw [h.1]), hcause.trans h.2⟩
  obtain ⟨hmem, hcause⟩ := kept (if (s.recordCause src reason).phase = 3 then (s.recordCause src reason).freeBool else (false, s.recordCause src reason))
    (by split <;> exact ⟨s.mem_recordCause src reason, rfl⟩)
  refine ⟨_, _, hmem, hcause, ?_,
    (if_neg (by simpa using hnew)).trans ((if_neg (by simp [s.coldNow_recordCause, hcold])).trans (if_neg (by simp [srcLevel, hsrc])))⟩
  exact congrArg (· ++ [src]) (s.asserted_recordCause src reason)

/-- Every source that asserts is one of those asserted. -/
theorem State.asserted_assertSource : (s.assertSource src reason).rst.asserted = s.rst.asserted ++ [src] := by
  cases hcold : s.coldNow with
  | true =>
    rw [State.assertSource_extends reason hnew hcold]
    exact congrArg (· ++ [src]) (s.asserted_recordCause src reason)
  | false =>
    by_cases hsrc : src ≤ 4
    · obtain ⟨u, rst, -, -, hrst, -, heq⟩ := State.assertSource_cold reason hnew hcold hsrc
      rw [heq]
      exact hrst
    · obtain ⟨u, rst, -, -, hrst, heq⟩ := State.assertSource_warm reason hnew hcold (Nat.lt_of_not_le hsrc)
      rw [heq]
      exact hrst

/-- The cause of a reset out of operation names its source. -/
theorem State.cause_assertSource (h : s.inReset = false) (hsrc : src < 16) : (s.assertSource src reason).fld 24 .RST_CAUSE 0 3 0 = src := by
  have recorded := s.cause_recordCause src reason h hsrc
  have hcold : s.coldNow = false := by
    have : s.rst.asserted = [] := by
      cases hl : s.rst.asserted with
      | nil => rfl
      | cons => simp [State.inReset, hl] at h
    simp [State.coldNow, this]
  by_cases h4 : src ≤ 4
  · obtain ⟨u, rst, -, hu, -, -, heq⟩ := State.assertSource_cold reason hnew hcold h4
    rw [heq]
    exact (congrArg (bits · 3 0) hu).trans recorded
  · obtain ⟨u, rst, -, hu, -, heq⟩ := State.assertSource_warm reason hnew hcold (Nat.lt_of_not_le h4)
    rw [heq]
    exact (congrArg (bits · 3 0) hu).trans recorded

/-- A cold source empties memory, a warm one keeps HBM, and a further one while a cold one is asserted all of it. -/
theorem State.byte_assertSource (a : Nat) : (s.assertSource src reason).byte a =
    if s.coldNow then s.byte a else if src ≤ 4 then 0 else if a < hbmEnd then s.byte a else 0 := by
  cases hcold : s.coldNow with
  | true =>
    have mem : (s.assertSource src reason).mem = s.mem :=
      (congrArg State.mem (State.assertSource_extends reason hnew hcold)).trans (s.mem_recordCause src reason)
    rw [if_pos rfl, State.byte, mem, State.byte]
  | false =>
    rw [if_neg (by decide)]
    by_cases hsrc : src ≤ 4
    · obtain ⟨u, rst, hmem, -, -, -, heq⟩ := State.assertSource_cold reason hnew hcold hsrc
      rw [if_pos hsrc, heq, State.byte, hmem]
      rfl
    · obtain ⟨u, rst, hmem, -, -, heq⟩ := State.assertSource_warm reason hnew hcold (Nat.lt_of_not_le hsrc)
      rw [if_neg hsrc, heq, State.byte, hmem, look_below, State.byte]

end assertSource

/-! ### Release (R424) -/

/-- While another source is asserted, a release takes its own off alone. -/
theorem State.releaseSource_others {s : State} {src : Nat} (hmem : src ∈ s.rst.asserted) (hother : ∃ c ∈ s.rst.asserted, c ≠ src) :
    s.releaseSource src = { s with rst := { s.rst with asserted := s.rst.asserted.filter (· != src) } } := by
  obtain ⟨c, hc, hne⟩ := hother
  have some_left : c ∈ s.rst.asserted.filter (· != src) := List.mem_filter.mpr ⟨hc, by simpa using hne⟩
  have left : (s.rst.asserted.filter (· != src)).isEmpty = false := List.isEmpty_eq_false_iff.mpr (List.ne_nil_of_mem some_left)
  exact (if_neg (by simpa using hmem)).trans (if_pos (by simp [State.stopped, left]))

/-- The last source to release takes the module out of reset. -/
theorem State.releaseSource_last {s : State} {src : Nat} (hlast : s.rst.asserted = [src]) (htrip : s.rst.trip = false) :
    s.releaseSource src = State.leaveReset { s with rst := { s.rst with asserted := [] } } := by
  have none_left : s.rst.asserted.filter (· != src) = [] := by simp [hlast]
  refine (if_neg (by simp [hlast])).trans ?_
  simp only [none_left]
  exact if_neg (by simp [State.stopped, htrip])

/-- A release by command: the power-on source's with the rails in regulation. -/
theorem execResetSourceRelease_releases {s : State} {r : RstSrc} (href : r ≠ .refclk) (hrails : r = .powerOn → s.rst.rails = true) :
    execResetSourceRelease r s = done (s.releaseSource (srcCode r)).tryStart := by
  cases r with
  | powerOn => exact congrArg done (if_pos (hrails rfl))
  | refclk => exact absurd rfl href
  | _ => rfl

/-! ### The standby rail (R455, R523) -/

/-- The state in which the standby rail's fall asserts the power-on source: with the rails off and no source asserted. -/
def State.unpowered (s : State) : State :=
  { s with rst := { s.rst with
    starting := false, rails := false, railsSeen := false, trip := false, hot := [], asserted := [], causes := [] } }

/-- The causes of the standby rail's fall are written last. -/
theorem execStandbyRailDown_spec (s : State) : ∃ t : State, execStandbyRailDown s = done t ∧
    t.rst.asserted = [1, 2] ++ s.rst.asserted.filter (fun n => n == 3 || n == 5 || n == 11) ∧ (∀ d < 25, t.reg d .RST_CAUSE 0 = 0x41) ∧
    t.rst.railsSeen = false ∧ t.rst.rails = false ∧ t.rst.pwrEn = s.rst.pwrEn ∧ t.rst.trip = false := by
  have rst (v : Word) (u : State) : ((List.range 25).foldl (fun s d => s.setReg d .RST_CAUSE 0 v) u).rst = u.rst :=
    (State.logsOnly_foldl (fun t d => t.logsOnly_setRegW d .RST_CAUSE 0 0 v) (List.range 25) u).rst
  obtain ⟨u, r, -, -, -, ⟨hpwr, hrails, hseen, htrip⟩, heq⟩ :=
    State.assertSource_cold (s := s.unpowered) (src := 1) 0 List.not_mem_nil rfl (by decide)
  have falls (x : State) (h : s.unpowered.assertSource 1 0 = x) : execStandbyRailDown s = done ((List.range 25).foldl
      (fun s d => s.setReg d .RST_CAUSE 0 0x41) { x with rst := { x.rst with
        asserted := [1, 2] ++ s.rst.asserted.filter (fun n => n == 3 || n == 5 || n == 11), causes := [0x41] } }) := h ▸ rfl
  refine ⟨_, falls _ heq, ?_, fun d hd => State.cause_foldl 0x41 _ _ d (.inl (List.mem_range.mpr hd)), ?_, ?_, ?_, ?_⟩ <;> rw [rst]
  · exact hseen
  · exact hrails
  · exact hpwr
  · exact htrip

/-! ### The input (R449, R451) -/

theorem execSupplyUndervoltage_asserts {s : State} {v : BitVec 16} (hv : v.toNat < 4000) :
    execSupplyUndervoltage v s =
      let u := if s.supply.warn = true then { s with supply := { s.supply with up := false, low := min s.supply.low v.toNat } }
        else let t := { s with supply := { s.supply with warn := true, up := false, low := v.toNat, began := s.mctime } }
          if s.stopped = true then t else t.satFld 24 .PWR_WARN_CNT 0 31 0 1
      done (State.assertSource (if s.coldNow = true then u else u.logNow 0x0003 0 24 u.supply.low
        (u.mctime - u.supply.began) (u.reg 24 .PWR_WARN_CNT 0).toNat) 2 0) := by
  unfold execSupplyUndervoltage
  dsimp only
  rw [if_neg (Nat.not_le.mpr hv)]
  cases s.supply.warn <;> cases s.stopped <;> rfl

/-- Settles O54: an asserted source is recorded in the cause (`State.cause_assertSource`) and among those asserted, and leaves of memory what its
level does (`State.byte_assertSource`); the last one to release takes the module out of reset (`State.releaseSource_last`). -/
theorem resetSources : Obligations.ResetSources := by
  intro s out
  refine ⟨fun r reason => ⟨fun hpower href => ?_, ?_, ?_, ?_⟩, fun src reason hlo hhi hnew => ⟨?_, ?_, ?_, ?_, ?_, ?_⟩, rfl,
    fun r href hrails => ⟨fun hmem hother => ?_, fun hlast htrip => ?_⟩, rfl, rfl, rfl, rfl, fun v => execSupplyUndervoltage_asserts, rfl, rfl,
    fun hstart hrails => congrArg done (if_pos (by simp [hstart, hrails])), fun h => congrArg done (if_pos h),
    fun h => congrArg done (if_neg (by simp [h])), ?standby⟩
  · cases r with
    | powerOn => exact absurd rfl hpower
    | refclk => exact absurd rfl href
    | _ => rfl
  · rintro rfl htrip
    exact congrArg done (if_neg (by simp [htrip]))
  · rintro rfl htrip
    exact congrArg done (if_pos htrip)
  · rintro rfl
    rfl
  · simp [State.stopped, State.asserted_assertSource reason hnew]
  · exact State.asserted_assertSource reason hnew
  · exact fun h => State.cause_assertSource reason hnew h (by omega)
  · exact fun hcold a => (State.byte_assertSource reason hnew a).trans (if_pos hcold)
  · exact fun hcold hsrc a => (State.byte_assertSource reason hnew a).trans ((if_neg (by simp [hcold])).trans (if_pos hsrc))
  · exact fun hcold hsrc a => (State.byte_assertSource reason hnew a).trans ((if_neg (by simp [hcold])).trans (if_neg (by omega)))
  · exact (execResetSourceRelease_releases href hrails).trans (congrArg (fun u : State => done u.tryStart) (State.releaseSource_others hmem hother))
  · exact (execResetSourceRelease_releases href hrails).trans (congrArg (fun u : State => done u.tryStart) (State.releaseSource_last hlast htrip))
  case standby =>
    obtain ⟨t, ht, hasserted, hcause, hseen, hrails, hpwr, htrip⟩ := execStandbyRailDown_spec s
    refine ⟨t.settle, ht, ?_, fun d hd => ?_, ?_, ?_, ?_, ?_⟩
    · rw [(State.logsOnly_settle t).rst, hasserted]
    · rw [State.reg, t.regW_settle (regKey_ne_of_blk_any _ _ (by decide) (by decide) (by decide))
        (regKey_ne_of_blk_any _ _ (by decide) (by decide) (by decide))]
      exact hcause d hd
    all_goals rw [(State.logsOnly_settle t).rst]
    · exact hseen
    · exact hrails
    · exact hpwr
    · exact htrip

end Sys2Proof.Machine

/-! SUPPORT. Restores: the manifest held against the plan, the blocks, and the end (R413). -/

namespace Sys2Proof.Machine

open Sys2Proof

/-! ### The start -/

/-- GO takes the restore's source, offset and EXPECT from what it writes. -/
theorem execTwnRcmdGo_starts {b s : State} {q : Src} {v : Word} (hb : b.regAccess q 24 .TWN_RCMD 0 = (true, s)) (hgo : bit v 0 = true)
    (hidle : s.restore = none) : execTwnRcmdGo q v b = done (State.setReg { s.setReg 24 .TWN_RCMD 0
      (plainWrite (regInfo .TWN_RCMD) (s.reg 24 .TWN_RCMD 0) v (BitVec.allOnes 64)) with restore := some {
        src := bits v 3 1, ofs := bits v 55 8, expect := bit v 4, ptb := (s.core ⟨96, by decide⟩).ptb } } 24 .TWN_RSTAT 0 0x20) := by
  refine (regCmd_arrives _ hb).trans (congrArg done ?_)
  have go : ¬ (!bit (v &&& BitVec.allOnes 64) 0 || (s.setReg 24 .TWN_RCMD 0 (plainWrite (regInfo .TWN_RCMD) (s.reg 24 .TWN_RCMD 0) v
      (BitVec.allOnes 64))).restore.isSome) = true := by
    rw [BitVec.and_allOnes, hgo, show (s.setReg 24 .TWN_RCMD 0 _).restore = none from hidle]
    decide
  generalize hw : plainWrite (regInfo .TWN_RCMD) (s.reg 24 .TWN_RCMD 0) v (BitVec.allOnes 64) = w at go ⊢
  have word : ((s.setReg 24 .TWN_RCMD 0 w).setReg 24 .TWN_RSTAT 0 (BitVec.ofNat 64 (2 ^ 5))).reg 24 .TWN_RCMD 0 = w :=
    (State.regW_setRegW_ne _ _ (by decide)).trans (State.regW_setRegW_self ..)
  have src : bits w 3 1 = bits v 3 1 := hw ▸ bits_plainWrite rfl _ v (by decide)
  have ofs : bits w 55 8 = bits v 55 8 := hw ▸ bits_plainWrite rfl _ v (by decide)
  have expect : bit w 4 = bit v 4 := hw ▸ getLsbD_plainWrite rfl _ v (by decide)
  unfold State.wrRcmd
  dsimp only
  rw [hw, if_neg go]
  simp only [State.fld, State.flag, word, src, ofs, expect]
  rfl

/-! ### How a restore goes on -/

section
variable {s : State} {r : Restore} (hr : s.restore = some r) (hsrc : r.src ≤ 4)
include hr hsrc

theorem execRestoreComplete_head (hh : r.head = []) : execRestoreComplete s = done (s.restoreHead r) := by
  unfold execRestoreComplete
  rw [hr]
  exact congrArg done ((if_neg (by omega)).trans (if_pos hh))

theorem execRestoreComplete_block (hh : r.head ≠ []) (hb : r.block < blockCount (imageBytes r.regions)) :
    execRestoreComplete s = done (s.restoreBlock r) := by
  unfold execRestoreComplete
  rw [hr]
  exact congrArg done ((if_neg (by omega)).trans ((if_neg hh).trans (if_pos hb)))

theorem execRestoreComplete_finish (hh : r.head ≠ []) (hb : blockCount (imageBytes r.regions) ≤ r.block) :
    execRestoreComplete s = done (s.restoreFinish r) := by
  unfold execRestoreComplete
  rw [hr]
  exact congrArg done ((if_neg (by omega)).trans ((if_neg hh).trans (if_neg (by omega))))

end

/-! ### The manifest -/

section
variable {s u : State} {r : Restore} {hb : List Byte} (hread : s.restoreRead r 0 128 = (.ok hb, u))
include hread

theorem State.restoreHead_bad (h : headOk (words64 16 hb) = false) : s.restoreHead r = u.endRestore 2 := by
  simp [State.restoreHead, hread, h]

theorem State.restoreHead_partner (h : headOk (words64 16 hb) = true) (hsrc : r.src = 4) : s.restoreHead r = u.restoreTables r hb none := by
  simp [State.restoreHead, hread, h, hsrc]

variable {p : Plan} {v : State} (hplan : u.readPlan r.ctx (u.fld 24 .TWN_RPLAN 0 51 0) = (.ok p, v))
include hplan

theorem State.restoreHead_misfit (h : headOk (words64 16 hb) = true) (hsrc : r.src ≠ 4)
    (hbad : p.bad = true ∨ headFits (words64 16 hb) (planRegions p) = false) : s.restoreHead r = v.endRestore 2 := by
  simp [State.restoreHead, hread, h, hsrc, hplan, hbad]

theorem State.restoreHead_fits (h : headOk (words64 16 hb) = true) (hsrc : r.src ≠ 4) (hgood : p.bad = false)
    (hfits : headFits (words64 16 hb) (planRegions p) = true) : s.restoreHead r = v.restoreTables r hb (some p) := by
  simp [State.restoreHead, hread, h, hsrc, hplan, hgood, hfits]

end

/-! ### The tables -/

section
variable {s w : State} {r : Restore} {hb tb : List Byte}
  (hread : s.restoreRead r 128 (32 * bits ((words64 16 hb).getD 4 0) 44 32 + 32 * bits ((words64 16 hb).getD 4 0) 31 0) = (.ok tb, w))
include hread

/-- With SRC 4 the manifest's own regions are held against its header, and the tables are sent on. -/
theorem State.restoreTables_partner : s.restoreTables r hb none =
    let head := words64 16 hb
    let nreg := bits (head.getD 4 0) 44 32
    let rs := tableRegions (words64 (4 * nreg) tb) nreg
    if !headFits head rs then w.endRestore 2
    else if w.twinUp then { w.returnBytes 0 (hb ++ tb) with restore := some { r with
      head := head
      leaves := (List.range (bits (head.getD 4 0) 31 0)).map fun i => (tb.drop (32 * nreg + 32 * i)).take 32
      regions := rs } }
    else w.endRestore 5 := by
  unfold State.restoreTables
  dsimp only
  rw [hread]

theorem State.restoreTables_plan (p : Plan) : s.restoreTables r hb (some p) =
    let head := words64 16 hb
    let nreg := bits (head.getD 4 0) 44 32
    if !tableFits (words64 (4 * nreg) tb) (planRegions p) then w.endRestore 2
    else { w with restore := some { r with
      head := head
      leaves := (List.range (bits (head.getD 4 0) 31 0)).map fun i => (tb.drop (32 * nreg + 32 * i)).take 32
      regions := planRegions p, genCap := p.f 9 51 0, genFirst := p.f 10 17 0, genCount := p.f 10 36 18 } } := by
  unfold State.restoreTables
  dsimp only
  rw [hread]

end

/-! ### The blocks and the end -/

/-- A block counted, and the next one to come. -/
def State.blockDone (s : State) (r : Restore) : State :=
  State.setFld { s with restore := some { r with block := r.block + 1 } } 24 .TWN_RSTAT 0 37 6 (r.block + 1)

/-- The restore ended with status 1, and its interrupt. -/
def State.restoreDone (s : State) : State :=
  let v := ((s.setFld 24 .TWN_RSTAT 0 3 0 1).setFld 24 .TWN_RSTAT 0 4 4 1).setFld 24 .TWN_RSTAT 0 5 5 0
  State.sendIrq { v with restore := none } (v.fld 24 .TWN_ROUTE 0 15 0) 24

theorem State.restoreBlock_read {s u : State} {r : Restore} {bs : List Byte} (hread : s.restoreRead r
      (manifestBytes r.regions.length (blockCount (imageBytes r.regions)) + r.block * blockSize) (blockLen (imageBytes r.regions) r.block) = (.ok bs, u)) :
    s.restoreBlock r =
      let n := imageBytes r.regions
      if leafDigest bs ≠ r.leaves.getD r.block [] then u.endRestore 3
      else if r.src = 4 then
        if u.twinUp then (u.returnBytes (manifestBytes r.regions.length (blockCount n) + r.block * blockSize) bs).blockDone r else u.endRestore 5
      else
        match u.devWriteParts r.ctx (imageParts (·.buf0) r.regions (r.block * blockSize) (blockLen n r.block)) bs with
        | (.wait, s) => s
        | (.ok _, s) => s.blockDone r
        | (_, s) => s.endRestore 3 := by
  unfold State.restoreBlock
  dsimp only
  rw [hread] <;> rfl

theorem State.restoreFinish_mismatch {s : State} {r : Restore} (h : merkleRoot 64 r.leaves ≠ bytesOf ((List.range 4).map fun i => r.head.getD (7 + i) 0) ∨
    (r.expect = true ∧ merkleRoot 64 r.leaves ≠ s.rroot)) : s.restoreFinish r = s.endRestore 4 := if_pos h

theorem State.restoreFinish_match {s : State} {r : Restore} (hroot : merkleRoot 64 r.leaves = bytesOf ((List.range 4).map fun i => r.head.getD (7 + i) 0))
    (hexpect : r.expect = true → merkleRoot 64 r.leaves = s.rroot) : s.restoreFinish r =
      if r.src = 4 then s.restoreDone
      else match s.devWordsLin r.ctx r.genCap (2 * r.genCount) with
        | (.wait, s) => s
        | (.ok gs, s) => (s.restoreGens r gs).restoreDone
        | (_, s) => s.endRestore 3 := by
  have fits : ¬ (merkleRoot 64 r.leaves ≠ bytesOf ((List.range 4).map fun i => r.head.getD (7 + i) 0) ∨
      (r.expect = true ∧ merkleRoot 64 r.leaves ≠ s.rroot)) := fun h => h.elim (· hroot) fun ⟨he, hne⟩ => hne (hexpect he)
  unfold State.restoreFinish
  dsimp only
  rw [if_neg fits] <;> rfl

/-- Settles O52: each step of a restore follows its reads, checks and writes as they come out. -/
theorem restores : Obligations.Restores := by
  intro s out
  refine ⟨fun b q v hb hgo hidle => execTwnRcmdGo_starts hb hgo hidle, fun r hb u hr hh hsrc hread => ?head, fun r hr hh => ⟨fun hsrc hblk bs u hread => ?block,
    fun hsrc hblk hroot hexpect => ?finish, fun hsrc hblk hbad => ?mismatch⟩⟩
  case head =>
    have head := execRestoreComplete_head hr hsrc hh
    refine ⟨fun hbad => head.trans (congrArg done (State.restoreHead_bad hread hbad)), fun tb w hok h4 htb => ?_, fun p v hok h4 hplan =>
      ⟨fun hmis => head.trans (congrArg done (State.restoreHead_misfit hread hplan hok h4 hmis)), fun tb w hgood hfits htb => ?_⟩⟩
    · have tables := head.trans (congrArg done ((State.restoreHead_partner hread hok h4).trans (State.restoreTables_partner htb)))
      exact ⟨fun hmis => tables.trans (congrArg done (if_pos (by simp only [hmis]; rfl))),
        fun hfits hup => tables.trans (congrArg done ((if_neg (by simp only [hfits]; decide)).trans (if_pos hup)))⟩
    · have tables := head.trans (congrArg done ((State.restoreHead_fits hread hplan hok h4 hgood hfits).trans (State.restoreTables_plan htb p)))
      exact ⟨fun hmis => tables.trans (congrArg done (if_pos (by simp only [hmis]; rfl))),
        fun htable => tables.trans (congrArg done (if_neg (by simp only [htable]; decide)))⟩
  case block =>
    have block := (execRestoreComplete_block hr hsrc hh hblk).trans (congrArg done (State.restoreBlock_read hread))
    refine ⟨fun hne => block.trans (congrArg done (if_pos hne)), fun heq h4 hup => ?_, fun v heq h4 hw => ?_⟩
    · exact block.trans (congrArg done ((if_neg (fun h => h heq)).trans ((if_pos h4).trans (if_pos hup))))
    · refine block.trans (congrArg done ((if_neg (fun h => h heq)).trans ((if_neg h4).trans ?_)))
      rw [hw] <;> rfl
  case finish =>
    have finish := (execRestoreComplete_finish hr hsrc hh hblk).trans (congrArg done (State.restoreFinish_match hroot hexpect))
    refine ⟨fun h4 => finish.trans (congrArg done (if_pos h4)), fun gs v h4 hgs => finish.trans (congrArg done ((if_neg h4).trans ?_))⟩
    rw [hgs] <;> rfl
  case mismatch => exact (execRestoreComplete_finish hr hsrc hh hblk).trans (congrArg done (State.restoreFinish_mismatch hbad))

end Sys2Proof.Machine

/-! SUPPORT. Snapshots: whose wait on the fault queue holds a SNAP's result record back (R137, R407, R411). -/

namespace Sys2Proof.Machine

open Sys2Proof

/-! ### A SNAP closed for a stream other than its own -/

/-- The snapshot mover's request of stream 0, waiting for a record of the fault queue to become free (R140). -/
def moverWait : Waiter := { die := 24, eng := 2, span := stagingBase / 2 ^ 25, own := .stream 0 }

/-- The module out of reset, stream 0's mover waiting on the page of the staging area. -/
def moverWaits : State := { State.reset with rst := { asserted := [] }, fqWait := [moverWait] }

/-- A SNAP of stream 1 whose result record lies in that page, its addresses not translated. -/
def snapOfOne : Snap := { stream := 1, result := stagingBase }

/-- The command of stream 0. -/
def runOfZero : StreamRun := { s := 0 }

/-- Stream 1's mover writes the record: the wait is another stream's. -/
theorem moverWaits_record_written : (moverWaits.devWriteLin (snapOfOne.ctx (.stream 1)) snapOfOne.result (snapOfOne.record 9) false).1 = .ok () := by
  decide +kernel

/-- Stream 0's mover waits with it. -/
theorem moverWaits_record_waits : (moverWaits.devWriteLin (snapOfOne.ctx (.stream 0)) snapOfOne.result (snapOfOne.record 9) false).1 = .wait := by
  decide +kernel

/-- A device's write as the pair of what it came to and its state. -/
theorem State.devWriteLin_of_fst {s : State} {x : DevCtx} {la : Nat} {bs : List Byte} {a : DevAcc Unit} (h : (s.devWriteLin x la bs false).1 = a) :
    s.devWriteLin x la bs false = (a, (s.devWriteLin x la bs false).2) := Prod.ext h rfl

/-- A SNAP whose record must wait stays its stream's command. -/
theorem State.runOf_snapClose_of_wait {s : State} {r : StreamRun} {p : Snap} {reason : Nat}
    (h : (s.devWriteLin (p.ctx (.stream r.s)) p.result (p.record reason) false).1 = .wait) :
    (s.snapClose r p reason).runOf r.s = some { r with run := .snapEnds p reason } := by
  unfold State.snapClose
  rw [State.devWriteLin_of_fst h]
  exact State.runOf_setRun _ { r with run := .snapEnds p reason }

/-- Refutes O51: a SNAP is closed with the requests of the stream that runs it, while the clause of `snapClose` takes the write of the record
by the SNAP's own stream and leaves the two free to differ. Stream 0's mover waits for the fault queue on the page of the record (R140)
and stream 1's does not: the write of stream 1 is done, and stream 0's command keeps waiting instead of being dropped. -/
theorem not_snapshots : ¬ Obligations.Snapshots := by
  unfold Obligations.Snapshots
  rintro ⟨clauses, -⟩
  obtain ⟨-, closes, -⟩ := clauses moverWaits
  have written := closes runOfZero snapOfOne 9 _ (State.devWriteLin_of_fst moverWaits_record_written)
  rw [if_pos rfl] at written
  have kept := State.runOf_snapClose_of_wait (r := runOfZero) moverWaits_record_waits
  rw [written, State.runOf_dropRun] at kept
  cases kept

end Sys2Proof.Machine

/-! SUPPORT. Traffic of the twin link: protected packets and the Stencil ring (R394–R400, R403, R413). -/

namespace Sys2Proof.Machine

open Sys2Proof

/-! ### A protected packet's check -/

/-- What a good packet leaves behind before it acts: the partner heard, MISS 0 (R400). -/
def State.heardFrom (s : State) : State := State.setFld { s with twin := { s.twin with heard := true } } 24 .TWN_STAT 0 11 8 0

theorem State.twin_setFld (s : State) (d : Nat) (r : RegName) (i hi lo v : Nat) : (s.setFld d r i hi lo v).twin = s.twin := rfl

theorem State.restore_setFld (s : State) (d : Nat) (r : RegName) (i hi lo v : Nat) : (s.setFld d r i hi lo v).restore = s.restore := rfl

theorem State.mirw_heardFrom (s : State) : s.heardFrom.twin.mirw = s.twin.mirw := by
  rw [State.heardFrom, State.twin_setFld]

theorem State.restore_heardFrom (s : State) : s.heardFrom.restore = s.restore := by
  rw [State.heardFrom, State.restore_setFld]

theorem State.twin_owe (s : State) (l : LinkId) (cls n : Nat) : (s.owe l cls n).twin = s.twin := by cases l <;> rfl

theorem State.restore_owe (s : State) (l : LinkId) (cls n : Nat) : (s.owe l cls n).restore = s.restore := by cases l <;> rfl

theorem State.tagCheck_frame (s : State) (p : Pkt) (mac : List Byte) :
    (s.tagCheck p mac).2.twin.mirw = s.twin.mirw ∧ (s.tagCheck p mac).2.restore = s.restore := by
  unfold State.tagCheck
  generalize (if s.twin.roleB then s.twin.keyAB else s.twin.keyBA) = key
  split
  · exact ⟨rfl, rfl⟩
  · cases s.twin.oldRx <;> exact ⟨rfl, rfl⟩

theorem State.mirw_checked {s c : State} {l : LinkId} {cls n : Nat} {p : Pkt} {mac : List Byte} {b : Bool}
    (h : (s.owe l cls n).tagCheck p mac = (b, c)) : c.heardFrom.twin.mirw = s.twin.mirw := by
  have frame := ((s.owe l cls n).tagCheck_frame p mac).1
  rw [h, State.twin_owe] at frame
  exact c.mirw_heardFrom.trans frame

theorem State.restore_checked {s c : State} {l : LinkId} {cls n : Nat} {p : Pkt} {mac : List Byte} {b : Bool}
    (h : (s.owe l cls n).tagCheck p mac = (b, c)) : c.heardFrom.restore = s.restore := by
  have frame := ((s.owe l cls n).tagCheck_frame p mac).2
  rw [h, State.restore_owe] at frame
  exact c.restore_heardFrom.trans frame

section
variable {s : State} (hl : (s.link .twn).state = 5)
include hl

/-- Without a session a protected packet is counted and dropped. -/
theorem protectedIn_unpaired (hn : s.twin.session = false) (p : Pkt) (mac : List Byte) (f : State → State) :
    protectedIn p mac s f = done ((s.owe .twn (pktClass p.type) p.len).satFld 24 .TWN_STAT 0 47 16 1) := by
  unfold protectedIn
  simp [hl, hn]

variable (hp : s.twin.session = true) {p : Pkt} {mac : List Byte} {c : State}
include hp

/-- One whose tag is not its key's is counted and dropped. -/
theorem protectedIn_dropped (f : State → State) (h : (s.owe .twn (pktClass p.type) p.len).tagCheck p mac = (false, c)) :
    protectedIn p mac s f = done (State.rekeyDue (c.satFld 24 .TWN_STAT 0 47 16 1)) := by
  unfold protectedIn
  simp [hl, hp, h]

/-- A good one resets MISS and acts. -/
theorem protectedIn_good (f : State → State) (h : (s.owe .twn (pktClass p.type) p.len).tagCheck p mac = (true, c)) :
    protectedIn p mac s f = done (State.rekeyDue (f c.heardFrom)) := by
  unfold protectedIn
  simp [hl, hp, h, State.heardFrom]

end

/-! ### Mirror writes and their answers (R398, R462) -/

/-- The answer of a mirror write, its effect performed. -/
def State.mirrorAnswer (s : State) (tag off : Nat) (data : List Byte) : State :=
  let r := s.mirrorIn off data
  r.2.twinSend { type := 0x63, tag := tag, a := match r.1 with | .ok _ => 0 | _ => 1 }

theorem State.mirrorAnswer_eq {s u : State} {tag off : Nat} {data : List Byte} {a : Acc Unit} (h : s.mirrorIn off data = (a, u)) :
    s.mirrorAnswer tag off data = u.twinSend { type := 0x63, tag := tag, a := if a = .ok () then 0 else 1 } := by
  unfold State.mirrorAnswer
  rw [h]
  cases a <;> rfl

/-- A MIRW of the right size that need not wait is a protected packet with that answer. -/
theorem execMirw_served {s : State} {tag : BitVec 14} {off : BitVec 39} {data mac : List Byte} (h0 : 0 < data.length)
    (hsize : off.toNat % 2048 + data.length ≤ 2048) (hw : (s.mirrorIn off.toNat data).1 ≠ .wait) :
    execMirw tag off data mac s =
      protectedIn { type := 0x62, tag := tag.toNat, a := data.length - 1, b := off.toNat, data := data } mac s fun s =>
        s.mirrorAnswer tag.toNat off.toNat data := by
  unfold execMirw
  dsimp only
  rw [if_neg (by omega)]
  split
  next u hm => exact absurd (congrArg Prod.fst hm) hw
  next => rfl

/-- What a MACK does to the mirror write it ends. -/
def State.mackEnds (s : State) (m : Mirw) (rest : List Mirw) (status : BitVec 4) : State :=
  let u := { s with twin := { s.twin with mirw := rest } }
  let v := if m.late then u.logErr 24 0x06 0 9 ⟨24, 9⟩ (some (0x200000000000 + m.off)) false 0
    else if status = 0 then u else (u.errResponse 24 3 9 m.own.req (0x200000000000 + m.off)).mirwFailed m 3
  if m.lsn = 0 then v else v.stnDur

/-- A MACK, checked: an orphan where no mirror write has its tag, and else the end of the one that has. -/
def State.mackActs (s : State) (tag : BitVec 14) (status : BitVec 4) : State :=
  match s.twin.mirw.find? fun m => m.tag == tag.toNat with
  | none => s.logSomewhere 24 0x06 0 9 ⟨24, 9⟩ false 0
  | some m => s.mackEnds m (s.twin.mirw.filter fun e => e.tag != tag.toNat) status

theorem State.mackActs_orphan {s : State} {tag : BitVec 14} {status : BitVec 4}
    (h : (s.twin.mirw.find? fun m => m.tag == tag.toNat) = none) : s.mackActs tag status = s.logSomewhere 24 0x06 0 9 ⟨24, 9⟩ false 0 := by
  rw [State.mackActs, h]

theorem State.mackActs_ends {s : State} {tag : BitVec 14} {status : BitVec 4} {m : Mirw}
    (h : (s.twin.mirw.find? fun m => m.tag == tag.toNat) = some m) :
    s.mackActs tag status = s.mackEnds m (s.twin.mirw.filter fun e => e.tag != tag.toNat) status := by
  rw [State.mackActs, h]

theorem execMack_eq (tag : BitVec 14) (status : BitVec 4) (mac : List Byte) (s : State) :
    execMack tag status mac s = protectedIn { type := 0x63, tag := tag.toNat, a := status.toNat } mac s fun s => s.mackActs tag status := rfl

/-- A RETURN, checked: its bytes join the image that a restore with SRC 3 waits for (R413). -/
def State.returnActs (s : State) (off : BitVec 48) (data : List Byte) : State :=
  match s.restore with
  | some r =>
    if r.src = 3 then
      { s with restore := some { r with got := putRun (fun _ => (0 : Byte)) r.got off.toNat data,
                                        seen := putRun (fun _ => false) r.seen off.toNat (data.map fun _ => true) } }
    else s
  | none => s

theorem State.returnActs_of_restore {s : State} {off : BitVec 48} {data : List Byte} {r : Restore} (hr : s.restore = some r) (hsrc : r.src = 3) :
    s.returnActs off data = { s with restore := some { r with
      got := putRun (fun _ => (0 : Byte)) r.got off.toNat data
      seen := putRun (fun _ => false) r.seen off.toNat (data.map fun _ => true) } } := by
  rw [State.returnActs, hr]
  exact if_pos hsrc

theorem execReturnPkt_eq (off : BitVec 48) (data mac : List Byte) (s : State) :
    execReturnPkt off data mac s =
      protectedIn { type := 0x65, a := data.length - 1, b := off.toNat, data := data } mac s fun s => s.returnActs off data := rfl

/-! ### The Stencil ring (R403, R463, R464) -/

theorem execStencilRingWrite_moves {s : State} (hs : s.stopped = false) (hn : s.stencil.ring < s.fld 24 .TWN_STN_HEAD 0 63 0)
    (hroom : s.fld 24 .TWN_STN_HEAD 0 63 0 - s.fld 24 .TWN_STN_FREE 0 63 0 < 2 ^ s.fld 24 .TWN_STN 0 53 48) :
    execStencilRingWrite s = done s.stnWrite := by
  unfold execStencilRingWrite
  simp only [hs, hn, hroom, decide_true, Bool.not_false, Bool.and_self, if_true]

section
variable {s u : State} {a : Acc Unit}
  (hw : s.devWrite kReq .none 64 (s.fld 24 .TWN_STN 0 47 0 + 64 * (s.stencil.ring % 2 ^ s.fld 24 .TWN_STN 0 53 48))
    (s.bytes (stagingBase + 64 * (s.stencil.ring % 1048576)) 64) (s.anyPoison (stagingBase + 64 * (s.stencil.ring % 1048576)) 64) = (a, u))
  (ha : a ≠ .wait)
include hw ha

/-- An entry that is not mirrored is in the ring, and that is all. -/
theorem State.stnWrite_alone (hm : ¬ (s.fld 24 .TWN_STAT 0 2 0 = 3 ∧ s.flag 24 .TWN_CTL 0 11 = true ∧ s.twinUp = true)) :
    s.stnWrite = State.stnDur (State.stageOwed { u with stencil := { u.stencil with ring := s.stencil.ring + 1 } }) := by
  have off : (s.fld 24 .TWN_STAT 0 2 0 = 3 && s.flag 24 .TWN_CTL 0 11 && s.twinUp) = false := by simpa [and_assoc] using hm
  unfold State.stnWrite
  dsimp only
  simp only [off, hw]
  cases a with
  | wait => exact absurd rfl ha
  | ok | err | poison => rfl

/-- A mirrored one goes to the partner too, unless it is poisoned, after the record of the log's resumption. -/
theorem State.stnWrite_mirrored (hm : s.fld 24 .TWN_STAT 0 2 0 = 3 ∧ s.flag 24 .TWN_CTL 0 11 = true ∧ s.twinUp = true)
    (hroom : s.mirrorRoom 1 = true) : s.stnWrite =
      let n := s.stencil.ring
      let slot := 64 * (n % 2 ^ s.fld 24 .TWN_STN 0 53 48)
      let bs := s.bytes (stagingBase + 64 * (n % 1048576)) 64
      let bad := s.anyPoison (stagingBase + 64 * (n % 1048576)) 64
      let v := State.stageOwed { u with stencil := { u.stencil with ring := n + 1 } }
      let w := if v.stencil.resumed then v
        else State.stageRecord { v with stencil := { v.stencil with resumed := true } } 0xF011 (toBytes 8 n) []
      let own : Own := if fromBytes (bs.take 2) < 0xF000 then .stream (fromBytes (bs.take 8) / 2 ^ 28 % 2 ^ 18) else .log
      let off := w.fld 24 .TWN_STN_MOFS 0 38 0 + slot
      State.stnDur (if bad then (w.egress kReq 9 (0x200000000000 + off)).mirwFailed { lsn := n + 1 } 3
        else (w.twinPost own kReq (n + 1) off bs).2) := by
  have on : (s.fld 24 .TWN_STAT 0 2 0 = 3 && s.flag 24 .TWN_CTL 0 11 && s.twinUp) = true := by simpa [and_assoc] using hm
  unfold State.stnWrite
  dsimp only
  simp only [on, hroom, hw]
  cases a with
  | wait => exact absurd rfl ha
  | ok | err | poison =>
    cases hres : (State.stageOwed { u with stencil := { u.stencil with ring := s.stencil.ring + 1 } }).stencil.resumed <;>
      cases s.anyPoison (stagingBase + 64 * (s.stencil.ring % 1048576)) 64 <;> simp

end

/-- Settles O50: a protected packet is one check and then its action; the Stencil ring's step is the write of an entry and, in a session with
mirroring on, its mirror write. -/
theorem twinTraffic : Obligations.TwinTraffic := by
  unfold Obligations.TwinTraffic
  intro s
  refine ⟨fun hl hn st tm mac => protectedIn_unpaired hl hn _ mac id, fun hl hp => ⟨?_, ?_, ?_, ?_⟩, ?_, ?_⟩
  case refine_1 =>
    intro tag off data mac h0 hsize hw
    refine ⟨fun c hc => ?_, fun c a u hc hm => ?_⟩
    · exact (execMirw_served h0 hsize hw).trans (protectedIn_dropped hl hp _ hc)
    · exact ((execMirw_served h0 hsize hw).trans (protectedIn_good hl hp _ hc)).trans
        (congrArg (fun t => done (State.rekeyDue t)) (State.mirrorAnswer_eq hm))
  case refine_2 =>
    intro tag status mac
    refine ⟨fun c hc => (execMack_eq ..).trans (protectedIn_dropped hl hp _ hc), fun c hc => ⟨fun hnone => ?_, fun m hm => ?_⟩⟩
    all_goals refine (execMack_eq ..).trans ((protectedIn_good hl hp _ hc).trans (congrArg (fun t => done (State.rekeyDue t)) ?_))
    · exact State.mackActs_orphan (by rw [State.mirw_checked hc, hnone])
    · exact (State.mackActs_ends (by rw [State.mirw_checked hc, hm])).trans (by rw [State.mirw_checked hc]; rfl)
  case refine_3 =>
    exact fun st tm mac => ⟨fun c hc => protectedIn_dropped hl hp _ hc, fun c hc => protectedIn_good hl hp id hc⟩
  case refine_4 =>
    intro off data mac r hr hsrc
    refine ⟨fun c hc => (execReturnPkt_eq ..).trans (protectedIn_dropped hl hp _ hc), fun c hc => ?_⟩
    exact (execReturnPkt_eq ..).trans ((protectedIn_good hl hp _ hc).trans (congrArg (fun t => done (State.rekeyDue t))
      (State.returnActs_of_restore ((State.restore_checked hc).trans hr) hsrc)))
  case refine_5 =>
    intro n slot bs bad mirror a u hs hn hroom hw ha
    refine ⟨fun hm => ?_, fun hm hfree => ?_⟩
    · exact (execStencilRingWrite_moves hs hn hroom).trans (congrArg done (State.stnWrite_alone hw ha hm))
    · exact (execStencilRingWrite_moves hs hn hroom).trans (congrArg done (State.stnWrite_mirrored hw ha hm hfree))
  case refine_6 =>
    exact fun b q v h => regCmd_arrives _ h

end Sys2Proof.Machine

/-! SUPPORT. The twin link's session: pairing, loss and fence (R394–R397, R401, R402). -/

namespace Sys2Proof.Machine

open Sys2Proof

/-! ### What leaves the session and TWN_STAT alone -/

/-- State t has the twin's session and TWN_STAT as state s has them. -/
structure State.KeepsTwin (s t : State) : Prop where
  twin : t.twin = s.twin
  stat : t.reg 24 .TWN_STAT 0 = s.reg 24 .TWN_STAT 0

theorem State.KeepsTwin.refl (s : State) : s.KeepsTwin s := ⟨rfl, rfl⟩

theorem State.KeepsTwin.trans {s t u : State} (h : s.KeepsTwin t) (k : t.KeepsTwin u) : s.KeepsTwin u :=
  ⟨k.twin.trans h.twin, k.stat.trans h.stat⟩

theorem State.KeepsTwin.fld {s t : State} (h : s.KeepsTwin t) (hi lo : Nat) : t.fld 24 .TWN_STAT 0 hi lo = s.fld 24 .TWN_STAT 0 hi lo :=
  congrArg (bits · hi lo) h.stat

theorem State.KeepsTwin.flag {s t : State} (h : s.KeepsTwin t) (b : Nat) : t.flag 24 .TWN_STAT 0 b = s.flag 24 .TWN_STAT 0 b :=
  congrArg (bit · b) h.stat

/-- Logs and the registers of other blocks are no part of the session. -/
theorem State.LogsOnly.keepsTwin {s t : State} (h : s.LogsOnly t) (k : s.KeepsBlk 0x11 t) : s.KeepsTwin t :=
  ⟨h.keepsLinks.twin, k.reg 24 .TWN_STAT 0 rfl (by decide)⟩

theorem State.keepsTwin_settle (s : State) : s.KeepsTwin s.settle :=
  s.logsOnly_settle.keepsTwin (s.keepsBlk_settle (by decide) (by decide))

theorem State.keepsTwin_mcLog (s : State) (kind sev die p0 p1 p2 : Nat) : s.KeepsTwin (s.mcLog kind sev die p0 p1 p2) :=
  (s.logsOnly_mcLog ..).keepsTwin (s.keepsBlk_mcLog (by decide) ..)

theorem State.keepsTwin_sendIrq (s : State) (route die : Nat) : s.KeepsTwin (s.sendIrq route die) :=
  (s.logsOnly_sendIrq ..).keepsTwin (s.keepsBlk_sendIrq ..)

theorem State.keepsTwin_logErr (s : State) (die cls sev : Nat) {unit : Nat} (q : Req) (addr : Option Nat) (poison : Bool) (info : Nat)
    (hu : unit < 16) : s.KeepsTwin (s.logErr die cls sev unit q addr poison info) :=
  (s.logsOnly_logErr ..).keepsTwin (s.keepsBlk_logErr (by decide) (by decide) _ _ _ _ _ _ _ hu)

theorem State.keepsTwin_stageRecord (s : State) (kind : Nat) (first : List Byte) : s.KeepsTwin (s.stageRecord kind first []) := by
  refine ⟨(s.keepsLinks_stageRecord kind first).twin, ?_⟩
  unfold State.stageRecord
  split
  · rfl
  · unfold State.stage
    extract_lets _ lsn w0 w1 bs
    obtain ⟨m, h⟩ := s.homeWrite_eq (stagingBase + 64 * (lsn % 1048576)) bs false
    exact (State.regW_setRegW_ne _ _ (by decide)).trans (by rw [h]; rfl)

theorem State.keepsTwin_updLink (s : State) (l : LinkId) (f : Link → Link) : s.KeepsTwin (s.updLink l f) :=
  ⟨s.setLink_twin .., s.regW_updLink l f (by decide) (by decide)⟩

theorem State.keepsTwin_sendAuth (s : State) (msg : Nat) (data : List Byte) : s.KeepsTwin (s.sendAuth msg data) := by
  unfold State.sendAuth
  extract_lets n
  generalize List.range n = l
  induction l generalizing s with
  | nil => exact .refl s
  | cons i l ih => exact (s.keepsTwin_updLink ..).trans (ih _)

/-! ### Presence (R393, R401) -/

/-- The twin link, DISABLED, goes to DETECT once a partner is seen. -/
def State.twinDetects (s : State) : State := if (s.link .twn).state = 0 then s.updLink .twn fun k => { k with state := 1 } else s

theorem State.fld_twinDetects (s : State) (hi lo : Nat) : s.twinDetects.fld 24 .TWN_STAT 0 hi lo = s.fld 24 .TWN_STAT 0 hi lo := by
  unfold State.twinDetects
  split <;> rfl

theorem execTwinPresentFall_trains {s : State} (hs : s.stopped = false) (hh : s.pinHeld 8 = false) (hp : s.phase = 0) :
    execTwinPresentFall s =
      let v := State.twinDetects { s with twin := { s.twin with present := true } }
      done (if s.fld 24 .TWN_STAT 0 2 0 = 0 then v.setFld 24 .TWN_STAT 0 2 0 1 else v) := by
  have go : (s.stopped || s.phase != 0 || s.pinHeld 8) = false := by rw [hs, hp, hh]; rfl
  have stat := State.fld_twinDetects { s with twin := { s.twin with present := true } } 2 0
  unfold execTwinPresentFall
  refine congrArg done ((if_neg (Bool.eq_false_iff.mp go)).trans ?_)
  exact congrArg (fun n => if n = 0 then _ else _) stat

theorem execTwinPresentRise_ends {s : State} (hs : s.stopped = false) (hh : s.pinHeld 8 = false) :
    execTwinPresentRise s = done (State.twinDown (State.retrainLink { s with twin := { s.twin with present := false } } .twn 0) false) := by
  have go : (s.stopped || s.pinHeld 8) = false := by rw [hs, hh]; rfl
  exact congrArg done (if_neg (Bool.eq_false_iff.mp go))

/-! ### HELLO (R394, R395) -/

/-- A HELLO of the length of R394 that finds no session and no failed attempt is checked. -/
theorem execHello_checks {s : State} {serial : Word} {g group : List Byte} (hl : (s.link .twn).state = 5) (hlen : group.length = 32)
    (hg : s.twin.group = some g) (hn : s.twin.session = false) (hk : s.skimOk = true) (hf : s.twin.failed = false) :
    execHello 1 serial group s = done ((s.owe .twn 3 3).hello serial.toNat group) := by
  unfold execHello
  have hk' : (s.owe .twn 3 3).skimOk = true := hk
  simp [hl, hlen, State.twin_owe, hg, hn, hk', hf]

/-- The module with a HELLO of its own group taken in, in its role. -/
def State.greeted (s : State) (serial : Nat) (group : List Byte) (roleB : Bool) : State :=
  { s.setFld 24 .TWN_STAT 0 3 3 (b2n roleB) with
    twin := { s.twin with hello := some (serial, group), transcript := group ++ group, auth := 0, frags := [] } }

theorem State.hello_greeted (s : State) (serial : Nat) (group : List Byte) (roleB : Bool) :
    (s.greeted serial group roleB).twin.hello = some (serial, group) := rfl

theorem State.role_greeted (s : State) (serial : Nat) (group : List Byte) (roleB : Bool) :
    (s.greeted serial group roleB).flag 24 .TWN_STAT 0 3 = roleB :=
  (s.flag_setFld_bit 24 .TWN_STAT 0 3 (b2n roleB) (by decide)).trans (by cases roleB <;> rfl)

theorem State.flag_sec_greeted (s : State) (serial : Nat) (group : List Byte) (roleB : Bool) (b : Nat) :
    (s.greeted serial group roleB).flag 24 .SEC_STAT 0 b = s.flag 24 .SEC_STAT 0 b :=
  congrArg (bit · b) (s.reg_setFld_ne _ _ _ (by decide))

/-- Message 1 of an exchange begun anew (R396). -/
def State.messageOne (s : State) : State :=
  let m := s.authMsg1
  ({ m.2 with twin := { m.2.twin with auth := 1, transcript := m.2.twin.transcript ++ m.1 } }).sendAuth 1 m.1

/-- It leaves the role and the partner's HELLO. -/
theorem State.messageOne_spec (s : State) :
    s.messageOne.twin.hello = s.twin.hello ∧ s.messageOne.flag 24 .TWN_STAT 0 3 = s.flag 24 .TWN_STAT 0 3 := by
  unfold State.messageOne
  extract_lets m
  generalize m.1 = bs
  have sent (u : State) := u.keepsTwin_sendAuth 1 bs
  rw [(sent _).twin, (sent _).flag]
  exact ⟨rfl, rfl⟩

theorem State.hello_otherGroup {s : State} {g group : List Byte} (serial : Nat) (hg : s.twin.group = some g) (h : g ≠ group) :
    s.hello serial group = s.pairFail 1 := by
  unfold State.hello
  exact if_pos (by simp [hg, h])

section
variable {s : State} {serial : Nat} {group : List Byte} (hg : s.twin.group = some group)
include hg

theorem State.hello_ownSerial : s.hello Config.serial.toNat group = s.pairFail 2 := by
  unfold State.hello
  rw [if_neg (by simp [hg])]
  exact if_pos rfl

/-- A HELLO of the group and of another serial fixes the roles; role A sends message 1 if it has its identity key. -/
theorem State.hello_roles (h : Config.serial.toNat ≠ serial) : s.hello serial group =
    if decide (Config.serial.toNat < serial) then
      if !(s.greeted serial group false).flag 24 .SEC_STAT 0 3 then (s.greeted serial group false).pairFail 3
      else (s.greeted serial group false).messageOne
    else s.greeted serial group true := by
  unfold State.hello
  rw [if_neg (by simp [hg])]
  dsimp only
  rw [if_neg h]
  cases decide (Config.serial.toNat < serial) <;> rfl

/-- A partner of a lower serial leaves this module role B, which waits for message 1. -/
theorem State.hello_roleB (h : serial < Config.serial.toNat) : s.hello serial group = s.greeted serial group true := by
  rw [State.hello_roles hg (Nat.ne_of_gt h), decide_eq_false (Nat.not_lt.mpr h.le)]
  rfl

/-- One of a higher serial leaves it role A. -/
theorem State.hello_roleA (h : Config.serial.toNat < serial) (hkey : s.flag 24 .SEC_STAT 0 3 = true) :
    s.hello serial group = (s.greeted serial group false).messageOne := by
  have key : (s.greeted serial group false).flag 24 .SEC_STAT 0 3 = true := (s.flag_sec_greeted ..).trans hkey
  rw [State.hello_roles hg (Nat.ne_of_lt h), decide_eq_true h, key]
  rfl

end

/-! ### AUTH (R394, R396) -/

section
variable {s : State} (hl : (s.link .twn).state = 5) {msg : BitVec 4} {frag count : BitVec 8} {total : Nat} {data : List Byte}
  (hfrag : frag < count) (hlen : data.length ≤ 4064) (h1 : 1 ≤ msg) (h3 : msg ≤ 3)
  (hpart : s.twin.hello.isSome = true ∨ s.twin.session = true)
include hl hfrag hlen h1 h3 hpart

/-- A fragment in its bounds, of a partner that is known, is kept, and the last of a message acted on. -/
theorem execAuth_kept : execAuth msg frag count total data s =
    let o := s.owe .twn 3 (1 + (data.length + 15) / 16)
    let fs := (o.twin.frags.filter fun f => f.1 != frag.toNat) ++ [(frag.toNat, data)]
    let whole := joinFrags fs count.toNat
    let t := { o with twin := { o.twin with frags := [] } }
    done (if fs.length < count.toNat then { o with twin := { o.twin with frags := fs } }
      else if whole.length = total then t.authMessage msg.toNat whole else t.malformed .twn 0x61 0) := by
  have wellFormed : ¬ (count ≤ frag ∨ 4064 < data.length ∨ msg = 0 ∨ 3 < msg) := by
    rintro (h | h | h | h)
    · exact BitVec.not_le.mpr hfrag h
    · exact absurd hlen (Nat.not_le.mpr h)
    · subst h; exact absurd h1 (by decide)
    · exact BitVec.not_le.mpr h h3
  have known : ¬ ((s.owe .twn 3 (1 + (data.length + 15) / 16)).twin.hello.isNone &&
      !(s.owe .twn 3 (1 + (data.length + 15) / 16)).twin.session) = true := by
    rw [State.twin_owe]
    rcases hpart with h | h <;> simp [h, Option.isSome_iff_ne_none.mp]
  unfold execAuth
  dsimp only
  rw [if_neg (not_not.mpr hl), if_neg wellFormed, if_neg known]

end

/-- Message 3 in role B, message 2 sent: the session comes up where the partner's signatures verify, and else pairing fails with reason 4. -/
theorem State.authMessage_three {s : State} {data group : List Byte} {peer : Nat} (hb : s.flag 24 .TWN_STAT 0 3 = true) (ha : s.twin.auth = 2)
    (hh : s.twin.hello = some (peer, group)) : s.authMessage 3 data =
      if !peerSigned s.twin.peerCert (sha3_256 s.twin.transcript) data then s.pairFail 4 else s.sessionUp peer := by
  unfold State.authMessage
  simp only [hb, ha, hh]
  rfl

/-! ### A failed pairing tried again (R395, R397) -/

section
variable {s : State} (hl : (s.link .twn).state = 5) (hf : s.twin.failed = true)
include hl hf

theorem execPairingRetry_rekeys (hses : s.twin.session = true) :
    execPairingRetry s = done (State.rekey { s with twin := { s.twin with failed := false } }) := by
  unfold execPairingRetry
  rw [if_neg (by simp [hl, hf]), if_pos hses]

theorem execPairingRetry_again (hses : s.twin.session = false) : execPairingRetry s =
    let u := State.twinActive { s with twin := { s.twin with failed := false, hello := none } }
    done (match s.twin.hello with
      | some (serial, group) => if u.twin.failed || u.twin.group.isNone then u else u.hello serial group
      | none => u) := by
  unfold execPairingRetry
  rw [if_neg (by simp [hl, hf]), if_neg (by simp [hses])] <;> rfl

end

/-! ### A session that comes up (R396, R401) -/

/-- Of keys newly in force each direction counts from 0 (R397). -/
theorem State.newKeys_spec (s : State) :
    s.newKeys.twin.session = s.twin.session ∧ (s.newKeys.link .twn).count = 0 ∧ s.newKeys.twin.rxCount = 0 := by
  rw [State.newKeys, State.link_updLink_self, State.updLink, State.setLink_twin]
  exact ⟨rfl, rfl, rfl⟩

/-- TWN_STAT and TWN_PEER of a session that comes up: PAIRED, MISS 0. -/
def State.paired (s : State) (peer : Nat) : State :=
  ((s.setReg 24 .TWN_PEER 0 (BitVec.ofNat 64 peer)).setFld 24 .TWN_STAT 0 2 0 3).setFld 24 .TWN_STAT 0 11 8 0

theorem State.paired_spec (s : State) (peer : Nat) :
    (s.paired peer).fld 24 .TWN_STAT 0 2 0 = 3 ∧ (s.paired peer).fld 24 .TWN_STAT 0 11 8 = 0 ∧
      (s.paired peer).reg 24 .TWN_PEER 0 = BitVec.ofNat 64 peer := by
  unfold State.paired
  refine ⟨?_, State.fld_setFld_same _ _ _ _ _ (by decide) (by decide), ?_⟩
  · rw [State.fld_setFld_disjoint _ _ _ _ _ (by decide) (by decide) (by decide) (by decide)]
    exact State.fld_setFld_same _ _ _ _ _ (by decide) (by decide)
  · rw [State.reg_setFld_ne _ _ _ _ (by decide), State.reg_setFld_ne _ _ _ _ (by decide)]
    exact State.regW_setRegW_self ..

/-- The mark of a new peer. -/
def State.markPeer (s : State) (new : Bool) : State := if new then s.setFld 24 .TWN_STAT 0 12 12 1 else s

theorem State.markPeer_spec (s : State) (new : Bool) :
    (s.markPeer new).fld 24 .TWN_STAT 0 2 0 = s.fld 24 .TWN_STAT 0 2 0 ∧ (s.markPeer new).fld 24 .TWN_STAT 0 11 8 = s.fld 24 .TWN_STAT 0 11 8 ∧
      (s.markPeer new).reg 24 .TWN_PEER 0 = s.reg 24 .TWN_PEER 0 ∧ (s.markPeer new).twin = s.twin ∧ (s.markPeer new).links = s.links := by
  cases new
  · exact ⟨rfl, rfl, rfl, rfl, rfl⟩
  · exact ⟨State.fld_setFld_disjoint _ _ _ _ _ (by decide) (by decide) (by decide) (by decide),
      State.fld_setFld_disjoint _ _ _ _ _ (by decide) (by decide) (by decide) (by decide), State.reg_setFld_ne _ _ _ _ (by decide), s.twin_setFld ..,
      (s.logsOnly_setFld ..).keepsLinks.links⟩

/-- The session itself, its registers not yet shown. -/
def State.inSession (s : State) (peer : Nat) : State :=
  { s with
    twin := { s.twin with session := true, heard := true, lastPeer := some peer, fence := none }
    stencil := { s.stencil with mirrorFrom := s.stencil.ring, resumed := false } }

/-- A session comes up: the keys, the session, its registers, and an entry of the MC's log. -/
theorem State.sessionUp_eq {s : State} (peer : Nat) (hn : s.twin.session = false) :
    ∃ new p0, s.sessionUp peer = (((s.newKeys.inSession peer).paired peer).markPeer new).mcLog 0x0009 0 24 p0 peer 0 := by
  have first : s.newKeys.twin.session = false := s.newKeys_spec.1.trans hn
  unfold State.sessionUp
  generalize s.newKeys = k at *
  dsimp only
  rw [if_neg (by simp [first])]
  exact ⟨decide ((k.fld 24 .TWN_STAT 0 2 0 = 4 ∨ k.fld 24 .TWN_STAT 0 2 0 = 5) ∧ k.twin.lastPeer.isSome ∧ k.twin.lastPeer ≠ some peer), _,
    by simp only [State.markPeer, decide_eq_true_eq]; rfl⟩

theorem State.sessionUp_spec {s : State} (peer : Nat) (hn : s.twin.session = false) :
    (s.sessionUp peer).twin.session = true ∧ (s.sessionUp peer).reg 24 .TWN_PEER 0 = BitVec.ofNat 64 peer ∧
      (s.sessionUp peer).fld 24 .TWN_STAT 0 2 0 = 3 ∧ (s.sessionUp peer).fld 24 .TWN_STAT 0 11 8 = 0 ∧
      ((s.sessionUp peer).link .twn).count = 0 ∧ (s.sessionUp peer).twin.rxCount = 0 := by
  obtain ⟨new, p0, eq⟩ := State.sessionUp_eq peer hn
  obtain ⟨-, hcount, hrx⟩ := s.newKeys_spec
  rw [eq]
  generalize hu : (s.newKeys.inSession peer).paired peer = u
  have shown := State.paired_spec (s.newKeys.inSession peer) peer
  have utwin : u.twin = (s.newKeys.inSession peer).twin := by rw [← hu]; rfl
  have ulinks : u.links = s.newKeys.links := by rw [← hu]; rfl
  rw [hu] at shown
  obtain ⟨hstate, hmiss, hpeer⟩ := shown
  obtain ⟨kstate, kmiss, kpeer, ktwin, klinks⟩ := u.markPeer_spec new
  have told := (u.markPeer new).keepsTwin_mcLog 0x0009 0 24 p0 peer 0
  have links := ((u.markPeer new).logsOnly_mcLog 0x0009 0 24 p0 peer 0).keepsLinks.links
  rw [told.fld, told.fld, told.twin, ktwin, utwin, State.link_congr (links.trans (klinks.trans ulinks)), kstate, kmiss]
  exact ⟨rfl, (State.regW_mcLog _ _ _ _ _ _ _ (by decide)).trans (kpeer.trans hpeer), hstate, hmiss, hcount, hrx⟩

/-! ### The partner's loss, and the fence (R401, R402) -/

theorem execPartnerLost_loses {s : State} (hp : s.fld 24 .TWN_STAT 0 2 0 = 3)
    (hm : max 1 (s.fld 24 .TWN_CTL 0 3 0) ≤ s.fld 24 .TWN_STAT 0 11 8) : execPartnerLost s = done s.partnerLost :=
  congrArg done (if_pos ⟨hp, hm⟩)

/-- TWN_STAT of a module whose partner is lost: ALONE, the region frozen. -/
def State.alone (s : State) : State := (s.setFld 24 .TWN_STAT 0 2 0 4).setFld 24 .TWN_STAT 0 13 13 1

theorem State.alone_spec (s : State) : s.alone.fld 24 .TWN_STAT 0 2 0 = 4 ∧ s.alone.flag 24 .TWN_STAT 0 13 = true ∧ s.alone.twin = s.twin := by
  refine ⟨?_, State.flag_setFld_bit _ _ _ _ _ _ (by decide), (State.twin_setFld ..).trans (State.twin_setFld ..)⟩
  rw [State.alone, State.fld_setFld_disjoint _ _ _ _ _ (by decide) (by decide) (by decide) (by decide)]
  exact State.fld_setFld_same _ _ _ _ _ (by decide) (by decide)

/-- Where no snapshot is under way, what follows is a record, an interrupt and log entries. -/
theorem State.keepsTwin_partnerLost {s : State} (h : s.endSession.snap = none) : s.endSession.alone.KeepsTwin s.partnerLost := by
  unfold State.partnerLost
  generalize s.endSession = u at *
  extract_lets serial dur u1 u2 u3 u4 u5 u6
  have stat : u.LogsOnly u.alone := (State.logsOnly_setFld ..).trans (State.logsOnly_setFld ..)
  have tier : u3 = u.alone := State.endTier_idle 0 2 (stat.keepsLinks.snap.trans h)
  refine .trans ?_ (State.keepsTwin_logErr _ _ _ _ _ _ _ _ (by decide))
  refine .trans (.trans ?_ (State.keepsTwin_sendIrq ..)) (State.keepsTwin_mcLog ..)
  rw [← tier]
  exact u3.keepsTwin_stageRecord ..

/-- With no mirror write and no snapshot under way, a lost partner leaves no session, ALONE, and the region frozen. -/
theorem State.partnerLost_spec {s : State} (hm : s.twin.mirw = []) (hs : s.snap = none) :
    s.partnerLost.twin.session = false ∧ s.partnerLost.fld 24 .TWN_STAT 0 2 0 = 4 ∧ s.partnerLost.flag 24 .TWN_STAT 0 13 = true := by
  have ended : s.endSession.twin.session = false := by
    unfold State.endSession
    rw [hm]
    rfl
  obtain ⟨hstate, hfrozen, htwin⟩ := s.endSession.alone_spec
  have told := State.keepsTwin_partnerLost ((State.endSession_spec hm).2.trans hs)
  rw [told.twin, told.fld, told.flag, htwin]
  exact ⟨ended, hstate, hfrozen⟩

/-- A fence in effect: FENCED, its pulse begun (R402). -/
theorem State.fenceNow_spec (s : State) :
    s.fenceNow.fld 24 .TWN_STAT 0 2 0 = 5 ∧ s.fenceNow.twin.pulse = true ∧ s.fenceNow.twin.fence = none := by
  unfold State.fenceNow
  extract_lets t u
  have told (p0 p1 : Nat) : u.KeepsTwin (u.mcLog 0x0009 0 24 p0 p1 0) := u.keepsTwin_mcLog ..
  rw [(told _ _).fld, (told _ _).twin]
  exact ⟨State.fld_setFld_same _ _ _ _ _ (by decide) (by decide), rfl, rfl⟩

/-! ### TWN_CMD (R397, R401, R402, R419) -/

section
variable {s : State} (hst : s.fld 24 .TWN_STAT 0 2 0 = 4)
include hst

theorem State.fenceTwin_roleA (hh : s.twinHere = true) (hb : s.twin.roleB = false) : s.fenceTwin = s.fenceNow := by
  unfold State.fenceTwin
  simp [hst, hh, hb]

/-- Role B's fence waits 2 ms. -/
theorem State.fenceTwin_roleB (hh : s.twinHere = true) (hb : s.twin.roleB = true) (hf : s.twin.fence = none) :
    s.fenceTwin = { s with twin := { s.twin with fence := some (s.time + 2000000) } } := by
  unfold State.fenceTwin
  rw [if_neg (by simp [hst, hh]), hb, hf]
  rfl

theorem execFenceDelayed_fences {t : Nat} (hf : s.twin.fence = some t) (ht : t ≤ s.time) : execFenceDelayed s = done s.fenceNow := by
  unfold execFenceDelayed
  rw [hf]
  exact congrArg done (if_pos ⟨hst, ht⟩)

end

/-- THAW acts unless a restore reads the region. -/
theorem State.thaw_acts {s : State} (h : ∀ r, s.restore = some r → r.src ≠ 0 ∧ r.src ≠ 4) : s.thaw = s.setFld 24 .TWN_STAT 0 13 13 0 := by
  unfold State.thaw
  split
  next r hr => exact if_neg (not_or.mpr (h r hr))
  next => rfl

/-- REKEY in role A of a session whose exchange is over begins another; the session stays. -/
theorem State.rekey_spec {s : State} (hup : s.twinUp = true) (ha : s.twin.auth = 3) (hb : s.flag 24 .TWN_STAT 0 3 = false) :
    s.rekey.twin.auth = 1 ∧ s.rekey.twin.session = true := by
  have session : s.twin.session = true := (Bool.and_eq_true_iff.mp hup).1
  unfold State.rekey
  rw [if_pos (by simp [hup, ha, hb])]
  dsimp only
  generalize s.authMsg1.1 = bs
  rw [(State.keepsTwin_sendAuth ..).twin]
  exact ⟨rfl, session⟩

section
variable {b s : State} {q : Src} (h : b.regAccess q 24 .TWN_CMD 0 = (true, s))
include h

theorem execFenceTwin_arrives : execFenceTwin q b = done s.fenceTwin := regCmd_arrives _ h

theorem execThaw_arrives : execThaw q b = done s.thaw := regCmd_arrives _ h

theorem execRekey_arrives : execRekey q b = done s.rekey := regCmd_arrives _ h

end

/-- Settles O49: each command is its guard and its effect; what the record, the interrupt and the logs of a loss or of a new session leave is
`State.KeepsTwin`. -/
theorem twinSession : Obligations.TwinSession := by
  unfold Obligations.TwinSession
  intro s out
  refine ⟨fun hs hh => ⟨fun hp => execTwinPresentFall_trains hs hh hp, execTwinPresentRise_ends hs hh⟩, fun hl => ⟨?_, ?_, ?_, ?_⟩, ?_,
    fun peer hn => State.sessionUp_spec peer hn, ?_, ?_, fun t hf ht hst => execFenceDelayed_fences hst hf ht, s.fenceNow_spec, rfl⟩
  case refine_1 =>
    intro serial g group hlen hg hn hk hf o
    have checks := execHello_checks (serial := serial) hl hlen hg hn hk hf
    have hgo : o.twin.group = some g := (congrArg Twin.group (State.twin_owe ..)).trans hg
    refine ⟨fun hne => ?_, fun heq hself => ?_, fun heq hother hkey => ?_⟩
    · exact checks.trans (congrArg done (State.hello_otherGroup _ hgo hne))
    · subst heq hself
      exact checks.trans (congrArg done (State.hello_ownSerial hgo))
    · subst heq
      refine ⟨_, checks, ?_⟩
      rw [(State.keepsTwin_settle _).flag, (State.keepsTwin_settle _).twin]
      rcases Nat.lt_trichotomy serial.toNat Config.serial.toNat with hlt | hsame | hgt
      · rw [State.hello_roleB hgo hlt, State.role_greeted, State.hello_greeted, decide_eq_true hlt]
        exact ⟨rfl, rfl⟩
      · exact absurd (BitVec.eq_of_toNat_eq hsame) hother
      · have key : o.flag 24 .SEC_STAT 0 3 = true := hkey.resolve_left (Nat.not_lt.mpr hgt.le)
        rw [State.hello_roleA hgo hgt key, (State.messageOne_spec _).1, (State.messageOne_spec _).2, State.role_greeted, State.hello_greeted,
          decide_eq_false (Nat.not_lt.mpr hgt.le)]
        exact ⟨rfl, rfl⟩
  case refine_2 =>
    intro msg frag count total data hfrag hlen h1 h3 hpart o fs
    have kept := execAuth_kept hl hfrag hlen h1 h3 hpart (total := total)
    refine ⟨fun hlt => ?_, fun hge hwhole => ?_, fun hge hwhole => ?_⟩
    · exact kept.trans (congrArg done (if_pos hlt))
    · exact kept.trans (congrArg done ((if_neg (Nat.not_lt.mpr hge)).trans (if_pos hwhole)))
    · exact kept.trans (congrArg done ((if_neg (Nat.not_lt.mpr hge)).trans (if_neg hwhole)))
  case refine_3 =>
    intro hf hses
    exact execPairingRetry_rekeys hl hf hses
  case refine_4 =>
    intro hf hses
    exact execPairingRetry_again hl hf hses
  case refine_5 =>
    intro data peer group hb ha hh
    refine ⟨fun hok => ?_, fun hbad => ?_⟩
    · rw [State.authMessage_three hb ha hh, hok]; rfl
    · rw [State.authMessage_three hb ha hh, hbad]; rfl
  case refine_6 =>
    intro hp hmiss
    have loses := execPartnerLost_loses hp hmiss
    refine ⟨loses, fun hm hsn => ⟨_, loses, ?_⟩⟩
    rw [(State.keepsTwin_settle _).twin, (State.keepsTwin_settle _).fld, (State.keepsTwin_settle _).flag]
    exact State.partnerLost_spec hm hsn
  case refine_7 =>
    intro b q h
    refine ⟨fun hst hh => ⟨fun hb => ?_, fun hb hf => ?_⟩, fun hr => ?_, fun hup ha hb => ⟨_, execRekey_arrives h, ?_⟩⟩
    · exact (execFenceTwin_arrives h).trans (congrArg done (State.fenceTwin_roleA hst hh hb))
    · exact (execFenceTwin_arrives h).trans (congrArg done (State.fenceTwin_roleB hst hh hb hf))
    · exact (execThaw_arrives h).trans (congrArg done (State.thaw_acts hr))
    · rw [(State.keepsTwin_settle _).twin]
      exact State.rekey_spec hup ha hb

end Sys2Proof.Machine

/-! SUPPORT. What the work of the Trowel and of the devices' accesses leaves of the supply and of the cartridge (R136, R305–R309, R411, R418, R449). -/

namespace Sys2Proof.Machine

open Sys2Proof

/-! ### The supply and the cartridge kept -/

/-- State t has the supply, the cartridge's registers and what is known of its wear as state s has them, and no write of the cartridge that s
has not. -/
structure State.KeepsPlant (s t : State) : Prop where
  supply : t.supply = s.supply
  seen : t.hawk.wearSeen = s.hawk.wearSeen
  writes : s.hawk.writes = [] → t.hawk.writes = []
  regs : s.KeepsBlk 0x12 t

theorem State.KeepsPlant.refl (s : State) : s.KeepsPlant s := ⟨rfl, rfl, id, .refl s⟩

theorem State.KeepsPlant.trans {s t u : State} (h : s.KeepsPlant t) (k : t.KeepsPlant u) : s.KeepsPlant u :=
  ⟨k.supply.trans h.supply, k.seen.trans h.seen, fun hw => k.writes (h.writes hw), h.regs.trans k.regs⟩

theorem State.KeepsPlant.of {α : Type} {s t : State} {r : α × State} {a : α} (e : r = (a, t)) (h : s.KeepsPlant r.2) : s.KeepsPlant t := by
  subst e; exact h

/-- States with the same supply, cartridge and registers. -/
theorem State.KeepsPlant.of_eq {s t : State} (hs : t.supply = s.supply) (hh : t.hawk = s.hawk) (hr : t.regs = s.regs) : s.KeepsPlant t :=
  ⟨hs, by rw [hh], fun hw => by rw [hh]; exact hw, .of_regs hr⟩

theorem State.LogsOnly.keepsPlant {s t : State} (h : s.LogsOnly t) (k : s.KeepsBlk 0x12 t) : s.KeepsPlant t :=
  ⟨h.supply, by rw [h.hawk], fun hw => by rw [h.hawk]; exact hw, k⟩

theorem State.keepsPlant_foldl {α : Type} {f : State → α → State} (hf : ∀ (t : State) (a : α), t.KeepsPlant (f t a)) (l : List α) (s : State) :
    s.KeepsPlant (l.foldl f s) := by
  induction l generalizing s with
  | nil => exact .refl s
  | cons a l ih => exact (hf s a).trans (ih _)

/-- A fold whose steps keep the plant for the elements of its list. -/
theorem State.keepsPlant_foldl_mem {α : Type} {f : State → α → State} (l : List α) (hf : ∀ a ∈ l, ∀ t : State, t.KeepsPlant (f t a)) (s : State) :
    s.KeepsPlant (l.foldl f s) := by
  induction l generalizing s with
  | nil => exact .refl s
  | cons a l ih => exact (hf a List.mem_cons_self s).trans (ih (fun b hb => hf b (List.mem_cons_of_mem a hb)) _)

/-! ### Registers, free values, logs and links -/

theorem State.keepsPlant_setRegW (s : State) {d : Nat} {r : RegName} {i w : Nat} (v : Word) (hb : (regInfo r).blk ≠ 0x12)
    (ho : (regInfo r).off + (regInfo r).stride * i + 8 * w < 0x10000) : s.KeepsPlant (s.setRegW d r i w v) :=
  (s.logsOnly_setRegW ..).keepsPlant (s.keepsBlk_setRegW v hb ho)

theorem State.keepsPlant_choose (s : State) (l : List Nat) : s.KeepsPlant (s.choose l).2 :=
  (s.logsOnly_choose l).keepsPlant (s.keepsBlk_choose l)

theorem State.keepsPlant_sendIrq (s : State) (route die : Nat) : s.KeepsPlant (s.sendIrq route die) :=
  (s.logsOnly_sendIrq ..).keepsPlant (s.keepsBlk_sendIrq ..)

theorem State.keepsPlant_mcLog (s : State) (kind sev die p0 p1 p2 : Nat) : s.KeepsPlant (s.mcLog kind sev die p0 p1 p2) :=
  (s.logsOnly_mcLog ..).keepsPlant (s.keepsBlk_mcLog (by decide) ..)

theorem State.keepsPlant_settle (s : State) : s.KeepsPlant s.settle :=
  s.logsOnly_settle.keepsPlant (s.keepsBlk_settle (by decide) (by decide))

theorem State.keepsPlant_logErr (s : State) (die cls sev : Nat) {unit : Nat} (q : Req) (addr : Option Nat) (poison : Bool) (info : Nat)
    (hu : unit < 16) : s.KeepsPlant (s.logErr die cls sev unit q addr poison info) :=
  (s.logsOnly_logErr ..).keepsPlant (s.keepsBlk_logErr (by decide) (by decide) _ _ _ _ _ _ _ hu)

theorem State.keepsPlant_errResponse (s : State) (gen code : Nat) {unit : Nat} (q : Req) (pa : Nat) (hu : unit < 16) :
    s.KeepsPlant (s.errResponse gen code unit q pa) := s.keepsPlant_logErr _ _ _ _ _ _ _ hu

theorem State.keepsPlant_setLink (s : State) (l : LinkId) (k : Link) : s.KeepsPlant (s.setLink l k) := by
  unfold State.setLink
  extract_lets t
  have linked : s.KeepsPlant t := .of_eq rfl rfl rfl
  cases l with
  | agd => exact (linked.trans (t.keepsPlant_setRegW _ (by decide) (by decide))).trans (State.keepsPlant_setRegW _ _ (by decide) (by decide))
  | twn | hwk => exact linked

theorem State.keepsPlant_updLink (s : State) (l : LinkId) (f : Link → Link) : s.KeepsPlant (s.updLink l f) := s.keepsPlant_setLink ..

theorem State.keepsPlant_send (s : State) (l : LinkId) (p : Pkt) : s.KeepsPlant (s.send l p) := s.keepsPlant_updLink ..

theorem State.keepsPlant_homeWrite (s : State) (pa : Nat) (bs : List Byte) (poisoned : Bool) : s.KeepsPlant (s.homeWrite pa bs poisoned) := by
  obtain ⟨m, h⟩ := s.homeWrite_eq pa bs poisoned
  rw [h]
  exact .of_eq rfl rfl rfl

/-! ### Requests on their way and at their homes (R20, R459) -/

theorem State.keepsPlant_travel (s : State) (src dst : Nat) : s.KeepsPlant (s.travel src dst) := by
  obtain ⟨k, n, l, m, h⟩ := s.travel_eq src dst
  rw [h]
  exact .of_eq rfl rfl rfl

theorem State.keepsPlant_noteWait (s : State) (q : Req) (pa : Nat) : s.KeepsPlant (s.noteWait q pa) := by
  unfold State.noteWait
  split
  · exact .refl s
  · exact .of_eq rfl rfl rfl

theorem State.keepsPlant_endWait (s : State) (q : Req) (pa : Nat) : s.KeepsPlant (s.endWait q pa) := .of_eq rfl rfl rfl

/-- A home's refusal comes from its memory controller or from its die's port. -/
theorem State.unit_homeCheck {s : State} {q : Req} {pa code die unit : Nat} (h : s.homeCheck q pa = some (code, die, unit)) : unit < 16 := by
  unfold State.homeCheck at h
  dsimp only at h
  repeat' split at h
  all_goals simp only [Option.some.injEq, Prod.mk.injEq, reduceCtorEq] at h
  all_goals omega

theorem Target.unit_lt (t : Target) : t.unit < 16 := by cases t <;> simp [Target.unit]

theorem State.keepsPlant_asRead (s : State) (pa : Nat) (bs : List Byte) : s.KeepsPlant (s.asRead pa bs).2 := by
  unfold State.asRead
  split
  · exact .refl s
  · generalize hr : (([] : List Byte), s) = r
    have h : s.KeepsPlant r.2 := hr ▸ State.KeepsPlant.refl s
    clear hr
    induction List.range bs.length generalizing r with
    | nil => exact h
    | cons i is ih =>
      rw [List.foldl_cons]
      refine ih _ ?_
      split
      · exact h.trans (.of_eq rfl rfl rfl)
      · exact h

theorem State.keepsPlant_devLeaf (s : State) (slot : Nat) (fresh : Bool) (tbase la : Nat) : s.KeepsPlant (s.devLeaf slot fresh tbase la).2 := by
  unfold State.devLeaf
  split
  · exact .refl s
  · dsimp only
    split <;> exact .of_eq rfl rfl rfl

/-! ### The records of the fault queue (R136–R141) -/

/-- A doubleword of one of the 256 records. -/
theorem State.keepsPlant_setRec (s : State) {i w : Nat} (v : Word) (hi : i < 256) (hw : w < 8) : s.KeepsPlant (s.setRegW 24 .FQ_REC i w v) :=
  s.keepsPlant_setRegW v (by decide) (by simp only [regInfo]; omega)

theorem State.keepsPlant_fqSync (s : State) : s.KeepsPlant s.fqSync := s.keepsPlant_setRegW _ (by decide) (by decide)

/-- What the fault queue keeps of its requesters. -/
theorem State.keepsPlant_fq (s : State) (join : Sparse (List Waiter)) (wait abort fresh : List Waiter) (order : List Nat) :
    s.KeepsPlant { s with fqJoin := join, fqWait := wait, fqAbort := abort, fqFresh := fresh, fqOrder := order } := .of_eq rfl rfl rfl

theorem State.keepsPlant_fqJoinRec (s : State) {i : Nat} (w : Waiter) (hi : i < 256) : s.KeepsPlant (s.fqJoinRec i w) := by
  unfold State.fqJoinRec
  extract_lets l s1 s2
  have counted : s.KeepsPlant s2 := (s.keepsPlant_fq ..).trans (State.keepsPlant_setRec _ _ hi (by decide))
  split
  next j hj =>
    have hj16 : j < 16 := List.mem_range.mp (List.mem_of_find?_eq_some hj)
    exact counted.trans (State.keepsPlant_setRec s2 _ hi (by omega))
  next => exact counted

theorem State.keepsPlant_fqCreate (s : State) {i : Nat} (w : Waiter) (hi : i < 256) : s.KeepsPlant (s.fqCreate i w) := by
  unfold State.fqCreate
  extract_lets s1 s2 s3 s4 s5 s6 s7
  have keyed : s.KeepsPlant s3 :=
    ((s.keepsPlant_setRec _ hi (by decide)).trans (State.keepsPlant_setRec _ _ hi (by decide))).trans (State.keepsPlant_setRec _ _ hi (by decide))
  have cleared : s3.KeepsPlant s4 :=
    State.keepsPlant_foldl_mem _ (fun j hj t => t.keepsPlant_setRec _ hi (by simp only [List.mem_cons, List.not_mem_nil, or_false] at hj; omega)) s3
  have made : s4.KeepsPlant s6 := (State.keepsPlant_setRec s4 _ hi (by decide)).trans (State.keepsPlant_fq ..)
  have joined : s.KeepsPlant s7 := ((keyed.trans cleared).trans made).trans (State.keepsPlant_fqJoinRec s6 w hi)
  split
  · exact joined.trans (State.keepsPlant_sendIrq ..)
  · exact joined

theorem State.keepsPlant_fqFault (s : State) (w : Waiter) : s.KeepsPlant (s.fqFault w) := by
  unfold State.fqFault
  split
  next i hi =>
    exact (s.keepsPlant_fqJoinRec w (List.mem_range.mp (List.mem_of_find?_eq_some hi))).trans (State.keepsPlant_fqSync _)
  next =>
    have chosen := s.keepsPlant_choose s.freeRecs
    split
    next i t h =>
      have hi : i < 256 := List.mem_range.mp (List.mem_of_mem_filter (State.mem_of_choose h))
      exact ((State.KeepsPlant.of h chosen).trans (t.keepsPlant_fqCreate w hi)).trans (State.keepsPlant_fqSync _)
    next t h => exact ((State.KeepsPlant.of h chosen).trans (t.keepsPlant_fq ..)).trans (State.keepsPlant_fqSync _)

theorem State.keepsPlant_abortLog (s : State) (w : Waiter) : s.KeepsPlant (s.abortLog w) := by
  unfold State.abortLog
  split
  · exact State.KeepsPlant.trans (t := s.freeNat.2) (.of_eq rfl rfl rfl) (State.keepsPlant_logErr _ _ _ _ _ _ _ _ (by decide))
  · exact .refl s

/-! ### Homes and translation, for a requester with a unit code (R127–R130, R468) -/

section
variable {q : Req} (hq : q.unit < 16)
include hq

theorem State.keepsPlant_rspLost (s : State) (pa : Nat) : s.KeepsPlant (s.rspLost q pa) := s.keepsPlant_logErr _ _ _ _ _ _ _ hq

theorem State.keepsPlant_poisonUsed (s : State) (die pa info : Nat) : s.KeepsPlant (s.poisonUsed die q.unit q pa info) :=
  s.keepsPlant_logErr _ _ _ _ _ _ _ hq

theorem State.keepsPlant_refused {α : Type} (s : State) (code die : Nat) {unit : Nat} (pa : Nat) (hu : unit < 16) :
    s.KeepsPlant (s.refused (α := α) q code die unit pa).2 := by
  have told := s.keepsPlant_errResponse die code q pa hu
  unfold State.refused State.refuse
  dsimp only
  split
  · exact told.trans (State.keepsPlant_rspLost hq _ _)
  · exact told

theorem State.keepsPlant_atHome (s : State) (pa : Nat) : s.KeepsPlant (s.atHome q pa).2 := by
  have ended := s.keepsPlant_endWait q pa
  unfold State.atHome
  split
  next h => exact ended.trans (State.keepsPlant_refused hq _ _ _ _ (State.unit_homeCheck h))
  · dsimp only
    split
    · exact ended.trans (State.keepsPlant_refused hq _ _ _ _ (Target.unit_lt _))
    · split
      · exact s.keepsPlant_noteWait ..
      · exact ended.trans (State.keepsPlant_travel ..)

theorem State.keepsPlant_plainRead (s : State) (pa n : Nat) : s.KeepsPlant (s.plainRead q pa n).2 := by
  have home := State.keepsPlant_atHome hq s pa
  unfold State.plainRead
  split
  next s1 e =>
    have there : s.KeepsPlant s1 := .of e home
    split
    · exact there.trans (State.keepsPlant_rspLost hq _ _)
    · split
      · exact there
      · exact there.trans (State.keepsPlant_asRead _ _ _)
  all_goals next e => exact .of e home

theorem State.keepsPlant_plainWriteMem (s : State) (pa : Nat) (bs : List Byte) (poisoned : Bool) :
    s.KeepsPlant (s.plainWriteMem q pa bs poisoned).2 := by
  have home := State.keepsPlant_atHome hq s pa
  unfold State.plainWriteMem
  split
  next s1 e =>
    have there := (State.KeepsPlant.of e home).trans (s1.keepsPlant_homeWrite pa bs poisoned)
    dsimp only
    split
    · exact there.trans (State.keepsPlant_rspLost hq _ _)
    · exact there
  · exact home

theorem State.keepsPlant_tableHome (s : State) (pa : Nat) : s.KeepsPlant (s.tableHome q pa).2 := by
  have read := State.keepsPlant_plainRead hq s pa 8
  unfold State.tableHome
  split
  · exact .refl s
  · split
    next e => exact .of e read
    next e => exact .of e read
    next e => exact State.KeepsPlant.trans (.of e read) (State.keepsPlant_poisonUsed hq _ _ _ _)
    next e => exact .of e read

theorem State.keepsPlant_walkOver (la base : Nat) (l : List Nat) (s : State) :
    s.KeepsPlant (walkOver (fun s pa => s.tableHome q pa) s la base l).2 := by
  induction l generalizing s base with
  | nil => exact .refl s
  | cons lvl ls ih =>
    have read := State.keepsPlant_tableHome hq s (base + 8 * tableIdx lvl la)
    unfold walkOver
    split
    next e => exact .of e read
    next e => exact .of e read
    next e => exact .of e read
    next e =>
      have there := State.KeepsPlant.of e read
      split
      · exact there
      · split
        · exact there
        · split
          · exact there
          · exact there.trans (ih _ _)

theorem State.keepsPlant_walkDev (s : State) (eng : Nat) (pre : Option Nat) (tbase la : Nat) : s.KeepsPlant (s.walkDev q eng pre tbase la).2 := by
  have walked := State.keepsPlant_walkOver hq la tbase [1, 2, 3] s
  unfold State.walkDev
  split
  next e => exact (State.KeepsPlant.of e walked).trans (.of_eq rfl rfl rfl)
  next => exact walked

theorem State.keepsPlant_xlateDev (s : State) (eng : Nat) (own : Own) (fresh : Bool) (ptb : Word) (ring la : Nat) (write : Bool) :
    s.KeepsPlant (s.xlateDev q eng own fresh ptb ring la write).2 := by
  unfold State.xlateDev
  split
  · split <;> exact .refl s
  · extract_lets tbase slot fin
    have cached := s.keepsPlant_devLeaf slot fresh tbase la
    split
    next e => exact .of e cached
    next t e =>
      have walked := (State.KeepsPlant.of e cached).trans (State.keepsPlant_walkDev hq t eng own.preOf tbase la)
      split
      all_goals next e => exact State.KeepsPlant.of (r := State.walkDev _ q eng own.preOf tbase la) e walked

theorem State.keepsPlant_xlateFq (s : State) (eng : Nat) (own : Own) (ptb : Word) (ring la : Nat) (write : Bool) :
    s.KeepsPlant (s.xlateFq q eng own ptb ring la write).2 := by
  unfold State.xlateFq
  extract_lets w
  split
  · exact .refl s
  · split
    · exact (s.keepsPlant_fq ..).trans (State.keepsPlant_abortLog _ w)
    · have walked := State.keepsPlant_xlateDev hq s eng own (s.fqFresh.any w.same) ptb ring la write
      split
      next e => exact (State.KeepsPlant.of e walked).trans (State.keepsPlant_fq ..)
      next e => exact .of e walked
      next e => exact ((State.KeepsPlant.of e walked).trans (State.keepsPlant_fq ..)).trans (State.keepsPlant_fqFault _ _)

end

theorem State.keepsPlant_xlateBlocks {x : DevCtx} (hq : x.q.unit < 16) (write : Bool) (ps : List Piece) (s : State) :
    s.KeepsPlant (s.xlateBlocks x write ps).2 := by
  induction ps generalizing s with
  | nil => exact .refl s
  | cons p ps ih =>
    have one := State.keepsPlant_xlateFq hq s x.eng x.own x.ptb x.ring (p.pa % 2 ^ 52) write
    unfold State.xlateBlocks
    split
    next e => exact .of e one
    next e => exact .of e one
    next t e =>
      have rest := (State.KeepsPlant.of e one).trans (ih t)
      split
      next e' => exact State.KeepsPlant.of (r := State.xlateBlocks _ x write ps) e' rest
      next => exact rest

/-! ### Posts to the host and to the twin (R381, R398) -/

theorem State.keepsPlant_hostPost (s : State) (own : Own) (q : Req) (lim pa : Nat) (bs : List Byte) :
    s.KeepsPlant (s.hostPost own q lim pa bs).2 := by
  unfold State.hostPost
  split
  · exact s.keepsPlant_errResponse _ _ _ _ (by split <;> decide)
  · exact State.keepsPlant_foldl (fun t _ => t.keepsPlant_send ..) _ s

theorem State.keepsPlant_rekeyDue (s : State) : s.KeepsPlant s.rekeyDue := by
  unfold State.rekeyDue State.rekey
  split
  · split
    · refine .trans ?_ (State.keepsPlant_foldl (fun t _ => t.keepsPlant_send ..) _ _)
      exact .of_eq rfl rfl rfl
    · exact .refl s
  · exact .refl s

theorem State.keepsPlant_mirrorOut (own : Own) (lsn off : Nat) (bs : List Byte) (ps : List Piece) (s : State) :
    s.KeepsPlant (s.mirrorOut own lsn off bs ps) := by
  induction ps generalizing s with
  | nil => exact .refl s
  | cons p ps ih =>
    refine .trans (.trans (.trans ?_ (State.keepsPlant_send ..)) (State.keepsPlant_rekeyDue _)) (ih _)
    exact .of_eq rfl rfl rfl

theorem State.keepsPlant_twinPost (s : State) (own : Own) (q : Req) (lsn off : Nat) (bs : List Byte) :
    s.KeepsPlant (s.twinPost own q lsn off bs).2 := by
  unfold State.twinPost
  dsimp only
  split
  · exact s.keepsPlant_errResponse _ _ _ _ (by decide)
  · split
    · exact .refl s
    · exact State.keepsPlant_mirrorOut ..

/-! ### A device's write (R21, R142) -/

theorem State.keepsPlant_egress (s : State) (q : Req) {unit : Nat} (pa : Nat) (hu : unit < 16) : s.KeepsPlant (s.egress q unit pa) :=
  (s.keepsPlant_logErr _ _ _ _ _ _ _ hu).trans (State.keepsPlant_errResponse _ _ _ _ _ hu)

theorem State.keepsPlant_timedOut {s t : State} {q : Req} {pa : Nat} (h : s.timedOut q pa = some t) : s.KeepsPlant t := by
  unfold State.timedOut at h
  split at h
  · cases h
    exact .of_eq rfl rfl rfl
  · cases h

section
variable {q : Req} (hq : q.unit < 16)
include hq

theorem State.keepsPlant_rspOf (s : State) (pa : Nat) {r : Acc Unit × State} {t : State} (h : t.KeepsPlant r.2) :
    t.KeepsPlant (s.rspOf q pa r).2 := by
  obtain ⟨a, u⟩ := r
  unfold State.rspOf
  split
  next e =>
    obtain ⟨rfl, rfl⟩ := Prod.mk.inj e
    split
    · exact h.trans (State.keepsPlant_rspLost hq _ _)
    · exact h
  next => exact h

theorem State.keepsPlant_devWriteBlock (s : State) (own : Own) (lim pa : Nat) (bs : List Byte) (poisoned : Bool) :
    s.KeepsPlant (s.devWriteBlock q own lim pa bs poisoned).2 := by
  unfold State.devWriteBlock
  split
  next t h => exact State.keepsPlant_timedOut h
  split
  next h => exact State.keepsPlant_refused hq _ _ _ _ (State.unit_homeCheck h)
  split
  · split
    · exact s.keepsPlant_egress _ _ (by decide)
    · split
      · exact s.keepsPlant_noteWait ..
      · exact State.keepsPlant_rspOf hq s pa ((s.keepsPlant_travel ..).trans (State.keepsPlant_hostPost ..))
  · split
    · exact s.keepsPlant_egress _ _ (by decide)
    · split
      · exact s.keepsPlant_noteWait ..
      · exact State.keepsPlant_rspOf hq s pa ((s.keepsPlant_travel ..).trans (State.keepsPlant_twinPost ..))
  · exact State.keepsPlant_refused hq _ _ _ _ (by decide)
  · split
    · exact State.keepsPlant_refused hq _ _ _ _ (by decide)
    · generalize hr : ((.ok () : Acc Unit), s) = r
      have h : s.KeepsPlant r.2 := hr ▸ State.KeepsPlant.refl s
      clear hr
      induction lines pa bs.length generalizing r with
      | nil => exact h
      | cons p ps ih =>
        rw [List.foldl_cons]
        refine ih _ ?_
        split
        · exact h.trans (State.keepsPlant_plainWriteMem hq _ _ _ _)
        · exact h

end

theorem State.keepsPlant_devWritePieces {x : DevCtx} (hq : x.q.unit < 16) (poisoned : Bool) (ps : List Piece) (bs : List Byte) (s : State) :
    s.KeepsPlant (s.devWritePieces x poisoned ps bs).2 := by
  induction ps generalizing s bs with
  | nil => exact .refl s
  | cons p ps ih =>
    have one := State.keepsPlant_devWriteBlock hq s x.own x.lim p.pa (bs.take p.n) poisoned
    unfold State.devWritePieces
    split
    next e => exact (State.KeepsPlant.of e one).trans (ih _ _)
    all_goals next e => exact .of e one

theorem State.keepsPlant_devWriteLin {x : DevCtx} (hq : x.q.unit < 16) (s : State) (la : Nat) (bs : List Byte) (poisoned : Bool) :
    s.KeepsPlant (s.devWriteLin x la bs poisoned).2 := by
  have mapped := State.keepsPlant_xlateBlocks hq true (blocks la bs.length) s
  unfold State.devWriteLin
  split
  next e => exact (State.KeepsPlant.of e mapped).trans (State.keepsPlant_devWritePieces hq _ _ _ _)
  all_goals next e => exact .of e mapped

/-! ### Streams, their commands and the sync objects (R293–R312) -/

theorem State.keepsPlant_trowel (s : State) (x : Trowel) : s.KeepsPlant { s with trowel := x } := .of_eq rfl rfl rfl

theorem State.keepsPlant_snap (s : State) (x : Option Snap) (l : List Snap) : s.KeepsPlant { s with snap := x, staging := l } :=
  .of_eq rfl rfl rfl

theorem State.keepsPlant_setMem64 (s : State) (pa : Nat) (v : Word) : s.KeepsPlant (s.setMem64 pa v) := .of_eq rfl rfl rfl

theorem State.keepsPlant_setStrF (s : State) (st j hi lo v : Nat) : s.KeepsPlant (s.setStrF st j hi lo v) := s.keepsPlant_setMem64 ..

theorem State.keepsPlant_trwSync (s : State) : s.KeepsPlant s.trwSync := s.keepsPlant_setRegW _ (by decide) (by decide)

theorem State.keepsPlant_setRun (s : State) (r : StreamRun) : s.KeepsPlant (s.setRun r) :=
  (s.keepsPlant_trowel _).trans (State.keepsPlant_trwSync _)

theorem State.keepsPlant_dropRun (s : State) (st : Nat) : s.KeepsPlant (s.dropRun st) :=
  (s.keepsPlant_trowel _).trans (State.keepsPlant_trwSync _)

theorem State.keepsPlant_setStrState (s : State) (st v : Nat) : s.KeepsPlant (s.setStrState st v) := s.keepsPlant_setMem64 ..

theorem State.keepsPlant_advance (s : State) (st : Nat) : s.KeepsPlant (s.advance st) := by
  unfold State.advance
  extract_lets s1 s2
  have moved : s.KeepsPlant s2 := ((s.keepsPlant_dropRun st).trans (State.keepsPlant_trowel ..)).trans (State.keepsPlant_setStrF ..)
  split
  · exact moved
  · exact moved.trans (State.keepsPlant_setStrState ..)

theorem State.keepsPlant_sendScpl (s : State) (stream : Nat) (conly : Bool) (seq ctag credit expseq time : Nat) :
    s.KeepsPlant (s.sendScpl stream conly seq ctag credit expseq time) := s.keepsPlant_send ..

theorem State.keepsPlant_sendSevt (s : State) (kind code xcode b seq expseq credit value : Nat) :
    s.KeepsPlant (s.sendSevt kind code xcode b seq expseq credit value) := by
  unfold State.sendSevt
  split
  · exact .refl s
  · exact s.keepsPlant_send ..

theorem State.keepsPlant_noteCredit (s : State) (st : Nat) : s.KeepsPlant (s.noteCredit st) := s.keepsPlant_trowel _

theorem State.keepsPlant_retireBase (s : State) (r : StreamRun) (gen : Bool) : s.KeepsPlant (s.retireBase r gen) := by
  unfold State.retireBase
  extract_lets st last grown s1 seq s2 s3
  split
  · have waits : s.KeepsPlant s1 := s.keepsPlant_setRun _
    split
    · exact waits
    · exact waits.trans (State.keepsPlant_setStrState ..)
  · have counted : s.KeepsPlant s2 := by
      unfold s2
      split
      · exact s.keepsPlant_setStrF ..
      · exact .refl s
    have moved : s.KeepsPlant s3 := counted.trans (State.keepsPlant_advance ..)
    split
    · exact (moved.trans (State.keepsPlant_sendScpl ..)).trans (State.keepsPlant_noteCredit ..)
    · split
      · exact (moved.trans (State.keepsPlant_sendScpl ..)).trans (State.keepsPlant_noteCredit ..)
      · exact moved

theorem State.keepsPlant_countWaiters (s : State) (i : Nat) : s.KeepsPlant (s.countWaiters i) := s.keepsPlant_setMem64 ..

/-- A timer of the device's own, one of the 256 triggers. -/
theorem State.keepsPlant_armTimer (s : State) {n : Nat} (times : List Nat) (hn : n < 256) : s.KeepsPlant (s.armTimer n times) := by
  have cmp : (regInfo .TT_CMP).off + (regInfo .TT_CMP).stride * n + 8 * 0 < 0x10000 := by simp only [regInfo]; omega
  have ctl : (regInfo .TT_CTL).off + (regInfo .TT_CTL).stride * n + 8 * 0 < 0x10000 := by simp only [regInfo]; omega
  unfold State.armTimer
  split
  · exact .refl s
  · split
    · exact s.keepsPlant_setRegW _ (by decide) ctl
    · exact (s.keepsPlant_setRegW _ (by decide) cmp).trans (State.keepsPlant_setRegW _ _ (by decide) ctl)

theorem State.keepsPlant_armTimers (s : State) : s.KeepsPlant s.armTimers :=
  ((s.keepsPlant_armTimer _ (by decide)).trans (State.keepsPlant_armTimer _ _ (by decide))).trans (State.keepsPlant_armTimer _ _ (by decide))

theorem State.keepsPlant_releaseWaiters (s : State) (i : Nat) : s.KeepsPlant (s.releaseWaiters i) := by
  unfold State.releaseWaiters
  extract_lets v ready
  split
  · exact .refl s
  · exact ((State.keepsPlant_foldl (fun t r => t.keepsPlant_retireBase r false) ready s).trans (State.keepsPlant_countWaiters ..)).trans
      (State.keepsPlant_armTimers _)

theorem State.keepsPlant_testGate (s : State) (i : Nat) : s.KeepsPlant (s.testGate i) := by
  unfold State.testGate
  split
  · split
    · exact .of_eq rfl rfl rfl
    · exact .refl s
  · exact .refl s

theorem State.keepsPlant_synUpdate (s : State) (i : Nat) (set : Bool) (v : Word) : s.KeepsPlant (s.synUpdate i set v) := by
  unfold State.synUpdate
  split
  · exact State.keepsPlant_poisonUsed (q := kReq) (by decide) _ _ _ _
  · extract_lets old new thresh ctl s1 told s2
    have crossed : s1.KeepsPlant s2 := by
      unfold s2
      split
      · have irq : s1.KeepsPlant told := s1.keepsPlant_sendIrq ..
        split
        · exact irq.trans (State.keepsPlant_sendSevt ..)
        · exact irq
      · exact .refl s1
    exact (((s.keepsPlant_setMem64 ..).trans crossed).trans (State.keepsPlant_releaseWaiters ..)).trans (State.keepsPlant_testGate ..)

theorem State.keepsPlant_streamEvent (s : State) (st kind code xcode seq : Nat) : s.KeepsPlant (s.streamEvent st kind code xcode seq) :=
  (s.keepsPlant_sendSevt ..).trans (State.keepsPlant_noteCredit ..)

theorem State.keepsPlant_faultStream (s : State) (r : StreamRun) (fcode xcode : Nat) : s.KeepsPlant (s.faultStream r fcode xcode) := by
  unfold State.faultStream
  dsimp only
  split
  · exact (s.keepsPlant_dropRun r.s).trans (State.keepsPlant_trowel ..)
  · split
    · exact s.keepsPlant_setRun _
    · refine .trans (.trans (.trans ?_ (State.keepsPlant_streamEvent ..)) (State.keepsPlant_sendIrq ..)) (State.keepsPlant_trowel ..)
      exact ((s.keepsPlant_setStrState ..).trans (State.keepsPlant_setStrF ..)).trans (State.keepsPlant_setRun ..)

theorem State.keepsPlant_finish (s : State) (r : StreamRun) : s.KeepsPlant (s.finish r) := by
  unfold State.finish
  extract_lets i
  split
  · exact (State.keepsPlant_poisonUsed (q := kReq) (by decide) s _ _ _).trans (State.keepsPlant_faultStream ..)
  · refine .trans ?_ (State.keepsPlant_retireBase ..)
    split
    · unfold State.signalOf
      split
      · exact s.keepsPlant_synUpdate ..
      · exact .refl s
    · exact .refl s

/-! ### The end of a tier (R411) -/

theorem State.keepsPlant_renamePosts (s : State) (f : Own → Own) : s.KeepsPlant (s.renamePosts f) :=
  (s.keepsPlant_updLink ..).trans (.of_eq rfl rfl rfl)

/-- The writes of the cartridge that go on for nobody are the same writes. -/
theorem State.keepsPlant_orphanPosts (s : State) (own : Own) : s.KeepsPlant (s.orphanPosts own) := by
  unfold State.orphanPosts State.orphanPostsFor
  extract_lets pkt wr u
  have linked : s.KeepsPlant u := s.keepsPlant_updLink ..
  exact linked.trans ⟨rfl, rfl, fun hw => by simp [State.orphanFor, hw], .of_regs rfl⟩

theorem State.keepsPlant_snapRetire (s : State) : s.KeepsPlant s.snapRetire := by
  unfold State.snapRetire
  split
  · exact .refl s
  next p hp =>
    split
    · exact .refl s
    · have recorded : s.KeepsPlant (if p.recorded then ((.ok () : DevAcc Unit), s)
          else s.devWriteLin (p.ctx (.stream p.stream)) p.result (p.record 0) false).2 := by
        split
        · exact .refl s
        · exact State.keepsPlant_devWriteLin (x := p.ctx (.stream p.stream)) (show kReq.unit < 16 by decide) ..
      split
      next e => exact .of e recorded
      next e =>
        extract_lets s2 s3
        have lost : s.KeepsPlant s2 := by
          refine (State.KeepsPlant.of e recorded).trans ?_
          unfold s2
          split
          · exact .refl _
          · exact State.keepsPlant_logErr _ _ _ _ _ _ _ _ (by decide)
        split
        · exact lost.trans (s2.keepsPlant_snap ..)
        · have retired : s.KeepsPlant s3 := lost.trans (s2.keepsPlant_snap ..)
          split
          · exact retired.trans (State.keepsPlant_finish ..)
          · exact retired

theorem State.keepsPlant_endTier (s : State) (t status : Nat) : s.KeepsPlant (s.endTier t status) := by
  unfold State.endTier
  split
  · refine .trans (.trans (.trans ?_ (State.keepsPlant_renamePosts ..)) (State.keepsPlant_orphanPosts ..)) (State.keepsPlant_snapRetire _)
    exact s.keepsPlant_snap ..
  · exact .refl s

/-! ### A trigger's firing (R309) -/

theorem State.keepsPlant_fireTrigger (s : State) {n : Nat} (hn : n < 256) : s.KeepsPlant (s.fireTrigger n) := by
  have cmp : (regInfo .TT_CMP).off + (regInfo .TT_CMP).stride * n + 8 * 0 < 0x10000 := by simp only [regInfo]; omega
  have ctl : (regInfo .TT_CTL).off + (regInfo .TT_CTL).stride * n + 8 * 0 < 0x10000 := by simp only [regInfo]; omega
  unfold State.fireTrigger
  extract_lets w per s1 s2 s3 k
  have fired : s.KeepsPlant s1 := s.keepsPlant_setRegW _ (by decide) ctl
  have irq : s1.KeepsPlant s2 := by
    unfold s2
    split
    · exact s1.keepsPlant_sendIrq ..
    · exact .refl s1
  have added : s2.KeepsPlant s3 := by
    unfold s3
    split
    · exact s2.keepsPlant_synUpdate ..
    · exact .refl s2
  have acted := (fired.trans irq).trans added
  split
  · exact acted.trans (State.keepsPlant_setRegW _ _ (by decide) ctl)
  · exact (acted.trans (State.keepsPlant_setRegW _ _ (by decide) cmp)).trans (State.keepsPlant_setRegW _ _ (by decide) ctl)

end Sys2Proof.Machine

/-! SUPPORT. The step in force of a die, the supply's warning, and temperatures (R444–R455, R458). -/

namespace Sys2Proof.Machine

open Sys2Proof

/-! ### Registers at different places of their dies -/

/-- Where a register's doubleword lies in its die's control space. -/
def regPlace (r : RegName) (i w : Nat) : Nat := (regInfo r).blk * 0x10000 + (regInfo r).off + (regInfo r).stride * i + 8 * w

theorem regKey_ne_of_place (d d' : Nat) {r r' : RegName} {i w i' w' : Nat} (hne : regPlace r i w ≠ regPlace r' i' w')
    (h : regPlace r i w < 0x1000000) (h' : regPlace r' i' w' < 0x1000000) : regKey d r i w ≠ regKey d' r' i' w' := by
  obtain ⟨k, hk⟩ := dieBase_mul d
  obtain ⟨k', hk'⟩ := dieBase_mul d'
  have key : regKey d r i w = dieBase d + regPlace r i w := by simp only [regKey, regPlace]; omega
  have key' : regKey d' r' i' w' = dieBase d' + regPlace r' i' w' := by simp only [regKey, regPlace]; omega
  omega

theorem regKey_powerStat_inj {d e : Nat} (h : regKey d .PWR_STAT 0 0 = regKey e .PWR_STAT 0 0) : d = e :=
  dieBase_inj (by simp only [regKey, regInfo] at h; omega)

/-! ### The step in force (R445) -/

/-- PWR_STAT of a die from its demands and the warning. -/
def powerStat (x : Supply) (d : Nat) : Word :=
  let p := (demandOf x.power d).step
  let h := (demandOf x.thermal d).step
  BitVec.ofNat 64 (max p (max h (look (fun _ => 0) x.demand d)) + 2 ^ 3 * p + 2 ^ 6 * h + 2 ^ 9 * b2n x.warn)

/-- A die's PWR_STAT shows its demands. -/
def State.Stepped (s : State) (d : Nat) : Prop := s.reg d .PWR_STAT 0 = powerStat s.supply d

theorem State.Stepped.congr {s t : State} {d : Nat} (h : s.Stepped d) (hs : t.supply = s.supply)
    (hr : t.reg d .PWR_STAT 0 = s.reg d .PWR_STAT 0) : t.Stepped d := by
  rw [State.Stepped, hs, hr]
  exact h

theorem State.supply_dieStep (s : State) (d : Nat) : (s.dieStep d).supply = s.supply := rfl

theorem State.stepped_dieStep (s : State) (d : Nat) : (s.dieStep d).Stepped d := s.regW_setRegW_self ..

theorem State.Stepped.dieStep {s : State} {d : Nat} (h : s.Stepped d) (e : Nat) : (s.dieStep e).Stepped d := by
  by_cases he : d = e
  · subst he; exact s.stepped_dieStep d
  · exact h.congr rfl (s.regW_setRegW_ne _ fun hk => he (regKey_powerStat_inj hk))

/-- Every die of a list shows its demands once each has been evaluated. -/
theorem State.stepped_foldl (l : List Nat) (s : State) (d : Nat) (h : d ∈ l ∨ s.Stepped d) : (l.foldl State.dieStep s).Stepped d := by
  induction l generalizing s with
  | nil => exact h.resolve_left List.not_mem_nil
  | cons e l ih =>
    refine ih _ ?_
    rcases h with h | h
    · rcases List.mem_cons.mp h with rfl | h
      · exact .inr (s.stepped_dieStep d)
      · exact .inl h
    · exact .inr (h.dieStep e)

theorem State.supply_dieSteps (l : List Nat) (s : State) : (l.foldl State.dieStep s).supply = s.supply := by
  induction l generalizing s with
  | nil => rfl
  | cons e l ih => exact (ih _).trans (s.supply_dieStep e)

/-- The other registers of the power block, which PWR_STAT leaves alone. -/
theorem State.reg_dieSteps (l : List Nat) (s : State) (d : Nat) {r : RegName} {i : Nat} (hp : regPlace r i 0 ≠ regPlace .PWR_STAT 0 0)
    (hi : regPlace r i 0 < 0x1000000) : (l.foldl State.dieStep s).reg d r i = s.reg d r i := by
  induction l generalizing s with
  | nil => rfl
  | cons e l ih => exact (ih _).trans (s.regW_setRegW_ne _ (regKey_ne_of_place d e hp hi (by decide)))

/-! ### What leaves the supply and the power block alone -/

/-- State t has the supply and the registers of the power block as state s has them. -/
structure State.KeepsPower (s t : State) : Prop where
  supply : t.supply = s.supply
  regs : s.KeepsBlk 0x2 t

theorem State.KeepsPower.refl (s : State) : s.KeepsPower s := ⟨rfl, .refl s⟩

theorem State.KeepsPower.trans {s t u : State} (h : s.KeepsPower t) (k : t.KeepsPower u) : s.KeepsPower u :=
  ⟨k.supply.trans h.supply, h.regs.trans k.regs⟩

theorem State.keepsPower_settle (s : State) : s.KeepsPower s.settle :=
  ⟨s.logsOnly_settle.supply, s.keepsBlk_settle (by decide) (by decide)⟩

theorem State.keepsPower_sendIrq (s : State) (route die : Nat) : s.KeepsPower (s.sendIrq route die) :=
  ⟨(s.logsOnly_sendIrq ..).supply, s.keepsBlk_sendIrq ..⟩

theorem State.keepsPower_setRegW (s : State) {d : Nat} {r : RegName} {i w : Nat} (v : Word) (hb : (regInfo r).blk ≠ 0x2)
    (ho : (regInfo r).off + (regInfo r).stride * i + 8 * w < 0x10000) : s.KeepsPower (s.setRegW d r i w v) :=
  ⟨rfl, s.keepsBlk_setRegW v hb ho⟩

theorem State.keepsPower_setFld (s : State) {d : Nat} {r : RegName} {i : Nat} (hi lo v : Nat) (hb : (regInfo r).blk ≠ 0x2)
    (ho : (regInfo r).off + (regInfo r).stride * i + 8 * 0 < 0x10000) : s.KeepsPower (s.setFld d r i hi lo v) :=
  s.keepsPower_setRegW _ hb ho

theorem State.keepsPower_foldl {α : Type} {f : State → α → State} (hf : ∀ (t : State) (a : α), t.KeepsPower (f t a)) (l : List α) (s : State) :
    s.KeepsPower (l.foldl f s) := by
  induction l generalizing s with
  | nil => exact .refl s
  | cons a l ih => exact (hf s a).trans (ih _)

theorem State.KeepsPower.stepped {s t : State} {d : Nat} (k : s.KeepsPower t) (h : s.Stepped d) : t.Stepped d :=
  h.congr k.supply (k.regs.reg d .PWR_STAT 0 rfl (by decide))

theorem State.KeepsPower.fld {s t : State} (k : s.KeepsPower t) (d : Nat) {r : RegName} (hi lo : Nat) (hb : (regInfo r).blk = 0x2)
    (ho : (regInfo r).off + (regInfo r).stride * 0 < 0x10000) : t.fld d r 0 hi lo = s.fld d r 0 hi lo :=
  congrArg (bits · hi lo) (k.regs.reg d r 0 hb ho)

theorem State.KeepsPower.flag {s t : State} (k : s.KeepsPower t) (d : Nat) {r : RegName} (b : Nat) (hb : (regInfo r).blk = 0x2)
    (ho : (regInfo r).off + (regInfo r).stride * 0 < 0x10000) : t.flag d r 0 b = s.flag d r 0 b :=
  congrArg (bit · b) (k.regs.reg d r 0 hb ho)

/-! ### Samples of the input (R450, R458) -/

theorem State.vin_vinSample (s : State) (v : Nat) : (s.vinSample v).fld 24 .PWR_VIN 0 15 0 = v % 2 ^ 16 := by
  unfold State.vinSample
  extract_lets w u all t
  have read : u.fld 24 .PWR_VIN 0 15 0 = v % 2 ^ 16 := by
    unfold u
    rw [State.fld_setFld_disjoint _ _ _ _ _ (by decide) (by decide) (by decide) (by decide)]
    exact State.fld_setFld_same _ _ _ _ _ (by decide) (by decide)
  have lowest : t.fld 24 .PWR_VIN 0 15 0 = u.fld 24 .PWR_VIN 0 15 0 := by
    unfold t
    split
    · exact congrArg (bits · 15 0) (u.reg_setFld_ne _ _ _ (by decide))
    · rfl
  split
  · exact lowest.trans read
  · exact lowest.trans read

theorem State.reg_vinSample (s : State) (v : Nat) {d i : Nat} {r : RegName} (hv : regKey d r i 0 ≠ regKey 24 .PWR_VIN 0 0)
    (hm : regKey d r i 0 ≠ regKey 24 .PWR_VMIN 0 0) : (s.vinSample v).reg d r i = s.reg d r i := by
  unfold State.vinSample
  extract_lets w u all t
  have read : u.reg d r i = s.reg d r i := (State.reg_setFld_ne _ _ _ _ hv).trans (State.reg_setFld_ne _ _ _ _ hv)
  have lowest : t.reg d r i = u.reg d r i := by
    unfold t
    split
    · exact u.reg_setFld_ne _ _ _ hm
    · rfl
  split
  · exact lowest.trans read
  · exact lowest.trans read

/-- A sample changes of the supply the lowest input of a warning alone, and takes no time. -/
theorem State.vinSample_spec (s : State) (v : Nat) : (s.vinSample v).supply.warn = s.supply.warn ∧ (s.vinSample v).supply.up = s.supply.up ∧
    (s.vinSample v).time = s.time := by
  unfold State.vinSample
  extract_lets w u all t
  have same : t.supply = s.supply ∧ t.time = s.time := by
    unfold t
    split <;> exact ⟨rfl, rfl⟩
  have warn : t.supply.warn = s.supply.warn := congrArg Supply.warn same.1
  have up : t.supply.up = s.supply.up := congrArg Supply.up same.1
  split
  · exact ⟨warn, up, same.2⟩
  · exact ⟨warn, up, same.2⟩

/-! ### The warning received (R351, R449) -/

/-- The supply with every die's warning demand at step 5. -/
def State.demandsFive (s : State) : State := { s with supply := { s.supply with demand := (List.range 25).map fun d => (d, 5) } }

theorem State.warnOn_eq (s : State) : ((List.range 25).foldl State.dieStep s.demandsFive).KeepsPower s.warnOn := by
  unfold State.warnOn
  dsimp only
  refine .trans ?_ (State.keepsPower_setFld _ _ _ _ (by decide) (by decide))
  exact State.keepsPower_foldl (fun t k =>
    (t.keepsPower_setFld _ _ _ (by decide) (by decide)).trans (State.keepsPower_setFld _ _ _ _ (by decide) (by decide))) _ _

theorem State.supply_warnOn (s : State) : s.warnOn.supply = s.demandsFive.supply := s.warnOn_eq.supply.trans (State.supply_dieSteps ..)

theorem State.stepped_warnOn (s : State) {d : Nat} (hd : d < 25) : s.warnOn.Stepped d :=
  s.warnOn_eq.stepped (State.stepped_foldl _ _ _ (.inl (List.mem_range.mpr hd)))

theorem State.reg_warnOn (s : State) {r : RegName} (hb : (regInfo r).blk = 0x2) (ho : (regInfo r).off + (regInfo r).stride * 0 < 0x10000)
    (hp : regPlace r 0 0 ≠ regPlace .PWR_STAT 0 0) (hi : regPlace r 0 0 < 0x1000000) : s.warnOn.reg 24 r 0 = s.reg 24 r 0 :=
  (s.warnOn_eq.regs.reg 24 r 0 hb ho).trans (State.reg_dieSteps _ _ _ hp hi)

/-- The supply as a warning begins. -/
def State.warned (s : State) (v : Nat) : State := { s with supply := { s.supply with warn := true, up := false, low := v, began := s.mctime } }

/-- The warning of a running module: sampled, counted and reported. -/
def State.warnCounted (s : State) (v : Nat) : State :=
  State.setFld (((s.warned v).vinSample v).satFld 24 .PWR_WARN_CNT 0 31 0 1) 24 .PWR_EVT 0 0 0 1

theorem execSupplyWarn_warns {s : State} {v : BitVec 16} (hs : s.stopped = false) (hv : v.toNat < 4400) (hw : s.supply.warn = false) :
    execSupplyWarn v s = done ((s.warnCounted v.toNat).warnOn.sendIrq ((s.warnCounted v.toNat).fld 24 .PWR_ROUTE 0 15 0) 24) := by
  have running : (s.warned v.toNat).stopped = false := hs
  unfold execSupplyWarn
  dsimp only
  rw [if_neg (Nat.not_le.mpr hv), hw]
  exact congrArg done (if_neg (Bool.eq_false_iff.mp running))

theorem State.warnCounted_spec (s : State) {v : Nat} (hv : v < 2 ^ 16) :
    (s.warnCounted v).supply.warn = true ∧ (s.warnCounted v).flag 24 .PWR_EVT 0 0 = true ∧ (s.warnCounted v).fld 24 .PWR_VIN 0 15 0 = v ∧
      (s.warnCounted v).fld 24 .PWR_WARN_CNT 0 31 0 = min (2 ^ 32 - 1) (s.fld 24 .PWR_WARN_CNT 0 31 0 + 1) := by
  obtain ⟨hwarn, -, -⟩ := (s.warned v).vinSample_spec v
  have vin := (s.warned v).vin_vinSample v
  have count : ((s.warned v).vinSample v).fld 24 .PWR_WARN_CNT 0 31 0 = s.fld 24 .PWR_WARN_CNT 0 31 0 :=
    congrArg (bits · 31 0) ((s.warned v).reg_vinSample v (by decide) (by decide))
  unfold State.warnCounted
  generalize (s.warned v).vinSample v = u at *
  refine ⟨hwarn, State.flag_setFld_bit _ _ _ _ _ _ (by decide), ?_, ?_⟩
  · rw [State.fld, State.reg_setFld_ne _ _ _ _ (by decide), State.satFld, State.reg_setFld_ne _ _ _ _ (by decide)]
    exact vin.trans (Nat.mod_eq_of_lt hv)
  · rw [State.fld, State.reg_setFld_ne _ _ _ _ (by decide), State.satFld]
    refine (State.fld_setFld_same _ _ _ _ _ (by decide) (by decide)).trans ?_
    rw [count, satAdd]
    exact Nat.mod_eq_of_lt (by omega)

/-! ### The warning under way (R450) -/

/-- The supply as the input's level is noted during a warning. -/
def State.levelNoted (s : State) (up : Bool) (v : Nat) : State :=
  { s with supply := { s.supply with up := up, low := min s.supply.low v } }

section
variable {s : State} {v : BitVec 16} (hs : s.stopped = false) (hw : s.supply.warn = true)
include hs hw

theorem execSupplyWarn_again (hv : v.toNat < 4400) :
    execSupplyWarn v s = done (((s.levelNoted false v.toNat).vinSample v.toNat).setFld 24 .TT_CTL 244 0 0 0) := by
  have running : (s.levelNoted false v.toNat).stopped = false := hs
  exact congrArg done ((if_neg (Nat.not_le.mpr hv)).trans ((if_pos hw).trans (if_neg (Bool.eq_false_iff.mp running))))

theorem execSupplyRise45v_noted : execSupplyRise45v v s =
    let u := (s.levelNoted (decide (4500 ≤ v.toNat)) v.toNat).vinSample v.toNat
    done (if 4500 ≤ v.toNat then (if u.flag 24 .TT_CTL 244 0 then u else u.armWarn) else u.setFld 24 .TT_CTL 244 0 0 0) := by
  have running : (s.levelNoted (decide (4500 ≤ v.toNat)) v.toNat).stopped = false := hs
  exact congrArg done ((if_neg (by simp [hw])).trans (if_neg (Bool.eq_false_iff.mp running)))

end

/-- Trigger 244 is armed as the noted input stands at 45.0 V. -/
theorem State.armWarn_noted {s : State} {v : Nat} (hw : s.supply.warn = true) (hv : 4500 ≤ v) :
    ((s.levelNoted (decide (4500 ≤ v)) v).vinSample v).armWarn =
      ((s.levelNoted (decide (4500 ≤ v)) v).vinSample v).armTimer 244 [s.time + 1000000] := by
  obtain ⟨hwarn, hup, htime⟩ := (s.levelNoted (decide (4500 ≤ v)) v).vinSample_spec v
  have up : ((s.levelNoted (decide (4500 ≤ v)) v).vinSample v).supply.up = true := hup.trans (decide_eq_true hv)
  have time : ((s.levelNoted (decide (4500 ≤ v)) v).vinSample v).time = s.time := htime
  unfold State.armWarn
  rw [hwarn, up, time]
  exact if_pos (by simpa [State.levelNoted] using hw)

theorem State.flag_noted (s : State) (up : Bool) (v : Nat) :
    ((s.levelNoted up v).vinSample v).flag 24 .TT_CTL 244 0 = s.flag 24 .TT_CTL 244 0 :=
  congrArg (bit · 0) ((s.levelNoted up v).reg_vinSample v (by decide) (by decide))

/-! ### The warning released (R351, R450) -/

/-- The supply as its warning ends: each die's next step down is due 2 µs after its neighbour's. -/
def State.unwarned (s : State) : State :=
  { s with supply := { s.supply with warn := false, due := (List.range 24).map (fun d => (d, s.time + 2000 * d)) ++ [(24, s.time)] } }

/-- The release reported, with the lowest input of the warning. -/
def State.releaseShown (s : State) : State := (s.unwarned.setFld 24 .PWR_EVT 0 1 1 1).setFld 24 .PWR_VMIN 0 15 0 s.supply.low

/-- The release in the MC's log, with the warning's duration and count. -/
def State.releaseLogged (s : State) : State :=
  let u := s.releaseShown
  u.mcLog 0x0003 0 24 s.supply.low (u.mctime - u.supply.began) (u.reg 24 .PWR_WARN_CNT 0).toNat

theorem State.warnOff_eq (s : State) : ((List.range 25).foldl State.dieStep s.releaseLogged).KeepsPower s.warnOff := by
  unfold State.warnOff State.releaseLogged State.releaseShown State.unwarned
  dsimp only
  exact State.keepsPower_foldl (fun t _ => t.keepsPower_setFld _ _ _ (by decide) (by decide)) _ _

theorem State.warnOff_spec (s : State) : s.warnOff.supply.warn = false ∧ s.warnOff.flag 24 .PWR_EVT 0 1 = true ∧
    s.warnOff.fld 24 .PWR_VMIN 0 15 0 = s.supply.low % 2 ^ 16 ∧ s.warnOff.supply.demand = s.supply.demand ∧ ∀ d < 25, s.warnOff.Stepped d := by
  have kept := s.warnOff_eq
  have logged : s.releaseLogged.supply = s.unwarned.supply := (State.logsOnly_mcLog ..).supply
  have supply : s.warnOff.supply = s.unwarned.supply := kept.supply.trans ((State.supply_dieSteps ..).trans logged)
  have shown {r : RegName} (hb : (regInfo r).blk = 0x2) (ho : (regInfo r).off + (regInfo r).stride * 0 < 0x10000)
      (hp : regPlace r 0 0 ≠ regPlace .PWR_STAT 0 0) (hi : regPlace r 0 0 < 0x1000000) : s.warnOff.reg 24 r 0 = s.releaseShown.reg 24 r 0 :=
    (kept.regs.reg 24 r 0 hb ho).trans ((State.reg_dieSteps _ _ _ hp hi).trans
      ((s.releaseShown.keepsBlk_mcLog (b := 0x2) (by decide) ..).reg 24 r 0 hb ho))
  refine ⟨congrArg Supply.warn supply, ?_, ?_, (congrArg Supply.demand supply).trans rfl, fun d hd => ?_⟩
  · rw [State.flag, shown (by decide) (by decide) (by decide) (by decide), State.releaseShown, State.reg_setFld_ne _ _ _ _ (by decide)]
    exact State.flag_setFld_bit _ _ _ _ _ _ (by decide)
  · rw [State.fld, shown (by decide) (by decide) (by decide) (by decide)]
    exact State.fld_setFld_same _ _ _ _ _ (by decide) (by decide)
  · exact kept.stepped (State.stepped_foldl _ _ _ (.inl (List.mem_range.mpr hd)))

theorem execSupplyWarnRelease_releases {s : State} (hs : s.stopped = false) (hw : s.supply.warn = true) (hdue : s.triggerDue 244 = true) :
    execSupplyWarnRelease s = done (s.fireTrigger 244).warnOff :=
  congrArg done (if_pos (by simp [hs, hw, hdue]))

/-- A die's warning demand a step lower, its next step due 10 µs on. -/
def State.demandLowered (s : State) (d : Nat) : State :=
  { s with supply := { s.supply with
    demand := put (fun _ => 0) s.supply.demand d (look (fun _ => 0) s.supply.demand d - 1)
    due := put (fun _ => 0) s.supply.due d (s.time + 10000) } }

theorem execWarningReturnStep_lowers {s : State} {d : Die} (hs : s.stopped = false) (hw : s.supply.warn = false)
    (h0 : look (fun _ => 0) s.supply.demand d.val ≠ 0) (hdue : look (fun _ => 0) s.supply.due d.val ≤ s.time) :
    execWarningReturnStep d s = done ((s.demandLowered d.val).dieStep d.val) :=
  congrArg done (if_neg (by simp [hs, hw, h0, hdue]))

/-! ### Power estimates and their demands (R447, R448) -/

/-- A die's estimates shown, and the energy counted. -/
def State.estimated (s : State) (d e h : Nat) : State :=
  let f := (s.setReg d .PWR_EST 0 (BitVec.ofNat 64 (e + 2 ^ 16 * h))).freeNat
  f.2.countReg d .PWR_ENERGY 0 f.1

theorem State.est_estimated (s : State) (d e h : Nat) : (s.estimated d e h).reg d .PWR_EST 0 = BitVec.ofNat 64 (e + 2 ^ 16 * h) :=
  (State.regW_setRegW_ne _ _ (regKey_ne_of_place d d (by decide) (by decide) (by decide))).trans (s.regW_setRegW_self ..)

/-- The power demands of a die and of its stack evaluated, before PWR_STAT shows them. -/
def State.powerEvaluated (s : State) (d : Nat) (p k : Demand) : State :=
  let u := { s with supply := { s.supply with power := put (fun _ => {}) s.supply.power d p } }
  match dieStack d with
  | some st => ({ u with supply := { u.supply with stack := put (fun _ => {}) u.supply.stack d k } }).stackStep st
  | none => u

theorem State.powerEvaluated_spec (s : State) (d : Nat) (p k : Demand) :
    demandOf (s.powerEvaluated d p k).supply.power d = p ∧ (isEdgeDie d = true → demandOf (s.powerEvaluated d p k).supply.stack d = k) ∧
      s.KeepsBlk 0x2 (s.powerEvaluated d p k) := by
  unfold State.powerEvaluated isEdgeDie
  cases dieStack d with
  | none => exact ⟨look_put_self .., fun h => absurd h (by decide), .of_regs rfl⟩
  | some st =>
    refine ⟨look_put_self .., fun _ => look_put_self .., State.KeepsBlk.trans (.of_regs ?_) (State.keepsBlk_setRegW _ _ (by decide) (by decide))⟩
    rfl

/-- The heat of a die's stack, as its estimate has it. -/
def stackEst (d : Nat) (stack : BitVec 16) : Nat := if isEdgeDie d then stack.toNat else 0

theorem execPowerDemandEval_evaluates {s : State} {d : Die} {est stack : BitVec 16} (hs : s.stopped = false) :
    execPowerDemandEval d est stack s =
      let c := s.fld d.val .PWR_CEIL 0 15 0
      let hc := s.fld d.val .PWR_HCEIL 0 15 0
      let e := est.toNat
      let h := stackEst d.val stack
      done (((s.estimated d.val e h).powerEvaluated d.val
        ((demandOf s.supply.power d.val).eval 5 s.time 10000 100000 (decide (c * 100 < e * 103)) (decide (e * 103 < c * 90)))
        ((demandOf s.supply.stack d.val).eval 2 s.time 10000 100000 (decide (hc * 100 < h * 103)) (decide (h * 103 < hc * 90)))).dieStep d.val) :=
  congrArg done (if_neg (Bool.eq_false_iff.mp hs))

theorem bits_low_pair {e h : Nat} (he : e < 2 ^ 16) : bits (BitVec.ofNat 64 (e + 2 ^ 16 * h)) 15 0 = e := by
  simp only [bits, BitVec.toNat_ofNat]
  omega

theorem bits_high_pair {e h : Nat} (he : e < 2 ^ 16) (hh : h < 2 ^ 16) : bits (BitVec.ofNat 64 (e + 2 ^ 16 * h)) 31 16 = h := by
  simp only [bits, BitVec.toNat_ofNat]
  omega

/-! ### Demands (R447, R453) -/

section
variable (x : Demand) (top now gap hold : Nat)

theorem Demand.eval_first (cold : Bool) (h : x.rose = none) : (x.eval top now gap hold true cold).step = min top (x.step + 1) := by
  simp [Demand.eval, h]

theorem Demand.eval_soon (cold : Bool) {r : Nat} (h : x.rose = some r) (hr : now < r + gap) :
    (x.eval top now gap hold true cold).step = x.step := by
  simp [Demand.eval, h, Nat.not_le.mpr hr]

theorem Demand.eval_cooled {l : Nat} (h : x.low = some l) (hl : l + hold ≤ now) :
    (x.eval top now gap hold false true).step = x.step - 1 := by
  simp [Demand.eval, h, hl]

theorem Demand.eval_warm : (x.eval top now gap hold false false).step = x.step := rfl

end

/-! ### Temperatures (R453, R455) -/

/-- The sensors of a die shown. -/
def State.sensed (s : State) (d : Nat) (temps : List Nat) : State :=
  (enumFrom 0 temps).foldl (fun s e => s.setReg d .THM_SENS e.1 (BitVec.ofNat 64 e.2)) s

theorem State.sens_foldl (d i : Nat) (temps : List Nat) (n : Nat) (s : State) :
    ((enumFrom n temps).foldl (fun s e => s.setReg d .THM_SENS e.1 (BitVec.ofNat 64 e.2)) s).reg d .THM_SENS i =
      if n ≤ i ∧ i < n + temps.length then BitVec.ofNat 64 (temps.getD (i - n) 0) else s.reg d .THM_SENS i := by
  induction temps generalizing n s with
  | nil => exact (if_neg (by simp)).symm
  | cons x xs ih =>
    rw [enumFrom, List.foldl_cons, ih]
    by_cases hi : i = n
    · subst hi
      rw [if_neg (by omega), if_pos (by simp), Nat.sub_self]
      exact State.regW_setRegW_self ..
    · have other : (s.setReg d .THM_SENS n (BitVec.ofNat 64 x)).reg d .THM_SENS i = s.reg d .THM_SENS i :=
        s.regW_setRegW_ne _ (by simp only [regKey, regInfo]; omega)
      rw [other]
      by_cases h : n + 1 ≤ i ∧ i < n + 1 + xs.length
      · rw [if_pos h, if_pos (by simp; omega), show i - n = i - (n + 1) + 1 by omega]
        rfl
      · rw [if_neg h, if_neg (by simp; omega)]

theorem State.sens_sensed (s : State) (d : Nat) {temps : List Nat} {i : Nat} (hi : i < temps.length) :
    (s.sensed d temps).reg d .THM_SENS i = BitVec.ofNat 64 (temps.getD i 0) := by
  rw [State.sensed, State.sens_foldl, if_pos ⟨Nat.zero_le i, by omega⟩, Nat.sub_zero]

theorem regPlace_sens (i : Nat) : regPlace .THM_SENS i 0 = 0x30100 + 8 * i := by
  simp only [regPlace, regInfo]
  omega

/-- The sensors show nothing but their own registers. -/
theorem State.reg_sensed (s : State) (d e : Nat) {r : RegName} {i : Nat} {temps : List Nat} (hlen : temps.length ≤ 8)
    (hp : regPlace r i 0 < 0x30100) : (s.sensed d temps).reg e r i = s.reg e r i := by
  have fold (l : List Nat) (n : Nat) (hn : n + l.length ≤ 8) (t : State) :
      ((enumFrom n l).foldl (fun s x => s.setReg d .THM_SENS x.1 (BitVec.ofNat 64 x.2)) t).reg e r i = t.reg e r i := by
    induction l generalizing n t with
    | nil => rfl
    | cons x xs ih =>
      have place := regPlace_sens n
      rw [List.length_cons] at hn
      rw [enumFrom, List.foldl_cons, ih _ (by omega)]
      dsimp only
      exact t.regW_setRegW_ne _ (regKey_ne_of_place e d (by omega) (by omega) (by omega))
  exact fold temps 0 (by omega) s

theorem State.logsOnly_sensed (s : State) (d : Nat) (temps : List Nat) : s.LogsOnly (s.sensed d temps) :=
  State.logsOnly_foldl (fun t _ => t.logsOnly_setRegW ..) _ s

/-- The hottest sensor shown, with the highest so far. -/
def State.tempShown (s : State) (d j : Nat) : State :=
  s.setReg d .THM_TEMP 0 (BitVec.ofNat 64 (j + 2 ^ 8 * max j (s.fld d .THM_TEMP 0 15 8)))

theorem State.temp_tempShown (s : State) (d : Nat) {j : Nat} (hj : j < 2 ^ 8) : (s.tempShown d j).fld d .THM_TEMP 0 7 0 = j := by
  rw [State.tempShown, State.fld, State.reg, State.setReg, State.regW_setRegW_self]
  simp only [bits, BitVec.toNat_ofNat]
  omega

/-- The supply with a die's thermal demand. -/
def State.heated (s : State) (d : Nat) (t : Demand) : State :=
  { s with supply := { s.supply with thermal := put (fun _ => {}) s.supply.thermal d t } }

/-- A thermal demand shown, with the event of its rise. -/
def State.demandShown (s : State) (d : Nat) (old t : Demand) : State :=
  let u := s.setFld d .THM_STAT 0 0 0 (b2n (t.step != 0))
  if old.step = 0 ∧ t.step ≠ 0 then u.thmEvt d 0 else u

/-- A die's limit of 105 °C shown, with the event of its passing. -/
def State.limitShown (s : State) (d j : Nat) : State :=
  if 105 ≤ j then (if s.flag d .THM_STAT 0 1 then s else (s.setFld d .THM_STAT 0 1 1 1).thmEvt d 1)
  else if j ≤ 103 then s.setFld d .THM_STAT 0 1 1 0
  else s

theorem State.logsOnly_thmEvt (s : State) (d b : Nat) : s.LogsOnly (s.thmEvt d b) :=
  (s.logsOnly_setFld ..).trans (State.logsOnly_setFld ..)

theorem State.reg_thmEvt (s : State) (d b e : Nat) {r : RegName} {i : Nat} (hp : regPlace r i 0 < 0x30208) :
    (s.thmEvt d b).reg e r i = s.reg e r i := by
  have place : regPlace .THM_EVT 0 0 = 0x30208 := rfl
  have key : regKey e r i 0 ≠ regKey 24 .THM_EVT 0 0 := regKey_ne_of_place e 24 (by omega) (by omega) (by omega)
  exact (State.reg_setFld_ne _ _ _ _ key).trans (s.reg_setFld_ne _ _ _ key)

theorem State.logsOnly_demandShown (s : State) (d : Nat) (old t : Demand) : s.LogsOnly (s.demandShown d old t) := by
  unfold State.demandShown
  dsimp only
  split
  · exact (s.logsOnly_setFld ..).trans (State.logsOnly_thmEvt ..)
  · exact s.logsOnly_setFld ..

/-- Below THM_EVT, the demand shows in bit 0 of THM_STAT alone. -/
theorem State.demandShown_spec (s : State) (d : Nat) (old t : Demand) : (s.demandShown d old t).flag d .THM_STAT 0 1 = s.flag d .THM_STAT 0 1 ∧
    ∀ (r : RegName) (i : Nat), regPlace r i 0 < 0x30208 → regPlace r i 0 ≠ regPlace .THM_STAT 0 0 →
      (s.demandShown d old t).reg d r i = s.reg d r i := by
  unfold State.demandShown
  extract_lets u
  have flag : u.flag d .THM_STAT 0 1 = s.flag d .THM_STAT 0 1 := (State.flag_setFld_bit _ _ _ _ _ _ (by decide)).trans (if_neg (by decide))
  have reg (r : RegName) (i : Nat) (hi : regPlace r i 0 < 0x30208) (hp : regPlace r i 0 ≠ regPlace .THM_STAT 0 0) : u.reg d r i = s.reg d r i :=
    s.reg_setFld_ne _ _ _ (regKey_ne_of_place d d hp (by omega) (by decide))
  split
  · exact ⟨(congrArg (bit · 1) (u.reg_thmEvt d 0 d (by decide))).trans flag, fun r i hi hp => (u.reg_thmEvt d 0 d hi).trans (reg r i hi hp)⟩
  · exact ⟨flag, reg⟩

theorem State.logsOnly_limitShown (s : State) (d j : Nat) : s.LogsOnly (s.limitShown d j) := by
  unfold State.limitShown
  split
  · split
    · exact .refl s
    · exact (s.logsOnly_setFld ..).trans (State.logsOnly_thmEvt ..)
  · split
    · exact s.logsOnly_setFld ..
    · exact .refl s

theorem State.reg_limitShown (s : State) (d j : Nat) {r : RegName} {i : Nat} (hi : regPlace r i 0 < 0x30208)
    (hp : regPlace r i 0 ≠ regPlace .THM_STAT 0 0) : (s.limitShown d j).reg d r i = s.reg d r i := by
  have key : regKey d r i 0 ≠ regKey d .THM_STAT 0 0 := regKey_ne_of_place d d hp (by omega) (by decide)
  unfold State.limitShown
  split
  · split
    · rfl
    · exact (State.reg_thmEvt _ d 1 d hi).trans (s.reg_setFld_ne _ _ _ key)
  · split
    · exact s.reg_setFld_ne _ _ _ key
    · rfl

/-- The limit stands from 105 °C until the die is at 103 °C. -/
theorem State.flag_limitShown (s : State) (d j : Nat) :
    (s.limitShown d j).flag d .THM_STAT 0 1 = (decide (105 ≤ j) || (s.flag d .THM_STAT 0 1 && decide (103 < j))) := by
  have set (v : Nat) : (s.setFld d .THM_STAT 0 1 1 v).flag d .THM_STAT 0 1 = v.testBit 0 := State.flag_setFld_bit _ _ _ _ _ _ (by decide)
  unfold State.limitShown
  split
  next h =>
    rw [decide_eq_true h, Bool.true_or]
    split
    next hf => exact hf
    next => exact (congrArg (bit · 1) (State.reg_thmEvt _ d 1 d (by decide))).trans (set 1)
  next h =>
    rw [decide_eq_false h, Bool.false_or]
    split
    next hj => rw [set, decide_eq_false (Nat.not_lt.mpr hj), Bool.and_false]; rfl
    next hj => rw [decide_eq_true (Nat.lt_of_not_le hj), Bool.and_true]

/-- The thermal demand after a reading of j. -/
def State.thermalDemand (s : State) (d j : Nat) : Demand :=
  (demandOf s.supply.thermal d).eval 5 s.time 100000 1000000 (decide (97 ≤ j)) (decide (j ≤ 93))

/-- The sensors read, with the hottest of them shown. -/
def State.tempsRead (s : State) (d : Nat) (temps : List Nat) : State := (s.sensed d temps).tempShown d (temps.foldl max 0)

theorem State.logsOnly_tempsRead (s : State) (d : Nat) (temps : List Nat) : s.LogsOnly (s.tempsRead d temps) :=
  (s.logsOnly_sensed d temps).trans (State.logsOnly_setRegW ..)

theorem State.thermalDemand_tempsRead (s : State) (d : Nat) (temps : List Nat) (j : Nat) :
    (s.tempsRead d temps).thermalDemand d j = s.thermalDemand d j := by
  have logs := s.logsOnly_tempsRead d temps
  have time : (s.tempsRead d temps).time = s.time := congrArg (a₂ := s.withLogs (s.tempsRead d temps)) State.time logs
  rw [State.thermalDemand, State.thermalDemand, logs.supply, time]

/-- A die's limit and demand after a reading of j, before PWR_STAT shows them. -/
def State.judged (s : State) (d j : Nat) : State :=
  ((s.heated d (s.thermalDemand d j)).demandShown d (demandOf s.supply.thermal d) (s.thermalDemand d j)).limitShown d j

theorem State.thermalRead_eq (s : State) (d : Nat) (temps : List Nat) :
    s.thermalRead d temps = ((s.tempsRead d temps).judged d (temps.foldl max 0)).dieStep d := rfl

theorem State.logsOnly_judged (s : State) (d j : Nat) : (s.heated d (s.thermalDemand d j)).LogsOnly (s.judged d j) :=
  (State.logsOnly_demandShown ..).trans (State.logsOnly_limitShown ..)

theorem State.reg_judged (s : State) (d j : Nat) {r : RegName} {i : Nat} (hi : regPlace r i 0 < 0x30208)
    (hp : regPlace r i 0 ≠ regPlace .THM_STAT 0 0) : (s.judged d j).reg d r i = s.reg d r i :=
  (State.reg_limitShown _ d j hi hp).trans ((State.demandShown_spec _ d _ _).2 r i hi hp)

theorem State.flag_judged (s : State) (d j : Nat) :
    (s.judged d j).flag d .THM_STAT 0 1 = (decide (105 ≤ j) || (s.flag d .THM_STAT 0 1 && decide (103 < j))) := by
  rw [State.judged, State.flag_limitShown, (State.demandShown_spec _ d _ _).1]
  rfl

/-- What a reading leaves: its demand, its registers, the step in force, and the resets as they were. -/
theorem State.thermalRead_spec (s : State) (d : Nat) {temps : List Nat} (hlen : temps.length ≤ 8) (hj : temps.foldl max 0 < 2 ^ 8) :
    let j := temps.foldl max 0
    let t := s.thermalRead d temps
    t.Stepped d ∧ demandOf t.supply.thermal d = s.thermalDemand d j ∧ t.fld d .THM_TEMP 0 7 0 = j ∧
      (∀ i < temps.length, t.reg d .THM_SENS i = BitVec.ofNat 64 (temps.getD i 0)) ∧
      t.flag d .THM_STAT 0 1 = (decide (105 ≤ j) || (s.flag d .THM_STAT 0 1 && decide (103 < j))) ∧ t.rst = s.rst := by
  intro j t
  have eq : t = ((s.tempsRead d temps).judged d j).dieStep d := s.thermalRead_eq d temps
  have reg {r : RegName} {i : Nat} (hp : regPlace r i 0 ≠ regPlace .PWR_STAT 0 0) (hi : regPlace r i 0 < 0x1000000) :
      t.reg d r i = ((s.tempsRead d temps).judged d j).reg d r i := by
    rw [eq]
    exact State.regW_setRegW_ne _ _ (regKey_ne_of_place d d hp hi (by decide))
  have judged := (s.tempsRead d temps).logsOnly_judged d j
  have supply : t.supply = ((s.tempsRead d temps).heated d ((s.tempsRead d temps).thermalDemand d j)).supply := by
    rw [eq, State.supply_dieStep, judged.supply]
  refine ⟨?_, ?_, ?_, fun i hi => ?_, ?_, ?_⟩
  · rw [eq]; exact State.stepped_dieStep ..
  · rw [supply, ← s.thermalDemand_tempsRead d temps j]
    exact look_put_self ..
  · rw [State.fld, reg (by decide) (by decide), State.reg_judged _ _ _ (by decide) (by decide)]
    exact State.temp_tempShown _ d hj
  · have place := regPlace_sens i
    have stat : regPlace .THM_STAT 0 0 = 0x30008 := rfl
    have power : regPlace .PWR_STAT 0 0 = 0x20008 := rfl
    have temp : regPlace .THM_TEMP 0 0 = 0x30000 := rfl
    rw [reg (by omega) (by omega), State.reg_judged _ _ _ (by omega) (by omega), ← s.sens_sensed d hi]
    exact State.regW_setRegW_ne _ _ (regKey_ne_of_place d d (by omega) (by omega) (by decide))
  · rw [State.flag, reg (by decide) (by decide)]
    refine ((s.tempsRead d temps).flag_judged d j).trans ?_
    have stat : (s.tempsRead d temps).reg d .THM_STAT 0 = s.reg d .THM_STAT 0 :=
      (State.regW_setRegW_ne _ _ (regKey_ne_of_place d d (by decide) (by decide) (by decide))).trans (s.reg_sensed d d hlen (by decide))
    rw [State.flag, stat, State.flag]
  · rw [eq]
    exact judged.rst.trans (s.logsOnly_tempsRead d temps).rst

/-! #### A die that trips (R455) -/

/-- State t has the supply and the registers of power and heat as state s has them. -/
structure State.KeepsHeat (s t : State) : Prop extends State.KeepsPower s t where
  heat : s.KeepsBlk 0x3 t

theorem State.KeepsHeat.trans {s t u : State} (h : s.KeepsHeat t) (k : t.KeepsHeat u) : s.KeepsHeat u :=
  ⟨h.toKeepsPower.trans k.toKeepsPower, h.heat.trans k.heat⟩

theorem State.keepsHeat_settle (s : State) : s.KeepsHeat s.settle := ⟨s.keepsPower_settle, s.keepsBlk_settle (by decide) (by decide)⟩

theorem State.keepsHeat_logErr (s : State) (die cls sev : Nat) {unit : Nat} (q : Req) (addr : Option Nat) (poison : Bool) (info : Nat)
    (hu : unit < 16) : s.KeepsHeat (s.logErr die cls sev unit q addr poison info) :=
  ⟨⟨(s.logsOnly_logErr ..).supply, s.keepsBlk_logErr (by decide) (by decide) _ _ _ _ _ _ _ hu⟩,
    s.keepsBlk_logErr (by decide) (by decide) _ _ _ _ _ _ _ hu⟩

theorem State.keepsBlk_setLink (s : State) (l : LinkId) (k : Link) {b : Nat} (hb : (regInfo .AGD_LSTAT).blk ≠ b) : s.KeepsBlk b (s.setLink l k) := by
  unfold State.setLink
  extract_lets u
  have linked : s.KeepsBlk b u := .of_regs rfl
  cases l with
  | agd => exact (linked.trans (u.keepsBlk_setRegW _ hb (by decide))).trans (State.keepsBlk_setRegW _ _ hb (by decide))
  | twn | hwk => exact linked

theorem State.keepsHeat_setLink (s : State) (l : LinkId) (k : Link) : s.KeepsHeat (s.setLink l k) :=
  ⟨⟨by cases l <;> rfl, s.keepsBlk_setLink l k (by decide)⟩, s.keepsBlk_setLink l k (by decide)⟩

theorem State.keepsHeat_rst (s : State) (x : Reset) : s.KeepsHeat { s with rst := x } := ⟨⟨rfl, .of_regs rfl⟩, .of_regs rfl⟩

theorem State.keepsHeat_dieTrip (s : State) (d : Nat) : s.KeepsHeat (s.dieTrip d) := by
  unfold State.dieTrip
  dsimp only
  have logged := s.keepsHeat_logErr d 0x14 3 (unit := 12) ⟨d, 12⟩ none false (s.fld d .THM_TEMP 0 7 0) (by decide)
  have dark := ((logged.trans (State.keepsHeat_setLink _ .agd {})).trans (State.keepsHeat_setLink _ .twn {})).trans (State.keepsHeat_setLink _ .hwk {})
  refine dark.trans ?_
  exact ⟨⟨rfl, .of_regs rfl⟩, .of_regs rfl⟩

theorem State.trip_dieTrip (s : State) (d : Nat) : (s.dieTrip d).rst.trip = true := by
  unfold State.dieTrip
  rfl

section
variable {s : State} {d : Die} {temps : List Byte} (hs : s.stopped = false) (hlen : temps.length = sensorsOf d.val)
include hs hlen

/-- A reading trips its die at 110 °C, or at 97 °C where it has tripped before. -/
theorem execThermalRead_reads : execThermalRead d temps s =
    let u := s.thermalRead d.val (temps.map (·.toNat))
    done (if decide (110 ≤ u.fld d.val .THM_TEMP 0 7 0) || (u.rst.hot.contains d.val && decide (97 ≤ u.fld d.val .THM_TEMP 0 7 0))
      then u.dieTrip d.val else { u with rst := { u.rst with hot := u.rst.hot.filter (· != d.val) } }) :=
  congrArg done (if_neg (by simp [hs, hlen]))

end

theorem foldl_max_lt {m : Nat} (l : List Nat) (n : Nat) (hn : n < m) (hl : ∀ x ∈ l, x < m) : l.foldl max n < m := by
  induction l generalizing n with
  | nil => exact hn
  | cons x xs ih => exact ih _ (max_lt hn (hl x List.mem_cons_self)) fun y hy => hl y (List.mem_cons_of_mem x hy)

theorem sensorsOf_le (d : Nat) : sensorsOf d ≤ 8 := by
  unfold sensorsOf
  split <;> omega

/-- Settles O58: each command is its guard and its effect on the demands; a die's PWR_STAT shows them wherever its step was taken last
(`State.Stepped`), and what a trigger's firing, a log entry or a link leaves of supply and registers is `State.KeepsPlant` and
`State.KeepsHeat`. -/
theorem powerAndHeat : Obligations.PowerAndHeat := by
  unfold Obligations.PowerAndHeat
  intro s hs out stepped
  refine ⟨?_, fun v hv hw => execSupplyWarn_again hs hw hv, ?_, ?_, ?_, ?_, ?_, ?_⟩
  case refine_1 =>
    intro v hv hw
    refine ⟨_, execSupplyWarn_warns hs hv hw, ?_⟩
    have vlt : v.toNat < 2 ^ 16 := v.isLt
    obtain ⟨hwarn, hevt, hvin, hcount⟩ := s.warnCounted_spec vlt
    generalize s.warnCounted v.toNat = u at *
    have kept : u.warnOn.KeepsPower (u.warnOn.sendIrq (u.fld 24 .PWR_ROUTE 0 15 0) 24).settle :=
      (State.keepsPower_sendIrq ..).trans (State.keepsPower_settle _)
    have supply := kept.supply.trans u.supply_warnOn
    have shown {r : RegName} (hi lo : Nat) (hb : (regInfo r).blk = 0x2) (ho : (regInfo r).off + (regInfo r).stride * 0 < 0x10000)
        (hp : regPlace r 0 0 ≠ regPlace .PWR_STAT 0 0) (hr : regPlace r 0 0 < 0x1000000) : _ = u.fld 24 r 0 hi lo :=
      (kept.fld 24 hi lo hb ho).trans (congrArg (bits · hi lo) (u.reg_warnOn hb ho hp hr))
    refine ⟨(congrArg Supply.warn supply).trans hwarn, ?_, ?_, ?_, congrArg Supply.demand supply, fun d hd => kept.stepped (u.stepped_warnOn hd)⟩
    · exact (kept.flag 24 0 (by decide) (by decide)).trans
        ((congrArg (bit · 0) (u.reg_warnOn (by decide) (by decide) (by decide) (by decide))).trans hevt)
    · exact (shown 15 0 (by decide) (by decide) (by decide) (by decide)).trans hvin
    · exact (shown 31 0 (by decide) (by decide) (by decide) (by decide)).trans hcount
  case refine_2 =>
    intro v hw u
    have noted := execSupplyRise45v_noted (v := v) hs hw
    refine ⟨fun hv hf => ?_, fun hv hf => ?_, fun hv => ?_⟩
    · exact noted.trans (congrArg done ((if_pos hv).trans (if_pos ((s.flag_noted _ _).trans hf))))
    · exact noted.trans (congrArg done ((if_pos hv).trans ((if_neg (by rw [State.flag_noted, hf]; decide)).trans (State.armWarn_noted hw hv))))
    · exact noted.trans (congrArg done (if_neg (Nat.not_le.mpr hv)))
  case refine_3 =>
    intro hw hdue
    refine ⟨_, execSupplyWarnRelease_releases hs hw hdue, ?_⟩
    have fired : (s.fireTrigger 244).supply = s.supply := (s.keepsPlant_fireTrigger (by decide)).supply
    obtain ⟨hwarn, hevt, hmin, hdemand, hstep⟩ := (s.fireTrigger 244).warnOff_spec
    rw [fired] at hmin hdemand
    generalize (s.fireTrigger 244).warnOff = u at *
    have kept := u.keepsPower_settle
    exact ⟨(congrArg Supply.warn kept.supply).trans hwarn, (kept.flag 24 1 (by decide) (by decide)).trans hevt,
      (kept.fld 24 15 0 (by decide) (by decide)).trans hmin, (congrArg Supply.demand kept.supply).trans hdemand,
      fun d hd => kept.stepped (hstep d hd)⟩
  case refine_4 =>
    intro d w hw h0 hdue
    refine ⟨_, execWarningReturnStep_lowers hs hw h0 hdue, ?_⟩
    have kept := ((s.demandLowered d.val).dieStep d.val).keepsPower_settle
    refine ⟨?_, ?_, kept.stepped (State.stepped_dieStep ..)⟩
    · rw [kept.supply, State.supply_dieStep]
      exact look_put_self (fun _ => 0) s.supply.demand d.val _
    · rw [kept.supply, State.supply_dieStep]
      exact look_put_self (fun _ => 0) s.supply.due d.val (s.time + 10000)
  case refine_5 =>
    intro d est stack c
    refine ⟨_, execPowerDemandEval_evaluates hs, ?_⟩
    have elt : est.toNat < 2 ^ 16 := est.isLt
    have hlt : stackEst d.val stack < 2 ^ 16 := by
      unfold stackEst
      split
      · exact stack.isLt
      · decide
    generalize hp : (demandOf s.supply.power d.val).eval 5 s.time 10000 100000 (decide (c * 100 < est.toNat * 103))
      (decide (est.toNat * 103 < c * 90)) = p
    dsimp only
    generalize hk : (demandOf s.supply.stack d.val).eval 2 s.time 10000 100000
      (decide (s.fld d.val .PWR_HCEIL 0 15 0 * 100 < stackEst d.val stack * 103))
      (decide (stackEst d.val stack * 103 < s.fld d.val .PWR_HCEIL 0 15 0 * 90)) = k
    obtain ⟨hpower, hstack, regs⟩ := (s.estimated d.val est.toNat (stackEst d.val stack)).powerEvaluated_spec d.val p k
    have shown := (regs.reg d.val .PWR_EST 0 rfl (by decide)).trans (s.est_estimated ..)
    generalize (s.estimated d.val est.toNat (stackEst d.val stack)).powerEvaluated d.val p k = u at *
    have kept := (u.dieStep d.val).keepsPower_settle
    have est_kept : (u.dieStep d.val).settle.reg d.val .PWR_EST 0 = BitVec.ofNat 64 (est.toNat + 2 ^ 16 * stackEst d.val stack) :=
      (kept.regs.reg d.val .PWR_EST 0 rfl (by decide)).trans
        ((u.regW_setRegW_ne _ (regKey_ne_of_place d.val d.val (by decide) (by decide) (by decide))).trans shown)
    refine ⟨kept.stepped (u.stepped_dieStep d.val), ?_, ?_, ?_, fun hedge => ?_⟩
    · rw [State.fld, est_kept]
      exact bits_low_pair elt
    · rw [State.fld, est_kept]
      exact bits_high_pair elt hlt
    · rw [kept.supply]
      exact hpower
    · rw [kept.supply]
      refine (hstack hedge).trans (hk.symm.trans ?_)
      rw [show stackEst d.val stack = stack.toNat from if_pos hedge]
  case refine_6 =>
    intro x top now gap hold cold
    exact ⟨x.eval_first top now gap hold cold, fun r => x.eval_soon top now gap hold cold, fun l => x.eval_cooled top now gap hold,
      x.eval_warm top now gap hold⟩
  case refine_7 =>
    intro d temps hlen j
    have bytes : ∀ x ∈ temps.map (·.toNat), x < 2 ^ 8 := by
      intro x hx
      obtain ⟨b, -, rfl⟩ := List.mem_map.mp hx
      exact b.isLt
    have hj : j < 2 ^ 8 := foldl_max_lt _ _ (by decide) bytes
    obtain ⟨hstep, hdemand, htemp, hsens, hlimit, hrst⟩ :=
      s.thermalRead_spec d.val (temps := temps.map (·.toNat)) (by rw [List.length_map, hlen]; exact sensorsOf_le _) hj
    have reads := execThermalRead_reads hs hlen
    dsimp only at reads
    rw [htemp, hrst] at reads
    have untripped : s.rst.trip = false := by
      unfold State.stopped at hs
      exact (Bool.or_eq_false_iff.mp hs).2
    generalize s.thermalRead d.val (temps.map (·.toNat)) = u at *
    obtain ⟨t, ht, kept, htrip⟩ : ∃ t, execThermalRead d temps s = .next t ∧ u.KeepsHeat t ∧
        t.rst.trip = (decide (110 ≤ j) || (s.rst.hot.contains d.val && decide (97 ≤ j))) := by
      refine ⟨_, reads, ?_⟩
      rw [State.logsOnly_settle _ |>.rst]
      cases hcond : decide (110 ≤ j) || (s.rst.hot.contains d.val && decide (97 ≤ j))
      · rw [if_neg Bool.false_ne_true]
        exact ⟨(u.keepsHeat_rst _).trans (State.keepsHeat_settle _), untripped⟩
      · rw [if_pos rfl]
        exact ⟨(u.keepsHeat_dieTrip d.val).trans (State.keepsHeat_settle _), u.trip_dieTrip d.val⟩
    have word (r : RegName) (hi lo : Nat) (hb : (regInfo r).blk = 0x3) (i : Nat) (ho : (regInfo r).off + (regInfo r).stride * i < 0x10000) :
        t.fld d.val r i hi lo = u.fld d.val r i hi lo := congrArg (bits · hi lo) (kept.heat.reg d.val r i hb ho)
    refine ⟨t, ht, kept.stepped hstep, ?_, ?_, htrip, fun i hi => ?_, ?_⟩
    · rw [kept.supply]
      exact hdemand
    · exact (word _ _ _ rfl 0 (by decide)).trans htemp
    · have h8 : temps.length ≤ 8 := hlen.le.trans (sensorsOf_le _)
      rw [word _ _ _ rfl i (by simp only [regInfo]; omega), State.fld, hsens i (by rwa [List.length_map])]
      have byte : (temps.map (·.toNat)).getD i 0 = (temps.getD i 0).toNat := by
        simp only [List.getD_eq_getElem?_getD, List.getElem?_map]
        cases temps[i]? <;> rfl
      rw [byte]
      exact (bits_ofNat (by have := (temps.getD i 0).isLt; omega)).trans (by have := (temps.getD i 0).isLt; omega)
    · exact (congrArg (bit · 1) (kept.heat.reg d.val .THM_STAT 0 rfl (by decide))).trans hlimit

end Sys2Proof.Machine

/-! SUPPORT. The Hawk cartridge: detection, verification, completions, wear, release and loss (R415–R418). -/

namespace Sys2Proof.Machine

open Sys2Proof

/-! ### Detection and verification (R363, R416, R418) -/

/-- A cartridge taken in: TRAINING, its marks and its wear not yet known. -/
def State.cartTaken (s : State) : State :=
  ((State.setHawk { s with hawk := { s.hawk with wearSeen := false } } 1).setFld 24 .HWK_STAT 0 4 3 0).setFld 24 .HWK_STAT 0 15 8 0

theorem State.hawkInserted_absent {s : State} (h : s.hawkState = 0) : s.hawkInserted = s.cartTaken := if_pos h

theorem execHawkInsert_takes {s : State} (hs : s.stopped = false) (hl : (s.link .hwk).state = 1) (h : s.hawkState = 0) :
    execHawkInsert s = done (s.updLink .hwk fun k => { k with state := 2 }).cartTaken := by
  have absent : (s.updLink .hwk fun k => { k with state := 2 }).hawkState = 0 := h
  exact congrArg done ((if_neg (by simp [hs, hl])).trans (State.hawkInserted_absent absent))

theorem execHawkVerify_checks {s : State} {record : List Byte} (h : s.hawkState = 2) (hl : (s.link .hwk).state = 5) (hw : s.hawk.wearSeen = true) :
    execHawkVerify record s =
      let t := s.owe .hwk 3 (1 + (record.length + 15) / 16)
      done (if t.cartOk record = true then State.setHawk (t.setReg 24 .HWK_ID 0 (BitVec.ofNat 64 (fromBytes ((record.drop 12).take 8)))) 3
        else (t.retrainLink .hwk 0).setHawk 6) :=
  congrArg done (if_neg (by simp [h, hl, hw]))

/-! ### Completions (R374, R415, R417, R462) -/

/-- A completion of status 5 makes the cartridge read-only first. -/
def State.hcplTaken (s : State) (status : BitVec 4) (data : List Byte) : State :=
  let o := s.owe .hwk 1 (1 + (data.length + 15) / 16)
  if status = 5 then o.hawkReadOnly else o

/-- A read's completion: its answer, or for a read that nobody waits for its end, logged where it had timed out. -/
def State.hcplRead (s : State) (d : Drd) (status : BitVec 4) (data : List Byte) : State :=
  if d.own == .none then
    let t : State := { s with hrds := s.hrds.erase d }
    (if d.late then t.logErr 24 0x06 0 10 ⟨24, 10⟩ (some (d.addr % 2 ^ 48)) false 0 else t).hawkRelease
  else
    ({ s with hrds := s.hrds.map fun e => if e = d then
      { e with ans := some (if status = 0 ∧ data.length ≠ d.n then 3 else status.toNat, data) } else e }).hawkRelease

/-- A write's completion: its end, logged where it had timed out, and for a tier's write that failed the tier's. -/
def State.hcplWrite (s : State) (m : Mirw) (rest : List Mirw) (status : BitVec 4) : State :=
  let v := { s with hawk := { s.hawk with writes := rest } }
  State.hawkRelease (if m.late then v.logErr 24 0x06 0 10 ⟨24, 10⟩ (some (m.off % 2 ^ 48)) false 0
    else if status = 0 then v
    else match m.own with | .tier t => (v.hawkRefuse 3 m.off).endTier t 3 | _ => v)

section
variable {s : State} {tag : BitVec 14} {status : BitVec 4} {data : List Byte} (hl : (s.link .hwk).state = 5)
include hl

theorem execHcpl_read {d : Drd} (h : ((s.hcplTaken status data).hrds.find? fun d => d.tag == tag.toNat && d.ans.isNone) = some d) :
    execHcpl tag status data s = done ((s.hcplTaken status data).hcplRead d status data) := by
  unfold State.hcplTaken at h
  unfold execHcpl State.hcplTaken
  dsimp only at h ⊢
  rw [if_neg (not_not.mpr hl), h] <;> rfl

variable (hn : ((s.hcplTaken status data).hrds.find? fun d => d.tag == tag.toNat && d.ans.isNone) = none)
include hn

theorem execHcpl_write {m : Mirw} (h : ((s.hcplTaken status data).hawk.writes.find? fun m => m.tag == tag.toNat) = some m) :
    execHcpl tag status data s = done ((s.hcplTaken status data).hcplWrite m
      ((s.hcplTaken status data).hawk.writes.filter fun e => e.tag != tag.toNat) status) := by
  unfold State.hcplTaken at h hn
  unfold execHcpl State.hcplTaken
  dsimp only at h hn ⊢
  rw [if_neg (not_not.mpr hl), hn]
  dsimp only
  rw [h] <;> rfl

theorem execHcpl_orphan (h : ((s.hcplTaken status data).hawk.writes.find? fun m => m.tag == tag.toNat) = none) :
    execHcpl tag status data s = done ((s.hcplTaken status data).logSomewhere 24 0x06 0 10 ⟨24, 10⟩ false 0) := by
  unfold State.hcplTaken at h hn
  unfold execHcpl State.hcplTaken
  dsimp only at h hn ⊢
  rw [if_neg (not_not.mpr hl), hn]
  dsimp only
  rw [h]

end

theorem State.hcplRead_owned {s : State} {d : Drd} {status : BitVec 4} {data : List Byte} (h : d.own ≠ .none) :
    s.hcplRead d status data = State.hawkRelease { s with hrds := s.hrds.map fun e => if e = d then
      { e with ans := some (if status = 0 ∧ data.length ≠ d.n then 3 else status.toNat, data) } else e } :=
  if_neg (by simpa using h)

section
variable {s : State} {d : Drd} {status : BitVec 4} {data : List Byte} (h : d.own = .none)
include h

theorem State.hcplRead_unowned : s.hcplRead d status data =
    State.hawkRelease (if d.late then State.logErr { s with hrds := s.hrds.erase d } 24 0x06 0 10 ⟨24, 10⟩ (some (d.addr % 2 ^ 48)) false 0
      else { s with hrds := s.hrds.erase d }) :=
  if_pos (by simp [h])

end

/-! ### What leaves the cartridge alone (R365, R413, R417) -/

theorem State.KeepsPlant.flag {s t : State} (h : s.KeepsPlant t) (b : Nat) : t.flag 24 .HWK_STAT 0 b = s.flag 24 .HWK_STAT 0 b :=
  congrArg (bit · b) (h.regs.reg 24 .HWK_STAT 0 rfl (by decide))

theorem State.KeepsPlant.hawkState {s t : State} (h : s.KeepsPlant t) : t.hawkState = s.hawkState :=
  congrArg (bits · 2 0) (h.regs.reg 24 .HWK_STAT 0 rfl (by decide))

theorem State.keepsPlant_logCart (s : State) : s.KeepsPlant s.logCart := s.keepsPlant_logErr _ _ _ _ _ _ _ (by decide)

theorem State.keepsPlant_dropHwrs (s : State) : s.KeepsPlant s.dropHwrs := by
  unfold State.dropHwrs
  extract_lets unsent u
  have linked : s.KeepsPlant u := s.keepsPlant_updLink ..
  exact linked.trans ⟨rfl, rfl, fun hw => by simp [hw], .of_regs rfl⟩

theorem State.keepsPlant_setFld (s : State) {d : Nat} {r : RegName} {i : Nat} (hi lo v : Nat) (hb : (regInfo r).blk ≠ 0x12)
    (ho : (regInfo r).off + (regInfo r).stride * i + 8 * 0 < 0x10000) : s.KeepsPlant (s.setFld d r i hi lo v) :=
  s.keepsPlant_setRegW _ hb ho

theorem State.keepsPlant_endRestore (s : State) (status : Nat) : s.KeepsPlant (s.endRestore status) := by
  unfold State.endRestore
  dsimp only
  refine .trans ?_ (State.keepsPlant_orphanPosts ..)
  have shown := ((s.keepsPlant_setFld (d := 24) (r := .TWN_RSTAT) (i := 0) 3 0 status (by decide) (by decide)).trans
    (State.keepsPlant_setFld _ (d := 24) (r := .TWN_RSTAT) (i := 0) 4 4 0 (by decide) (by decide))).trans
    (State.keepsPlant_setFld _ (d := 24) (r := .TWN_RSTAT) (i := 0) 5 5 0 (by decide) (by decide))
  exact shown.trans (.of_eq rfl rfl rfl)

theorem State.keepsPlant_endHawkRestore (s : State) : s.KeepsPlant s.endHawkRestore := by
  unfold State.endHawkRestore
  split
  · split
    · exact s.keepsPlant_endRestore 5
    · exact .refl s
  · exact .refl s

theorem State.keepsPlant_countRecov (s : State) (l : LinkId) (retrain : Bool) : s.KeepsPlant (s.countRecov l retrain) := by
  cases l with
  | agd =>
    cases retrain
    · exact s.keepsPlant_setFld _ _ _ (by decide) (by decide)
    · exact s.keepsPlant_setFld _ _ _ (by decide) (by decide)
  | twn | hwk => exact .refl s

theorem State.keepsPlant_failDrds (s : State) : s.KeepsPlant s.failDrds := by
  unfold State.failDrds
  dsimp only
  refine .trans ?_ (State.keepsPlant_foldl (fun t _ => t.keepsPlant_errResponse _ _ _ _ (by decide)) _ _)
  exact .of_eq rfl rfl rfl

theorem State.keepsPlant_retrainLink (s : State) (l : LinkId) (n : Nat) : s.KeepsPlant (s.retrainLink l n) := by
  unfold State.retrainLink
  extract_lets old s1 s2 s3 sync s4
  have linked : s.KeepsPlant s2 := State.KeepsPlant.trans (t := s1) (.of_eq rfl rfl rfl) (s1.keepsPlant_updLink ..)
  have failed : s.KeepsPlant s4 := by
    unfold s4
    split
    · split
      · exact (linked.trans s2.keepsPlant_failDrds).trans (.of_eq rfl rfl rfl)
      · exact linked
    · exact linked
  split
  · exact failed.trans (State.keepsPlant_countRecov ..)
  · exact failed

/-- The module with its requests to the cartridge answered or given up, their failures not yet logged. -/
def State.hawkEmptied (s : State) : State :=
  { s with
    hrds := (s.hrds.filter fun d => d.own != .none).map fun d => if d.ans.isNone then { d with ans := some (22, []) } else d
    hawk := { s.hawk with writes := [] } }

theorem State.hawkState_hawkEmptied (s : State) : s.hawkEmptied.hawkState = s.hawkState := rfl

theorem State.flag_hawkEmptied (s : State) (b : Nat) : s.hawkEmptied.flag 24 .HWK_STAT 0 b = s.flag 24 .HWK_STAT 0 b := rfl

theorem State.keepsPlant_hawkDown (s : State) : s.hawkEmptied.KeepsPlant s.hawkDown :=
  State.keepsPlant_foldl (fun t _ => t.keepsPlant_errResponse _ _ _ _ (by decide)) _ _

/-! ### Wear (R415, R417, R498) -/

/-- What a wear report shows, in state t as in s: HWK_WEAR, the worn percent, and that it is known. -/
structure State.KeepsWear (s t : State) : Prop where
  wear : t.reg 24 .HWK_WEAR 0 = s.reg 24 .HWK_WEAR 0
  worn : t.fld 24 .HWK_STAT 0 15 8 = s.fld 24 .HWK_STAT 0 15 8
  seen : t.hawk.wearSeen = s.hawk.wearSeen

theorem State.KeepsWear.refl (s : State) : s.KeepsWear s := ⟨rfl, rfl, rfl⟩

theorem State.KeepsWear.trans {s t u : State} (h : s.KeepsWear t) (k : t.KeepsWear u) : s.KeepsWear u :=
  ⟨k.wear.trans h.wear, k.worn.trans h.worn, k.seen.trans h.seen⟩

theorem State.KeepsPlant.keepsWear {s t : State} (h : s.KeepsPlant t) : s.KeepsWear t :=
  ⟨h.regs.reg 24 .HWK_WEAR 0 rfl (by decide), congrArg (bits · 15 8) (h.regs.reg 24 .HWK_STAT 0 rfl (by decide)), h.seen⟩

/-- A mark of the cartridge set. -/
theorem State.keepsWear_mark (s : State) {n : Nat} (hn : n < 8) (v : Nat) : s.KeepsWear (s.setFld 24 .HWK_STAT 0 n n v) :=
  ⟨s.reg_setFld_ne _ _ _ (by decide),
    State.fld_setFld_disjoint _ _ _ _ _ le_rfl (by omega) (by decide) (.inr hn), rfl⟩

theorem State.flag_mark (s : State) (n b v : Nat) (hb : b < 64) :
    (s.setFld 24 .HWK_STAT 0 n n v).flag 24 .HWK_STAT 0 b = if b = n then v.testBit 0 else s.flag 24 .HWK_STAT 0 b :=
  s.flag_setFld_bit 24 .HWK_STAT 0 n v hb

/-- Read-only at the end: mark 4 stands, the others as they were. -/
theorem State.hawkReadOnly_spec (s : State) : s.KeepsWear s.hawkReadOnly ∧
    ∀ b < 64, s.hawkReadOnly.flag 24 .HWK_STAT 0 b = if b = 4 then true else s.flag 24 .HWK_STAT 0 b := by
  unfold State.hawkReadOnly
  split
  next h =>
    refine ⟨.refl s, fun b _ => ?_⟩
    split
    next hb => rw [hb]; exact h
    next => rfl
  next =>
    extract_lets cut u
    have told : (s.setFld 24 .HWK_STAT 0 4 4 1).KeepsPlant u := (State.keepsPlant_logCart _).trans (State.keepsPlant_dropHwrs _)
    have ended : (s.setFld 24 .HWK_STAT 0 4 4 1).KeepsPlant (if cut then u.endTier 1 3 else u) := by
      split
      · exact told.trans (u.keepsPlant_endTier 1 3)
      · exact told
    exact ⟨(s.keepsWear_mark (by decide) 1).trans ended.keepsWear, fun b hb => (ended.flag b).trans (s.flag_mark 4 b 1 hb)⟩

/-- The wear shown, as its record gives it. -/
def State.wearShown (s : State) (bytes : Word) (worn : Nat) : State :=
  let u := { s.owe .hwk 3 2 with hawk := { s.hawk with wearSeen := true } }
  (u.setReg 24 .HWK_WEAR 0 bytes).setFld 24 .HWK_STAT 0 15 8 worn

theorem State.wearShown_spec (s : State) (bytes : Word) {worn : Nat} (hw : worn < 256) :
    (s.wearShown bytes worn).reg 24 .HWK_WEAR 0 = bytes ∧ (s.wearShown bytes worn).fld 24 .HWK_STAT 0 15 8 = worn ∧
      (s.wearShown bytes worn).hawk.wearSeen = true ∧ ∀ b < 8, (s.wearShown bytes worn).flag 24 .HWK_STAT 0 b = s.flag 24 .HWK_STAT 0 b := by
  refine ⟨?_, ?_, rfl, fun b hb => ?_⟩
  · exact (State.reg_setFld_ne _ _ _ _ (by decide)).trans (State.regW_setRegW_self ..)
  · exact (State.fld_setFld_same _ _ _ _ _ (by decide) (by decide)).trans (Nat.mod_eq_of_lt hw)
  · refine (State.flag_setFld_self _ _ _ _ _ (by decide) (by omega)).trans ((if_neg (by omega)).trans ?_)
    exact congrArg (bit · b) (State.regW_setRegW_ne _ _ (by decide))

/-- The mark of 90 % of rated life, set once with an interrupt and a log entry. -/
def State.wornMarked (s : State) (bytes : Word) : State :=
  if 36000000000000000 ≤ bytes.toNat && !s.flag 24 .HWK_STAT 0 3 then
    ((s.setFld 24 .HWK_STAT 0 3 3 1).sendIrq (s.fld 24 .HWK_ROUTE 0 15 0) 24).logCart
  else s

theorem State.wornMarked_spec (s : State) (bytes : Word) : s.KeepsWear (s.wornMarked bytes) ∧
    (s.wornMarked bytes).flag 24 .HWK_STAT 0 3 = (s.flag 24 .HWK_STAT 0 3 || decide (36000000000000000 ≤ bytes.toNat)) ∧
    (s.wornMarked bytes).flag 24 .HWK_STAT 0 4 = s.flag 24 .HWK_STAT 0 4 := by
  unfold State.wornMarked
  split
  next h =>
    have told : (s.setFld 24 .HWK_STAT 0 3 3 1).KeepsPlant (((s.setFld 24 .HWK_STAT 0 3 3 1).sendIrq (s.fld 24 .HWK_ROUTE 0 15 0) 24).logCart) :=
      (State.keepsPlant_sendIrq ..).trans (State.keepsPlant_logCart _)
    have reached : decide (36000000000000000 ≤ bytes.toNat) = true := (Bool.and_eq_true_iff.mp h).1
    refine ⟨(s.keepsWear_mark (by decide) 1).trans told.keepsWear, ?_, ?_⟩
    · rw [told.flag, s.flag_mark 3 3 1 (by decide), reached, Bool.or_true]
      rfl
    · rw [told.flag, s.flag_mark 3 4 1 (by decide)]
      rfl
  next h =>
    refine ⟨.refl s, ?_, rfl⟩
    cases hf : s.flag 24 .HWK_STAT 0 3
    · have below : decide (36000000000000000 ≤ bytes.toNat) = false := by simpa [hf] using h
      rw [below]
      rfl
    · rfl

theorem execWearReadout_reports {s : State} {bytes : Word} {worn : BitVec 8} (h : s.hawkState = 2 ∨ s.hawkState = 3 ∨ s.hawkState = 4)
    (hl : (s.link .hwk).state = 5) : execWearReadout bytes worn s =
      let u := (s.wearShown bytes worn.toNat).wornMarked bytes
      let v := if 40000000000000000 ≤ bytes.toNat then u.hawkReadOnly else u
      done (v.mcLog 0x0008 0 24 (v.fld 24 .HWK_STAT 0 31 0) bytes.toNat (v.reg 24 .HWK_ID 0).toNat) := by
  have known : ¬ ((s.hawkState ≠ 2 ∧ s.hawkState ≠ 3 ∧ s.hawkState ≠ 4) ∨ (s.link .hwk).state ≠ 5) := by
    rw [hl]
    omega
  exact congrArg done (if_neg known)

/-! ### Release (R418, R419) -/

theorem execHwkCtlRelease_arrives {b s : State} {q : Src} {v : Word} (h : b.regAccess q 24 .HWK_CTL 0 = (true, s)) :
    execHwkCtlRelease q v b = done (s.wrHwkCtl v (BitVec.allOnes 64)) := regCmd_arrives _ h

/-- HWK_CTL as a write leaves it. -/
def State.hwkCtlWritten (s : State) (v : Word) : State :=
  s.setReg 24 .HWK_CTL 0 (plainWrite (regInfo .HWK_CTL) (s.reg 24 .HWK_CTL 0) v (BitVec.allOnes 64))

theorem State.force_hwkCtlWritten (s : State) (v : Word) : (s.hwkCtlWritten v).flag 24 .HWK_CTL 0 1 = bit v 1 := by
  rw [State.flag, State.hwkCtlWritten, State.reg, State.setReg, State.regW_setRegW_self]
  exact getLsbD_plainWrite (by decide) _ _ (by decide)

theorem State.inUse_hwkCtlWritten (s : State) (v : Word) : (s.hwkCtlWritten v).hawkInUse = s.hawkInUse := rfl

theorem State.hawkInUse_iff (s : State) : s.hawkInUse = true ↔ s.tierRuns 1 = true ∨ ∃ r, s.restore = some r ∧ r.src = 1 := by
  unfold State.hawkInUse
  cases s.restore <;> simp

/-- A write that asks for the release of an ACTIVE cartridge. -/
theorem State.wrHwkCtl_asks {s : State} {v : Word} (hv : bit v 0 = true) (h : s.hawkState = 3) : s.wrHwkCtl v (BitVec.allOnes 64) =
    if s.hawkInUse && !bit v 1 then s.hwkCtlWritten v else (s.hwkCtlWritten v).hawkLeaves := by
  have state : (s.hwkCtlWritten v).hawkState = 3 :=
    (congrArg (bits · 2 0) (State.regW_setRegW_ne _ _ (by decide))).trans h
  have go : ¬ (!bit (v &&& BitVec.allOnes 64) 0 || (s.hwkCtlWritten v).hawkState != 3) = true := by
    rw [BitVec.and_allOnes, hv, state]
    decide
  refine (if_neg go).trans ?_
  rw [← s.force_hwkCtlWritten v, ← s.inUse_hwkCtlWritten v]
  rfl

/-- HREL goes once no request is outstanding. -/
theorem State.hawkRelease_goes {s : State} (h : s.hawkState = 4) (hr : s.hawk.hrel = false) (hw : ∀ m ∈ s.hawk.writes, m.late = true)
    (hd : ∀ d ∈ s.hrds, d.ans ≠ none ∨ d.late = true) :
    s.hawkRelease = State.send { s with hawk := { s.hawk with hrel := true } } .hwk { type := 0x74 } := by
  have idle : (s.hrds.any fun d => d.ans.isNone && !d.late) = false := by
    refine List.any_eq_false.mpr fun d hmem => ?_
    rcases hd d hmem with h | h
    · simp [h]
    · rw [h]; simp
  have late : s.hawk.writes.all (·.late) = true := List.all_eq_true.mpr hw
  exact if_pos ⟨h, by rw [hr]; rfl, late, by rw [idle]; rfl⟩

/-- A release complete leaves the link DISABLED and the cartridge RELEASED. -/
theorem execReleaseComplete_spec {s : State} (h : s.hawkState = 4) : ∃ t, execReleaseComplete s = .next t ∧ t.hawkState = 5 ∧
    (t.link .hwk).state = 0 ∧ t.hawk.hrel = false := by
  refine ⟨_, congrArg done (if_pos h), ?_⟩
  generalize s.hawkDown = u
  have link : ((u.retrainLink .hwk 0).link .hwk).state = 0 := congrArg Link.state (u.link_retrainLink .hwk 0)
  generalize u.retrainLink .hwk 0 = v at *
  refine ⟨(State.keepsPlant_settle _).hawkState.trans ?_, ?_, ?_⟩
  · exact State.fld_setFld_same v 24 .HWK_STAT 0 5 (by decide) (by decide)
  · rw [(State.logsOnly_settle _).keepsLinks.link]
    exact link
  · rw [(State.logsOnly_settle _).hawk]

/-! ### Loss of signal (R418) -/

/-- A cartridge gone without a release: ABSENT, with SURPRISE, its requests failed. -/
def State.surprised (s : State) : State :=
  State.hawkDown (State.setFld (State.setHawk { s with hawk := { s.hawk with hrel := false } } 0) 24 .HWK_STAT 0 5 5 1)

theorem State.surprised_spec (s : State) :
    s.surprised.hawkState = 0 ∧ s.surprised.flag 24 .HWK_STAT 0 5 = true ∧ s.surprised.hawk.writes = [] := by
  unfold State.surprised
  generalize { s with hawk := { s.hawk with hrel := false } } = u
  have kept := State.keepsPlant_hawkDown ((u.setHawk 0).setFld 24 .HWK_STAT 0 5 5 1)
  refine ⟨kept.hawkState.trans ?_, (kept.flag 5).trans ?_, kept.writes rfl⟩
  · rw [State.hawkState_hawkEmptied, State.hawkState, State.fld_setFld_disjoint _ _ _ _ _ (by decide) (by decide) (by decide) (by decide)]
    exact State.fld_setFld_same u 24 .HWK_STAT 0 0 (by decide) (by decide)
  · rw [State.flag_hawkEmptied, State.flag_mark _ 5 5 1 (by decide)]
    rfl

/-- What uses the cartridge ends, and its link falls to DETECT. -/
def State.cartLost (s : State) : State := State.logCart (State.retrainLink (State.endHawkRestore (s.endTier 1 5)) .hwk 1)

theorem State.keepsPlant_cartLost (s : State) : s.KeepsPlant s.cartLost :=
  (((s.keepsPlant_endTier 1 5).trans (State.keepsPlant_endHawkRestore _)).trans (State.keepsPlant_retrainLink ..)).trans (State.keepsPlant_logCart _)

theorem State.link_cartLost (s : State) : (s.cartLost.link .hwk).state = 1 := by
  unfold State.cartLost State.logCart
  rw [(State.logsOnly_logErr ..).keepsLinks.link, State.link_retrainLink]
  rfl

section
variable {s : State} (h0 : s.hawkState ≠ 0)
include h0

theorem execHawkSignalLoss_released (h : s.hawkState = 5 ∨ s.hawkState = 6) :
    execHawkSignalLoss s = done (State.updLink (s.setHawk 0) .hwk fun k => { k with state := 1 }) :=
  congrArg done ((if_neg h0).trans (if_pos h))

theorem execHawkSignalLoss_surprise (h5 : s.hawkState ≠ 5) (h6 : s.hawkState ≠ 6) : execHawkSignalLoss s = done s.surprised.cartLost :=
  congrArg done ((if_neg h0).trans (if_neg (not_or.mpr ⟨h5, h6⟩)))

end

/-- Settles O53: each command is its guard and its effect; what ends a tier, a restore or a link changes nothing of the cartridge's registers
and adds no write of it (`State.KeepsPlant`). -/
theorem cartridgeCommands : Obligations.CartridgeCommands := by
  unfold Obligations.CartridgeCommands
  intro s out
  refine ⟨fun hs hl h => execHawkInsert_takes hs hl h, fun record h hl hw => execHawkVerify_checks h hl hw, ?_, ?_, ?_,
    fun h hr hw hd => State.hawkRelease_goes h hr hw hd, fun h => execReleaseComplete_spec h, fun h => ?_, fun h0 h5 h6 => ?_⟩
  case refine_1 =>
    intro tag status data hl o u asked wrote
    refine ⟨fun d hd hown => ?_, fun d hd hown => ⟨fun hlate => ?_, fun hlate => ?_⟩,
      fun m hn hm => ⟨fun hlate => ?_, fun hlate h0 => ?_, fun t hlate h0 hown => ?_⟩, fun hn hm => ⟨_, execHcpl_orphan hl hn hm⟩⟩
    · exact (execHcpl_read hl hd).trans (congrArg done (State.hcplRead_owned hown))
    · refine (execHcpl_read hl hd).trans (congrArg done ((State.hcplRead_unowned hown).trans ?_))
      rw [hlate]
      rfl
    · refine (execHcpl_read hl hd).trans (congrArg done ((State.hcplRead_unowned hown).trans ?_))
      rw [hlate]
      rfl
    · exact (execHcpl_write hl hn hm).trans (congrArg (fun x => done (State.hawkRelease x)) (if_pos hlate))
    · exact (execHcpl_write hl hn hm).trans
        (congrArg (fun x => done (State.hawkRelease x)) ((if_neg (by simp [hlate])).trans (if_pos h0)))
    · refine (execHcpl_write hl hn hm).trans
        (congrArg (fun x => done (State.hawkRelease x)) ((if_neg (by simp [hlate])).trans ((if_neg h0).trans ?_)))
      rw [hown] <;> rfl
  case refine_2 =>
    intro bytes worn h hl
    refine ⟨_, execWearReadout_reports h hl, ?_⟩
    obtain ⟨hwear, hworn, hseen, hflag⟩ := s.wearShown_spec bytes (worn := worn.toNat) worn.isLt
    generalize s.wearShown bytes worn.toNat = w at *
    obtain ⟨marked, mark3, mark4⟩ := w.wornMarked_spec bytes
    rw [hflag 3 (by decide)] at mark3
    rw [hflag 4 (by decide)] at mark4
    generalize w.wornMarked bytes = u at *
    have ended : u.KeepsWear (if 40000000000000000 ≤ bytes.toNat then u.hawkReadOnly else u) ∧
        State.flag (if 40000000000000000 ≤ bytes.toNat then u.hawkReadOnly else u) 24 .HWK_STAT 0 3 = u.flag 24 .HWK_STAT 0 3 ∧
        State.flag (if 40000000000000000 ≤ bytes.toNat then u.hawkReadOnly else u) 24 .HWK_STAT 0 4 =
          (u.flag 24 .HWK_STAT 0 4 || decide (40000000000000000 ≤ bytes.toNat)) := by
      obtain ⟨kept, flags⟩ := u.hawkReadOnly_spec
      split
      next hb => exact ⟨kept, (flags 3 (by decide)).trans rfl, (flags 4 (by decide)).trans (by rw [decide_eq_true hb, Bool.or_true]; rfl)⟩
      next hb => exact ⟨.refl u, rfl, by rw [decide_eq_false hb, Bool.or_false]⟩
    generalize (if 40000000000000000 ≤ bytes.toNat then u.hawkReadOnly else u) = v at *
    obtain ⟨kept, flag3, flag4⟩ := ended
    have told : v.KeepsPlant (v.mcLog 0x0008 0 24 (v.fld 24 .HWK_STAT 0 31 0) bytes.toNat (v.reg 24 .HWK_ID 0).toNat).settle :=
      (v.keepsPlant_mcLog ..).trans (State.keepsPlant_settle _)
    have wear := (marked.trans kept).trans told.keepsWear
    exact ⟨wear.wear.trans hwear, wear.worn.trans hworn, wear.seen.trans hseen, (told.flag 3).trans (flag3.trans mark3),
      (told.flag 4).trans (flag4.trans (by rw [mark4]))⟩
  case refine_3 =>
    intro b q v h hv h3 w used
    have asks := (execHwkCtlRelease_arrives (v := v) h).trans (congrArg done (State.wrHwkCtl_asks hv h3))
    refine ⟨fun hused hf => ?_, fun hfree => ?_⟩
    · exact asks.trans (congrArg done (if_pos (by rw [s.hawkInUse_iff.mpr hused, hf]; rfl)))
    · refine asks.trans (congrArg done (if_neg ?_))
      rcases hfree with hidle | hforce
      · rw [Bool.eq_false_iff.mpr fun hin => hidle (s.hawkInUse_iff.mp hin)]
        simp
      · rw [hforce]
        simp
  case refine_4 =>
    have h0 : s.hawkState ≠ 0 := by omega
    exact execHawkSignalLoss_released h0 h
  case refine_5 =>
    have lost := execHawkSignalLoss_surprise h0 h5 h6
    obtain ⟨hstate, hflag, hwrites⟩ := s.surprised_spec
    have kept := (s.surprised.keepsPlant_cartLost).trans (State.keepsPlant_settle _)
    refine ⟨lost, _, lost, kept.hawkState.trans hstate, (kept.flag 5).trans hflag, ?_, kept.writes hwrites⟩
    rw [(State.logsOnly_settle _).keepsLinks.link]
    exact State.link_cartLost _

end Sys2Proof.Machine
